-- ==== Sys2Proof/Word.lean ====
section
/-! DEFINITION. The word types of the ZN512: 32-bit registers (R12), bytes, and DSP-core words (R9). -/

namespace Sys2Proof

/-- A 32-bit register, scalar or instruction word. -/
abbrev Word := BitVec 32

/-- One byte of a byte-addressed memory. -/
abbrev Byte := BitVec 8

end Sys2Proof
end

