-- ==== Sys2Proof/Syntax.lean ====
section
/-! DEFINITION. The commands and events of the ZN512: the one inductive Instr, a constructor per row of
spec/opcode_table.json, and the plain data its constructors carry. -/

namespace Sys2Proof

/-- Initiators of register accesses (R459). `pod p` is a core of pod `p`. -/
inductive Initiator where
  | host
  | firmware
  | pod (p : Fin 12)
  | jtag
  | group
  deriving DecidableEq, Repr

/-- A command entry of a command queue (R73), less its opcode, which the constructor carrying it gives. -/
structure PqCmd where
  queue : Fin 16
  tag : BitVec 16
  flags : BitVec 16
  timeline : BitVec 2
  target : BitVec 16
  params : List Word
  deriving DecidableEq, Repr

/-- An entry of a tag window as the twin hands it over (R75, R493): tag, opcode, and the final completion if there was one. -/
structure WindowTag where
  tag : BitVec 16
  op : BitVec 16
  done : Option (BitVec 16 × List Word)
  deriving DecidableEq, Repr


/-- The commands and events of the ZN512: one constructor per row of spec/opcode_table.json. -/
inductive Instr where
  /-- BOUNDARY_EVENT (R21). At the first CK_TMU tick at or after a grid boundary of an enabled timeline, the device runs the fence, commits or aborts named transaction groups, applies bank switches and releases the new period's jobs. -/
  | boundaryEvent
  /-- POD_RELEASE (R99). Pod n begins taking non-EARLY jobs of the new period 64 × n core cycles after POD0. -/
  | podRelease (p : Fin 12) (n : Fin 4)
  /-- TIMELINE_ENABLE_WRITE (R46). Setting TMU_TLn_CTL.ENABLE starts the grid if the grid registers are valid; otherwise the write is discarded with IGNORED_WRITE. -/
  | timelineEnableWrite (init : Initiator) (n : Fin 4) (value : Word)
  /-- TIMELINE_DISABLE_WRITE (R46). Clearing ENABLE runs a final fence that expires every period, aborts armed groups with TIMELINE_OFF and discards staged effects. -/
  | timelineDisableWrite (init : Initiator) (n : Fin 4) (value : Word)
  /-- HUNG_CORE_DECLARE (R51). A stopped job that has not ended 4 periods after its period expired makes the dispatcher mask its core, free its slot and return its token. -/
  | hungCoreDeclare (c : Fin 108)
  /-- HUNG_CORE_RECOVERY (R107). Firmware resets a hung core, runs its self-test, and clears its mask bit or brings in the spare. -/
  | hungCoreRecovery (c : Fin 108) (passed : Bool)
  /-- SQ_DOORBELL (R67). A write to SQ_TAIL gives the device new submission entries, or is counted in BADDB if the index is out of range. -/
  | sqDoorbell (init : Initiator) (pair : Fin 80) (value : Word)
  /-- CQ_HEAD_DOORBELL (R68). A write to CQ_HEAD releases completion slots and re-arms the ring's interrupt. -/
  | cqHeadDoorbell (init : Initiator) (pair : Fin 80) (value : Word)
  /-- COMMAND_FETCH (R74). Once completion room exists, the device fetches a command entry and checks it, compares it with the tag window and mirrors it when paired. -/
  | commandFetch (q : Fin 16) (entry : List Byte × BitVec 16)
  /-- QUEUE_ENABLE (R66). Setting a queue pair's ENABLE starts it, unless a ring lies outside the outbound window. -/
  | queueEnable (init : Initiator) (pair : Fin 80) (value : Word)
  /-- QUEUE_DISABLE (R71). Clearing ENABLE stops fetching; fetched commands finish, and the indices reset once RUNNING falls. -/
  | queueDisable (init : Initiator) (pair : Fin 80) (value : Word)
  /-- MSIX_COAL_TIMER (R70). The oldest unreleased completion reaching TIME µs raises the ring's MSI-X vector. -/
  | msixCoalTimer (pair : Fin 80)
  /-- EVENT_BACKLOG_POST (R81). A backlogged event is posted on CQ0 once a held-back slot frees. -/
  | eventBacklogPost
  /-- UP_COMPLETION_RELEASE (R89). A user-plane completion held for a full ring is written once the ring has room. -/
  | upCompletionRelease (m : Fin 64)
  /-- PCIE_RESET (R410). A hot reset, host link-down, FLR or low PERST_N disables every queue pair and clears the MSI-X table. -/
  | pcieReset
  /-- DEVICE_INFO (R82). Returns part, stepping, firmware version, running image, role and cores in service. -/
  | deviceInfo (c : PqCmd)
  /-- DEVICE_RESTART (R82). Completes OK and starts a firmware (WARM) or cold restart 1 ms later. -/
  | deviceRestart (c : PqCmd)
  /-- HEALTH_READ (R531). Writes the most recent health records, oldest first, into a host buffer. -/
  | healthRead (c : PqCmd)
  /-- UPQ_BIND (R82). Binds a user-plane pair to a range of carrier contexts or narrowband channels. -/
  | upqBind (c : PqCmd)
  /-- EVENT_MASK (R82). Sets which event classes are enabled and returns the previous mask. -/
  | eventMask (c : PqCmd)
  /-- ECHO (R82). Returns its first parameter words. -/
  | echo (c : PqCmd)
  /-- CARRIER_ADD (R82). Stages a new wideband carrier context for its target period after the front-end or fronthaul checks. -/
  | carrierAdd (c : PqCmd)
  /-- CARRIER_MODIFY (R82). Stages changed parameters of an existing carrier context. -/
  | carrierModify (c : PqCmd)
  /-- CARRIER_REMOVE (R530). Removes a carrier at its target boundary, where that carrier's work of that period onward is dropped. -/
  | carrierRemove (c : PqCmd)
  /-- CARRIER_STATUS (R82). Returns the state, timeline, last period served and drop count of a carrier. -/
  | carrierStatus (c : PqCmd)
  /-- NB_CHANNEL_ADD (R263). Adds a receive or transmit role to a WINDOW narrowband channel from its target period. -/
  | nbChannelAdd (c : PqCmd)
  /-- NB_CHANNEL_REMOVE (R263). Removes both roles of a narrowband channel at its boundary. -/
  | nbChannelRemove (c : PqCmd)
  /-- PLAN_POST (R83). Accepts allocation records for a period before its seal, or completes DEADLINE_DROPPED after it. -/
  | planPost (c : PqCmd) (recs : List Byte)
  /-- PLAN_CANCEL (R82). Cancels a period's plan records unless its graph is already in the mailbox. -/
  | planCancel (c : PqCmd)
  /-- WEIGHTS_LOAD (R82). Copies a beam-weight set into the central buffer under a handle. -/
  | weightsLoad (c : PqCmd) (data : List Byte)
  /-- WEIGHTS_FREE (R82). Frees a weight handle that no live plan names. -/
  | weightsFree (c : PqCmd)
  /-- GRAPH_BUILD (R83). At the start of period N−1, firmware builds the job graph from the sealed plan and places it in the mailbox; PLAN_POST completes. -/
  | graphBuild (n : Fin 4) (air : BitVec 16) (graphs : List (List Byte))
  /-- CAL_RUN (R287). Checks a calibration request, posts ACCEPTED and starts gathering statistics for its targets. -/
  | calRun (c : PqCmd)
  /-- CAL_STATISTIC_DONE (R287). A target's statistic window completes; the correction is solved into the inactive bank and armed, or the target fails. -/
  | calStatisticDone (kind : Fin 4) (target : Fin 112) (linkDown : Bool) (fig : Word) (stat : List Word)
  /-- CAL_TIME_LIMIT (R287). A kind's time limit passes, and targets still without a statistic fail. -/
  | calTimeLimit (kind : Fin 4) (target : Fin 112)
  /-- CAL_VERIFY_DONE (R287). The post-switch verify window completes; a worse figure reverts the bank, and the final completion is posted. -/
  | calVerifyDone (kind : Fin 4) (target : Fin 112) (measured : Word × List Word)
  /-- ALIGN_EXCITATION (R299). In a G run of at least 16 µs, one TX chain re-sends samples and the target RX chains measure the coupling. -/
  | alignExcitation (elt : Fin 64)
  /-- CAL_STATUS (R84). Returns the active bank, quality figure, last commit period and age for a target. -/
  | calStatus (c : PqCmd)
  /-- CAL_AUTO (R291). Sets the interval of automatic calibration runs of a kind. -/
  | calAuto (c : PqCmd)
  /-- CAL_AUTO_RUN (R291). The automatic interval expires, and a run of the kind starts over every eligible target. -/
  | calAutoRun (kind : Fin 4)
  /-- DPD_BANK_SELECT (R240). Arms a DPD bank switch for a chain at its target boundary. -/
  | dpdBankSelect (c : PqCmd)
  /-- TIME_GET (R84). Returns TMU time snapped at one tick and the time quality state. -/
  | timeGet (c : PqCmd)
  /-- TIME_SOURCE (R396). Selects PTP, 1PPS with time of day, or free-running as the time source. -/
  | timeSource (c : PqCmd)
  /-- TIME_STEP (R391). Steps TMU time by a signed offset; negative offsets are refused while a timeline is enabled. -/
  | timeStep (c : PqCmd)
  /-- TIMELINE_SET (R84). Writes the grid of a disabled timeline after checking it. -/
  | timelineSet (c : PqCmd)
  /-- TIMELINE_ENABLE (R528). Enables or disables a timeline and completes after the first boundary, after the final fence, or at once. -/
  | timelineEnable (c : PqCmd)
  /-- SYNCE_SET (R397). Selects the SyncE port and enables SYNCE_CLK. -/
  | synceSet (c : PqCmd)
  /-- POWER_SET (R416). Queues a power-state request for a domain in the PMU queue. -/
  | powerSet (c : PqCmd)
  /-- POWER_STATUS (R426). Returns a domain's state, refusal count and last refuser. -/
  | powerStatus (c : PqCmd)
  /-- PARK (R423). Checks the preconditions, then finishes commands, trims the RC increment, enters L1, retains the floor domains and stops the root PLL. -/
  | park (c : PqCmd) (wake : Option (BitVec 8))
  /-- PARK_WAKE (R425). A timer, GPIO or host wake relocks the PLL, switches the floor back on and completes PARK with the time parked. -/
  | parkWake (src : BitVec 8)
  /-- THERMAL_STATUS (R84). Returns the hottest junction value, its sensor, the thermal state and the broken-sensor count. -/
  | thermalStatus (c : PqCmd)
  /-- POWER_CAP (R435). Sets the power limit that firmware enforces through the pod cap. -/
  | powerCap (c : PqCmd)
  /-- TWIN_ATTACH (R493). Brings up the twin link, exchanges versions, chooses roles and snapshots state to the STANDBY. -/
  | twinAttach (c : PqCmd)
  /-- TWIN_ATTACH_COMPLETE (R493). The STANDBY applies the snapshot, mirroring begins, and both final completions post the role taken. -/
  | twinAttachComplete (same partnerTl : Bool) (partnerActive : Bool) (partnerId : BitVec 64) (regs : List (BitVec 28 × Word)) (wins : List (Fin 16 × List WindowTag)) (cars : List (Fin 256 × Fin 4 × Bool × List Word)) (cmds : List (Fin 16 × List Byte))
  /-- TWIN_DETACH (R491). The ACTIVE tells the STANDBY to leave the pair, and both become SOLO. -/
  | twinDetach (c : PqCmd)
  /-- TWIN_STATUS (R84). Returns role, partner state, missed heartbeats and unacknowledged commands. -/
  | twinStatus (c : PqCmd)
  /-- TWIN_SWAP (R492). Stages a planned exchange of roles at the target boundary. -/
  | twinSwap (c : PqCmd)
  /-- REC_CONFIG (R497). Places the recorder region and sets the capture selections. -/
  | recConfig (c : PqCmd)
  /-- REC_START (R498). Discards held data and starts recording with a snapshot. -/
  | recStart (c : PqCmd)
  /-- REC_TRIGGER (R498). Triggers the recorder and completes at the freeze. -/
  | recTrigger (c : PqCmd)
  /-- REC_STATUS (R85). Returns the recorder state, bytes recorded and oldest period held. -/
  | recStatus (c : PqCmd)
  /-- REC_FREEZE (R498). POST periods after a trigger, the recorder becomes FROZEN. -/
  | recFreeze
  /-- REC_REPLAY (R502). Checks the recorded interval and starts a replay of it in a quarantined pod. -/
  | recReplay (c : PqCmd)
  /-- REPLAY_PERIOD_RELEASE (R502). The next replayed period is released once the previous one finishes and its pacing time has passed. -/
  | replayPeriodRelease (graphs : List (List Byte)) (order : List (Nat × Fin 108))
  /-- REPLAY_COMPLETE (R502). The replay ends, the pod returns to MASKED, and the final completion reports comparisons and mismatches. -/
  | replayComplete (results digests : List (Option Word))
  /-- BAR4_WRITE (R500). A host write through BAR4 into the recorder region, accepted only while the recorder is STOPPED. -/
  | bar4Write (off : BitVec 24) (data : List Byte)
  /-- FW_STAGE (R450). Verifies a firmware or board-table container and writes it to the inactive slot. -/
  | fwStage (c : PqCmd) (image : List Byte)
  /-- FW_STAGE_COMPLETE (R450). Verification and flash writing finish, and the final completion reports the staged version. -/
  | fwStageComplete
  /-- FW_SWITCH (R91). Stops fetching at the seal point and hands over to the staged image at the boundary. -/
  | fwSwitch (c : PqCmd)
  /-- POD_DRAIN (R480). Leaves a pod out of new graphs and then sets it MASKED. -/
  | podDrain (c : PqCmd)
  /-- POD_DRAIN_COMPLETE (R480). The draining pod's busy fields read 0, and POD_DRAIN completes. -/
  | podDrainComplete (p : Fin 12)
  /-- POD_LOAD (R481). Checks a pod image and loads it into a drained pod. -/
  | podLoad (c : PqCmd) (image : List Byte)
  /-- POD_LOAD_COMPLETE (R481). Once the coprocessors are idle, the pod's cores are reset, the code is copied and POD_LOAD completes. -/
  | podLoadComplete (p : Fin 12)
  /-- POD_RETURN (R482). Sets RUN on unmasked cores and returns a drained pod to LIVE. -/
  | podReturn (c : PqCmd)
  /-- CORE_SPARE (R478). Masks a core and, once it holds no job, brings in the pod's spare. -/
  | coreSpare (c : PqCmd)
  /-- LANE_LOOPBACK (R365). Sets the loopback mode of a free lane, or of a converter lane pair. -/
  | laneLoopback (c : PqCmd)
  /-- LANE_PATTERN (R363). Sets the PRBS generator, checker and error injection of a free lane. -/
  | lanePattern (c : PqCmd)
  /-- EYE_SCAN (R367). Starts a 96-point eye scan of a CRX or EL lane. -/
  | eyeScan (c : PqCmd)
  /-- EYE_SCAN_COMPLETE (R367). The scan ends, receive service resumes and the width and height are reported. -/
  | eyeScanComplete (lane : Fin 112) (pts : BitVec 128)
  /-- LEDGER_SNAPSHOT (R36). Fires the ledger snapshot strobe and packs the shadows into a host buffer. -/
  | ledgerSnapshot (c : PqCmd)
  /-- STATS_READ (R325). Returns the most recent complete ring statistics sample set. -/
  | statsRead (c : PqCmd)
  /-- TXN_OPEN (R57). Opens a staging slot for a group with its timeline and target period. -/
  | txnOpen (c : PqCmd)
  /-- TXN_ADD (R56). Reads write entries from host memory and stages them in an open group. -/
  | txnAdd (c : PqCmd) (data : List Byte)
  /-- TXN_ARM (R59). Arms a group for its boundary, or aborts it at once as LATE. -/
  | txnArm (c : PqCmd)
  /-- TXN_CANCEL (R61). Frees an open group, or an armed group before its seal point. -/
  | txnCancel (c : PqCmd)
  /-- TXN_REPORT (R59). Writes the refusal records of the slot's last resolved group. -/
  | txnReport (c : PqCmd)
  /-- DL_TB (R87). A downlink transport-block entry is taken, and its data is moved and answered with DL_TAKEN. -/
  | dlTb (m : Fin 64) (entry data : List Byte) (dst : BitVec 40)
  /-- UL_BUF (R87). An empty uplink result buffer is posted for later UL_TB results. -/
  | ulBuf (m : Fin 64) (entry : List Byte)
  /-- NB_TX (R265). A narrowband packet entry is checked and queued on its channel, or dropped with a flag. -/
  | nbTx (m : Fin 64) (entry data : List Byte)
  /-- UL_TB_RESULT (R88). A decoded uplink transport block is written into the oldest fitting UL_BUF and reported, or reported with NO_BUFFER. -/
  | ulTbResult (n : Fin 4) (air : BitVec 16) (alloc : Fin 2048) (crcOk : Bool) (iters : Byte) (cbs fails : BitVec 16) (data : List Byte)
  /-- HOST_DATA_LANDED (R98). HIF raises the allocation's event once host data has landed in the central buffer. -/
  | hostDataLanded
  /-- HANDOUT (R103). In a CK_WDS cycle the dispatcher hands the top-ranked eligible job to a waiting core and writes its job window. -/
  | handout
  /-- GRACE_EXPIRY (R103). A job's affinity step widens from its last core to its pod, and then to any core, after GRACE cycles. -/
  | graceExpiry (slot : Fin 16384)
  /-- FLOW_AFFINITY_RESET (R100). A flow with no admitted job for a full period loses its last core. -/
  | flowAffinityReset (flow : Fin 65536)
  /-- WDS_ENABLE_WRITE (R111). A write of WDS_CTL.ENABLE; clearing it while a timeline is enabled is discarded. -/
  | wdsEnableWrite (init : Initiator) (value : Word)
  /-- POD_MODE_WRITE (R108). A write of a pod's mode (LIVE, MASKED or REPLAY) acts on hand-outs at once. -/
  | podModeWrite (init : Initiator) (p : Fin 12) (value : Word)
  /-- CORE_MASK_WRITE (R111). A write of a pod's CORE_MASK includes or excludes cores from hand-out at once. -/
  | coreMaskWrite (init : Initiator) (p : Fin 12) (value : Word) (hw : BitVec 9)
  /-- SOP (R139). A scalar register operation selected by FN. -/
  | sop (c : Fin 108) (w : Word)
  /-- ADDI (R138). Adds a sign-extended immediate to a scalar. -/
  | addi (c : Fin 108) (w : Word)
  /-- ANDI (R138). ANDs a zero-extended immediate with a scalar. -/
  | andi (c : Fin 108) (w : Word)
  /-- ORI (R138). ORs a zero-extended immediate with a scalar. -/
  | ori (c : Fin 108) (w : Word)
  /-- XORI (R138). XORs a zero-extended immediate with a scalar. -/
  | xori (c : Fin 108) (w : Word)
  /-- LUI (R138). Loads an immediate into the upper half of a scalar. -/
  | lui (c : Fin 108) (w : Word)
  /-- SLTI (R138). Sets a scalar if Sa is less than the signed immediate. -/
  | slti (c : Fin 108) (w : Word)
  /-- PADDI (R138). Adds an immediate to a pointer modulo 2^18. -/
  | paddi (c : Fin 108) (w : Word)
  /-- PMOV (R138). Moves a scalar into a pointer. -/
  | pmov (c : Fin 108) (w : Word)
  /-- PGET (R138). Moves a pointer into a scalar. -/
  | pget (c : Fin 108) (w : Word)
  /-- MSET (R138). Sets a post-modification offset from a scalar. -/
  | mset (c : Fin 108) (w : Word)
  /-- MSETI (R138). Sets a post-modification offset from an immediate. -/
  | mseti (c : Fin 108) (w : Word)
  /-- BEQ (R117). Branches if two scalars are equal; a misprediction squashes younger work. -/
  | beq (c : Fin 108) (w : Word) (young : Nat)
  /-- BNE (R117). Branches if two scalars differ. -/
  | bne (c : Fin 108) (w : Word) (young : Nat)
  /-- BLT (R117). Branches if Sa is less than Sb, signed. -/
  | blt (c : Fin 108) (w : Word) (young : Nat)
  /-- BGE (R117). Branches if Sa is greater than or equal to Sb, signed. -/
  | bge (c : Fin 108) (w : Word) (young : Nat)
  /-- JMP (R138). Jumps to a static target. -/
  | jmp (c : Fin 108) (w : Word)
  /-- CALL (R138). Jumps to a target and saves the return index in S31. -/
  | call (c : Fin 108) (w : Word)
  /-- JR (R138). Jumps to the address in a scalar. -/
  | jr (c : Fin 108) (w : Word) (young : Nat)
  /-- LOOP (R130). Starts a hardware loop with a count taken from a scalar. -/
  | loop (c : Fin 108) (w : Word)
  /-- LOOPI (R130). Starts a hardware loop with an immediate count. -/
  | loopi (c : Fin 108) (w : Word)
  /-- RFE (R145). Leaves the fault handler and restarts, or skips, the faulting instruction. -/
  | rfe (c : Fin 108) (w : Word)
  /-- LDW (R138). Loads a sign-extended local word into a scalar. -/
  | ldw (c : Fin 108) (w : Word)
  /-- LDC (R138). Loads a complex local word pair into a scalar. -/
  | ldc (c : Fin 108) (w : Word)
  /-- STW (R138). Stores a 12-bit word into local memory. -/
  | stw (c : Fin 108) (w : Word)
  /-- STC (R138). Stores a complex word pair into local memory. -/
  | stc (c : Fin 108) (w : Word)
  /-- LDF (R128). A serialising far load of 32 bits from a permitted target. -/
  | ldf (c : Fin 108) (w : Word)
  /-- STF (R128). A serialising far store of 32 bits to a permitted target. -/
  | stf (c : Fin 108) (w : Word)
  /-- VLD (R123). A contiguous vector group load. -/
  | vld (c : Fin 108) (w : Word)
  /-- VST (R123). A contiguous vector group store under mask. -/
  | vst (c : Fin 108) (w : Word)
  /-- VSPL2 (R153). A split load of two interleaved complex streams. -/
  | vspl2 (c : Fin 108) (w : Word)
  /-- VSPL3 (R153). A split load of three interleaved complex streams. -/
  | vspl3 (c : Fin 108) (w : Word)
  /-- VSPL4 (R153). A split load of four interleaved complex streams. -/
  | vspl4 (c : Fin 108) (w : Word)
  /-- VGATH (R155). Gathers up to 16 indexed word or complex elements, all checked before any write. -/
  | vgath (c : Fin 108) (w : Word)
  /-- VSCAT (R157). Scatters up to 16 indexed elements as one store-buffer entry. -/
  | vscat (c : Fin 108) (w : Word)
  /-- VOP (R139). An element-wise vector operation selected by FN. -/
  | vop (c : Fin 108) (w : Word)
  /-- VMAC (R131). A vector multiply-accumulate into an accumulator in one of four modes. -/
  | vmac (c : Fin 108) (w : Word)
  /-- VMACS (R131). A multiply-accumulate of a vector group with a complex scalar. -/
  | vmacs (c : Fin 108) (w : Word)
  /-- FTAP (R140). One complex filter tap, with a shift of the delay line. -/
  | ftap (c : Fin 108) (w : Word)
  /-- VEXT (R134). Extracts accumulator lanes to 12-bit elements with shift, rounding and saturation. -/
  | vext (c : Fin 108) (w : Word)
  /-- ACCLR (R138). Clears an accumulator and its flags. -/
  | acclr (c : Fin 108) (w : Word)
  /-- ACMODE (R132). Sets an accumulator to WRAP or SAT mode. -/
  | acmode (c : Fin 108) (w : Word)
  /-- ACMOV (R138). Copies an accumulator's values and flags. -/
  | acmov (c : Fin 108) (w : Word)
  /-- ACEXP (R135). Writes the redundant-sign measure of an accumulator to a scalar. -/
  | acexp (c : Fin 108) (w : Word)
  /-- NORM (R135). Writes the redundant-sign measure of a vector group to a scalar. -/
  | norm (c : Fin 108) (w : Word)
  /-- DMA (R160). Reads a DMA descriptor, takes the next ticket, guards the local span and starts the transfer. -/
  | dma (c : Fin 108) (w : Word)
  /-- DMA_COMPLETE (R165). A transfer finishes; the descriptor record is written, the ticket freed, the guard cleared and the DMA_DONE latch set. -/
  | dmaComplete (c : Fin 108) (ticket : Fin 16)
  /-- DMAWAIT (R165). Waits until the most recent transfer with the named ticket has completed. -/
  | dmawait (c : Fin 108) (w : Word)
  /-- WAITJOB (R104). Gates the core's clock until a job is handed out, then returns its handle and period. -/
  | waitjob (c : Fin 108) (w : Word)
  /-- JOBCHK (R104). Returns whether the held job is in STOP, without blocking. -/
  | jobchk (c : Fin 108) (w : Word)
  /-- JOBDONE (R104). Ends the held job: returns its token, counts down successors and raises its event. -/
  | jobdone (c : Fin 108) (w : Word)
  /-- WAIT (R143). Gates the core, or votes for retention, until an enabled wake latch is set, or aborts at once. -/
  | wait (c : Fin 108) (w : Word)
  /-- CORE_WAKE (R142). An enabled wake latch wakes a core from WAIT. -/
  | coreWake (cause : Fin 108 × Bool)
  /-- MFC (R147). Reads a control register into a scalar. -/
  | mfc (c : Fin 108) (w : Word)
  /-- MTC (R147). Writes a scalar into a control register. -/
  | mtc (c : Fin 108) (w : Word)
  /-- MBAR (R125). Waits until the store buffer is empty and far stores are acknowledged. -/
  | mbar (c : Fin 108) (w : Word)
  /-- CPX_DEC (R170). Sends a descriptor tentatively to the pod's DEC unit; it commits at CM. -/
  | cpxDec (c : Fin 108) (w : Word) (ahead : List Word × Word)
  /-- CPX_XFM (R170). Sends a descriptor tentatively to the pod's XFM unit. -/
  | cpxXfm (c : Fin 108) (w : Word) (ahead : List Word × Word)
  /-- CPX_MAT (R170). Sends a descriptor tentatively to the pod's MAT unit. -/
  | cpxMat (c : Fin 108) (w : Word) (ahead : List Word × Word)
  /-- BKPT (R138). Takes a BKPT fault. -/
  | bkpt (c : Fin 108) (w : Word)
  /-- CORE_RUN_WRITE (R148). A write of POD_CORE_c_CTL.RUN starts or stops a core; a stop of a core holding a job is discarded. -/
  | coreRunWrite (init : Initiator) (c : Fin 108) (value : Word)
  /-- CORE_RESET (R166). The RESET command resets a core, its DMA tickets and its tentative CPX instructions. -/
  | coreReset (init : Initiator) (c : Fin 108) (value : Word)
  /-- CORE_DOORBELL (R142). The DOORBELL command sets a core's DOORBELL wake latch. -/
  | coreDoorbell (init : Initiator) (c : Fin 108) (value : Word)
  /-- LDPC_DEC (R204). The decode engine decodes LDPC code blocks with HARQ combining and CRC early stop. -/
  | ldpcDec (p : Fin 12) (seq : Nat) (descErr : Bool)
  /-- TURBO_DEC (R208). The decode engine decodes LTE turbo code blocks. -/
  | turboDec (p : Fin 12) (seq : Nat) (descErr : Bool)
  /-- POLAR_DEC (R209). The decode engine decodes uplink polar UCI by CRC-aided list decoding. -/
  | polarDec (p : Fin 12) (seq : Nat) (descErr : Bool)
  /-- CONV_DEC (R210). The decode engine Viterbi-decodes a convolutional code. -/
  | convDec (p : Fin 12) (seq : Nat) (descErr : Bool)
  /-- LDPC_ENC (R211). The encode engine encodes, rate-matches and scrambles LDPC code blocks. -/
  | ldpcEnc (p : Fin 12) (seq : Nat) (descErr : Bool)
  /-- TURBO_ENC (R211). The encode engine turbo-encodes LTE code blocks. -/
  | turboEnc (p : Fin 12) (seq : Nat) (descErr : Bool)
  /-- POLAR_ENC (R211). The encode engine polar-encodes UCI or DCI. -/
  | polarEnc (p : Fin 12) (seq : Nat) (descErr : Bool)
  /-- CONV_ENC (R211). The encode engine convolutionally encodes a bit string. -/
  | convEnc (p : Fin 12) (seq : Nat) (descErr : Bool)
  /-- DFT (R184). XFM computes a batch of forward DFTs. -/
  | dft (p : Fin 12) (seq : Nat) (descErr : Bool)
  /-- IDFT (R184). XFM computes a batch of inverse DFTs. -/
  | idft (p : Fin 12) (seq : Nat) (descErr : Bool)
  /-- MMSE (R189). A MAT engine runs MMSE detection with soft demapping. -/
  | mmse (p : Fin 12) (seq : Nat) (descErr : Bool)
  /-- CHOL (R189). A MAT engine runs MMSE detection by Cholesky factorisation. -/
  | chol (p : Fin 12) (seq : Nat) (descErr : Bool)
  /-- QR (R189). A MAT engine runs sorted-QR K-best detection. -/
  | qr (p : Fin 12) (seq : Nat) (descErr : Bool)
  /-- CPX_RECORD_WRITE (R179). Once its outputs are acknowledged, a unit writes the completion record and sets the core's CPX_DONE latch. -/
  | cpxRecordWrite (p : Fin 12) (seq : Nat) (lost : Bool)
  /-- CPX_CTL_WRITE (R196). A write of the pod's coprocessor unit enable bits. -/
  | cpxCtlWrite (init : Initiator) (p : Fin 12) (value : Word)
  /-- HARQ_SLOT_ALLOC (R218). The ALLOC operation marks a pool slot used and zeroes its header. -/
  | harqSlotAlloc (init : Initiator) (p : Fin 2) (value : Word) (proc : Option (Fin 256 × Fin 32))
  /-- HARQ_SLOT_FREE (R218). The FREE operation marks a pool slot free. -/
  | harqSlotFree (init : Initiator) (p : Fin 2) (value : Word)
  /-- TX_SYMBOL_FETCH (R235). At a TX symbol's fetch instant, its ready word is judged and the symbol is sent or zeroed. -/
  | txSymbolFetch (c : Fin 256) (l : Fin 14) (air : BitVec 16) (tl : Fin 4) (central : Bool) (off : BitVec 40)
  /-- RX_SYMBOL_COMPLETE (R245). When every chain of an RX symbol is written, the front end raises its event for period N+1. -/
  | rxSymbolComplete (c : Fin 256) (l : Fin 14) (air : BitVec 16) (slot : BitVec 40) (inputs : List (List (BitVec 24)))
  /-- PRACH_OCCASION (R247). A PRACH occasion starts at boundary plus START and extracts its sequences. -/
  | prachOccasion (x : Fin 32)
  /-- PRACH_DONE (R247). The last PRACH sequence is written and the context's event is raised. -/
  | prachDone (x : Fin 32) (inputs : List (List (BitVec 24)))
  /-- ORX_CAPTURE (R243). Firmware queues an observation capture, which is refused if the queue is full. -/
  | orxCapture (chain : Fin 64) (start : Nat) (len : Fin 65537) (dst : BitVec 40)
  /-- ORX_CAPTURE_DONE (R243). A capture of the observed, DPD-input and DPD-output streams completes. -/
  | orxCaptureDone (k : Fin 8) (seen : List (BitVec 24))
  /-- RF_LINE_EDGE (R250). A PATTERN, ORX_SEL or remap line changes level at its scheduled tick. -/
  | rfLineEdge (l : Fin 64) (ns : Nat)
  /-- GEV_ACTION (R251). An enabled event entry drives its line to LEVEL at boundary plus OFFSET. -/
  | gevAction (e : Fin 256)
  /-- DPD_ARM (R240). The ARM command arms a switch to the chain's inactive DPD bank. -/
  | dpdArm (init : Initiator) (t : Fin 64) (value : Word)
  /-- DFE_CARRIER_ENABLE (R232). A write of DFE_CCc_CTL.ENABLE places a direct carrier, or is discarded if R230 fails. -/
  | dfeCarrierEnable (init : Initiator) (c : Fin 256) (value : Word)
  /-- FE_TIME_CHECK (R226). Every 1 ms the front end compares its tick count with TMU time and reports an error above 2 ticks. -/
  | feTimeCheck (seen : BitVec 16 × List (Fin 64 × List (BitVec 24)))
  /-- JESD_ENABLE (R254). Enabling a link unit starts its TX lanes and the RX lock search. -/
  | jesdEnable (init : Initiator) (u : Fin 10) (value : Word)
  /-- SYSREF_EDGE (R253). A SYSREF edge aligns the LEMC and stamps DFE_SYSREF_TIME, or is counted as a miss. -/
  | sysrefEdge (ticks : Nat)
  /-- JESD_LINK_UP (R254). At the LEMC edge after every lane of a link has locked, the link comes up. -/
  | jesdLinkUp (u : Fin 10) (link : Fin 12)
  /-- JESD_LINK_DOWN (R255). A lane losing sync-header or multiblock lock takes its RX link down; its chains deliver zeros. -/
  | jesdLinkDown (u : Fin 10) (lane : Fin 12 × Bool) (shErr crcErr : Word)
  /-- LANE_REMAP (R256). At the first G symbol after a committed SPARE change, the unit pulses its strobe lines and switches to the spare lane. -/
  | laneRemap (u : Fin 10)
  /-- NB_SYMBOL_END (R270). At each symbol end a receive modem updates RSSI and advances its detection state machine. -/
  | nbSymbolEnd (n : Fin 256) (ins : List (BitVec 24)) (gains : List Word) (prim shad : BitVec 16) (mag : Byte) (gain : Word)
      (ferr quarter level : BitVec 16)
  /-- NB_FLOOR_UPDATE (R269). Every 1 ms an idle channel updates its noise floor. -/
  | nbFloorUpdate (n : Fin 256) (p : BitVec 16)
  /-- NB_RX_REPORT (R276). A packet's NB_RX report is posted within 20 µs of its end. -/
  | nbRxReport
  /-- NB_TX_START (R264). A queued packet's ramp begins at its start time, and the modem transmits its bits. -/
  | nbTxStart (n : Fin 256)
  /-- NB_TX_DONE (R266). After the last ramp sample, or on a drop, NB_TX_DONE is posted. -/
  | nbTxDone (n : Fin 256) (tag : BitVec 16)
  /-- GSM_BURST_RX (R278). In a timeslot set to NORMAL, a GSM receive channel demodulates a 156-symbol burst and reports it. -/
  | gsmBurstRx (n : Fin 256) (tsc : Fin 8) (pick level ferr : BitVec 16) (up : Bool) (seen : List (BitVec 24) × Word × List Byte)
  /-- NB_CHANNEL_CTL_WRITE (R281). A write of RX_EN or TX_EN enables or disables a channel's roles after checks. -/
  | nbChannelCtlWrite (init : Initiator) (n : Fin 256) (value : Word)
  /-- RING_INJECT (R310). A stop injects a packet's flits when it holds credits and a free slot, by class order and reservation. -/
  | ringInject (control : Bool) (src dst : Fin 28) (cls : Fin 4) (type : Fin 8) (txid : BitVec 16) (addr : BitVec 40) (tag : Option (Fin 16)) (len : Fin 257) (data : List Byte)
  /-- RING_STARVATION (R310). A stop that has waited 512 ring cycles for an unreserved slot sets the starvation request. -/
  | ringStarvation (st : Fin 28)
  /-- RING_PACKET_ACCEPT (R316). A destination accepts a packet with good CRC and the expected SEQ, acts on it and acknowledges it, or sends RETRY. -/
  | ringPacketAccept (ring : Fin 3) (src dst : Fin 28) (cls : Fin 4) (arrival : List (Fin 288 × Byte) × List (Fin 28)) (latency : BitVec 32)
  /-- HOP_REPLAY (R315). An uncorrectable flit makes the stop NAK upstream, which then resends its last flits. -/
  | hopReplay (st : Fin 28) (ring : Fin 3) (ccw : Bool) (hit : List (Fin 28 × Fin 28 × Fin 4 × BitVec 16))
  /-- RING_RETRY (R316). A RETRY makes the source retransmit the stream from the named SEQ, or end the stream after 4 tries. -/
  | ringRetry (ring : Fin 3) (src dst : Fin 28) (cls : Fin 4)
  /-- RING_BOUNCE (R308). A bounced posted write returns to its source and is recorded there. -/
  | ringBounce (st : Fin 28)
  /-- EPOCH_FLIP (R320). The FLIP command broadcasts a route-table epoch change on ring M. -/
  | epochFlip (init : Initiator) (value : Word)
  /-- EPOCH_DRAINED (R320). When no old-epoch packets remain, LYR broadcasts DRAINED and counts the flip. -/
  | epochDrained
  /-- STOP_DRAINED (R322). A fenced stop's ledgers balance and its requests are answered, so the PMU may power it down. -/
  | stopDrained (st : Fin 28)
  /-- STOP_BYPASS (R323). Writing BYPASS = 1 routes every strand around a failed stop and ends streams to it. -/
  | stopBypass (init : Initiator) (st : Fin 28) (value : Word)
  /-- STOP_BYPASSED (R323). Once every stop has acknowledged, BYPASSED is set. -/
  | stopBypassed (st : Fin 28)
  /-- STOP_REJOIN (R323). Writing BYPASS = 0 on a fenced stop rejoins it to the ring. -/
  | stopRejoin (init : Initiator) (st : Fin 28) (value : Word)
  /-- RING_STATS_SAMPLE (R324). At each T0 boundary, or every 1 ms, stops copy their statistics into a sample and restart. -/
  | ringStatsSample
  /-- CBF_BUFFER_ALLOC (R332). Firmware allocates a run of central-buffer handles, optionally bound to a timeline and period. -/
  | cbfBufferAlloc (count : Fin 16385) (bind : Option (Fin 4 × BitVec 16 × Fin 4))
  /-- CBF_BUFFER_FREE (R333). Firmware frees an unbound buffer. -/
  | cbfBufferFree (first : Fin 16384)
  /-- SCRUB_READ (R341). The patrol scrubber reads a burst or line and handles its errors. -/
  | scrubRead (addr : BitVec 40) (arisen : List (Fin 10 × Fin 72))
  /-- DDR_HOT (R336). A DDR5 device above 85 °C doubles its channel's refresh and sets HOT. -/
  | ddrHot (k : Fin 4)
  /-- MEM_ENABLE_WRITE (R347). A write of MEM_CTL.ENABLE, discarded unless the channels are trained and consistent. -/
  | memEnableWrite (init : Initiator) (value : Word)
  /-- LANE_LOST (R356). An in-service RX lane loses clock-recovery or block lock. -/
  | laneLost (lane : Fin 112)
  /-- LANE_RESTORED (R356). A lost lane locks again. -/
  | laneRestored (lane : Fin 112)
  /-- CRX_LOCK (R357). A CRX lane acquires clock-recovery lock and hands data to the sync-header search. -/
  | crxLock (lane : Fin 32)
  /-- ETH_LINK_BRINGUP (R358). An Ethernet link runs auto-negotiation and link training, and is handed to the MAC or restarted. -/
  | ethLinkBringup (k : Fin 16) (step : Fin 5)
  /-- ETH_TRAIN_REQUEST (R358). A training request from the partner moves a transmit tap within WINDOW, or is answered at the limit. -/
  | ethTrainRequest (lane : Fin 16) (tap : Fin 4) (up : Bool)
  /-- TWIN_LINK_TRAIN (R359). Twin link training blocks agree a rate and switch to it. -/
  | twinLinkTrain (partner : Fin 3)
  /-- TWIN_LINK_FALLBACK (R359). Lanes not locked 5 ms after a rate switch fall back one rate. -/
  | twinLinkFallback
  /-- PCIE_LINK_TRAIN (R360). The PCIe LTSSM trains the link to its width and rate. -/
  | pcieLinkTrain (gen : Fin 7) (w : Fin 4) (flit reversed : Bool) (ended : Fin 4 × Bool)
  /-- PCIE_EQ_PRESET_REQUEST (R361). A Phase 3 preset request is applied if ALLOWED, or rejected. -/
  | pcieEqPresetRequest (lane : Fin 8) (gen : Fin 7) (preset : Fin 11)
  /-- ERROR_INJECT (R364). The generator inverts one transmitted bit every 1/RATE seconds. -/
  | errorInject (lane : Fin 112)
  /-- SPC_BANK_ARM (R370). The ARM command arms a lane's sampling-point bank switch. -/
  | spcBankArm (init : Initiator) (lane : Fin 112) (value : Word)
  /-- CAL_BANK_ARM (R302). The ARM command arms an IQ or alignment bank switch. -/
  | calBankArm (init : Initiator) (aln : Bool) (tgt : Fin 64) (value : Word)
  /-- ETH_FRAME_RX (R377). A received frame is classified into MACsec failure, U-plane, message path or discard. -/
  | ethFrameRx (k : Fin 16) (frame : List Byte) (fcs : Bool) (plain : Option (List Byte)) (slot : BitVec 40)
  /-- UL_WINDOW_CLOSE (R386). A symbol's uplink window closes, missing symbol-ports are marked and its event is raised. -/
  | ulWindowClose (c : Fin 256) (air : BitVec 16) (l : Fin 14) (slot : BitVec 40)
  /-- DL_SYMBOL_FETCH (R385). At a remote symbol's judge instant, its ready word is checked and its frames are sent or skipped. -/
  | dlSymbolFetch (c : Fin 256) (air : BitVec 16) (l : Fin 14) (slot : BitVec 40) (late : List (Fin 16 × Word))
  /-- MSG_TX_TAIL_WRITE (R388). A write of a message TX queue's tail gives the engine new entries. -/
  | msgTxTailWrite (init : Initiator) (p : Fin 4) (q : Fin 4) (value : Word)
  /-- MSG_TX_LAUNCH (R388). A TX entry is sent no earlier than LAUNCH, and its timestamp is pushed when requested. -/
  | msgTxLaunch (p : Fin 4) (q : Fin 4) (late : Nat)
  /-- TSQ_POP (R395). The POP command removes the head of a port's timestamp queue. -/
  | tsqPop (init : Initiator) (p : Fin 4) (value : Word)
  /-- MACSEC_SAK_INSTALL (R389). Firmware's MKA installs a new association when the packet number reaches its threshold. -/
  | macsecSakInstall (k : Fin 16) (tx : Bool) (sci : BitVec 64) (an : Fin 4) (slot : Fin 16)
  /-- ETH_CARRIER_ENABLE (R380). A write of ETH_CCc_CTL.ENABLE places a remote carrier after its checks. -/
  | ethCarrierEnable (init : Initiator) (c : Fin 256) (value : Word)
  /-- TMU_INC_ARM (R391). The ARM command switches the TMU increment to the inactive bank at the next tick. -/
  | tmuIncArm (init : Initiator) (value : Word)
  /-- TMU_STEP_APPLY (R391). The APPLY command steps TMU time at one tick, and the crossed boundaries are performed. -/
  | tmuStepApply (init : Initiator) (value : Word)
  /-- TMU_SNAP (R392). The SNAP command captures TMU time at one tick. -/
  | tmuSnap (init : Initiator) (value : Word)
  /-- PTP_SERVO_UPDATE (R396). Firmware's PTP servo processes timing messages and slews the increment, or steps TMU time forward. -/
  | ptpServoUpdate (behind : BitVec 64)
  /-- QUALITY_CHANGE (R399). A lock, source loss, hold limit or tick switch changes the time quality state. -/
  | qualityChange (why : Fin 4)
  /-- PPS_IN_EDGE (R398). A PPS_IN rising edge is timestamped and counted. -/
  | ppsInEdge
  /-- TOD_RX_MESSAGE (R398). A time-of-day message completed 100–900 ms after an edge names that edge. -/
  | todRxMessage (format : Bool) (secs : BitVec 48)
  /-- PPS_OUT_EDGE (R398). PPS_OUT rises where TMU nanoseconds pass PPS_OFS. -/
  | ppsOutEdge
  /-- TOD_TX_SEND (R398). TOD_TX sends the message of an edge 300 ms after it. -/
  | todTxSend
  /-- REF_LOSS (R408). A reference clock is lost, and its PLL enters holdover or loses lock. -/
  | refLoss (k : Fin 5)
  /-- REF_RETURN (R408). A reference is present again, and its PLL relocks or its links restart. -/
  | refReturn (k : Fin 5)
  /-- POR (R409). Power-on reset reaches everything, PD_AON included. -/
  | por (supply : Bool)
  /-- COLD_RESET (R409). A cold reset reaches every domain except PD_AON. -/
  | coldReset
  /-- WARM_RESET (R409). A warm reset disables timelines, queues and carriers, and resets cores and firmware. -/
  | warmReset
  /-- TAP_RESET (R409). A TAP reset resets the JTAG logic and ends the debug unlock. -/
  | tapReset
  /-- DOMAIN_ENTRY (R417). The PMU takes a queued domain toward RETAIN or OFF, fencing and draining its stop, or refuses it. -/
  | domainEntry
  /-- RING_DRAIN_TIMEOUT (R417). A stop not drained within 100 µs makes the entry refused with RING_DRAIN. -/
  | ringDrainTimeout (st : Fin 28)
  /-- DOMAIN_SWITCH_ON (R421). A queued switch-on begins W1, spaced from earlier switch-ons. -/
  | domainSwitchOn
  /-- DOMAIN_ON_DONE (R421). The domain completes W4 and reaches RUN, and its stop is unfenced. -/
  | domainOnDone (dom : Fin 80)
  /-- THERMAL_SAMPLE (R432). Every 100 µs all sensors are sampled, broken sensors are judged, and the thermal state is updated. -/
  | thermalSample (raw : List (BitVec 12))
  /-- THERMAL_RESTART (R433). Once readings are below 95 °C and 10 s have passed, the device cold-resets. -/
  | thermalRestart (secs : BitVec 32)
  /-- THROTTLE_STEP (R434). Every 10 ms in THROTTLE, the cap is lowered if the hottest value has not fallen. -/
  | throttleStep
  /-- POWER_TELEMETRY_POLL (R435). Every 1 ms firmware reads rail telemetry and adjusts its power cap. -/
  | powerTelemetryPoll (rails : List (Option (BitVec 16 × BitVec 32)))
  /-- AVS_LOOP (R437). Every second the PMU raises or lowers VDD_CORE from the minimum ageing-monitor slack. -/
  | avsLoop (slack : List (BitVec 10))
  /-- LIFETIME_SECOND (R438). Each second THM counts the band and degree-seconds of the hottest value. -/
  | lifetimeSecond
  /-- LIFETIME_SAVE (R438). Firmware saves the lifetime counters to flash once an hour. -/
  | lifetimeSave
  /-- SUPPLY_DEVIATION (R508). A supply monitor finds a rail out of range and raises an event, an alarm or a POR. -/
  | supplyDeviation (rail : Fin 8) (level : Fin 4)
  /-- BOOT (R451). After POR or COLD, ROM verifies firmware and the board table, writes the protection set-up, unwraps keys, seals and starts firmware. -/
  | boot (parity : Bool)
  /-- RECOVERY_GO (R451). The GO command in RECOVERY verifies a container from BAR2, writes it to slot A and cold-resets. -/
  | recoveryGo (init : Initiator) (value : Word) (bar2 : List Byte)
  /-- SECURITY_ALARM (R455). A monitor source fires, and the alarm action is logged and carried out. -/
  | securityAlarm (fired : BitVec 7)
  /-- FUSE_RESENSE (R454). Every second the fuses are re-sensed and compared. -/
  | fuseResense (bad : Bool)
  /-- INTEGRITY_CHECK (R454). Every hour the SHA-384 of ROM and the sealed registers is compared. -/
  | integrityCheck (differs : Bool)
  /-- SVN_RAISE (R450). After 24 hours of running, firmware raises fuse F1 to the lower slot SVN. -/
  | svnRaise
  /-- FUSE_PROG (R448). The TAP instruction blows customer fuse slots while FUSE_SEAL is 0. -/
  | fuseProg (slot : Fin 7) (value : BitVec 384)
  /-- SEC_CHALLENGE (R456). The TAP instruction returns a nonce, DEVICE_ID and the requested debug level. -/
  | secChallenge (level : Fin 4)
  /-- SEC_RESPONSE (R456). The TAP instruction verifies a signed response and opens a debug session or counts a failure. -/
  | secResponse (key sig : List Byte) (holds : List (Fin 80)) (fired : BitVec 7)
  /-- DEBUG_LOCKOUT_EXPIRY (R456). 10 s after three failures, challenges are accepted again. -/
  | debugLockoutExpiry
  /-- GUARD_UNLOCK (R469). A write to a block's UNLOCK opens or closes its guard. -/
  | guardUnlock (init : Initiator) (value : Word)
  /-- LEDGER_SNAP_STROBE (R36). Writing OBS_SNAP_CTL.SNAP fires the ledger strobe, unless a snapshot is packing. -/
  | ledgerSnapStrobe (init : Initiator) (value : Word)
  /-- REGISTER_WRITE (R464). A write to a register without its own row, judged for size, hole, domain, guard, CFG state and collision. -/
  | registerWrite (init : Initiator) (off : BitVec 28) (size : Fin 3) (value hw : Word)
  /-- REGBUS_TIMEOUT (R473). A target not answering within 4 µs is answered as off and recorded as TIMEOUT. -/
  | regbusTimeout (init : Initiator) (off : BitVec 28) (write : Option Word) (taken : Bool)
  /-- TWIN_HEARTBEAT_SEND (R485). At each T0 boundary, or every 1 ms, a paired device sends a heartbeat. -/
  | twinHeartbeatSend (sent heard : Bool)
  /-- TWIN_HEARTBEAT_MISS (R486). A heartbeat not arrived 20 µs after it was due is missed; three misses lead to takeover, LINK_LOST or PARTNER_LOST. -/
  | twinHeartbeatMiss (roleIn : Bool)
  /-- TWIN_TAKEOVER (R490). At the boundary the STANDBY becomes ACTIVE, re-executes unconfirmed commands and reports lost work. -/
  | twinTakeover
  /-- TWIN_LINK_LOST_TIMEOUT (R486). LINK_LOST lasting 10 s makes the STANDBY leave the pair. -/
  | twinLinkLostTimeout
  /-- TWIN_MIRROR_ACK (R487). The STANDBY acknowledges a mirrored command held in its log. -/
  | twinMirrorAck (q : Fin 16) (entry : List Byte)
  /-- TWIN_OUTCOME (R488). The ACTIVE receives the STANDBY's outcome and posts the completion, or declares divergence; on a
STANDBY, the completion the ACTIVE confirmed, with the registers of the banks it committed (R293). -/
  | twinOutcome (q : Fin 16) (tag status : BitVec 16) (res : List Word × List (BitVec 28 × Word))
  /-- TWIN_SLOT_COPY (R489). A marked HARQ slot whose GEN changed is copied to the STANDBY, half before header. -/
  | twinSlotCopy (p : Fin 2) (slot : Fin 65536) (bside : Bool) (half header : List Byte)
  /-- SEAL_POINT (R91). At the seal point 8 µs before the boundary of a staged FW_SWITCH or TWIN_SWAP, the device stops fetching and, for FW_SWITCH, completes with BUSY if a two-stage FW_STAGE, POD_LOAD or REC_REPLAY is still open. -/
  | sealPoint
  /-- TWIN_ATTACH_TIMEOUT (R493). If the twin link is not up 10 s after TWIN_ATTACH, both final completions are TWIN_NOT_READY. -/
  | twinAttachTimeout
  /-- LEDGER_SNAPSHOT_PACKED (R39). Packing of the ledger shadows into host memory ends, OBS_SNAP_STS.BUSY clears, and LEDGER_SNAPSHOT completes. -/
  | ledgerSnapshotPacked
  /-- CHECKER_LOCK (R363). A PRBS checker sets CHK_LOCK after 64 error-free received bits and begins counting errors. -/
  | checkerLock (lane : Fin 112)
  /-- CHECKER_LOCK_LOST (R363). A PRBS checker that sees more than 256 errored bits in 1,024 clears CHK_LOCK and seeds itself again; the flag
beside the lane tells a checker that is still locked, whose counters alone have moved. -/
  | checkerLockLost (lane : Fin 112 × Bool) (errs mbits : BitVec 32)
  /-- DDR_HOT_CLEAR (R336). When a DDR5 device no longer reports a temperature above 85 °C, its channel returns to normal refresh and clears HOT. -/
  | ddrHotClear (k : Fin 4)
  deriving DecidableEq, Repr

end Sys2Proof
end

