-- ==== Sys2Proof/Config.lean ====
section
/-! DEFINITION. What the spec leaves open (guide: free values): opaque constants with no body. A claim is true whatever
they are. `n` is the state's free-value counter where a fresh value is meant. -/

namespace Sys2Proof

/-- A free number. Every open VALUE of an effect is one of these (assumption log 2). -/
opaque Config.free : Nat → Nat

/-- A free list of `len` numbers below `bound` is built from this. -/
opaque Config.freeAt : Nat → Nat → Nat

/-- Values a coprocessor unit gives that the spec does not state: number `j` of draw `n`, for the parameters and input bytes on which alone
they depend (R33, R182). -/
opaque Config.unitFree : List Byte → Nat → Nat → Nat

/-- V of TS 38.212 Tables 5.3.2-2 and 5.3.2-3, which the spec does not print, for a base graph (1 or 2), set index, row and column; none: no
entry. The columns of parity bits beyond the four of the core are not asked for. -/
opaque Config.ldpcV : Nat → Nat → Nat → Nat → Option Nat

/-- What the arithmetic of Grivin's bit-exact model (R182, R204) makes of a magnitude that a decoder passes on (0 LDPC, 1 turbo, 2 polar): at
most the magnitude itself, which an offset or a width takes down. -/
opaque Config.softMag : Nat → Nat → Nat
/-- By how much its soft values are wider than an LLR8. -/
opaque Config.softWide : Nat → Nat
/-- The order in which its list decoder numbers its final paths (R209). -/
opaque Config.polarRank : Nat → Nat

/-- CK_CPX cycles that firmware counts for the planned work of a plan record on a pod (R221): which coprocessor instructions your kernels
issue for it the spec does not say. -/
opaque Config.planCycles : Nat → List Nat → Nat

/-- The same for one outer pass of the record. -/
opaque Config.passCycles : Nat → List Nat → Nat

/-- Sample `n` of a stream interpolated by a ratio, and of one decimated by it through the channel's filter (R233, R236, R244, R247), in
2^-20 of a step: the spec gives the filters no coefficients. -/
opaque Config.interp : Nat → List (Int × Int) → Nat → Int × Int
opaque Config.decimate : Nat → List (Int × Int) → Nat → Int × Int

/-- The cancellation pulse of CFR, in 2^-15, so many samples from its peak, for a chain's bands: centre in Hz, width in Hz, weight (R237). -/
opaque Config.cfrPulse : List (Int × Nat × Nat) → Int → Int × Int

/-- Sample `n` that a receive modem's filter for a span, in 1/300 Hz, and its resampler to a rate, in samples in 3 s, make of 1.92 Msps samples,
in 2^-20 of a step; the symbol value, 256 to one, that the discriminator matched to the pulse of BT × 100 and h × 100 finds, at so many samples
to a symbol, at the end of these, with a symbol timing: for neither does the spec give coefficients (R267). -/
opaque Config.nbFilter : Nat → Nat → List (Int × Int) → Nat → Int × Int
opaque Config.discr : Nat → Nat → Nat → List (Int × Int) → Nat → Int

/-- The CTL bits that hardware updates in the commit cycles of the n-th boundary event: group slot, register offset, bits (R59). Which they
are follows from timing, which is left out. -/
opaque Config.commitHw : Nat → List (Nat × Nat × Nat)

/-- The ring class in which the block behind a stop sends its own accesses, and the latency, in ring cycles, of the n-th packet of one
(R160, R324): the first the spec does not give, the second is timing. -/
opaque Config.accessClass : Nat → Nat
opaque Config.accessLatency : Nat → Nat

/-- What the check bits say of an error beyond those R339 names, for the n-th such: 0 not seen, 1 corrected, else uncorrectable. -/
opaque Config.eccBeyond : Nat → Nat

/-- What a byte of host memory holds at the n-th of the device's reads: the host's affair. -/
opaque Config.hostByte : Nat → Nat → Nat

/-- Cycles a core's clock has run between two reads of CYCLES (R147): timing is left out. -/
opaque Config.coreCycles : Nat → Nat

/-- Where an internal address outside the ranges the spec gives lies (R122, R128): the byte offset in the local-memory
byte view of core `i` (`true`) or in the memory of pod `i` (`false`). The spec names these windows and gives no base. -/
opaque Config.farWindow : Nat → Option (Bool × Nat × Nat)

/-- The P-384 public key (x then y) of ROM key `n`, 0-3 (R446): the maker's. -/
opaque Config.romKey : Nat → List Byte

/-- The challenge a debugger signs, from its nonce, DEVICE_ID and level (R456): the spec gives no layout. -/
opaque Config.challenge : Nat → Nat → Nat → List Byte

/-- Word `j` (BASE, LIMIT, RD, WR, CTL) of firewall region `r`, 0-7, that a firmware payload sets up (R453). -/
opaque Config.fwRegion : List Byte → Nat → Nat → Nat

end Sys2Proof
end

