-- ==== Sys2Proof/Machine/Bits.lean ====
section
/-! DEFINITION. Bit fields (R7), little-endian groups (R8), signed values and saturation: the helpers every chapter uses. -/

namespace Sys2Proof.Machine

/-- The field of `w` bits at bit `lo` of the number `v` (R7). -/
def bitsAt (v lo w : Nat) : Nat := v / 2 ^ lo % 2 ^ w

/-- `v` with its field of `w` bits at `lo` replaced by the low bits of `x`. -/
def putBits (v lo w x : Nat) : Nat :=
  v % 2 ^ lo + (x % 2 ^ w) * 2 ^ lo + v / 2 ^ (lo + w) * 2 ^ (lo + w)

/-- Bit `n` of `v`. -/
def bitAt (v n : Nat) : Bool := v / 2 ^ n % 2 == 1

/-- A Bool as the number 0 or 1. -/
def b2n (b : Bool) : Nat := if b then 1 else 0

/-- The number `v` with bit `n` set. -/
def setBit (v n : Nat) : Nat := if bitAt v n then v else v + 2 ^ n

/-- The number `v` with bit `n` cleared. -/
def clrBit (v n : Nat) : Nat := if bitAt v n then v - 2 ^ n else v

/-- `v` read as a two's-complement number of `w` bits. -/
def toSigned (w v : Nat) : Int :=
  if v % 2 ^ w < 2 ^ (w - 1) then (v % 2 ^ w : Nat) else (v % 2 ^ w : Nat) - (2 ^ w : Nat)

/-- The two's-complement bits of `x` in `w` bits. -/
def ofSigned (w : Nat) (x : Int) : Nat := (x % (2 ^ w : Nat)).toNat

/-- `x` saturated to a signed number of `w` bits. -/
def satSigned (w : Nat) (x : Int) : Int :=
  if x < -(2 ^ (w - 1) : Nat) then -(2 ^ (w - 1) : Nat)
  else if x > (2 ^ (w - 1) : Nat) - 1 then (2 ^ (w - 1) : Nat) - 1 else x

/-- Round half away from zero of `x / 2^s` is not used by the spec; this is floor division by `2^s`. -/
def asr (x : Int) (s : Nat) : Int := x / (2 ^ s : Nat)

/-- The `n` low bytes of `v`, lowest first (R8). -/
def leBytes : Nat → Nat → List (BitVec 8)
  | 0, _ => []
  | n + 1, v => BitVec.ofNat 8 v :: leBytes n (v / 256)

/-- The number a little-endian byte list spells (R8). -/
def ofLeBytes : List (BitVec 8) → Nat
  | [] => 0
  | b :: bs => b.toNat + 256 * ofLeBytes bs

/-- The sublist of `n` elements from position `i`. -/
def slice {α : Type} (l : List α) (i n : Nat) : List α := (l.drop i).take n

/-- The little-endian field of `n` bytes at offset `i` of a byte list (R8); bytes past its end read 0. -/
def leAt (l : List (BitVec 8)) (i n : Nat) : Nat := ofLeBytes (slice l i n)

/-- Element `i` of a list, or `d` past its end. -/
def nth {α : Type} (d : α) : List α → Nat → α
  | [], _ => d
  | a :: _, 0 => a
  | _ :: t, i + 1 => nth d t i

/-- The list with element `i` replaced (unchanged past its end). -/
def setNth {α : Type} : List α → Nat → α → List α
  | [], _, _ => []
  | _ :: t, 0, v => v :: t
  | a :: t, i + 1, v => a :: setNth t i v

/-- `0 … n-1`. -/
def upTo (n : Nat) : List Nat := List.range n

/-- Division rounded up. -/
def ceilDiv (a b : Nat) : Nat := (a + b - 1) / b

/-- Sum of a list of numbers. -/
def sumNat (l : List Nat) : Nat := l.foldl (· + ·) 0

/-- The bits of `v` from bit `n-1` down to bit 0. -/
def bitsMsb : Nat → Nat → List Bool
  | 0, _ => []
  | n + 1, v => bitAt v n :: bitsMsb n v

/-- The number whose binary digits, most significant first, are the list. -/
def ofBitsMsb (l : List Bool) : Nat := l.foldl (fun a b => 2 * a + b2n b) 0

/-- Number of ones in the low `n` bits of `v`. -/
def popcount : Nat → Nat → Nat
  | 0, _ => 0
  | n + 1, v => b2n (bitAt v n) + popcount n v

/-- Leading zeros of `v` in `w` bits. -/
def leadingZeros : Nat → Nat → Nat
  | 0, _ => 0
  | n + 1, v => if bitAt v n then 0 else 1 + leadingZeros n v

/-- Bitwise exclusive or, and, or of numbers. -/
def xorN (a b : Nat) : Nat := a ^^^ b

/-- Trailing zeros of `v`, at most `n`. -/
def trailingZeros : Nat → Nat → Nat
  | 0, _ => 0
  | n + 1, v => if v % 2 == 1 then 0 else 1 + trailingZeros n (v / 2)

/-- Number of bits of `v` (0 for 0), for `v < 2^n`. -/
def bitLen (n v : Nat) : Nat := n - leadingZeros n v

end Sys2Proof.Machine
end

