-- ==== Sys2Proof/Machine/RegTypes.lean ====
section
/-! DEFINITION. The vocabulary of the register map: field kinds (R12), register forms (R461), the power domain a
register answers from (R472) and the block whose enable guards its CFG fields (R466). -/

namespace Sys2Proof.Machine

/-- A field: the full register-space offset of its register, its lowest bit and its width. -/
structure Fld where
  off : Nat
  lo : Nat
  w : Nat
  deriving DecidableEq, Repr

/-- The kinds of a register field (R12). -/
inductive FKind where
  | cfg | ctl | sts | cnt | cmd | key
  deriving DecidableEq, Repr

/-- The domain rule of a register: which of the 80 domains it answers from (R472, R412). -/
inductive RegDom where
  | hif | mgt | aon | wds | obs | nbb0 | nbb1 | zthP
  | dfeTxG | dfeRxG | dfeTx16 | dfeRx16 | dfeOrx | dfeRxPrach | dfeRxNbw
  | lane | zthE | zthEk | memCh | podCore | podS | common
  deriving DecidableEq, Repr

/-- The block whose enable state guards the CFG fields of a register (R466, and the owning chapters). -/
inductive RegBlk where
  | none | cq | upq | obBase | prot | lyrEpoch | wds | tl
  | cc | txChain | orx | tdd | gev | gpio | prach | nbw | jesd | jesdAll | dpdBank | iqcCtl | iqcBank | alnCtl | alnBank | geo
  | nbch | lane | spcBank | zthEth
  | ethPort | ethLink | ethMq | ethMqRx | ethCC | ethRad | ethSt | tmuInc | timeOut
  | memCtl | memRec | memFw | memFwR | harq | obsRec
  deriving DecidableEq, Repr

/-- One field of a register family: lowest bit, width, kind, reset value, reserved encodings (inclusive ranges). -/
structure FieldSpec where
  lo : Nat
  w : Nat
  kind : FKind
  reset : Nat
  rsv : List (Nat × Nat)
  deriving DecidableEq, Repr

/-- A register family: name, offset in its block's window, index dimensions (count, stride), WIDE or MASKED,
guarded, domain rule, CFG block and fields. -/
structure RegFam where
  name : String
  off : Nat
  dims : List (Nat × Nat)
  wide : Bool
  guarded : Bool
  dom : RegDom
  blk : RegBlk
  fields : List FieldSpec
  deriving DecidableEq, Repr

end Sys2Proof.Machine
end

