-- ==== Sys2Proof/Machine/RegMap.lean ====
section
/-! DEFINITION. The register map (R476): every register family of every block as its chapter tables it,
and one named field (Fld) per field, with its full register-space offset. -/

namespace Sys2Proof.Machine

/-- HIF_CQn_CTL (R66). -/
abbrev rHIF_CQn_CTL (i : Nat) : Nat := 0x1000 + 0x40 * i
abbrev HIF_CQn_CTL_ENABLE (i : Nat) : Fld := ⟨rHIF_CQn_CTL i, 0, 1⟩
/-- HIF_CQn_CFG (R66). -/
abbrev rHIF_CQn_CFG (i : Nat) : Nat := 0x1004 + 0x40 * i
abbrev HIF_CQn_CFG_SQ_LOG2 (i : Nat) : Fld := ⟨rHIF_CQn_CFG i, 0, 4⟩
abbrev HIF_CQn_CFG_CQ_LOG2 (i : Nat) : Fld := ⟨rHIF_CQn_CFG i, 4, 4⟩
/-- HIF_CQn_SQ_BASE_LO (R66). -/
abbrev rHIF_CQn_SQ_BASE_LO (i : Nat) : Nat := 0x1008 + 0x40 * i
abbrev HIF_CQn_SQ_BASE_LO (i : Nat) : Fld := ⟨rHIF_CQn_SQ_BASE_LO i, 12, 20⟩
/-- HIF_CQn_SQ_BASE_HI (R66). -/
abbrev rHIF_CQn_SQ_BASE_HI (i : Nat) : Nat := 0x100c + 0x40 * i
abbrev HIF_CQn_SQ_BASE_HI (i : Nat) : Fld := ⟨rHIF_CQn_SQ_BASE_HI i, 0, 32⟩
/-- HIF_CQn_CQ_BASE_LO (R66). -/
abbrev rHIF_CQn_CQ_BASE_LO (i : Nat) : Nat := 0x1010 + 0x40 * i
abbrev HIF_CQn_CQ_BASE_LO (i : Nat) : Fld := ⟨rHIF_CQn_CQ_BASE_LO i, 12, 20⟩
/-- HIF_CQn_CQ_BASE_HI (R66). -/
abbrev rHIF_CQn_CQ_BASE_HI (i : Nat) : Nat := 0x1014 + 0x40 * i
abbrev HIF_CQn_CQ_BASE_HI (i : Nat) : Fld := ⟨rHIF_CQn_CQ_BASE_HI i, 0, 32⟩
/-- HIF_CQn_SQ_TAIL (R66). -/
abbrev rHIF_CQn_SQ_TAIL (i : Nat) : Nat := 0x1018 + 0x40 * i
abbrev HIF_CQn_SQ_TAIL (i : Nat) : Fld := ⟨rHIF_CQn_SQ_TAIL i, 0, 12⟩
/-- HIF_CQn_SQ_HEAD (R66). -/
abbrev rHIF_CQn_SQ_HEAD (i : Nat) : Nat := 0x101c + 0x40 * i
abbrev HIF_CQn_SQ_HEAD (i : Nat) : Fld := ⟨rHIF_CQn_SQ_HEAD i, 0, 12⟩
/-- HIF_CQn_CQ_HEAD (R66). -/
abbrev rHIF_CQn_CQ_HEAD (i : Nat) : Nat := 0x1020 + 0x40 * i
abbrev HIF_CQn_CQ_HEAD (i : Nat) : Fld := ⟨rHIF_CQn_CQ_HEAD i, 0, 12⟩
/-- HIF_CQn_CQ_TAIL (R66). -/
abbrev rHIF_CQn_CQ_TAIL (i : Nat) : Nat := 0x1024 + 0x40 * i
abbrev HIF_CQn_CQ_TAIL (i : Nat) : Fld := ⟨rHIF_CQn_CQ_TAIL i, 0, 12⟩
/-- HIF_CQn_IRQ (R66). -/
abbrev rHIF_CQn_IRQ (i : Nat) : Nat := 0x1028 + 0x40 * i
abbrev HIF_CQn_IRQ_VECTOR (i : Nat) : Fld := ⟨rHIF_CQn_IRQ i, 0, 9⟩
/-- HIF_CQn_COAL (R66). -/
abbrev rHIF_CQn_COAL (i : Nat) : Nat := 0x102c + 0x40 * i
abbrev HIF_CQn_COAL_COUNT (i : Nat) : Fld := ⟨rHIF_CQn_COAL i, 0, 8⟩
abbrev HIF_CQn_COAL_TIME (i : Nat) : Fld := ⟨rHIF_CQn_COAL i, 8, 8⟩
/-- HIF_CQn_STS (R66). -/
abbrev rHIF_CQn_STS (i : Nat) : Nat := 0x1030 + 0x40 * i
abbrev HIF_CQn_STS_RUNNING (i : Nat) : Fld := ⟨rHIF_CQn_STS i, 0, 1⟩
abbrev HIF_CQn_STS_CQ_FULL (i : Nat) : Fld := ⟨rHIF_CQn_STS i, 1, 1⟩
/-- HIF_CQn_BADDB (R66). -/
abbrev rHIF_CQn_BADDB (i : Nat) : Nat := 0x1034 + 0x40 * i
abbrev HIF_CQn_BADDB (i : Nat) : Fld := ⟨rHIF_CQn_BADDB i, 0, 32⟩
/-- HIF_CQn_OVERFLOW (R66). -/
abbrev rHIF_CQn_OVERFLOW (i : Nat) : Nat := 0x1038 + 0x40 * i
/-- HIF_UPQm_CTL (R66). -/
abbrev rHIF_UPQm_CTL (i : Nat) : Nat := 0x2000 + 0x40 * i
abbrev HIF_UPQm_CTL_ENABLE (i : Nat) : Fld := ⟨rHIF_UPQm_CTL i, 0, 1⟩
/-- HIF_UPQm_CFG (R66). -/
abbrev rHIF_UPQm_CFG (i : Nat) : Nat := 0x2004 + 0x40 * i
abbrev HIF_UPQm_CFG_SQ_LOG2 (i : Nat) : Fld := ⟨rHIF_UPQm_CFG i, 0, 4⟩
abbrev HIF_UPQm_CFG_CQ_LOG2 (i : Nat) : Fld := ⟨rHIF_UPQm_CFG i, 4, 4⟩
/-- HIF_UPQm_SQ_BASE_LO (R66). -/
abbrev rHIF_UPQm_SQ_BASE_LO (i : Nat) : Nat := 0x2008 + 0x40 * i
abbrev HIF_UPQm_SQ_BASE_LO (i : Nat) : Fld := ⟨rHIF_UPQm_SQ_BASE_LO i, 12, 20⟩
/-- HIF_UPQm_SQ_BASE_HI (R66). -/
abbrev rHIF_UPQm_SQ_BASE_HI (i : Nat) : Nat := 0x200c + 0x40 * i
abbrev HIF_UPQm_SQ_BASE_HI (i : Nat) : Fld := ⟨rHIF_UPQm_SQ_BASE_HI i, 0, 32⟩
/-- HIF_UPQm_CQ_BASE_LO (R66). -/
abbrev rHIF_UPQm_CQ_BASE_LO (i : Nat) : Nat := 0x2010 + 0x40 * i
abbrev HIF_UPQm_CQ_BASE_LO (i : Nat) : Fld := ⟨rHIF_UPQm_CQ_BASE_LO i, 12, 20⟩
/-- HIF_UPQm_CQ_BASE_HI (R66). -/
abbrev rHIF_UPQm_CQ_BASE_HI (i : Nat) : Nat := 0x2014 + 0x40 * i
abbrev HIF_UPQm_CQ_BASE_HI (i : Nat) : Fld := ⟨rHIF_UPQm_CQ_BASE_HI i, 0, 32⟩
/-- HIF_UPQm_SQ_TAIL (R66). -/
abbrev rHIF_UPQm_SQ_TAIL (i : Nat) : Nat := 0x2018 + 0x40 * i
abbrev HIF_UPQm_SQ_TAIL (i : Nat) : Fld := ⟨rHIF_UPQm_SQ_TAIL i, 0, 12⟩
/-- HIF_UPQm_SQ_HEAD (R66). -/
abbrev rHIF_UPQm_SQ_HEAD (i : Nat) : Nat := 0x201c + 0x40 * i
abbrev HIF_UPQm_SQ_HEAD (i : Nat) : Fld := ⟨rHIF_UPQm_SQ_HEAD i, 0, 12⟩
/-- HIF_UPQm_CQ_HEAD (R66). -/
abbrev rHIF_UPQm_CQ_HEAD (i : Nat) : Nat := 0x2020 + 0x40 * i
abbrev HIF_UPQm_CQ_HEAD (i : Nat) : Fld := ⟨rHIF_UPQm_CQ_HEAD i, 0, 12⟩
/-- HIF_UPQm_CQ_TAIL (R66). -/
abbrev rHIF_UPQm_CQ_TAIL (i : Nat) : Nat := 0x2024 + 0x40 * i
abbrev HIF_UPQm_CQ_TAIL (i : Nat) : Fld := ⟨rHIF_UPQm_CQ_TAIL i, 0, 12⟩
/-- HIF_UPQm_IRQ (R66). -/
abbrev rHIF_UPQm_IRQ (i : Nat) : Nat := 0x2028 + 0x40 * i
abbrev HIF_UPQm_IRQ_VECTOR (i : Nat) : Fld := ⟨rHIF_UPQm_IRQ i, 0, 9⟩
/-- HIF_UPQm_COAL (R66). -/
abbrev rHIF_UPQm_COAL (i : Nat) : Nat := 0x202c + 0x40 * i
abbrev HIF_UPQm_COAL_COUNT (i : Nat) : Fld := ⟨rHIF_UPQm_COAL i, 0, 8⟩
abbrev HIF_UPQm_COAL_TIME (i : Nat) : Fld := ⟨rHIF_UPQm_COAL i, 8, 8⟩
/-- HIF_UPQm_STS (R66). -/
abbrev rHIF_UPQm_STS (i : Nat) : Nat := 0x2030 + 0x40 * i
abbrev HIF_UPQm_STS_RUNNING (i : Nat) : Fld := ⟨rHIF_UPQm_STS i, 0, 1⟩
abbrev HIF_UPQm_STS_CQ_FULL (i : Nat) : Fld := ⟨rHIF_UPQm_STS i, 1, 1⟩
/-- HIF_UPQm_BADDB (R66). -/
abbrev rHIF_UPQm_BADDB (i : Nat) : Nat := 0x2034 + 0x40 * i
abbrev HIF_UPQm_BADDB (i : Nat) : Fld := ⟨rHIF_UPQm_BADDB i, 0, 32⟩
/-- HIF_UPQm_OVERFLOW (R66). -/
abbrev rHIF_UPQm_OVERFLOW (i : Nat) : Nat := 0x2038 + 0x40 * i
abbrev HIF_UPQm_OVERFLOW (i : Nat) : Fld := ⟨rHIF_UPQm_OVERFLOW i, 0, 32⟩
/-- HIF_OB_BASE (R72). -/
abbrev rHIF_OB_BASE : Nat := 0x100
abbrev HIF_OB_BASE : Fld := ⟨rHIF_OB_BASE, 0, 28⟩
/-- MGT_CHIP_ID (R524). -/
abbrev rMGT_CHIP_ID : Nat := 0x400000
abbrev MGT_CHIP_ID_DIGIT : Fld := ⟨rMGT_CHIP_ID, 0, 8⟩
abbrev MGT_CHIP_ID_LETTER : Fld := ⟨rMGT_CHIP_ID, 8, 8⟩
abbrev MGT_CHIP_ID_PART : Fld := ⟨rMGT_CHIP_ID, 16, 16⟩
/-- MGT_TWIN_STS (R495). -/
abbrev rMGT_TWIN_STS : Nat := 0x402000
abbrev MGT_TWIN_STS_ROLE : Fld := ⟨rMGT_TWIN_STS, 0, 2⟩
abbrev MGT_TWIN_STS_PARTNER : Fld := ⟨rMGT_TWIN_STS, 2, 3⟩
abbrev MGT_TWIN_STS_ROLE_IN : Fld := ⟨rMGT_TWIN_STS, 5, 1⟩
abbrev MGT_TWIN_STS_ROLE_OUT : Fld := ⟨rMGT_TWIN_STS, 6, 1⟩
abbrev MGT_TWIN_STS_SWAP_PENDING : Fld := ⟨rMGT_TWIN_STS, 7, 1⟩
abbrev MGT_TWIN_STS_MISSED_RUN : Fld := ⟨rMGT_TWIN_STS, 8, 2⟩
/-- MGT_TWIN_MISSED (R495). -/
abbrev rMGT_TWIN_MISSED : Nat := 0x402004
abbrev MGT_TWIN_MISSED : Fld := ⟨rMGT_TWIN_MISSED, 0, 32⟩
/-- MGT_TWIN_UNACK (R495). -/
abbrev rMGT_TWIN_UNACK : Nat := 0x402008
abbrev MGT_TWIN_UNACK : Fld := ⟨rMGT_TWIN_UNACK, 0, 32⟩
/-- MGT_TWIN_SLOTS_PENDING (R495). -/
abbrev rMGT_TWIN_SLOTS_PENDING : Nat := 0x40200c
abbrev MGT_TWIN_SLOTS_PENDING_SLOTS : Fld := ⟨rMGT_TWIN_SLOTS_PENDING, 0, 32⟩
/-- MGT_TWIN_TAKEOVERS (R495). -/
abbrev rMGT_TWIN_TAKEOVERS : Nat := 0x402010
abbrev MGT_TWIN_TAKEOVERS : Fld := ⟨rMGT_TWIN_TAKEOVERS, 0, 32⟩
/-- MGT_BUS_ERR (R475). -/
abbrev rMGT_BUS_ERR : Nat := 0x7fff0c
abbrev MGT_BUS_ERR_DOMAIN_OFF : Fld := ⟨rMGT_BUS_ERR, 0, 16⟩
abbrev MGT_BUS_ERR_TIMEOUT : Fld := ⟨rMGT_BUS_ERR, 16, 16⟩
/-- SEC_BOOT_STS (R457). -/
abbrev rSEC_BOOT_STS : Nat := 0x800000
abbrev SEC_BOOT_STS_FW_SLOT : Fld := ⟨rSEC_BOOT_STS, 0, 1⟩
abbrev SEC_BOOT_STS_FALLBACK : Fld := ⟨rSEC_BOOT_STS, 1, 1⟩
abbrev SEC_BOOT_STS_BT_OK : Fld := ⟨rSEC_BOOT_STS, 2, 1⟩
abbrev SEC_BOOT_STS_BT_SLOT : Fld := ⟨rSEC_BOOT_STS, 3, 1⟩
abbrev SEC_BOOT_STS_SEALED : Fld := ⟨rSEC_BOOT_STS, 4, 1⟩
abbrev SEC_BOOT_STS_RECOVERY : Fld := ⟨rSEC_BOOT_STS, 5, 1⟩
abbrev SEC_BOOT_STS_REVOKED : Fld := ⟨rSEC_BOOT_STS, 6, 4⟩
/-- SEC_PROT_SEAL (R457). -/
abbrev rSEC_PROT_SEAL : Nat := 0x800004
abbrev SEC_PROT_SEAL : Fld := ⟨rSEC_PROT_SEAL, 0, 1⟩
/-- SEC_FW_SVN (R457). -/
abbrev rSEC_FW_SVN : Nat := 0x800008
abbrev SEC_FW_SVN_MIN_SVN : Fld := ⟨rSEC_FW_SVN, 0, 6⟩
abbrev SEC_FW_SVN_RUN_SVN : Fld := ⟨rSEC_FW_SVN, 6, 6⟩
/-- SEC_DEVICE_ID_LO (R457). -/
abbrev rSEC_DEVICE_ID_LO : Nat := 0x80000c
abbrev SEC_DEVICE_ID_LO_ID : Fld := ⟨rSEC_DEVICE_ID_LO, 0, 32⟩
/-- SEC_DEVICE_ID_HI (R457). -/
abbrev rSEC_DEVICE_ID_HI : Nat := 0x800010
abbrev SEC_DEVICE_ID_HI_ID : Fld := ⟨rSEC_DEVICE_ID_HI, 0, 32⟩
/-- SEC_KEY_STS (R457). -/
abbrev rSEC_KEY_STS : Nat := 0x800014
abbrev SEC_KEY_STS_LOADED : Fld := ⟨rSEC_KEY_STS, 0, 16⟩
/-- SEC_DEBUG_STS (R457). -/
abbrev rSEC_DEBUG_STS : Nat := 0x800018
abbrev SEC_DEBUG_STS_LEVEL : Fld := ⟨rSEC_DEBUG_STS, 0, 2⟩
abbrev SEC_DEBUG_STS_MAX_LEVEL : Fld := ⟨rSEC_DEBUG_STS, 2, 2⟩
abbrev SEC_DEBUG_STS_FAILS : Fld := ⟨rSEC_DEBUG_STS, 4, 2⟩
/-- SEC_ALARMS (R457). -/
abbrev rSEC_ALARMS : Nat := 0x80001c
abbrev SEC_ALARMS : Fld := ⟨rSEC_ALARMS, 0, 32⟩
/-- SEC_SEAL_VIOL (R457). -/
abbrev rSEC_SEAL_VIOL : Nat := 0x800020
abbrev SEC_SEAL_VIOL : Fld := ⟨rSEC_SEAL_VIOL, 0, 32⟩
/-- SEC_ALARM_ACT_s (R457). -/
abbrev rSEC_ALARM_ACT_s (i : Nat) : Nat := 0x800044 + 0x4 * i
abbrev SEC_ALARM_ACT_s_ACTION (i : Nat) : Fld := ⟨rSEC_ALARM_ACT_s i, 0, 3⟩
/-- SEC_RECOVERY_CTL (R457). -/
abbrev rSEC_RECOVERY_CTL : Nat := 0x800100
abbrev SEC_RECOVERY_CTL_GO : Fld := ⟨rSEC_RECOVERY_CTL, 0, 1⟩
/-- SEC_RECOVERY_LEN (R457). -/
abbrev rSEC_RECOVERY_LEN : Nat := 0x800104
abbrev SEC_RECOVERY_LEN : Fld := ⟨rSEC_RECOVERY_LEN, 0, 25⟩
/-- LYR_EPOCH (R327). -/
abbrev rLYR_EPOCH : Nat := 0xc00000
abbrev LYR_EPOCH_FLIP : Fld := ⟨rLYR_EPOCH, 0, 1⟩
abbrev LYR_EPOCH_ACTIVE : Fld := ⟨rLYR_EPOCH, 1, 1⟩
abbrev LYR_EPOCH_DRAINING : Fld := ⟨rLYR_EPOCH, 2, 1⟩
/-- LYR_EPOCH_FLIPS (R327). -/
abbrev rLYR_EPOCH_FLIPS : Nat := 0xc00004
abbrev LYR_EPOCH_FLIPS : Fld := ⟨rLYR_EPOCH_FLIPS, 0, 32⟩
/-- LYR_OLD_INFLIGHT (R327). -/
abbrev rLYR_OLD_INFLIGHT : Nat := 0xc00008
abbrev LYR_OLD_INFLIGHT_COUNT : Fld := ⟨rLYR_OLD_INFLIGHT, 0, 16⟩
/-- LYR_STAT_CFG (R327). -/
abbrev rLYR_STAT_CFG : Nat := 0xc0000c
abbrev LYR_STAT_CFG_SHIFT : Fld := ⟨rLYR_STAT_CFG, 0, 16⟩
/-- LYR_RSV_e_q_j (R327). -/
abbrev rLYR_RSV_e_q_j (i j : Nat) : Nat := 0xc00040 + 0x80 * i + 0x4 * j
abbrev LYR_RSV_e_q_j_OWNER (i j : Nat) : Fld := ⟨rLYR_RSV_e_q_j i j, 0, 5⟩
abbrev LYR_RSV_e_q_j_VALID (i j : Nat) : Fld := ⟨rLYR_RSV_e_q_j i j, 5, 1⟩
/-- LYR_STOP_s_CTL (R328). -/
abbrev rLYR_STOP_s_CTL (i : Nat) : Nat := 0xc00400 + 0x40 * i
abbrev LYR_STOP_s_CTL_BYPASS (i : Nat) : Fld := ⟨rLYR_STOP_s_CTL i, 0, 1⟩
/-- LYR_STOP_s_STS (R328). -/
abbrev rLYR_STOP_s_STS (i : Nat) : Nat := 0xc00404 + 0x40 * i
abbrev LYR_STOP_s_STS_FENCED (i : Nat) : Fld := ⟨rLYR_STOP_s_STS i, 0, 1⟩
abbrev LYR_STOP_s_STS_DRAINED (i : Nat) : Fld := ⟨rLYR_STOP_s_STS i, 1, 1⟩
abbrev LYR_STOP_s_STS_BYPASSED (i : Nat) : Fld := ⟨rLYR_STOP_s_STS i, 2, 1⟩
/-- LYR_STOP_s_HOP_CORR (R328). -/
abbrev rLYR_STOP_s_HOP_CORR (i : Nat) : Nat := 0xc00408 + 0x40 * i
abbrev LYR_STOP_s_HOP_CORR (i : Nat) : Fld := ⟨rLYR_STOP_s_HOP_CORR i, 0, 32⟩
/-- LYR_STOP_s_HOP_REPLAY (R328). -/
abbrev rLYR_STOP_s_HOP_REPLAY (i : Nat) : Nat := 0xc0040c + 0x40 * i
abbrev LYR_STOP_s_HOP_REPLAY (i : Nat) : Fld := ⟨rLYR_STOP_s_HOP_REPLAY i, 0, 32⟩
/-- LYR_STOP_s_E2E_RETRY (R328). -/
abbrev rLYR_STOP_s_E2E_RETRY (i : Nat) : Nat := 0xc00410 + 0x40 * i
abbrev LYR_STOP_s_E2E_RETRY (i : Nat) : Fld := ⟨rLYR_STOP_s_E2E_RETRY i, 0, 32⟩
/-- LYR_STOP_s_E2E_FAIL (R328). -/
abbrev rLYR_STOP_s_E2E_FAIL (i : Nat) : Nat := 0xc00414 + 0x40 * i
abbrev LYR_STOP_s_E2E_FAIL (i : Nat) : Fld := ⟨rLYR_STOP_s_E2E_FAIL i, 0, 32⟩
/-- LYR_STOP_s_STALE (R328). -/
abbrev rLYR_STOP_s_STALE (i : Nat) : Nat := 0xc00418 + 0x40 * i
abbrev LYR_STOP_s_STALE (i : Nat) : Fld := ⟨rLYR_STOP_s_STALE i, 0, 32⟩
/-- LYR_STOP_s_BOUNCED (R328). -/
abbrev rLYR_STOP_s_BOUNCED (i : Nat) : Nat := 0xc0041c + 0x40 * i
abbrev LYR_STOP_s_BOUNCED (i : Nat) : Fld := ⟨rLYR_STOP_s_BOUNCED i, 0, 32⟩
/-- LYR_STOP_s_BOUNCE_ADDR (R328). -/
abbrev rLYR_STOP_s_BOUNCE_ADDR (i : Nat) : Nat := 0xc00420 + 0x40 * i
abbrev LYR_STOP_s_BOUNCE_ADDR (i : Nat) : Fld := ⟨rLYR_STOP_s_BOUNCE_ADDR i, 0, 32⟩
/-- LYR_STOP_s_BOUNCE_INFO (R328). -/
abbrev rLYR_STOP_s_BOUNCE_INFO (i : Nat) : Nat := 0xc00424 + 0x40 * i
abbrev LYR_STOP_s_BOUNCE_INFO_ADDR_HI (i : Nat) : Fld := ⟨rLYR_STOP_s_BOUNCE_INFO i, 0, 8⟩
abbrev LYR_STOP_s_BOUNCE_INFO_DST (i : Nat) : Fld := ⟨rLYR_STOP_s_BOUNCE_INFO i, 8, 5⟩
abbrev LYR_STOP_s_BOUNCE_INFO_STATUS (i : Nat) : Fld := ⟨rLYR_STOP_s_BOUNCE_INFO i, 13, 3⟩
/-- LYR_STOP_s_UNREACHABLE (R328). -/
abbrev rLYR_STOP_s_UNREACHABLE (i : Nat) : Nat := 0xc00428 + 0x40 * i
abbrev LYR_STOP_s_UNREACHABLE (i : Nat) : Fld := ⟨rLYR_STOP_s_UNREACHABLE i, 0, 32⟩
/-- LYR_STOP_s_DOMAIN_OFF (R328). -/
abbrev rLYR_STOP_s_DOMAIN_OFF (i : Nat) : Nat := 0xc0042c + 0x40 * i
abbrev LYR_STOP_s_DOMAIN_OFF (i : Nat) : Fld := ⟨rLYR_STOP_s_DOMAIN_OFF i, 0, 32⟩
/-- LYR_STOP_s_OLD_INFLIGHT (R328). -/
abbrev rLYR_STOP_s_OLD_INFLIGHT (i : Nat) : Nat := 0xc00430 + 0x40 * i
abbrev LYR_STOP_s_OLD_INFLIGHT_COUNT (i : Nat) : Fld := ⟨rLYR_STOP_s_OLD_INFLIGHT i, 0, 16⟩
/-- LYR_RT_s_e_d (R327). -/
abbrev rLYR_RT_s_e_d (i j k : Nat) : Nat := 0xc10000 + 0x200 * i + 0x100 * j + 0x4 * k
abbrev LYR_RT_s_e_d_ENTRY (i j k : Nat) : Fld := ⟨rLYR_RT_s_e_d i j k, 0, 16⟩
/-- WDS_CTL (R111). -/
abbrev rWDS_CTL : Nat := 0x1000000
abbrev WDS_CTL_ENABLE : Fld := ⟨rWDS_CTL, 0, 1⟩
/-- WDS_STS (R111). -/
abbrev rWDS_STS : Nat := 0x1000004
abbrev WDS_STS_RUNNING : Fld := ⟨rWDS_STS, 0, 1⟩
abbrev WDS_STS_LOG_FULL : Fld := ⟨rWDS_STS, 1, 1⟩
/-- WDS_GRACE (R111). -/
abbrev rWDS_GRACE : Nat := 0x1000008
abbrev WDS_GRACE : Fld := ⟨rWDS_GRACE, 0, 16⟩
/-- WDS_SLOTS_FREE (R111). -/
abbrev rWDS_SLOTS_FREE : Nat := 0x100000c
abbrev WDS_SLOTS_FREE : Fld := ⟨rWDS_SLOTS_FREE, 0, 15⟩
/-- WDS_HANDOUTS (R111). -/
abbrev rWDS_HANDOUTS : Nat := 0x1000010
abbrev WDS_HANDOUTS : Fld := ⟨rWDS_HANDOUTS, 0, 32⟩
/-- WDS_LOG_LOST (R111). -/
abbrev rWDS_LOG_LOST : Nat := 0x1000014
abbrev WDS_LOG_LOST : Fld := ⟨rWDS_LOG_LOST, 0, 32⟩
/-- WDS_EVT_IGNORED (R111). -/
abbrev rWDS_EVT_IGNORED : Nat := 0x1000018
abbrev WDS_EVT_IGNORED : Fld := ⟨rWDS_EVT_IGNORED, 0, 32⟩
/-- WDS_HUNG (R111). -/
abbrev rWDS_HUNG : Nat := 0x100001c
abbrev WDS_HUNG : Fld := ⟨rWDS_HUNG, 0, 32⟩
/-- WDS_GRAPH_REFUSED (R111). -/
abbrev rWDS_GRAPH_REFUSED : Nat := 0x1000020
abbrev WDS_GRAPH_REFUSED : Fld := ⟨rWDS_GRAPH_REFUSED, 0, 32⟩
/-- WDS_REPORTS_UNBOUND (R111). -/
abbrev rWDS_REPORTS_UNBOUND : Nat := 0x1000024
abbrev WDS_REPORTS_UNBOUND : Fld := ⟨rWDS_REPORTS_UNBOUND, 0, 32⟩
/-- WDS_PODn_CTL (R111). -/
abbrev rWDS_PODn_CTL (i : Nat) : Nat := 0x1000100 + 0x10 * i
abbrev WDS_PODn_CTL_MODE (i : Nat) : Fld := ⟨rWDS_PODn_CTL i, 0, 2⟩
/-- WDS_PODn_CORES (R111). -/
abbrev rWDS_PODn_CORES (i : Nat) : Nat := 0x1000104 + 0x10 * i
abbrev WDS_PODn_CORES_CORE_MASK (i : Nat) : Fld := ⟨rWDS_PODn_CORES i, 0, 9⟩
/-- WDS_PODn_CAP (R111). -/
abbrev rWDS_PODn_CAP (i : Nat) : Nat := 0x1000108 + 0x10 * i
abbrev WDS_PODn_CAP (i : Nat) : Fld := ⟨rWDS_PODn_CAP i, 0, 4⟩
/-- WDS_PODn_BUSY (R111). -/
abbrev rWDS_PODn_BUSY (i : Nat) : Nat := 0x100010c + 0x10 * i
abbrev WDS_PODn_BUSY (i : Nat) : Fld := ⟨rWDS_PODn_BUSY i, 0, 9⟩
/-- WDS_PODn_TOKc (R111). -/
abbrev rWDS_PODn_TOKc (i j : Nat) : Nat := 0x1000400 + 0x10 * i + 0x4 * j
abbrev WDS_PODn_TOKc_ALLOT (i j : Nat) : Fld := ⟨rWDS_PODn_TOKc i j, 0, 4⟩
abbrev WDS_PODn_TOKc_HELD (i j : Nat) : Fld := ⟨rWDS_PODn_TOKc i j, 4, 4⟩
/-- WDS_TLn_DROPPED (R53). -/
abbrev rWDS_TLn_DROPPED (i : Nat) : Nat := 0x1000800 + 0x10 * i
abbrev WDS_TLn_DROPPED (i : Nat) : Fld := ⟨rWDS_TLn_DROPPED i, 0, 32⟩
/-- WDS_TLn_STOPPED (R53). -/
abbrev rWDS_TLn_STOPPED (i : Nat) : Nat := 0x1000804 + 0x10 * i
abbrev WDS_TLn_STOPPED (i : Nat) : Fld := ⟨rWDS_TLn_STOPPED i, 0, 32⟩
/-- WDS_TLn_REPORTS (R53). -/
abbrev rWDS_TLn_REPORTS (i : Nat) : Nat := 0x1000808 + 0x10 * i
abbrev WDS_TLn_REPORTS (i : Nat) : Fld := ⟨rWDS_TLn_REPORTS i, 0, 32⟩
/-- WDS_TLn_FENCE_LATE (R53). -/
abbrev rWDS_TLn_FENCE_LATE (i : Nat) : Nat := 0x100080c + 0x10 * i
abbrev WDS_TLn_FENCE_LATE (i : Nat) : Fld := ⟨rWDS_TLn_FENCE_LATE i, 0, 32⟩
/-- DFE_TX_ADV (R257). -/
abbrev rDFE_TX_ADV : Nat := 0x1400000
abbrev DFE_TX_ADV : Fld := ⟨rDFE_TX_ADV, 0, 20⟩
/-- DFE_RX_DELAY (R257). -/
abbrev rDFE_RX_DELAY : Nat := 0x1400004
abbrev DFE_RX_DELAY : Fld := ⟨rDFE_RX_DELAY, 0, 20⟩
/-- DFE_RX_RBD (R257). -/
abbrev rDFE_RX_RBD : Nat := 0x1400008
abbrev DFE_RX_RBD : Fld := ⟨rDFE_RX_RBD, 0, 8⟩
/-- DFE_SYSREF_TIME_i (R257). -/
abbrev rDFE_SYSREF_TIME_i (i : Nat) : Nat := 0x140000c + 0x4 * i
abbrev DFE_SYSREF_TIME_i_TIME (i : Nat) : Fld := ⟨rDFE_SYSREF_TIME_i i, 0, 32⟩
/-- DFE_TIME_ERR (R257). -/
abbrev rDFE_TIME_ERR : Nat := 0x140001c
abbrev DFE_TIME_ERR : Fld := ⟨rDFE_TIME_ERR, 0, 16⟩
/-- DFE_SYSREF_MISS (R257). -/
abbrev rDFE_SYSREF_MISS : Nat := 0x1400020
abbrev DFE_SYSREF_MISS : Fld := ⟨rDFE_SYSREF_MISS, 0, 32⟩
/-- DFE_Jg_CTL_TX (R257). -/
abbrev rDFE_Jg_CTL_TX (i : Nat) : Nat := 0x1400100 + 0x40 * i
abbrev DFE_Jg_CTL_TX_ENABLE (i : Nat) : Fld := ⟨rDFE_Jg_CTL_TX i, 0, 1⟩
/-- DFE_Jg_CTL_RX (R257). -/
abbrev rDFE_Jg_CTL_RX (i : Nat) : Nat := 0x1400200 + 0x40 * i
abbrev DFE_Jg_CTL_RX_ENABLE (i : Nat) : Fld := ⟨rDFE_Jg_CTL_RX i, 0, 1⟩
/-- DFE_Jk_CTL_OBS (R257). -/
abbrev rDFE_Jk_CTL_OBS (i : Nat) : Nat := 0x1400300 + 0x40 * i
abbrev DFE_Jk_CTL_OBS_ENABLE (i : Nat) : Fld := ⟨rDFE_Jk_CTL_OBS i, 0, 1⟩
/-- DFE_Jg_CFG_TX (R257). -/
abbrev rDFE_Jg_CFG_TX (i : Nat) : Nat := 0x1400104 + 0x40 * i
abbrev DFE_Jg_CFG_TX_RATE (i : Nat) : Fld := ⟨rDFE_Jg_CFG_TX i, 0, 2⟩
/-- DFE_Jg_CFG_RX (R257). -/
abbrev rDFE_Jg_CFG_RX (i : Nat) : Nat := 0x1400204 + 0x40 * i
abbrev DFE_Jg_CFG_RX_RATE (i : Nat) : Fld := ⟨rDFE_Jg_CFG_RX i, 0, 2⟩
/-- DFE_Jk_CFG_OBS (R257). -/
abbrev rDFE_Jk_CFG_OBS (i : Nat) : Nat := 0x1400304 + 0x40 * i
abbrev DFE_Jk_CFG_OBS_RATE (i : Nat) : Fld := ⟨rDFE_Jk_CFG_OBS i, 0, 2⟩
/-- DFE_Jg_SPARE_TX (R257). -/
abbrev rDFE_Jg_SPARE_TX (i : Nat) : Nat := 0x1400108 + 0x40 * i
abbrev DFE_Jg_SPARE_TX_LANE (i : Nat) : Fld := ⟨rDFE_Jg_SPARE_TX i, 0, 4⟩
abbrev DFE_Jg_SPARE_TX_USE (i : Nat) : Fld := ⟨rDFE_Jg_SPARE_TX i, 4, 1⟩
/-- DFE_Jg_SPARE_RX (R257). -/
abbrev rDFE_Jg_SPARE_RX (i : Nat) : Nat := 0x1400208 + 0x40 * i
abbrev DFE_Jg_SPARE_RX_LANE (i : Nat) : Fld := ⟨rDFE_Jg_SPARE_RX i, 0, 4⟩
abbrev DFE_Jg_SPARE_RX_USE (i : Nat) : Fld := ⟨rDFE_Jg_SPARE_RX i, 4, 1⟩
/-- DFE_Jk_SPARE_OBS (R257). -/
abbrev rDFE_Jk_SPARE_OBS (i : Nat) : Nat := 0x1400308 + 0x40 * i
abbrev DFE_Jk_SPARE_OBS_LANE (i : Nat) : Fld := ⟨rDFE_Jk_SPARE_OBS i, 0, 4⟩
abbrev DFE_Jk_SPARE_OBS_USE (i : Nat) : Fld := ⟨rDFE_Jk_SPARE_OBS i, 4, 1⟩
/-- DFE_Jg_PARAM0_TX (R257). -/
abbrev rDFE_Jg_PARAM0_TX (i : Nat) : Nat := 0x140010c + 0x40 * i
abbrev DFE_Jg_PARAM0_TX_L (i : Nat) : Fld := ⟨rDFE_Jg_PARAM0_TX i, 0, 2⟩
abbrev DFE_Jg_PARAM0_TX_M (i : Nat) : Fld := ⟨rDFE_Jg_PARAM0_TX i, 2, 4⟩
abbrev DFE_Jg_PARAM0_TX_F (i : Nat) : Fld := ⟨rDFE_Jg_PARAM0_TX i, 6, 3⟩
abbrev DFE_Jg_PARAM0_TX_E (i : Nat) : Fld := ⟨rDFE_Jg_PARAM0_TX i, 9, 2⟩
abbrev DFE_Jg_PARAM0_TX_S (i : Nat) : Fld := ⟨rDFE_Jg_PARAM0_TX i, 11, 1⟩
/-- DFE_Jg_PARAM0_RX (R257). -/
abbrev rDFE_Jg_PARAM0_RX (i : Nat) : Nat := 0x140020c + 0x40 * i
abbrev DFE_Jg_PARAM0_RX_L (i : Nat) : Fld := ⟨rDFE_Jg_PARAM0_RX i, 0, 2⟩
abbrev DFE_Jg_PARAM0_RX_M (i : Nat) : Fld := ⟨rDFE_Jg_PARAM0_RX i, 2, 4⟩
abbrev DFE_Jg_PARAM0_RX_F (i : Nat) : Fld := ⟨rDFE_Jg_PARAM0_RX i, 6, 3⟩
abbrev DFE_Jg_PARAM0_RX_E (i : Nat) : Fld := ⟨rDFE_Jg_PARAM0_RX i, 9, 2⟩
abbrev DFE_Jg_PARAM0_RX_S (i : Nat) : Fld := ⟨rDFE_Jg_PARAM0_RX i, 11, 1⟩
/-- DFE_Jk_PARAM0_OBS (R257). -/
abbrev rDFE_Jk_PARAM0_OBS (i : Nat) : Nat := 0x140030c + 0x40 * i
abbrev DFE_Jk_PARAM0_OBS_L (i : Nat) : Fld := ⟨rDFE_Jk_PARAM0_OBS i, 0, 2⟩
abbrev DFE_Jk_PARAM0_OBS_M (i : Nat) : Fld := ⟨rDFE_Jk_PARAM0_OBS i, 2, 4⟩
abbrev DFE_Jk_PARAM0_OBS_F (i : Nat) : Fld := ⟨rDFE_Jk_PARAM0_OBS i, 6, 3⟩
abbrev DFE_Jk_PARAM0_OBS_E (i : Nat) : Fld := ⟨rDFE_Jk_PARAM0_OBS i, 9, 2⟩
abbrev DFE_Jk_PARAM0_OBS_S (i : Nat) : Fld := ⟨rDFE_Jk_PARAM0_OBS i, 11, 1⟩
/-- DFE_Jg_PARAM1_TX (R257). -/
abbrev rDFE_Jg_PARAM1_TX (i : Nat) : Nat := 0x1400110 + 0x40 * i
abbrev DFE_Jg_PARAM1_TX_N (i : Nat) : Fld := ⟨rDFE_Jg_PARAM1_TX i, 0, 4⟩
abbrev DFE_Jg_PARAM1_TX_NP (i : Nat) : Fld := ⟨rDFE_Jg_PARAM1_TX i, 4, 4⟩
abbrev DFE_Jg_PARAM1_TX_CS (i : Nat) : Fld := ⟨rDFE_Jg_PARAM1_TX i, 8, 2⟩
abbrev DFE_Jg_PARAM1_TX_CF (i : Nat) : Fld := ⟨rDFE_Jg_PARAM1_TX i, 10, 5⟩
/-- DFE_Jg_PARAM1_RX (R257). -/
abbrev rDFE_Jg_PARAM1_RX (i : Nat) : Nat := 0x1400210 + 0x40 * i
abbrev DFE_Jg_PARAM1_RX_N (i : Nat) : Fld := ⟨rDFE_Jg_PARAM1_RX i, 0, 4⟩
abbrev DFE_Jg_PARAM1_RX_NP (i : Nat) : Fld := ⟨rDFE_Jg_PARAM1_RX i, 4, 4⟩
abbrev DFE_Jg_PARAM1_RX_CS (i : Nat) : Fld := ⟨rDFE_Jg_PARAM1_RX i, 8, 2⟩
abbrev DFE_Jg_PARAM1_RX_CF (i : Nat) : Fld := ⟨rDFE_Jg_PARAM1_RX i, 10, 5⟩
/-- DFE_Jk_PARAM1_OBS (R257). -/
abbrev rDFE_Jk_PARAM1_OBS (i : Nat) : Nat := 0x1400310 + 0x40 * i
abbrev DFE_Jk_PARAM1_OBS_N (i : Nat) : Fld := ⟨rDFE_Jk_PARAM1_OBS i, 0, 4⟩
abbrev DFE_Jk_PARAM1_OBS_NP (i : Nat) : Fld := ⟨rDFE_Jk_PARAM1_OBS i, 4, 4⟩
abbrev DFE_Jk_PARAM1_OBS_CS (i : Nat) : Fld := ⟨rDFE_Jk_PARAM1_OBS i, 8, 2⟩
abbrev DFE_Jk_PARAM1_OBS_CF (i : Nat) : Fld := ⟨rDFE_Jk_PARAM1_OBS i, 10, 5⟩
/-- DFE_Jg_STS_TX (R257). -/
abbrev rDFE_Jg_STS_TX (i : Nat) : Nat := 0x1400114 + 0x40 * i
abbrev DFE_Jg_STS_TX_LINK_UP (i : Nat) : Fld := ⟨rDFE_Jg_STS_TX i, 0, 12⟩
abbrev DFE_Jg_STS_TX_REMAP_PENDING (i : Nat) : Fld := ⟨rDFE_Jg_STS_TX i, 12, 1⟩
/-- DFE_Jg_STS_RX (R257). -/
abbrev rDFE_Jg_STS_RX (i : Nat) : Nat := 0x1400214 + 0x40 * i
abbrev DFE_Jg_STS_RX_LINK_UP (i : Nat) : Fld := ⟨rDFE_Jg_STS_RX i, 0, 12⟩
abbrev DFE_Jg_STS_RX_REMAP_PENDING (i : Nat) : Fld := ⟨rDFE_Jg_STS_RX i, 12, 1⟩
/-- DFE_Jk_STS_OBS (R257). -/
abbrev rDFE_Jk_STS_OBS (i : Nat) : Nat := 0x1400314 + 0x40 * i
abbrev DFE_Jk_STS_OBS_LINK_UP (i : Nat) : Fld := ⟨rDFE_Jk_STS_OBS i, 0, 12⟩
abbrev DFE_Jk_STS_OBS_REMAP_PENDING (i : Nat) : Fld := ⟨rDFE_Jk_STS_OBS i, 12, 1⟩
/-- DFE_Jg_SHERR_TX (R257). -/
abbrev rDFE_Jg_SHERR_TX (i : Nat) : Nat := 0x1400118 + 0x40 * i
abbrev DFE_Jg_SHERR_TX_SHERR (i : Nat) : Fld := ⟨rDFE_Jg_SHERR_TX i, 0, 32⟩
/-- DFE_Jg_SHERR_RX (R257). -/
abbrev rDFE_Jg_SHERR_RX (i : Nat) : Nat := 0x1400218 + 0x40 * i
abbrev DFE_Jg_SHERR_RX_SHERR (i : Nat) : Fld := ⟨rDFE_Jg_SHERR_RX i, 0, 32⟩
/-- DFE_Jk_SHERR_OBS (R257). -/
abbrev rDFE_Jk_SHERR_OBS (i : Nat) : Nat := 0x1400318 + 0x40 * i
abbrev DFE_Jk_SHERR_OBS_SHERR (i : Nat) : Fld := ⟨rDFE_Jk_SHERR_OBS i, 0, 32⟩
/-- DFE_Jg_CRCERR_TX (R257). -/
abbrev rDFE_Jg_CRCERR_TX (i : Nat) : Nat := 0x140011c + 0x40 * i
abbrev DFE_Jg_CRCERR_TX_CRCERR (i : Nat) : Fld := ⟨rDFE_Jg_CRCERR_TX i, 0, 32⟩
/-- DFE_Jg_CRCERR_RX (R257). -/
abbrev rDFE_Jg_CRCERR_RX (i : Nat) : Nat := 0x140021c + 0x40 * i
abbrev DFE_Jg_CRCERR_RX_CRCERR (i : Nat) : Fld := ⟨rDFE_Jg_CRCERR_RX i, 0, 32⟩
/-- DFE_Jk_CRCERR_OBS (R257). -/
abbrev rDFE_Jk_CRCERR_OBS (i : Nat) : Nat := 0x140031c + 0x40 * i
abbrev DFE_Jk_CRCERR_OBS_CRCERR (i : Nat) : Fld := ⟨rDFE_Jk_CRCERR_OBS i, 0, 32⟩
/-- DFE_Jg_RELINK_TX (R257). -/
abbrev rDFE_Jg_RELINK_TX (i : Nat) : Nat := 0x1400120 + 0x40 * i
abbrev DFE_Jg_RELINK_TX_RELINK (i : Nat) : Fld := ⟨rDFE_Jg_RELINK_TX i, 0, 32⟩
/-- DFE_Jg_RELINK_RX (R257). -/
abbrev rDFE_Jg_RELINK_RX (i : Nat) : Nat := 0x1400220 + 0x40 * i
abbrev DFE_Jg_RELINK_RX_RELINK (i : Nat) : Fld := ⟨rDFE_Jg_RELINK_RX i, 0, 32⟩
/-- DFE_Jk_RELINK_OBS (R257). -/
abbrev rDFE_Jk_RELINK_OBS (i : Nat) : Nat := 0x1400320 + 0x40 * i
abbrev DFE_Jk_RELINK_OBS_RELINK (i : Nat) : Fld := ⟨rDFE_Jk_RELINK_OBS i, 0, 32⟩
/-- DFE_CCc_CTL (R232). -/
abbrev rDFE_CCc_CTL (i : Nat) : Nat := 0x1401000 + 0x40 * i
abbrev DFE_CCc_CTL_ENABLE (i : Nat) : Fld := ⟨rDFE_CCc_CTL i, 0, 1⟩
/-- DFE_CCc_CFG (R232). -/
abbrev rDFE_CCc_CFG (i : Nat) : Nat := 0x1401004 + 0x40 * i
abbrev DFE_CCc_CFG_STD (i : Nat) : Fld := ⟨rDFE_CCc_CFG i, 0, 2⟩
abbrev DFE_CCc_CFG_SCS (i : Nat) : Fld := ⟨rDFE_CCc_CFG i, 2, 2⟩
abbrev DFE_CCc_CFG_ECP (i : Nat) : Fld := ⟨rDFE_CCc_CFG i, 4, 1⟩
abbrev DFE_CCc_CFG_TDD (i : Nat) : Fld := ⟨rDFE_CCc_CFG i, 5, 1⟩
abbrev DFE_CCc_CFG_PAT (i : Nat) : Fld := ⟨rDFE_CCc_CFG i, 6, 4⟩
abbrev DFE_CCc_CFG_TIMELINE (i : Nat) : Fld := ⟨rDFE_CCc_CFG i, 10, 2⟩
/-- DFE_CCc_BW (R232). -/
abbrev rDFE_CCc_BW (i : Nat) : Nat := 0x1401008 + 0x40 * i
abbrev DFE_CCc_BW (i : Nat) : Fld := ⟨rDFE_CCc_BW i, 0, 20⟩
/-- DFE_CCc_OFFSET (R232). -/
abbrev rDFE_CCc_OFFSET (i : Nat) : Nat := 0x140100c + 0x40 * i
abbrev DFE_CCc_OFFSET (i : Nat) : Fld := ⟨rDFE_CCc_OFFSET i, 0, 32⟩
/-- DFE_CCc_PORTS (R232). -/
abbrev rDFE_CCc_PORTS (i : Nat) : Nat := 0x1401010 + 0x40 * i
abbrev DFE_CCc_PORTS_FIRST (i : Nat) : Fld := ⟨rDFE_CCc_PORTS i, 0, 6⟩
abbrev DFE_CCc_PORTS_COUNT (i : Nat) : Fld := ⟨rDFE_CCc_PORTS i, 6, 7⟩
/-- DFE_CCc_NRB (R232). -/
abbrev rDFE_CCc_NRB (i : Nat) : Nat := 0x1401014 + 0x40 * i
abbrev DFE_CCc_NRB (i : Nat) : Fld := ⟨rDFE_CCc_NRB i, 0, 9⟩
/-- DFE_CCc_FREF (R232). -/
abbrev rDFE_CCc_FREF (i : Nat) : Nat := 0x1401018 + 0x40 * i
abbrev DFE_CCc_FREF (i : Nat) : Fld := ⟨rDFE_CCc_FREF i, 0, 32⟩
/-- DFE_CCc_GAIN (R232). -/
abbrev rDFE_CCc_GAIN (i : Nat) : Nat := 0x140101c + 0x40 * i
abbrev DFE_CCc_GAIN (i : Nat) : Fld := ⟨rDFE_CCc_GAIN i, 0, 12⟩
/-- DFE_CCc_RXOFS (R232). -/
abbrev rDFE_CCc_RXOFS (i : Nat) : Nat := 0x1401020 + 0x40 * i
abbrev DFE_CCc_RXOFS (i : Nat) : Fld := ⟨rDFE_CCc_RXOFS i, 0, 32⟩
/-- DFE_CCc_AGC (R232). -/
abbrev rDFE_CCc_AGC (i : Nat) : Nat := 0x1401024 + 0x40 * i
abbrev DFE_CCc_AGC_MODE (i : Nat) : Fld := ⟨rDFE_CCc_AGC i, 0, 1⟩
abbrev DFE_CCc_AGC_EXP (i : Nat) : Fld := ⟨rDFE_CCc_AGC i, 1, 4⟩
abbrev DFE_CCc_AGC_HEADROOM (i : Nat) : Fld := ⟨rDFE_CCc_AGC i, 5, 2⟩
/-- DFE_CCc_RXEVT (R232). -/
abbrev rDFE_CCc_RXEVT (i : Nat) : Nat := 0x1401028 + 0x40 * i
abbrev DFE_CCc_RXEVT (i : Nat) : Fld := ⟨rDFE_CCc_RXEVT i, 0, 12⟩
/-- DFE_CCc_ZERO_SYM (R232). -/
abbrev rDFE_CCc_ZERO_SYM (i : Nat) : Nat := 0x140102c + 0x40 * i
abbrev DFE_CCc_ZERO_SYM (i : Nat) : Fld := ⟨rDFE_CCc_ZERO_SYM i, 0, 32⟩
/-- DFE_CCc_TXSAT (R232). -/
abbrev rDFE_CCc_TXSAT (i : Nat) : Nat := 0x1401030 + 0x40 * i
abbrev DFE_CCc_TXSAT (i : Nat) : Fld := ⟨rDFE_CCc_TXSAT i, 0, 32⟩
/-- DFE_CCc_RXSAT (R232). -/
abbrev rDFE_CCc_RXSAT (i : Nat) : Nat := 0x1401034 + 0x40 * i
abbrev DFE_CCc_RXSAT (i : Nat) : Fld := ⟨rDFE_CCc_RXSAT i, 0, 32⟩
/-- DFE_TX_t_DPD (R240). -/
abbrev rDFE_TX_t_DPD (i : Nat) : Nat := 0x1405000 + 0x20 * i
abbrev DFE_TX_t_DPD_ACTIVE (i : Nat) : Fld := ⟨rDFE_TX_t_DPD i, 0, 1⟩
abbrev DFE_TX_t_DPD_PENDING (i : Nat) : Fld := ⟨rDFE_TX_t_DPD i, 1, 1⟩
abbrev DFE_TX_t_DPD_BYPASS (i : Nat) : Fld := ⟨rDFE_TX_t_DPD i, 2, 1⟩
abbrev DFE_TX_t_DPD_TIMELINE (i : Nat) : Fld := ⟨rDFE_TX_t_DPD i, 3, 2⟩
/-- DFE_TX_t_DPD_SEL (R240). -/
abbrev rDFE_TX_t_DPD_SEL (i : Nat) : Nat := 0x1405004 + 0x20 * i
abbrev DFE_TX_t_DPD_SEL_ARM (i : Nat) : Fld := ⟨rDFE_TX_t_DPD_SEL i, 0, 1⟩
/-- DFE_TX_t_CFR (R240). -/
abbrev rDFE_TX_t_CFR (i : Nat) : Nat := 0x1405008 + 0x20 * i
abbrev DFE_TX_t_CFR_THRESH (i : Nat) : Fld := ⟨rDFE_TX_t_CFR i, 0, 11⟩
abbrev DFE_TX_t_CFR_PASSES (i : Nat) : Fld := ⟨rDFE_TX_t_CFR i, 11, 2⟩
/-- DFE_TX_t_CFR_WEIGHT (R240). -/
abbrev rDFE_TX_t_CFR_WEIGHT (i : Nat) : Nat := 0x140500c + 0x20 * i
abbrev DFE_TX_t_CFR_WEIGHT (i : Nat) : Fld := ⟨rDFE_TX_t_CFR_WEIGHT i, 0, 16⟩
/-- DFE_TX_t_CFR_WEIGHT_HI (R240). -/
abbrev rDFE_TX_t_CFR_WEIGHT_HI (i : Nat) : Nat := 0x1405010 + 0x20 * i
abbrev DFE_TX_t_CFR_WEIGHT_HI (i : Nat) : Fld := ⟨rDFE_TX_t_CFR_WEIGHT_HI i, 0, 16⟩
/-- DFE_TX_t_CLIP (R240). -/
abbrev rDFE_TX_t_CLIP (i : Nat) : Nat := 0x1405014 + 0x20 * i
abbrev DFE_TX_t_CLIP (i : Nat) : Fld := ⟨rDFE_TX_t_CLIP i, 0, 32⟩
/-- DFE_TX_t_DPDSAT (R240). -/
abbrev rDFE_TX_t_DPDSAT (i : Nat) : Nat := 0x1405018 + 0x20 * i
abbrev DFE_TX_t_DPDSAT (i : Nat) : Fld := ⟨rDFE_TX_t_DPDSAT i, 0, 32⟩
/-- DFE_TX_t_SWITCHES (R240). -/
abbrev rDFE_TX_t_SWITCHES (i : Nat) : Nat := 0x140501c + 0x20 * i
abbrev DFE_TX_t_SWITCHES (i : Nat) : Fld := ⟨rDFE_TX_t_SWITCHES i, 0, 32⟩
/-- DFE_RX_r_SAT (R244). -/
abbrev rDFE_RX_r_SAT (i : Nat) : Nat := 0x1405800 + 0x10 * i
abbrev DFE_RX_r_SAT (i : Nat) : Fld := ⟨rDFE_RX_r_SAT i, 0, 32⟩
/-- DFE_ORX_k_SETTLE (R243). -/
abbrev rDFE_ORX_k_SETTLE (i : Nat) : Nat := 0x1405c00 + 0x10 * i
abbrev DFE_ORX_k_SETTLE (i : Nat) : Fld := ⟨rDFE_ORX_k_SETTLE i, 0, 16⟩
/-- DFE_ORX_k_LAT (R243). -/
abbrev rDFE_ORX_k_LAT (i : Nat) : Nat := 0x1405c04 + 0x10 * i
abbrev DFE_ORX_k_LAT (i : Nat) : Fld := ⟨rDFE_ORX_k_LAT i, 0, 16⟩
/-- DFE_ORX_k_CAPS (R243). -/
abbrev rDFE_ORX_k_CAPS (i : Nat) : Nat := 0x1405c08 + 0x10 * i
abbrev DFE_ORX_k_CAPS (i : Nat) : Fld := ⟨rDFE_ORX_k_CAPS i, 0, 32⟩
/-- DFE_ORX_k_REFUSED (R243). -/
abbrev rDFE_ORX_k_REFUSED (i : Nat) : Nat := 0x1405c0c + 0x10 * i
abbrev DFE_ORX_k_REFUSED (i : Nat) : Fld := ⟨rDFE_ORX_k_REFUSED i, 0, 32⟩
/-- DFE_TDDn_CFG (R249). -/
abbrev rDFE_TDDn_CFG (i : Nat) : Nat := 0x1406000 + 0x100 * i
abbrev DFE_TDDn_CFG_LEN (i : Nat) : Fld := ⟨rDFE_TDDn_CFG i, 0, 6⟩
abbrev DFE_TDDn_CFG_TIMELINE (i : Nat) : Fld := ⟨rDFE_TDDn_CFG i, 6, 2⟩
abbrev DFE_TDDn_CFG_SCS (i : Nat) : Fld := ⟨rDFE_TDDn_CFG i, 8, 2⟩
abbrev DFE_TDDn_CFG_ECP (i : Nat) : Fld := ⟨rDFE_TDDn_CFG i, 10, 1⟩
/-- DFE_TDDn_ROW_j (R249). -/
abbrev rDFE_TDDn_ROW_j (i j : Nat) : Nat := 0x1406004 + 0x100 * i + 0x4 * j
abbrev DFE_TDDn_ROW_j_ROW (i j : Nat) : Fld := ⟨rDFE_TDDn_ROW_j i j, 0, 28⟩
/-- DFE_GEV_e_CTL (R251). -/
abbrev rDFE_GEV_e_CTL (i : Nat) : Nat := 0x1407000 + 0x10 * i
abbrev DFE_GEV_e_CTL_ENABLE (i : Nat) : Fld := ⟨rDFE_GEV_e_CTL i, 0, 1⟩
/-- DFE_GEV_e_CFG (R251). -/
abbrev rDFE_GEV_e_CFG (i : Nat) : Nat := 0x1407004 + 0x10 * i
abbrev DFE_GEV_e_CFG_LINE (i : Nat) : Fld := ⟨rDFE_GEV_e_CFG i, 0, 6⟩
abbrev DFE_GEV_e_CFG_LEVEL (i : Nat) : Fld := ⟨rDFE_GEV_e_CFG i, 6, 1⟩
abbrev DFE_GEV_e_CFG_TIMELINE (i : Nat) : Fld := ⟨rDFE_GEV_e_CFG i, 7, 2⟩
/-- DFE_GEV_e_OFFSET (R251). -/
abbrev rDFE_GEV_e_OFFSET (i : Nat) : Nat := 0x1407008 + 0x10 * i
abbrev DFE_GEV_e_OFFSET (i : Nat) : Fld := ⟨rDFE_GEV_e_OFFSET i, 0, 32⟩
/-- DFE_GEV_e_REP (R251). -/
abbrev rDFE_GEV_e_REP (i : Nat) : Nat := 0x140700c + 0x10 * i
abbrev DFE_GEV_e_REP_MOD (i : Nat) : Fld := ⟨rDFE_GEV_e_REP i, 0, 8⟩
abbrev DFE_GEV_e_REP_PHASE (i : Nat) : Fld := ⟨rDFE_GEV_e_REP i, 8, 8⟩
/-- DFE_GPIO_l_CFG (R250). -/
abbrev rDFE_GPIO_l_CFG (i : Nat) : Nat := 0x1408000 + 0x10 * i
abbrev DFE_GPIO_l_CFG_MODE (i : Nat) : Fld := ⟨rDFE_GPIO_l_CFG i, 0, 3⟩
abbrev DFE_GPIO_l_CFG_LEVEL (i : Nat) : Fld := ⟨rDFE_GPIO_l_CFG i, 3, 1⟩
abbrev DFE_GPIO_l_CFG_INVERT (i : Nat) : Fld := ⟨rDFE_GPIO_l_CFG i, 4, 1⟩
abbrev DFE_GPIO_l_CFG_ARG (i : Nat) : Fld := ⟨rDFE_GPIO_l_CFG i, 5, 5⟩
/-- DFE_GPIO_l_LEAD (R250). -/
abbrev rDFE_GPIO_l_LEAD (i : Nat) : Nat := 0x1408004 + 0x10 * i
abbrev DFE_GPIO_l_LEAD (i : Nat) : Fld := ⟨rDFE_GPIO_l_LEAD i, 0, 16⟩
/-- DFE_GPIO_l_LAG (R250). -/
abbrev rDFE_GPIO_l_LAG (i : Nat) : Nat := 0x1408008 + 0x10 * i
abbrev DFE_GPIO_l_LAG (i : Nat) : Fld := ⟨rDFE_GPIO_l_LAG i, 0, 16⟩
/-- DFE_PRACH_x_CTL (R247). -/
abbrev rDFE_PRACH_x_CTL (i : Nat) : Nat := 0x1409000 + 0x20 * i
abbrev DFE_PRACH_x_CTL_ENABLE (i : Nat) : Fld := ⟨rDFE_PRACH_x_CTL i, 0, 1⟩
/-- DFE_PRACH_x_CFG (R247). -/
abbrev rDFE_PRACH_x_CFG (i : Nat) : Nat := 0x1409004 + 0x20 * i
abbrev DFE_PRACH_x_CFG_CC (i : Nat) : Fld := ⟨rDFE_PRACH_x_CFG i, 0, 8⟩
abbrev DFE_PRACH_x_CFG_FORMAT (i : Nat) : Fld := ⟨rDFE_PRACH_x_CFG i, 8, 2⟩
abbrev DFE_PRACH_x_CFG_SCS_RA (i : Nat) : Fld := ⟨rDFE_PRACH_x_CFG i, 10, 2⟩
abbrev DFE_PRACH_x_CFG_SEQ (i : Nat) : Fld := ⟨rDFE_PRACH_x_CFG i, 12, 4⟩
/-- DFE_PRACH_x_FREQ (R247). -/
abbrev rDFE_PRACH_x_FREQ (i : Nat) : Nat := 0x1409008 + 0x20 * i
abbrev DFE_PRACH_x_FREQ (i : Nat) : Fld := ⟨rDFE_PRACH_x_FREQ i, 0, 32⟩
/-- DFE_PRACH_x_START (R247). -/
abbrev rDFE_PRACH_x_START (i : Nat) : Nat := 0x140900c + 0x20 * i
abbrev DFE_PRACH_x_START (i : Nat) : Fld := ⟨rDFE_PRACH_x_START i, 0, 32⟩
/-- DFE_PRACH_x_REP (R247). -/
abbrev rDFE_PRACH_x_REP (i : Nat) : Nat := 0x1409010 + 0x20 * i
abbrev DFE_PRACH_x_REP_MOD (i : Nat) : Fld := ⟨rDFE_PRACH_x_REP i, 0, 8⟩
abbrev DFE_PRACH_x_REP_PHASE (i : Nat) : Fld := ⟨rDFE_PRACH_x_REP i, 8, 8⟩
/-- DFE_PRACH_x_CP (R247). -/
abbrev rDFE_PRACH_x_CP (i : Nat) : Nat := 0x1409014 + 0x20 * i
abbrev DFE_PRACH_x_CP_CP_LEN (i : Nat) : Fld := ⟨rDFE_PRACH_x_CP i, 0, 16⟩
/-- DFE_PRACH_x_DEST (R247). -/
abbrev rDFE_PRACH_x_DEST (i : Nat) : Nat := 0x1409018 + 0x20 * i
abbrev DFE_PRACH_x_DEST (i : Nat) : Fld := ⟨rDFE_PRACH_x_DEST i, 0, 32⟩
/-- DFE_PRACH_x_EVT (R247). -/
abbrev rDFE_PRACH_x_EVT (i : Nat) : Nat := 0x140901c + 0x20 * i
abbrev DFE_PRACH_x_EVT (i : Nat) : Fld := ⟨rDFE_PRACH_x_EVT i, 0, 12⟩
/-- DFE_NBW_w_CTL (R248). -/
abbrev rDFE_NBW_w_CTL (i : Nat) : Nat := 0x1409400 + 0x10 * i
abbrev DFE_NBW_w_CTL_ENABLE (i : Nat) : Fld := ⟨rDFE_NBW_w_CTL i, 0, 1⟩
/-- DFE_NBW_w_CHAIN (R248). -/
abbrev rDFE_NBW_w_CHAIN (i : Nat) : Nat := 0x1409404 + 0x10 * i
abbrev DFE_NBW_w_CHAIN (i : Nat) : Fld := ⟨rDFE_NBW_w_CHAIN i, 0, 4⟩
/-- DFE_NBW_w_FREQ (R248). -/
abbrev rDFE_NBW_w_FREQ (i : Nat) : Nat := 0x1409408 + 0x10 * i
abbrev DFE_NBW_w_FREQ (i : Nat) : Fld := ⟨rDFE_NBW_w_FREQ i, 0, 32⟩
/-- DFE_IQC_r_CTL (R302). -/
abbrev rDFE_IQC_r_CTL (i : Nat) : Nat := 0x140a000 + 0x20 * i
abbrev DFE_IQC_r_CTL_ACTIVE (i : Nat) : Fld := ⟨rDFE_IQC_r_CTL i, 0, 1⟩
abbrev DFE_IQC_r_CTL_PENDING (i : Nat) : Fld := ⟨rDFE_IQC_r_CTL i, 1, 1⟩
abbrev DFE_IQC_r_CTL_BYPASS (i : Nat) : Fld := ⟨rDFE_IQC_r_CTL i, 2, 1⟩
abbrev DFE_IQC_r_CTL_TIMELINE (i : Nat) : Fld := ⟨rDFE_IQC_r_CTL i, 3, 2⟩
abbrev DFE_IQC_r_CTL_HELD (i : Nat) : Fld := ⟨rDFE_IQC_r_CTL i, 5, 1⟩
/-- DFE_IQC_r_SEL (R302). -/
abbrev rDFE_IQC_r_SEL (i : Nat) : Nat := 0x140a004 + 0x20 * i
abbrev DFE_IQC_r_SEL_ARM (i : Nat) : Fld := ⟨rDFE_IQC_r_SEL i, 0, 1⟩
/-- DFE_IQC_r_b_DC (R302). -/
abbrev rDFE_IQC_r_b_DC (i j : Nat) : Nat := 0x140a008 + 0x20 * i + 0x8 * j
abbrev DFE_IQC_r_b_DC_DC_RE (i j : Nat) : Fld := ⟨rDFE_IQC_r_b_DC i j, 0, 16⟩
abbrev DFE_IQC_r_b_DC_DC_IM (i j : Nat) : Fld := ⟨rDFE_IQC_r_b_DC i j, 16, 16⟩
/-- DFE_IQC_r_b_IQ (R302). -/
abbrev rDFE_IQC_r_b_IQ (i j : Nat) : Nat := 0x140a00c + 0x20 * i + 0x8 * j
abbrev DFE_IQC_r_b_IQ_W_RE (i j : Nat) : Fld := ⟨rDFE_IQC_r_b_IQ i j, 0, 16⟩
abbrev DFE_IQC_r_b_IQ_W_IM (i j : Nat) : Fld := ⟨rDFE_IQC_r_b_IQ i j, 16, 16⟩
/-- DFE_IQC_r_SWITCHES (R302). -/
abbrev rDFE_IQC_r_SWITCHES (i : Nat) : Nat := 0x140a018 + 0x20 * i
abbrev DFE_IQC_r_SWITCHES (i : Nat) : Fld := ⟨rDFE_IQC_r_SWITCHES i, 0, 32⟩
/-- DFE_ALN_c_CTL (R302). -/
abbrev rDFE_ALN_c_CTL (i : Nat) : Nat := 0x140a800 + 0x20 * i
abbrev DFE_ALN_c_CTL_ACTIVE (i : Nat) : Fld := ⟨rDFE_ALN_c_CTL i, 0, 1⟩
abbrev DFE_ALN_c_CTL_PENDING (i : Nat) : Fld := ⟨rDFE_ALN_c_CTL i, 1, 1⟩
abbrev DFE_ALN_c_CTL_BYPASS (i : Nat) : Fld := ⟨rDFE_ALN_c_CTL i, 2, 1⟩
abbrev DFE_ALN_c_CTL_TIMELINE (i : Nat) : Fld := ⟨rDFE_ALN_c_CTL i, 3, 2⟩
abbrev DFE_ALN_c_CTL_HELD (i : Nat) : Fld := ⟨rDFE_ALN_c_CTL i, 5, 1⟩
/-- DFE_ALN_c_SEL (R302). -/
abbrev rDFE_ALN_c_SEL (i : Nat) : Nat := 0x140a804 + 0x20 * i
abbrev DFE_ALN_c_SEL_ARM (i : Nat) : Fld := ⟨rDFE_ALN_c_SEL i, 0, 1⟩
/-- DFE_ALN_c_b_RXW (R302). -/
abbrev rDFE_ALN_c_b_RXW (i j : Nat) : Nat := 0x140a808 + 0x20 * i + 0x8 * j
abbrev DFE_ALN_c_b_RXW_RE (i j : Nat) : Fld := ⟨rDFE_ALN_c_b_RXW i j, 0, 16⟩
abbrev DFE_ALN_c_b_RXW_IM (i j : Nat) : Fld := ⟨rDFE_ALN_c_b_RXW i j, 16, 16⟩
/-- DFE_ALN_c_b_TXW (R302). -/
abbrev rDFE_ALN_c_b_TXW (i j : Nat) : Nat := 0x140a80c + 0x20 * i + 0x8 * j
abbrev DFE_ALN_c_b_TXW_RE (i j : Nat) : Fld := ⟨rDFE_ALN_c_b_TXW i j, 0, 16⟩
abbrev DFE_ALN_c_b_TXW_IM (i j : Nat) : Fld := ⟨rDFE_ALN_c_b_TXW i j, 16, 16⟩
/-- DFE_ALN_c_SWITCHES (R302). -/
abbrev rDFE_ALN_c_SWITCHES (i : Nat) : Nat := 0x140a818 + 0x20 * i
abbrev DFE_ALN_c_SWITCHES (i : Nat) : Fld := ⟨rDFE_ALN_c_SWITCHES i, 0, 32⟩
/-- DFE_GEO_c (R302). -/
abbrev rDFE_GEO_c (i : Nat) : Nat := 0x140b000 + 0x4 * i
abbrev DFE_GEO_c_ROW (i : Nat) : Fld := ⟨rDFE_GEO_c i, 0, 4⟩
abbrev DFE_GEO_c_COL (i : Nat) : Fld := ⟨rDFE_GEO_c i, 4, 4⟩
abbrev DFE_GEO_c_POL (i : Nat) : Fld := ⟨rDFE_GEO_c i, 8, 1⟩
abbrev DFE_GEO_c_VALID (i : Nat) : Fld := ⟨rDFE_GEO_c i, 9, 1⟩
/-- DFE_ALN_CFG (R302). -/
abbrev rDFE_ALN_CFG : Nat := 0x140b100
abbrev DFE_ALN_CFG_BACKOFF : Fld := ⟨rDFE_ALN_CFG, 0, 6⟩
/-- DFE_CAL_DPD_HELD_LO (R302). -/
abbrev rDFE_CAL_DPD_HELD_LO : Nat := 0x140b104
abbrev DFE_CAL_DPD_HELD_LO_HELD : Fld := ⟨rDFE_CAL_DPD_HELD_LO, 0, 32⟩
/-- DFE_CAL_DPD_HELD_HI (R302). -/
abbrev rDFE_CAL_DPD_HELD_HI : Nat := 0x140b108
abbrev DFE_CAL_DPD_HELD_HI_HELD : Fld := ⟨rDFE_CAL_DPD_HELD_HI, 0, 32⟩
/-- DFE_DPD_t_b_TERM_i (R239). -/
abbrev rDFE_DPD_t_b_TERM_i (i j k : Nat) : Nat := 0x1500000 + 0x800 * i + 0x400 * j + 0x8 * k
abbrev DFE_DPD_t_b_TERM_i_K (i j k : Nat) : Fld := ⟨rDFE_DPD_t_b_TERM_i i j k, 0, 4⟩
abbrev DFE_DPD_t_b_TERM_i_M (i j k : Nat) : Fld := ⟨rDFE_DPD_t_b_TERM_i i j k, 4, 3⟩
abbrev DFE_DPD_t_b_TERM_i_L (i j k : Nat) : Fld := ⟨rDFE_DPD_t_b_TERM_i i j k, 7, 4⟩
abbrev DFE_DPD_t_b_TERM_i_SHIFT (i j k : Nat) : Fld := ⟨rDFE_DPD_t_b_TERM_i i j k, 11, 3⟩
/-- DFE_DPD_t_b_COEF_i (R239). -/
abbrev rDFE_DPD_t_b_COEF_i (i j k : Nat) : Nat := 0x1500004 + 0x800 * i + 0x400 * j + 0x8 * k
abbrev DFE_DPD_t_b_COEF_i_RE (i j k : Nat) : Fld := ⟨rDFE_DPD_t_b_COEF_i i j k, 0, 16⟩
abbrev DFE_DPD_t_b_COEF_i_IM (i j k : Nat) : Fld := ⟨rDFE_DPD_t_b_COEF_i i j k, 16, 16⟩
/-- NBB_COMP_w_SAT (R282). -/
abbrev rNBB_COMP_w_SAT (i : Nat) : Nat := 0x1800100 + 0x4 * i
abbrev NBB_COMP_w_SAT (i : Nat) : Fld := ⟨rNBB_COMP_w_SAT i, 0, 32⟩
/-- NBB_CHn_CTL (R281). -/
abbrev rNBB_CHn_CTL (i : Nat) : Nat := 0x1801000 + 0x40 * i
abbrev NBB_CHn_CTL_RX_EN (i : Nat) : Fld := ⟨rNBB_CHn_CTL i, 0, 1⟩
abbrev NBB_CHn_CTL_TX_EN (i : Nat) : Fld := ⟨rNBB_CHn_CTL i, 1, 1⟩
/-- NBB_CHn_MOD (R281). -/
abbrev rNBB_CHn_MOD (i : Nat) : Nat := 0x1801004 + 0x40 * i
abbrev NBB_CHn_MOD_MOD (i : Nat) : Fld := ⟨rNBB_CHn_MOD i, 0, 2⟩
abbrev NBB_CHn_MOD_SPS8 (i : Nat) : Fld := ⟨rNBB_CHn_MOD i, 2, 1⟩
abbrev NBB_CHn_MOD_SRC (i : Nat) : Fld := ⟨rNBB_CHn_MOD i, 3, 1⟩
abbrev NBB_CHn_MOD_CC (i : Nat) : Fld := ⟨rNBB_CHn_MOD i, 4, 8⟩
abbrev NBB_CHn_MOD_CAPTURE_MODE (i : Nat) : Fld := ⟨rNBB_CHn_MOD i, 12, 1⟩
/-- NBB_CHn_RATE (R281). -/
abbrev rNBB_CHn_RATE (i : Nat) : Nat := 0x1801008 + 0x40 * i
abbrev NBB_CHn_RATE_RATE3 (i : Nat) : Fld := ⟨rNBB_CHn_RATE i, 0, 20⟩
/-- NBB_CHn_SHAPE (R281). -/
abbrev rNBB_CHn_SHAPE (i : Nat) : Nat := 0x180100c + 0x40 * i
abbrev NBB_CHn_SHAPE_BT (i : Nat) : Fld := ⟨rNBB_CHn_SHAPE i, 0, 7⟩
abbrev NBB_CHn_SHAPE_H (i : Nat) : Fld := ⟨rNBB_CHn_SHAPE i, 7, 7⟩
/-- NBB_CHn_OFFSET (R281). -/
abbrev rNBB_CHn_OFFSET (i : Nat) : Nat := 0x1801010 + 0x40 * i
abbrev NBB_CHn_OFFSET (i : Nat) : Fld := ⟨rNBB_CHn_OFFSET i, 0, 32⟩
/-- NBB_CHn_DET (R281). -/
abbrev rNBB_CHn_DET (i : Nat) : Nat := 0x1801014 + 0x40 * i
abbrev NBB_CHn_DET_MARGIN (i : Nat) : Fld := ⟨rNBB_CHn_DET i, 0, 6⟩
abbrev NBB_CHn_DET_CAP_TH (i : Nat) : Fld := ⟨rNBB_CHn_DET i, 6, 5⟩
/-- NBB_CHn_FMT (R281). -/
abbrev rNBB_CHn_FMT (i : Nat) : Nat := 0x1801018 + 0x40 * i
abbrev NBB_CHn_FMT_PRE_LEN (i : Nat) : Fld := ⟨rNBB_CHn_FMT i, 0, 6⟩
abbrev NBB_CHn_FMT_SYNC_LEN (i : Nat) : Fld := ⟨rNBB_CHn_FMT i, 6, 6⟩
abbrev NBB_CHn_FMT_SYNC_HD (i : Nat) : Fld := ⟨rNBB_CHn_FMT i, 12, 3⟩
abbrev NBB_CHn_FMT_LEN_MODE (i : Nat) : Fld := ⟨rNBB_CHn_FMT i, 15, 1⟩
/-- NBB_CHn_SYNC (R281). -/
abbrev rNBB_CHn_SYNC (i : Nat) : Nat := 0x180101c + 0x40 * i
abbrev NBB_CHn_SYNC (i : Nat) : Fld := ⟨rNBB_CHn_SYNC i, 0, 32⟩
/-- NBB_CHn_PLEN (R281). -/
abbrev rNBB_CHn_PLEN (i : Nat) : Nat := 0x1801020 + 0x40 * i
abbrev NBB_CHn_PLEN_PAYLOAD (i : Nat) : Fld := ⟨rNBB_CHn_PLEN i, 0, 9⟩
/-- NBB_CHn_QUAL (R281). -/
abbrev rNBB_CHn_QUAL (i : Nat) : Nat := 0x1801024 + 0x40 * i
abbrev NBB_CHn_QUAL_CORR_TH (i : Nat) : Fld := ⟨rNBB_CHn_QUAL i, 0, 8⟩
/-- NBB_CHn_TX (R281). -/
abbrev rNBB_CHn_TX (i : Nat) : Nat := 0x1801028 + 0x40 * i
abbrev NBB_CHn_TX_AMP (i : Nat) : Fld := ⟨rNBB_CHn_TX i, 0, 11⟩
/-- NBB_CHn_GSM (R281). -/
abbrev rNBB_CHn_GSM (i : Nat) : Nat := 0x180102c + 0x40 * i
abbrev NBB_CHn_GSM_TN_MODE (i : Nat) : Fld := ⟨rNBB_CHn_GSM i, 0, 16⟩
/-- NBB_CHn_STS (R281). -/
abbrev rNBB_CHn_STS (i : Nat) : Nat := 0x1801030 + 0x40 * i
abbrev NBB_CHn_STS_STATE (i : Nat) : Fld := ⟨rNBB_CHn_STS i, 0, 3⟩
abbrev NBB_CHn_STS_SHADOW (i : Nat) : Fld := ⟨rNBB_CHn_STS i, 3, 1⟩
abbrev NBB_CHn_STS_AGC_FROZEN (i : Nat) : Fld := ⟨rNBB_CHn_STS i, 4, 1⟩
/-- NBB_CHn_FLOOR (R281). -/
abbrev rNBB_CHn_FLOOR (i : Nat) : Nat := 0x1801034 + 0x40 * i
abbrev NBB_CHn_FLOOR_NF (i : Nat) : Fld := ⟨rNBB_CHn_FLOOR i, 0, 16⟩
/-- NBB_CHn_RSSI (R281). -/
abbrev rNBB_CHn_RSSI (i : Nat) : Nat := 0x1801038 + 0x40 * i
abbrev NBB_CHn_RSSI (i : Nat) : Fld := ⟨rNBB_CHn_RSSI i, 0, 16⟩
/-- NBB_CHn_FALSE_CAND (R282). -/
abbrev rNBB_CHn_FALSE_CAND (i : Nat) : Nat := 0x1806000 + 0x20 * i
abbrev NBB_CHn_FALSE_CAND (i : Nat) : Fld := ⟨rNBB_CHn_FALSE_CAND i, 0, 32⟩
/-- NBB_CHn_LOCKS (R282). -/
abbrev rNBB_CHn_LOCKS (i : Nat) : Nat := 0x1806004 + 0x20 * i
abbrev NBB_CHn_LOCKS (i : Nat) : Fld := ⟨rNBB_CHn_LOCKS i, 0, 32⟩
/-- NBB_CHn_CAP_SWITCH (R282). -/
abbrev rNBB_CHn_CAP_SWITCH (i : Nat) : Nat := 0x1806008 + 0x20 * i
abbrev NBB_CHn_CAP_SWITCH (i : Nat) : Fld := ⟨rNBB_CHn_CAP_SWITCH i, 0, 32⟩
/-- NBB_CHn_CAP_LOST (R282). -/
abbrev rNBB_CHn_CAP_LOST (i : Nat) : Nat := 0x180600c + 0x20 * i
abbrev NBB_CHn_CAP_LOST (i : Nat) : Fld := ⟨rNBB_CHn_CAP_LOST i, 0, 32⟩
/-- NBB_CHn_TRUNC (R282). -/
abbrev rNBB_CHn_TRUNC (i : Nat) : Nat := 0x1806010 + 0x20 * i
abbrev NBB_CHn_TRUNC (i : Nat) : Fld := ⟨rNBB_CHn_TRUNC i, 0, 32⟩
/-- NBB_CHn_NOBUF (R282). -/
abbrev rNBB_CHn_NOBUF (i : Nat) : Nat := 0x1806014 + 0x20 * i
abbrev NBB_CHn_NOBUF (i : Nat) : Fld := ⟨rNBB_CHn_NOBUF i, 0, 32⟩
/-- NBB_CHn_TX_SENT (R282). -/
abbrev rNBB_CHn_TX_SENT (i : Nat) : Nat := 0x1806018 + 0x20 * i
abbrev NBB_CHn_TX_SENT (i : Nat) : Fld := ⟨rNBB_CHn_TX_SENT i, 0, 32⟩
/-- NBB_CHn_TX_DROP (R282). -/
abbrev rNBB_CHn_TX_DROP (i : Nat) : Nat := 0x180601c + 0x20 * i
abbrev NBB_CHn_TX_DROP (i : Nat) : Fld := ⟨rNBB_CHn_TX_DROP i, 0, 32⟩
/-- ZTH_BT_STS (R373). -/
abbrev rZTH_BT_STS : Nat := 0x1c00000
abbrev ZTH_BT_STS_LOADED : Fld := ⟨rZTH_BT_STS, 0, 1⟩
abbrev ZTH_BT_STS_REFUSED : Fld := ⟨rZTH_BT_STS, 1, 1⟩
/-- ZTH_BT_ENTRIES (R373). -/
abbrev rZTH_BT_ENTRIES : Nat := 0x1c00004
abbrev ZTH_BT_ENTRIES : Fld := ⟨rZTH_BT_ENTRIES, 0, 12⟩
/-- ZTH_BT_IGNORED (R373). -/
abbrev rZTH_BT_IGNORED : Nat := 0x1c00008
abbrev ZTH_BT_IGNORED : Fld := ⟨rZTH_BT_IGNORED, 0, 12⟩
/-- ZTH_ETH_p_CFG (R373). -/
abbrev rZTH_ETH_p_CFG (i : Nat) : Nat := 0x1c00100 + 0x4 * i
abbrev ZTH_ETH_p_CFG_AN (i : Nat) : Fld := ⟨rZTH_ETH_p_CFG i, 0, 1⟩
/-- ZTH_TWIN_STS (R373). -/
abbrev rZTH_TWIN_STS : Nat := 0x1c00110
abbrev ZTH_TWIN_STS_RATE : Fld := ⟨rZTH_TWIN_STS, 0, 2⟩
abbrev ZTH_TWIN_STS_UP : Fld := ⟨rZTH_TWIN_STS, 2, 1⟩
/-- ZTH_TWIN_FALLBACKS (R373). -/
abbrev rZTH_TWIN_FALLBACKS : Nat := 0x1c00114
abbrev ZTH_TWIN_FALLBACKS : Fld := ⟨rZTH_TWIN_FALLBACKS, 0, 32⟩
/-- ZTH_PCIE_STS (R373). -/
abbrev rZTH_PCIE_STS : Nat := 0x1c00120
abbrev ZTH_PCIE_STS_GEN : Fld := ⟨rZTH_PCIE_STS, 0, 3⟩
abbrev ZTH_PCIE_STS_WIDTH : Fld := ⟨rZTH_PCIE_STS, 3, 4⟩
abbrev ZTH_PCIE_STS_FLIT : Fld := ⟨rZTH_PCIE_STS, 7, 1⟩
abbrev ZTH_PCIE_STS_REVERSED : Fld := ⟨rZTH_PCIE_STS, 8, 1⟩
abbrev ZTH_PCIE_STS_MAXGEN : Fld := ⟨rZTH_PCIE_STS, 9, 3⟩
/-- ZTH_Li_CTL (R374). -/
abbrev rZTH_Li_CTL (i : Nat) : Nat := 0x1c01000 + 0x40 * i
abbrev ZTH_Li_CTL_LOOPBACK (i : Nat) : Fld := ⟨rZTH_Li_CTL i, 0, 2⟩
abbrev ZTH_Li_CTL_GEN (i : Nat) : Fld := ⟨rZTH_Li_CTL i, 2, 2⟩
abbrev ZTH_Li_CTL_CHK (i : Nat) : Fld := ⟨rZTH_Li_CTL i, 4, 2⟩
/-- ZTH_Li_INJ (R374). -/
abbrev rZTH_Li_INJ (i : Nat) : Nat := 0x1c01004 + 0x40 * i
abbrev ZTH_Li_INJ_RATE (i : Nat) : Fld := ⟨rZTH_Li_INJ i, 0, 20⟩
/-- ZTH_Li_STS (R374). -/
abbrev rZTH_Li_STS (i : Nat) : Nat := 0x1c01008 + 0x40 * i
abbrev ZTH_Li_STS_SIGNAL (i : Nat) : Fld := ⟨rZTH_Li_STS i, 0, 1⟩
abbrev ZTH_Li_STS_CDR_LOCK (i : Nat) : Fld := ⟨rZTH_Li_STS i, 1, 1⟩
abbrev ZTH_Li_STS_BLOCK_LOCK (i : Nat) : Fld := ⟨rZTH_Li_STS i, 2, 1⟩
abbrev ZTH_Li_STS_CHK_LOCK (i : Nat) : Fld := ⟨rZTH_Li_STS i, 3, 1⟩
abbrev ZTH_Li_STS_IN_SERVICE (i : Nat) : Fld := ⟨rZTH_Li_STS i, 4, 1⟩
abbrev ZTH_Li_STS_NO_ENTRY (i : Nat) : Fld := ⟨rZTH_Li_STS i, 5, 1⟩
abbrev ZTH_Li_STS_SCANNING (i : Nat) : Fld := ⟨rZTH_Li_STS i, 6, 1⟩
abbrev ZTH_Li_STS_RATE (i : Nat) : Fld := ⟨rZTH_Li_STS i, 7, 5⟩
/-- ZTH_Li_EQ_TX (R374). -/
abbrev rZTH_Li_EQ_TX (i : Nat) : Nat := 0x1c0100c + 0x40 * i
abbrev ZTH_Li_EQ_TX (i : Nat) : Fld := ⟨rZTH_Li_EQ_TX i, 0, 32⟩
/-- ZTH_Li_EQ_RX (R374). -/
abbrev rZTH_Li_EQ_RX (i : Nat) : Nat := 0x1c01010 + 0x40 * i
abbrev ZTH_Li_EQ_RX (i : Nat) : Fld := ⟨rZTH_Li_EQ_RX i, 0, 32⟩
/-- ZTH_Li_CHK_ERR (R374). -/
abbrev rZTH_Li_CHK_ERR (i : Nat) : Nat := 0x1c01014 + 0x40 * i
abbrev ZTH_Li_CHK_ERR (i : Nat) : Fld := ⟨rZTH_Li_CHK_ERR i, 0, 32⟩
/-- ZTH_Li_CHK_MBITS (R374). -/
abbrev rZTH_Li_CHK_MBITS (i : Nat) : Nat := 0x1c01018 + 0x40 * i
abbrev ZTH_Li_CHK_MBITS (i : Nat) : Fld := ⟨rZTH_Li_CHK_MBITS i, 0, 32⟩
/-- ZTH_Li_INJECTED (R374). -/
abbrev rZTH_Li_INJECTED (i : Nat) : Nat := 0x1c0101c + 0x40 * i
abbrev ZTH_Li_INJECTED (i : Nat) : Fld := ⟨rZTH_Li_INJECTED i, 0, 32⟩
/-- ZTH_Li_LOCK_LOSS (R374). -/
abbrev rZTH_Li_LOCK_LOSS (i : Nat) : Nat := 0x1c01020 + 0x40 * i
abbrev ZTH_Li_LOCK_LOSS (i : Nat) : Fld := ⟨rZTH_Li_LOCK_LOSS i, 0, 32⟩
/-- ZTH_Li_EYE (R374). -/
abbrev rZTH_Li_EYE (i : Nat) : Nat := 0x1c01024 + 0x40 * i
abbrev ZTH_Li_EYE_WIDTH (i : Nat) : Fld := ⟨rZTH_Li_EYE i, 0, 16⟩
abbrev ZTH_Li_EYE_HEIGHT (i : Nat) : Fld := ⟨rZTH_Li_EYE i, 16, 16⟩
/-- ZTH_Li_SPC_CTL (R374). -/
abbrev rZTH_Li_SPC_CTL (i : Nat) : Nat := 0x1c01028 + 0x40 * i
abbrev ZTH_Li_SPC_CTL_ACTIVE (i : Nat) : Fld := ⟨rZTH_Li_SPC_CTL i, 0, 1⟩
abbrev ZTH_Li_SPC_CTL_PENDING (i : Nat) : Fld := ⟨rZTH_Li_SPC_CTL i, 1, 1⟩
abbrev ZTH_Li_SPC_CTL_TIMELINE (i : Nat) : Fld := ⟨rZTH_Li_SPC_CTL i, 2, 2⟩
abbrev ZTH_Li_SPC_CTL_HELD (i : Nat) : Fld := ⟨rZTH_Li_SPC_CTL i, 4, 1⟩
/-- ZTH_Li_SPC_SEL (R374). -/
abbrev rZTH_Li_SPC_SEL (i : Nat) : Nat := 0x1c0102c + 0x40 * i
abbrev ZTH_Li_SPC_SEL_ARM (i : Nat) : Fld := ⟨rZTH_Li_SPC_SEL i, 0, 1⟩
/-- ZTH_Li_SPC_b (R374). -/
abbrev rZTH_Li_SPC_b (i j : Nat) : Nat := 0x1c01030 + 0x40 * i + 0x4 * j
abbrev ZTH_Li_SPC_b_PHASE (i j : Nat) : Fld := ⟨rZTH_Li_SPC_b i j, 0, 7⟩
abbrev ZTH_Li_SPC_b_THRESH (i j : Nat) : Fld := ⟨rZTH_Li_SPC_b i j, 8, 8⟩
/-- ZTH_Li_SWITCHES (R374). -/
abbrev rZTH_Li_SWITCHES (i : Nat) : Nat := 0x1c01038 + 0x40 * i
abbrev ZTH_Li_SWITCHES (i : Nat) : Fld := ⟨rZTH_Li_SWITCHES i, 0, 32⟩
/-- ETH_Pp_CTL (R402). -/
abbrev rETH_Pp_CTL (i : Nat) : Nat := 0x2000000 + 0x40 * i
abbrev ETH_Pp_CTL_ENABLE (i : Nat) : Fld := ⟨rETH_Pp_CTL i, 0, 1⟩
/-- ETH_Pp_CFG (R402). -/
abbrev rETH_Pp_CFG (i : Nat) : Nat := 0x2000004 + 0x40 * i
abbrev ETH_Pp_CFG_SPLIT (i : Nat) : Fld := ⟨rETH_Pp_CFG i, 0, 2⟩
/-- ETH_Pp_FRAME_MAX (R402). -/
abbrev rETH_Pp_FRAME_MAX (i : Nat) : Nat := 0x2000008 + 0x40 * i
abbrev ETH_Pp_FRAME_MAX (i : Nat) : Fld := ⟨rETH_Pp_FRAME_MAX i, 0, 14⟩
/-- ETH_Pp_STS (R402). -/
abbrev rETH_Pp_STS (i : Nat) : Nat := 0x200000c + 0x40 * i
abbrev ETH_Pp_STS_LINK_UP (i : Nat) : Fld := ⟨rETH_Pp_STS i, 0, 4⟩
/-- ETH_Lk_MAC_HI (R402). -/
abbrev rETH_Lk_MAC_HI (i : Nat) : Nat := 0x2000400 + 0x40 * i
abbrev ETH_Lk_MAC_HI (i : Nat) : Fld := ⟨rETH_Lk_MAC_HI i, 0, 16⟩
/-- ETH_Lk_MAC_LO (R402). -/
abbrev rETH_Lk_MAC_LO (i : Nat) : Nat := 0x2000404 + 0x40 * i
abbrev ETH_Lk_MAC_LO (i : Nat) : Fld := ⟨rETH_Lk_MAC_LO i, 0, 32⟩
/-- ETH_Lk_TXLAT (R402). -/
abbrev rETH_Lk_TXLAT (i : Nat) : Nat := 0x2000408 + 0x40 * i
abbrev ETH_Lk_TXLAT (i : Nat) : Fld := ⟨rETH_Lk_TXLAT i, 0, 32⟩
/-- ETH_Lk_RXLAT (R402). -/
abbrev rETH_Lk_RXLAT (i : Nat) : Nat := 0x200040c + 0x40 * i
abbrev ETH_Lk_RXLAT (i : Nat) : Fld := ⟨rETH_Lk_RXLAT i, 0, 32⟩
/-- ETH_Lk_RX_SKEW (R402). -/
abbrev rETH_Lk_RX_SKEW (i : Nat) : Nat := 0x2000410 + 0x40 * i
abbrev ETH_Lk_RX_SKEW (i : Nat) : Fld := ⟨rETH_Lk_RX_SKEW i, 0, 16⟩
/-- ETH_Lk_MSEC (R402). -/
abbrev rETH_Lk_MSEC (i : Nat) : Nat := 0x2000414 + 0x40 * i
abbrev ETH_Lk_MSEC_ENABLE (i : Nat) : Fld := ⟨rETH_Lk_MSEC i, 0, 1⟩
abbrev ETH_Lk_MSEC_CONF (i : Nat) : Fld := ⟨rETH_Lk_MSEC i, 1, 1⟩
abbrev ETH_Lk_MSEC_VALIDATE (i : Nat) : Fld := ⟨rETH_Lk_MSEC i, 2, 2⟩
abbrev ETH_Lk_MSEC_PTP_CLEAR (i : Nat) : Fld := ⟨rETH_Lk_MSEC i, 4, 1⟩
abbrev ETH_Lk_MSEC_SAK_READY (i : Nat) : Fld := ⟨rETH_Lk_MSEC i, 5, 1⟩
/-- ETH_Lk_TX_FRAMES (R402). -/
abbrev rETH_Lk_TX_FRAMES (i : Nat) : Nat := 0x2000418 + 0x40 * i
abbrev ETH_Lk_TX_FRAMES (i : Nat) : Fld := ⟨rETH_Lk_TX_FRAMES i, 0, 32⟩
/-- ETH_Lk_RX_FRAMES (R402). -/
abbrev rETH_Lk_RX_FRAMES (i : Nat) : Nat := 0x200041c + 0x40 * i
abbrev ETH_Lk_RX_FRAMES (i : Nat) : Fld := ⟨rETH_Lk_RX_FRAMES i, 0, 32⟩
/-- ETH_Lk_RX_FCS (R402). -/
abbrev rETH_Lk_RX_FCS (i : Nat) : Nat := 0x2000420 + 0x40 * i
abbrev ETH_Lk_RX_FCS (i : Nat) : Fld := ⟨rETH_Lk_RX_FCS i, 0, 32⟩
/-- ETH_Lk_RX_MALFORMED (R402). -/
abbrev rETH_Lk_RX_MALFORMED (i : Nat) : Nat := 0x2000424 + 0x40 * i
abbrev ETH_Lk_RX_MALFORMED (i : Nat) : Fld := ⟨rETH_Lk_RX_MALFORMED i, 0, 32⟩
/-- ETH_Lk_RX_LATE (R402). -/
abbrev rETH_Lk_RX_LATE (i : Nat) : Nat := 0x2000428 + 0x40 * i
abbrev ETH_Lk_RX_LATE (i : Nat) : Fld := ⟨rETH_Lk_RX_LATE i, 0, 32⟩
/-- ETH_Lk_RX_EARLY (R402). -/
abbrev rETH_Lk_RX_EARLY (i : Nat) : Nat := 0x200042c + 0x40 * i
abbrev ETH_Lk_RX_EARLY (i : Nat) : Fld := ⟨rETH_Lk_RX_EARLY i, 0, 32⟩
/-- ETH_Lk_RX_OTHER (R402). -/
abbrev rETH_Lk_RX_OTHER (i : Nat) : Nat := 0x2000430 + 0x40 * i
abbrev ETH_Lk_RX_OTHER (i : Nat) : Fld := ⟨rETH_Lk_RX_OTHER i, 0, 32⟩
/-- ETH_Lk_MSEC_BAD (R402). -/
abbrev rETH_Lk_MSEC_BAD (i : Nat) : Nat := 0x2000434 + 0x40 * i
abbrev ETH_Lk_MSEC_BAD (i : Nat) : Fld := ⟨rETH_Lk_MSEC_BAD i, 0, 32⟩
/-- ETH_Lk_TX_LATE (R402). -/
abbrev rETH_Lk_TX_LATE (i : Nat) : Nat := 0x2000438 + 0x40 * i
abbrev ETH_Lk_TX_LATE (i : Nat) : Fld := ⟨rETH_Lk_TX_LATE i, 0, 32⟩
/-- ETH_Lk_PN_STOP (R402). -/
abbrev rETH_Lk_PN_STOP (i : Nat) : Nat := 0x200043c + 0x40 * i
abbrev ETH_Lk_PN_STOP (i : Nat) : Fld := ⟨rETH_Lk_PN_STOP i, 0, 32⟩
/-- ETH_Lk_RX_SEQ_GAP (R402). -/
abbrev rETH_Lk_RX_SEQ_GAP (i : Nat) : Nat := 0x2000800 + 0x8 * i
abbrev ETH_Lk_RX_SEQ_GAP (i : Nat) : Fld := ⟨rETH_Lk_RX_SEQ_GAP i, 0, 32⟩
/-- ETH_Lk_RX_DUP (R402). -/
abbrev rETH_Lk_RX_DUP (i : Nat) : Nat := 0x2000804 + 0x8 * i
abbrev ETH_Lk_RX_DUP (i : Nat) : Fld := ⟨rETH_Lk_RX_DUP i, 0, 32⟩
/-- ETH_TSQ_p_CTL (R402). -/
abbrev rETH_TSQ_p_CTL (i : Nat) : Nat := 0x2000900 + 0x40 * i
abbrev ETH_TSQ_p_CTL_POP (i : Nat) : Fld := ⟨rETH_TSQ_p_CTL i, 0, 1⟩
/-- ETH_TSQ_p_STS (R402). -/
abbrev rETH_TSQ_p_STS (i : Nat) : Nat := 0x2000904 + 0x40 * i
abbrev ETH_TSQ_p_STS_OCC (i : Nat) : Fld := ⟨rETH_TSQ_p_STS i, 0, 6⟩
abbrev ETH_TSQ_p_STS_TSQ_OVF (i : Nat) : Fld := ⟨rETH_TSQ_p_STS i, 6, 1⟩
/-- ETH_TSQ_p_HEAD (R402). -/
abbrev rETH_TSQ_p_HEAD (i : Nat) : Nat := 0x2000908 + 0x40 * i
abbrev ETH_TSQ_p_HEAD_ID (i : Nat) : Fld := ⟨rETH_TSQ_p_HEAD i, 0, 16⟩
/-- ETH_TSQ_p_HEAD_INFO (R402). -/
abbrev rETH_TSQ_p_HEAD_INFO (i : Nat) : Nat := 0x200090c + 0x40 * i
abbrev ETH_TSQ_p_HEAD_INFO_VALID (i : Nat) : Fld := ⟨rETH_TSQ_p_HEAD_INFO i, 0, 1⟩
abbrev ETH_TSQ_p_HEAD_INFO_MSGTYPE (i : Nat) : Fld := ⟨rETH_TSQ_p_HEAD_INFO i, 1, 4⟩
abbrev ETH_TSQ_p_HEAD_INFO_LINK (i : Nat) : Fld := ⟨rETH_TSQ_p_HEAD_INFO i, 5, 2⟩
/-- ETH_TSQ_p_HEAD_TS_i (R402). -/
abbrev rETH_TSQ_p_HEAD_TS_i (i j : Nat) : Nat := 0x2000910 + 0x40 * i + 0x4 * j
abbrev ETH_TSQ_p_HEAD_TS_i_TS (i j : Nat) : Fld := ⟨rETH_TSQ_p_HEAD_TS_i i j, 0, 32⟩
/-- ETH_TSQ_p_PUSHED (R402). -/
abbrev rETH_TSQ_p_PUSHED (i : Nat) : Nat := 0x2000920 + 0x40 * i
abbrev ETH_TSQ_p_PUSHED (i : Nat) : Fld := ⟨rETH_TSQ_p_PUSHED i, 0, 32⟩
/-- ETH_TSQ_p_POPPED (R402). -/
abbrev rETH_TSQ_p_POPPED (i : Nat) : Nat := 0x2000924 + 0x40 * i
abbrev ETH_TSQ_p_POPPED (i : Nat) : Fld := ⟨rETH_TSQ_p_POPPED i, 0, 32⟩
/-- ETH_TSQ_p_DROPPED (R402). -/
abbrev rETH_TSQ_p_DROPPED (i : Nat) : Nat := 0x2000928 + 0x40 * i
abbrev ETH_TSQ_p_DROPPED (i : Nat) : Fld := ⟨rETH_TSQ_p_DROPPED i, 0, 32⟩
/-- ETH_MQ_p_TXq_BASE (R402). -/
abbrev rETH_MQ_p_TXq_BASE (i j : Nat) : Nat := 0x2000c00 + 0x80 * i + 0x10 * j
abbrev ETH_MQ_p_TXq_BASE_BASE_LO (i j : Nat) : Fld := ⟨rETH_MQ_p_TXq_BASE i j, 6, 26⟩
/-- ETH_MQ_p_TXq_CTL (R402). -/
abbrev rETH_MQ_p_TXq_CTL (i j : Nat) : Nat := 0x2000c04 + 0x80 * i + 0x10 * j
abbrev ETH_MQ_p_TXq_CTL_ENABLE (i j : Nat) : Fld := ⟨rETH_MQ_p_TXq_CTL i j, 0, 1⟩
abbrev ETH_MQ_p_TXq_CTL_LOG2 (i j : Nat) : Fld := ⟨rETH_MQ_p_TXq_CTL i j, 1, 4⟩
abbrev ETH_MQ_p_TXq_CTL_BASE_HI (i j : Nat) : Fld := ⟨rETH_MQ_p_TXq_CTL i j, 5, 8⟩
/-- ETH_MQ_p_TXq_TAIL (R402). -/
abbrev rETH_MQ_p_TXq_TAIL (i j : Nat) : Nat := 0x2000c08 + 0x80 * i + 0x10 * j
abbrev ETH_MQ_p_TXq_TAIL (i j : Nat) : Fld := ⟨rETH_MQ_p_TXq_TAIL i j, 0, 12⟩
/-- ETH_MQ_p_TXq_HEAD (R402). -/
abbrev rETH_MQ_p_TXq_HEAD (i j : Nat) : Nat := 0x2000c0c + 0x80 * i + 0x10 * j
abbrev ETH_MQ_p_TXq_HEAD (i j : Nat) : Fld := ⟨rETH_MQ_p_TXq_HEAD i j, 0, 12⟩
/-- ETH_MQ_p_RX_TAIL (R402). -/
abbrev rETH_MQ_p_RX_TAIL (i : Nat) : Nat := 0x2000c48 + 0x80 * i
abbrev ETH_MQ_p_RX_TAIL (i : Nat) : Fld := ⟨rETH_MQ_p_RX_TAIL i, 0, 12⟩
/-- ETH_MQ_p_RX_HEAD (R402). -/
abbrev rETH_MQ_p_RX_HEAD (i : Nat) : Nat := 0x2000c4c + 0x80 * i
abbrev ETH_MQ_p_RX_HEAD (i : Nat) : Fld := ⟨rETH_MQ_p_RX_HEAD i, 0, 12⟩
/-- ETH_MQ_p_RX_DROP (R402). -/
abbrev rETH_MQ_p_RX_DROP (i : Nat) : Nat := 0x2000c50 + 0x80 * i
abbrev ETH_MQ_p_RX_DROP (i : Nat) : Fld := ⟨rETH_MQ_p_RX_DROP i, 0, 32⟩
/-- ETH_MQ_p_RX_EVT (R402). -/
abbrev rETH_MQ_p_RX_EVT (i : Nat) : Nat := 0x2000c54 + 0x80 * i
abbrev ETH_MQ_p_RX_EVT_EVT (i : Nat) : Fld := ⟨rETH_MQ_p_RX_EVT i, 0, 12⟩
abbrev ETH_MQ_p_RX_EVT_TL (i : Nat) : Fld := ⟨rETH_MQ_p_RX_EVT i, 12, 2⟩
/-- ETH_CCc_CTL (R403). -/
abbrev rETH_CCc_CTL (i : Nat) : Nat := 0x2001000 + 0x40 * i
abbrev ETH_CCc_CTL_ENABLE (i : Nat) : Fld := ⟨rETH_CCc_CTL i, 0, 1⟩
/-- ETH_CCc_CFG (R403). -/
abbrev rETH_CCc_CFG (i : Nat) : Nat := 0x2001004 + 0x40 * i
abbrev ETH_CCc_CFG_STD (i : Nat) : Fld := ⟨rETH_CCc_CFG i, 0, 2⟩
abbrev ETH_CCc_CFG_SCS (i : Nat) : Fld := ⟨rETH_CCc_CFG i, 2, 2⟩
abbrev ETH_CCc_CFG_ECP (i : Nat) : Fld := ⟨rETH_CCc_CFG i, 4, 1⟩
abbrev ETH_CCc_CFG_TDD (i : Nat) : Fld := ⟨rETH_CCc_CFG i, 5, 1⟩
abbrev ETH_CCc_CFG_PAT (i : Nat) : Fld := ⟨rETH_CCc_CFG i, 6, 4⟩
abbrev ETH_CCc_CFG_TIMELINE (i : Nat) : Fld := ⟨rETH_CCc_CFG i, 10, 2⟩
/-- ETH_CCc_PORTS (R403). -/
abbrev rETH_CCc_PORTS (i : Nat) : Nat := 0x2001008 + 0x40 * i
abbrev ETH_CCc_PORTS_FIRST (i : Nat) : Fld := ⟨rETH_CCc_PORTS i, 0, 9⟩
abbrev ETH_CCc_PORTS_COUNT (i : Nat) : Fld := ⟨rETH_CCc_PORTS i, 9, 7⟩
/-- ETH_CCc_NRB (R403). -/
abbrev rETH_CCc_NRB (i : Nat) : Nat := 0x200100c + 0x40 * i
abbrev ETH_CCc_NRB (i : Nat) : Fld := ⟨rETH_CCc_NRB i, 0, 9⟩
/-- ETH_CCc_RXEVT (R403). -/
abbrev rETH_CCc_RXEVT (i : Nat) : Nat := 0x2001010 + 0x40 * i
abbrev ETH_CCc_RXEVT (i : Nat) : Fld := ⟨rETH_CCc_RXEVT i, 0, 12⟩
/-- ETH_CCc_ZERO_SYM (R403). -/
abbrev rETH_CCc_ZERO_SYM (i : Nat) : Nat := 0x2001014 + 0x40 * i
abbrev ETH_CCc_ZERO_SYM (i : Nat) : Fld := ⟨rETH_CCc_ZERO_SYM i, 0, 32⟩
/-- ETH_CCc_UL_MISSING (R403). -/
abbrev rETH_CCc_UL_MISSING (i : Nat) : Nat := 0x2001018 + 0x40 * i
abbrev ETH_CCc_UL_MISSING (i : Nat) : Fld := ⟨rETH_CCc_UL_MISSING i, 0, 32⟩
/-- ETH_CCc_DLSAT (R403). -/
abbrev rETH_CCc_DLSAT (i : Nat) : Nat := 0x200101c + 0x40 * i
abbrev ETH_CCc_DLSAT (i : Nat) : Fld := ⟨rETH_CCc_DLSAT i, 0, 32⟩
/-- ETH_RAD_r_MAC_HI (R403). -/
abbrev rETH_RAD_r_MAC_HI (i : Nat) : Nat := 0x2005800 + 0x20 * i
abbrev ETH_RAD_r_MAC_HI (i : Nat) : Fld := ⟨rETH_RAD_r_MAC_HI i, 0, 16⟩
/-- ETH_RAD_r_MAC_LO (R403). -/
abbrev rETH_RAD_r_MAC_LO (i : Nat) : Nat := 0x2005804 + 0x20 * i
abbrev ETH_RAD_r_MAC_LO (i : Nat) : Fld := ⟨rETH_RAD_r_MAC_LO i, 0, 32⟩
/-- ETH_RAD_r_VLAN (R403). -/
abbrev rETH_RAD_r_VLAN (i : Nat) : Nat := 0x2005808 + 0x20 * i
abbrev ETH_RAD_r_VLAN_VID (i : Nat) : Fld := ⟨rETH_RAD_r_VLAN i, 0, 12⟩
abbrev ETH_RAD_r_VLAN_PCP (i : Nat) : Fld := ⟨rETH_RAD_r_VLAN i, 12, 3⟩
abbrev ETH_RAD_r_VLAN_TAGGED (i : Nat) : Fld := ⟨rETH_RAD_r_VLAN i, 15, 1⟩
/-- ETH_RAD_r_DLADV (R403). -/
abbrev rETH_RAD_r_DLADV (i : Nat) : Nat := 0x200580c + 0x20 * i
abbrev ETH_RAD_r_DLADV (i : Nat) : Fld := ⟨rETH_RAD_r_DLADV i, 0, 20⟩
/-- ETH_RAD_r_ULLATE (R403). -/
abbrev rETH_RAD_r_ULLATE (i : Nat) : Nat := 0x2005810 + 0x20 * i
abbrev ETH_RAD_r_ULLATE (i : Nat) : Fld := ⟨rETH_RAD_r_ULLATE i, 0, 20⟩
/-- ETH_ST_s_CFG (R403). -/
abbrev rETH_ST_s_CFG (i : Nat) : Nat := 0x2006000 + 0x10 * i
abbrev ETH_ST_s_CFG_LINK (i : Nat) : Fld := ⟨rETH_ST_s_CFG i, 0, 4⟩
abbrev ETH_ST_s_CFG_RADIO (i : Nat) : Fld := ⟨rETH_ST_s_CFG i, 4, 6⟩
abbrev ETH_ST_s_CFG_DL_EN (i : Nat) : Fld := ⟨rETH_ST_s_CFG i, 10, 1⟩
abbrev ETH_ST_s_CFG_UL_EN (i : Nat) : Fld := ⟨rETH_ST_s_CFG i, 11, 1⟩
/-- ETH_ST_s_EAXC (R403). -/
abbrev rETH_ST_s_EAXC (i : Nat) : Nat := 0x2006004 + 0x10 * i
abbrev ETH_ST_s_EAXC (i : Nat) : Fld := ⟨rETH_ST_s_EAXC i, 0, 16⟩
/-- ETH_ST_s_COMP (R403). -/
abbrev rETH_ST_s_COMP (i : Nat) : Nat := 0x2006008 + 0x10 * i
abbrev ETH_ST_s_COMP_DL_M (i : Nat) : Fld := ⟨rETH_ST_s_COMP i, 0, 4⟩
abbrev ETH_ST_s_COMP_UL_M (i : Nat) : Fld := ⟨rETH_ST_s_COMP i, 4, 4⟩
abbrev ETH_ST_s_COMP_DL_SHIFT (i : Nat) : Fld := ⟨rETH_ST_s_COMP i, 8, 3⟩
/-- TMU_SNAP_CTL (R404). -/
abbrev rTMU_SNAP_CTL : Nat := 0x2400000
abbrev TMU_SNAP_CTL_SNAP : Fld := ⟨rTMU_SNAP_CTL, 0, 1⟩
/-- TMU_SNAP_i (R404). -/
abbrev rTMU_SNAP_i (i : Nat) : Nat := 0x2400004 + 0x4 * i
abbrev TMU_SNAP_i_TIME (i : Nat) : Fld := ⟨rTMU_SNAP_i i, 0, 32⟩
/-- TMU_INC_CTL (R404). -/
abbrev rTMU_INC_CTL : Nat := 0x2400014
abbrev TMU_INC_CTL_ACTIVE : Fld := ⟨rTMU_INC_CTL, 0, 1⟩
abbrev TMU_INC_CTL_PENDING : Fld := ⟨rTMU_INC_CTL, 1, 1⟩
abbrev TMU_INC_CTL_ARM : Fld := ⟨rTMU_INC_CTL, 2, 1⟩
abbrev TMU_INC_CTL_SRC_RC : Fld := ⟨rTMU_INC_CTL, 3, 1⟩
/-- TMU_INC_b_NS (R404). -/
abbrev rTMU_INC_b_NS (i : Nat) : Nat := 0x2400018 + 0x8 * i
abbrev TMU_INC_b_NS (i : Nat) : Fld := ⟨rTMU_INC_b_NS i, 0, 8⟩
/-- TMU_INC_b_FRAC (R404). -/
abbrev rTMU_INC_b_FRAC (i : Nat) : Nat := 0x240001c + 0x8 * i
abbrev TMU_INC_b_FRAC (i : Nat) : Fld := ⟨rTMU_INC_b_FRAC i, 0, 32⟩
/-- TMU_STEP_LO (R404). -/
abbrev rTMU_STEP_LO : Nat := 0x2400028
abbrev TMU_STEP_LO_STEP : Fld := ⟨rTMU_STEP_LO, 0, 32⟩
/-- TMU_STEP_HI (R404). -/
abbrev rTMU_STEP_HI : Nat := 0x240002c
abbrev TMU_STEP_HI_STEP : Fld := ⟨rTMU_STEP_HI, 0, 32⟩
/-- TMU_STEP_CMD (R404). -/
abbrev rTMU_STEP_CMD : Nat := 0x2400030
abbrev TMU_STEP_CMD_APPLY : Fld := ⟨rTMU_STEP_CMD, 0, 1⟩
/-- TMU_QUALITY (R404). -/
abbrev rTMU_QUALITY : Nat := 0x2400034
abbrev TMU_QUALITY_STATE : Fld := ⟨rTMU_QUALITY, 0, 3⟩
/-- TMU_RCSW_i (R404). -/
abbrev rTMU_RCSW_i (i : Nat) : Nat := 0x2400038 + 0x4 * i
abbrev TMU_RCSW_i_TIME (i : Nat) : Fld := ⟨rTMU_RCSW_i i, 0, 32⟩
/-- TMU_UTC_OFS (R404). -/
abbrev rTMU_UTC_OFS : Nat := 0x2400048
abbrev TMU_UTC_OFS : Fld := ⟨rTMU_UTC_OFS, 0, 16⟩
/-- TMU_AIR_EPOCH_LO (R404). -/
abbrev rTMU_AIR_EPOCH_LO : Nat := 0x240004c
abbrev TMU_AIR_EPOCH_LO_AIR_EPOCH : Fld := ⟨rTMU_AIR_EPOCH_LO, 0, 32⟩
/-- TMU_AIR_EPOCH_HI (R404). -/
abbrev rTMU_AIR_EPOCH_HI : Nat := 0x2400050
abbrev TMU_AIR_EPOCH_HI_AIR_EPOCH : Fld := ⟨rTMU_AIR_EPOCH_HI, 0, 32⟩
/-- TMU_PPS_OUT (R404). -/
abbrev rTMU_PPS_OUT : Nat := 0x2400054
abbrev TMU_PPS_OUT_EN : Fld := ⟨rTMU_PPS_OUT, 0, 1⟩
abbrev TMU_PPS_OUT_WIDTH : Fld := ⟨rTMU_PPS_OUT, 1, 9⟩
/-- TMU_PPS_OFS (R404). -/
abbrev rTMU_PPS_OFS : Nat := 0x2400058
abbrev TMU_PPS_OFS : Fld := ⟨rTMU_PPS_OFS, 0, 32⟩
/-- TMU_PPS_IN_DLY (R404). -/
abbrev rTMU_PPS_IN_DLY : Nat := 0x240005c
abbrev TMU_PPS_IN_DLY : Fld := ⟨rTMU_PPS_IN_DLY, 0, 32⟩
/-- TMU_PPS_IN_i (R404). -/
abbrev rTMU_PPS_IN_i (i : Nat) : Nat := 0x2400060 + 0x4 * i
abbrev TMU_PPS_IN_i_TIME (i : Nat) : Fld := ⟨rTMU_PPS_IN_i i, 0, 32⟩
/-- TMU_PPS_IN_CNT (R404). -/
abbrev rTMU_PPS_IN_CNT : Nat := 0x2400070
abbrev TMU_PPS_IN_CNT : Fld := ⟨rTMU_PPS_IN_CNT, 0, 32⟩
/-- TMU_TOD_CFG (R404). -/
abbrev rTMU_TOD_CFG : Nat := 0x2400074
abbrev TMU_TOD_CFG_FORMAT : Fld := ⟨rTMU_TOD_CFG, 0, 1⟩
abbrev TMU_TOD_CFG_TX_EN : Fld := ⟨rTMU_TOD_CFG, 1, 1⟩
/-- TMU_SYNCE (R404). -/
abbrev rTMU_SYNCE : Nat := 0x2400078
abbrev TMU_SYNCE_PORT : Fld := ⟨rTMU_SYNCE, 0, 2⟩
abbrev TMU_SYNCE_EN : Fld := ⟨rTMU_SYNCE, 2, 1⟩
/-- TMU_HOLD_LIMIT (R404). -/
abbrev rTMU_HOLD_LIMIT : Nat := 0x240007c
abbrev TMU_HOLD_LIMIT : Fld := ⟨rTMU_HOLD_LIMIT, 0, 32⟩
/-- TMU_TLn_CTL (R47). -/
abbrev rTMU_TLn_CTL (i : Nat) : Nat := 0x2400200 + 0x20 * i
abbrev TMU_TLn_CTL_ENABLE (i : Nat) : Fld := ⟨rTMU_TLn_CTL i, 0, 1⟩
/-- TMU_TLn_CFG (R47). -/
abbrev rTMU_TLn_CFG (i : Nat) : Nat := 0x2400204 + 0x20 * i
abbrev TMU_TLn_CFG_KIND (i : Nat) : Fld := ⟨rTMU_TLn_CFG i, 0, 2⟩
/-- TMU_TLn_PERIOD (R47). -/
abbrev rTMU_TLn_PERIOD (i : Nat) : Nat := 0x2400208 + 0x20 * i
abbrev TMU_TLn_PERIOD (i : Nat) : Fld := ⟨rTMU_TLn_PERIOD i, 0, 32⟩
/-- TMU_TLn_DEN (R47). -/
abbrev rTMU_TLn_DEN (i : Nat) : Nat := 0x240020c + 0x20 * i
abbrev TMU_TLn_DEN (i : Nat) : Fld := ⟨rTMU_TLn_DEN i, 0, 8⟩
/-- TMU_TLn_OFFSET (R47). -/
abbrev rTMU_TLn_OFFSET (i : Nat) : Nat := 0x2400210 + 0x20 * i
abbrev TMU_TLn_OFFSET (i : Nat) : Fld := ⟨rTMU_TLn_OFFSET i, 0, 30⟩
/-- TMU_TLn_STS (R47). -/
abbrev rTMU_TLn_STS (i : Nat) : Nat := 0x2400214 + 0x20 * i
abbrev TMU_TLn_STS_RUNNING (i : Nat) : Fld := ⟨rTMU_TLn_STS i, 0, 1⟩
abbrev TMU_TLn_STS_FENCE_OPEN (i : Nat) : Fld := ⟨rTMU_TLn_STS i, 1, 1⟩
/-- TMU_TLn_PNUM (R47). -/
abbrev rTMU_TLn_PNUM (i : Nat) : Nat := 0x2400218 + 0x20 * i
abbrev TMU_TLn_PNUM (i : Nat) : Fld := ⟨rTMU_TLn_PNUM i, 0, 16⟩
/-- TMU_TLn_MISSED (R47). -/
abbrev rTMU_TLn_MISSED (i : Nat) : Nat := 0x240021c + 0x20 * i
abbrev TMU_TLn_MISSED (i : Nat) : Fld := ⟨rTMU_TLn_MISSED i, 0, 32⟩
/-- MEM_CTL (R347). -/
abbrev rMEM_CTL : Nat := 0x2800000
abbrev MEM_CTL_ENABLE : Fld := ⟨rMEM_CTL, 0, 1⟩
abbrev MEM_CTL_MODE : Fld := ⟨rMEM_CTL, 1, 1⟩
abbrev MEM_CTL_POPULATED : Fld := ⟨rMEM_CTL, 2, 4⟩
/-- MEM_SCRUB (R347). -/
abbrev rMEM_SCRUB : Nat := 0x2800004
abbrev MEM_SCRUB_HOURS : Fld := ⟨rMEM_SCRUB, 0, 8⟩
/-- MEM_REC_BASE (R347). -/
abbrev rMEM_REC_BASE : Nat := 0x2800008
abbrev MEM_REC_BASE : Fld := ⟨rMEM_REC_BASE, 0, 20⟩
/-- MEM_REC_SIZE (R347). -/
abbrev rMEM_REC_SIZE : Nat := 0x280000c
abbrev MEM_REC_SIZE : Fld := ⟨rMEM_REC_SIZE, 0, 15⟩
/-- MEM_FW_CTL (R347). -/
abbrev rMEM_FW_CTL : Nat := 0x2800010
abbrev MEM_FW_CTL_ENABLE : Fld := ⟨rMEM_FW_CTL, 0, 1⟩
abbrev MEM_FW_CTL_DEFAULT : Fld := ⟨rMEM_FW_CTL, 1, 1⟩
/-- MEM_FW_REFUSED (R347). -/
abbrev rMEM_FW_REFUSED : Nat := 0x2800014
abbrev MEM_FW_REFUSED : Fld := ⟨rMEM_FW_REFUSED, 0, 32⟩
/-- MEM_FW_ADDR (R347). -/
abbrev rMEM_FW_ADDR : Nat := 0x2800018
abbrev MEM_FW_ADDR : Fld := ⟨rMEM_FW_ADDR, 0, 32⟩
/-- MEM_FW_INFO (R347). -/
abbrev rMEM_FW_INFO : Nat := 0x280001c
abbrev MEM_FW_INFO_ADDR_HI : Fld := ⟨rMEM_FW_INFO, 0, 8⟩
abbrev MEM_FW_INFO_SRC : Fld := ⟨rMEM_FW_INFO, 8, 5⟩
abbrev MEM_FW_INFO_WRITE : Fld := ⟨rMEM_FW_INFO, 13, 1⟩
abbrev MEM_FW_INFO_RECORDER : Fld := ⟨rMEM_FW_INFO, 14, 1⟩
/-- MEM_CHk_CFG (R347). -/
abbrev rMEM_CHk_CFG (i : Nat) : Nat := 0x2800100 + 0x40 * i
abbrev MEM_CHk_CFG_SPEED (i : Nat) : Fld := ⟨rMEM_CHk_CFG i, 0, 2⟩
abbrev MEM_CHk_CFG_WIDTH (i : Nat) : Fld := ⟨rMEM_CHk_CFG i, 2, 1⟩
abbrev MEM_CHk_CFG_DENSITY (i : Nat) : Fld := ⟨rMEM_CHk_CFG i, 3, 2⟩
abbrev MEM_CHk_CFG_RANKS (i : Nat) : Fld := ⟨rMEM_CHk_CFG i, 5, 1⟩
/-- MEM_CHk_STS (R347). -/
abbrev rMEM_CHk_STS (i : Nat) : Nat := 0x2800104 + 0x40 * i
abbrev MEM_CHk_STS_TRAINED (i : Nat) : Fld := ⟨rMEM_CHk_STS i, 0, 1⟩
abbrev MEM_CHk_STS_HOT (i : Nat) : Fld := ⟨rMEM_CHk_STS i, 1, 1⟩
/-- MEM_CHk_CE (R347). -/
abbrev rMEM_CHk_CE (i : Nat) : Nat := 0x2800108 + 0x40 * i
abbrev MEM_CHk_CE (i : Nat) : Fld := ⟨rMEM_CHk_CE i, 0, 32⟩
/-- MEM_CHk_UE (R347). -/
abbrev rMEM_CHk_UE (i : Nat) : Nat := 0x280010c + 0x40 * i
abbrev MEM_CHk_UE (i : Nat) : Fld := ⟨rMEM_CHk_UE i, 0, 32⟩
/-- MEM_CHk_POISON_RD (R347). -/
abbrev rMEM_CHk_POISON_RD (i : Nat) : Nat := 0x2800110 + 0x40 * i
abbrev MEM_CHk_POISON_RD (i : Nat) : Fld := ⟨rMEM_CHk_POISON_RD i, 0, 32⟩
/-- MEM_CHk_ERR_ADDR (R347). -/
abbrev rMEM_CHk_ERR_ADDR (i : Nat) : Nat := 0x2800114 + 0x40 * i
abbrev MEM_CHk_ERR_ADDR (i : Nat) : Fld := ⟨rMEM_CHk_ERR_ADDR i, 0, 32⟩
/-- MEM_CHk_ERR_INFO (R347). -/
abbrev rMEM_CHk_ERR_INFO (i : Nat) : Nat := 0x2800118 + 0x40 * i
abbrev MEM_CHk_ERR_INFO_ADDR_HI (i : Nat) : Fld := ⟨rMEM_CHk_ERR_INFO i, 0, 8⟩
abbrev MEM_CHk_ERR_INFO_UNCORR (i : Nat) : Fld := ⟨rMEM_CHk_ERR_INFO i, 8, 1⟩
abbrev MEM_CHk_ERR_INFO_DEVICE (i : Nat) : Fld := ⟨rMEM_CHk_ERR_INFO i, 9, 4⟩
/-- MEM_CHk_SCRUB_PASSES (R347). -/
abbrev rMEM_CHk_SCRUB_PASSES (i : Nat) : Nat := 0x280011c + 0x40 * i
abbrev MEM_CHk_SCRUB_PASSES (i : Nat) : Fld := ⟨rMEM_CHk_SCRUB_PASSES i, 0, 32⟩
/-- MEM_HARQ_p_BASE_LO (R218). -/
abbrev rMEM_HARQ_p_BASE_LO (i : Nat) : Nat := 0x2800600 + 0x20 * i
abbrev MEM_HARQ_p_BASE_LO (i : Nat) : Fld := ⟨rMEM_HARQ_p_BASE_LO i, 12, 20⟩
/-- MEM_HARQ_p_BASE_HI (R218). -/
abbrev rMEM_HARQ_p_BASE_HI (i : Nat) : Nat := 0x2800604 + 0x20 * i
abbrev MEM_HARQ_p_BASE_HI (i : Nat) : Fld := ⟨rMEM_HARQ_p_BASE_HI i, 0, 8⟩
/-- MEM_HARQ_p_COUNT (R218). -/
abbrev rMEM_HARQ_p_COUNT (i : Nat) : Nat := 0x2800608 + 0x20 * i
abbrev MEM_HARQ_p_COUNT (i : Nat) : Fld := ⟨rMEM_HARQ_p_COUNT i, 0, 17⟩
/-- MEM_HARQ_p_SLOT (R218). -/
abbrev rMEM_HARQ_p_SLOT (i : Nat) : Nat := 0x280060c + 0x20 * i
abbrev MEM_HARQ_p_SLOT (i : Nat) : Fld := ⟨rMEM_HARQ_p_SLOT i, 0, 16⟩
/-- MEM_HARQ_p_OP (R218). -/
abbrev rMEM_HARQ_p_OP (i : Nat) : Nat := 0x2800610 + 0x20 * i
abbrev MEM_HARQ_p_OP (i : Nat) : Fld := ⟨rMEM_HARQ_p_OP i, 0, 2⟩
/-- MEM_HARQ_p_FREE (R218). -/
abbrev rMEM_HARQ_p_FREE (i : Nat) : Nat := 0x2800614 + 0x20 * i
abbrev MEM_HARQ_p_FREE (i : Nat) : Fld := ⟨rMEM_HARQ_p_FREE i, 0, 17⟩
/-- MEM_HARQ_p_USED (R218). -/
abbrev rMEM_HARQ_p_USED (i : Nat) : Nat := 0x2800618 + 0x20 * i
abbrev MEM_HARQ_p_USED (i : Nat) : Fld := ⟨rMEM_HARQ_p_USED i, 0, 17⟩
/-- MEM_HARQ_p_REFUSED (R218). -/
abbrev rMEM_HARQ_p_REFUSED (i : Nat) : Nat := 0x280061c + 0x20 * i
abbrev MEM_HARQ_p_REFUSED (i : Nat) : Fld := ⟨rMEM_HARQ_p_REFUSED i, 0, 32⟩
/-- MEM_FWr_BASE (R347). -/
abbrev rMEM_FWr_BASE (i : Nat) : Nat := 0x2801000 + 0x20 * i
abbrev MEM_FWr_BASE (i : Nat) : Fld := ⟨rMEM_FWr_BASE i, 0, 28⟩
/-- MEM_FWr_LIMIT (R347). -/
abbrev rMEM_FWr_LIMIT (i : Nat) : Nat := 0x2801004 + 0x20 * i
abbrev MEM_FWr_LIMIT (i : Nat) : Fld := ⟨rMEM_FWr_LIMIT i, 0, 28⟩
/-- MEM_FWr_RD (R347). -/
abbrev rMEM_FWr_RD (i : Nat) : Nat := 0x2801008 + 0x20 * i
abbrev MEM_FWr_RD (i : Nat) : Fld := ⟨rMEM_FWr_RD i, 0, 28⟩
/-- MEM_FWr_WR (R347). -/
abbrev rMEM_FWr_WR (i : Nat) : Nat := 0x280100c + 0x20 * i
abbrev MEM_FWr_WR (i : Nat) : Fld := ⟨rMEM_FWr_WR i, 0, 28⟩
/-- MEM_FWr_CTL (R347). -/
abbrev rMEM_FWr_CTL (i : Nat) : Nat := 0x2801010 + 0x20 * i
abbrev MEM_FWr_CTL_ENABLE (i : Nat) : Fld := ⟨rMEM_FWr_CTL i, 0, 1⟩
/-- CBF_FREE (R348). -/
abbrev rCBF_FREE : Nat := 0x2c00000
abbrev CBF_FREE : Fld := ⟨rCBF_FREE, 0, 15⟩
/-- CBF_ALLOCATED (R348). -/
abbrev rCBF_ALLOCATED : Nat := 0x2c00004
abbrev CBF_ALLOCATED : Fld := ⟨rCBF_ALLOCATED, 0, 15⟩
/-- CBF_BUFFERS (R348). -/
abbrev rCBF_BUFFERS : Nat := 0x2c00008
abbrev CBF_BUFFERS : Fld := ⟨rCBF_BUFFERS, 0, 11⟩
/-- CBF_FREE_ACCESS (R348). -/
abbrev rCBF_FREE_ACCESS : Nat := 0x2c0000c
abbrev CBF_FREE_ACCESS : Fld := ⟨rCBF_FREE_ACCESS, 0, 32⟩
/-- CBF_CE (R348). -/
abbrev rCBF_CE : Nat := 0x2c00010
abbrev CBF_CE : Fld := ⟨rCBF_CE, 0, 32⟩
/-- CBF_UE (R348). -/
abbrev rCBF_UE : Nat := 0x2c00014
abbrev CBF_UE : Fld := ⟨rCBF_UE, 0, 32⟩
/-- CBF_POISON_RD (R348). -/
abbrev rCBF_POISON_RD : Nat := 0x2c00018
abbrev CBF_POISON_RD : Fld := ⟨rCBF_POISON_RD, 0, 32⟩
/-- CBF_ERR_ADDR (R348). -/
abbrev rCBF_ERR_ADDR : Nat := 0x2c0001c
abbrev CBF_ERR_ADDR_OFFSET : Fld := ⟨rCBF_ERR_ADDR, 0, 26⟩
abbrev CBF_ERR_ADDR_UNCORR : Fld := ⟨rCBF_ERR_ADDR, 26, 1⟩
/-- CKR_PLL_STS (R427). -/
abbrev rCKR_PLL_STS : Nat := 0x3000000
abbrev CKR_PLL_STS_ROOT_LOCK : Fld := ⟨rCKR_PLL_STS, 0, 1⟩
abbrev CKR_PLL_STS_ROOT_HOLDOVER : Fld := ⟨rCKR_PLL_STS, 1, 1⟩
abbrev CKR_PLL_STS_DDR_LOCK : Fld := ⟨rCKR_PLL_STS, 2, 1⟩
abbrev CKR_PLL_STS_DDR_HOLDOVER : Fld := ⟨rCKR_PLL_STS, 3, 1⟩
abbrev CKR_PLL_STS_JESD_LOCK : Fld := ⟨rCKR_PLL_STS, 4, 1⟩
abbrev CKR_PLL_STS_ETH_LOCK : Fld := ⟨rCKR_PLL_STS, 5, 1⟩
abbrev CKR_PLL_STS_PCIE_LOCK : Fld := ⟨rCKR_PLL_STS, 6, 1⟩
/-- CKR_REF_STS (R427). -/
abbrev rCKR_REF_STS : Nat := 0x3000004
abbrev CKR_REF_STS_PRESENT : Fld := ⟨rCKR_REF_STS, 0, 5⟩
/-- CKR_REF_LOSS_k (R427). -/
abbrev rCKR_REF_LOSS_k (i : Nat) : Nat := 0x3000010 + 0x4 * i
abbrev CKR_REF_LOSS_k_LOSS (i : Nat) : Fld := ⟨rCKR_REF_LOSS_k i, 0, 32⟩
/-- CKR_RESET_CAUSE (R427). -/
abbrev rCKR_RESET_CAUSE : Nat := 0x3000040
abbrev CKR_RESET_CAUSE_KIND : Fld := ⟨rCKR_RESET_CAUSE, 0, 2⟩
abbrev CKR_RESET_CAUSE_TRIGGER : Fld := ⟨rCKR_RESET_CAUSE, 2, 4⟩
/-- CKR_RESETS_t (R427). -/
abbrev rCKR_RESETS_t (i : Nat) : Nat := 0x3000054 + 0x4 * i
abbrev CKR_RESETS_t_RESETS (i : Nat) : Fld := ⟨rCKR_RESETS_t i, 0, 32⟩
/-- PMU_STS (R426). -/
abbrev rPMU_STS : Nat := 0x3400000
abbrev PMU_STS_RAMPING : Fld := ⟨rPMU_STS, 0, 1⟩
abbrev PMU_STS_QUEUED : Fld := ⟨rPMU_STS, 1, 7⟩
/-- PMU_SWITCH_ONS (R426). -/
abbrev rPMU_SWITCH_ONS : Nat := 0x3400004
abbrev PMU_SWITCH_ONS : Fld := ⟨rPMU_SWITCH_ONS, 0, 32⟩
/-- PMU_PARKS (R426). -/
abbrev rPMU_PARKS : Nat := 0x3400008
abbrev PMU_PARKS : Fld := ⟨rPMU_PARKS, 0, 32⟩
/-- PMU_PARK_MS (R426). -/
abbrev rPMU_PARK_MS : Nat := 0x340000c
abbrev PMU_PARK_MS : Fld := ⟨rPMU_PARK_MS, 0, 32⟩
/-- PMU_PDd_STS (R426). -/
abbrev rPMU_PDd_STS (i : Nat) : Nat := 0x3400100 + 0x10 * i
abbrev PMU_PDd_STS_STATE (i : Nat) : Fld := ⟨rPMU_PDd_STS i, 0, 3⟩
abbrev PMU_PDd_STS_VOTE (i : Nat) : Fld := ⟨rPMU_PDd_STS i, 3, 1⟩
/-- PMU_PDd_REFUSED (R426). -/
abbrev rPMU_PDd_REFUSED (i : Nat) : Nat := 0x3400104 + 0x10 * i
abbrev PMU_PDd_REFUSED (i : Nat) : Fld := ⟨rPMU_PDd_REFUSED i, 0, 32⟩
/-- PMU_PDd_LAST (R426). -/
abbrev rPMU_PDd_LAST (i : Nat) : Nat := 0x3400108 + 0x10 * i
abbrev PMU_PDd_LAST_SOURCE (i : Nat) : Fld := ⟨rPMU_PDd_LAST i, 0, 8⟩
abbrev PMU_PDd_LAST_REFUSER (i : Nat) : Fld := ⟨rPMU_PDd_LAST i, 8, 8⟩
/-- PMU_PDd_TRANSITIONS (R426). -/
abbrev rPMU_PDd_TRANSITIONS (i : Nat) : Nat := 0x340010c + 0x10 * i
abbrev PMU_PDd_TRANSITIONS (i : Nat) : Fld := ⟨rPMU_PDd_TRANSITIONS i, 0, 32⟩
/-- THM_STS (R441). -/
abbrev rTHM_STS : Nat := 0x3800000
abbrev THM_STS_STATE : Fld := ⟨rTHM_STS, 0, 2⟩
abbrev THM_STS_HOTTEST_TS : Fld := ⟨rTHM_STS, 2, 6⟩
abbrev THM_STS_AVS_AT_MAX : Fld := ⟨rTHM_STS, 8, 1⟩
/-- THM_HOTTEST (R441). -/
abbrev rTHM_HOTTEST : Nat := 0x3800004
abbrev THM_HOTTEST_TEMP : Fld := ⟨rTHM_HOTTEST, 0, 12⟩
/-- THM_PEAK (R441). -/
abbrev rTHM_PEAK : Nat := 0x3800008
abbrev THM_PEAK : Fld := ⟨rTHM_PEAK, 0, 12⟩
/-- THM_THROTTLE (R441). -/
abbrev rTHM_THROTTLE : Nat := 0x380000c
abbrev THM_THROTTLE_CAP_START : Fld := ⟨rTHM_THROTTLE, 0, 4⟩
abbrev THM_THROTTLE_CAP_MIN : Fld := ⟨rTHM_THROTTLE, 4, 4⟩
abbrev THM_THROTTLE_CAP : Fld := ⟨rTHM_THROTTLE, 8, 4⟩
/-- THM_BROKEN_LO (R441). -/
abbrev rTHM_BROKEN_LO : Nat := 0x3800010
abbrev THM_BROKEN_LO_BROKEN : Fld := ⟨rTHM_BROKEN_LO, 0, 32⟩
/-- THM_BROKEN_HI (R441). -/
abbrev rTHM_BROKEN_HI : Nat := 0x3800014
abbrev THM_BROKEN_HI_BROKEN : Fld := ⟨rTHM_BROKEN_HI, 0, 28⟩
/-- THM_WARNINGS (R441). -/
abbrev rTHM_WARNINGS : Nat := 0x3800018
abbrev THM_WARNINGS : Fld := ⟨rTHM_WARNINGS, 0, 32⟩
/-- THM_THROTTLES (R441). -/
abbrev rTHM_THROTTLES : Nat := 0x380001c
abbrev THM_THROTTLES : Fld := ⟨rTHM_THROTTLES, 0, 32⟩
/-- THM_SHUTDOWNS (R441). -/
abbrev rTHM_SHUTDOWNS : Nat := 0x3800020
abbrev THM_SHUTDOWNS : Fld := ⟨rTHM_SHUTDOWNS, 0, 32⟩
/-- THM_HIST_b (R441). -/
abbrev rTHM_HIST_b (i : Nat) : Nat := 0x3800030 + 0x4 * i
abbrev THM_HIST_b_SECONDS (i : Nat) : Fld := ⟨rTHM_HIST_b i, 0, 32⟩
/-- THM_DEGSEC_LO (R441). -/
abbrev rTHM_DEGSEC_LO : Nat := 0x3800040
abbrev THM_DEGSEC_LO : Fld := ⟨rTHM_DEGSEC_LO, 0, 32⟩
/-- THM_DEGSEC_HI (R441). -/
abbrev rTHM_DEGSEC_HI : Nat := 0x3800044
abbrev THM_DEGSEC_HI : Fld := ⟨rTHM_DEGSEC_HI, 0, 32⟩
/-- THM_AVS_MV (R441). -/
abbrev rTHM_AVS_MV : Nat := 0x3800050
abbrev THM_AVS_MV : Fld := ⟨rTHM_AVS_MV, 0, 12⟩
/-- THM_AVS_TARGET (R441). -/
abbrev rTHM_AVS_TARGET : Nat := 0x3800054
abbrev THM_AVS_TARGET : Fld := ⟨rTHM_AVS_TARGET, 0, 8⟩
/-- THM_TS_i (R441). -/
abbrev rTHM_TS_i (i : Nat) : Nat := 0x3800100 + 0x4 * i
abbrev THM_TS_i_TEMP (i : Nat) : Fld := ⟨rTHM_TS_i i, 0, 12⟩
abbrev THM_TS_i_BROKEN (i : Nat) : Fld := ⟨rTHM_TS_i i, 12, 1⟩
/-- THM_RAW_i (R441). -/
abbrev rTHM_RAW_i (i : Nat) : Nat := 0x3800200 + 0x4 * i
abbrev THM_RAW_i_RAW (i : Nat) : Fld := ⟨rTHM_RAW_i i, 0, 12⟩
/-- THM_TRIM_i (R441). -/
abbrev rTHM_TRIM_i (i : Nat) : Nat := 0x3800300 + 0x4 * i
abbrev THM_TRIM_i_TRIM (i : Nat) : Fld := ⟨rTHM_TRIM_i i, 0, 8⟩
/-- THM_AM_k (R441). -/
abbrev rTHM_AM_k (i : Nat) : Nat := 0x3800400 + 0x4 * i
abbrev THM_AM_k_SLACK (i : Nat) : Fld := ⟨rTHM_AM_k i, 0, 10⟩
/-- THM_UNLOCK (R441). -/
abbrev rTHM_UNLOCK : Nat := 0x3800480
abbrev THM_UNLOCK_KEY : Fld := ⟨rTHM_UNLOCK, 0, 32⟩
/-- OBS_SNAP_CTL (R39). -/
abbrev rOBS_SNAP_CTL : Nat := 0x3c00400
abbrev OBS_SNAP_CTL_SNAP : Fld := ⟨rOBS_SNAP_CTL, 0, 1⟩
/-- OBS_SNAP_STS (R39). -/
abbrev rOBS_SNAP_STS : Nat := 0x3c00404
abbrev OBS_SNAP_STS_BUSY : Fld := ⟨rOBS_SNAP_STS, 0, 1⟩
abbrev OBS_SNAP_STS_VALID : Fld := ⟨rOBS_SNAP_STS, 1, 1⟩
abbrev OBS_SNAP_STS_FENCE_OPEN : Fld := ⟨rOBS_SNAP_STS, 2, 1⟩
abbrev OBS_SNAP_STS_PARTIAL : Fld := ⟨rOBS_SNAP_STS, 3, 1⟩
/-- OBS_SNAP_SEQ (R39). -/
abbrev rOBS_SNAP_SEQ : Nat := 0x3c00408
abbrev OBS_SNAP_SEQ : Fld := ⟨rOBS_SNAP_SEQ, 0, 32⟩
/-- OBS_SNAP_REFUSED (R39). -/
abbrev rOBS_SNAP_REFUSED : Nat := 0x3c0040c
abbrev OBS_SNAP_REFUSED : Fld := ⟨rOBS_SNAP_REFUSED, 0, 32⟩
/-- OBS_REC_STS (R501). -/
abbrev rOBS_REC_STS : Nat := 0x3c00800
abbrev OBS_REC_STS_STATE : Fld := ⟨rOBS_REC_STS, 0, 2⟩
abbrev OBS_REC_STS_WRAPPED : Fld := ⟨rOBS_REC_STS, 2, 1⟩
/-- OBS_REC_TRIG (R501). -/
abbrev rOBS_REC_TRIG : Nat := 0x3c00804
abbrev OBS_REC_TRIG_SRC : Fld := ⟨rOBS_REC_TRIG, 0, 6⟩
/-- OBS_REC_POST (R501). -/
abbrev rOBS_REC_POST : Nat := 0x3c00808
abbrev OBS_REC_POST_POST : Fld := ⟨rOBS_REC_POST, 0, 8⟩
abbrev OBS_REC_POST_DL_THRESH : Fld := ⟨rOBS_REC_POST, 8, 8⟩
/-- OBS_REC_WIN (R501). -/
abbrev rOBS_REC_WIN : Nat := 0x3c0080c
abbrev OBS_REC_WIN : Fld := ⟨rOBS_REC_WIN, 0, 10⟩
/-- OBS_REC_LOST (R501). -/
abbrev rOBS_REC_LOST : Nat := 0x3c00810
abbrev OBS_REC_LOST : Fld := ⟨rOBS_REC_LOST, 0, 32⟩
/-- OBS_REC_TRIGGERS (R501). -/
abbrev rOBS_REC_TRIGGERS : Nat := 0x3c00814
abbrev OBS_REC_TRIGGERS : Fld := ⟨rOBS_REC_TRIGGERS, 0, 32⟩
/-- POD_CORE_c_CTL (R148). -/
abbrev rPOD_CORE_c_CTL (p i : Nat) : Nat := 0x4000100 + 0x400000 * p + 0x20 * i
abbrev POD_CORE_c_CTL_RUN (p i : Nat) : Fld := ⟨rPOD_CORE_c_CTL p i, 0, 1⟩
abbrev POD_CORE_c_CTL_RESET (p i : Nat) : Fld := ⟨rPOD_CORE_c_CTL p i, 1, 1⟩
abbrev POD_CORE_c_CTL_DOORBELL (p i : Nat) : Fld := ⟨rPOD_CORE_c_CTL p i, 2, 1⟩
/-- POD_CORE_c_STS (R148). -/
abbrev rPOD_CORE_c_STS (p i : Nat) : Nat := 0x4000104 + 0x400000 * p + 0x20 * i
abbrev POD_CORE_c_STS_STATE (p i : Nat) : Fld := ⟨rPOD_CORE_c_STS p i, 0, 3⟩
abbrev POD_CORE_c_STS_IN_HANDLER (p i : Nat) : Fld := ⟨rPOD_CORE_c_STS p i, 3, 1⟩
/-- POD_CORE_c_FLT (R148). -/
abbrev rPOD_CORE_c_FLT (p i : Nat) : Nat := 0x4000108 + 0x400000 * p + 0x20 * i
abbrev POD_CORE_c_FLT_CAUSE (p i : Nat) : Fld := ⟨rPOD_CORE_c_FLT p i, 0, 8⟩
abbrev POD_CORE_c_FLT_ELEMENT (p i : Nat) : Fld := ⟨rPOD_CORE_c_FLT p i, 8, 8⟩
/-- POD_CORE_c_FLT_PC (R148). -/
abbrev rPOD_CORE_c_FLT_PC (p i : Nat) : Nat := 0x400010c + 0x400000 * p + 0x20 * i
abbrev POD_CORE_c_FLT_PC (p i : Nat) : Fld := ⟨rPOD_CORE_c_FLT_PC p i, 0, 21⟩
/-- POD_CORE_c_FLT_ADDR (R148). -/
abbrev rPOD_CORE_c_FLT_ADDR (p i : Nat) : Nat := 0x4000110 + 0x400000 * p + 0x20 * i
abbrev POD_CORE_c_FLT_ADDR (p i : Nat) : Fld := ⟨rPOD_CORE_c_FLT_ADDR p i, 0, 32⟩
/-- POD_CORE_c_FAULTS (R148). -/
abbrev rPOD_CORE_c_FAULTS (p i : Nat) : Nat := 0x4000114 + 0x400000 * p + 0x20 * i
abbrev POD_CORE_c_FAULTS (p i : Nat) : Fld := ⟨rPOD_CORE_c_FAULTS p i, 0, 32⟩
/-- POD_CORE_c_SQUASHED (R148). -/
abbrev rPOD_CORE_c_SQUASHED (p i : Nat) : Nat := 0x4000118 + 0x400000 * p + 0x20 * i
abbrev POD_CORE_c_SQUASHED (p i : Nat) : Fld := ⟨rPOD_CORE_c_SQUASHED p i, 0, 32⟩
/-- POD_CORE_c_WAIT_ABORTS (R148). -/
abbrev rPOD_CORE_c_WAIT_ABORTS (p i : Nat) : Nat := 0x400011c + 0x400000 * p + 0x20 * i
abbrev POD_CORE_c_WAIT_ABORTS (p i : Nat) : Fld := ⟨rPOD_CORE_c_WAIT_ABORTS p i, 0, 32⟩
/-- POD_DMA_c_STS (R167). -/
abbrev rPOD_DMA_c_STS (p i : Nat) : Nat := 0x4000400 + 0x400000 * p + 0x10 * i
abbrev POD_DMA_c_STS_INFLIGHT (p i : Nat) : Fld := ⟨rPOD_DMA_c_STS p i, 0, 16⟩
/-- POD_DMA_c_DONE (R167). -/
abbrev rPOD_DMA_c_DONE (p i : Nat) : Nat := 0x4000404 + 0x400000 * p + 0x10 * i
abbrev POD_DMA_c_DONE (p i : Nat) : Fld := ⟨rPOD_DMA_c_DONE p i, 0, 32⟩
/-- POD_DMA_c_ERR (R167). -/
abbrev rPOD_DMA_c_ERR (p i : Nat) : Nat := 0x4000408 + 0x400000 * p + 0x10 * i
abbrev POD_DMA_c_ERR (p i : Nat) : Fld := ⟨rPOD_DMA_c_ERR p i, 0, 32⟩
/-- POD_DMA_c_SAT (R167). -/
abbrev rPOD_DMA_c_SAT (p i : Nat) : Nat := 0x400040c + 0x400000 * p + 0x10 * i
abbrev POD_DMA_c_SAT (p i : Nat) : Fld := ⟨rPOD_DMA_c_SAT p i, 0, 32⟩
/-- CPX_CTL (R196). -/
abbrev rCPX_CTL (p : Nat) : Nat := 0x8000000 + 0x400000 * p
abbrev CPX_CTL_DEC_EN (p : Nat) : Fld := ⟨rCPX_CTL p, 0, 1⟩
abbrev CPX_CTL_XFM_EN (p : Nat) : Fld := ⟨rCPX_CTL p, 1, 1⟩
abbrev CPX_CTL_MAT_EN (p : Nat) : Fld := ⟨rCPX_CTL p, 2, 1⟩
/-- CPX_STS (R196). -/
abbrev rCPX_STS (p : Nat) : Nat := 0x8000004 + 0x400000 * p
abbrev CPX_STS_BUSY (p : Nat) : Fld := ⟨rCPX_STS p, 0, 3⟩
/-- CPX_u_QUEUE (R196). -/
abbrev rCPX_u_QUEUE (p i : Nat) : Nat := 0x8000100 + 0x400000 * p + 0x20 * i
abbrev CPX_u_QUEUE_DEPTH (p i : Nat) : Fld := ⟨rCPX_u_QUEUE p i, 0, 6⟩
/-- CPX_u_ACCEPTED (R196). -/
abbrev rCPX_u_ACCEPTED (p i : Nat) : Nat := 0x8000104 + 0x400000 * p + 0x20 * i
abbrev CPX_u_ACCEPTED (p i : Nat) : Fld := ⟨rCPX_u_ACCEPTED p i, 0, 32⟩
/-- CPX_u_SQUASHED (R196). -/
abbrev rCPX_u_SQUASHED (p i : Nat) : Nat := 0x8000108 + 0x400000 * p + 0x20 * i
abbrev CPX_u_SQUASHED (p i : Nat) : Fld := ⟨rCPX_u_SQUASHED p i, 0, 32⟩
/-- CPX_u_DONE (R196). -/
abbrev rCPX_u_DONE (p i : Nat) : Nat := 0x800010c + 0x400000 * p + 0x20 * i
abbrev CPX_u_DONE (p i : Nat) : Fld := ⟨rCPX_u_DONE p i, 0, 32⟩
/-- CPX_u_ERR (R196). -/
abbrev rCPX_u_ERR (p i : Nat) : Nat := 0x8000110 + 0x400000 * p + 0x20 * i
abbrev CPX_u_ERR (p i : Nat) : Fld := ⟨rCPX_u_ERR p i, 0, 32⟩
/-- CPX_u_EXPIRED (R196). -/
abbrev rCPX_u_EXPIRED (p i : Nat) : Nat := 0x8000114 + 0x400000 * p + 0x20 * i
abbrev CPX_u_EXPIRED (p i : Nat) : Fld := ⟨rCPX_u_EXPIRED p i, 0, 32⟩
/-- CPX_u_STAGE_STALL (R196). -/
abbrev rCPX_u_STAGE_STALL (p i : Nat) : Nat := 0x8000118 + 0x400000 * p + 0x20 * i
abbrev CPX_u_STAGE_STALL (p i : Nat) : Fld := ⟨rCPX_u_STAGE_STALL p i, 0, 32⟩
/-- CPX_u_LOSTREC (R196). -/
abbrev rCPX_u_LOSTREC (p i : Nat) : Nat := 0x800011c + 0x400000 * p + 0x20 * i
abbrev CPX_u_LOSTREC (p i : Nat) : Fld := ⟨rCPX_u_LOSTREC p i, 0, 32⟩
/-- CPX_CORE_c_OUT (R196). -/
abbrev rCPX_CORE_c_OUT (p i : Nat) : Nat := 0x8000200 + 0x400000 * p + 0x4 * i
abbrev CPX_CORE_c_OUT (p i : Nat) : Fld := ⟨rCPX_CORE_c_OUT p i, 0, 4⟩
/-- CPX_DEC_CB_OK (R223). -/
abbrev rCPX_DEC_CB_OK (p : Nat) : Nat := 0x8000300 + 0x400000 * p
abbrev CPX_DEC_CB_OK (p : Nat) : Fld := ⟨rCPX_DEC_CB_OK p, 0, 32⟩
/-- CPX_DEC_CB_FAIL (R223). -/
abbrev rCPX_DEC_CB_FAIL (p : Nat) : Nat := 0x8000304 + 0x400000 * p
abbrev CPX_DEC_CB_FAIL (p : Nat) : Fld := ⟨rCPX_DEC_CB_FAIL p, 0, 32⟩
/-- CPX_DEC_ITER (R223). -/
abbrev rCPX_DEC_ITER (p : Nat) : Nat := 0x8000308 + 0x400000 * p
abbrev CPX_DEC_ITER (p : Nat) : Fld := ⟨rCPX_DEC_ITER p, 0, 32⟩
/-- CPX_DEC_HARQ_RESET (R223). -/
abbrev rCPX_DEC_HARQ_RESET (p : Nat) : Nat := 0x800030c + 0x400000 * p
abbrev CPX_DEC_HARQ_RESET (p : Nat) : Fld := ⟨rCPX_DEC_HARQ_RESET p, 0, 32⟩
/-- CPX_DEC_ENC_CB (R223). -/
abbrev rCPX_DEC_ENC_CB (p : Nat) : Nat := 0x8000310 + 0x400000 * p
abbrev CPX_DEC_ENC_CB (p : Nat) : Fld := ⟨rCPX_DEC_ENC_CB p, 0, 32⟩

/-- Register families of block HIF_, part 0. -/
def familiesHIF0 : List RegFam := [
  ⟨"HIF_CQn_CTL", 0x1000, [(16, 0x40)], false, false, .hif, .cq,
    [⟨0, 1, .ctl, 0, []⟩]⟩,
  ⟨"HIF_CQn_CFG", 0x1004, [(16, 0x40)], false, false, .hif, .cq,
    [⟨0, 4, .cfg, 4, [(0, 3), (13, 15)]⟩, ⟨4, 4, .cfg, 4, [(0, 3), (13, 15)]⟩]⟩,
  ⟨"HIF_CQn_SQ_BASE_LO", 0x1008, [(16, 0x40)], true, false, .hif, .cq,
    [⟨12, 20, .cfg, 0, []⟩]⟩,
  ⟨"HIF_CQn_SQ_BASE_HI", 0x100c, [(16, 0x40)], true, false, .hif, .cq,
    [⟨0, 32, .cfg, 0, []⟩]⟩,
  ⟨"HIF_CQn_CQ_BASE_LO", 0x1010, [(16, 0x40)], true, false, .hif, .cq,
    [⟨12, 20, .cfg, 0, []⟩]⟩,
  ⟨"HIF_CQn_CQ_BASE_HI", 0x1014, [(16, 0x40)], true, false, .hif, .cq,
    [⟨0, 32, .cfg, 0, []⟩]⟩,
  ⟨"HIF_CQn_SQ_TAIL", 0x1018, [(16, 0x40)], false, false, .hif, .cq,
    [⟨0, 12, .ctl, 0, []⟩]⟩,
  ⟨"HIF_CQn_SQ_HEAD", 0x101c, [(16, 0x40)], false, false, .hif, .cq,
    [⟨0, 12, .sts, 0, []⟩]⟩,
  ⟨"HIF_CQn_CQ_HEAD", 0x1020, [(16, 0x40)], false, false, .hif, .cq,
    [⟨0, 12, .ctl, 0, []⟩]⟩,
  ⟨"HIF_CQn_CQ_TAIL", 0x1024, [(16, 0x40)], false, false, .hif, .cq,
    [⟨0, 12, .sts, 0, []⟩]⟩,
  ⟨"HIF_CQn_IRQ", 0x1028, [(16, 0x40)], false, false, .hif, .cq,
    [⟨0, 9, .cfg, 0, []⟩]⟩,
  ⟨"HIF_CQn_COAL", 0x102c, [(16, 0x40)], false, false, .hif, .cq,
    [⟨0, 8, .cfg, 1, []⟩, ⟨8, 8, .cfg, 0, []⟩]⟩,
  ⟨"HIF_CQn_STS", 0x1030, [(16, 0x40)], false, false, .hif, .cq,
    [⟨0, 1, .sts, 0, []⟩, ⟨1, 1, .sts, 0, []⟩]⟩,
  ⟨"HIF_CQn_BADDB", 0x1034, [(16, 0x40)], true, false, .hif, .cq,
    [⟨0, 32, .cnt, 0, []⟩]⟩,
  ⟨"HIF_CQn_OVERFLOW", 0x1038, [(16, 0x40)], true, false, .hif, .cq,
    []⟩,
  ⟨"HIF_UPQm_CTL", 0x2000, [(64, 0x40)], false, false, .hif, .upq,
    [⟨0, 1, .ctl, 0, []⟩]⟩,
  ⟨"HIF_UPQm_CFG", 0x2004, [(64, 0x40)], false, false, .hif, .upq,
    [⟨0, 4, .cfg, 4, [(0, 3), (13, 15)]⟩, ⟨4, 4, .cfg, 4, [(0, 3), (13, 15)]⟩]⟩,
  ⟨"HIF_UPQm_SQ_BASE_LO", 0x2008, [(64, 0x40)], true, false, .hif, .upq,
    [⟨12, 20, .cfg, 0, []⟩]⟩,
  ⟨"HIF_UPQm_SQ_BASE_HI", 0x200c, [(64, 0x40)], true, false, .hif, .upq,
    [⟨0, 32, .cfg, 0, []⟩]⟩,
  ⟨"HIF_UPQm_CQ_BASE_LO", 0x2010, [(64, 0x40)], true, false, .hif, .upq,
    [⟨12, 20, .cfg, 0, []⟩]⟩,
  ⟨"HIF_UPQm_CQ_BASE_HI", 0x2014, [(64, 0x40)], true, false, .hif, .upq,
    [⟨0, 32, .cfg, 0, []⟩]⟩,
  ⟨"HIF_UPQm_SQ_TAIL", 0x2018, [(64, 0x40)], false, false, .hif, .upq,
    [⟨0, 12, .ctl, 0, []⟩]⟩,
  ⟨"HIF_UPQm_SQ_HEAD", 0x201c, [(64, 0x40)], false, false, .hif, .upq,
    [⟨0, 12, .sts, 0, []⟩]⟩,
  ⟨"HIF_UPQm_CQ_HEAD", 0x2020, [(64, 0x40)], false, false, .hif, .upq,
    [⟨0, 12, .ctl, 0, []⟩]⟩,
  ⟨"HIF_UPQm_CQ_TAIL", 0x2024, [(64, 0x40)], false, false, .hif, .upq,
    [⟨0, 12, .sts, 0, []⟩]⟩,
  ⟨"HIF_UPQm_IRQ", 0x2028, [(64, 0x40)], false, false, .hif, .upq,
    [⟨0, 9, .cfg, 0, []⟩]⟩,
  ⟨"HIF_UPQm_COAL", 0x202c, [(64, 0x40)], false, false, .hif, .upq,
    [⟨0, 8, .cfg, 1, []⟩, ⟨8, 8, .cfg, 0, []⟩]⟩,
  ⟨"HIF_UPQm_STS", 0x2030, [(64, 0x40)], false, false, .hif, .upq,
    [⟨0, 1, .sts, 0, []⟩, ⟨1, 1, .sts, 0, []⟩]⟩,
  ⟨"HIF_UPQm_BADDB", 0x2034, [(64, 0x40)], true, false, .hif, .upq,
    [⟨0, 32, .cnt, 0, []⟩]⟩,
  ⟨"HIF_UPQm_OVERFLOW", 0x2038, [(64, 0x40)], true, false, .hif, .upq,
    [⟨0, 32, .cnt, 0, []⟩]⟩,
  ⟨"HIF_OB_BASE", 0x100, [], true, false, .hif, .obBase,
    [⟨0, 28, .cfg, 0, []⟩]⟩]

/-- Register families of block HIF_. -/
def familiesHIF : List RegFam := familiesHIF0

/-- Register families of block MGT_, part 0. -/
def familiesMGT0 : List RegFam := [
  ⟨"MGT_CHIP_ID", 0x0, [], true, false, .mgt, .none,
    [⟨0, 8, .sts, 1, []⟩, ⟨8, 8, .sts, 65, []⟩, ⟨16, 16, .sts, 1298, []⟩]⟩,
  ⟨"MGT_TWIN_STS", 0x2000, [], false, false, .mgt, .none,
    [⟨0, 2, .sts, 0, []⟩, ⟨2, 3, .sts, 0, []⟩, ⟨5, 1, .sts, 0, []⟩, ⟨6, 1, .sts, 0, []⟩, ⟨7, 1, .sts, 0, []⟩, ⟨8, 2, .sts, 0, []⟩]⟩,
  ⟨"MGT_TWIN_MISSED", 0x2004, [], true, false, .mgt, .none,
    [⟨0, 32, .cnt, 0, []⟩]⟩,
  ⟨"MGT_TWIN_UNACK", 0x2008, [], true, false, .mgt, .none,
    [⟨0, 32, .sts, 0, []⟩]⟩,
  ⟨"MGT_TWIN_SLOTS_PENDING", 0x200c, [], true, false, .mgt, .none,
    [⟨0, 32, .sts, 0, []⟩]⟩,
  ⟨"MGT_TWIN_TAKEOVERS", 0x2010, [], true, false, .mgt, .none,
    [⟨0, 32, .cnt, 0, []⟩]⟩,
  ⟨"MGT_BUS_ERR", 0x3fff0c, [], true, false, .mgt, .none,
    [⟨0, 16, .cnt, 0, []⟩, ⟨16, 16, .cnt, 0, []⟩]⟩]

/-- Register families of block MGT_. -/
def familiesMGT : List RegFam := familiesMGT0

/-- Register families of block SEC_, part 0. -/
def familiesSEC0 : List RegFam := [
  ⟨"SEC_BOOT_STS", 0x0, [], false, false, .aon, .none,
    [⟨0, 1, .sts, 0, []⟩, ⟨1, 1, .sts, 0, []⟩, ⟨2, 1, .sts, 0, []⟩, ⟨3, 1, .sts, 0, []⟩, ⟨4, 1, .sts, 0, []⟩, ⟨5, 1, .sts, 0, []⟩, ⟨6, 4, .sts, 0, []⟩]⟩,
  ⟨"SEC_PROT_SEAL", 0x4, [], false, false, .aon, .none,
    [⟨0, 1, .cmd, 0, []⟩]⟩,
  ⟨"SEC_FW_SVN", 0x8, [], false, false, .aon, .none,
    [⟨0, 6, .sts, 0, []⟩, ⟨6, 6, .sts, 0, []⟩]⟩,
  ⟨"SEC_DEVICE_ID_LO", 0xc, [], true, false, .aon, .none,
    [⟨0, 32, .sts, 0, []⟩]⟩,
  ⟨"SEC_DEVICE_ID_HI", 0x10, [], true, false, .aon, .none,
    [⟨0, 32, .sts, 0, []⟩]⟩,
  ⟨"SEC_KEY_STS", 0x14, [], false, false, .aon, .none,
    [⟨0, 16, .sts, 0, []⟩]⟩,
  ⟨"SEC_DEBUG_STS", 0x18, [], false, false, .aon, .prot,
    [⟨0, 2, .sts, 0, []⟩, ⟨2, 2, .cfg, 0, []⟩, ⟨4, 2, .sts, 0, []⟩]⟩,
  ⟨"SEC_ALARMS", 0x1c, [], true, false, .aon, .none,
    [⟨0, 32, .cnt, 0, []⟩]⟩,
  ⟨"SEC_SEAL_VIOL", 0x20, [], true, false, .aon, .none,
    [⟨0, 32, .cnt, 0, []⟩]⟩,
  ⟨"SEC_ALARM_ACT_s", 0x44, [(7, 0x4)], false, false, .aon, .prot,
    [⟨0, 3, .cfg, 0, [(6, 7)]⟩]⟩,
  ⟨"SEC_RECOVERY_CTL", 0x100, [], false, false, .aon, .none,
    [⟨0, 1, .cmd, 0, []⟩]⟩,
  ⟨"SEC_RECOVERY_LEN", 0x104, [], true, false, .aon, .none,
    [⟨0, 25, .ctl, 0, []⟩]⟩]

/-- Register families of block SEC_. -/
def familiesSEC : List RegFam := familiesSEC0

/-- Register families of block LYR_, part 0. -/
def familiesLYR0 : List RegFam := [
  ⟨"LYR_EPOCH", 0x0, [], false, false, .mgt, .none,
    [⟨0, 1, .cmd, 0, []⟩, ⟨1, 1, .sts, 0, []⟩, ⟨2, 1, .sts, 0, []⟩]⟩,
  ⟨"LYR_EPOCH_FLIPS", 0x4, [], true, false, .mgt, .none,
    [⟨0, 32, .cnt, 0, []⟩]⟩,
  ⟨"LYR_OLD_INFLIGHT", 0x8, [], true, false, .mgt, .none,
    [⟨0, 16, .sts, 0, []⟩]⟩,
  ⟨"LYR_STAT_CFG", 0xc, [], false, false, .mgt, .none,
    [⟨0, 16, .ctl, 34643, []⟩]⟩,
  ⟨"LYR_RSV_e_q_j", 0x40, [(2, 0x80), (28, 0x4)], false, false, .mgt, .lyrEpoch,
    [⟨0, 5, .cfg, 0, [(28, 31)]⟩, ⟨5, 1, .cfg, 1, []⟩]⟩,
  ⟨"LYR_STOP_s_CTL", 0x400, [(28, 0x40)], false, false, .mgt, .none,
    [⟨0, 1, .ctl, 0, []⟩]⟩,
  ⟨"LYR_STOP_s_STS", 0x404, [(28, 0x40)], false, false, .mgt, .none,
    [⟨0, 1, .sts, 1, []⟩, ⟨1, 1, .sts, 0, []⟩, ⟨2, 1, .sts, 0, []⟩]⟩,
  ⟨"LYR_STOP_s_HOP_CORR", 0x408, [(28, 0x40)], true, false, .mgt, .none,
    [⟨0, 32, .cnt, 0, []⟩]⟩,
  ⟨"LYR_STOP_s_HOP_REPLAY", 0x40c, [(28, 0x40)], true, false, .mgt, .none,
    [⟨0, 32, .cnt, 0, []⟩]⟩,
  ⟨"LYR_STOP_s_E2E_RETRY", 0x410, [(28, 0x40)], true, false, .mgt, .none,
    [⟨0, 32, .cnt, 0, []⟩]⟩,
  ⟨"LYR_STOP_s_E2E_FAIL", 0x414, [(28, 0x40)], true, false, .mgt, .none,
    [⟨0, 32, .cnt, 0, []⟩]⟩,
  ⟨"LYR_STOP_s_STALE", 0x418, [(28, 0x40)], true, false, .mgt, .none,
    [⟨0, 32, .cnt, 0, []⟩]⟩,
  ⟨"LYR_STOP_s_BOUNCED", 0x41c, [(28, 0x40)], true, false, .mgt, .none,
    [⟨0, 32, .cnt, 0, []⟩]⟩,
  ⟨"LYR_STOP_s_BOUNCE_ADDR", 0x420, [(28, 0x40)], true, false, .mgt, .none,
    [⟨0, 32, .sts, 0, []⟩]⟩,
  ⟨"LYR_STOP_s_BOUNCE_INFO", 0x424, [(28, 0x40)], false, false, .mgt, .none,
    [⟨0, 8, .sts, 0, []⟩, ⟨8, 5, .sts, 0, []⟩, ⟨13, 3, .sts, 0, []⟩]⟩,
  ⟨"LYR_STOP_s_UNREACHABLE", 0x428, [(28, 0x40)], true, false, .mgt, .none,
    [⟨0, 32, .cnt, 0, []⟩]⟩,
  ⟨"LYR_STOP_s_DOMAIN_OFF", 0x42c, [(28, 0x40)], true, false, .mgt, .none,
    [⟨0, 32, .cnt, 0, []⟩]⟩,
  ⟨"LYR_STOP_s_OLD_INFLIGHT", 0x430, [(28, 0x40)], false, false, .mgt, .none,
    [⟨0, 16, .sts, 0, []⟩]⟩,
  ⟨"LYR_RT_s_e_d", 0x10000, [(28, 0x200), (2, 0x100), (28, 0x4)], false, false, .mgt, .lyrEpoch,
    [⟨0, 16, .cfg, 0, []⟩]⟩]

/-- Register families of block LYR_. -/
def familiesLYR : List RegFam := familiesLYR0

/-- Register families of block WDS_, part 0. -/
def familiesWDS0 : List RegFam := [
  ⟨"WDS_CTL", 0x0, [], false, false, .wds, .wds,
    [⟨0, 1, .ctl, 0, []⟩]⟩,
  ⟨"WDS_STS", 0x4, [], false, false, .wds, .none,
    [⟨0, 1, .sts, 0, []⟩, ⟨1, 1, .sts, 0, []⟩]⟩,
  ⟨"WDS_GRACE", 0x8, [], true, false, .wds, .wds,
    [⟨0, 16, .cfg, 1474, []⟩]⟩,
  ⟨"WDS_SLOTS_FREE", 0xc, [], true, false, .wds, .none,
    [⟨0, 15, .sts, 16384, []⟩]⟩,
  ⟨"WDS_HANDOUTS", 0x10, [], true, false, .wds, .none,
    [⟨0, 32, .cnt, 0, []⟩]⟩,
  ⟨"WDS_LOG_LOST", 0x14, [], true, false, .wds, .none,
    [⟨0, 32, .cnt, 0, []⟩]⟩,
  ⟨"WDS_EVT_IGNORED", 0x18, [], true, false, .wds, .none,
    [⟨0, 32, .cnt, 0, []⟩]⟩,
  ⟨"WDS_HUNG", 0x1c, [], true, false, .wds, .none,
    [⟨0, 32, .cnt, 0, []⟩]⟩,
  ⟨"WDS_GRAPH_REFUSED", 0x20, [], true, false, .wds, .none,
    [⟨0, 32, .cnt, 0, []⟩]⟩,
  ⟨"WDS_REPORTS_UNBOUND", 0x24, [], true, false, .wds, .none,
    [⟨0, 32, .cnt, 0, []⟩]⟩,
  ⟨"WDS_PODn_CTL", 0x100, [(12, 0x10)], false, false, .wds, .none,
    [⟨0, 2, .ctl, 0, [(3, 3)]⟩]⟩,
  ⟨"WDS_PODn_CORES", 0x104, [(12, 0x10)], false, false, .wds, .none,
    [⟨0, 9, .ctl, 256, []⟩]⟩,
  ⟨"WDS_PODn_CAP", 0x108, [(12, 0x10)], false, false, .wds, .none,
    [⟨0, 4, .sts, 8, []⟩]⟩,
  ⟨"WDS_PODn_BUSY", 0x10c, [(12, 0x10)], false, false, .wds, .none,
    [⟨0, 9, .sts, 0, []⟩]⟩,
  ⟨"WDS_PODn_TOKc", 0x400, [(12, 0x10), (4, 0x4)], false, false, .wds, .wds,
    [⟨0, 4, .cfg, 8, [(9, 15)]⟩, ⟨4, 4, .sts, 0, []⟩]⟩,
  ⟨"WDS_TLn_DROPPED", 0x800, [(4, 0x10)], true, false, .wds, .none,
    [⟨0, 32, .cnt, 0, []⟩]⟩,
  ⟨"WDS_TLn_STOPPED", 0x804, [(4, 0x10)], true, false, .wds, .none,
    [⟨0, 32, .cnt, 0, []⟩]⟩,
  ⟨"WDS_TLn_REPORTS", 0x808, [(4, 0x10)], true, false, .wds, .none,
    [⟨0, 32, .cnt, 0, []⟩]⟩,
  ⟨"WDS_TLn_FENCE_LATE", 0x80c, [(4, 0x10)], true, false, .wds, .none,
    [⟨0, 32, .cnt, 0, []⟩]⟩]

/-- Register families of block WDS_. -/
def familiesWDS : List RegFam := familiesWDS0

/-- Register families of block DFE_, part 0. -/
def familiesDFE0 : List RegFam := [
  ⟨"DFE_TX_ADV", 0x0, [], true, false, .mgt, .jesdAll,
    [⟨0, 20, .cfg, 0, []⟩]⟩,
  ⟨"DFE_RX_DELAY", 0x4, [], true, false, .mgt, .jesdAll,
    [⟨0, 20, .cfg, 0, []⟩]⟩,
  ⟨"DFE_RX_RBD", 0x8, [], false, false, .mgt, .jesdAll,
    [⟨0, 8, .cfg, 0, []⟩]⟩,
  ⟨"DFE_SYSREF_TIME_i", 0xc, [(4, 0x4)], true, false, .mgt, .none,
    [⟨0, 32, .sts, 0, []⟩]⟩,
  ⟨"DFE_TIME_ERR", 0x1c, [], false, false, .mgt, .none,
    [⟨0, 16, .sts, 0, []⟩]⟩,
  ⟨"DFE_SYSREF_MISS", 0x20, [], true, false, .mgt, .none,
    [⟨0, 32, .cnt, 0, []⟩]⟩,
  ⟨"DFE_Jg_CTL_TX", 0x100, [(4, 0x40)], false, false, .dfeTxG, .jesd,
    [⟨0, 1, .ctl, 0, []⟩]⟩,
  ⟨"DFE_Jg_CTL_RX", 0x200, [(4, 0x40)], false, false, .dfeRxG, .jesd,
    [⟨0, 1, .ctl, 0, []⟩]⟩,
  ⟨"DFE_Jk_CTL_OBS", 0x300, [(2, 0x40)], false, false, .mgt, .jesd,
    [⟨0, 1, .ctl, 0, []⟩]⟩,
  ⟨"DFE_Jg_CFG_TX", 0x104, [(4, 0x40)], false, false, .dfeTxG, .jesd,
    [⟨0, 2, .cfg, 0, [(3, 3)]⟩]⟩,
  ⟨"DFE_Jg_CFG_RX", 0x204, [(4, 0x40)], false, false, .dfeRxG, .jesd,
    [⟨0, 2, .cfg, 0, [(3, 3)]⟩]⟩,
  ⟨"DFE_Jk_CFG_OBS", 0x304, [(2, 0x40)], false, false, .mgt, .jesd,
    [⟨0, 2, .cfg, 0, [(1, 3)]⟩]⟩,
  ⟨"DFE_Jg_SPARE_TX", 0x108, [(4, 0x40)], false, false, .dfeTxG, .jesd,
    [⟨0, 4, .cfg, 0, []⟩, ⟨4, 1, .cfg, 0, []⟩]⟩,
  ⟨"DFE_Jg_SPARE_RX", 0x208, [(4, 0x40)], false, false, .dfeRxG, .jesd,
    [⟨0, 4, .cfg, 0, []⟩, ⟨4, 1, .cfg, 0, []⟩]⟩,
  ⟨"DFE_Jk_SPARE_OBS", 0x308, [(2, 0x40)], false, false, .mgt, .jesd,
    [⟨0, 4, .cfg, 0, []⟩, ⟨4, 1, .cfg, 0, []⟩]⟩,
  ⟨"DFE_Jg_PARAM0_TX", 0x10c, [(4, 0x40)], false, false, .dfeTxG, .none,
    [⟨0, 2, .sts, 2, []⟩, ⟨2, 4, .sts, 7, []⟩, ⟨6, 3, .sts, 3, []⟩, ⟨9, 2, .sts, 0, []⟩, ⟨11, 1, .sts, 0, []⟩]⟩,
  ⟨"DFE_Jg_PARAM0_RX", 0x20c, [(4, 0x40)], false, false, .dfeRxG, .none,
    [⟨0, 2, .sts, 2, []⟩, ⟨2, 4, .sts, 15, []⟩, ⟨6, 3, .sts, 7, []⟩, ⟨9, 2, .sts, 0, []⟩, ⟨11, 1, .sts, 0, []⟩]⟩,
  ⟨"DFE_Jk_PARAM0_OBS", 0x30c, [(2, 0x40)], false, false, .mgt, .none,
    [⟨0, 2, .sts, 2, []⟩, ⟨2, 4, .sts, 7, []⟩, ⟨6, 3, .sts, 3, []⟩, ⟨9, 2, .sts, 0, []⟩, ⟨11, 1, .sts, 0, []⟩]⟩,
  ⟨"DFE_Jg_PARAM1_TX", 0x110, [(4, 0x40)], false, false, .dfeTxG, .none,
    [⟨0, 4, .sts, 11, []⟩, ⟨4, 4, .sts, 11, []⟩, ⟨8, 2, .sts, 0, []⟩, ⟨10, 5, .sts, 0, []⟩]⟩,
  ⟨"DFE_Jg_PARAM1_RX", 0x210, [(4, 0x40)], false, false, .dfeRxG, .none,
    [⟨0, 4, .sts, 11, []⟩, ⟨4, 4, .sts, 11, []⟩, ⟨8, 2, .sts, 0, []⟩, ⟨10, 5, .sts, 0, []⟩]⟩,
  ⟨"DFE_Jk_PARAM1_OBS", 0x310, [(2, 0x40)], false, false, .mgt, .none,
    [⟨0, 4, .sts, 11, []⟩, ⟨4, 4, .sts, 11, []⟩, ⟨8, 2, .sts, 0, []⟩, ⟨10, 5, .sts, 0, []⟩]⟩,
  ⟨"DFE_Jg_STS_TX", 0x114, [(4, 0x40)], false, false, .dfeTxG, .none,
    [⟨0, 12, .sts, 0, []⟩, ⟨12, 1, .sts, 0, []⟩]⟩,
  ⟨"DFE_Jg_STS_RX", 0x214, [(4, 0x40)], false, false, .dfeRxG, .none,
    [⟨0, 12, .sts, 0, []⟩, ⟨12, 1, .sts, 0, []⟩]⟩,
  ⟨"DFE_Jk_STS_OBS", 0x314, [(2, 0x40)], false, false, .mgt, .none,
    [⟨0, 12, .sts, 0, []⟩, ⟨12, 1, .sts, 0, []⟩]⟩,
  ⟨"DFE_Jg_SHERR_TX", 0x118, [(4, 0x40)], true, false, .dfeTxG, .none,
    [⟨0, 32, .cnt, 0, []⟩]⟩,
  ⟨"DFE_Jg_SHERR_RX", 0x218, [(4, 0x40)], true, false, .dfeRxG, .none,
    [⟨0, 32, .cnt, 0, []⟩]⟩,
  ⟨"DFE_Jk_SHERR_OBS", 0x318, [(2, 0x40)], true, false, .mgt, .none,
    [⟨0, 32, .cnt, 0, []⟩]⟩,
  ⟨"DFE_Jg_CRCERR_TX", 0x11c, [(4, 0x40)], true, false, .dfeTxG, .none,
    [⟨0, 32, .cnt, 0, []⟩]⟩,
  ⟨"DFE_Jg_CRCERR_RX", 0x21c, [(4, 0x40)], true, false, .dfeRxG, .none,
    [⟨0, 32, .cnt, 0, []⟩]⟩,
  ⟨"DFE_Jk_CRCERR_OBS", 0x31c, [(2, 0x40)], true, false, .mgt, .none,
    [⟨0, 32, .cnt, 0, []⟩]⟩,
  ⟨"DFE_Jg_RELINK_TX", 0x120, [(4, 0x40)], true, false, .dfeTxG, .none,
    [⟨0, 32, .cnt, 0, []⟩]⟩,
  ⟨"DFE_Jg_RELINK_RX", 0x220, [(4, 0x40)], true, false, .dfeRxG, .none,
    [⟨0, 32, .cnt, 0, []⟩]⟩,
  ⟨"DFE_Jk_RELINK_OBS", 0x320, [(2, 0x40)], true, false, .mgt, .none,
    [⟨0, 32, .cnt, 0, []⟩]⟩,
  ⟨"DFE_CCc_CTL", 0x1000, [(256, 0x40)], false, false, .mgt, .cc,
    [⟨0, 1, .ctl, 0, []⟩]⟩,
  ⟨"DFE_CCc_CFG", 0x1004, [(256, 0x40)], false, false, .mgt, .cc,
    [⟨0, 2, .cfg, 0, [(3, 3)]⟩, ⟨2, 2, .cfg, 0, []⟩, ⟨4, 1, .cfg, 0, []⟩, ⟨5, 1, .cfg, 0, []⟩, ⟨6, 4, .cfg, 0, []⟩, ⟨10, 2, .cfg, 0, []⟩]⟩,
  ⟨"DFE_CCc_BW", 0x1008, [(256, 0x40)], true, false, .mgt, .cc,
    [⟨0, 20, .cfg, 0, []⟩]⟩]

/-- Register families of block DFE_, part 1. -/
def familiesDFE1 : List RegFam := [
  ⟨"DFE_CCc_OFFSET", 0x100c, [(256, 0x40)], true, false, .mgt, .cc,
    [⟨0, 32, .cfg, 0, []⟩]⟩,
  ⟨"DFE_CCc_PORTS", 0x1010, [(256, 0x40)], false, false, .mgt, .cc,
    [⟨0, 6, .cfg, 0, []⟩, ⟨6, 7, .cfg, 0, []⟩]⟩,
  ⟨"DFE_CCc_NRB", 0x1014, [(256, 0x40)], false, false, .mgt, .cc,
    [⟨0, 9, .cfg, 0, []⟩]⟩,
  ⟨"DFE_CCc_FREF", 0x1018, [(256, 0x40)], true, false, .mgt, .cc,
    [⟨0, 32, .cfg, 0, []⟩]⟩,
  ⟨"DFE_CCc_GAIN", 0x101c, [(256, 0x40)], false, false, .mgt, .cc,
    [⟨0, 12, .cfg, 2048, []⟩]⟩,
  ⟨"DFE_CCc_RXOFS", 0x1020, [(256, 0x40)], true, false, .mgt, .cc,
    [⟨0, 32, .cfg, 0, []⟩]⟩,
  ⟨"DFE_CCc_AGC", 0x1024, [(256, 0x40)], false, false, .mgt, .cc,
    [⟨0, 1, .cfg, 0, []⟩, ⟨1, 4, .cfg, 6, [(13, 15)]⟩, ⟨5, 2, .cfg, 1, []⟩]⟩,
  ⟨"DFE_CCc_RXEVT", 0x1028, [(256, 0x40)], false, false, .mgt, .cc,
    [⟨0, 12, .cfg, 2048, []⟩]⟩,
  ⟨"DFE_CCc_ZERO_SYM", 0x102c, [(256, 0x40)], true, false, .mgt, .none,
    [⟨0, 32, .cnt, 0, []⟩]⟩,
  ⟨"DFE_CCc_TXSAT", 0x1030, [(256, 0x40)], true, false, .mgt, .none,
    [⟨0, 32, .cnt, 0, []⟩]⟩,
  ⟨"DFE_CCc_RXSAT", 0x1034, [(256, 0x40)], true, false, .mgt, .none,
    [⟨0, 32, .cnt, 0, []⟩]⟩,
  ⟨"DFE_TX_t_DPD", 0x5000, [(64, 0x20)], false, false, .dfeTx16, .txChain,
    [⟨0, 1, .sts, 0, []⟩, ⟨1, 1, .sts, 0, []⟩, ⟨2, 1, .cfg, 1, []⟩, ⟨3, 2, .cfg, 0, []⟩]⟩,
  ⟨"DFE_TX_t_DPD_SEL", 0x5004, [(64, 0x20)], false, false, .dfeTx16, .none,
    [⟨0, 1, .cmd, 0, []⟩]⟩,
  ⟨"DFE_TX_t_CFR", 0x5008, [(64, 0x20)], false, false, .dfeTx16, .txChain,
    [⟨0, 11, .cfg, 2047, []⟩, ⟨11, 2, .cfg, 0, []⟩]⟩,
  ⟨"DFE_TX_t_CFR_WEIGHT", 0x500c, [(64, 0x20)], false, false, .dfeTx16, .txChain,
    [⟨0, 16, .cfg, 4369, []⟩]⟩,
  ⟨"DFE_TX_t_CFR_WEIGHT_HI", 0x5010, [(64, 0x20)], false, false, .dfeTx16, .txChain,
    [⟨0, 16, .cfg, 4369, []⟩]⟩,
  ⟨"DFE_TX_t_CLIP", 0x5014, [(64, 0x20)], true, false, .dfeTx16, .none,
    [⟨0, 32, .cnt, 0, []⟩]⟩,
  ⟨"DFE_TX_t_DPDSAT", 0x5018, [(64, 0x20)], true, false, .dfeTx16, .none,
    [⟨0, 32, .cnt, 0, []⟩]⟩,
  ⟨"DFE_TX_t_SWITCHES", 0x501c, [(64, 0x20)], true, false, .dfeTx16, .none,
    [⟨0, 32, .cnt, 0, []⟩]⟩,
  ⟨"DFE_RX_r_SAT", 0x5800, [(64, 0x10)], true, false, .dfeRx16, .none,
    [⟨0, 32, .cnt, 0, []⟩]⟩,
  ⟨"DFE_ORX_k_SETTLE", 0x5c00, [(8, 0x10)], false, false, .dfeOrx, .orx,
    [⟨0, 16, .cfg, 512, []⟩]⟩,
  ⟨"DFE_ORX_k_LAT", 0x5c04, [(8, 0x10)], false, false, .dfeOrx, .orx,
    [⟨0, 16, .cfg, 0, []⟩]⟩,
  ⟨"DFE_ORX_k_CAPS", 0x5c08, [(8, 0x10)], true, false, .dfeOrx, .none,
    [⟨0, 32, .cnt, 0, []⟩]⟩,
  ⟨"DFE_ORX_k_REFUSED", 0x5c0c, [(8, 0x10)], true, false, .dfeOrx, .none,
    [⟨0, 32, .cnt, 0, []⟩]⟩,
  ⟨"DFE_TDDn_CFG", 0x6000, [(16, 0x100)], false, false, .mgt, .tdd,
    [⟨0, 6, .cfg, 0, []⟩, ⟨6, 2, .cfg, 0, []⟩, ⟨8, 2, .cfg, 0, []⟩, ⟨10, 1, .cfg, 0, []⟩]⟩,
  ⟨"DFE_TDDn_ROW_j", 0x6004, [(16, 0x100), (40, 0x4)], true, false, .mgt, .tdd,
    [⟨0, 28, .cfg, 0, []⟩]⟩,
  ⟨"DFE_GEV_e_CTL", 0x7000, [(256, 0x10)], false, false, .mgt, .gev,
    [⟨0, 1, .ctl, 0, []⟩]⟩,
  ⟨"DFE_GEV_e_CFG", 0x7004, [(256, 0x10)], false, false, .mgt, .gev,
    [⟨0, 6, .cfg, 0, []⟩, ⟨6, 1, .cfg, 0, []⟩, ⟨7, 2, .cfg, 0, []⟩]⟩,
  ⟨"DFE_GEV_e_OFFSET", 0x7008, [(256, 0x10)], true, false, .mgt, .gev,
    [⟨0, 32, .cfg, 0, []⟩]⟩,
  ⟨"DFE_GEV_e_REP", 0x700c, [(256, 0x10)], false, false, .mgt, .gev,
    [⟨0, 8, .cfg, 0, []⟩, ⟨8, 8, .cfg, 0, []⟩]⟩,
  ⟨"DFE_GPIO_l_CFG", 0x8000, [(64, 0x10)], false, false, .mgt, .gpio,
    [⟨0, 3, .cfg, 0, [(7, 7)]⟩, ⟨3, 1, .cfg, 0, []⟩, ⟨4, 1, .cfg, 0, []⟩, ⟨5, 5, .cfg, 0, []⟩]⟩,
  ⟨"DFE_GPIO_l_LEAD", 0x8004, [(64, 0x10)], false, false, .mgt, .gpio,
    [⟨0, 16, .cfg, 0, []⟩]⟩,
  ⟨"DFE_GPIO_l_LAG", 0x8008, [(64, 0x10)], false, false, .mgt, .gpio,
    [⟨0, 16, .cfg, 0, []⟩]⟩,
  ⟨"DFE_PRACH_x_CTL", 0x9000, [(32, 0x20)], false, false, .dfeRxPrach, .prach,
    [⟨0, 1, .ctl, 0, []⟩]⟩,
  ⟨"DFE_PRACH_x_CFG", 0x9004, [(32, 0x20)], false, false, .dfeRxPrach, .prach,
    [⟨0, 8, .cfg, 0, []⟩, ⟨8, 2, .cfg, 0, [(3, 3)]⟩, ⟨10, 2, .cfg, 0, []⟩, ⟨12, 4, .cfg, 1, []⟩]⟩,
  ⟨"DFE_PRACH_x_FREQ", 0x9008, [(32, 0x20)], true, false, .dfeRxPrach, .prach,
    [⟨0, 32, .cfg, 0, []⟩]⟩]

/-- Register families of block DFE_, part 2. -/
def familiesDFE2 : List RegFam := [
  ⟨"DFE_PRACH_x_START", 0x900c, [(32, 0x20)], true, false, .dfeRxPrach, .prach,
    [⟨0, 32, .cfg, 0, []⟩]⟩,
  ⟨"DFE_PRACH_x_REP", 0x9010, [(32, 0x20)], false, false, .dfeRxPrach, .prach,
    [⟨0, 8, .cfg, 1, []⟩, ⟨8, 8, .cfg, 0, []⟩]⟩,
  ⟨"DFE_PRACH_x_CP", 0x9014, [(32, 0x20)], false, false, .dfeRxPrach, .prach,
    [⟨0, 16, .cfg, 0, []⟩]⟩,
  ⟨"DFE_PRACH_x_DEST", 0x9018, [(32, 0x20)], true, false, .dfeRxPrach, .prach,
    [⟨0, 32, .cfg, 0, []⟩]⟩,
  ⟨"DFE_PRACH_x_EVT", 0x901c, [(32, 0x20)], false, false, .dfeRxPrach, .prach,
    [⟨0, 12, .cfg, 2048, []⟩]⟩,
  ⟨"DFE_NBW_w_CTL", 0x9400, [(16, 0x10)], false, false, .dfeRxNbw, .nbw,
    [⟨0, 1, .ctl, 0, []⟩]⟩,
  ⟨"DFE_NBW_w_CHAIN", 0x9404, [(16, 0x10)], false, false, .dfeRxNbw, .nbw,
    [⟨0, 4, .cfg, 0, []⟩]⟩,
  ⟨"DFE_NBW_w_FREQ", 0x9408, [(16, 0x10)], true, false, .dfeRxNbw, .nbw,
    [⟨0, 32, .cfg, 0, []⟩]⟩,
  ⟨"DFE_IQC_r_CTL", 0xa000, [(64, 0x20)], false, false, .dfeRx16, .iqcCtl,
    [⟨0, 1, .sts, 0, []⟩, ⟨1, 1, .sts, 0, []⟩, ⟨2, 1, .cfg, 1, []⟩, ⟨3, 2, .cfg, 0, []⟩, ⟨5, 1, .sts, 0, []⟩]⟩,
  ⟨"DFE_IQC_r_SEL", 0xa004, [(64, 0x20)], false, false, .dfeRx16, .none,
    [⟨0, 1, .cmd, 0, []⟩]⟩,
  ⟨"DFE_IQC_r_b_DC", 0xa008, [(64, 0x20), (2, 0x8)], true, false, .dfeRx16, .iqcBank,
    [⟨0, 16, .cfg, 0, []⟩, ⟨16, 16, .cfg, 0, []⟩]⟩,
  ⟨"DFE_IQC_r_b_IQ", 0xa00c, [(64, 0x20), (2, 0x8)], true, false, .dfeRx16, .iqcBank,
    [⟨0, 16, .cfg, 0, []⟩, ⟨16, 16, .cfg, 0, []⟩]⟩,
  ⟨"DFE_IQC_r_SWITCHES", 0xa018, [(64, 0x20)], true, false, .dfeRx16, .none,
    [⟨0, 32, .cnt, 0, []⟩]⟩,
  ⟨"DFE_ALN_c_CTL", 0xa800, [(64, 0x20)], false, false, .mgt, .alnCtl,
    [⟨0, 1, .sts, 0, []⟩, ⟨1, 1, .sts, 0, []⟩, ⟨2, 1, .cfg, 1, []⟩, ⟨3, 2, .cfg, 0, []⟩, ⟨5, 1, .sts, 0, []⟩]⟩,
  ⟨"DFE_ALN_c_SEL", 0xa804, [(64, 0x20)], false, false, .mgt, .none,
    [⟨0, 1, .cmd, 0, []⟩]⟩,
  ⟨"DFE_ALN_c_b_RXW", 0xa808, [(64, 0x20), (2, 0x8)], true, false, .mgt, .alnBank,
    [⟨0, 16, .cfg, 16384, []⟩, ⟨16, 16, .cfg, 0, []⟩]⟩,
  ⟨"DFE_ALN_c_b_TXW", 0xa80c, [(64, 0x20), (2, 0x8)], true, false, .mgt, .alnBank,
    [⟨0, 16, .cfg, 16384, []⟩, ⟨16, 16, .cfg, 0, []⟩]⟩,
  ⟨"DFE_ALN_c_SWITCHES", 0xa818, [(64, 0x20)], true, false, .mgt, .none,
    [⟨0, 32, .cnt, 0, []⟩]⟩,
  ⟨"DFE_GEO_c", 0xb000, [(64, 0x4)], false, false, .mgt, .geo,
    [⟨0, 4, .cfg, 0, []⟩, ⟨4, 4, .cfg, 0, []⟩, ⟨8, 1, .cfg, 0, []⟩, ⟨9, 1, .cfg, 0, []⟩]⟩,
  ⟨"DFE_ALN_CFG", 0xb100, [], false, false, .mgt, .geo,
    [⟨0, 6, .cfg, 30, [(0, 9), (41, 63)]⟩]⟩,
  ⟨"DFE_CAL_DPD_HELD_LO", 0xb104, [], true, false, .mgt, .none,
    [⟨0, 32, .sts, 0, []⟩]⟩,
  ⟨"DFE_CAL_DPD_HELD_HI", 0xb108, [], true, false, .mgt, .none,
    [⟨0, 32, .sts, 0, []⟩]⟩,
  ⟨"DFE_DPD_t_b_TERM_i", 0x100000, [(64, 0x800), (2, 0x400), (64, 0x8)], false, false, .dfeTx16, .dpdBank,
    [⟨0, 4, .cfg, 0, [(10, 15)]⟩, ⟨4, 3, .cfg, 0, []⟩, ⟨7, 4, .cfg, 0, [(8, 8)]⟩, ⟨11, 3, .cfg, 0, []⟩]⟩,
  ⟨"DFE_DPD_t_b_COEF_i", 0x100004, [(64, 0x800), (2, 0x400), (64, 0x8)], true, false, .dfeTx16, .dpdBank,
    [⟨0, 16, .cfg, 0, []⟩, ⟨16, 16, .cfg, 0, []⟩]⟩]

/-- Register families of block DFE_. -/
def familiesDFE : List RegFam := familiesDFE0 ++ familiesDFE1 ++ familiesDFE2

/-- Register families of block NBB_, part 0. -/
def familiesNBB0 : List RegFam := [
  ⟨"NBB_COMP_w_SAT", 0x100, [(16, 0x4)], true, false, .nbb1, .none,
    [⟨0, 32, .cnt, 0, []⟩]⟩,
  ⟨"NBB_CHn_CTL", 0x1000, [(256, 0x40)], false, false, .nbb0, .nbch,
    [⟨0, 1, .ctl, 0, []⟩, ⟨1, 1, .ctl, 0, []⟩]⟩,
  ⟨"NBB_CHn_MOD", 0x1004, [(256, 0x40)], false, false, .nbb0, .nbch,
    [⟨0, 2, .cfg, 0, [(3, 3)]⟩, ⟨2, 1, .cfg, 1, []⟩, ⟨3, 1, .cfg, 0, []⟩, ⟨4, 8, .cfg, 0, []⟩, ⟨12, 1, .cfg, 0, []⟩]⟩,
  ⟨"NBB_CHn_RATE", 0x1008, [(256, 0x40)], true, false, .nbb0, .nbch,
    [⟨0, 20, .cfg, 0, []⟩]⟩,
  ⟨"NBB_CHn_SHAPE", 0x100c, [(256, 0x40)], false, false, .nbb0, .nbch,
    [⟨0, 7, .cfg, 50, []⟩, ⟨7, 7, .cfg, 50, []⟩]⟩,
  ⟨"NBB_CHn_OFFSET", 0x1010, [(256, 0x40)], true, false, .nbb0, .nbch,
    [⟨0, 32, .cfg, 0, []⟩]⟩,
  ⟨"NBB_CHn_DET", 0x1014, [(256, 0x40)], false, false, .nbb0, .nbch,
    [⟨0, 6, .cfg, 12, []⟩, ⟨6, 5, .cfg, 12, []⟩]⟩,
  ⟨"NBB_CHn_FMT", 0x1018, [(256, 0x40)], false, false, .nbb0, .nbch,
    [⟨0, 6, .cfg, 32, []⟩, ⟨6, 6, .cfg, 16, []⟩, ⟨12, 3, .cfg, 1, [(5, 7)]⟩, ⟨15, 1, .cfg, 0, []⟩]⟩,
  ⟨"NBB_CHn_SYNC", 0x101c, [(256, 0x40)], true, false, .nbb0, .nbch,
    [⟨0, 32, .cfg, 0, []⟩]⟩,
  ⟨"NBB_CHn_PLEN", 0x1020, [(256, 0x40)], false, false, .nbb0, .nbch,
    [⟨0, 9, .cfg, 0, []⟩]⟩,
  ⟨"NBB_CHn_QUAL", 0x1024, [(256, 0x40)], false, false, .nbb0, .nbch,
    [⟨0, 8, .cfg, 179, []⟩]⟩,
  ⟨"NBB_CHn_TX", 0x1028, [(256, 0x40)], false, false, .nbb0, .nbch,
    [⟨0, 11, .cfg, 512, []⟩]⟩,
  ⟨"NBB_CHn_GSM", 0x102c, [(256, 0x40)], false, false, .nbb0, .nbch,
    [⟨0, 16, .cfg, 0, []⟩]⟩,
  ⟨"NBB_CHn_STS", 0x1030, [(256, 0x40)], false, false, .nbb0, .none,
    [⟨0, 3, .sts, 0, []⟩, ⟨3, 1, .sts, 0, []⟩, ⟨4, 1, .sts, 0, []⟩]⟩,
  ⟨"NBB_CHn_FLOOR", 0x1034, [(256, 0x40)], false, false, .nbb0, .none,
    [⟨0, 16, .sts, 0, []⟩]⟩,
  ⟨"NBB_CHn_RSSI", 0x1038, [(256, 0x40)], false, false, .nbb0, .none,
    [⟨0, 16, .sts, 0, []⟩]⟩,
  ⟨"NBB_CHn_FALSE_CAND", 0x6000, [(256, 0x20)], true, false, .nbb0, .none,
    [⟨0, 32, .cnt, 0, []⟩]⟩,
  ⟨"NBB_CHn_LOCKS", 0x6004, [(256, 0x20)], true, false, .nbb0, .none,
    [⟨0, 32, .cnt, 0, []⟩]⟩,
  ⟨"NBB_CHn_CAP_SWITCH", 0x6008, [(256, 0x20)], true, false, .nbb0, .none,
    [⟨0, 32, .cnt, 0, []⟩]⟩,
  ⟨"NBB_CHn_CAP_LOST", 0x600c, [(256, 0x20)], true, false, .nbb0, .none,
    [⟨0, 32, .cnt, 0, []⟩]⟩,
  ⟨"NBB_CHn_TRUNC", 0x6010, [(256, 0x20)], true, false, .nbb0, .none,
    [⟨0, 32, .cnt, 0, []⟩]⟩,
  ⟨"NBB_CHn_NOBUF", 0x6014, [(256, 0x20)], true, false, .nbb0, .none,
    [⟨0, 32, .cnt, 0, []⟩]⟩,
  ⟨"NBB_CHn_TX_SENT", 0x6018, [(256, 0x20)], true, false, .nbb1, .none,
    [⟨0, 32, .cnt, 0, []⟩]⟩,
  ⟨"NBB_CHn_TX_DROP", 0x601c, [(256, 0x20)], true, false, .nbb1, .none,
    [⟨0, 32, .cnt, 0, []⟩]⟩]

/-- Register families of block NBB_. -/
def familiesNBB : List RegFam := familiesNBB0

/-- Register families of block ZTH_, part 0. -/
def familiesZTH0 : List RegFam := [
  ⟨"ZTH_BT_STS", 0x0, [], false, false, .zthP, .none,
    [⟨0, 1, .sts, 0, []⟩, ⟨1, 1, .sts, 0, []⟩]⟩,
  ⟨"ZTH_BT_ENTRIES", 0x4, [], true, false, .zthP, .none,
    [⟨0, 12, .sts, 0, []⟩]⟩,
  ⟨"ZTH_BT_IGNORED", 0x8, [], true, false, .zthP, .none,
    [⟨0, 12, .sts, 0, []⟩]⟩,
  ⟨"ZTH_ETH_p_CFG", 0x100, [(4, 0x4)], false, false, .zthP, .zthEth,
    [⟨0, 1, .cfg, 1, []⟩]⟩,
  ⟨"ZTH_TWIN_STS", 0x110, [], false, false, .zthP, .none,
    [⟨0, 2, .sts, 0, []⟩, ⟨2, 1, .sts, 0, []⟩]⟩,
  ⟨"ZTH_TWIN_FALLBACKS", 0x114, [], true, false, .zthP, .none,
    [⟨0, 32, .cnt, 0, []⟩]⟩,
  ⟨"ZTH_PCIE_STS", 0x120, [], false, false, .zthP, .none,
    [⟨0, 3, .sts, 0, []⟩, ⟨3, 4, .sts, 0, []⟩, ⟨7, 1, .sts, 0, []⟩, ⟨8, 1, .sts, 0, []⟩, ⟨9, 3, .sts, 2, []⟩]⟩,
  ⟨"ZTH_Li_CTL", 0x1000, [(112, 0x40)], false, false, .lane, .none,
    [⟨0, 2, .ctl, 0, []⟩, ⟨2, 2, .ctl, 0, []⟩, ⟨4, 2, .ctl, 0, []⟩]⟩,
  ⟨"ZTH_Li_INJ", 0x1004, [(112, 0x40)], true, false, .lane, .none,
    [⟨0, 20, .ctl, 0, [(1000001, 1048575)]⟩]⟩,
  ⟨"ZTH_Li_STS", 0x1008, [(112, 0x40)], false, false, .lane, .none,
    [⟨0, 1, .sts, 0, []⟩, ⟨1, 1, .sts, 0, []⟩, ⟨2, 1, .sts, 0, []⟩, ⟨3, 1, .sts, 0, []⟩, ⟨4, 1, .sts, 0, []⟩, ⟨5, 1, .sts, 0, []⟩, ⟨6, 1, .sts, 0, []⟩, ⟨7, 5, .sts, 0, []⟩]⟩,
  ⟨"ZTH_Li_EQ_TX", 0x100c, [(112, 0x40)], true, false, .lane, .none,
    [⟨0, 32, .sts, 0, []⟩]⟩,
  ⟨"ZTH_Li_EQ_RX", 0x1010, [(112, 0x40)], true, false, .lane, .none,
    [⟨0, 32, .sts, 0, []⟩]⟩,
  ⟨"ZTH_Li_CHK_ERR", 0x1014, [(112, 0x40)], true, false, .lane, .none,
    [⟨0, 32, .cnt, 0, []⟩]⟩,
  ⟨"ZTH_Li_CHK_MBITS", 0x1018, [(112, 0x40)], true, false, .lane, .none,
    [⟨0, 32, .cnt, 0, []⟩]⟩,
  ⟨"ZTH_Li_INJECTED", 0x101c, [(112, 0x40)], true, false, .lane, .none,
    [⟨0, 32, .cnt, 0, []⟩]⟩,
  ⟨"ZTH_Li_LOCK_LOSS", 0x1020, [(112, 0x40)], true, false, .lane, .none,
    [⟨0, 32, .cnt, 0, []⟩]⟩,
  ⟨"ZTH_Li_EYE", 0x1024, [(112, 0x40)], true, false, .lane, .none,
    [⟨0, 16, .sts, 0, []⟩, ⟨16, 16, .sts, 0, []⟩]⟩,
  ⟨"ZTH_Li_SPC_CTL", 0x1028, [(112, 0x40)], false, false, .lane, .lane,
    [⟨0, 1, .sts, 0, []⟩, ⟨1, 1, .sts, 0, []⟩, ⟨2, 2, .cfg, 0, []⟩, ⟨4, 1, .sts, 0, []⟩]⟩,
  ⟨"ZTH_Li_SPC_SEL", 0x102c, [(112, 0x40)], false, false, .lane, .none,
    [⟨0, 1, .cmd, 0, []⟩]⟩,
  ⟨"ZTH_Li_SPC_b", 0x1030, [(112, 0x40), (2, 0x4)], false, false, .lane, .spcBank,
    [⟨0, 7, .cfg, 0, [(32, 95)]⟩, ⟨8, 8, .cfg, 0, []⟩]⟩,
  ⟨"ZTH_Li_SWITCHES", 0x1038, [(112, 0x40)], true, false, .lane, .none,
    [⟨0, 32, .cnt, 0, []⟩]⟩]

/-- Register families of block ZTH_. -/
def familiesZTH : List RegFam := familiesZTH0

/-- Register families of block ETH_, part 0. -/
def familiesETH0 : List RegFam := [
  ⟨"ETH_Pp_CTL", 0x0, [(4, 0x40)], false, false, .zthE, .ethPort,
    [⟨0, 1, .ctl, 0, []⟩]⟩,
  ⟨"ETH_Pp_CFG", 0x4, [(4, 0x40)], false, false, .zthE, .ethPort,
    [⟨0, 2, .cfg, 0, [(3, 3)]⟩]⟩,
  ⟨"ETH_Pp_FRAME_MAX", 0x8, [(4, 0x40)], false, false, .zthE, .ethPort,
    [⟨0, 14, .cfg, 1518, [(0, 63), (9217, 16383)]⟩]⟩,
  ⟨"ETH_Pp_STS", 0xc, [(4, 0x40)], false, false, .zthE, .none,
    [⟨0, 4, .sts, 0, []⟩]⟩,
  ⟨"ETH_Lk_MAC_HI", 0x400, [(16, 0x40)], false, false, .zthEk, .ethLink,
    [⟨0, 16, .cfg, 0, []⟩]⟩,
  ⟨"ETH_Lk_MAC_LO", 0x404, [(16, 0x40)], true, false, .zthEk, .ethLink,
    [⟨0, 32, .cfg, 0, []⟩]⟩,
  ⟨"ETH_Lk_TXLAT", 0x408, [(16, 0x40)], true, false, .zthEk, .ethLink,
    [⟨0, 32, .cfg, 12416, []⟩]⟩,
  ⟨"ETH_Lk_RXLAT", 0x40c, [(16, 0x40)], true, false, .zthEk, .ethLink,
    [⟨0, 32, .cfg, 28800, []⟩]⟩,
  ⟨"ETH_Lk_RX_SKEW", 0x410, [(16, 0x40)], true, false, .zthEk, .none,
    [⟨0, 16, .sts, 0, []⟩]⟩,
  ⟨"ETH_Lk_MSEC", 0x414, [(16, 0x40)], false, false, .zthEk, .ethLink,
    [⟨0, 1, .cfg, 0, []⟩, ⟨1, 1, .cfg, 1, []⟩, ⟨2, 2, .cfg, 2, [(3, 3)]⟩, ⟨4, 1, .cfg, 0, []⟩, ⟨5, 1, .sts, 0, []⟩]⟩,
  ⟨"ETH_Lk_TX_FRAMES", 0x418, [(16, 0x40)], true, false, .zthEk, .none,
    [⟨0, 32, .cnt, 0, []⟩]⟩,
  ⟨"ETH_Lk_RX_FRAMES", 0x41c, [(16, 0x40)], true, false, .zthEk, .none,
    [⟨0, 32, .cnt, 0, []⟩]⟩,
  ⟨"ETH_Lk_RX_FCS", 0x420, [(16, 0x40)], true, false, .zthEk, .none,
    [⟨0, 32, .cnt, 0, []⟩]⟩,
  ⟨"ETH_Lk_RX_MALFORMED", 0x424, [(16, 0x40)], true, false, .zthEk, .none,
    [⟨0, 32, .cnt, 0, []⟩]⟩,
  ⟨"ETH_Lk_RX_LATE", 0x428, [(16, 0x40)], true, false, .zthEk, .none,
    [⟨0, 32, .cnt, 0, []⟩]⟩,
  ⟨"ETH_Lk_RX_EARLY", 0x42c, [(16, 0x40)], true, false, .zthEk, .none,
    [⟨0, 32, .cnt, 0, []⟩]⟩,
  ⟨"ETH_Lk_RX_OTHER", 0x430, [(16, 0x40)], true, false, .zthEk, .none,
    [⟨0, 32, .cnt, 0, []⟩]⟩,
  ⟨"ETH_Lk_MSEC_BAD", 0x434, [(16, 0x40)], true, false, .zthEk, .none,
    [⟨0, 32, .cnt, 0, []⟩]⟩,
  ⟨"ETH_Lk_TX_LATE", 0x438, [(16, 0x40)], true, false, .zthEk, .none,
    [⟨0, 32, .cnt, 0, []⟩]⟩,
  ⟨"ETH_Lk_PN_STOP", 0x43c, [(16, 0x40)], true, false, .zthEk, .none,
    [⟨0, 32, .cnt, 0, []⟩]⟩,
  ⟨"ETH_Lk_RX_SEQ_GAP", 0x800, [(16, 0x8)], true, false, .zthEk, .none,
    [⟨0, 32, .cnt, 0, []⟩]⟩,
  ⟨"ETH_Lk_RX_DUP", 0x804, [(16, 0x8)], true, false, .zthEk, .none,
    [⟨0, 32, .cnt, 0, []⟩]⟩,
  ⟨"ETH_TSQ_p_CTL", 0x900, [(4, 0x40)], false, false, .zthE, .none,
    [⟨0, 1, .cmd, 0, []⟩]⟩,
  ⟨"ETH_TSQ_p_STS", 0x904, [(4, 0x40)], false, false, .zthE, .none,
    [⟨0, 6, .sts, 0, []⟩, ⟨6, 1, .sts, 0, []⟩]⟩,
  ⟨"ETH_TSQ_p_HEAD", 0x908, [(4, 0x40)], false, false, .zthE, .none,
    [⟨0, 16, .sts, 65535, []⟩]⟩,
  ⟨"ETH_TSQ_p_HEAD_INFO", 0x90c, [(4, 0x40)], false, false, .zthE, .none,
    [⟨0, 1, .sts, 0, []⟩, ⟨1, 4, .sts, 0, []⟩, ⟨5, 2, .sts, 0, []⟩]⟩,
  ⟨"ETH_TSQ_p_HEAD_TS_i", 0x910, [(4, 0x40), (4, 0x4)], true, false, .zthE, .none,
    [⟨0, 32, .sts, 0, []⟩]⟩,
  ⟨"ETH_TSQ_p_PUSHED", 0x920, [(4, 0x40)], true, false, .zthE, .none,
    [⟨0, 32, .cnt, 0, []⟩]⟩,
  ⟨"ETH_TSQ_p_POPPED", 0x924, [(4, 0x40)], true, false, .zthE, .none,
    [⟨0, 32, .cnt, 0, []⟩]⟩,
  ⟨"ETH_TSQ_p_DROPPED", 0x928, [(4, 0x40)], true, false, .zthE, .none,
    [⟨0, 32, .cnt, 0, []⟩]⟩,
  ⟨"ETH_MQ_p_TXq_BASE", 0xc00, [(4, 0x80), (5, 0x10)], true, false, .zthE, .ethMq,
    [⟨6, 26, .cfg, 0, []⟩]⟩,
  ⟨"ETH_MQ_p_TXq_CTL", 0xc04, [(4, 0x80), (5, 0x10)], false, false, .zthE, .ethMq,
    [⟨0, 1, .ctl, 0, []⟩, ⟨1, 4, .cfg, 4, []⟩, ⟨5, 8, .cfg, 0, []⟩]⟩,
  ⟨"ETH_MQ_p_TXq_TAIL", 0xc08, [(4, 0x80), (4, 0x10)], false, false, .zthE, .none,
    [⟨0, 12, .ctl, 0, []⟩]⟩,
  ⟨"ETH_MQ_p_TXq_HEAD", 0xc0c, [(4, 0x80), (4, 0x10)], false, false, .zthE, .none,
    [⟨0, 12, .sts, 0, []⟩]⟩,
  ⟨"ETH_MQ_p_RX_TAIL", 0xc48, [(4, 0x80)], false, false, .zthE, .none,
    [⟨0, 12, .sts, 0, []⟩]⟩,
  ⟨"ETH_MQ_p_RX_HEAD", 0xc4c, [(4, 0x80)], false, false, .zthE, .none,
    [⟨0, 12, .ctl, 0, []⟩]⟩]

/-- Register families of block ETH_, part 1. -/
def familiesETH1 : List RegFam := [
  ⟨"ETH_MQ_p_RX_DROP", 0xc50, [(4, 0x80)], true, false, .zthE, .none,
    [⟨0, 32, .cnt, 0, []⟩]⟩,
  ⟨"ETH_MQ_p_RX_EVT", 0xc54, [(4, 0x80)], false, false, .zthE, .ethMqRx,
    [⟨0, 12, .cfg, 0, []⟩, ⟨12, 2, .cfg, 0, []⟩]⟩,
  ⟨"ETH_CCc_CTL", 0x1000, [(256, 0x40)], false, false, .zthP, .ethCC,
    [⟨0, 1, .ctl, 0, []⟩]⟩,
  ⟨"ETH_CCc_CFG", 0x1004, [(256, 0x40)], false, false, .zthP, .ethCC,
    [⟨0, 2, .cfg, 0, [(3, 3)]⟩, ⟨2, 2, .cfg, 0, []⟩, ⟨4, 1, .cfg, 0, []⟩, ⟨5, 1, .cfg, 0, []⟩, ⟨6, 4, .cfg, 0, []⟩, ⟨10, 2, .cfg, 0, []⟩]⟩,
  ⟨"ETH_CCc_PORTS", 0x1008, [(256, 0x40)], false, false, .zthP, .ethCC,
    [⟨0, 9, .cfg, 0, []⟩, ⟨9, 7, .cfg, 0, []⟩]⟩,
  ⟨"ETH_CCc_NRB", 0x100c, [(256, 0x40)], false, false, .zthP, .ethCC,
    [⟨0, 9, .cfg, 0, []⟩]⟩,
  ⟨"ETH_CCc_RXEVT", 0x1010, [(256, 0x40)], false, false, .zthP, .ethCC,
    [⟨0, 12, .cfg, 2048, []⟩]⟩,
  ⟨"ETH_CCc_ZERO_SYM", 0x1014, [(256, 0x40)], true, false, .zthP, .none,
    [⟨0, 32, .cnt, 0, []⟩]⟩,
  ⟨"ETH_CCc_UL_MISSING", 0x1018, [(256, 0x40)], true, false, .zthP, .none,
    [⟨0, 32, .cnt, 0, []⟩]⟩,
  ⟨"ETH_CCc_DLSAT", 0x101c, [(256, 0x40)], true, false, .zthP, .none,
    [⟨0, 32, .cnt, 0, []⟩]⟩,
  ⟨"ETH_RAD_r_MAC_HI", 0x5800, [(64, 0x20)], false, false, .zthP, .ethRad,
    [⟨0, 16, .cfg, 0, []⟩]⟩,
  ⟨"ETH_RAD_r_MAC_LO", 0x5804, [(64, 0x20)], true, false, .zthP, .ethRad,
    [⟨0, 32, .cfg, 0, []⟩]⟩,
  ⟨"ETH_RAD_r_VLAN", 0x5808, [(64, 0x20)], false, false, .zthP, .ethRad,
    [⟨0, 12, .cfg, 0, []⟩, ⟨12, 3, .cfg, 0, []⟩, ⟨15, 1, .cfg, 0, []⟩]⟩,
  ⟨"ETH_RAD_r_DLADV", 0x580c, [(64, 0x20)], true, false, .zthP, .ethRad,
    [⟨0, 20, .cfg, 0, []⟩]⟩,
  ⟨"ETH_RAD_r_ULLATE", 0x5810, [(64, 0x20)], true, false, .zthP, .ethRad,
    [⟨0, 20, .cfg, 0, []⟩]⟩,
  ⟨"ETH_ST_s_CFG", 0x6000, [(384, 0x10)], false, false, .zthP, .ethSt,
    [⟨0, 4, .cfg, 0, []⟩, ⟨4, 6, .cfg, 0, []⟩, ⟨10, 1, .cfg, 0, []⟩, ⟨11, 1, .cfg, 0, []⟩]⟩,
  ⟨"ETH_ST_s_EAXC", 0x6004, [(384, 0x10)], false, false, .zthP, .ethSt,
    [⟨0, 16, .cfg, 0, []⟩]⟩,
  ⟨"ETH_ST_s_COMP", 0x6008, [(384, 0x10)], false, false, .zthP, .ethSt,
    [⟨0, 4, .cfg, 9, [(0, 6), (13, 15)]⟩, ⟨4, 4, .cfg, 9, [(0, 6), (13, 15)]⟩, ⟨8, 3, .cfg, 4, [(5, 7)]⟩]⟩]

/-- Register families of block ETH_. -/
def familiesETH : List RegFam := familiesETH0 ++ familiesETH1

/-- Register families of block TMU_, part 0. -/
def familiesTMU0 : List RegFam := [
  ⟨"TMU_SNAP_CTL", 0x0, [], false, false, .mgt, .none,
    [⟨0, 1, .cmd, 0, []⟩]⟩,
  ⟨"TMU_SNAP_i", 0x4, [(4, 0x4)], true, false, .mgt, .none,
    [⟨0, 32, .sts, 0, []⟩]⟩,
  ⟨"TMU_INC_CTL", 0x14, [], false, false, .mgt, .none,
    [⟨0, 1, .sts, 0, []⟩, ⟨1, 1, .sts, 0, []⟩, ⟨2, 1, .cmd, 0, []⟩, ⟨3, 1, .sts, 0, []⟩]⟩,
  ⟨"TMU_INC_b_NS", 0x18, [(2, 0x8)], false, false, .mgt, .tmuInc,
    [⟨0, 8, .cfg, 4, []⟩]⟩,
  ⟨"TMU_INC_b_FRAC", 0x1c, [(2, 0x8)], true, false, .mgt, .tmuInc,
    [⟨0, 32, .cfg, 296397483, []⟩]⟩,
  ⟨"TMU_STEP_LO", 0x28, [], true, false, .mgt, .none,
    [⟨0, 32, .ctl, 0, []⟩]⟩,
  ⟨"TMU_STEP_HI", 0x2c, [], true, false, .mgt, .none,
    [⟨0, 32, .ctl, 0, []⟩]⟩,
  ⟨"TMU_STEP_CMD", 0x30, [], false, false, .mgt, .none,
    [⟨0, 1, .cmd, 0, []⟩]⟩,
  ⟨"TMU_QUALITY", 0x34, [], false, false, .mgt, .none,
    [⟨0, 3, .sts, 0, []⟩]⟩,
  ⟨"TMU_RCSW_i", 0x38, [(4, 0x4)], true, false, .mgt, .none,
    [⟨0, 32, .sts, 0, []⟩]⟩,
  ⟨"TMU_UTC_OFS", 0x48, [], false, false, .mgt, .timeOut,
    [⟨0, 16, .cfg, 37, []⟩]⟩,
  ⟨"TMU_AIR_EPOCH_LO", 0x4c, [], true, false, .mgt, .timeOut,
    [⟨0, 32, .cfg, 315964819, []⟩]⟩,
  ⟨"TMU_AIR_EPOCH_HI", 0x50, [], true, false, .mgt, .timeOut,
    [⟨0, 32, .cfg, 0, []⟩]⟩,
  ⟨"TMU_PPS_OUT", 0x54, [], false, false, .mgt, .timeOut,
    [⟨0, 1, .ctl, 0, []⟩, ⟨1, 9, .cfg, 100, []⟩]⟩,
  ⟨"TMU_PPS_OFS", 0x58, [], true, false, .mgt, .timeOut,
    [⟨0, 32, .cfg, 0, []⟩]⟩,
  ⟨"TMU_PPS_IN_DLY", 0x5c, [], true, false, .mgt, .timeOut,
    [⟨0, 32, .cfg, 0, []⟩]⟩,
  ⟨"TMU_PPS_IN_i", 0x60, [(4, 0x4)], true, false, .mgt, .none,
    [⟨0, 32, .sts, 0, []⟩]⟩,
  ⟨"TMU_PPS_IN_CNT", 0x70, [], true, false, .mgt, .none,
    [⟨0, 32, .cnt, 0, []⟩]⟩,
  ⟨"TMU_TOD_CFG", 0x74, [], false, false, .mgt, .timeOut,
    [⟨0, 1, .cfg, 0, []⟩, ⟨1, 1, .ctl, 0, []⟩]⟩,
  ⟨"TMU_SYNCE", 0x78, [], false, false, .mgt, .timeOut,
    [⟨0, 2, .cfg, 0, []⟩, ⟨2, 1, .ctl, 0, []⟩]⟩,
  ⟨"TMU_HOLD_LIMIT", 0x7c, [], true, false, .mgt, .timeOut,
    [⟨0, 32, .cfg, 14400, []⟩]⟩,
  ⟨"TMU_TLn_CTL", 0x200, [(4, 0x20)], false, false, .mgt, .tl,
    [⟨0, 1, .ctl, 0, []⟩]⟩,
  ⟨"TMU_TLn_CFG", 0x204, [(4, 0x20)], false, false, .mgt, .tl,
    [⟨0, 2, .cfg, 0, [(3, 3)]⟩]⟩,
  ⟨"TMU_TLn_PERIOD", 0x208, [(4, 0x20)], true, false, .mgt, .tl,
    [⟨0, 32, .cfg, 0, []⟩]⟩,
  ⟨"TMU_TLn_DEN", 0x20c, [(4, 0x20)], false, false, .mgt, .tl,
    [⟨0, 8, .cfg, 1, []⟩]⟩,
  ⟨"TMU_TLn_OFFSET", 0x210, [(4, 0x20)], true, false, .mgt, .tl,
    [⟨0, 30, .cfg, 0, []⟩]⟩,
  ⟨"TMU_TLn_STS", 0x214, [(4, 0x20)], false, false, .mgt, .none,
    [⟨0, 1, .sts, 0, []⟩, ⟨1, 1, .sts, 0, []⟩]⟩,
  ⟨"TMU_TLn_PNUM", 0x218, [(4, 0x20)], false, false, .mgt, .none,
    [⟨0, 16, .sts, 0, []⟩]⟩,
  ⟨"TMU_TLn_MISSED", 0x21c, [(4, 0x20)], true, false, .mgt, .none,
    [⟨0, 32, .cnt, 0, []⟩]⟩]

/-- Register families of block TMU_. -/
def familiesTMU : List RegFam := familiesTMU0

/-- Register families of block MEM_, part 0. -/
def familiesMEM0 : List RegFam := [
  ⟨"MEM_CTL", 0x0, [], false, false, .mgt, .memCtl,
    [⟨0, 1, .ctl, 0, []⟩, ⟨1, 1, .cfg, 0, []⟩, ⟨2, 4, .cfg, 0, []⟩]⟩,
  ⟨"MEM_SCRUB", 0x4, [], false, false, .mgt, .memCtl,
    [⟨0, 8, .cfg, 24, []⟩]⟩,
  ⟨"MEM_REC_BASE", 0x8, [], true, false, .mgt, .memRec,
    [⟨0, 20, .cfg, 0, []⟩]⟩,
  ⟨"MEM_REC_SIZE", 0xc, [], true, false, .mgt, .memRec,
    [⟨0, 15, .cfg, 0, []⟩]⟩,
  ⟨"MEM_FW_CTL", 0x10, [], false, false, .mgt, .memFw,
    [⟨0, 1, .ctl, 0, []⟩, ⟨1, 1, .cfg, 0, []⟩]⟩,
  ⟨"MEM_FW_REFUSED", 0x14, [], true, false, .mgt, .none,
    [⟨0, 32, .cnt, 0, []⟩]⟩,
  ⟨"MEM_FW_ADDR", 0x18, [], true, false, .mgt, .none,
    [⟨0, 32, .sts, 0, []⟩]⟩,
  ⟨"MEM_FW_INFO", 0x1c, [], false, false, .mgt, .none,
    [⟨0, 8, .sts, 0, []⟩, ⟨8, 5, .sts, 0, []⟩, ⟨13, 1, .sts, 0, []⟩, ⟨14, 1, .sts, 0, []⟩]⟩,
  ⟨"MEM_CHk_CFG", 0x100, [(4, 0x40)], false, false, .memCh, .memCtl,
    [⟨0, 2, .cfg, 0, [(3, 3)]⟩, ⟨2, 1, .cfg, 0, []⟩, ⟨3, 2, .cfg, 0, [(3, 3)]⟩, ⟨5, 1, .cfg, 0, []⟩]⟩,
  ⟨"MEM_CHk_STS", 0x104, [(4, 0x40)], false, false, .memCh, .none,
    [⟨0, 1, .sts, 0, []⟩, ⟨1, 1, .sts, 0, []⟩]⟩,
  ⟨"MEM_CHk_CE", 0x108, [(4, 0x40)], true, false, .memCh, .none,
    [⟨0, 32, .cnt, 0, []⟩]⟩,
  ⟨"MEM_CHk_UE", 0x10c, [(4, 0x40)], true, false, .memCh, .none,
    [⟨0, 32, .cnt, 0, []⟩]⟩,
  ⟨"MEM_CHk_POISON_RD", 0x110, [(4, 0x40)], true, false, .memCh, .none,
    [⟨0, 32, .cnt, 0, []⟩]⟩,
  ⟨"MEM_CHk_ERR_ADDR", 0x114, [(4, 0x40)], true, false, .memCh, .none,
    [⟨0, 32, .sts, 0, []⟩]⟩,
  ⟨"MEM_CHk_ERR_INFO", 0x118, [(4, 0x40)], false, false, .memCh, .none,
    [⟨0, 8, .sts, 0, []⟩, ⟨8, 1, .sts, 0, []⟩, ⟨9, 4, .sts, 0, []⟩]⟩,
  ⟨"MEM_CHk_SCRUB_PASSES", 0x11c, [(4, 0x40)], true, false, .memCh, .none,
    [⟨0, 32, .cnt, 0, []⟩]⟩,
  ⟨"MEM_HARQ_p_BASE_LO", 0x600, [(2, 0x20)], true, false, .mgt, .harq,
    [⟨12, 20, .cfg, 0, []⟩]⟩,
  ⟨"MEM_HARQ_p_BASE_HI", 0x604, [(2, 0x20)], false, false, .mgt, .harq,
    [⟨0, 8, .cfg, 0, []⟩]⟩,
  ⟨"MEM_HARQ_p_COUNT", 0x608, [(2, 0x20)], true, false, .mgt, .harq,
    [⟨0, 17, .cfg, 0, []⟩]⟩,
  ⟨"MEM_HARQ_p_SLOT", 0x60c, [(2, 0x20)], false, false, .mgt, .none,
    [⟨0, 16, .ctl, 0, []⟩]⟩,
  ⟨"MEM_HARQ_p_OP", 0x610, [(2, 0x20)], false, false, .mgt, .none,
    [⟨0, 2, .cmd, 0, [(3, 3)]⟩]⟩,
  ⟨"MEM_HARQ_p_FREE", 0x614, [(2, 0x20)], true, false, .mgt, .none,
    [⟨0, 17, .sts, 0, []⟩]⟩,
  ⟨"MEM_HARQ_p_USED", 0x618, [(2, 0x20)], true, false, .mgt, .none,
    [⟨0, 17, .sts, 0, []⟩]⟩,
  ⟨"MEM_HARQ_p_REFUSED", 0x61c, [(2, 0x20)], true, false, .mgt, .none,
    [⟨0, 32, .cnt, 0, []⟩]⟩,
  ⟨"MEM_FWr_BASE", 0x1000, [(64, 0x20)], true, false, .mgt, .memFwR,
    [⟨0, 28, .cfg, 0, []⟩]⟩,
  ⟨"MEM_FWr_LIMIT", 0x1004, [(64, 0x20)], true, false, .mgt, .memFwR,
    [⟨0, 28, .cfg, 0, []⟩]⟩,
  ⟨"MEM_FWr_RD", 0x1008, [(64, 0x20)], true, false, .mgt, .memFwR,
    [⟨0, 28, .cfg, 0, []⟩]⟩,
  ⟨"MEM_FWr_WR", 0x100c, [(64, 0x20)], true, false, .mgt, .memFwR,
    [⟨0, 28, .cfg, 0, []⟩]⟩,
  ⟨"MEM_FWr_CTL", 0x1010, [(64, 0x20)], false, false, .mgt, .memFwR,
    [⟨0, 1, .cfg, 0, []⟩]⟩]

/-- Register families of block MEM_. -/
def familiesMEM : List RegFam := familiesMEM0

/-- Register families of block CBF_, part 0. -/
def familiesCBF0 : List RegFam := [
  ⟨"CBF_FREE", 0x0, [], true, false, .mgt, .none,
    [⟨0, 15, .sts, 16384, []⟩]⟩,
  ⟨"CBF_ALLOCATED", 0x4, [], true, false, .mgt, .none,
    [⟨0, 15, .sts, 0, []⟩]⟩,
  ⟨"CBF_BUFFERS", 0x8, [], true, false, .mgt, .none,
    [⟨0, 11, .sts, 0, []⟩]⟩,
  ⟨"CBF_FREE_ACCESS", 0xc, [], true, false, .mgt, .none,
    [⟨0, 32, .cnt, 0, []⟩]⟩,
  ⟨"CBF_CE", 0x10, [], true, false, .mgt, .none,
    [⟨0, 32, .cnt, 0, []⟩]⟩,
  ⟨"CBF_UE", 0x14, [], true, false, .mgt, .none,
    [⟨0, 32, .cnt, 0, []⟩]⟩,
  ⟨"CBF_POISON_RD", 0x18, [], true, false, .mgt, .none,
    [⟨0, 32, .cnt, 0, []⟩]⟩,
  ⟨"CBF_ERR_ADDR", 0x1c, [], true, false, .mgt, .none,
    [⟨0, 26, .sts, 0, []⟩, ⟨26, 1, .sts, 0, []⟩]⟩]

/-- Register families of block CBF_. -/
def familiesCBF : List RegFam := familiesCBF0

/-- Register families of block CKR_, part 0. -/
def familiesCKR0 : List RegFam := [
  ⟨"CKR_PLL_STS", 0x0, [], false, false, .aon, .none,
    [⟨0, 1, .sts, 0, []⟩, ⟨1, 1, .sts, 0, []⟩, ⟨2, 1, .sts, 0, []⟩, ⟨3, 1, .sts, 0, []⟩, ⟨4, 1, .sts, 0, []⟩, ⟨5, 1, .sts, 0, []⟩, ⟨6, 1, .sts, 0, []⟩]⟩,
  ⟨"CKR_REF_STS", 0x4, [], false, false, .aon, .none,
    [⟨0, 5, .sts, 0, []⟩]⟩,
  ⟨"CKR_REF_LOSS_k", 0x10, [(5, 0x4)], true, false, .aon, .none,
    [⟨0, 32, .cnt, 0, []⟩]⟩,
  ⟨"CKR_RESET_CAUSE", 0x40, [], false, false, .aon, .none,
    [⟨0, 2, .sts, 0, []⟩, ⟨2, 4, .sts, 0, []⟩]⟩,
  ⟨"CKR_RESETS_t", 0x54, [(4, 0x4)], true, false, .aon, .none,
    [⟨0, 32, .cnt, 0, []⟩]⟩]

/-- Register families of block CKR_. -/
def familiesCKR : List RegFam := familiesCKR0

/-- Register families of block PMU_, part 0. -/
def familiesPMU0 : List RegFam := [
  ⟨"PMU_STS", 0x0, [], false, false, .aon, .none,
    [⟨0, 1, .sts, 0, []⟩, ⟨1, 7, .sts, 0, []⟩]⟩,
  ⟨"PMU_SWITCH_ONS", 0x4, [], true, false, .aon, .none,
    [⟨0, 32, .cnt, 0, []⟩]⟩,
  ⟨"PMU_PARKS", 0x8, [], true, false, .aon, .none,
    [⟨0, 32, .cnt, 0, []⟩]⟩,
  ⟨"PMU_PARK_MS", 0xc, [], true, false, .aon, .none,
    [⟨0, 32, .cnt, 0, []⟩]⟩,
  ⟨"PMU_PDd_STS", 0x100, [(80, 0x10)], false, false, .aon, .none,
    [⟨0, 3, .sts, 3, []⟩, ⟨3, 1, .sts, 0, []⟩]⟩,
  ⟨"PMU_PDd_REFUSED", 0x104, [(80, 0x10)], true, false, .aon, .none,
    [⟨0, 32, .cnt, 0, []⟩]⟩,
  ⟨"PMU_PDd_LAST", 0x108, [(80, 0x10)], false, false, .aon, .none,
    [⟨0, 8, .sts, 0, []⟩, ⟨8, 8, .sts, 0, []⟩]⟩,
  ⟨"PMU_PDd_TRANSITIONS", 0x10c, [(80, 0x10)], true, false, .aon, .none,
    [⟨0, 32, .cnt, 0, []⟩]⟩]

/-- Register families of block PMU_. -/
def familiesPMU : List RegFam := familiesPMU0

/-- Register families of block THM_, part 0. -/
def familiesTHM0 : List RegFam := [
  ⟨"THM_STS", 0x0, [], false, false, .aon, .none,
    [⟨0, 2, .sts, 0, []⟩, ⟨2, 6, .sts, 0, []⟩, ⟨8, 1, .sts, 0, []⟩]⟩,
  ⟨"THM_HOTTEST", 0x4, [], false, false, .aon, .none,
    [⟨0, 12, .sts, 0, []⟩]⟩,
  ⟨"THM_PEAK", 0x8, [], false, false, .aon, .none,
    [⟨0, 12, .sts, 0, []⟩]⟩,
  ⟨"THM_THROTTLE", 0xc, [], false, false, .aon, .none,
    [⟨0, 4, .ctl, 6, [(9, 15)]⟩, ⟨4, 4, .ctl, 4, [(9, 15)]⟩, ⟨8, 4, .sts, 8, []⟩]⟩,
  ⟨"THM_BROKEN_LO", 0x10, [], true, false, .aon, .none,
    [⟨0, 32, .sts, 0, []⟩]⟩,
  ⟨"THM_BROKEN_HI", 0x14, [], true, false, .aon, .none,
    [⟨0, 28, .sts, 0, []⟩]⟩,
  ⟨"THM_WARNINGS", 0x18, [], true, false, .aon, .none,
    [⟨0, 32, .cnt, 0, []⟩]⟩,
  ⟨"THM_THROTTLES", 0x1c, [], true, false, .aon, .none,
    [⟨0, 32, .cnt, 0, []⟩]⟩,
  ⟨"THM_SHUTDOWNS", 0x20, [], true, false, .aon, .none,
    [⟨0, 32, .cnt, 0, []⟩]⟩,
  ⟨"THM_HIST_b", 0x30, [(4, 0x4)], true, false, .aon, .none,
    [⟨0, 32, .cnt, 0, []⟩]⟩,
  ⟨"THM_DEGSEC_LO", 0x40, [], true, false, .aon, .none,
    [⟨0, 32, .cnt, 0, []⟩]⟩,
  ⟨"THM_DEGSEC_HI", 0x44, [], true, false, .aon, .none,
    [⟨0, 32, .cnt, 0, []⟩]⟩,
  ⟨"THM_AVS_MV", 0x50, [], false, false, .aon, .none,
    [⟨0, 12, .sts, 0, []⟩]⟩,
  ⟨"THM_AVS_TARGET", 0x54, [], false, false, .aon, .none,
    [⟨0, 8, .ctl, 40, []⟩]⟩,
  ⟨"THM_TS_i", 0x100, [(60, 0x4)], false, false, .aon, .none,
    [⟨0, 12, .sts, 0, []⟩, ⟨12, 1, .sts, 0, []⟩]⟩,
  ⟨"THM_RAW_i", 0x200, [(60, 0x4)], false, false, .aon, .none,
    [⟨0, 12, .sts, 0, []⟩]⟩,
  ⟨"THM_TRIM_i", 0x300, [(60, 0x4)], false, true, .aon, .none,
    [⟨0, 8, .ctl, 0, []⟩]⟩,
  ⟨"THM_AM_k", 0x400, [(24, 0x4)], false, false, .aon, .none,
    [⟨0, 10, .sts, 0, []⟩]⟩,
  ⟨"THM_UNLOCK", 0x480, [], true, false, .aon, .none,
    [⟨0, 32, .key, 0, []⟩]⟩]

/-- Register families of block THM_. -/
def familiesTHM : List RegFam := familiesTHM0

/-- Register families of block OBS_, part 0. -/
def familiesOBS0 : List RegFam := [
  ⟨"OBS_SNAP_CTL", 0x400, [], false, false, .obs, .none,
    [⟨0, 1, .cmd, 0, []⟩]⟩,
  ⟨"OBS_SNAP_STS", 0x404, [], false, false, .obs, .none,
    [⟨0, 1, .sts, 0, []⟩, ⟨1, 1, .sts, 0, []⟩, ⟨2, 1, .sts, 0, []⟩, ⟨3, 1, .sts, 0, []⟩]⟩,
  ⟨"OBS_SNAP_SEQ", 0x408, [], true, false, .obs, .none,
    [⟨0, 32, .cnt, 0, []⟩]⟩,
  ⟨"OBS_SNAP_REFUSED", 0x40c, [], true, false, .obs, .none,
    [⟨0, 32, .cnt, 0, []⟩]⟩,
  ⟨"OBS_REC_STS", 0x800, [], false, false, .obs, .none,
    [⟨0, 2, .sts, 0, []⟩, ⟨2, 1, .sts, 0, []⟩]⟩,
  ⟨"OBS_REC_TRIG", 0x804, [], false, false, .obs, .obsRec,
    [⟨0, 6, .cfg, 0, []⟩]⟩,
  ⟨"OBS_REC_POST", 0x808, [], false, false, .obs, .obsRec,
    [⟨0, 8, .cfg, 0, []⟩, ⟨8, 8, .cfg, 1, [(0, 0)]⟩]⟩,
  ⟨"OBS_REC_WIN", 0x80c, [], false, false, .obs, .none,
    [⟨0, 10, .ctl, 0, []⟩]⟩,
  ⟨"OBS_REC_LOST", 0x810, [], true, false, .obs, .none,
    [⟨0, 32, .cnt, 0, []⟩]⟩,
  ⟨"OBS_REC_TRIGGERS", 0x814, [], true, false, .obs, .none,
    [⟨0, 32, .cnt, 0, []⟩]⟩]

/-- Register families of block OBS_. -/
def familiesOBS : List RegFam := familiesOBS0

/-- Register families of block POD_, part 0. -/
def familiesPOD0 : List RegFam := [
  ⟨"POD_CORE_c_CTL", 0x100, [(9, 0x20)], false, false, .podCore, .none,
    [⟨0, 1, .ctl, 0, []⟩, ⟨1, 1, .cmd, 0, []⟩, ⟨2, 1, .cmd, 0, []⟩]⟩,
  ⟨"POD_CORE_c_STS", 0x104, [(9, 0x20)], false, false, .podCore, .none,
    [⟨0, 3, .sts, 0, []⟩, ⟨3, 1, .sts, 0, []⟩]⟩,
  ⟨"POD_CORE_c_FLT", 0x108, [(9, 0x20)], false, false, .podCore, .none,
    [⟨0, 8, .sts, 0, []⟩, ⟨8, 8, .sts, 255, []⟩]⟩,
  ⟨"POD_CORE_c_FLT_PC", 0x10c, [(9, 0x20)], true, false, .podCore, .none,
    [⟨0, 21, .sts, 0, []⟩]⟩,
  ⟨"POD_CORE_c_FLT_ADDR", 0x110, [(9, 0x20)], true, false, .podCore, .none,
    [⟨0, 32, .sts, 0, []⟩]⟩,
  ⟨"POD_CORE_c_FAULTS", 0x114, [(9, 0x20)], true, false, .podCore, .none,
    [⟨0, 32, .cnt, 0, []⟩]⟩,
  ⟨"POD_CORE_c_SQUASHED", 0x118, [(9, 0x20)], true, false, .podCore, .none,
    [⟨0, 32, .cnt, 0, []⟩]⟩,
  ⟨"POD_CORE_c_WAIT_ABORTS", 0x11c, [(9, 0x20)], true, false, .podCore, .none,
    [⟨0, 32, .cnt, 0, []⟩]⟩,
  ⟨"POD_DMA_c_STS", 0x400, [(9, 0x10)], false, false, .podCore, .none,
    [⟨0, 16, .sts, 0, []⟩]⟩,
  ⟨"POD_DMA_c_DONE", 0x404, [(9, 0x10)], true, false, .podCore, .none,
    [⟨0, 32, .cnt, 0, []⟩]⟩,
  ⟨"POD_DMA_c_ERR", 0x408, [(9, 0x10)], true, false, .podCore, .none,
    [⟨0, 32, .cnt, 0, []⟩]⟩,
  ⟨"POD_DMA_c_SAT", 0x40c, [(9, 0x10)], true, false, .podCore, .none,
    [⟨0, 32, .cnt, 0, []⟩]⟩]

/-- Register families of block POD_. -/
def familiesPOD : List RegFam := familiesPOD0

/-- Register families of block CPX_, part 0. -/
def familiesCPX0 : List RegFam := [
  ⟨"CPX_CTL", 0x0, [], false, false, .podS, .none,
    [⟨0, 1, .ctl, 0, []⟩, ⟨1, 1, .ctl, 0, []⟩, ⟨2, 1, .ctl, 0, []⟩]⟩,
  ⟨"CPX_STS", 0x4, [], false, false, .podS, .none,
    [⟨0, 3, .sts, 0, []⟩]⟩,
  ⟨"CPX_u_QUEUE", 0x100, [(3, 0x20)], false, false, .podS, .none,
    [⟨0, 6, .sts, 0, []⟩]⟩,
  ⟨"CPX_u_ACCEPTED", 0x104, [(3, 0x20)], true, false, .podS, .none,
    [⟨0, 32, .cnt, 0, []⟩]⟩,
  ⟨"CPX_u_SQUASHED", 0x108, [(3, 0x20)], true, false, .podS, .none,
    [⟨0, 32, .cnt, 0, []⟩]⟩,
  ⟨"CPX_u_DONE", 0x10c, [(3, 0x20)], true, false, .podS, .none,
    [⟨0, 32, .cnt, 0, []⟩]⟩,
  ⟨"CPX_u_ERR", 0x110, [(3, 0x20)], true, false, .podS, .none,
    [⟨0, 32, .cnt, 0, []⟩]⟩,
  ⟨"CPX_u_EXPIRED", 0x114, [(3, 0x20)], true, false, .podS, .none,
    [⟨0, 32, .cnt, 0, []⟩]⟩,
  ⟨"CPX_u_STAGE_STALL", 0x118, [(3, 0x20)], true, false, .podS, .none,
    [⟨0, 32, .cnt, 0, []⟩]⟩,
  ⟨"CPX_u_LOSTREC", 0x11c, [(3, 0x20)], true, false, .podS, .none,
    [⟨0, 32, .cnt, 0, []⟩]⟩,
  ⟨"CPX_CORE_c_OUT", 0x200, [(9, 0x4)], false, false, .podS, .none,
    [⟨0, 4, .sts, 0, []⟩]⟩,
  ⟨"CPX_DEC_CB_OK", 0x300, [], true, false, .podS, .none,
    [⟨0, 32, .cnt, 0, []⟩]⟩,
  ⟨"CPX_DEC_CB_FAIL", 0x304, [], true, false, .podS, .none,
    [⟨0, 32, .cnt, 0, []⟩]⟩,
  ⟨"CPX_DEC_ITER", 0x308, [], true, false, .podS, .none,
    [⟨0, 32, .cnt, 0, []⟩]⟩,
  ⟨"CPX_DEC_HARQ_RESET", 0x30c, [], true, false, .podS, .none,
    [⟨0, 32, .cnt, 0, []⟩]⟩,
  ⟨"CPX_DEC_ENC_CB", 0x310, [], true, false, .podS, .none,
    [⟨0, 32, .cnt, 0, []⟩]⟩]

/-- Register families of block CPX_. -/
def familiesCPX : List RegFam := familiesCPX0

end Sys2Proof.Machine
end

