-- ==== Sys2Proof/Machine/Tab.lean ====
section
/-! DEFINITION. Sparse tables: a list of (key, value) pairs in ONE canonical form, keys strictly rising.
`put`/`del` keep it; `setD` also lists no entry equal to what an unlisted key reads as. What was written at a key is what is read there,
on any list (Laws/Tab.lean). -/

namespace Sys2Proof.Machine

/-- A sparse table with Nat keys. -/
abbrev Tab (β : Type) := List (Nat × β)

/-- The listed value at `k`, if any. -/
def Tab.find {β : Type} : Tab β → Nat → Option β
  | [], _ => none
  | (j, v) :: t, k => if j == k then some v else Tab.find t k

/-- The table with `v` listed at `k`. -/
def Tab.put {β : Type} : Tab β → Nat → β → Tab β
  | [], k, v => [(k, v)]
  | (j, u) :: t, k, v =>
    if k < j then (k, v) :: (j, u) :: t
    else if j == k then (k, v) :: t else (j, u) :: Tab.put t k v

/-- The table with nothing listed at `k`. -/
def Tab.del {β : Type} : Tab β → Nat → Tab β
  | [], _ => []
  | (j, u) :: t, k => if j == k then Tab.del t k else (j, u) :: Tab.del t k

/-- The value at `k`, where an unlisted key reads as `d k`. -/
def Tab.getD {β : Type} (d : Nat → β) (t : Tab β) (k : Nat) : β :=
  match Tab.find t k with
  | some v => v
  | none => d k

/-- The table with value `v` at `k`; an entry equal to `d k` is not listed. -/
def Tab.setD {β : Type} [DecidableEq β] (d : Nat → β) (t : Tab β) (k : Nat) (v : β) : Tab β :=
  if v = d k then Tab.del t k else Tab.put t k v

/-- `k` lies above `lo`, where that is given. -/
def Tab.above : Option Nat → Nat → Bool
  | none, _ => true
  | some l, k => decide (l < k)

/-- Keys strictly rising, every key above `lo` when `lo` is given. -/
def Tab.rising {β : Type} : Option Nat → Tab β → Bool
  | _, [] => true
  | lo, (k, _) :: t => Tab.above lo k && Tab.rising (some k) t

/-- No listed value equals what its key reads as when unlisted. -/
def Tab.noDefault {β : Type} [DecidableEq β] (d : Nat → β) : Tab β → Bool
  | [] => true
  | (k, v) :: t => decide (v ≠ d k) && Tab.noDefault d t

/-- The canonical form of a table with default `d`. -/
def Tab.wf {β : Type} [DecidableEq β] (d : Nat → β) (t : Tab β) : Bool :=
  Tab.rising none t && Tab.noDefault d t

/-- The keys of a table. -/
def Tab.keys {β : Type} (t : Tab β) : List Nat := t.map Prod.fst

/-- The values of a table. -/
def Tab.vals {β : Type} (t : Tab β) : List β := t.map Prod.snd

/-- Every value mapped by `f`. -/
def Tab.mapV {β γ : Type} (f : Nat → β → γ) (t : Tab β) : Tab γ := t.map fun (k, v) => (k, f k v)

/-- The entries whose value satisfies `p`. -/
def Tab.keep {β : Type} (p : Nat → β → Bool) (t : Tab β) : Tab β := t.filter fun (k, v) => p k v

/-- Apply `f` to the value listed at `k`, if any. -/
def Tab.upd {β : Type} (t : Tab β) (k : Nat) (f : β → β) : Tab β :=
  match Tab.find t k with
  | some v => Tab.put t k (f v)
  | none => t

end Sys2Proof.Machine
end

