-- ==== Sys2Proof/Machine/State.lean ====
section
/-! DEFINITION. The state of the ZN512: plain data, every piece the spec gives the machine, subsystem by subsystem,
and State.reset, the machine right after power-on reset. Registers live in ONE sparse table, `Dev.regs`, keyed by
register-space offset; what an unlisted register reads as is its reset value (Regs.lean). -/

namespace Sys2Proof.Machine

/-! ### Host interface: queues, completions, events (R65-R92) -/

/-- What a completion says: a status code (R77) and its result words (R76). -/
structure Cmpl where
  status : Nat
  res : List Nat
  deriving DecidableEq, Repr

/-- A command that passed checks 1-4 and has no final completion posted yet (R78, R79). `started` says its effect has
been carried out or staged; `acc` is 0 while it owes no ACCEPTED completion, 1 while it owes one, 2 once posted; `dup`
marks a duplicate awaiting its copy; `mirror` is 0 for a command not mirrored, 1 while the STANDBY's acknowledgement is outstanding, 2 after it (R32), `outcome`
while its outcome is (R488); `ghost` marks a mirrored command on the STANDBY, which posts nothing (R487); `own` is its final completion once decided; `late` says
the plan it names was sealed when it was fetched (R83). -/
structure RunCmd where
  cmd : PqCmd
  opcode : Nat
  started : Bool
  acc : Nat
  dup : Bool
  mirror : Nat
  outcome : Bool
  ghost : Bool
  own : Option Cmpl
  late : Bool
  deriving DecidableEq, Repr

/-- One entry of a queue's tag window (R79): tag, opcode, recorded final completion. -/
structure TagRec where
  tag : Nat
  opcode : Nat
  cmpl : Option Cmpl
  deriving DecidableEq, Repr

/-- An empty uplink result buffer posted on a user-plane pair (R86, R87). -/
structure UlBuf where
  tag : Nat
  addr : Nat
  len : Nat
  deriving DecidableEq, Repr

/-- A user-plane completion entry (R87): tag, status, KIND, flags [7:1] and bytes 8-31. -/
structure UpCmpl where
  tag : Nat
  status : Nat
  kind : Nat
  flags : Nat
  body : List Nat
  /-- The data written for it, of which the recorder keeps the CRC-32 (R496). -/
  data : List Byte
  deriving DecidableEq, Repr

/-- The device's own state of one queue pair; the index registers are in `Dev.regs`. Pairs 0-15 are the command
pairs, 64-127 the user-plane pairs UPQ0-UPQ63 (their registers continue the same array, R66). -/
structure QPair where
  /-- The phase bit written on the present pass of the completion ring (R68). -/
  phase : Bool
  /-- The vector was raised and CQ_HEAD has not been written since (R70). -/
  raised : Bool
  /-- ENABLE was cleared and the pair still owes completions (R71). -/
  stopping : Bool
  /-- A PCIe reset happened: completions are discarded (R410). -/
  muted : Bool
  /-- Unreleased completions, oldest first: the TMU time each was posted at, and whether it is an event (R70, R81). -/
  posted : List (Nat × Bool)
  running : List RunCmd
  window : List TagRec
  ulbufs : List UlBuf
  held : List UpCmpl
  deriving DecidableEq, Repr

/-- A queue pair that has never been enabled. -/
def QPair.reset : QPair := ⟨true, false, false, false, [], [], [], [], []⟩

/-- An event waiting for room on CQ0 (R81): code, class, RES1-RES3, and the TMU time it was raised at. -/
structure Event where
  cls : Nat
  code : Nat
  res1 : Nat
  res2 : Nat
  res3 : Nat
  ns : Nat
  secs : Nat
  deriving DecidableEq, Repr

/-- A health record (R82, R531): block, code, 12 detail bytes as one number, T128 time. -/
structure HealthRec where
  block : Nat
  code : Nat
  detail : Nat
  time : Nat
  deriving DecidableEq, Repr

/-- The host interface beside its registers. -/
structure Hif where
  qs : Tab QPair
  evMask : Nat
  backlog : List Event
  /-- Events of boot, raised once CQ0 is enabled (R451): class, code, RES1-RES3. -/
  boot : List (Nat × Nat × Nat × Nat × Nat)
  evLost : Bool
  /-- MSI-X vectors raised: how often each (R70). -/
  msix : Tab Nat
  /-- Fetching is stopped: a seal point passed (R91, R492), PARK (R423). -/
  fetchStopped : Bool
  /-- Where the round-robin of each fetch path stands (R67): the pair served last, plus one. -/
  rrCmd : Nat
  rrUp : Nat
  /-- A PCIe reset has happened and no pair has been enabled since: host memory is left alone (R410). -/
  closed : Bool
  /-- Transport blocks moved to the central buffer whose event is not raised yet: timeline, job period, allocation (R98). -/
  landing : List (Nat × Nat × Nat)
  /-- Host memory as the device has written it (R72); what the host holds there reaches the device as command data. -/
  mem : List Host.Cell
  deriving DecidableEq, Repr

/-! ### Timelines, transaction groups, firmware (R41-R64, R82-R91) -/

/-- A timeline beside its registers (R41-R48): `k` is the boundary index of the current period once `started`;
`nextK` the next boundary to perform while enabled; `enWait` the TIMELINE_ENABLE commands (queue, tag) waiting for the
first boundary event (R528); `step2` says step 2 of R21 has run for boundary `k`. -/
structure Timeline where
  started : Bool
  k : Nat
  nextK : Nat
  enWait : List (Nat × Nat)
  /-- The pods released for the current period (R99). -/
  released : List Nat
  deriving DecidableEq, Repr

/-- A timeline that is not running. -/
def Timeline.reset : Timeline := ⟨false, 0, 0, [], []⟩

/-- One staged register write of a transaction group (R56). -/
structure TxnWrite where
  off : Nat
  guarded : Bool
  value : Nat
  deriving DecidableEq, Repr

/-- One refusal record (R59): entry index, block, reason, offset. -/
structure Refused where
  idx : Nat
  block : Nat
  reason : Nat
  off : Nat
  deriving DecidableEq, Repr

/-- The life of a staging slot's group (R55): free, open, armed by (queue, tag) at arm order `ord`, `late` after its seal; resolved, its
slot taken while that TXN_ARM's completion is not posted. -/
inductive TxnPhase where
  | free
  | opened
  | armed (queue tag ord : Nat) (late : Bool)
  | done (queue tag : Nat)
  deriving DecidableEq, Repr

/-- A transaction-group staging slot (R55): the group's timeline, target period and writes, and the refusal records
of the last group that resolved here (none: no group resolved since reset or since the slot was reopened, R57). -/
structure TxnSlot where
  phase : TxnPhase
  tl : Nat
  target : Nat
  writes : List TxnWrite
  report : Option (List Refused)
  deriving DecidableEq, Repr

/-- A free slot in which no group has resolved. -/
def TxnSlot.reset : TxnSlot := ⟨.free, 0, 0, [], none⟩

/-- The parameters of a wideband carrier context (R82 CARRIER_ADD), after its context number. -/
structure CarrierPar where
  std : Nat
  bwKhz : Nat
  scsKhz : Nat
  offsetKhz : Int
  firstPort : Nat
  portCount : Nat
  duplex : Nat
  pattern : Nat
  upq : Nat
  deriving DecidableEq, Repr

/-- A carrier context firmware manages (R82): state 1 pending, 2 active, 3 removing; MIRROR mark (R80). -/
structure Carrier where
  par : CarrierPar
  tl : Nat
  state : Nat
  served : Nat
  drops : Nat
  mirror : Bool
  /-- Its addition has acted. -/
  placed : Bool
  deriving DecidableEq, Repr

/-- The parameters of NB_CHANNEL_ADD (R82) after its channel number, and its timeline. -/
structure NbPar where
  dir : Nat
  mod : Nat
  baud : Nat
  sps : Nat
  bt : Nat
  h : Nat
  offsetHz : Int
  capMode : Nat
  capTh : Nat
  upq : Nat
  tl : Nat
  deriving DecidableEq, Repr

/-- What a staged command does at its boundary (R78); `chs` are the narrowband channels a GSM carrier takes (R277). -/
inductive Effect where
  | carrierAdd (cc : Nat) (par : CarrierPar) (mirror : Bool) (chs : List Nat)
  | carrierModify (cc : Nat) (par : CarrierPar) (mirror : Bool)
  | carrierRemove (cc : Nat)
  | nbAdd (ch : Nat) (par : NbPar)
  | nbRemove (ch : Nat)
  | dpdSelect (chain bank : Nat)
  | twinSwap
  | fwSwitch
  deriving DecidableEq, Repr

/-- A command effect staged for a boundary (R75, R78): the timeline and target period, the command it came from,
whether its final completion is still owed (R529), and its place among everything staged or armed. -/
structure Staged where
  tl : Nat
  target : Nat
  queue : Nat
  tag : Nat
  opcode : Nat
  owed : Bool
  ord : Nat
  eff : Effect
  deriving DecidableEq, Repr

/-- An allocation record of a period plan (R83). -/
structure PlanRec where
  alloc : Nat
  cc : Nat
  dir : Nat
  prbFirst : Nat
  prbCount : Nat
  symFirst : Nat
  symCount : Nat
  layers : Nat
  qm : Nat
  upq : Nat
  harq : Nat
  flags : Nat
  tbs : Nat
  rate : Nat
  rv : Nat
  code : Nat
  weights : Nat
  deriving DecidableEq, Repr

/-- A PLAN_POST waiting for its graph (R83): queue, tag, records accepted, refused, first refused index. -/
structure PlanPost where
  queue : Nat
  tag : Nat
  accepted : Nat
  refused : Nat
  first : Nat
  deriving DecidableEq, Repr

/-- The plan of one air period of one timeline (R83). `bare` lists the uplink allocations whose jobs were built without a soft buffer (R218). -/
structure Plan where
  tl : Nat
  period : Nat
  recs : List PlanRec
  posts : List PlanPost
  built : Bool
  bare : List Nat
  deriving DecidableEq, Repr

/-- Firmware's book-keeping of carriers, plans, bindings and staged effects. -/
structure Fw where
  carriers : Tab Carrier
  nb : Tab NbPar
  nbTx : Tab NbPar
  staged : List Staged
  plans : List Plan
  /-- Weight handle to first central-buffer handle of its set (R82 WEIGHTS_LOAD). -/
  weights : Tab Nat
  /-- Carrier context, or 256 + narrowband channel, to its bound user-plane pair (R82 UPQ_BIND). -/
  bind : Tab Nat
  health : List HealthRec
  powerCap : Nat
  restart : Option (Nat × Nat)
  /-- Pods in POD_DRAIN: pod to the command (queue, tag; queue 255: none, firmware drains it to bypass its stop, R483) and the boundary indices of the timelines when it was accepted; pods drained and returned are in the mode registers. -/
  drains : Tab (Nat × Nat × List (Nat × Nat))
  /-- Pods left out of new graphs (R480). -/
  leftOut : List Nat
  /-- POD_LOAD in progress: pod to command and image. -/
  loads : Tab (Nat × Nat × List Byte)
  /-- Carriers placed and the parameters that remove them at the next fence (R530): (timeline, context, period). -/
  removing : List (Nat × Nat × Nat)
  /-- The running image's version (R444). -/
  version : Nat
  /-- HARQ processes (key 32 × carrier + process) that hold soft-buffer slots, each a pool and a slot (R218). -/
  soft : Tab (List (Nat × Nat))
  /-- TMU time at which the running image started (R450). -/
  since : Nat
  /-- FW_STAGE under way (queue, tag, container), and the image staged in the inactive slot: slot, version, SVN (R450). -/
  stage : Option (Nat × Nat × List Byte)
  next : Option (Nat × Nat × Nat)
  deriving DecidableEq, Repr

/-! ### Work dispatcher (R93-R112) -/

/-- Job states (R93); DONE and DROPPED free the slot in the same cycle, so no stored job is in them. -/
inductive JobState where
  | waiting | ready | running | stop
  deriving DecidableEq, Repr

/-- The fields of a job descriptor (R94), less ARGS, which stand in `args`. -/
structure JobDesc where
  kind : Nat
  ctrl : Nat
  npred : Nat
  period : Nat
  tl : Nat
  evtDper : Nat
  flow : Nat
  target : Nat
  alloc : Nat
  evtOut : Nat
  due : Nat
  podMask : Nat
  preds : List Nat
  args : List Byte
  deriving DecidableEq, Repr

/-- A job in a slot. `wait` lists its unsatisfied predecessors: slots below 16,384, events as 16,384 + number.
`k` is the boundary index of its period; `core` holds it while in service; `eligAt` is the stamp and `eligCyc` the CK_WDS cycle at
which it became eligible under items 1-5 of R103, `step` the affinity step reached (R103 item 6); `stopK` the boundary index at whose
event it was marked STOP; `replay` marks a job of a replay graph (R108). -/
structure Job where
  desc : JobDesc
  state : JobState
  wait : List Nat
  k : Nat
  core : Nat
  eligAt : Option Nat
  eligCyc : Nat
  step : Nat
  stopK : Nat
  replay : Bool
  deriving DecidableEq, Repr

/-- A flow (R100): ATOMIC, last core, jobs in service, and the timeline and boundary index at which its last job ended. -/
structure Flow where
  atomic : Bool
  last : Option Nat
  inSvc : Nat
  idle : Option (Nat × Nat)
  deriving DecidableEq, Repr

/-- A flow no job has named. -/
def Flow.reset : Flow := ⟨false, none, 0, none⟩

/-- One decision-log record (R109). -/
structure LogRec where
  type : Nat
  core : Nat
  slot : Nat
  period : Nat
  tl : Nat
  cls : Nat
  causes : Nat
  flow : Nat
  lost : Nat
  cycle : Nat
  deriving DecidableEq, Repr

/-- The combination a deadline-drop report covers (R54). -/
structure DropKey where
  tl : Nat
  period : Nat
  dir : Nat
  target : Nat
  alloc : Nat
  deriving DecidableEq, Repr

/-- The dispatcher beside its registers. -/
structure Wds where
  jobs : Tab Job
  flows : Tab Flow
  /-- Events raised for live periods (R98): timeline, period, event. -/
  events : List (Nat × Nat × Nat)
  /-- Stamp of the next dispatcher action: orders eligibility and waits (R103). -/
  stamp : Nat
  /-- Waiting cores (R104) and the stamp at which each began to wait. -/
  waiting : Tab Nat
  /-- Cores declared hung and not recovered (R107). -/
  hung : List Nat
  /-- Last hung declaration of a core: timeline, boundary index, and whether it came within 1,000 periods of the one
  before (R107). -/
  hungAt : Tab (Nat × Nat × Bool)
  log : List LogRec
  lost : Nat
  /-- Combinations already reported (R54). -/
  reported : List DropKey
  deriving DecidableEq, Repr

/-! ### DSP cores (R113-R149) and their DMA (R160-R167) -/

/-- An active hardware loop (R130): first instruction, instruction after the body, iterations left. -/
structure Loop where
  start : Nat
  stop : Nat
  count : Nat
  deriving DecidableEq, Repr

/-- A core-DMA transfer in flight (R160-R165): descriptor word address, its fields, the guarded local span (R163),
the period tag of the job held at its start (R164), and the word ranges it shared in flight with another transfer, one of the two
writing them (R163). -/
structure Dma where
  desc : Nat
  dir : Nat
  format : Nat
  cls : Nat
  far : Nat
  loc : Nat
  len : Nat
  rows : Nat
  fstride : Int
  lstride : Int
  lo : Nat
  hi : Nat
  guards : Bool
  tag : Option Nat
  tl : Nat
  clash : List (Nat × Nat)
  deriving DecidableEq, Repr

/-- A CPX instruction that has passed AG before its CM (R120, R169): unit, Sa, older instructions not yet committed, its number with its
unit; the fault cause its check marked it with, if any: it was then never sent. -/
structure CpxTent where
  unit : Nat
  desc : Nat
  ahead : Nat
  seq : Nat
  mark : Option Nat
  deriving DecidableEq, Repr

/-- One DSP core (R121): program counter; scalars S, pointers P (18 bits), offsets M (18 bits, two's complement), masks K
(K0 is not stored: it reads all ones), vectors V (384 bits each), accumulators (128 parts each, part 2i is RE of lane i);
GOV, ESAT and SAT-mode bits; loop levels, innermost first; control registers (R147); wake latches (R142); local memory
(12-bit words, R122); DMA tickets (R165); tentative CPX instructions; the job slot held (R93). -/
structure Core where
  pc : Nat
  s : Tab Word
  p : Tab Nat
  m : Tab Nat
  k : Tab Nat
  v : Tab Nat
  acc : Tab (List Int)
  gov : Nat
  esat : Nat
  satMode : Nat
  loops : List Loop
  cr : Tab Nat
  /-- Running cycles as last settled, and the latched upper half of R147. -/
  cycles : Nat
  cyclesHi : Nat
  latches : Nat
  mem : Tab Nat
  nextTicket : Nat
  dma : Tab Dma
  tent : List CpxTent
  job : Option Nat
  /-- A retain vote of this WAIT was refused, so no new attempt is made until the core leaves WAIT (R420). -/
  voted : Bool
  deriving DecidableEq, Repr

/-- The core-reset state (R121), local memory given. -/
def Core.resetWith (mem : Tab Nat) : Core :=
  ⟨0, [], [], [], [], [], [], 0, 0, 0, [], [], 0, 0, 0, mem, 0, [], [], none, false⟩

/-- A core as its domain leaves OFF. -/
def Core.reset : Core := Core.resetWith []

/-! ### Pod coprocessors (R169-R224) -/

/-- A completion record waiting to be written (R178): STATUS, FLAGS and RESULT bytes 10-15. -/
structure CpxRec where
  status : Nat
  flags : Nat
  result : Nat
  deriving DecidableEq, Repr

/-- An instruction a coprocessor unit holds (R170-R174, R183): issuing core, unit, descriptor byte offset; committed or
tentative; the timeline and period of the job at commit (R180), and its slot (R530); its record once it has run; whether its completion
may wake the core (R174); whether F4 found it tentative with an expired job. -/
structure CpxInst where
  seq : Nat
  core : Nat
  unit : Nat
  desc : Nat
  committed : Bool
  job : Option (Nat × Nat)
  slot : Option Nat
  ran : Option CpxRec
  wakes : Bool
  expire : Bool
  deriving DecidableEq, Repr

/-- A pod image as firmware keeps it (R481): its version and CRC, and its kernel table: first instruction, offset of the slot
address and of the grant in ARGS. -/
structure PodImage where
  version : Nat
  crc : Nat
  kernels : List (Nat × Nat × Nat)
  deriving DecidableEq, Repr

/-- The pods beside their cores: pod memories (one table, key pod × 2^23 + offset), held coprocessor instructions, the
next sequence number, and the pod images' kernel-table state. -/
structure Pods where
  mem : List Host.Cell
  cpx : List CpxInst
  seq : Nat
  images : Tab PodImage
  /-- Cores spared since power-on (R479). -/
  spared : List Nat
  deriving DecidableEq, Repr
/-! ### Memory, central buffer, HARQ pools (R330-R349, R218) -/

/-- A central-buffer buffer (R332): its number of handles and its binding (timeline, period, hold), if bound. -/
structure CbfBuf where
  count : Nat
  bind : Option (Nat × Nat × Nat)
  deriving DecidableEq, Repr

/-- DDR5 and central-buffer contents, keyed by internal address (R330, R337); the aligned 64-byte lines marked poisoned
(R340); the buffer table, keyed by first handle (R332); the used slots of HARQ pools 0 and 1 (R218). -/
structure Mem where
  cells : List Host.Cell
  poison : List Nat
  bufs : Tab CbfBuf
  harq : List (List Nat)
  /-- The board table in use gives DDR5 starting values (R338, R452). -/
  ddrStart : Bool
  /-- Capacities of the channels whose domain has lost their registers, as they stood then (R337). -/
  caps : Tab Nat
  /-- Errors that have arisen in stored lines and that no read has met yet (R339, R340), by line address: for DDR5 the device and the pair of
  beats, for the central buffer the 8-byte word and the bit, of each wrong bit or beat. -/
  flaws : Tab (List (Nat × Nat))
  deriving DecidableEq, Repr

/-! ### The Lyre (R304-R329) -/

/-- A packet header and payload (R307), with the strand direction its route gave it, how often it was retransmitted
(R316) and the hop replays it met (R324). -/
structure RingPkt where
  type : Nat
  epoch : Nat
  tag : Option Nat
  seq : Nat
  txid : Nat
  addr : Nat
  status : Nat
  len : Nat
  data : List Byte
  ready : Nat
  dir : Nat
  tries : Nat
  replays : Nat
  /-- The slots of the strand its flits ride in, first to last, while it is in flight (R304, R309). -/
  slots : List Nat
  /-- The destination of the packet that a BOUNCE returns (R308). -/
  orig : Nat
  deriving DecidableEq, Repr

/-- A packet ready at its source stop and not injected yet: for ring C or the data rings, from, to, class (R310). -/
structure RingWait where
  control : Bool
  src : Nat
  dst : Nat
  cls : Nat
  pkt : RingPkt
  deriving DecidableEq, Repr

/-- A return on its way in the sideband (R309): CREDIT or ACK (`ack`), the stream it answers, its value: flits, or a SEQ. -/
structure RingRet where
  ack : Bool
  key : Nat
  value : Nat
  deriving DecidableEq, Repr

/-- A stream: one ring, source, destination and class (R316). `window` holds the unacknowledged packets in order,
`flight` the SEQ numbers on their way to the destination, `refused` says a RETRY for `expSeq` is outstanding. -/
structure Stream where
  nextSeq : Nat
  expSeq : Nat
  refused : Bool
  retry : Option Nat
  window : List RingPkt
  flight : List Nat
  deriving DecidableEq, Repr

/-- A stream that has carried nothing. -/
def Stream.reset : Stream := ⟨0, 0, false, none, [], []⟩

/-- Ring statistics of one stop, ring and class (R324). -/
structure RingStat where
  bytes : Nat
  pkts : Nat
  replays : Nat
  bins : List Nat
  deriving DecidableEq, Repr

/-- Statistics with every count 0. -/
def RingStat.zero : RingStat := ⟨0, 0, 0, List.replicate 16 0⟩

/-- A complete sample set (R324, R325): timed by TMU, the T0 period it covers, the stops PARTIAL in it, its counts. -/
structure RingSample where
  clock : Bool
  period : Nat
  partialStops : List Nat
  stats : Tab RingStat
  deriving DecidableEq, Repr

/-- The rings beside their registers. Streams and statistics are keyed by ring, stop pair and class. `starving` lists
the stops whose starvation request is set (R310); `shift` is SHIFT of the running sample; `partialStops` those whose
fence was lifted in it (R325); `hops` counts a hop's
uncorrectable flits within the last ms (R315); `bounces` are those that a source stop answers its own block with (R308, R316): source, destination,
address and status; `waiting` the packets not injected yet, as they became ready; `turns` counts the unreserved opportunities each stop has
used (R310); `returns` are credits and acknowledgements on their way; `mring` messages on ring M: originator and addressee, 63 for a
broadcast (R305, R306); `faults` are the times, within the last second, of the R315 health events of a stop's incoming hops (key the stop) and
of the ends of streams to it under R316 (key 32 + stop); `failing` the pod stops that firmware drains to bypass them (R483). -/
structure Lyr where
  streams : Tab Stream
  stats : Tab RingStat
  shift : Nat
  partialStops : List Nat
  sample : Option RingSample
  sampledAt : Nat
  starving : List Nat
  hops : Tab (List Nat)
  bounces : List (Nat × Nat × Nat × Nat)
  waiting : List RingWait
  turns : Tab Nat
  returns : List RingRet
  mring : List (Nat × Nat)
  faults : Tab (List Nat)
  failing : List Nat
  deriving DecidableEq, Repr

/-! ### Power management (R412-R428) -/

/-- Where a power request comes from (R416). -/
inductive PmuSrc where
  | cmd (queue tag : Nat)
  | vote
  | thermal
  | park
  | firmware
  deriving DecidableEq, Repr

/-- How far a power request has come: in the queue, entry draining its ring stop since a TMU time (E2), or a switch-on
whose W1 began at a TMU time. -/
inductive PmuPhase where
  | queued
  | draining (since : Nat)
  | waking (w1 : Nat) (fromOff : Bool)
  deriving DecidableEq, Repr

/-- A request in the PMU queue: the domain, the state asked for (0 RUN, 1 IDLE, 2 RETAIN, 3 OFF), its origin. -/
structure PmuReq where
  dom : Nat
  target : Nat
  src : PmuSrc
  phase : PmuPhase
  deriving DecidableEq, Repr

/-- PARK under way (R423-R425): the PARK command, its wake masks, the time it parked at and the timer's end, if any. -/
structure Park where
  queue : Nat
  tag : Nat
  gpio : Nat
  since : Nat
  wakeAt : Option Nat
  deriving DecidableEq, Repr

/-- The PMU beside its registers: requests in arrival order; when the last W1 began and when the last pod domain's W1
ends (R422); the domains a debug session holds (R418). -/
structure Pmu where
  queue : List PmuReq
  lastW1 : Option Nat
  podW1End : Nat
  debugHold : List Nat
  park : Option Park
  /-- The host has enabled ASPM L1 (R423). -/
  aspm : Bool
  deriving DecidableEq, Repr

/-! ### Twins and the Marrow (R484-R503) -/

/-- A command in the STANDBY's mirrored log (R487): queue, tag, opcode, whether it is applied here, its outcome here, and
the ACTIVE's confirmation of its completion (R90). -/
structure MirrorRec where
  queue : Nat
  run : RunCmd
  applied : Bool
  status : Option Nat
  confirmed : Bool
  deriving DecidableEq, Repr

/-- TWIN_ATTACH under way (R493): the command, the preferred role, when it was accepted, link trained. -/
structure Attach where
  queue : Nat
  tag : Nat
  pref : Nat
  since : Nat
  deriving DecidableEq, Repr

/-- The pair as this device sees it, beside MGT_TWIN_*: the mirrored log (STANDBY); ledger 0x07's totals (R34): commands
mirrored, and acknowledged to the host; the attach under way; the heartbeat instants at which none was sent in a row, for
TWIN_ROLE_OUT (R484); when the next partner heartbeat is due, an announced gap's end (R368), when LINK_LOST began, whether a
takeover is due; `adopted` are the commands taken over at the last takeover,
as queue and tag, in log order (R90). -/
structure Twin where
  log : List MirrorRec
  mirrored : Nat
  acked : Nat
  attach : Option Attach
  silent : Nat
  gapEnd : Nat
  lostAt : Option Nat
  takeover : Bool
  /-- GEN of each marked HARQ slot as last copied, key 2^16 × pool + slot (R489). -/
  gens : Tab Nat
  adopted : List (Nat × Nat)
  /-- On a STANDBY: the committed banks mirrored to it, by register (R293), and the time source selected last on the ACTIVE (R487). -/
  banks : Tab Nat
  source : Option (Nat × Nat × Nat × Nat)
  /-- When the partner's heartbeat was last heard: what it served before then needs no report at a takeover (R485, R490). -/
  heardAt : Nat
  deriving DecidableEq, Repr

/-- A recorder record (R499). `body` holds the bytes the spec lays out; `len` counts header and padded body. -/
structure RecEntry where
  type : Nat
  tl : Nat
  period : Nat
  len : Nat
  ns : Nat
  secs : Nat
  body : List Byte
  deriving DecidableEq, Repr

/-- The recorder's selections (R496): region size in MiB, mask, first port or carrier, port count. -/
structure RecCfg where
  size : Nat
  mask : Nat
  first : Nat
  count : Nat
  /-- Bytes of the capture area. -/
  area : Nat
  deriving DecidableEq, Repr

/-- A replay under way (R502): pod, timeline, first period and count, periods released, when the last was released, the
period length in ns, the command, what was compared; the slots still replayed in log order, each with the core it was recorded on; the
events replayed jobs raised; the CPX_ORDER entries whose records are still to be written. -/
structure Replay where
  pod : Nat
  tl : Nat
  first : Nat
  count : Nat
  released : Nat
  last : Nat
  queue : Nat
  tag : Nat
  compared : Nat
  mismatches : Nat
  order : List (Nat × Nat)
  events : List (Nat × Nat)
  cpx : List Nat
  deriving DecidableEq, Repr

/-- The Marrow (R496-R503): selections; the log, oldest first; bytes recorded; the recorder's timeline; when a trigger was
taken (boundary index and time); the REC_TRIGGER commands waiting for the freeze; the pod images' CRC words in the snapshot;
the period at the freeze; the replay under way; records were dropped since the last one; the capture area's records, oldest first. -/
structure Marrow where
  cfg : RecCfg
  log : List RecEntry
  bytes : Nat
  tl : Nat
  trigK : Nat
  trigT : Nat
  frozenP : Nat
  waiting : List (Nat × Nat)
  images : Tab Nat
  replay : Option Replay
  lost : Bool
  captures : List RecEntry
  deriving DecidableEq, Repr

/-! ### Ledger snapshots (R34-R39) -/

/-- A shadowed ledger entry (R37): ledger, instance, captured, terms. -/
structure LedgerEntry where
  id : Nat
  inst : Nat
  captured : Bool
  terms : List Nat
  deriving DecidableEq, Repr

/-- The last strobe: SEQ, CK_RING count, time, whether ledger 0x07 was present; the shadows; a LEDGER_SNAPSHOT packing them: queue,
tag, host address, length. -/
structure Ledger where
  seq : Nat
  cyc : Nat
  time : Nat
  paired : Bool
  entries : List LedgerEntry
  packing : Option (Nat × Nat × Nat × Nat)
  deriving DecidableEq, Repr

/-- No strobe yet. -/
def Ledger.reset : Ledger := ⟨0, 0, 0, false, [], none⟩

/-! ### Temperature, supplies and ageing (R429-R442, R507) -/

/-- The thermal and supply logic beside its registers. `disagree` counts the samples in a row in which a sensor disagreed
(R431); `past125` lists the sensors whose last sample read 125 °C or more; `stepHot` is the hottest value at the last throttle
step; `trip` the sensor that tripped and when, while THERMTRIP_N is low; `powerCap` firmware's power cap, `capAt` when it last
moved, `power` the last ten 1 ms sums in mW, `below` the ms their mean has stayed under 0.95 of the limit (R435); `railMiss` the reads a
rail has failed in a row (R507); `avsHigh` and `avsMax` count evaluations (R437); `ageing` and `profile` the events already raised; `recovered`
what SHUTDOWN_RECOVERED will report: peak, sensor, seconds off. -/
structure Thm where
  disagree : Tab Nat
  past125 : List Nat
  stepHot : Int
  trip : Option (Nat × Nat)
  powerCap : Nat
  capAt : Nat
  power : List Nat
  below : Nat
  railMiss : Tab Nat
  avsHigh : Nat
  avsMax : Nat
  ageing : Bool
  profile : Bool
  recovered : Option (Nat × Nat × Nat)
  deriving DecidableEq, Repr

/-- After power-on reset. -/
def Thm.reset : Thm := ⟨[], [], 0, none, 8, 0, [], 0, [], 0, 0, false, false, none⟩

/-! ### Time unit and fronthaul Ethernet (R376-R405) -/

/-- The time unit beside its registers (R396-R400): the selected source 0 PTP, 1 1PPS, 2 free-running, with its profile,
Ethernet port and transport; the last PPS_IN edge and the edges missed since; the edge last named by a time-of-day message
and the second it named; when HOLDOVER began; while parked, the bank active before; when PPS_OUT falls again and when it last rose; the seconds TOD_TX has sent; whether
SYNCE_CLK is held low for a lost link; the APPLY commands of TMU_STEP_CMD that committed groups gave and that have not acted yet. -/
structure Tmu where
  source : Nat
  profile : Nat
  port : Nat
  transport : Nat
  edge : Option Nat
  missed : Nat
  named : Option (Nat × Nat)
  holdSince : Option Nat
  parkBank : Option Nat
  ppsFall : Option Nat
  ppsEdge : Option Nat
  todSent : List Nat
  synceLost : Bool
  applyDue : List Int
  deriving DecidableEq, Repr

/-- Free-running (TMU_QUALITY resets to FREE_RUN). -/
def Tmu.reset : Tmu := ⟨2, 0, 0, 0, none, 0, none, none, none, none, none, [], false, []⟩

/-- An entry of a transmit timestamp queue (R394). -/
structure TsEntry where
  id : Nat
  msgType : Nat
  link : Nat
  time : Nat
  deriving DecidableEq, Repr

/-- An installed MACsec association (R389): link, transmit or receive, channel, association number, key slot, next packet
number. -/
structure Sak where
  link : Nat
  tx : Bool
  sci : Nat
  an : Nat
  slot : Nat
  pn : Nat
  deriving DecidableEq, Repr

/-- A frame that left on a link, from its destination address, without FCS; and, where MACsec protects it, the channel, association and packet
number of its SecTAG and whether it is encrypted (R381, R389). The ciphertext itself is the standard's. -/
structure Wire where
  link : Nat
  frame : List Byte
  sec : Option (Nat × Nat × Nat × Bool)
  deriving DecidableEq, Repr

/-- PRBs received for an uplink symbol of a remote carrier (R386): stream, PRB, exponent, 24 mantissas. -/
structure UlPrb where
  stream : Nat
  prb : Nat
  exp : Nat
  mant : List Int
  deriving DecidableEq, Repr

/-- An uplink symbol whose window is open, or has closed: carrier, boundary index, symbol, PRBs, done. -/
structure UlSym where
  cc : Nat
  k : Nat
  sym : Nat
  prbs : List UlPrb
  closed : Bool
  deriving DecidableEq, Repr

/-- The Ethernet engine beside its registers: timestamp queues by port; associations; the next sequence byte of each stream
and direction (key 2 × stream + direction); open uplink symbols; the frames that the last row which sends frames put on the medium. -/
structure Eth where
  tsq : Tab (List TsEntry)
  saks : List Sak
  seqs : Tab Nat
  syms : List UlSym
  wire : List Wire
  deriving DecidableEq, Repr

/-- An engine that has carried nothing. -/
def Eth.reset : Eth := ⟨[], [], [], [], []⟩

/-! ### The Zither (R350-R375) -/

/-- A lane entry of the board table in use (R353). -/
structure LaneEntry where
  lane : Nat
  rate : Nat
  flags : Nat
  req : Nat
  tx : Nat
  rx : Nat
  window : Nat
  deriving DecidableEq, Repr

/-- An eye scan under way (R367): its lane, whether the lane had clock-recovery lock, and the EYE_SCAN it answers (none: a
calibration run's). -/
structure Scan where
  lane : Nat
  lock : Bool
  cmd : Option (Nat × Nat)
  deriving DecidableEq, Repr

/-- The Zither beside its registers: entries; NO_ENTRY events raised (lane, rate); when lanes were lost; scans; links whose
failed training was reported since they were last up (Ethernet k, twin 16, PCIe 17); tap steps a partner moved (key 4 × lane +
tap); presets applied on PL lanes (key 8 × lane + generation), the generation whose equalisation runs, and the preset each PL lane last requested of
its partner (R361); the highest twin rate code still tried, and the code the partner advertised; ports out of receive service until a time (4: the twin
link); the open points of each lane's last scan (R300, R367). -/
structure Zth where
  entries : List LaneEntry
  noEntry : List (Nat × Nat)
  lostAt : Tab Nat
  scans : List Scan
  failed : List Nat
  taps : Tab Int
  presets : Tab Nat
  eqGen : Option Nat
  asked : Tab Nat
  twinCap : Nat
  twinPeer : Option Nat
  gaps : Tab Nat
  eyes : Tab Nat
  deriving DecidableEq, Repr

/-- No board table, nothing under way. -/
def Zth.reset : Zth := ⟨[], [], [], [], [], [], [], none, [], 2, none, [], []⟩

/-! ### Bank switches and calibration (R228, R240-R242, R284-R303) -/

/-- Who armed a bank switch: a register write, a DPD_BANK_SELECT, or a calibration run (R240, R286, R302). -/
inductive ArmSrc where
  | sel
  | cmd (queue tag : Nat)
  | run (id : Nat)
  deriving DecidableEq, Repr

/-- An armed switch: kind 0 DPD, 1 IQ and DC, 2 alignment, 3 sampling point; the target; the timeline and the boundary index it
acts at (0: it waits for the timeline); the instant that the boundary's seal point must follow; whether A1 has deferred it (R242). -/
structure Arm where
  kind : Nat
  target : Nat
  tl : Nat
  k : Nat
  after : Nat
  deferred : Bool
  src : ArmSrc
  deriving DecidableEq, Repr

/-- How far a target of a run has come (R287). -/
inductive CalPhase where
  | gathering | solved | armed | verifying | committed | failed
  deriving DecidableEq, Repr

/-- A target of a run: the figure of step 3, the last figure, the period of its commit, when its open statistic window began (R290), what a
kind-2 fit gave it before the changes are normalised (R298). -/
structure CalTgt where
  idx : Nat
  phase : CalPhase
  fig0 : Nat
  fig : Nat
  period : Nat
  win : Nat
  sol : List Int
  deriving DecidableEq, Repr

/-- A calibration run: the CAL_RUN it answers (none: automatic), its targets, when it began, the period of its last commit
boundary, the TX targets excited (R299), when
the last solution was written. -/
structure CalRun where
  id : Nat
  kind : Nat
  cmd : Option (Nat × Nat)
  tl : Nat
  targets : List CalTgt
  since : Nat
  lastPeriod : Option Nat
  excited : List Nat
  solAt : Nat
  deriving DecidableEq, Repr

/-- A complex sample. -/
abbrev Smp := Int × Int

/-- An excitation (R299): the chain, its pattern, the TX sample after those it re-sends, from when until when it sends. -/
structure Excite where
  chain : Nat
  pat : Nat
  src : Nat
  since : Nat
  till : Nat
  deriving DecidableEq, Repr

/-- An observation capture for a kind-0 run (R294): chain, start, inputs of DPD, samples observed at the same air instants. -/
structure CalCap where
  chain : Nat
  start : Nat
  xs : List Smp
  zs : List Smp
  deriving DecidableEq, Repr

/-- Calibration beside its registers: armed switches; chains that groups touched when they committed (timeline, boundary index,
chain; R242); runs; the last commit of a target (key 128 × kind + target: figure, period, time); intervals of automatic runs; the last
switch of an IQ or alignment control (same key: its instant, the two words of the bank that was active before it; R228); excitations (R299); captures
for kind-0 runs (R294). -/
structure Cal where
  arms : List Arm
  touched : List (Nat × Nat × Nat)
  runs : List CalRun
  nextId : Nat
  last : Tab (Nat × Nat × Nat)
  auto : Tab Nat
  autoAt : Tab Nat
  swOld : Tab (Nat × Nat × Nat)
  excite : List Excite
  got : List CalCap
  deriving DecidableEq, Repr

/-- Nothing armed, nothing run. -/
def Cal.reset : Cal := ⟨[], [], [], 0, [], [], [], [], [], []⟩

/-! ### Digital front end (R225-R259) -/

/-- A queued observation capture (R243): chain, start air time, samples, central-buffer address of its streams. -/
structure OrxCap where
  chain : Nat
  start : Nat
  len : Nat
  dst : Nat
  deriving DecidableEq, Repr

/-- A carrier's symbol on its way into a TX chain's combiner (R233, R236): carrier, index of the TX sample where it starts, interpolation
ratio, offset in Hz, GAIN, samples at the base rate in 2^-20. -/
structure TxIn where
  src : Nat
  start : Nat
  ratio : Nat
  hz : Int
  gain : Nat
  base : List Smp
  deriving DecidableEq, Repr

/-- A TX chain at work (R233-R238): what its carriers still send; combined samples by index, where they are not zero; the samples that have
been through DPD; its input and output by index, where they are not zero, as far back as a capture reaches. -/
structure TxChan where
  ins : List TxIn
  comb : Tab Smp
  done : Nat
  hist : Tab (Smp × Smp)
  deriving DecidableEq, Repr

/-- An RX chain at work (R244): the samples that have entered it; the last of them, corrected (R295), oldest first. -/
structure RxChan where
  upto : Nat
  win : List Smp
  deriving DecidableEq, Repr

/-- The front end beside its registers: captures queued by receiver, the chain its ORX_SEL lines name; levels of the lines; once SYSREF is
stamped, its time and the time of tick 0 on the scale of TMU time as it has stepped since (R226); when the tick count was last compared; the
tick at which each unit's LEMC was aligned (R253); when the data of each link counted (key 16 × unit + link: from, until; latest first; R254,
R255); links down that have been up (unit, link); remaps pending (unit, timeline, boundary index of the air period); the logical lane each
unit's spare replaces; when each unit's strobe ends; the exponent of each carrier and port (key 64 × carrier + port: air period, EXP, largest
magnitude measured in it; R246); running PRACH occasions (context, boundary index); the time and entry that last drove each EVENT line (R251);
the configuration of air periods (timeline, boundary index, the block's registers; R228); chains at work. -/
structure Dfe where
  caps : Tab (List OrxCap)
  orxSel : Tab Nat
  lines : Tab Bool
  epoch : Option (Nat × Nat)
  checkAt : Nat
  lemc : Tab Nat
  spans : Tab (List (Nat × Option Nat))
  lost : List (Nat × Nat)
  remaps : List (Nat × Nat × Nat)
  spares : Tab Nat
  strobes : Tab Nat
  exps : Tab (Nat × Nat × Nat)
  prach : List (Nat × Nat)
  gev : Tab (Nat × Nat)
  latched : List (Nat × Nat × Tab Word)
  tx : Tab TxChan
  rx : Tab RxChan
  deriving DecidableEq, Repr

/-- Nothing running. -/
def Dfe.reset : Dfe := ⟨[], [], [], none, 0, [], [], [], [], [], [], [], [], [], [], [], []⟩
/-! ### Narrowband bank (R260-R283) -/

/-- A qualifying context (R271, R272): symbols since its candidate, or since a shadow began; the symbol of its preamble pass, if it
passed; for a shadow, the symbols in a row in which it beat the primary; its discriminator's latest values and its demodulated bits, the
latest first. -/
structure NbCtx where
  age : Nat
  timing : Option Nat
  pass : Option Nat
  wins : Nat
  soft : List Int
  bits : List Bool
  deriving DecidableEq, Repr

/-- A locked packet (R268, R271-R276): boundary index and ns of the lock, RSSI_LOCK, NF, frequency error, Hamming distance or training
correlation, timing, SHADOW, CAPTURE_SEEN, SAT, an access burst, MAXB; payload bits (or LLR8 values), the latest first; symbols received;
symbols in a row above the capture and below the fade level. -/
structure NbLock where
  k : Nat
  ns : Nat
  rssi : Int
  nf : Int
  ferr : Nat
  dist : Nat
  timing : Nat
  shadow : Bool
  seen : Bool
  sat : Bool
  gsm : Bool
  maxb : Nat
  bits : List Nat
  syms : Nat
  rise : Nat
  fade : Nat
  last : Bool
  deriving DecidableEq, Repr

/-- A channel's receiver (R267-R274): where its symbols count from, and how many have ended; when its last 1 ms interval ended; time idle in this
interval, and since when it is idle; its contexts; whether the primary came by a takeover; its symbol timing; the latest samples after the AGC,
oldest first; the latest discriminator values, bits and RSSI, latest first; the AGC gain in 2^-16 (R268); its locked packet. -/
structure NbChan where
  symAt : Nat
  syms : Nat
  msAt : Nat
  idle : Nat
  idleFrom : Option Nat
  prim : Option NbCtx
  shadow : Option NbCtx
  took : Bool
  timing : Nat
  past : List (Int × Int)
  soft : List Int
  bits : List Bool
  rssi : List Int
  gain : Nat
  lock : Option NbLock
  deriving DecidableEq, Repr

/-- A report waiting to be posted (R276): channel, user-plane pair, timeline, its packet, its bytes, end reason. -/
structure NbReport where
  ch : Nat
  pair : Option Nat
  tl : Nat
  lock : NbLock
  data : List Byte
  reason : Nat
  deriving DecidableEq, Repr

/-- Where the transmit channel of a GSM carrier goes (R277): its carrier, the chains, their offset in Hz, GAIN. -/
structure NbFeed where
  cc : Nat
  first : Nat
  count : Nat
  hz : Int
  gain : Nat
  deriving DecidableEq, Repr

/-- How a packet in the air is modulated (R264): MOD, three times the rate, BT and h times 100, offset in Hz, AMP; where a GSM carrier's goes,
any other to its window's composite. -/
structure NbMod where
  modu : Nat
  rate3 : Nat
  bt : Nat
  h : Nat
  ofs : Int
  amp : Nat
  feed : Option NbFeed
  deriving DecidableEq, Repr

/-- A packet a channel holds for transmission (R265): tag, the pair its entry came by, timeline, period, START, number of bits and the bits,
when its first symbol starts, its modulation once in the air; of one cut, the bits sent and when its fall starts. -/
structure NbPkt where
  tag : Nat
  pair : Nat
  tl : Nat
  air : Nat
  start : Nat
  bits : Nat
  data : List Byte
  t : Nat
  onAir : Option NbMod
  cut : Option (Nat × Nat)
  deriving DecidableEq, Repr

/-- The bank beside its registers: receivers; reports to post; packets held, by channel; the samples of each composite that have been
summed (R264). -/
structure Nbb where
  chans : Tab NbChan
  reports : List NbReport
  held : Tab (List NbPkt)
  compDone : Tab Nat
  deriving DecidableEq, Repr

/-- No channel runs. -/
def Nbb.reset : Nbb := ⟨[], [], [], []⟩
/-! ### Security (R443-R458) -/

/-- The boot flash (R443, R444): the two header copies (generation, firmware slot, board-table slot; none: bad CRC), the
firmware slots A and B and the board-table slots 0 and 1 as the bytes they hold, and the lifetime counters of the firmware
store. -/
structure Flash where
  hdr0 : Option (Nat × Nat × Nat)
  hdr1 : Option (Nat × Nat × Nat)
  fwA : List Byte
  fwB : List Byte
  bt0 : List Byte
  bt1 : List Byte
  life : List Nat
  deriving DecidableEq, Repr

/-- An entry of the alarm log (R455): source, action carried out, T128 time. -/
structure AlarmRec where
  source : Nat
  action : Nat
  time : Nat
  deriving DecidableEq, Repr

/-- Security state that no data-plane command reaches: fuse slots F0-F6 as blown bits (R447); volatile slots with their keys
(R449), and their links and names; the alarm log; the outstanding challenge's level and nonce; when refused challenges are taken again;
a staged board table or image waiting for the next boot is in `flash`. -/
structure Sec where
  f0 : Nat
  f1 : Nat
  f2 : Nat
  f3 : Nat
  f4 : Nat
  f5 : Nat
  f6 : Nat
  keys : Tab Nat
  ckns : List (Nat × Nat × Nat)
  alarms : List AlarmRec
  challenge : Option (Nat × Nat)
  lockout : Option Nat
  flash : Flash
  deriving DecidableEq, Repr

/-- A part with blank fuses, a blank flash, no session (assumption log). -/
def Sec.reset : Sec := ⟨0, 0, 0, 0, 0, 0, 0, [], [], [], none, none, ⟨none, none, [], [], [], [], []⟩⟩

/-! ### The whole device -/

/-- Everything but the security state and the command queue.
`now` is TMU time in 2^-32 ns (R3, R390); `cyc` counts CK_TMU cycles of the root PLL since reset: CK_RING, CK_CORE run 6,
CK_CPX 4 and CK_WDS 3 cycles to one (R406). `guardOpen` is the THM guard (R469). `free` numbers the free values taken. -/
structure Dev where
  now : Nat
  cyc : Nat
  regs : Tab Word
  guardOpen : Bool
  free : Nat
  hif : Hif
  tls : Tab Timeline
  txns : Tab TxnSlot
  txnOrd : Nat
  fw : Fw
  wds : Wds
  cores : Tab Core
  pods : Pods
  mem : Mem
  lyr : Lyr
  pmu : Pmu
  twin : Twin
  marrow : Marrow
  ledger : Ledger
  thm : Thm
  tmu : Tmu
  eth : Eth
  zth : Zth
  cal : Cal
  dfe : Dfe
  nbb : Nbb
  deriving DecidableEq, Repr

/-- The ZN512: the device, its security complex, and the commands waiting, first in, first out. -/
structure State where
  dev : Dev
  sec : Sec
  pending : List Instr
  deriving DecidableEq, Repr

/-- Why the machine stops with a fault: never. A block has no fault of its own; every condition the spec describes is an effect on State. -/
inductive Fault where
  deriving DecidableEq, Repr

/-- Why a command has no meaning. -/
inductive Refusal where
  /-- Raised by an arm of exec whose meaning is not written. Safe. -/
  | notModelled (mnemonic : String)
  deriving DecidableEq, Repr

/-- The host interface after reset: no queue enabled, no event class enabled (R81, assumption log). -/
def Hif.reset : Hif := ⟨[], 0, [], [], false, [], false, 0, 0, false, [], []⟩
/-- Firmware with no carriers, plans or bindings. -/
def Fw.reset : Fw := ⟨[], [], [], [], [], [], [], [], 185, none, [], [], [], [], 0, [], 0, none, none⟩
/-- The dispatcher with no jobs. -/
def Wds.reset : Wds := ⟨[], [], [], 0, [], [], [], [], 0, []⟩
/-- Pods with zeroed memory. -/
def Pods.reset : Pods := ⟨[], [], 0, [], []⟩
/-- Memory with nothing listed: unlisted bytes read 0 (assumption log). -/
def Mem.reset : Mem := ⟨[], [], [], [[], []], false, [], []⟩
/-- Rings that have carried nothing. -/
def Lyr.reset : Lyr := ⟨[], [], 0x8753, [], none, 0, [], [], [], [], [], [], [], [], []⟩
/-- The device right after power-on reset: every register at its reset value, every domain but PD_AON OFF (R411). -/
def Dev.reset : Dev :=
  { now := 0, cyc := 0, regs := [], guardOpen := false, free := 0, hif := Hif.reset, tls := [], txns := [], txnOrd := 0,
    fw := Fw.reset, wds := Wds.reset, cores := [], pods := Pods.reset, mem := Mem.reset, lyr := Lyr.reset
    , pmu := ⟨[], none, 0, [], none, false⟩
    , twin := ⟨[], 0, 0, none, 0, 0, none, false, [], [], [], none, 0⟩
    , marrow := ⟨⟨0, 0, 0, 0, 0⟩, [], 0, 0, 0, 0, 0, [], [], none, false, []⟩
    , ledger := Ledger.reset
    , thm := Thm.reset
    , tmu := Tmu.reset
    , eth := Eth.reset
    , zth := Zth.reset
    , cal := Cal.reset
    , dfe := Dfe.reset
    , nbb := Nbb.reset
  }

/-- The machine right after power-on reset (R411), its queue empty. -/
def State.reset : State := { dev := Dev.reset, sec := Sec.reset, pending := [] }

end Sys2Proof.Machine
end

