-- ==== Sys2Proof/Machine/CoreOps.lean ====
section
/-! DEFINITION. Operations of one DSP core: instruction fields (R136), registers (R121), hardware loops (R130),
local-memory checks (R126, R127) and vector groups (R150). -/

namespace Sys2Proof.Machine

/-- What an instruction does to its core: commits, waits where it is (R116), or faults with cause, FADDR and ELEMENT (R144). -/
inductive InsnRes where
  | done (k : Core)
  | waits
  | fault (cause : Nat) (addr : Int) (elem : Nat)
  deriving DecidableEq, Repr

/-- The ILLEGAL fault (R137). -/
def illegal : InsnRes := .fault 0x01 0 0xFF

/-- Guard an instruction by its encoding check (R137): ILLEGAL precedes every other fault (R144). -/
def legalThen (ok : Bool) (r : InsnRes) : InsnRes := if ok then r else illegal

/-! ### Instruction fields (R136) -/

def fOp (w : Nat) : Nat := bitsAt w 26 6
/-- The opcodes R138 lists. -/
def opDefined (op : Nat) : Bool :=
  decide (op < 0x40) && !([0x07, 0x0D, 0x0E, 0x0F, 0x27, 0x2F, 0x32, 0x33, 0x3B].contains op)
def fD (w : Nat) : Nat := bitsAt w 21 5
def fA (w : Nat) : Nat := bitsAt w 16 5
def fB (w : Nat) : Nat := bitsAt w 11 5
def fImm (w : Nat) : Nat := bitsAt w 0 16
def fImmS (w : Nat) : Int := toSigned 16 (fImm w)

/-! ### Registers (R121) -/

def Core.getS (k : Core) (i : Nat) : Word := Tab.getD (fun _ => 0) k.s i
def Core.setS (k : Core) (i : Nat) (v : Word) : Core := { k with s := Tab.setD (fun _ => 0) k.s i v }
def Core.setSN (k : Core) (i : Nat) (v : Nat) : Core := k.setS i (BitVec.ofNat 32 v)
def Core.setSI (k : Core) (i : Nat) (v : Int) : Core := k.setS i (BitVec.ofInt 32 v)
def Core.getP (k : Core) (i : Nat) : Nat := Tab.getD (fun _ => 0) k.p i
/-- Pointers wrap modulo 2^18 (R129). -/
def Core.setP (k : Core) (i : Nat) (v : Int) : Core := { k with p := Tab.setD (fun _ => 0) k.p i (ofSigned 18 v) }
/-- Offsets are signed 18-bit (R121). -/
def Core.getM (k : Core) (i : Nat) : Int := toSigned 18 (Tab.getD (fun _ => 0) k.m i)
def Core.setM (k : Core) (i : Nat) (v : Int) : Core := { k with m := Tab.setD (fun _ => 0) k.m i (ofSigned 18 v) }
/-- K0 reads all ones (R121). -/
def Core.getK (k : Core) (i : Nat) : Nat := if i = 0 then 2 ^ 128 - 1 else Tab.getD (fun _ => 0) k.k i
/-- Writes to K0 are ignored (R121). -/
def Core.setK (k : Core) (i v : Nat) : Core := if i = 0 then k else { k with k := Tab.setD (fun _ => 0) k.k i v }
def Core.getV (k : Core) (i : Nat) : Nat := Tab.getD (fun _ => 0) k.v i
def Core.setV (k : Core) (i v : Nat) : Core := { k with v := Tab.setD (fun _ => 0) k.v i v }
/-- The 128 parts of an accumulator at reset: zeros. -/
def accZero : List Int := List.replicate 128 0
def Core.getAcc (k : Core) (a : Nat) : List Int := Tab.getD (fun _ => accZero) k.acc a
def Core.setAcc (k : Core) (a : Nat) (l : List Int) : Core := { k with acc := Tab.setD (fun _ => accZero) k.acc a l }
/-- A control register other than CYCLES, CORE_ID, ACFLAGS and LOOP_CNT, by number; FCAUSE.ELEMENT resets to 0xFF (R147). -/
def crReset (n : Nat) : Nat := if n = 0x03 then 0xFF00 else 0
def Core.getCr (k : Core) (n : Nat) : Nat := Tab.getD crReset k.cr n
def Core.setCr (k : Core) (n v : Nat) : Core := { k with cr := Tab.setD crReset k.cr n v }
def Core.inHandler (k : Core) : Bool := bitAt (k.getCr 0x03) 16
def Core.setInHandler (k : Core) (b : Bool) : Core := k.setCr 0x03 (putBits (k.getCr 0x03) 16 1 (b2n b))

/-! ### Local memory (R122) -/

/-- The 12-bit word at a local word address, taken modulo 2^18. -/
def Core.word (k : Core) (a : Nat) : Nat := Tab.getD (fun _ => 0) k.mem (a % 2 ^ 18)
def Core.wordS (k : Core) (a : Nat) : Int := toSigned 12 (k.word a)
def Core.setWord (k : Core) (a : Nat) (v : Nat) : Core :=
  { k with mem := Tab.setD (fun _ => 0) k.mem (a % 2 ^ 18) (v % 4096) }
/-- Write a list of (address, word) pairs, in order. -/
def Core.setWords (k : Core) (l : List (Nat × Nat)) : Core := l.foldl (fun k (a, v) => k.setWord a v) k

/-! ### Advancing the program counter (R130) -/

/-- After an instruction whose successor is `next`: where the innermost loops end there, the innermost decrements first,
and an outer level counts only when the inner has finished (R130). -/
def loopsAt (next : Nat) : List Loop → Nat × List Loop
  | [] => (next, [])
  | l :: ls =>
    if next == l.stop then
      if l.count > 1 then (l.start, { l with count := l.count - 1 } :: ls)
      else loopsAt next ls
    else (next, l :: ls)

/-- Go on to the next instruction in sequence. In the fault handler no loop counts: loop state survives it unchanged (R130). -/
def Core.advTo (k : Core) (next : Nat) : Core :=
  if k.inHandler then { k with pc := next % 2 ^ 21 }
  else
    let r := loopsAt (next % 2 ^ 21) k.loops
    { k with pc := r.1, loops := r.2 }
def Core.adv (k : Core) : Core := k.advTo (k.pc + 1)

/-- Levels whose body holds the target survive a taken branch; inner levels end (R130). -/
def loopsBranch (t : Nat) : List Loop → List Loop
  | [] => []
  | l :: ls => if l.start ≤ t ∧ t < l.stop then l :: ls else loopsBranch t ls

/-- A taken branch, JMP or JR to `t` (R130); in the fault handler it ends no level. -/
def Core.jump (k : Core) (t : Nat) : Core :=
  { k with pc := t % 2 ^ 21, loops := if k.inHandler then k.loops else loopsBranch (t % 2 ^ 21) k.loops }

/-! ### Access checks (R126, R127, R144) -/

/-- Region `r` of R127 forbids this access to word `a`. -/
def Core.regionForbids (k : Core) (write : Bool) (a r : Nat) : Bool :=
  let b := k.getCr (0x10 + 2 * r)
  let l := k.getCr (0x11 + 2 * r)
  bitAt b 31 && decide (bitsAt b 0 18 ≤ a) && decide (a ≤ bitsAt l 0 18)
    && (if write then bitAt b 30 else bitAt b 29)

/-- Some region forbids it: a prohibition in any one applies (R127). -/
def Core.protForbids (k : Core) (write : Bool) (a : Nat) : Bool :=
  (upTo 4).any fun r => k.regionForbids write a r

/-- A transfer in flight guards word `a` against this access (R126): one that writes local memory (IN) against reads
and writes, one that only reads it against writes. -/
def Core.guarded (k : Core) (write : Bool) (a : Nat) : Bool :=
  k.dma.vals.any fun t => t.guards && decide (t.lo ≤ a) && decide (a ≤ t.hi) && (write || t.dir == 0)

/-- The fault, if any, of an access to a list of words, each with its direction: PROTECTION before DMA_GUARD (R144);
FADDR is the first offending word. -/
def Core.accessFault (k : Core) (acc : List (Nat × Bool)) : Option InsnRes :=
  match acc.find? (fun (a, wr) => k.protForbids wr (a % 2 ^ 18)) with
  | some (a, _) => some (.fault 0x04 (a % 2 ^ 18 : Nat) 0xFF)
  | none =>
    match acc.find? (fun (a, wr) => k.guarded wr (a % 2 ^ 18)) with
    | some (a, _) => some (.fault 0x05 (a % 2 ^ 18 : Nat) 0xFF)
    | none => none

/-- Perform `r` unless the access faults. -/
def Core.access (k : Core) (acc : List (Nat × Bool)) (r : InsnRes) : InsnRes :=
  match k.accessFault acc with
  | some f => f
  | none => r

/-- Complex accesses need an even address (R129), else ALIGN. -/
def alignedThen (a : Nat) (r : InsnRes) : InsnRes :=
  if a % 2 = 1 then .fault 0x02 (a : Nat) 0xFF else r

/-- `n` consecutive word addresses from `a`, modulo 2^18. -/
def wordsFrom (a n : Nat) : List Nat := (upTo n).map fun i => (a + i) % 2 ^ 18

/-! ### Vector groups (R150) -/

/-- Group size of a G field: 1, 2 or 4 registers (R136). -/
def gSize (g : Nat) : Nat := if g = 0 then 1 else if g = 1 then 2 else 4
/-- G = 3 is reserved (R136). -/
def gOk (g : Nat) : Bool := g != 3
/-- A group register number must be a multiple of its group size (R137). -/
def grpOk (g v : Nat) : Bool := v % gSize g == 0

/-- Elements of one 384-bit register value, element 0 first, signed. -/
def elemsOf (x : Nat) : List Int := (upTo 32).map fun e => toSigned 12 (bitsAt x (12 * e) 12)
/-- The 384-bit value of up to 32 elements. -/
def packElems : List Int → Nat
  | [] => 0
  | x :: t => ofSigned 12 x + 4096 * packElems t

/-- The elements of the group of `n` registers from `v` (R150). -/
def Core.getGroup (k : Core) (v n : Nat) : List Int := (upTo n).flatMap fun i => elemsOf (k.getV (v + i))
/-- Write `32 * n` elements to the group of `n` registers from `v`. -/
def Core.setGroup (k : Core) (v : Nat) (n : Nat) (l : List Int) : Core :=
  (upTo n).foldl (fun k i => k.setV (v + i) (packElems (slice l (32 * i) 32))) k

/-- Element `e` of a list of numbers, 0 past its end. -/
def el (l : List Int) (e : Nat) : Int := nth 0 l e

end Sys2Proof.Machine
end

