-- ==== Sys2Proof/Machine/Regs.lean ====
section
/-! DEFINITION. The register space (R459-R477): lookup, reset values, domains, enable states of the blocks, errors, and
what a 32-bit write does to a register's fields. What a field's change then triggers stands with each chapter. -/

namespace Sys2Proof.Machine

/-! ### Lookup (R476) -/

/-- REGERR, REGERR_ADDR and REGERR_INFO, which end every block's window, in its common domain (R475). -/
def regErrFams : List RegFam :=
  [⟨"REGERR", 0x3FFF00, [], false, false, .common, .none,
     [⟨0, 3, .cnt, 0, []⟩, ⟨3, 3, .cnt, 0, []⟩, ⟨6, 3, .cnt, 0, []⟩, ⟨9, 3, .cnt, 0, []⟩, ⟨12, 3, .cnt, 0, []⟩]⟩,
   ⟨"REGERR_ADDR", 0x3FFF04, [], true, false, .common, .none, [⟨0, 28, .sts, 0, []⟩]⟩,
   ⟨"REGERR_INFO", 0x3FFF08, [], false, false, .common, .none,
     [⟨0, 4, .sts, 0, []⟩, ⟨4, 3, .sts, 0, []⟩, ⟨7, 4, .sts, 0, []⟩, ⟨15, 1, .sts, 0, []⟩]⟩]

/-- The register families of block `b`; none: the window is a hole (R476). -/
def blockFams (b : Nat) : Option (List RegFam) :=
  match b with
  | 0x00 => some familiesHIF
  | 0x01 => some familiesMGT
  | 0x02 => some familiesSEC
  | 0x03 => some familiesLYR
  | 0x04 => some familiesWDS
  | 0x05 => some familiesDFE
  | 0x06 => some familiesNBB
  | 0x07 => some familiesZTH
  | 0x08 => some familiesETH
  | 0x09 => some familiesTMU
  | 0x0A => some familiesMEM
  | 0x0B => some familiesCBF
  | 0x0C => some familiesCKR
  | 0x0D => some familiesPMU
  | 0x0E => some familiesTHM
  | 0x0F => some familiesOBS
  | _ => if 0x10 ≤ b ∧ b < 0x1C then some familiesPOD
    else if 0x20 ≤ b ∧ b < 0x2C then some familiesCPX else none

/-- The block number of a register-space offset. -/
def blockOf (off : Nat) : Nat := off / 0x400000

/-- Array indices of the distance `r` from a family's first register. -/
def dimIdx : List (Nat × Nat) → Nat → Option (List Nat)
  | [], r => if r = 0 then some [] else none
  | (c, s) :: t, r =>
    if r / s < c then
      match dimIdx t (r % s) with
      | some l => some (r / s :: l)
      | none => none
    else none

/-- The indices at which family `f` has a register at window offset `o`. -/
def famIdx (f : RegFam) (o : Nat) : Option (List Nat) := if o < f.off then none else dimIdx f.dims (o - f.off)

/-- The first family with a register at window offset `o`. -/
def findFam : List RegFam → Nat → Option (RegFam × List Nat)
  | [], _ => none
  | f :: fs, o => match famIdx f o with
    | some l => some (f, l)
    | none => findFam fs o

/-- Lane registers that do not apply to the lane's type are holes (R374): CTX 0-51, CRX 52-83, EL 84-103, PL 104-111. -/
def laneHole (off : Nat) : Bool :=
  let o := off % 0x400000
  decide (blockOf off = 7) && decide (0x1000 ≤ o) && decide (o < 0x1000 + 112 * 0x40) &&
    let i := (o - 0x1000) / 0x40
    let r := o % 0x40
    (decide (i < 52) && [0x10, 0x14, 0x18, 0x20, 0x24].contains r) ||
    (decide (52 ≤ i) && decide (i < 84) && [0x04, 0x0C, 0x1C].contains r) ||
    ((decide (i < 52) || decide (104 ≤ i)) && decide (0x28 ≤ r))

/-- The register at a register-space offset, if one is implemented there. -/
def regAt (off : Nat) : Option (RegFam × List Nat) :=
  match blockFams (blockOf off) with
  | none => none
  | some fs => if laneHole off then none else findFam (fs ++ regErrFams) (off % 0x400000)

/-! ### Reset values -/

/-- Value of a register with every field at its tabled reset value. -/
def fieldsReset : List FieldSpec → Nat
  | [] => 0
  | f :: fs => f.reset * 2 ^ f.lo + fieldsReset fs

/-- Reset route entry of stop `s` for destination `d` (R318): the shorter way, CW on a tie; D0 for classes 1 and 3, D1 for
class 2; class 0 on the strand of the stop's reset-owned slot (R311). -/
def routeReset (s d : Nat) : Nat :=
  let dir := if (d + 28 - s) % 28 ≤ 14 then 0 else 2
  let q := s / 7
  ((q / 2) + 2 * (q % 2)) + dir * 0x10 + (1 + dir) * 0x100 + dir * 0x1000

/-- The reset value of the register at `off`: the tabled one, but for those the spec gives by formula (R311, R318) and
PD_AON, which is always in RUN (R413). -/
def regReset (off : Nat) : Word :=
  BitVec.ofNat 32 <|
    match regAt off with
    | none => 0
    | some (f, idx) =>
      if f.off = 0x40 ∧ blockOf off = 3 then 0x20 + nth 0 idx 1
      else if f.off = 0x10000 ∧ blockOf off = 3 then routeReset (nth 0 idx 0) (nth 0 idx 2)
      else if off = rPMU_PDd_STS 79 then 0
      else fieldsReset f.fields

/-- The stored value of the register at `off`. -/
def Dev.word (d : Dev) (off : Nat) : Word := Tab.getD regReset d.regs off

/-- The stored value of the register at `off`, as a number. -/
def Dev.reg (d : Dev) (off : Nat) : Nat := (d.word off).toNat

/-- Store `v` in the register at `off`, keeping the table's canonical form. -/
def Dev.setReg (d : Dev) (off v : Nat) : Dev :=
  { d with regs := Tab.setD regReset d.regs off (BitVec.ofNat 32 v) }

/-- Read a field. -/
def Dev.rf (d : Dev) (f : Fld) : Nat := bitsAt (d.reg f.off) f.lo f.w

/-- Write a field; the register's other bits stay. -/
def Dev.wf (d : Dev) (f : Fld) (v : Nat) : Dev := d.setReg f.off (putBits (d.reg f.off) f.lo f.w v)

/-- A one-bit field is 1. -/
def Dev.flag (d : Dev) (f : Fld) : Bool := d.rf f == 1

/-- Set or clear a one-bit field. -/
def Dev.setFlag (d : Dev) (f : Fld) (b : Bool) : Dev := d.wf f (b2n b)

/-- A counter counts `n` events; it wraps (R12). -/
def Dev.bumpBy (d : Dev) (f : Fld) (n : Nat) : Dev := d.wf f ((d.rf f + n) % 2 ^ f.w)
/-- A counter counts one event. -/
def Dev.bump (d : Dev) (f : Fld) : Dev := d.bumpBy f 1
/-- A saturating counter counts one event. -/
def Dev.bumpSat (d : Dev) (f : Fld) : Dev := if d.rf f = 2 ^ f.w - 1 then d else d.bump f

/-- A 64-bit value in a LO and HI register pair. -/
def Dev.rf64 (d : Dev) (lo hi : Fld) : Nat := d.rf lo + 2 ^ 32 * d.rf hi
def Dev.wf64 (d : Dev) (lo hi : Fld) (v : Nat) : Dev := (d.wf lo (v % 2 ^ 32)).wf hi (v / 2 ^ 32 % 2 ^ 32)

/-! ### Power domains (R412-R414, R472) -/

/-- State of domain `i`: 0 RUN, 1 IDLE, 2 RETAIN, 3 OFF, 4 ENTERING, 5 WAKING (R426). -/
def Dev.dom (d : Dev) (i : Nat) : Nat := d.rf (PMU_PDd_STS_STATE i)
/-- In RUN or IDLE. -/
def Dev.domOn (d : Dev) (i : Nat) : Bool := decide (d.dom i ≤ 1)
/-- In RUN. -/
def Dev.domRun (d : Dev) (i : Nat) : Bool := d.dom i == 0

/-- The domain of a core (R412). -/
def coreDom (c : Nat) : Nat := if c % 9 < 5 then 3 * (c / 9) else 3 * (c / 9) + 1
/-- The domain of a lane (R350). -/
def laneDom (i : Nat) : Nat := if i < 84 then 46 + min 10 (i / 8) else if i < 104 then 57 + (i - 84) / 4 else 62

/-- The common domain of block `b` (R476). -/
def blockDomain (b : Nat) : Nat :=
  match b with
  | 0x00 => 76
  | 0x02 | 0x0C | 0x0D | 0x0E => 79
  | 0x04 => 75
  | 0x06 => 44
  | 0x07 | 0x08 => 62
  | 0x0F => 77
  | _ => if 0x10 ≤ b then 3 * (b % 16) + 2 else 78

/-- The domain the register at `off` answers from (R472); `i` is its first array index. -/
def regDomain (dom : RegDom) (off i : Nat) : Nat :=
  let p := blockOf off % 16
  match dom with
  | .hif => 76
  | .mgt => 78
  | .aon => 79
  | .wds => 75
  | .obs => 77
  | .nbb0 => 44
  | .nbb1 => 45
  | .zthP => 62
  | .dfeTxG => 36 + i
  | .dfeRxG => 40 + i
  | .dfeTx16 => 36 + i / 16
  | .dfeRx16 => 40 + i / 16
  | .dfeOrx => 36 + i / 2
  | .dfeRxPrach => 40 + i / 8
  | .dfeRxNbw => 40 + i / 4
  | .lane => laneDom i
  | .zthE => 57 + i
  | .zthEk => 57 + i / 4
  | .memCh => 63 + i
  | .podCore => coreDom (9 * p + i)
  | .podS => 3 * p + 2
  | .common => blockDomain (blockOf off)

/-! ### Errors (R475) -/

/-- Code of an initiator (R459). -/
def initCode : Initiator → Nat
  | .host => 0
  | .firmware => 1
  | .pod _ => 2
  | .jtag => 3
  | .group => 4

/-- Pod of a pod-core initiator, else 0. -/
def initPod : Initiator → Nat
  | .pod p => p.val
  | _ => 0

/-- What went wrong with an access, with its KIND code. -/
inductive RegErr where
  | narrow | align | hole | ignored | collide | guard | domainOff | timeout
  deriving DecidableEq, Repr

/-- KIND of REGERR_INFO. -/
def RegErr.kind : RegErr → Nat
  | .narrow => 1
  | .align => 2
  | .hole => 3
  | .ignored => 4
  | .collide => 5
  | .guard => 6
  | .domainOff => 7
  | .timeout => 8

/-- The block that records an error at `off`: the one whose window it addresses, and MGT for windows no block owns and
for DOMAIN_OFF and TIMEOUT. -/
def errBlock (e : RegErr) (off : Nat) : Nat :=
  if e = .domainOff ∨ e = .timeout ∨ (blockFams (blockOf off)).isNone then 1 else blockOf off

/-- Fields of block `b`'s REGERR registers. -/
def regErrCnt (b i : Nat) : Fld := ⟨b * 0x400000 + 0x3FFF00, 3 * i, 3⟩
def regErrAddr (b : Nat) : Fld := ⟨b * 0x400000 + 0x3FFF04, 0, 28⟩
def regErrInfo (b : Nat) : Fld := ⟨b * 0x400000 + 0x3FFF08, 0, 11⟩
def regErrGuard (b : Nat) : Fld := ⟨b * 0x400000 + 0x3FFF08, 15, 1⟩

/-- Open or close the THM guard, shown in GUARD_OPEN (R469). -/
def Dev.setGuard (d : Dev) (b : Bool) : Dev := { d.setFlag (regErrGuard 0x0E) b with guardOpen := b }

/-- Record an access error (R475); NARROW, ALIGN and HOLE in the THM window close its guard (R469). Registers of a domain that is not
in RUN or IDLE record nothing (assumption log). -/
def Dev.regErr (d : Dev) (e : RegErr) (off : Nat) (init : Initiator) : Dev :=
  let b := errBlock e off
  if !d.domOn (blockDomain b) then d else
  let d1 := match e with
    | .narrow => d.bumpSat (regErrCnt b 0)
    | .align => d.bumpSat (regErrCnt b 1)
    | .hole => d.bumpSat (regErrCnt b 2)
    | .ignored | .guard => d.bumpSat (regErrCnt b 3)
    | .collide => d.bumpSat (regErrCnt b 4)
    | .domainOff => d.bumpSat MGT_BUS_ERR_DOMAIN_OFF
    | .timeout => d.bumpSat MGT_BUS_ERR_TIMEOUT
  let d2 := (d1.wf (regErrAddr b) (off % 2 ^ 28)).wf (regErrInfo b) (e.kind + 16 * initCode init + 128 * initPod init)
  if (e = .narrow ∨ e = .align ∨ e = .hole) ∧ b = 0x0E then d2.setGuard false else d2

/-! ### Blocks and their enable states (R466) -/

/-- A queue pair is enabled while ENABLE or RUNNING is 1 (R65); pairs 64-127 are the user-plane pairs. -/
def Dev.pairOn (d : Dev) (q : Nat) : Bool := d.flag (HIF_CQn_CTL_ENABLE q) || d.flag (HIF_CQn_STS_RUNNING q)
/-- A timeline is enabled while ENABLE or RUNNING is 1 (R47). -/
def Dev.tlOn (d : Dev) (n : Nat) : Bool := d.flag (TMU_TLn_CTL_ENABLE n) || d.flag (TMU_TLn_STS_RUNNING n)
/-- Some timeline is enabled. -/
def Dev.anyTl (d : Dev) : Bool := (upTo 4).any d.tlOn

/-- Carrier context `c` is enabled, direct or remote. -/
def Dev.ccOn (d : Dev) (c : Nat) : Bool := d.flag (DFE_CCc_CTL_ENABLE c)
def Dev.ethCcOn (d : Dev) (c : Nat) : Bool := d.flag (ETH_CCc_CTL_ENABLE c)

/-- The JESD ENABLE of unit `u`: TX groups 0-3, RX groups 4-7, observation links 8-9 (R257). -/
def jesdEnable (u : Nat) : Fld :=
  if u < 4 then DFE_Jg_CTL_TX_ENABLE u else if u < 8 then DFE_Jg_CTL_RX_ENABLE (u - 4) else DFE_Jk_CTL_OBS_ENABLE (u - 8)

/-- Chain `t` carries an enabled direct carrier (R258). -/
def Dev.chainUsed (d : Dev) (t : Nat) : Bool :=
  (upTo 256).any fun c => d.ccOn c && decide (d.rf (DFE_CCc_PORTS_FIRST c) ≤ t)
    && decide (t < d.rf (DFE_CCc_PORTS_FIRST c) + d.rf (DFE_CCc_PORTS_COUNT c))

/-- Narrowband composite `w` takes an input of this chain while a WINDOW channel of the window has an enabled transmit role (R261). -/
def Dev.compChain (d : Dev) (w : Nat) : Option Nat :=
  if (upTo 16).any fun i => d.flag (NBB_CHn_CTL_TX_EN (16 * w + i)) && d.rf (NBB_CHn_MOD_SRC (16 * w + i)) == 0 then
    some (16 * (w / 4) + d.rf (DFE_NBW_w_CHAIN w))
  else none

/-- Chain `t` has an input: an enabled direct carrier, GSM ones among them, or a composite (R236, R258). -/
def Dev.chainInput (d : Dev) (t : Nat) : Bool := d.chainUsed t || (upTo 16).any fun w => d.compChain w == some t

/-- A two-bank control: bank `b` is active, named by a pending switch, or held (R285). -/
def bankOn (active pending held b : Nat) : Bool := active == b || pending == 1 || held == 1

/-- Whether the block of a register counts as enabled. `idx` are its array indices. -/
def Dev.blkOn (d : Dev) (b : RegBlk) (off : Nat) (idx : List Nat) : Bool :=
  let i := nth 0 idx 0
  let j := nth 0 idx 1
  match b with
  | .none => false
  | .cq => d.pairOn i
  | .upq => d.pairOn (64 + i)
  | .obBase => (upTo 128).any d.pairOn
  | .prot => true
  | .lyrEpoch =>
    -- the epoch is the first index of a reservation entry (two indices), the second of a route entry (three)
    let e := if idx.length = 3 then j else i
    d.flag LYR_EPOCH_DRAINING || d.rf LYR_EPOCH_ACTIVE == e
  | .wds => d.flag WDS_STS_RUNNING
  | .tl => d.tlOn i
  | .cc => d.ccOn i
  | .txChain => d.chainInput i || d.flag (DFE_TX_t_DPD_PENDING i)
  | .orx => !(Tab.getD (fun _ => []) d.dfe.caps i).isEmpty
  | .tdd => (upTo 256).any fun c =>
      (d.ccOn c && d.flag (DFE_CCc_CFG_TDD c) && d.rf (DFE_CCc_CFG_PAT c) == i) ||
      (d.ethCcOn c && d.flag (ETH_CCc_CFG_TDD c) && d.rf (ETH_CCc_CFG_PAT c) == i)
  | .gev => d.flag (DFE_GEV_e_CTL_ENABLE i)
  | .gpio => decide (2 ≤ d.rf (DFE_GPIO_l_CFG_MODE i))
  | .prach => d.flag (DFE_PRACH_x_CTL_ENABLE i)
  | .nbw => d.flag (DFE_NBW_w_CTL_ENABLE i)
  | .jesd => d.flag (jesdEnable (i + 4 * (off % 0x400000 / 0x100 - 1)))
  | .jesdAll => (upTo 10).any fun u => d.flag (jesdEnable u)
  | .dpdBank => bankOn (d.rf (DFE_TX_t_DPD_ACTIVE i)) (d.rf (DFE_TX_t_DPD_PENDING i))
      (d.rf (if i < 32 then ⟨rDFE_CAL_DPD_HELD_LO, i, 1⟩ else ⟨rDFE_CAL_DPD_HELD_HI, i - 32, 1⟩)) j
  | .iqcCtl => true
  | .iqcBank => bankOn (d.rf (DFE_IQC_r_CTL_ACTIVE i)) (d.rf (DFE_IQC_r_CTL_PENDING i)) (d.rf (DFE_IQC_r_CTL_HELD i)) j
  | .alnCtl => true
  | .alnBank => bankOn (d.rf (DFE_ALN_c_CTL_ACTIVE i)) (d.rf (DFE_ALN_c_CTL_PENDING i)) (d.rf (DFE_ALN_c_CTL_HELD i)) j
  | .geo => (upTo 64).any fun c => d.flag (DFE_ALN_c_CTL_HELD c)
  | .nbch => d.flag (NBB_CHn_CTL_RX_EN i) || d.flag (NBB_CHn_CTL_TX_EN i)
  | .lane => d.flag (ZTH_Li_STS_IN_SERVICE i)
  | .spcBank => bankOn (d.rf (ZTH_Li_SPC_CTL_ACTIVE i)) (d.rf (ZTH_Li_SPC_CTL_PENDING i)) (d.rf (ZTH_Li_SPC_CTL_HELD i)) j
  | .zthEth => d.flag (ETH_Pp_CTL_ENABLE i)
  | .ethPort => d.flag (ETH_Pp_CTL_ENABLE i)
  | .ethLink => d.flag (ETH_Pp_CTL_ENABLE (i / 4))
  | .ethMq => d.flag (ETH_MQ_p_TXq_CTL_ENABLE i j)
  | .ethMqRx => d.flag (ETH_MQ_p_TXq_CTL_ENABLE i 4)
  | .ethCC => d.ethCcOn i
  | .ethRad => (upTo 256).any fun c => d.ethCcOn c &&
      (upTo (d.rf (ETH_CCc_PORTS_COUNT c))).any fun n =>
        d.rf (ETH_ST_s_CFG_RADIO (d.rf (ETH_CCc_PORTS_FIRST c) + n)) == i
  | .ethSt => (upTo 256).any fun c => d.ethCcOn c && decide (d.rf (ETH_CCc_PORTS_FIRST c) ≤ i)
      && decide (i < d.rf (ETH_CCc_PORTS_FIRST c) + d.rf (ETH_CCc_PORTS_COUNT c))
  | .tmuInc => d.rf TMU_INC_CTL_ACTIVE == i || d.flag TMU_INC_CTL_PENDING
  | .timeOut => d.flag TMU_PPS_OUT_EN || d.flag TMU_TOD_CFG_TX_EN || d.flag TMU_SYNCE_EN || d.anyTl || d.tmu.source != 2
  | .memCtl => d.flag MEM_CTL_ENABLE
  | .memRec => decide (1 ≤ d.rf OBS_REC_STS_STATE)
  | .memFw => d.flag MEM_FW_CTL_ENABLE
  | .memFwR => decide (i < 16) || d.flag MEM_FW_CTL_ENABLE
  | .harq => decide (0 < d.rf (MEM_HARQ_p_USED i))
  | .obsRec => d.rf OBS_REC_STS_STATE == 1 || d.rf OBS_REC_STS_STATE == 2

/-! ### What a write does to a register (R461-R468) -/

/-- The fields of a write as they go: register value so far, whether a field was discarded, command bits accepted. -/
structure WriteAcc where
  v : Nat
  ignored : Bool
  cmds : Nat
  deriving DecidableEq, Repr

/-- A register of 2-bit codes in which 3 is reserved (R249, R278). -/
def codeReg (off : Nat) : Bool :=
  (decide (rDFE_TDDn_ROW_j 0 0 ≤ off) && decide (off < rDFE_TDDn_CFG 16) && off % 0x100 != 0) ||
  (decide (rNBB_CHn_GSM 0 ≤ off) && decide (off ≤ rNBB_CHn_GSM 255) && off % 0x40 == 0x2C)
/-- A route entry: four nibbles, ACTION codes 1 and 3 reserved in each (R318). -/
def routeReg (off : Nat) : Bool := decide (rLYR_RT_s_e_d 0 0 0 ≤ off) && decide (off ≤ rLYR_RT_s_e_d 27 1 27)
/-- A field value of the register at `off` holds a code that its chapter's text, not its field table, reserves: code 3 of 2-bit codes;
an odd ACTION of a route entry. -/
def badCode (off w v : Nat) : Bool :=
  (codeReg off && (upTo (w / 2)).any fun i => bitsAt v (2 * i) 2 == 3) || (routeReg off && (upTo 4).any fun c => bitAt v (4 * c + 2))

/-- One field of the register at `off` takes its part of a write under its kind (R12, R13, R462, R466, R468). `m` is the mask, `x` the
value. -/
def writeField (on : Bool) (off m x : Nat) (a : WriteAcc) (f : FieldSpec) : WriteAcc :=
  let fm := bitsAt m f.lo f.w
  if fm = 0 then a
  else
    let old := bitsAt a.v f.lo f.w
    let nv := ((2 ^ f.w - 1 - fm) &&& old) ||| (fm &&& bitsAt x f.lo f.w)
    if (f.rsv.any fun r => decide (r.1 ≤ nv) && decide (nv ≤ r.2)) || badCode off f.w nv then { a with ignored := true }
    else match f.kind with
    | .cfg => if on then { a with ignored := true } else { a with v := putBits a.v f.lo f.w nv }
    | .ctl | .cnt => { a with v := putBits a.v f.lo f.w nv }
    | .sts | .key => a
    | .cmd => { a with cmds := a.cmds + nv * 2 ^ f.lo }

/-- ARG values that name no link unit are reserved in REMAP_STROBE mode (R250). -/
def strobeArg (off old : Nat) (a : WriteAcc) : WriteAcc :=
  if rDFE_GPIO_l_CFG 0 ≤ off ∧ off < rDFE_GPIO_l_CFG 64 ∧ off % 0x10 = 0 ∧ bitsAt a.v 0 3 = 6 ∧ 10 ≤ bitsAt a.v 5 5 then
    { a with v := putBits a.v 5 5 (bitsAt old 5 5), ignored := true }
  else a

/-- Mask and value of a 32-bit write to a WIDE or MASKED register (R461). -/
def writeMask (wide : Bool) (value : Nat) : Nat := if wide then 2 ^ 32 - 1 else value / 2 ^ 16
def writeVal (wide : Bool) (value : Nat) : Nat := if wide then value % 2 ^ 32 else value % 2 ^ 16

/-- How a register write ends: not taken (an access error), or taken with the command bits it fired. -/
inductive Wrote where
  | no
  | yes (cmds : Nat)
  deriving DecidableEq, Repr

/-- Holes by initiator; a debug session writes the pods' blocks at level FULL and every block at RMA (R456, assumption log) (R459, R96, R332, R426; R476 in RECOVERY). -/
def Dev.holeFor (d : Dev) (init : Initiator) (off : Nat) : Bool :=
  (regAt off).isNone || (d.flag SEC_BOOT_STS_RECOVERY && blockOf off != 2) ||
  (!d.flag SEC_BOOT_STS_RECOVERY && (off == rSEC_RECOVERY_CTL || off == rSEC_RECOVERY_LEN)) ||
  (match init with
   | .pod p => blockOf off != 0x10 + p.val && blockOf off != 0x20 + p.val
   | .jtag => d.rf SEC_DEBUG_STS_LEVEL != 3 && (d.rf SEC_DEBUG_STS_LEVEL != 2 || decide (blockOf off < 0x10))
   | _ => false)

/-- The host's way into the space, PD_HIF, is down: its accesses are answered as for a domain that is off (R424, R84). -/
def Dev.hostDown (d : Dev) (init : Initiator) : Bool := init == .host && !d.domOn 76

/-- A 32-bit aligned write: HOLE, then the domain, then the guard, then the fields (R470, R472, R469, R466). -/
def Dev.busWr (d : Dev) (init : Initiator) (off value : Nat) : Dev × Wrote :=
  if d.holeFor init off then (d.regErr .hole off init, .no)
  else match regAt off with
  | none => (d, .no)
  | some (f, idx) =>
    if d.hostDown init || !d.domOn (regDomain f.dom off (nth 0 idx 0)) then (d.regErr .domainOff off init, .no)
    else if off = rTHM_UNLOCK then (d.setGuard (value % 2 ^ 32 == 0xFFFF5AC3), .yes 0)
    else if f.guarded && !d.guardOpen && init != .group then (d.regErr .guard off init, .no)
    else
      let a := strobeArg off (d.reg off) (f.fields.foldl (writeField (d.blkOn f.blk off idx) off (writeMask f.wide value)
        (writeVal f.wide value)) ⟨d.reg off, false, 0⟩)
      let d1 := d.setReg off a.v
      let d2 := if a.ignored then d1.regErr .ignored off init else d1
      (if f.guarded && init != .group then d2.setGuard false else d2, .yes a.cmds)

/-- The write alone. -/
def Dev.busReg (d : Dev) (init : Initiator) (off value : Nat) : Dev := (d.busWr init off value).1

/-- A 32-bit aligned read (R470, R472): the bus answers all ones for a domain that is off. -/
def Dev.busRd (d : Dev) (init : Initiator) (off : Nat) : Dev × Nat :=
  if d.holeFor init off then (d.regErr .hole off init, 0)
  else match regAt off with
  | none => (d, 0)
  | some (f, idx) =>
    if d.hostDown init || !d.domOn (regDomain f.dom off (nth 0 idx 0)) then (d.regErr .domainOff off init, 2 ^ 32 - 1)
    else (d, d.reg off)

end Sys2Proof.Machine
end

