-- ==== Sys2Proof/Machine/Rec.lean ====
section
/-! DEFINITION. TMU time (R3, R390) and the recorder's log (R496-R499). -/

namespace Sys2Proof.Machine

/-! ### Time -/

/-- TMU nanoseconds within the second, and seconds. -/
def Dev.ns (d : Dev) : Nat := d.now / 2 ^ 32 % 1000000000
def Dev.secs (d : Dev) : Nat := d.now / 2 ^ 32 / 1000000000
/-- The four T128 words of a time: fraction, nanoseconds, seconds low, seconds high. -/
def t128 (t : Nat) : List Nat :=
  let s := t / 2 ^ 32 / 1000000000
  [t % 2 ^ 32, t / 2 ^ 32 % 1000000000, s % 2 ^ 32, s / 2 ^ 32 % 2 ^ 32]
/-- A T128 time as one 128-bit number, word 0 lowest. -/
def t128Nat (t : Nat) : Nat := (t128 t).foldr (fun w a => w + 2 ^ 32 * a) 0
/-- Nanoseconds, microseconds and milliseconds in units of `now`. -/
def nsT (n : Nat) : Nat := n * 2 ^ 32
def usT (n : Nat) : Nat := nsT (1000 * n)
def msT (n : Nat) : Nat := nsT (1000000 * n)

/-- The increment per tick of TMU time: the active bank (R391). -/
def Dev.tickInc (d : Dev) : Nat :=
  let b := d.rf TMU_INC_CTL_ACTIVE
  d.rf (TMU_INC_b_NS b) * 2 ^ 32 + d.rf (TMU_INC_b_FRAC b)

/-- A pending bank switch takes effect (R391). -/
def Dev.bankTick (d : Dev) : Dev :=
  if d.flag TMU_INC_CTL_PENDING then
    (d.wf TMU_INC_CTL_ACTIVE (1 - d.rf TMU_INC_CTL_ACTIVE)).setFlag TMU_INC_CTL_PENDING false
  else d

/-- TMU time moves on by `n` ticks; a pending bank is active from the first of them. -/
def Dev.ticks (d : Dev) (n : Nat) : Dev :=
  if n = 0 then d
  else
    let e := d.bankTick
    { e with now := e.now + n * e.tickInc, cyc := e.cyc + n }
/-- TMU time moves on to the first tick at or after `t` (never back). -/
def Dev.advanceTo (d : Dev) (t : Nat) : Dev := if t ≤ d.now then d else d.ticks (ceilDiv (t - d.now) (max 1 d.bankTick.tickInc))

/-- A fresh free number below `m` (assumption log 2). -/
def Dev.fresh (d : Dev) (m : Nat) : Dev × Nat := ({ d with free := d.free + 1 }, Config.free d.free % m)

/-! ### DDR5 channels (R336, R337) -/

/-- Capacity of channel `k` in bytes; 0 for a combination R336 does not support. -/
def Dev.chCap (d : Dev) (k : Nat) : Nat :=
  let g := match d.rf (MEM_CHk_CFG_WIDTH k), d.rf (MEM_CHk_CFG_DENSITY k), d.rf (MEM_CHk_CFG_RANKS k) with
    | 0, 0, 0 => 16
    | 0, 0, 1 => 32
    | 0, 1, 0 => 24
    | 0, 2, 0 => 32
    | 1, 0, 0 => 32
    | _, _, _ => 0
  g * 2 ^ 30
/-- Channel `k`'s capacity in the address map: that of its registers, or, where its domain has lost them, the one they gave before. -/
def Dev.chSize (d : Dev) (k : Nat) : Nat := match Tab.find d.mem.caps k with
  | some x => x
  | none => d.chCap k
/-- Channel `k` is populated. -/
def Dev.chHere (d : Dev) (k : Nat) : Bool := bitAt (d.rf MEM_CTL_POPULATED) k
/-- The channel a DDR5 address lies in; none: a hole. -/
def Dev.ddrChannel (d : Dev) (a : Nat) : Option Nat :=
  if d.rf MEM_CTL_MODE = 0 then
    if a < 4 * d.chSize 0 ∧ d.rf MEM_CTL_POPULATED = 15 then some (bitsAt a 12 2) else none
  else
    let k := a / 0x0800000000
    if k < 4 ∧ a % 0x0800000000 < d.chSize k ∧ d.chHere k then some k else none
/-- One past the highest populated DDR5 address (R344). -/
def Dev.ddrTop (d : Dev) : Nat :=
  if d.rf MEM_CTL_MODE = 0 then (if d.rf MEM_CTL_POPULATED = 15 then 4 * d.chSize 0 else 0)
  else (upTo 4).foldl (fun t k => if d.chHere k then 0x0800000000 * k + d.chSize k else t) 0
/-- Bytes of the populated range (R337): INTERLEAVE has none unless all four channels are populated. -/
def Dev.ddrSize (d : Dev) : Nat :=
  if d.rf MEM_CTL_MODE = 0 then d.ddrTop else sumNat ((upTo 4).map fun k => if d.chHere k then d.chSize k else 0)

/-- Every populated channel that holds part of the `n` bytes from `a` on is in RUN. -/
def Dev.ddrUp (d : Dev) (a n : Nat) : Bool :=
  (upTo 4).all fun k => !d.chHere k || d.domRun (63 + k) ||
    (d.rf MEM_CTL_MODE != 0 && (decide (a + n ≤ 0x0800000000 * k) || decide (0x0800000000 * (k + 1) ≤ a)))
/-- Not every populated channel is in RUN, or none is populated. -/
def Dev.noDdr (d : Dev) : Bool :=
  d.rf MEM_CTL_POPULATED == 0 || (upTo 4).any fun k => d.chHere k && !d.domRun (63 + k)
/-- The recorder region's channels are in RUN: without them the recorder is unavailable (R26). -/
def Dev.recMem (d : Dev) : Bool := d.ddrUp (d.rf MEM_REC_BASE * 2 ^ 20) (d.rf MEM_REC_SIZE * 2 ^ 20)

/-! ### The log (R499) -/

/-- CRC-32 of IEEE 802.3, one bit of the register. -/
def crc32Bit (c : Nat) : Nat := if c % 2 = 1 then (c / 2) ^^^ 0xEDB88320 else c / 2
/-- CRC-32 of IEEE 802.3 over bytes. -/
def crc32 (b : List Byte) : Nat :=
  (b.foldl (fun c x => (upTo 8).foldl (fun c _ => crc32Bit c) (c ^^^ x.toNat)) (2 ^ 32 - 1)) ^^^ (2 ^ 32 - 1)

/-- Bytes of the log area: the region less the capture area; the capture area's size is computed at REC_CONFIG and is what
the region holds beyond it (R497). -/
def dropOld (room : Nat) : Nat → List RecEntry → List RecEntry
  | 0, l => l
  | fuel + 1, l =>
    if room < l.foldl (fun a e => a + e.len) 0 then
      match l with
      | [] => []
      | _ :: t => dropOld room fuel t
    else l

/-- Recording: the state is RECORDING or TRIGGERED. -/
def Dev.recording (d : Dev) : Bool := d.rf OBS_REC_STS_STATE == 1 || d.rf OBS_REC_STS_STATE == 2

/-- The log, the bytes recorded and the drop mark take new values. -/
def Dev.putLog (d : Dev) (l : List RecEntry) (bytes : Nat) (lost : Bool) : Dev := { d with marrow.log := l, marrow.bytes := bytes, marrow.lost := lost }
/-- A record of `n` bytes goes to the end of the log, after a LOST record where bytes were dropped before it; the oldest records are overwritten
when the log area is full. -/
def Dev.recStore (d : Dev) (type tl period n : Nat) (body : List Byte) : Dev :=
  let mark : List RecEntry := if d.marrow.lost then [⟨0x0D, tl, period, 16, d.ns, d.secs % 2 ^ 32, []⟩] else []
  let l := d.marrow.log ++ (mark ++ [⟨type, tl, period, n, d.ns, d.secs % 2 ^ 32, body⟩])
  let kept := dropOld (d.marrow.cfg.size * 2 ^ 20 - d.marrow.cfg.area) l.length l
  (if kept.length < l.length then d.setFlag OBS_REC_STS_WRAPPED true else d).putLog kept (d.marrow.bytes + n + 16 * mark.length) false
/-- While the region's memory is not up, the bytes of a record are dropped and counted (R26, R499; assumption log 122). -/
def Dev.recDrop (d : Dev) (n : Nat) : Dev := (d.bumpBy OBS_REC_LOST n).putLog d.marrow.log d.marrow.bytes true
/-- Write a record while recording. A body whose layout the spec gives is padded to 16 bytes; of any other, only the length
is modelled, as a free value. -/
def Dev.recAdd (d : Dev) (type tl period : Nat) (body : Option (List Byte)) : Dev :=
  if !d.recording then d
  else match body with
    | some b => let n := 16 + 16 * ceilDiv b.length 16; if d.recMem then d.recStore type tl period n b else d.recDrop n
    | none =>
      let n := 16 + 16 * Config.free d.free
      let e : Dev := { d with free := d.free + 1 }
      if d.recMem then e.recStore type tl period n [] else e.recDrop n

/-- The body of a RESULT or TX_DIGEST record: the CRC-32 of the data, the allocation or 0xFFFF (assumption log 148). -/
def digestBody (data : List Byte) (alloc : Nat) : List Byte := leBytes 4 (crc32 data) ++ leBytes 2 alloc

/-- Keep of the captures what the capture area holds (R497): the last 200 periods of FD capture, or TD capture up to the area's size. -/
def keepCaptures (area period : Nat) (l : List RecEntry) : List RecEntry :=
  let l1 := l.filter fun e => e.type != 8 || decide ((period + 65536 - e.period) % 65536 < 200)
  dropOld area l1.length l1

/-- A capture record (R496), FD or TD, while recording: it goes into the capture area; with the region's memory down its bytes are dropped
and counted. -/
def Dev.capture (d : Dev) (type tl period : Nat) (body : List Byte) : Dev :=
  let n := 16 + 16 * ceilDiv body.length 16
  if !d.recording then d
  else if !d.recMem then d.recDrop n
  else { d with marrow.captures := keepCaptures d.marrow.cfg.area period (d.marrow.captures ++ [⟨type, tl, period, n, d.ns, d.secs % 2 ^ 32, body⟩]),
                marrow.bytes := d.marrow.bytes + n }

end Sys2Proof.Machine
end

