-- ==== Sys2Proof/Machine/Post.lean ====
section
/-! DEFINITION. TMU time, completion rings, events and health records (R3, R68-R81, R87-R89, R531). -/

namespace Sys2Proof.Machine

/-! ### Host memory (R72) -/

/-- The first host address of the outbound window. -/
def Dev.obBase (d : Dev) : Nat := d.rf HIF_OB_BASE * 2 ^ 36
/-- A host extent lies in the window. -/
def Dev.obOk (d : Dev) (a n : Nat) : Bool := decide (d.obBase ≤ a) && decide (a + n ≤ d.obBase + 2 ^ 36)

/-- Host memory after bytes were written at `a`; an unlisted byte is one the device has not written. -/
def putBytes (m : List Host.Cell) (a : Nat) : List Byte → List Host.Cell
  | [] => m
  | b :: bs => putBytes (Tab.put m a b) (a + 1) bs
/-- Write to host memory; after a PCIe reset nothing is written until a pair is enabled again (R410). -/
def Dev.hostWrite (d : Dev) (a : Nat) (bs : List Byte) : Dev := if d.hif.closed then d else { d with hif.mem := putBytes d.hif.mem a bs }

/-! ### Rings (R65-R70) -/

/-- The device's own state of pair `q`. -/
def Dev.qp (d : Dev) (q : Nat) : QPair := Tab.getD (fun _ => QPair.reset) d.hif.qs q
def Dev.setQp (d : Dev) (q : Nat) (x : QPair) : Dev := { d with hif.qs := Tab.setD (fun _ => QPair.reset) d.hif.qs q x }
def Dev.updQp (d : Dev) (q : Nat) (f : QPair → QPair) : Dev := d.setQp q (f (d.qp q))

/-- Entries of the submission and completion rings. -/
def Dev.sqDepth (d : Dev) (q : Nat) : Nat := 2 ^ d.rf (HIF_CQn_CFG_SQ_LOG2 q)
def Dev.cqDepth (d : Dev) (q : Nat) : Nat := 2 ^ d.rf (HIF_CQn_CFG_CQ_LOG2 q)
def Dev.sqBase (d : Dev) (q : Nat) : Nat := d.rf (HIF_CQn_SQ_BASE_LO q) * 2 ^ 12 + d.rf (HIF_CQn_SQ_BASE_HI q) * 2 ^ 32
def Dev.cqBase (d : Dev) (q : Nat) : Nat := d.rf (HIF_CQn_CQ_BASE_LO q) * 2 ^ 12 + d.rf (HIF_CQn_CQ_BASE_HI q) * 2 ^ 32
/-- Entry size of a pair's submission ring (R65). -/
def sqEntry (q : Nat) : Nat := if q < 64 then 64 else 32

/-- Completion slots taken, and still free (a ring holds depth - 1, R67). -/
def Dev.cqUsed (d : Dev) (q : Nat) : Nat :=
  (d.rf (HIF_CQn_CQ_TAIL q) + d.cqDepth q - d.rf (HIF_CQn_CQ_HEAD q)) % d.cqDepth q
def Dev.cqFree (d : Dev) (q : Nat) : Nat := d.cqDepth q - 1 - d.cqUsed q

/-- The pair serves its queues: ENABLE is 1, and no earlier life of the pair is still ending (R71). -/
def Dev.pairServes (d : Dev) (q : Nat) : Bool := d.flag (HIF_CQn_CTL_ENABLE q) && !(d.qp q).stopping
/-- A command completion may be written: the pair runs and a slot is free, or a PCIe reset has muted it (R68, R71, R410). -/
def Dev.mayPost (d : Dev) (q : Nat) : Bool := d.pairOn q && ((d.qp q).muted || decide (0 < d.cqFree q))

/-- Refresh CQ_FULL. -/
def Dev.showFull (d : Dev) (q : Nat) : Dev := d.setFlag (HIF_CQn_STS_CQ_FULL q) (d.cqFree q == 0)

/-- Raise the pair's MSI-X vector, once until CQ_HEAD is written (R70). -/
def Dev.raiseVector (d : Dev) (q : Nat) : Dev :=
  if (d.qp q).raised then d
  else
    let v := d.rf (HIF_CQn_IRQ_VECTOR q)
    { d.updQp q (fun x => { x with raised := true }) with
      hif.msix := Tab.setD (fun _ => 0) d.hif.msix v (Tab.getD (fun _ => 0) d.hif.msix v + 1) }

/-- The COUNT trigger (R70). -/
def Dev.countTrigger (d : Dev) (q : Nat) : Dev :=
  let n := d.rf (HIF_CQn_COAL_COUNT q)
  if n ≠ 0 ∧ n ≤ (d.qp q).posted.length then d.raiseVector q else d

/-- Write one completion entry (R68, R76): bytes 0-5 are TAG, STATUS and SQ_HEAD, byte 6 `b6`, byte 7 `flags` with the phase
bit, then the body. A muted pair writes nothing (R410). The caller has checked for room. -/
def Dev.postEntry (d : Dev) (q tag status b6 flags : Nat) (body : List Nat) (isEvent : Bool) : Dev :=
  let x := d.qp q
  if x.muted then d
  else
    let t := d.rf (HIF_CQn_CQ_TAIL q)
    let bytes := leBytes 2 tag ++ leBytes 2 status ++ leBytes 2 (d.rf (HIF_CQn_SQ_HEAD q)) ++
      [BitVec.ofNat 8 b6, BitVec.ofNat 8 (flags / 2 * 2 + b2n x.phase)] ++ body.map (BitVec.ofNat 8)
    let t1 := (t + 1) % d.cqDepth q
    let d1 := (d.hostWrite (d.cqBase q + 32 * t) bytes).wf (HIF_CQn_CQ_TAIL q) t1
    let d2 := d1.updQp q fun x => { x with phase := if t1 = 0 then !x.phase else x.phase,
                                           posted := x.posted ++ [(d.now, isEvent)] }
    (d2.showFull q).countTrigger q

/-- Six result words as 24 bytes; words beyond the list are 0. -/
def resBytes (res : List Nat) : List Nat := (upTo 6).flatMap fun i => (leBytes 4 (nth 0 res i)).map (·.toNat)

/-- This device's completions hold on it alone (R76, R495): it is not paired, or its partner is declared lost. -/
def Dev.paired (d : Dev) : Bool :=
  d.rf MGT_TWIN_STS_ROLE != 0 && (d.rf MGT_TWIN_STS_PARTNER == 2 || d.rf MGT_TWIN_STS_PARTNER == 3)

/-! ### Events (R81) -/

/-- Events posted on CQ0 and not released. -/
def Dev.evOut (d : Dev) : Nat := ((d.qp 0).posted.filter (·.2)).length

/-- Write an event entry on CQ0. -/
def Dev.postEvent (d : Dev) (e : Event) : Dev :=
  let d1 := d.postEntry 0 0xFFFF 0 6 (8 + 16 * b2n d.hif.evLost)
    (resBytes [e.code + 2 ^ 16 * e.cls, e.res1, e.res2, e.res3, e.ns, e.secs]) true
  { d1 with hif.evLost := if (d.qp 0).muted then d.hif.evLost else false }

/-- Raise an event: posted while a held-back slot is free and none waits, else kept (up to 32), else dropped. -/
def Dev.event (d : Dev) (cls code r1 r2 r3 : Nat) : Dev :=
  let e : Event := ⟨cls, code, r1, r2, r3, d.ns, d.secs % 2 ^ 32⟩
  if !bitAt d.hif.evMask cls then d
  else if !d.pairServes 0 then { d with hif.evLost := true }
  else if d.hif.backlog.isEmpty && decide (d.evOut < 8) && decide (0 < d.cqFree 0) && d.domOn 76 then d.postEvent e
  else if d.hif.backlog.length < 32 then { d with hif.backlog := d.hif.backlog ++ [e] }
  else { d with hif.evLost := true }

/-- Write a command completion. LOCAL_ONLY says what holds when it is posted, for a duplicate's copy too (assumption log). -/
def Dev.postCmpl (d : Dev) (q tag : Nat) (c : Cmpl) (dup : Bool) : Dev :=
  let lo := c.status == 0 && !d.paired
  d.postEntry q tag c.status (min 6 c.res.length) (2 * b2n dup + 4 * b2n lo) (resBytes c.res) false

/-! ### Final completions in order (R30, R78, R79) -/

/-- Record a command's final completion in the tag window. -/
def noteWindow (w : List TagRec) (tag : Nat) (c : Cmpl) : List TagRec :=
  w.map fun r => if r.tag = tag then { r with cmpl := some c } else r

/-- Copies for the duplicates of `tag` that wait for its final completion. -/
def giveCopies (l : List RunCmd) (tag : Nat) (c : Cmpl) : List RunCmd :=
  l.map fun r => if r.dup && r.own.isNone && r.cmd.tag.toNat == tag then { r with own := some c } else r

/-- Post what may be posted, from the oldest running command on; `clear` says every earlier command counts as completed.
The device, the commands still running, and the completions posted as originals. -/
def Dev.flushFrom (q : Nat) : List RunCmd → Bool → Dev → Dev × List RunCmd × List (Nat × Cmpl)
  | [], _, d => (d, [], [])
  | r :: rs, clear, d =>
    if r.ghost then
      let t := Dev.flushFrom q rs clear d
      match r.own with
      | some c => (t.1, t.2.1, (r.cmd.tag.toNat, c) :: t.2.2)
      | none => (t.1, r :: t.2.1, t.2.2)
    else
    let ok := (clear || !bitAt r.cmd.flags.toNat 0) && r.mirror != 1
    let tag := r.cmd.tag.toNat
    let x := if ok && r.acc == 1 && d.mayPost q then (d.postCmpl q tag ⟨1, []⟩ false, { r with acc := 2 }) else (d, r)
    match (if ok && !r.outcome && x.1.mayPost q && x.2.acc != 1 then r.own else none) with
    | some c =>
      let y := x.1.postCmpl q tag c r.dup
      let t := Dev.flushFrom q rs clear (if r.mirror = 2 then { y with twin.acked := y.twin.acked + 1 } else y)
      (t.1, t.2.1, if r.dup || decide (0x10000 ≤ r.opcode) then t.2.2 else (tag, c) :: t.2.2)
    | none =>
      let t := Dev.flushFrom q rs (clear && x.2.acc == 2) x.1
      (t.1, x.2 :: t.2.1, t.2.2)

/-- The pair begins to serve (R66); with CQ0 enabled, firmware raises what boot left to report (R451). -/
def Dev.pairStart (d : Dev) (q : Nat) : Dev :=
  let d1 := { (d.setFlag (HIF_CQn_STS_RUNNING q) true).updQp q fun x => { x with stopping := false, muted := false } with hif.closed := false }
  if q = 0 then d1.hif.boot.foldl (fun d e => d.event e.1 e.2.1 e.2.2.1 e.2.2.2.1 e.2.2.2.2) { d1 with hif.boot := [] } else d1

/-- RUNNING falls, and the indices reset, once a stopping pair owes nothing (R71), whatever a STANDBY still carries out for its partner; with ENABLE written 1 again meanwhile the pair then
starts anew (assumption log). -/
def Dev.settleStop (d : Dev) (q : Nat) : Dev :=
  let x := d.qp q
  if x.stopping && x.running.all (·.ghost) then
    let d1 := (((d.wf (HIF_CQn_SQ_TAIL q) 0).wf (HIF_CQn_SQ_HEAD q) 0).wf (HIF_CQn_CQ_HEAD q) 0).wf (HIF_CQn_CQ_TAIL q) 0
    let d2 := ((d1.updQp q fun x => { x with stopping := false, raised := false, phase := true, posted := [] }).wf (HIF_CQn_STS_RUNNING q) 0).wf
      (HIF_CQn_STS_CQ_FULL q) 0
    if d2.flag (HIF_CQn_CTL_ENABLE q) then d2.pairStart q else d2
  else d

/-- One pass of posting: originals' completions enter the window and reach their waiting duplicates. -/
def Dev.flushOnce (d : Dev) (q : Nat) : Dev :=
  let r := Dev.flushFrom q (d.qp q).running true d
  r.1.updQp q fun x =>
    { x with running := r.2.2.foldl (fun l p => giveCopies l p.1 p.2) r.2.1,
             window := r.2.2.foldl (fun w p => noteWindow w p.1 p.2) x.window }

/-- Post everything due on pair `q`; a duplicate's copy falls due by its original's completion, so two passes. -/
def Dev.flush (d : Dev) (q : Nat) : Dev := ((d.flushOnce q).flushOnce q).settleStop q

/-- Change the running command with this tag (not a duplicate). -/
def Dev.updRun (d : Dev) (q tag : Nat) (f : RunCmd → RunCmd) : Dev :=
  d.updQp q fun x => { x with running := x.running.map fun r => if r.cmd.tag.toNat == tag && !r.dup && r.own.isNone then f r else r }

/-- Decide a command's final completion. -/
def Dev.complete (d : Dev) (q tag status : Nat) (res : List Nat) : Dev :=
  (d.updRun q tag fun r => { r with started := true, own := some ⟨status, res⟩ }).flush q

/-- A two-stage command is accepted (R77). -/
def Dev.accepted (d : Dev) (q tag : Nat) : Dev :=
  (d.updRun q tag fun r => { r with started := true, acc := 1 }).flush q

/-- A command stays in progress. -/
def Dev.inProgress (d : Dev) (q tag : Nat) : Dev := d.updRun q tag fun r => { r with started := true }

/-! ### Recorder triggers (R498, R501) -/

/-- The boundary index of the recorder's timeline, and its time in ms while that timeline is disabled. -/
def Dev.recK (d : Dev) : Nat := (Tab.getD (fun _ => Timeline.reset) d.tls d.marrow.tl).k

/-- The 16 bytes of a decision-log record (R109). -/
def LogRec.bytes (r : LogRec) : List Byte :=
  leBytes 1 r.type ++ leBytes 1 r.core ++ leBytes 2 r.slot ++ leBytes 2 r.period ++ leBytes 1 (r.tl + 4 * r.cls) ++
  leBytes 1 r.causes ++ leBytes 2 r.flow ++ leBytes 2 r.lost ++ leBytes 4 r.cycle

/-- The log buffer goes to the recorder over ring M (R110): whole, at each fence and at a freeze (assumption log). -/
def Dev.drainLog (d : Dev) : Dev :=
  if d.wds.log.isEmpty then d
  else ({ d with wds.log := [] }.setFlag WDS_STS_LOG_FULL false).recAdd 3 d.marrow.tl (d.recK % 65536)
    (some (d.wds.log.flatMap LogRec.bytes))

/-- The recorder freezes (R498), what the dispatcher had still buffered included: REC_TRIGGER completes with the period then current. -/
def Dev.recFreeze (d : Dev) : Dev :=
  let per := d.recK % 65536
  let d1 := (d.drainLog.wf OBS_REC_STS_STATE 3).event 4 2 per 0 0
  let d2 := d1.marrow.waiting.foldl (fun d p => d.complete p.1 p.2 0 [per]) d1
  { d2 with marrow.waiting := [], marrow.frozenP := per }

/-- A trigger of source bit `bit` (6: REC_TRIGGER): counted; in RECORDING it is taken, and with POST 0 the recorder freezes
at it. -/
def Dev.recTrigger (d : Dev) (bit : Nat) : Dev :=
  let d1 := d.bump OBS_REC_TRIGGERS
  if d1.rf OBS_REC_STS_STATE = 1 then
    let d2 : Dev := { d1.wf OBS_REC_STS_STATE 2 with marrow.trigK := d1.recK, marrow.trigT := d1.now }
    let d3 := d2.event 4 1 bit (d2.recK % 65536) 0
    if d3.rf OBS_REC_POST_POST = 0 then d3.recFreeze else d3
  else d1
/-- The source `bit` of OBS_REC_TRIG fires, if enabled. -/
def Dev.recSource (d : Dev) (bit : Nat) : Dev := if bitAt (d.rf OBS_REC_TRIG_SRC) bit then d.recTrigger bit else d

/-- Enter a health record (R531). -/
def Dev.record (d : Dev) (block code detail : Nat) : Dev :=
  let l := d.fw.health ++ [⟨block, code, detail % 2 ^ 96, t128Nat d.now⟩]
  { d with fw.health := l.drop (l.length - 256) }

/-- A health event with a stated code: a record, and an event of class 0 whose RES1-RES3 are its detail (R81, R82). -/
def Dev.healthCode (d : Dev) (block code detail : Nat) : Dev :=
  ((d.record block code detail).event 0 code (detail % 2 ^ 32) (detail / 2 ^ 32 % 2 ^ 32)
    (detail / 2 ^ 64 % 2 ^ 32)).recSource 0

/-- A health event whose code the spec does not state: the code is a free value that depends on its kind only. -/
def Dev.health (d : Dev) (block kind detail : Nat) : Dev :=
  d.healthCode block (Config.freeAt block kind % 2 ^ 16) detail

/-! ### User-plane completions (R71, R87-R89) -/

/-- The timeline and period a user-plane completion's body names (R89): bytes 8 on of the entry; 0 where its kind names none. -/
def UpCmpl.named (c : UpCmpl) : Nat × Nat :=
  if c.kind = 0x82 then (nth 0 c.body 5 % 4, nth 0 c.body 2 + 256 * nth 0 c.body 3)
  else if c.kind = 0x84 then (nth 0 c.body 0 % 4, nth 0 c.body 2 + 256 * nth 0 c.body 3)
  else if c.kind = 0x86 then (nth 0 c.body 1 % 4, nth 0 c.body 2 + 256 * nth 0 c.body 3)
  else (0, 0)

/-- Write a user-plane completion on pair `m` (0-63); the recorder keeps a RESULT record with the CRC-32 of the data written (R496). -/
def Dev.postUp (d : Dev) (m : Nat) (c : UpCmpl) : Dev :=
  (d.postEntry (64 + m) c.tag c.status c.kind c.flags c.body false).recAdd 6 c.named.1 c.named.2
    (some (digestBody c.data (if c.kind = 0x82 then nth 0 c.body 0 + 256 * nth 0 c.body 1 else 0xFFFF)))

/-- A user-plane result falls due: discarded and counted on a disabled pair, held (up to 64) while the ring is full,
else written. -/
def Dev.up (d : Dev) (m tag status kind flags : Nat) (body : List Nat) (data : List Byte := []) : Dev :=
  let q := 64 + m
  let c : UpCmpl := ⟨tag, status, kind, flags, body, data⟩
  if !d.pairServes q then d.bump (HIF_UPQm_OVERFLOW m)
  else if (d.qp q).held.isEmpty && decide (0 < d.cqFree q) then d.postUp m c
  else if (d.qp q).held.length < 64 then d.updQp q fun x => { x with held := x.held ++ [c] }
  else (d.bump (HIF_UPQm_OVERFLOW m)).health 0 1 m

/-- A result falling due on user-plane pair `m` would be written or held, so its data may be written too (R71, R89). -/
def Dev.upRoom (d : Dev) (m : Nat) : Bool :=
  let x := d.qp (64 + m)
  d.pairServes (64 + m) && ((x.held.isEmpty && decide (0 < d.cqFree (64 + m))) || decide (x.held.length < 64))

/-- The 24 body bytes of a user-plane completion from (offset, length, value) fields. -/
def upBody (l : List (Nat × Nat × Nat)) : List Nat :=
  (upTo 24).map fun i =>
    sumNat (l.map fun (o, n, v) => if o ≤ i + 8 ∧ i + 8 < o + n then v / 256 ^ (i + 8 - o) % 256 else 0)

end Sys2Proof.Machine
end

