-- ==== Sys2Proof/Machine/RingBase.lean ====
section
/-! DEFINITION. What the rings' own rows and every access over the rings share: streams, routes, statistics, the header's CRC
(R304-R308, R314, R318, R323, R324). -/

namespace Sys2Proof.Machine

/-! ### Streams and credits (R307, R314, R316) -/

/-- The key of a stream: ring (0 D0, 1 D1, 2 C), source, destination, class. -/
def streamKey (ring src dst cls : Nat) : Nat := ((ring * 28 + src) * 28 + dst) * 4 + cls
def keyRing (k : Nat) : Nat := k / 4 / 28 / 28
def keySrc (k : Nat) : Nat := k / 4 / 28 % 28
def keyDst (k : Nat) : Nat := k / 4 % 28
def keyCls (k : Nat) : Nat := k % 4

def Dev.stream (d : Dev) (k : Nat) : Stream := Tab.getD (fun _ => Stream.reset) d.lyr.streams k
def Dev.setStream (d : Dev) (k : Nat) (x : Stream) : Dev :=
  { d with lyr.streams := Tab.setD (fun _ => Stream.reset) d.lyr.streams k x }
def Dev.updStream (d : Dev) (k : Nat) (f : Stream → Stream) : Dev := d.setStream k (f (d.stream k))

/-- Flits of buffer reserved for a class (R314). -/
def ringAllot (ring cls : Nat) : Nat := nth 0 (if ring < 2 then [1, 4, 16, 3] else [3, 4, 4, 3]) cls

/-- A request, as opposed to a response or an acknowledgement. -/
def isRequest (type : Nat) : Bool := type == 1 || type == 3 || type == 4 || type == 7
/-- Posted: nothing answers it. -/
def isPosted (type : Nat) : Bool := type == 3 || type == 7
/-- Payload bytes a packet carries. -/
def RingPkt.carried (p : RingPkt) : Nat := if p.type = 1 ∨ p.type = 5 ∨ p.type = 6 then 0 else p.len
def RingPkt.flits (ring : Nat) (p : RingPkt) : Nat := if ring < 2 then ceilDiv (32 + p.carried) 128 else 1 + ceilDiv p.carried 32

/-! ### The packet on the ring (R307) -/

/-- Header bytes 0 to 27 of a packet of stream `k`. A BOUNCE holds the DST of the packet it returns (R308). -/
def RingPkt.header (p : RingPkt) (k : Nat) : List Byte :=
  leBytes 1 (p.type + 16 * p.epoch) ++ leBytes 1 (keyCls k + 4 * b2n p.tag.isSome) ++ leBytes 1 (keySrc k) ++
  leBytes 1 (if p.type = 6 then p.orig else keyDst k) ++ leBytes 2 p.seq ++ leBytes 2 p.txid ++ leBytes 5 p.addr ++
  leBytes 1 (p.tag.getD 0 + 16 * p.status) ++ leBytes 2 p.len ++ leBytes 3 p.ready ++ leBytes 1 (b2n (decide (0 < p.tries))) ++ leBytes 8 0
/-- The bytes of a packet: header, CRC, payload. -/
def RingPkt.image (p : RingPkt) (k : Nat) : List Byte :=
  let h := p.header k
  h ++ leBytes 4 (crc32 (h ++ p.data)) ++ p.data
/-- The CRC of received bytes is good. -/
def ringCrcOk (b : List Byte) : Bool := crc32 (b.take 28 ++ b.drop 32) == leAt b 28 4
/-- The bytes as they arrive, `flips` naming those that a stop's buffer corrupted and the bits that changed in each. -/
def flipBytes (b : List Byte) (flips : List (Nat × Byte)) : List Byte :=
  flips.foldl (fun b f => if f.1 < b.length then setNth b f.1 (nth 0 b f.1 ^^^ f.2) else b) b
/-- What a destination takes from bytes whose CRC is good: from corrupted ones, what they then say. -/
def RingPkt.read (p : RingPkt) (b : List Byte) : RingPkt :=
  { p with type := leAt b 0 1 % 16, tag := if bitAt (leAt b 1 1) 2 then some (leAt b 13 1 % 16) else none, txid := leAt b 6 2, addr := leAt b 8 5,
           status := leAt b 13 1 / 16, len := leAt b 14 2, data := b.drop 32 }

/-! ### Routes (R311, R318, R323) -/

/-- The nibble of stop `s`, epoch `e`, for destination `dst` and class `cls`. -/
def Dev.route (d : Dev) (s e dst cls : Nat) : Nat := bitsAt (d.rf (LYR_RT_s_e_d_ENTRY s e dst)) (4 * cls) 4
/-- The stops a packet passes on its way, its source included, its destination not. -/
def pathStops (src dst dir : Nat) : List Nat :=
  let n := if dir = 0 then (dst + 28 - src) % 28 else (src + 28 - dst) % 28
  (upTo n).map fun i => if dir = 0 then (src + i) % 28 else (src + 28 - i) % 28
/-- The first stop that refuses the packet: by its table, or because the destination is bypassed (R323). -/
def Dev.refuser (d : Dev) (src dst cls epoch dir : Nat) : Option Nat :=
  if d.flag (LYR_STOP_s_CTL_BYPASS dst) then some src
  else (pathStops src dst dir).find? fun s => d.route s epoch dst cls / 4 == 2
/-- Every route entry stands as at reset, where all of them say ROUTE. -/
def Dev.routesReset (d : Dev) : Bool :=
  d.regs.all fun p => decide (p.1 < rLYR_RT_s_e_d 0 0 0) || decide (rLYR_RT_s_e_d 27 1 27 < p.1)

/-! ### Ring M (R305, R306) -/

/-- A message on ring M: from the LYR block at MGT (25) or the PMU (28), to a stop or, as 63, to all. -/
def Dev.mSend (d : Dev) (orig dst : Nat) : Dev := { d with lyr.mring := d.lyr.mring ++ [(orig, dst)] }

/-! ### Sideband (R309) -/

/-- A return starts on the strand opposite to its packet's. -/
def Dev.ringReturn (d : Dev) (ack : Bool) (k value : Nat) : Dev := { d with lyr.returns := d.lyr.returns ++ [⟨ack, k, value⟩] }
/-- Credits of stream `k` that are on their way back. -/
def Dev.returning (d : Dev) (k : Nat) : Nat := sumNat (d.lyr.returns.map fun r => if !r.ack && r.key == k then r.value else 0)
/-- Messages come back to their originators: one whose addressee is bypassed was not taken, and is counted. -/
def Dev.mHome (d : Dev) : Dev :=
  (d.lyr.mring.filter fun m => decide (m.2 < 28)).foldl (fun d m => if d.flag (LYR_STOP_s_STS_BYPASSED m.2) then d.bump (LYR_STOP_s_UNREACHABLE m.2) else d)
    { d with lyr.mring := [] }
/-- What travelled in the sideband and on ring M arrives: an acknowledged packet leaves its window. No row tells when; the next row of the ring
finds it there (assumption log). -/
def Dev.returnsHome (d : Dev) : Dev :=
  (d.lyr.returns.filter (·.ack)).foldl (fun d r => d.updStream r.key fun x => { x with window := x.window.filter (·.seq != r.value) })
    { d with lyr.returns := [] }.mHome

/-! ### Statistics (R324-R326) -/

def satAdd (w a b : Nat) : Nat := min (2 ^ w - 1) (a + b)
/-- The key of a stop's counts. -/
def statKey (st ring cls : Nat) : Nat := (st * 3 + ring) * 4 + cls
/-- A packet's counts; on A1 a class-0 packet that met a hop replay enters neither the bins nor the packets. -/
def RingStat.add (r : RingStat) (cls bytes replays bin : Nat) : RingStat :=
  let seen := !(cls == 0 && decide (0 < replays))
  { bytes := satAdd 64 r.bytes bytes, pkts := if seen then satAdd 32 r.pkts 1 else r.pkts, replays := satAdd 32 r.replays replays,
    bins := if seen then setNth r.bins bin (satAdd 32 (nth 0 r.bins bin) 1) else r.bins }
/-- A packet of stream `k` is accepted: its bytes, the replays it met and its latency are counted at its source. -/
def Dev.ringCount (d : Dev) (k bytes replays latency : Nat) : Dev :=
  let sk := statKey (keySrc k) (keyRing k) (keyCls k)
  let bin := min 15 (latency / 2 ^ bitsAt d.lyr.shift (4 * keyCls k) 4)
  let r := (Tab.getD (fun _ => RingStat.zero) d.lyr.stats sk).add (keyCls k) bytes replays bin
  { d with lyr.stats := Tab.setD (fun _ => RingStat.zero) d.lyr.stats sk r }

/-! ### Accesses of cores, units and devices over the data rings (R160, R318, R323, R324) -/

/-- The ring class of an access by stop `src`: the one its initiator names, or the one its block uses, never class 0 for a pod. -/
def accessCls (src : Nat) (cls : Option Nat) : Nat :=
  match cls with
  | some c => c
  | none => if src < 12 then 1 + Config.accessClass src % 3 else Config.accessClass src % 4
/-- The stop that refuses an access of stop `src` to stop `st`: a bypass of either, or a route entry on its way. -/
def Dev.accessRefused (d : Dev) (src st : Nat) (cls : Option Nat) : Option Nat :=
  if src = st then none
  else if d.flag (LYR_STOP_s_CTL_BYPASS st) || d.flag (LYR_STOP_s_CTL_BYPASS src) then some src
  else if d.routesReset then none
  else
    let c := accessCls src cls
    let e := d.rf LYR_EPOCH_ACTIVE
    d.refuser src st c e (d.route src e st c / 2 % 2)
/-- One packet from stop `src` to stop `st` is accepted; its latency is a free value. -/
def Dev.countOne (d : Dev) (src st cls bytes : Nat) : Dev :=
  { d.ringCount (streamKey (d.route src (d.rf LYR_EPOCH_ACTIVE) st cls % 2) src st cls) bytes 0 (Config.accessLatency d.free) with free := d.free + 1 }
/-- The packets of an accepted access of `n` bytes: requests of up to 256 bytes, and what answers each. -/
def Dev.countAccess (d : Dev) (src st : Nat) (cls : Option Nat) (wr : Bool) (n : Nat) : Dev :=
  if src = st then d
  else
    let c := accessCls src cls
    (upTo (max 1 (ceilDiv n 256))).foldl (fun d i =>
      let m := min 256 (n - 256 * i)
      (d.countOne src st c (if wr then m else 0)).countOne st src c (if wr then 0 else m)) d

end Sys2Proof.Machine
end

