-- ==== Sys2Proof/Machine/Mem.lean ====
section
/-! DEFINITION. Byte-addressed memory as the rings reach it (R122, R330-R349): address map, stops, firewalls,
central-buffer handles and period tags, poison, and the two operations every initiator uses, busRead and busWrite. -/

namespace Sys2Proof.Machine

/-! ### Bytes and places -/

/-- The byte at key `a` of a memory whose unlisted bytes read 0 (assumption log). -/
def getByte (m : List Host.Cell) (a : Nat) : Byte := Tab.getD (fun _ => 0) m a
/-- `n` bytes from `a`. -/
def getBytes (m : List Host.Cell) (a n : Nat) : List Byte := (upTo n).map fun i => getByte m (a + i)
/-- The memory after bytes were stored from `a` on, in canonical form. -/
def setBytes (m : List Host.Cell) : Nat → List Byte → List Host.Cell
  | _, [] => m
  | a, b :: bs => setBytes (Tab.setD (fun _ => 0) m a b) (a + 1) bs

/-- The canonical form of a memory: addresses strictly rising, no byte listed that reads 0 unlisted. -/
def Memory.wf (m : List Host.Cell) : Bool := Tab.wf (fun _ => (0 : Byte)) m

/-- Where an internal address lies. -/
inductive Place where
  | ddr (a : Nat)
  | cbuf (off : Nat)
  | pod (p off : Nat)
  | ldm (c off : Nat)
  | reg (off : Nat)
  | host (off : Nat)
  | none
  deriving DecidableEq, Repr

/-- First byte of the central buffer (R330). -/
def cbufBase : Nat := 0x2000000000

/-- First internal address of the outbound window (R72). -/
def hostBase : Nat := 0x3800000000

/-- The internal address map. -/
def placeOf (a : Nat) : Place :=
  if a < cbufBase then .ddr a
  else if a < cbufBase + 0x4000000 then .cbuf (a - cbufBase)
  else if 0x3000000000 ≤ a ∧ a < 0x3010000000 then .reg (a - 0x3000000000)
  else if hostBase ≤ a ∧ a < hostBase + 2 ^ 36 then .host (a - hostBase)
  else match Config.farWindow a with
    | some (true, c, off) => if c < 108 ∧ off < 0x80000 then .ldm c off else .none
    | some (false, p, off) => if p < 12 ∧ off < 0x800000 then .pod p off else .none
    | Option.none => .none

/-! ### Firewalls (R342-R345) -/

/-- The recorder region, in bytes. -/
def Dev.inRecorder (d : Dev) (a : Nat) : Bool :=
  decide (d.rf MEM_REC_BASE * 2 ^ 20 ≤ a) && decide (a < (d.rf MEM_REC_BASE + d.rf MEM_REC_SIZE) * 2 ^ 20)

/-- The firewall's verdict on the 4 KiB block holding `a`: allowed or not, and whether the recorder rule refused. -/
def Dev.firewall (d : Dev) (src : Nat) (wr : Bool) (a : Nat) : Bool × Bool :=
  if !d.flag MEM_FW_CTL_ENABLE then (true, false)
  else
    let rec_ := d.inRecorder a
    if rec_ && !(src == 26 || (src == 17 && !wr)) then (false, true)
    else
      match (upTo 64).find? fun r => d.flag (MEM_FWr_CTL_ENABLE r) && decide (d.rf (MEM_FWr_BASE r) ≤ a / 4096)
          && decide (a / 4096 ≤ d.rf (MEM_FWr_LIMIT r)) && (!rec_ || decide (r < 16)) with
      | some r => (bitAt (d.rf (if wr then MEM_FWr_WR r else MEM_FWr_RD r)) src, false)
      | none => (d.flag MEM_FW_CTL_DEFAULT, false)

/-- Log a refusal (R342). -/
def Dev.firewallLog (d : Dev) (src : Nat) (wr recorder : Bool) (a : Nat) : Dev :=
  (((((d.bump MEM_FW_REFUSED).wf MEM_FW_ADDR (a % 2 ^ 32)).wf MEM_FW_INFO_ADDR_HI (a / 2 ^ 32)).wf MEM_FW_INFO_SRC src).setFlag
    MEM_FW_INFO_WRITE wr).setFlag MEM_FW_INFO_RECORDER recorder

/-! ### Live periods and central-buffer handles (R48, R49, R330-R334) -/

/-- Timeline `n`'s own state. -/
def Dev.tl (d : Dev) (n : Nat) : Timeline := Tab.getD (fun _ => Timeline.reset) d.tls n
def Dev.setTl (d : Dev) (n : Nat) (t : Timeline) : Dev := { d with tls := Tab.setD (fun _ => Timeline.reset) d.tls n t }

/-- Distance of period number `p` ahead of boundary index `k`, modulo 65,536. -/
def ahead (k p : Nat) : Nat := (p + 65536 - k % 65536) % 65536
/-- Period `p` is live on timeline `n`: the current period or one of the next three (R48). -/
def Dev.live (d : Dev) (n p : Nat) : Bool := (d.tl n).started && decide (ahead (d.tl n).k p ≤ 3)
/-- A period tag (number mod 16) is open on timeline `n` (R49). -/
def Dev.tagOpen (d : Dev) (n tag : Nat) : Bool :=
  (d.tl n).started && decide ((tag + 16 - (d.tl n).k % 16) % 16 ≤ 3)

/-- The buffer holding handle `h`, if any. -/
def bufOf : Tab CbfBuf → Nat → Option (Nat × CbfBuf)
  | [], _ => none
  | (f, b) :: t, h => if f ≤ h ∧ h < f + b.count then some (f, b) else bufOf t h

/-- The data-ring stop of central-buffer offset `off` (R330, R305). -/
def cbufStop (off : Nat) : Nat := if off / 4096 / 2048 < 4 then 22 else 23

/-- A timeline-bound buffer takes a write with this job's tag (R49, R333): the tag is open and the buffer is not closed. -/
def Dev.bindTakes (d : Dev) (bind : Option (Nat × Nat × Nat)) (job : Option (Nat × Nat)) : Bool :=
  match bind with
  | none => true
  | some (n, p, _) => match job with
    | none => false
    | some (_, jp) => d.tagOpen n (jp % 16) && d.live n p

/-- Bytes of a HARQ slot (R213). -/
abbrev harqSlotBytes : Nat := 53248
/-- Address of slot 0 of pool `p`. -/
def Dev.harqBase (d : Dev) (p : Nat) : Nat := d.rf (MEM_HARQ_p_BASE_LO p) * 2 ^ 12 + d.rf (MEM_HARQ_p_BASE_HI p) * 2 ^ 32
/-- The blocks given to HARQ pool 1 as a run of handles, first and number: allocated and unbound (R218, R333). A pool of no slot, or one
that does not lie in the central buffer, has none. -/
def Dev.poolRun (d : Dev) : Nat × Nat :=
  let b := d.harqBase 1
  let n := 13 * d.rf (MEM_HARQ_p_COUNT 1)
  if cbufBase ≤ b ∧ b + 4096 * n ≤ cbufBase + 0x4000000 then ((b - cbufBase) / 4096, n) else (0, 0)
/-- Handles of the pool's run in no buffer. -/
def Dev.poolExtra (d : Dev) : Nat :=
  let r := d.poolRun
  r.2 - sumNat (d.mem.bufs.map fun p => min (p.1 + p.2.count) (r.1 + r.2) - max p.1 r.1)
/-- Handle `h` is one of pool 1's. -/
def Dev.inPool (d : Dev) (h : Nat) : Bool := let r := d.poolRun; decide (r.1 ≤ h) && decide (h < r.1 + r.2)

/-- Refresh FREE, ALLOCATED and BUFFERS (R348). -/
def Dev.cbfShow (d : Dev) : Dev :=
  let used := sumNat (d.mem.bufs.vals.map (·.count)) + d.poolExtra
  ((d.wf CBF_FREE (16384 - used)).wf CBF_ALLOCATED used).wf CBF_BUFFERS d.mem.bufs.length

/-! ### Judging one access to one 4 KiB block -/

/-- Result statuses (R308). -/
def stOK : Nat := 0
def stOff : Nat := 1
def stFw : Nat := 2
def stPoison : Nat := 3
def stUnreach : Nat := 4
def stStale : Nat := 5
def stTarget : Nat := 6

/-- Read of a block holding a poisoned line overlapping `n` bytes at `a` (R340). -/
def Dev.poisoned (d : Dev) (a n : Nat) : Bool :=
  d.mem.poison.any fun l => decide (l < a + n) && decide (a < l + 64)

/-- A request to stop `st` under its fence is counted there (R322, R328); a part of a stop that is not fenced counts nothing. -/
def Dev.offCount (d : Dev) (st : Nat) : Dev := if d.flag (LYR_STOP_s_STS_FENCED st) then d.bump (LYR_STOP_s_DOMAIN_OFF st) else d

/-! ### Errors of stored data (R339-R341) -/

/-- Log a DDR5 error of channel `k` at `a`. -/
def Dev.ddrErrLog (d : Dev) (k a dev : Nat) (uncorr : Bool) : Dev :=
  (((d.wf (MEM_CHk_ERR_ADDR k) (a % 2 ^ 32)).wf (MEM_CHk_ERR_INFO_ADDR_HI k) (a / 2 ^ 32)).setFlag
    (MEM_CHk_ERR_INFO_UNCORR k) uncorr).wf (MEM_CHk_ERR_INFO_DEVICE k) dev

/-- Mark the 64-byte line holding `a` poisoned. -/
def Dev.poisonAt (d : Dev) (a : Nat) : Dev :=
  let l := a / 64 * 64
  { d with mem.poison := if d.mem.poison.contains l then d.mem.poison else l :: d.mem.poison }

/-- An error found at `a`: corrected, written back and counted; or the line is poisoned, counted and reported. -/
def Dev.memError (d : Dev) (a dev : Nat) (uncorr : Bool) : Dev :=
  match placeOf a with
  | .ddr x => match d.ddrChannel x with
    | none => d
    | some k =>
      let d1 := d.ddrErrLog k x dev uncorr
      if uncorr then ((d1.poisonAt a).bump (MEM_CHk_UE k)).health 0x0A 4 a else d1.bump (MEM_CHk_CE k)
  | .cbuf off =>
    let d1 := (d.wf CBF_ERR_ADDR_OFFSET off).setFlag CBF_ERR_ADDR_UNCORR uncorr
    if uncorr then ((d1.poisonAt a).bump CBF_UE).health 0x0B 4 a else d1.bump CBF_CE
  | _ => d

/-- What a code makes of an error. -/
inductive EccSays where
  | clean | corrected | uncorrectable | beyond
  deriving DecidableEq, Repr
/-- The codes of R339. x4: one device corrected, two detected. x8: one device within one pair of beats corrected, one device detected. -/
def ddrEcc (x4 : Bool) (flaw : List (Nat × Nat)) : EccSays :=
  match (flaw.map (·.1)).eraseDups, (flaw.map (·.2)).eraseDups with
  | [], _ => .clean
  | [_], [_] => .corrected
  | [_], _ => if x4 then .corrected else .uncorrectable
  | [_, _], _ => if x4 then .uncorrectable else .beyond
  | _, _ => .beyond
/-- SECDED over each 8 bytes: one wrong bit corrected, two detected. -/
def sramEcc (flaw : List (Nat × Nat)) : EccSays :=
  let bits (w : Nat) : Nat := (flaw.eraseDups.filter (·.1 == w)).length
  if (upTo 8).any fun w => decide (3 ≤ bits w) then .beyond
  else if (upTo 8).any fun w => bits w == 2 then .uncorrectable
  else if flaw.isEmpty then .clean else .corrected

/-- The error in the line holding `a`, if one has arisen, is met by a read: an error the code cannot judge is seen, or not, as a free value
says. -/
def Dev.lineRead (d : Dev) (a : Nat) : Dev :=
  let l := a / 64 * 64
  match Tab.find d.mem.flaws l with
  | none => d
  | some flaw =>
    let told := match placeOf l with
      | .ddr x => ddrEcc (match d.ddrChannel x with | some k => d.rf (MEM_CHk_CFG_WIDTH k) == 1 | none => false) flaw
      | _ => sramEcc flaw
    let d1 : Dev := { d with mem.flaws := Tab.del d.mem.flaws l }
    let dev := ((flaw.head?).map (·.1)).getD 0
    match told with
    | .clean => d1
    | .corrected => d1.memError l dev false
    | .uncorrectable => d1.memError l dev true
    | .beyond =>
      let d2 : Dev := { d1 with free := d1.free + 1 }
      match Config.eccBeyond d.free with
      | 0 => d2
      | 1 => d2.memError l dev false
      | _ => d2.memError l dev true
/-- A read of `n` bytes at `a` meets the errors of its lines. -/
def Dev.linesRead (d : Dev) (a n : Nat) : Dev :=
  (d.mem.flaws.filter fun p => decide (p.1 < a + n) && decide (a < p.1 + 64)).foldl (fun d p => d.lineRead p.1) d
/-- A read's poison (R340): of a line marked before, counted by `cnt`; of one whose error it finds, UE has counted it. -/
def Dev.poisonRead (d : Dev) (a n : Nat) (cnt : Fld) : Dev × Nat :=
  if d.poisoned a n then ((d.bump cnt).recSource 5, stPoison)
  else
    let d1 := d.linesRead a n
    if d1.poisoned a n then (d1, stPoison) else (d1, stOK)

/-- Judge an access by stop `src` of `n` bytes at `a`, inside one 4 KiB block, at its target. A channel that is not trained takes no traffic
(R338): it answers TARGET_ERR (assumption log). -/
def Dev.judgeAt (d : Dev) (src : Nat) (wr : Bool) (job : Option (Nat × Nat)) (a n : Nat) : Dev × Nat :=
  match placeOf a with
  | .ddr x =>
    match (if d.flag MEM_CTL_ENABLE then d.ddrChannel x else none) with
    | none => (d, stTarget)
    | some k =>
      if !d.domOn (63 + k) then (d.offCount (18 + k), stOff)
      else if !d.flag (MEM_CHk_STS_TRAINED k) then (d, stTarget)
      else
        let v := d.firewall src wr a
        if !v.1 then (d.firewallLog src wr v.2 a, stFw)
        else if wr then (d, stOK) else d.poisonRead a n (MEM_CHk_POISON_RD k)
  | .cbuf off =>
    if !d.domOn (67 + off / 4096 / 2048) then (d.offCount (cbufStop off), stOff)
    else
      let v := d.firewall src wr a
      if !v.1 then (d.firewallLog src wr v.2 a, stFw)
      else match (match bufOf d.mem.bufs (off / 4096) with
        | some x => some x
        | none => if d.inPool (off / 4096) then some (off / 4096, ⟨1, none⟩) else none) with
      | none =>
        if wr && job.isSome then (d.bump (LYR_STOP_s_STALE (cbufStop off)), stStale)
        else (d.bump CBF_FREE_ACCESS, stTarget)
      | some (_, b) =>
        if wr && !d.bindTakes b.bind job then (d.bump (LYR_STOP_s_STALE (cbufStop off)), stStale)
        else if wr then (d, stOK) else d.poisonRead a n CBF_POISON_RD
  | .pod p off =>
    if !d.domOn (3 * p + 2) then (d.offCount p, stOff)
    else if off + n ≤ 0x800000 then (d, stOK) else (d, stTarget)
  | .ldm c off =>
    if !d.domOn (coreDom c) || !d.domOn (3 * (c / 9) + 2) then (d.offCount (c / 9), stOff)
    else if 0x60000 < off + n then (d, stTarget)
    else if wr && (off % 3 != 0 || n % 3 != 0) then (d, stTarget)
    else (d, stOK)
  | .reg _ => (d, stTarget)
  | .host off =>
    if !d.domOn 76 then (d.offCount 17, stOff)
    else if off + n ≤ 2 ^ 36 then (d, stOK) else (d, stTarget)
  | .none => (d, stTarget)

/-- The data-ring stop behind an address. -/
def Dev.stopAt (d : Dev) (a : Nat) : Option Nat :=
  match placeOf a with
  | .ddr x => (d.ddrChannel x).map (18 + ·)
  | .cbuf off => some (cbufStop off)
  | .pod p _ => some p
  | .ldm c _ => some (c / 9)
  | .host _ => some 17
  | _ => none

/-- Judge an access in ring class `cls` (none: its block's own): the status, and the counters it moves. It does not get past a bypass or a
route entry that refuses it (R318, R323); what the target accepts is counted (R324). -/
def Dev.judgeC (d : Dev) (cls : Option Nat) (src : Nat) (wr : Bool) (job : Option (Nat × Nat)) (a n : Nat) : Dev × Nat :=
  match d.stopAt a with
  | some st =>
    match d.accessRefused src st cls with
    | some s => (d.bump (LYR_STOP_s_UNREACHABLE s), stUnreach)
    | none => (d.countAccess src st cls wr n).judgeAt src wr job a n
  | none => d.judgeAt src wr job a n
/-- The same in the class of the block's own accesses. -/
def Dev.judge (d : Dev) (src : Nat) (wr : Bool) (job : Option (Nat × Nat)) (a n : Nat) : Dev × Nat := d.judgeC none src wr job a n

/-- The channel's registers stand, and with the other populated channels' they form a configuration R336 supports: it has a capacity, and every
populated channel runs at one rate. -/
def Dev.chSupported (d : Dev) (k : Nat) : Bool :=
  d.chCap k != 0 && (upTo 4).all fun j => !d.chHere j || (Tab.find d.mem.caps j).isSome || d.rf (MEM_CHk_CFG_SPEED j) == d.rf (MEM_CHk_CFG_SPEED k)
/-- Firmware trains each populated channel in RUN from the board table's starting values; a combination outside R336 leaves TRAINED at 0 (R338,
R347). -/
def Dev.trainSync (d : Dev) : Dev :=
  (upTo 4).foldl (fun d k =>
    if !d.domOn (63 + k) || !d.chHere k then d
    else if !d.chSupported k then d.setFlag (MEM_CHk_STS_TRAINED k) false
    else if d.mem.ddrStart && !d.flag (MEM_CHk_STS_TRAINED k) then d.setFlag (MEM_CHk_STS_TRAINED k) true
    else d) { d with mem.caps := d.mem.caps.filter fun p => !d.domOn (63 + p.1) }

/-! ### Cores and pods as memory -/

def Dev.core (d : Dev) (c : Nat) : Core := Tab.getD (fun _ => Core.reset) d.cores c
def Dev.setCore (d : Dev) (c : Nat) (k : Core) : Dev := { d with cores := Tab.setD (fun _ => Core.reset) d.cores c k }
def Dev.updCore (d : Dev) (c : Nat) (f : Core → Core) : Dev := d.setCore c (f (d.core c))

/-- Bytes of pod memory `p` (R177). -/
def podKey (p off : Nat) : Nat := p * 2 ^ 23 + off % 2 ^ 23
def Dev.podRead (d : Dev) (p off n : Nat) : List Byte := getBytes d.pods.mem (podKey p off) n
def Dev.podWrite (d : Dev) (p off : Nat) (bs : List Byte) : Dev :=
  { d with pods.mem := setBytes d.pods.mem (podKey p off) bs }

/-- Byte `b` of a core's byte view (R10, R122): words 2i and 2i+1 are bytes 3i to 3i+2. -/
def Core.viewByte (k : Core) (b : Nat) : Byte :=
  let x := k.word (2 * (b / 3)) + 4096 * k.word (2 * (b / 3) + 1)
  BitVec.ofNat 8 (x / 256 ^ (b % 3))
/-- Store a 3-byte group of the byte view. -/
def Core.setViewGroup (k : Core) (g : Nat) (x : Nat) : Core :=
  (k.setWord (2 * g) (x % 4096)).setWord (2 * g + 1) (x / 4096)
/-- Store whole groups from group `g` on. -/
def Core.setView (k : Core) (g : Nat) (bs : List Byte) : Core :=
  (upTo (bs.length / 3)).foldl (fun k i => k.setViewGroup (g + i) (leAt bs (3 * i) 3)) k

/-- Read bytes of one block once judged. What the host holds behind the outbound window is open: a free value, new at every read (R72). -/
def Dev.peek (d : Dev) (a n : Nat) : List Byte :=
  match placeOf a with
  | .ddr _ => getBytes d.mem.cells a n
  | .cbuf _ => getBytes d.mem.cells a n
  | .pod p off => d.podRead p off n
  | .ldm c off => (upTo n).map fun i => (d.core c).viewByte (off + i)
  | .reg _ => List.replicate n 0
  | .host _ => (upTo n).map fun i => BitVec.ofNat 8 (Config.hostByte d.free (a + i))
  | .none => List.replicate n 0

/-- A read of host memory uses up a free value. -/
def Dev.sawHost (d : Dev) (a : Nat) : Dev := match placeOf a with
  | .host _ => { d with free := d.free + 1 }
  | _ => d

/-- The poison marks left after a write of `n` bytes at `a`: only whole aligned lines are cleared (R340). -/
def clearPoison (l : List Nat) (a n : Nat) : List Nat :=
  l.filter fun x => !(decide (a ≤ x) && decide (x + 64 ≤ a + n))

/-- The errors left after a write of `n` bytes at `a`: whole lines written afresh have none. -/
def clearFlaws (l : Tab (List (Nat × Nat))) (a n : Nat) : Tab (List (Nat × Nat)) :=
  l.filter fun x => !(decide (a ≤ x.1) && decide (x.1 + 64 ≤ a + n))

/-- Write bytes of one block once judged. -/
def Dev.poke (d : Dev) (a : Nat) (bs : List Byte) : Dev :=
  match placeOf a with
  | .ddr _ | .cbuf _ =>
    { d with mem.cells := setBytes d.mem.cells a bs, mem.poison := clearPoison d.mem.poison a bs.length,
             mem.flaws := clearFlaws d.mem.flaws a bs.length }
  | .pod p off => d.podWrite p off bs
  | .ldm c off => d.updCore c fun k => k.setView (off / 3) bs
  | .reg _ => d
  | .host off => d.hostWrite (d.obBase + off) bs
  | .none => d

/-- Pieces of `n` bytes from `a`, cut at 4 KiB block boundaries (R331). Local memory is not cut: its view is judged whole. -/
def pieces : Nat → Nat → Nat → List (Nat × Nat)
  | 0, _, _ => []
  | fuel + 1, a, n =>
    if n = 0 then []
    else
      let k := match placeOf a with
        | .ldm _ _ => n
        | _ => min n (4096 - a % 4096)
      (a, k) :: pieces fuel (a + k) (n - k)
/-- All pieces of an access. -/
def piecesOf (a n : Nat) : List (Nat × Nat) := pieces (n / 4096 + 2) a n

/-- Read `n` bytes at `a`, each piece judged by `judge`; the first failing piece decides the status. -/
def Dev.rdWith (judge : Dev → Nat → Nat → Dev × Nat) (d : Dev) (a n : Nat) : Dev × Nat × List Byte :=
  (piecesOf a n).foldl (fun acc pc =>
    if acc.2.1 != stOK then acc
    else
      let j := judge acc.1 pc.1 pc.2
      if j.2 = stOK then (j.1.sawHost pc.1, stOK, acc.2.2 ++ j.1.peek pc.1 pc.2) else (j.1, j.2, acc.2.2)) (d, stOK, [])

/-- Read on behalf of stop `src` in ring class `cls`. -/
def Dev.rdBytesC (d : Dev) (cls : Option Nat) (src a n : Nat) : Dev × Nat × List Byte :=
  Dev.rdWith (fun d a n => d.judgeC cls src false none a n) d a n
/-- Read at the target, for a packet that has come over the ring. -/
def Dev.rdAt (d : Dev) (src a n : Nat) : Dev × Nat × List Byte := Dev.rdWith (fun d a n => d.judgeAt src false none a n) d a n
/-- The same in the class of the block's own accesses. -/
def Dev.rdBytes (d : Dev) (src a n : Nat) : Dev × Nat × List Byte := d.rdBytesC none src a n

/-- Write bytes at `a`, piece by piece, each judged by `judge`; a STALE piece is discarded and completes
(R308); the first other failing piece decides the status. -/
def Dev.wrWith (judge : Dev → Nat → Nat → Dev × Nat) (d : Dev) (a : Nat) (bs : List Byte) : Dev × Nat :=
  let r := (piecesOf a bs.length).foldl (fun (acc : Dev × Nat × List Byte) pc =>
    if acc.2.1 != stOK && acc.2.1 != stStale then acc
    else
      let j := judge acc.1 pc.1 pc.2
      let rest := acc.2.2.drop pc.2
      if j.2 = stOK then (j.1.poke pc.1 (acc.2.2.take pc.2), acc.2.1, rest) else (j.1, j.2, rest)) (d, stOK, bs)
  (r.1, r.2.1)
/-- Write on behalf of stop `src` in ring class `cls`, tagged by `job`. -/
def Dev.wrBytesC (d : Dev) (cls : Option Nat) (src : Nat) (job : Option (Nat × Nat)) (a : Nat) (bs : List Byte) : Dev × Nat :=
  Dev.wrWith (fun d a n => d.judgeC cls src true job a n) d a bs
/-- Write at the target, for a packet that has come over the ring. -/
def Dev.wrAt (d : Dev) (src : Nat) (job : Option (Nat × Nat)) (a : Nat) (bs : List Byte) : Dev × Nat :=
  Dev.wrWith (fun d a n => d.judgeAt src true job a n) d a bs
/-- The same in the class of the block's own accesses. -/
def Dev.wrBytes (d : Dev) (src : Nat) (job : Option (Nat × Nat)) (a : Nat) (bs : List Byte) : Dev × Nat := d.wrBytesC none src job a bs

/-- A read; none: an error completion. -/
def Dev.busRead (d : Dev) (src a n : Nat) : Dev × Option (List Byte) :=
  let r := d.rdBytes src a n
  (r.1, if r.2.1 = stOK then some r.2.2 else none)
/-- A write; false: an error completion. STALE is a completed write (R308). -/
def Dev.busWrite (d : Dev) (src : Nat) (job : Option (Nat × Nat)) (a : Nat) (bs : List Byte) : Dev × Bool :=
  let r := d.wrBytes src job a bs
  (r.1, r.2 == stOK || r.2 == stStale)

/-! ### Soft-buffer slots (R213, R218, R489) -/

/-- Address of slot `i` of pool `p`. -/
def Dev.slotAddr (d : Dev) (p i : Nat) : Nat := d.harqBase p + i * harqSlotBytes
/-- GEN of a slot's header (R214). -/
def Dev.slotGen (d : Dev) (p i : Nat) : Nat := leAt (d.peek (d.slotAddr p i) 64) 20 4

/-- Slots of the HARQ processes of carriers with MIRROR whose GEN changed since they were last copied. -/
def Dev.slotsPending (d : Dev) : List (Nat × Nat) :=
  (d.fw.soft.flatMap fun e => match Tab.find d.fw.carriers (e.1 / 32) with
    | some c => if c.mirror then e.2 else []
    | none => []).filter fun x => Tab.getD (fun _ => 0) d.twin.gens (2 ^ 16 * x.1 + x.2) != d.slotGen x.1 x.2
/-- MGT_TWIN_SLOTS_PENDING while the pair is up. -/
def Dev.slotsShow (d : Dev) : Dev :=
  if d.rf MGT_TWIN_STS_ROLE == 1 && d.rf MGT_TWIN_STS_PARTNER == 2 then d.wf MGT_TWIN_SLOTS_PENDING_SLOTS d.slotsPending.length else d

end Sys2Proof.Machine
end

