-- ==== Sys2Proof/Machine/CpxHeld.lean ====
section
/-! DEFINITION. What a pod's coprocessor units hold, and its commit, cancel, record and expiry (R170-R183). -/

namespace Sys2Proof.Machine

/-- Set a wake latch of core `c` (R142): 0 DMA_DONE, 1 CPX_DONE, 2 DOORBELL, 3 STOP_MARK, 4 DEBUG. -/
def Dev.setLatch (d : Dev) (c bit : Nat) : Dev := d.updCore c fun k => { k with latches := setBit k.latches bit }

/-- The job in slot `s`, if any. -/
def Dev.job (d : Dev) (s : Nat) : Option Job := Tab.find d.wds.jobs s

/-- Timeline and period of the job core `c` holds: the tag of its writes (R49, R164). A replayed job's outputs are bound to
no timeline (R502). -/
def Dev.jobTag (d : Dev) (c : Nat) : Option (Nat × Nat) :=
  match (d.core c).job with
  | none => none
  | some s => match d.job s with
    | some j => if j.replay then none else some (j.desc.tl, j.desc.period)
    | none => none

/-! ### Registers of a unit -/

/-- The number of instructions pod `p`'s unit `u` holds. -/
def Dev.cpxHeld (d : Dev) (p u : Nat) : Nat :=
  (d.pods.cpx.filter fun i => i.core / 9 == p && i.unit == u).length

/-- Refresh DEPTH and BUSY of pod `p` and OUT of core `c` (R170, R196). -/
def Dev.cpxShow (d : Dev) (p c : Nat) : Dev :=
  let dep (u : Nat) := d.cpxHeld p u
  let out := (d.pods.cpx.filter fun i => i.core == c).length
  let d1 := (upTo 3).foldl (fun d u => d.wf (CPX_u_QUEUE_DEPTH p u) (dep u)) d
  (d1.wf (CPX_STS_BUSY p) (sumNat ((upTo 3).map fun u => if dep u = 0 then 0 else 2 ^ u))).wf
    (CPX_CORE_c_OUT p (c % 9)) out

/-! ### Commit, cancel, record (R171-R174, R178-R180) -/

/-- Change the held instruction `seq`. -/
def Dev.cpxUpd (d : Dev) (seq : Nat) (f : CpxInst → CpxInst) : Dev :=
  { d with pods.cpx := d.pods.cpx.map fun i => if i.seq == seq then f i else i }

/-- Accept an instruction tentatively (R171). -/
def Dev.cpxAccept (d : Dev) (c u desc : Nat) : Dev :=
  let i : CpxInst := ⟨d.pods.seq, c, u, desc, false, none, none, none, true, false⟩
  ({ d with pods.cpx := d.pods.cpx ++ [i], pods.seq := d.pods.seq + 1 }.bump (CPX_u_ACCEPTED (c / 9) u)).cpxShow (c / 9) c

/-- The CPX_ORDER entry of an instruction (R499), for the core given. -/
def cpxOrder (i : CpxInst) (c : Nat) : Nat := i.desc / 64 % 2 ^ 17 + 2 ^ 17 * i.unit + 2 ^ 19 * (c % 9) + 2 ^ 23 * (c / 9)
/-- The core the job that core `c` replays was recorded on. -/
def Dev.recordedCore (d : Dev) (c : Nat) : Option Nat := match d.marrow.replay, (d.core c).job with
  | some r, some s => (r.order.find? (·.1 == s)).map (·.2)
  | _, _ => none
/-- A replayed record waits while one that came before it on its recorded pod has not been written (R502). -/
def Dev.cpxOrderHolds (d : Dev) (i : CpxInst) : Bool := match d.marrow.replay, d.recordedCore i.core with
  | some r, some c =>
    let e := cpxOrder i c
    r.cpx.contains e && (r.cpx.takeWhile (· != e)).any fun x => bitsAt x 23 4 == c / 9
  | _, _ => false
/-- The record is written: its place in the replayed order is past, and a recording takes its order (R496). -/
def Dev.cpxOrderDone (d : Dev) (i : CpxInst) : Dev := match d.recordedCore i.core with
  | some c => { d with marrow.replay := d.marrow.replay.map fun r => { r with cpx := r.cpx.erase (cpxOrder i c) } }
  | none => d.recAdd 4 d.marrow.tl (d.recK % 65536) (some (leBytes 4 (cpxOrder i i.core)))

/-- Write the record of instruction `i` as one 8-byte write, count it, and set the core's CPX_DONE latch (R179). -/
def Dev.cpxRecord (d : Dev) (i : CpxInst) (r : CpxRec) (lost : Bool) : Dev :=
  let p := i.core / 9
  let d1 := if lost then (d.bump (CPX_u_LOSTREC p i.unit)).health (0x20 + p) 0x0001 i.seq
    else (d.podWrite p (i.desc + 8) (leBytes 8 (r.status + 2 ^ 8 * r.flags + 2 ^ 16 * r.result))).bump (CPX_u_DONE p i.unit)
  let d2 := if 1 ≤ r.status ∧ r.status ≤ 4 then d1.bump (CPX_u_ERR p i.unit)
    else if r.status = 5 then d1.bump (CPX_u_EXPIRED p i.unit) else d1
  let d3 := { d2 with pods.cpx := d2.pods.cpx.filter fun j => j.seq != i.seq }
  (if i.wakes then d3.setLatch i.core 1 else d3).cpxShow p i.core |>.cpxOrderDone i

/-- The EXPIRED record (R178). -/
def expiredRec : CpxRec := ⟨5, 1, 0⟩

/-- The commit signal of core `c` for its instruction `seq` (R172): the tag of the job held now goes with its outputs (R180); an instruction that F4 found
tentative is abandoned here (R183). -/
def Dev.cpxCommit (d : Dev) (c seq : Nat) : Dev :=
  match d.pods.cpx.find? (fun i => i.seq == seq && i.core == c) with
  | none => d
  | some i =>
    if i.expire then d.cpxRecord i expiredRec false
    else d.cpxUpd seq fun i => { i with committed := true, job := d.jobTag i.core, slot := (d.core i.core).job }

/-- The staging of a unit holds reads only until a commit or a cancel (R171): how many CK_CPX cycles it has held them is left open (assumption
log). -/
def Dev.stageStall (d : Dev) (p unit : Nat) : Dev :=
  let f := d.fresh (2 ^ 32)
  f.1.bumpBy (CPX_u_STAGE_STALL p unit) f.2

/-- A squashed instruction leaves its unit, counted. -/
def Dev.cpxDrop (d : Dev) (i : CpxInst) : Dev :=
  ({ d with pods.cpx := d.pods.cpx.filter fun j => j.seq != i.seq }.bump (CPX_u_SQUASHED (i.core / 9) i.unit)).cpxShow (i.core / 9) i.core
/-- The cancel of a squashed instruction (R172), with what it stalled so far. -/
def Dev.cpxCancel (d : Dev) (seq : Nat) : Dev :=
  match d.pods.cpx.find? (fun i => i.seq == seq) with
  | none => d
  | some i => (d.stageStall (i.core / 9) i.unit).cpxDrop i

/-- Cancel every tentative instruction of core `c` (R119, R174). -/
def Dev.cpxCancelAll (d : Dev) (c : Nat) : Dev :=
  let seqs := (d.pods.cpx.filter fun i => i.core == c && !i.committed).map (·.seq)
  (seqs.foldl Dev.cpxCancel d).updCore c fun k => { k with tent := [] }

/-! ### Faults and traps of a core (R144-R146) -/

/-- STATE of POD_CORE_c_STS (R148): 0 stopped, 1 running, 2 WAITJOB, 3 WAIT, 4 HALTED. -/
def coreStateF (c : Nat) : Fld := POD_CORE_c_STS_STATE (c / 9) (c % 9)
def Dev.coreState (d : Dev) (c : Nat) : Nat := d.rf (coreStateF c)
def Dev.setCoreState (d : Dev) (c v : Nat) : Dev := d.wf (coreStateF c) v

/-- Record a fault (R145 steps 2 and 3): FPC, FCAUSE, FADDR, FADDRH, the POD_CORE_c_FLT copies, FAULTS. -/
def Dev.faultRecord (d : Dev) (c fpc cause : Nat) (addr : Int) (elem : Nat) : Dev :=
  let p := c / 9
  let i := c % 9
  let lo := ofSigned 32 addr
  let hi := ofSigned 40 addr / 2 ^ 32
  let d1 := d.updCore c fun k =>
    (((k.setCr 0x02 (fpc % 2 ^ 21)).setCr 0x03 (cause + 2 ^ 8 * elem + 2 ^ 16 * b2n k.inHandler)).setCr 0x04 lo).setCr 0x05 hi
  ((((d1.wf (POD_CORE_c_FLT_CAUSE p i) cause).wf (POD_CORE_c_FLT_ELEMENT p i) elem).wf
    (POD_CORE_c_FLT_PC p i) fpc).wf (POD_CORE_c_FLT_ADDR p i) lo).bump (POD_CORE_c_FAULTS p i)

/-- Squash everything younger than the instruction at CM (R119): tentative coprocessor work is cancelled, and the squashed instructions are
counted. How many the pipeline held is left open: at most the 11 stages before CM (R113), at least the tentative ones (assumption log). -/
def Dev.squash (d : Dev) (c : Nat) : Dev :=
  let f := d.fresh 12
  (f.1.cpxCancelAll c).bumpBy (POD_CORE_c_SQUASHED (c / 9) (c % 9)) (max f.2 (d.core c).tent.length)

/-- A fault or trap of core `c` (R145, R146): younger work is squashed, the record written; then the handler at FVEC, or,
with FVEC 0 or in the handler already, HALTED and a health event. -/
def Dev.coreFault (d : Dev) (c fpc cause : Nat) (addr : Int) (elem : Nat) : Dev :=
  let k := d.core c
  let halts := k.inHandler || k.getCr 0x01 == 0
  let d1 := (d.squash c).faultRecord c fpc cause addr elem
  if halts then ((d1.setCoreState c 4).health (0x10 + c / 9) 2 (c + 2 ^ 8 * cause)).recSource 3
  else
    (d1.updCore c fun k => { k.setInHandler true with pc := k.getCr 0x01 % 2 ^ 21 }).setFlag
      (POD_CORE_c_STS_IN_HANDLER (c / 9) (c % 9)) true

/-- One older instruction of core `c` has committed: tentative instructions come one nearer to CM. The oldest, when it reaches CM, commits
and advances the program counter, itself one older instruction of the next (R120, R172); one marked at AG takes its fault there (R169).
`fuel` bounds how many commit. -/
def Dev.cpxTicks : Nat → Dev → Nat → Dev
  | 0, d, _ => d
  | fuel + 1, d, c =>
    match (d.core c).tent.map fun t => { t with ahead := t.ahead - 1 } with
    | [] => d
    | t :: ts =>
      if t.ahead != 0 then d.updCore c fun k => { k with tent := t :: ts }
      else
        let d1 := d.updCore c fun k => { k with tent := ts }
        match t.mark with
        | some cause => d1.coreFault c (d1.core c).pc cause (if cause = 0x01 then 0 else (t.desc : Nat)) 0xFF
        | none => Dev.cpxTicks fuel ((d1.cpxCommit c t.seq).updCore c Core.adv) c
/-- An instruction of core `c` has committed. -/
def Dev.cpxTick (d : Dev) (c : Nat) : Dev := Dev.cpxTicks (d.core c).tent.length d c

/-- Stage F4 for the coprocessors (R183): every committed instruction held of an expired period of the timeline is abandoned
with EXPIRED, whether it is queued, at work or about to write its record; tentative ones of such jobs are marked. `stopped` are the slots of
jobs of the timeline that a carrier's removal stopped (R530). `cut` is what one that has not ended has done by then. -/
def Dev.cpxExpire (d : Dev) (tl : Nat) (expired : Nat → Bool) (stopped : List Nat) (cut : Dev → CpxInst → Dev) : Dev :=
  let hit (j : Option (Nat × Nat)) : Bool := match j with | some (t, p) => t == tl && expired p | none => false
  let held (s : Option Nat) : Bool := match s with | some s => stopped.contains s | none => false
  let mark (i : CpxInst) : CpxInst :=
    if !i.committed && (hit (d.jobTag i.core) || held (d.core i.core).job) then { i with expire := true } else i
  let d1 : Dev := { d with pods.cpx := d.pods.cpx.map mark }
  (d1.pods.cpx.filter fun i => i.committed && (hit i.job || held i.slot)).foldl
    (fun d i => (if i.ran.isNone then cut d i else d).cpxRecord i expiredRec false) d1

end Sys2Proof.Machine
end

