-- ==== Sys2Proof/Machine/Ops.lean ====
section
/-! DEFINITION. The operations every family of commands uses: acting on the device, and running one DSP instruction:
its commit, its wait, its fault (R114, R116, R117, R137, R144-R146). -/

namespace Sys2Proof.Machine

/-- What a command answers. -/
abbrev Res := Host.Outcome State Fault Refusal

/-- The state with the device changed, the security complex and the queue kept. -/
def State.onDev (s : State) (f : Dev → Dev) : State := { s with dev := f s.dev }

/-- The answer of a command whose effect is on the device alone. -/
def State.act (s : State) (f : Dev → Dev) : Res := .next (s.onDev f)

/-! ### DSP cores -/

/-- The core executes instructions: it is running, its own domain is in RUN, and its pod's memory answers (R148, R414). -/
def Dev.coreRuns (d : Dev) (c : Nat) : Bool :=
  d.coreState c == 1 && d.domRun (coreDom c) && d.domOn (3 * (c / 9) + 2)

/-- The cycles of a core are counted while its clock runs; how many is left open (R147, assumption log). -/
def Dev.dspFinish (d : Dev) (c : Nat) (r : InsnRes) : Dev :=
  match r with
  | .done k => (d.setCore c k).cpxTick c
  | .waits => d
  | .fault cause addr elem => d.coreFault c (d.core c).pc cause addr elem

/-- A fetch from the dispatcher's 4 KiB of pod memory yields ILLEGAL (R121). -/
def fetchOk (k : Core) : Bool := decide (4 * k.pc < 0x7FF000)

/-- Run an instruction of a core on the whole device: nothing happens on a core that does not run. -/
def Dev.dspDo (d : Dev) (c : Nat) (f : Dev → Dev) : Dev :=
  if !d.coreRuns c then d
  else if fetchOk (d.core c) then f d else d.dspFinish c illegal

/-- A row given a word: `mine` says the word is the row's instruction, `bad` that its opcode or FN is undefined, which is ILLEGAL (R137);
the word of another instruction is no event of this row, and nothing happens (assumption log). -/
def State.dspWord (mine bad : Bool) (c : Fin 108) (s : State) (f : Dev → Dev) : Res :=
  if mine then s.act fun d => d.dspDo c f
  else if bad then s.act fun d => d.dspDo c fun d => d.dspFinish c illegal
  else .next s

/-- A DSP row: the word carries the row's OP (R136, R138). -/
def State.dspRow (op : Nat) (c : Fin 108) (w : Word) (s : State) (f : Dev → Dev) : Res :=
  State.dspWord (fOp w.toNat == op) (!opDefined (fOp w.toNat)) c s f

/-- A DSP row whose instruction acts on its core alone. -/
def State.dsp (op : Nat) (c : Fin 108) (w : Word) (s : State) (f : Nat → Core → InsnRes) : Res :=
  s.dspRow op c w fun d => d.dspFinish c (f w.toNat (d.core c))

/-- An ACOP row: the word's FN is the row's too; FN 4-15 are undefined (R138). -/
def State.dspAcRow (fn : Nat) (c : Fin 108) (w : Word) (s : State) (f : Dev → Dev) : Res :=
  let op := fOp w.toNat
  let g := bitsAt w.toNat 0 4
  State.dspWord (op == 0x2D && g == fn) (!opDefined op || (op == 0x2D && decide (4 ≤ g))) c s f

/-- An ACOP row whose instruction acts on its core alone. -/
def State.dspAc (fn : Nat) (c : Fin 108) (w : Word) (s : State) (f : Nat → Core → InsnRes) : Res :=
  s.dspAcRow fn c w fun d => d.dspFinish c (f w.toNat (d.core c))

/-- A branch row: `young` instructions younger than it are squashed, 0 for a right prediction (R117, R119). -/
def State.dspBranch (op : Nat) (c : Fin 108) (w : Word) (young : Nat) (s : State) (f : Nat → Core → InsnRes) : Res :=
  s.dspRow op c w fun d =>
    let d1 := if young = 0 then d else (d.cpxCancelAll c).bumpBy (POD_CORE_c_SQUASHED (c / 9) (c % 9)) young
    d1.dspFinish c (f w.toNat (d1.core c))

/-- What a multiply-accumulate does (R131-R133): it commits, and may then trap; or it faults. -/
inductive MacRes where
  | done (k : Core) (trap : Bool)
  | fault (r : InsnRes)
  deriving DecidableEq, Repr

/-- The end of an instruction that may take a GOV flag from 0 to 1: a GOV_TRAP directly follows it, FPC naming the next instruction, and
squashes every younger one (R119, R133, R144, R145). -/
def Dev.macFinish (d : Dev) (c : Nat) (r : MacRes) : Dev :=
  match r with
  | .fault r => d.dspFinish c r
  | .done k trap => if trap then (d.setCore c k).coreFault c k.pc 0x08 0 0xFF else d.dspFinish c (.done k)

/-- A multiply-accumulate row. -/
def State.dspMac (op : Nat) (c : Fin 108) (w : Word) (s : State) (f : Nat → Core → MacRes) : Res :=
  s.dspRow op c w fun d => d.macFinish c (f w.toNat (d.core c))
/-- An ACOP row that may take a GOV flag from 0 to 1. -/
def State.dspMacAc (fn : Nat) (c : Fin 108) (w : Word) (s : State) (f : Nat → Core → MacRes) : Res :=
  s.dspAcRow fn c w fun d => d.macFinish c (f w.toNat (d.core c))

end Sys2Proof.Machine
end

