-- ==== Sys2Proof/Machine/Cpx.lean ====
section
/-! DEFINITION. Pod coprocessors: issue, records, and the unit XFM (R169-R188, R196, R197). -/

namespace Sys2Proof.Machine

/-! ### Issue (R169, R170) -/

/-- The enable bit of unit `u` in CPX_CTL. -/
def Dev.cpxEnabled (d : Dev) (p u : Nat) : Bool := bitAt (d.reg (rCPX_CTL p)) u

/-- The check of a CPX instruction at AG: the cause of its fault, if any: ILLEGAL, then CPX_RANGE, CPX_ALIGN, CPX_UNIT_OFF (R169). -/
def Dev.cpxCheck (d : Dev) (c : Nat) (x sa u : Nat) : Option Nat :=
  if fD x != 0 || fImm x != 0 then some 0x01
  else if sa ≥ 0x7FF000 then some 0x11
  else if sa % 64 != 0 then some 0x10
  else if !d.cpxEnabled (c / 9) u then some 0x12
  else none

/-- An older instruction past which no CPX instruction is sent (R118, R120, R170): a store, a serialising instruction, DMAWAIT. -/
def cpxHolds (w : Word) : Bool :=
  [0x1C, 0x1D, 0x21, 0x26, 0x1E, 0x1F, 0x34, 0x35, 0x36, 0x37, 0x38, 0x39, 0x3A, 0x19, 0x31].contains (fOp w.toNat)

/-- A fault of a CPX instruction: FADDR is Sa, 0 for ILLEGAL (R144, R169). -/
def cpxFault (cause sa : Nat) : InsnRes := if cause = 0x01 then illegal else .fault cause (sa : Nat) 0xFF

/-- The issue of a CPX instruction (R169, R170): it waits while 8 are outstanding or the unit is full. At CM (`older` empty) it is sent and
commits, or faults. Ahead of CM, `older` are the words of the instructions that have still to commit and `sa` the value the bypass network
gives for Sa: the instruction waits past a store, a serialising instruction or a DMAWAIT among them; else it is sent tentatively, or marked
with its fault and not sent, and commits or faults with the last of them. -/
def Dev.cpxIssue (d : Dev) (c : Nat) (w : Word) (older : List Word) (sa : Word) (u : Nat) : Dev :=
  let k := d.core c
  let x := w.toNat
  let out := (d.pods.cpx.filter fun i => i.core == c).length
  let full := decide (8 ≤ out) || decide (32 ≤ d.cpxHeld (c / 9) u)
  let seq := d.pods.seq
  match older with
  | [] =>
    let a := (k.getS (fA x)).toNat
    match d.cpxCheck c x a u with
    | some cause => d.dspFinish c (cpxFault cause a)
    | none => if full then d else ((d.cpxAccept c u a).cpxCommit c seq).dspFinish c (.done k.adv)
  | _ =>
    let a := sa.toNat
    let after := k.tent.foldl (fun m t => max m t.ahead) 0
    if older.any cpxHolds || decide (older.length ≤ after) then d
    else
      let put (mark : Option Nat) (e : Dev) : Dev :=
        e.updCore c fun k => { k with tent := k.tent ++ [⟨u, a, older.length, seq, mark⟩] }
      match d.cpxCheck c x a u with
      | some cause => put (some cause) d
      | none => if full then d else put none (d.cpxAccept c u a)

/-- A CPX row (R169) of unit `u`. -/
def State.cpxRow (op : Nat) (c : Fin 108) (w : Word) (ahead : List Word × Word) (u : Nat) (s : State) : Res :=
  s.dspRow op c w fun d => d.cpxIssue c w ahead.1 ahead.2 u

def execCpxDec (c : Fin 108) (w : Word) (ahead : List Word × Word) (s : State) : Res := s.cpxRow 0x3C c w ahead 0
def execCpxXfm (c : Fin 108) (w : Word) (ahead : List Word × Word) (s : State) : Res := s.cpxRow 0x3D c w ahead 1
def execCpxMat (c : Fin 108) (w : Word) (ahead : List Word × Word) (s : State) : Res := s.cpxRow 0x3E c w ahead 2

/-- CPX_RECORD_WRITE (R179): the record of a run instruction is written once its outputs are acknowledged; `lost` is an
error completion of that write. -/
def execCpxRecordWrite (p : Fin 12) (seq : Nat) (lost : Bool) (s : State) : Res :=
  .next (s.onDev fun d =>
    match d.pods.cpx.find? (fun i => i.seq == seq && i.core / 9 == p.val) with
    | some i => match i.ran with
      | some r => if d.cpxOrderHolds i then d else (d.cpxRecord i r lost).slotsShow
      | none => d
    | none => d)

/-! ### Descriptor checks (R175-R177) -/

/-- One check of R176: holds or fails with a status at a byte offset. -/
abbrev CpxCheck := Bool × Nat × Nat

/-- The first failing check. -/
def firstBad (l : List CpxCheck) : Option (Nat × Nat) :=
  match l.find? (fun c => !c.1) with
  | some c => some c.2
  | none => none

/-- Reserved bytes `i … i+n-1` must be 0: one BAD_DESC check per byte, at its own offset. -/
def resvBytes (ds : List Byte) (i n : Nat) : List CpxCheck :=
  (upTo n).map fun j => (leAt ds (i + j) 1 == 0, 1, i + j)

/-- The 40-bit address field at byte `i`; its upper three bytes are reserved. -/
def addrAt (ds : List Byte) (i : Nat) : Nat := leAt ds i 5
def addrOk (ds : List Byte) (i : Nat) : List CpxCheck := resvBytes ds (i + 5) 3

/-- The header checks of R175: UNIT, OP, DLEN, reserved bytes, extent below 0x7F_F000. -/
def headerChecks (ds : List Byte) (unit desc : Nat) (ops : List Nat) (dlen : Nat → Nat) : List CpxCheck :=
  [(leAt ds 0 1 == unit + 1, 1, 0), (ops.contains (leAt ds 1 1), 1, 1),
   (leAt ds 2 1 == dlen (leAt ds 1 1), 1, 2)] ++ resvBytes ds 3 5 ++
  [(decide (desc + 64 * leAt ds 2 1 ≤ 0x7FF000), 1, 2)]

/-- A buffer span (R177): field offset, first byte, length, pack24 data or not. A span of length 0 touches nothing. -/
structure Span where
  field : Nat
  addr : Nat
  len : Nat
  pack : Bool

/-- The span lies in a permitted place of pod `p` (R177). -/
def spanOk (p : Nat) (s : Span) : Bool :=
  s.len == 0 ||
  match placeOf s.addr, placeOf (s.addr + s.len - 1) with
  | .ddr _, .ddr _ => true
  | .cbuf _, .cbuf _ => true
  | .pod q a, .pod r b => q == p && r == p && decide (a ≤ b) && decide (b < 0x7FF000)
  | .ldm c a, .ldm e b => c == e && c / 9 == p && decide (a ≤ b) && decide (b < 0x60000) && s.pack
      && a % 3 == 0 && s.len % 3 == 0
  | _, _ => false

/-- The check of a span (R176, R177). -/
def spanCheck (p : Nat) (s : Span) : CpxCheck := (spanOk p s, 4, s.field)

/-- The record of a failing check (R176). -/
def badRec (status off : Nat) : CpxRec := ⟨status, 1, off⟩
/-- The BUS_ERR record (R178): the address field of the failing buffer. -/
def busErrRec (field : Nat) : CpxRec := ⟨3, 1, field⟩

/-! ### Input and output of a unit -/

/-- A unit at work: the device, the instruction, the first failing buffer's address field, if any, and the output writes it still gets to
issue, where the fence cuts it off (R183). -/
structure Io where
  d : Dev
  i : CpxInst
  err : Option Nat
  room : Option Nat

/-- Read `n` bytes at `a` for the buffer whose address field is `f`; after an error nothing more is read (R179). -/
def Io.read (io : Io) (f a n : Nat) : Io × List Byte :=
  match io.err with
  | some _ => (io, List.replicate n 0)
  | none =>
    let r := io.d.busRead (io.i.core / 9) a n
    match r.2 with
    | some bs => ({ io with d := r.1 }, bs)
    | none => ({ io with d := r.1, err := some f }, List.replicate n 0)

/-- Write bytes at `a` under the instruction's period tag (R180). Once cut off, the unit does nothing more. -/
def Io.write (io : Io) (f a : Nat) (bs : List Byte) : Io :=
  match io.err with
  | some _ => io
  | none =>
    if io.room = some 0 then { io with err := some f }
    else
      let r := io.d.busWrite (io.i.core / 9) io.i.job a bs
      let io1 : Io := { io with d := r.1, room := io.room.map (· - 1) }
      if r.2 then io1 else { io1 with err := some f }

/-- `n` free numbers below `m`: draw `draw` for the parameters and inputs `key`, on which alone they depend (R33, R182, assumption log 2). -/
def unitDraw (key : List Byte) (draw m n : Nat) : List Nat := (upTo n).map fun j => Config.unitFree key draw j % m
/-- A free integer of either sign. -/
def unitInt (key : List Byte) (draw j : Nat) : Int :=
  let x := Config.unitFree key draw j
  if x % 2 = 0 then (x / 2 : Nat) else -((x / 2 : Nat) : Int) - 1

/-- The operations of a unit (R184, R189, R198). -/
def unitOps (unit : Nat) : List Nat :=
  if unit = 0 then [0x01, 0x02, 0x03, 0x04, 0x11, 0x12, 0x13, 0x14] else if unit = 1 then [1, 2] else [1, 2, 3]

/-- The queue of a unit that an operation waits in: DEC decodes with one engine and encodes with another (R198). -/
def engineOf (unit op : Nat) : Nat := if unit = 0 ∧ 0x11 ≤ op then 1 else 0
/-- The engines that take instructions from one queue, in the order accepted: MAT has two (R195). XFM runs one batch at a time and in no stated
order (R181, R188): none of its instructions waits for another. -/
def enginesOf (unit : Nat) : Nat := if unit = 1 then 32 else if unit = 2 then 2 else 1
/-- OP of an instruction's descriptor. -/
def Dev.cpxOp (d : Dev) (i : CpxInst) : Nat := leAt (d.podRead (i.core / 9) i.desc 2) 1 1
/-- No engine has taken `i` yet: each is at work on an instruction of the same queue that the unit accepted earlier (R195, R198). -/
def Dev.cpxBefore (d : Dev) (i : CpxInst) : Bool :=
  decide (enginesOf i.unit ≤ (d.pods.cpx.filter fun j => decide (j.seq < i.seq) && j.core / 9 == i.core / 9 && j.unit == i.unit && j.ran.isNone &&
    engineOf i.unit (d.cpxOp j) == engineOf i.unit (d.cpxOp i)).length)

/-- Run the operation on a committed instruction that has not run: the descriptor is read, its checks judged in order, then
`body` gives the record (R176, R178). `descErr` is an error completion of the descriptor read (R179). -/
def Dev.cpxRun (d : Dev) (p unit seq : Nat) (op : Nat) (descErr : Bool)
    (checks : Nat → Nat → List Byte → List CpxCheck) (body : List Byte → Io → Io × CpxRec) : Dev :=
  match d.pods.cpx.find? (fun i => i.seq == seq && i.core / 9 == p && i.unit == unit && i.committed && i.ran.isNone) with
  | none => d
  | some i =>
    if d.cpxBefore i then d else
    let ds := d.podRead p i.desc 128
    let fin (d : Dev) (r : CpxRec) : Dev := (d.stageStall p unit).cpxUpd seq fun i => { i with ran := some r }
    if descErr then fin d (busErrRec 0)
    else if leAt ds 1 1 != op && (unitOps unit).contains (leAt ds 1 1) then d
    else match firstBad (checks p i.desc ds) with
    | some (st, off) => fin d (badRec st off)
    | none =>
      let r := body ds ⟨d, i, none, none⟩
      match r.1.err with
      | some f => fin r.1.d (busErrRec f)
      | none => fin r.1.d r.2

/-! ### XFM (R184-R188) -/

/-- 2^a·3^b·5^c (R184). -/
def smooth235 : Nat → Nat → Bool
  | 0, _ => false
  | fuel + 1, n =>
    if n == 1 then true
    else if n % 2 == 0 then smooth235 fuel (n / 2)
    else if n % 3 == 0 then smooth235 fuel (n / 3)
    else if n % 5 == 0 then smooth235 fuel (n / 5)
    else false

/-- Length of a batch buffer: COUNT items of `n` bytes every `stride`. -/
def batchLen (count stride n : Nat) : Nat := if count = 0 then 0 else (count - 1) * stride + n

/-- The checks of an XFM descriptor (R176, R185). -/
def xfmChecks (p desc : Nat) (ds : List Byte) : List CpxCheck :=
  let n := leAt ds 16 2; let count := leAt ds 18 2
  let scale := leAt ds 20 1; let shift := leAt ds 21 1; let opts := leAt ds 22 1
  let is := leAt ds 24 4; let os := leAt ds 28 4
  headerChecks ds 1 desc [1, 2] (fun _ => 1) ++
  [(decide (opts < 8), 1, 22), (leAt ds 23 1 == 0, 1, 23)] ++
  addrOk ds 32 ++ addrOk ds 40 ++ addrOk ds 48 ++ addrOk ds 56 ++
  [(decide (12 ≤ n) && decide (n ≤ 4096) && smooth235 13 n, 2, 16), (decide (count ≤ 1024), 2, 18),
   (decide (scale ≤ 1), 2, 20), (if scale == 1 then decide (shift ≤ 13) else shift == 0, 2, 21),
   (!(bitAt opts 0 || bitAt opts 1) || n % 2 == 0, 2, 22),
   (scale == 0 || addrAt ds 48 == 0, 2, 48), (bitAt opts 2 || addrAt ds 56 == 0, 2, 56)] ++
  [spanCheck p ⟨32, addrAt ds 32, batchLen count is (3 * n), true⟩,
   spanCheck p ⟨40, addrAt ds 40, batchLen count os (3 * n), true⟩,
   spanCheck p ⟨48, addrAt ds 48, if scale == 0 then count else 0, false⟩,
   spanCheck p ⟨56, addrAt ds 56, if bitAt opts 2 then count else 0, false⟩]

/-- Saturate an exponent to a signed byte (R186). -/
def expByte (e : Int) : Nat := ofSigned 8 (satSigned 8 e)

/-! ### The transform itself (R184, R186, R187) -/

/-- π in 2^-60. -/
def piFix : Int := 3622009729038561421
/-- The angle 2πk/N, within a half turn, in 2^-60. -/
def turnFix (n k : Nat) : Int := 2 * piFix * (if 2 * k ≤ n then (k : Int) else (k : Int) - n) / n
/-- `terms` further terms of the sine (`odd` 1) or cosine (`odd` 0) series of an angle whose square is `x2`, in 2^-60, after term `t`. -/
def trigSeries (odd : Nat) (x2 : Int) : Nat → Nat → Int → Int
  | 0, _, _ => 0
  | terms + 1, i, t =>
    let u := -(t * x2 / 2 ^ 60) / ((2 * i + 1 + odd) * (2 * i + 2 + odd) : Nat)
    u + trigSeries odd x2 terms (i + 1) u
/-- Cosine and sine of 2πk/N in 2^-60. -/
def rootFix (n k : Nat) : Int × Int :=
  let x := turnFix n k
  let x2 := x * x / 2 ^ 60
  (2 ^ 60 + trigSeries 0 x2 18 0 (2 ^ 60), x + trigSeries 1 x2 18 0 x)
/-- The same for every k below N. -/
def rootsFix (n : Nat) : List (Int × Int) := (upTo n).map (rootFix n)

/-- Both parts of Y[k] in 2^-60, for the samples `x`; `inv` is the IDFT. -/
def xfmPoint (inv : Bool) (n : Nat) (roots : List (Int × Int)) (x : List (Int × Int)) (k : Nat) : Int × Int :=
  ((upTo n).zip x).foldl (fun a p =>
    let r := nth (0, 0) roots (k * p.1 % n)
    let s := if inv then -r.2 else r.2
    (a.1 + p.2.1 * r.1 + p.2.2 * s, a.2 + p.2.2 * r.1 - p.2.1 * s)) (0, 0)

/-- To nearest, ties to even. -/
def roundDiv (a : Int) (b : Nat) : Int :=
  let q := a / b
  let r := 2 * (a % b)
  if r > b ∨ (r = b ∧ q % 2 = 1) then q + 1 else q
/-- A sum over the roots of `rootsFix`, in 2^-60: where it lies within the series' own error, below 2^-30 at 4,096 points, of a multiple of
2^-12 (where the ties of R186 are), that multiple. -/
def snapFix (y : Int) : Int :=
  let q := roundDiv y (2 ^ 48)
  if (y - q * 2 ^ 48).natAbs < 2 ^ 30 then q * 2 ^ 48 else y
/-- What a part may come out as at exponent `e` from -11 on: from, to, within 2 of the exactly rounded value, ties to even (R186). -/
def partRange (y : Int) (e : Int) : Int × Int :=
  let v := roundDiv (snapFix y * 2 ^ 11) (2 ^ (60 + (e + 11).toNat))
  (v - 2, v + 2)

/-- The 24-bit samples of `n` points. -/
def samplesOf (n : Nat) (b : List Byte) : List (Int × Int) :=
  (upTo n).map fun i => let v := leAt b (3 * i) 3; (toSigned 12 (v % 4096), toSigned 12 (v / 4096))
/-- A list turned by half its length (R187). -/
def halfTurn {α : Type} (l : List α) : List α := l.drop (l.length / 2) ++ l.take (l.length / 2)

/-- One transform of a batch (R184-R187): each part a free value within 2 of the exactly rounded one, the exponent the smallest that fits
by such a result; an all-zero input in BFP gives zeros and exponent -11 (R197). Carries: largest exponent written, number of transforms
that saturated. -/
def xfmOne (ds : List Byte) (acc : Io × Int × Nat) (t : Nat) : Io × Int × Nat :=
  let n := leAt ds 16 2
  let opts := leAt ds 22 1
  let bfp := leAt ds 20 1 == 0
  let (io, big, sats) := acc
  let (io1, xs) := io.read 32 (addrAt ds 32 + t * leAt ds 24 4) (3 * n)
  let (io2, ein) := if bitAt opts 2 then io1.read 56 (addrAt ds 56 + t) 1 else (io1, [0])
  let zero := bfp && xs.all (· == 0)
  let x := if bitAt opts 0 then halfTurn (samplesOf n xs) else samplesOf n xs
  let roots := rootsFix n
  let ys := ((upTo n).map (xfmPoint (leAt ds 1 1 == 2) n roots x)).flatMap fun y => [y.1, y.2]
  let vs := unitDraw (leBytes 1 (leAt ds 1 1) ++ leBytes 2 n ++ slice ds 20 3 ++ xs) 0 (2 ^ 16) (2 * n + 1)
  let exps := (upTo 25).map fun (i : Nat) => (i : Int) - 11
  let may := (exps.find? fun e => ys.all fun y => let r := partRange y e; decide (r.1 ≤ 2047) && decide (-2048 ≤ r.2)).getD 13
  let must := (exps.find? fun e => ys.all fun y => let r := partRange y e; decide (r.2 ≤ 2047) && decide (-2048 ≤ r.1)).getD 13
  let e0 : Int := if !bfp then (leAt ds 21 1 : Int) else if zero then -11 else may + ((nth 0 vs (2 * n) % ((must - may).toNat + 1) : Nat) : Int)
  let parts := (upTo (2 * n)).map fun i =>
    let r := partRange (nth 0 ys i) e0
    if zero then (0 : Int) else r.1 + ((nth 0 vs i % ((r.2 - r.1).toNat + 1) : Nat) : Int)
  let points := (upTo n).map fun k =>
    leBytes 3 (ofSigned 12 (satSigned 12 (nth 0 parts (2 * k))) + 4096 * ofSigned 12 (satSigned 12 (nth 0 parts (2 * k + 1))))
  let out := (if bitAt opts 1 then halfTurn points else points).flatten
  let e : Int := e0 + toSigned 8 (leAt ein 0 1)
  let fixSat := !bfp && parts.any fun v => satSigned 12 v != v
  let expSat := bfp && (decide (e < -128) || decide (e > 127))
  let io4 := io2.write 40 (addrAt ds 40 + t * leAt ds 28 4) out
  let io5 := if bfp then io4.write 48 (addrAt ds 48 + t) [BitVec.ofNat 8 (expByte e)] else io4
  (io5, if bfp then max big (satSigned 8 e) else big, sats + b2n (fixSat || expSat))

/-- A batch (R188): RESULT is the largest exponent (0 in FIXED) and the number of saturated transforms. -/
def xfmBody (ds : List Byte) (io : Io) : Io × CpxRec :=
  let count := leAt ds 18 2
  let r := (upTo count).foldl (xfmOne ds) (io, (-128 : Int), 0)
  let big := if leAt ds 20 1 == 1 || count == 0 then 0 else ofSigned 16 r.2.1
  (r.1, ⟨0, 1 + 2 * b2n (r.2.2 != 0), big + 2 ^ 16 * r.2.2⟩)

def execDft (p : Fin 12) (seq : Nat) (descErr : Bool) (s : State) : Res :=
  .next (s.onDev fun d => d.cpxRun p 1 seq 1 descErr xfmChecks xfmBody)
def execIdft (p : Fin 12) (seq : Nat) (descErr : Bool) (s : State) : Res :=
  .next (s.onDev fun d => d.cpxRun p 1 seq 2 descErr xfmChecks xfmBody)

/-! ### CPX_CTL (R196) -/

/-- CPX_CTL_WRITE: a masked write of the enable bits by any initiator that reaches the block. -/
def execCpxCtlWrite (init : Initiator) (p : Fin 12) (value : Word) (s : State) : Res :=
  .next (s.onDev fun d => d.busReg init (rCPX_CTL p) value.toNat)

end Sys2Proof.Machine
end

