-- ==== Sys2Proof/Machine/DecBits.lean ====
section
/-! DEFINITION. Bit-level pieces of channel coding that the spec takes from TS 38.212, TS 36.212 and TS 38.211 by name:
CRCs, the Gold sequence (R200), rate-matching order (R203, R208), and the convolutional code of R210. -/

namespace Sys2Proof.Machine

/-- Remainder of a bit string by the generator `poly` of `len` bits below its leading one, register starting at 0. -/
def crcBits (len poly : Nat) (bits : List Bool) : Nat :=
  bits.foldl (fun r b =>
    let top := bitAt r (len - 1) != b
    let s := (2 * r) % 2 ^ len
    if top then s ^^^ poly else s) 0

def crc24A (l : List Bool) : Nat := crcBits 24 0x864CFB l
def crc24B (l : List Bool) : Nat := crcBits 24 0x800063 l
def crc16 (l : List Bool) : Nat := crcBits 16 0x1021 l

/-- Packed hard bits, most significant bit first (R199). -/
def unpackBits (n : Nat) (bs : List (BitVec 8)) : List Bool := (bs.flatMap fun b => bitsMsb 8 b.toNat).take n
/-- Pad bits in the last byte are 0 (R199). -/
def packBits (bits : List Bool) : List (BitVec 8) :=
  (upTo (ceilDiv bits.length 8)).map fun i =>
    let s := slice bits (8 * i) 8
    BitVec.ofNat 8 (ofBitsMsb (s ++ List.replicate (8 - s.length) false))

/-- One shift of the two length-31 registers of the Gold sequence (TS 38.211 clause 5.2.1). -/
def goldStep (x : Nat × Nat) : Nat × Nat :=
  let f1 := b2n (bitAt x.1 0 != bitAt x.1 3)
  let f2 := b2n ((bitAt x.2 0 != bitAt x.2 1) != (bitAt x.2 2 != bitAt x.2 3))
  (x.1 / 2 + f1 * 2 ^ 30, x.2 / 2 + f2 * 2 ^ 30)

def goldSkip : Nat → Nat × Nat → Nat × Nat
  | 0, x => x
  | n + 1, x => goldSkip n (goldStep x)

def goldFrom : Nat → Nat × Nat → List Bool
  | 0, _ => []
  | n + 1, x => (bitAt x.1 0 != bitAt x.2 0) :: goldFrom n (goldStep x)

/-- `n` bits of c from index `i` on, initialised with C_INIT (R200). -/
def goldBits (cinit i n : Nat) : List Bool := goldFrom n (goldSkip (1600 + i) (1, cinit % 2 ^ 31))

/-! ### Rate matching -/

/-- The 51 lifting sizes of TS 38.212 Table 5.3.2-1. -/
def ldpcLift (z : Nat) : Bool :=
  decide (2 ≤ z) && decide (z ≤ 384) &&
  [2, 3, 5, 7, 9, 11, 13, 15].any fun a => (upTo 8).any fun j => a * 2 ^ j == z

/-- The starting position k0 (TS 38.212 Table 5.4.2.1-2). -/
def ldpcK0 (bg rv ncb zc : Nat) : Nat :=
  let m := if bg = 1 then 66 else 50
  let a := if bg = 1 then nth 0 [0, 17, 33, 56] rv else nth 0 [0, 13, 25, 43] rv
  a * ncb / (m * zc) * zc

/-- The block sizes K of TS 36.212 Table 5.1.3-3. -/
def turboK (k : Nat) : Bool :=
  (decide (40 ≤ k) && decide (k ≤ 512) && k % 8 == 0) || (decide (528 ≤ k) && decide (k ≤ 1024) && k % 16 == 0)
  || (decide (1056 ≤ k) && decide (k ≤ 2048) && k % 32 == 0) || (decide (2112 ≤ k) && decide (k ≤ 6144) && k % 64 == 0)

/-- The column permutation of the LTE sub-block interleaver (TS 36.212 Table 5.1.4-1). -/
def lteCols : List Nat :=
  [0, 16, 8, 24, 4, 20, 12, 28, 2, 18, 10, 26, 6, 22, 14, 30, 1, 17, 9, 25, 5, 21, 13, 29, 3, 19, 11, 27, 7, 23, 15, 31]

/-- Whether position `p` of the LTE circular buffer of a block of size `k` with `f` filler bits holds no code bit. -/
def turboNull (k f p : Nat) : Bool :=
  let r := ceilDiv (k + 4) 32
  let kp := 32 * r
  let nd := kp - (k + 4)
  let pi01 (i : Nat) : Nat := nth 0 lteCols (i / r) + 32 * (i % r)
  let pi2 (i : Nat) : Nat := (nth 0 lteCols (i / r) + 32 * (i % r) + 1) % kp
  if p < kp then decide (pi01 p < nd + f)
  else
    let q := p - kp
    if q % 2 = 0 then decide (pi01 (q / 2) < nd + f) else decide (pi2 (q / 2) < nd)

/-- The starting position of TS 36.212 clause 5.1.4.1.2. -/
def turboK0 (k rv ncb : Nat) : Nat :=
  let r := ceilDiv (k + 4) 32
  r * (2 * ceilDiv ncb (8 * r) * rv + 2)

/-- E_r of R203: coded bits of block `r`. -/
def codedBits (g nlqm c r : Nat) : Nat :=
  if r + 1 + (g / nlqm) % c ≤ c then nlqm * (g / (nlqm * c)) else nlqm * ceilDiv g (nlqm * c)

/-- Σ E_r′ over r′ < r. -/
def codedStart (g nlqm c r : Nat) : Nat := sumNat ((upTo r).map (codedBits g nlqm c))

/-- The circular-buffer positions in transmission order from k0, those that hold no bit skipped. -/
def cbOrder (ncb k0 : Nat) (null : Nat → Bool) : List Nat :=
  ((upTo (ncb - k0)).map (· + k0) ++ upTo (min k0 ncb)).filter fun p => !null p

/-- Saturation of soft bits (R215): the value and whether it saturated. -/
def satLlr (x : Int) : Int × Bool :=
  if x > 127 then (127, true) else if x < -127 then (-127, true) else (x, false)

/-- LLR bytes read −128 as −127 (R199). -/
def readLlr (b : BitVec 8) : Int := max (-127) b.toInt

/-- Undo the bit interleaving of TS 38.212 clause 5.4.2.2: e index to f index. -/
def deinterleave (qm : Nat) (f : List Int) : List Int :=
  let rows := f.length / qm
  (upTo f.length).map fun k => nth 0 f (k / rows + (k % rows) * qm)

/-- T (R215): the received values of one transmission accumulated into `ncb` positions, each sum saturating; the flag says some sum
saturated. `order` gives the position of value k as order[k mod length]. -/
def accumulate (ncb : Nat) (order : List Nat) (e : List Int) : List Int × Bool :=
  let m := order.length
  let pairs := if m = 0 then [] else (upTo e.length).map fun k => (nth 0 order (k % m), nth 0 e k)
  pairs.foldl (fun (acc : List Int × Bool) pv =>
    let s := satLlr (nth 0 acc.1 pv.1 + pv.2)
    (setNth acc.1 pv.1 s.1, acc.2 || s.2)) (List.replicate ncb 0, false)

/-- Position by position, what a half holds plus T, saturated; whether a sum was. -/
def addLlrs (base t : List Int) : List Int × Bool :=
  let l := (base.zip t).map fun (a, b) => satLlr (a + b)
  (l.map (·.1), l.any (·.2))

/-- One more than the highest position that received a value; 0 for none. -/
def highOf (order : List Nat) (n : Nat) : Nat :=
  (order.take n).foldl (fun m p => max m (p + 1)) 0

/-! ### Convolutional codes (R210) -/

/-- Output bits of one encoder step: register value (bit i is the input i steps ago) and generators. -/
def convOut (gens : List Nat) (reg : Nat) : List Bool := gens.map fun g => popcount 16 (g &&& reg) % 2 == 1

/-- Encode bits from a starting state (the last CL − 1 inputs, most recent in bit 0). -/
def convEnc (cl : Nat) (gens : List Nat) : Nat → List Bool → List Bool
  | _, [] => []
  | st, b :: bs =>
    let reg := (2 * st + b2n b) % 2 ^ cl
    convOut gens reg ++ convEnc cl gens (reg % 2 ^ (cl - 1)) bs

/-- The starting state of a tail-biting code: its last CL − 1 inputs. -/
def convTail (cl : Nat) (bits : List Bool) : Nat :=
  bits.foldl (fun st b => (2 * st + b2n b) % 2 ^ (cl - 1)) 0

/-- A survivor of the Viterbi decoder: metric and input bits, latest first; none where no path reaches the state. -/
abbrev Survivor := Option (Int × List Bool)

/-- Correlation of a step's LLRs with its output bits: a positive LLR speaks for 0 (R192). -/
def branchMetric (out : List Bool) (llr : List Int) : Int :=
  (out.zip llr).foldl (fun m (b, l) => if b then m - l else m + l) 0

/-- One Viterbi step. The better of the two paths into a state survives; `tie` chooses between equals, which the spec's
unprinted bit-exact model fixes (R182). -/
def viterbiStep (cl : Nat) (gens : List Nat) (tie : Bool) (llr : List Int) (sv : List Survivor) : List Survivor :=
  (upTo (2 ^ (cl - 1))).map fun st =>
    let from_ (hi : Bool) : Survivor :=
      let prev := st / 2 + (if hi then 2 ^ (cl - 2) else 0)
      match nth none sv prev with
      | none => none
      | some (m, path) =>
        let reg := (2 * prev + st % 2) % 2 ^ cl
        some (m + branchMetric (convOut gens reg) llr, (st % 2 == 1) :: path)
    match from_ false, from_ true with
    | none, b => b
    | a, none => a
    | some a, some b => if a.1 > b.1 then some a else if a.1 < b.1 then some b else if tie then some b else some a

/-- Run the steps of an LLR list, `n` LLRs each. -/
def viterbiRun (cl : Nat) (gens : List Nat) (tie : Nat → Bool) (n : Nat) : Nat → List Int → List Survivor → List Survivor
  | 0, _, sv => sv
  | k + 1, l, sv => viterbiRun cl gens tie n k (l.drop n) (viterbiStep cl gens (tie k) (l.take n) sv)

/-- The best survivor: its state and bits, first bit first. -/
def bestSurvivor (sv : List Survivor) : Nat × List Bool :=
  let r := (upTo sv.length).foldl (fun (acc : Option (Int × Nat × List Bool)) st =>
    match nth none sv st with
    | none => acc
    | some (m, path) => match acc with
      | some (bm, _, _) => if m > bm then some (m, st, path) else acc
      | none => some (m, st, path)) none
  match r with
  | some (_, st, path) => (st, path.reverse)
  | none => (0, [])

/-- The survivor of state 0, for a terminated code. -/
def zeroSurvivor (sv : List Survivor) : Nat × List Bool :=
  match nth none sv 0 with
  | some (_, path) => (0, path.reverse)
  | none => (0, [])

end Sys2Proof.Machine
end

