-- ==== Sys2Proof/Machine/DecCode.lean ====
section
/-! DEFINITION. The encoders' arithmetic, taken from the standards the spec names (R198, R211): CRC attachment, LDPC, the LTE turbo code and
polar codes. The tables of those standards are in StdTab, but for the base graphs' shifts, which are constants of Config. -/

namespace Sys2Proof.Machine

/-- The `n` bits of a CRC remainder, most significant first. -/
def crcTail (n r : Nat) : List Bool := bitsMsb n r
def crc24C (l : List Bool) : Nat := crcBits 24 0xB2B117 l
def crc6 (l : List Bool) : Nat := crcBits 6 0x21 l
def crc11 (l : List Bool) : Nat := crcBits 11 0x621 l

/-- Element `i` of a bit list, 0 past its end. -/
def bitOf (l : List Bool) (i : Nat) : Bool := nth false l i

/-! ### Interleaving and selection -/

/-- The bit interleaver of TS 38.212 clause 5.4.2.2: raw index `i` carries e index. -/
def interleaveIdx (qm len i : Nat) : Nat := (i % qm) * (len / qm) + i / qm
/-- Scramble from codeword bit `st` on (R200). -/
def scrambleBits (cinit st : Nat) (l : List Bool) : List Bool := (l.zip (goldBits cinit st l.length)).map fun (b, c) => b != c

/-! ### LDPC (TS 38.212 clause 5.3.2) -/

/-- Columns of information of a base graph. -/
def ldpcKb (bg : Nat) : Nat := if bg = 1 then 22 else 10
/-- The set index of a lifting size (Table 5.3.2-1). -/
def ldpcSet (zc : Nat) : Nat :=
  ((upTo 8).find? fun i => (upTo 8).any fun j => nth 2 [2, 3, 5, 7, 9, 11, 13, 15] i * 2 ^ j == zc).getD 0
/-- Shifts of the first core parity column in its first and third row, and in the row between them, by which its parity bits are solved
(assumption log 123). -/
def ldpcCore (bg zc : Nat) : Nat × Nat :=
  let s := ldpcSet zc
  if bg = 1 then (if s = 6 then (0, 105 % zc) else (1, 0)) else if s = 3 ∨ s = 7 then (1, 0) else (0, 1)
/-- The entries of row `i` in the information columns and, past the four core rows, in the core's: column and shift. -/
def ldpcEdges (bg zc i : Nat) : List (Nat × Nat) :=
  (upTo (ldpcKb bg + if i < 4 then 0 else 4)).filterMap fun j => (Config.ldpcV bg (ldpcSet zc) i j).map fun v => (j, v % zc)
/-- The entries of row `i` in the parity columns of the core, and its own past them: column and shift. The core is dual diagonal. -/
def ldpcTail (bg zc i : Nat) : List (Nat × Nat) :=
  let kb := ldpcKb bg
  let c := ldpcCore bg zc
  let mid := if bg = 1 then 1 else 2
  if 4 ≤ i then [(kb + i, 0)]
  else
    (if i = 0 ∨ i = 3 then [(kb, c.1)] else if i = mid then [(kb, c.2)] else []) ++
    (if i = 0 then [] else [(kb + i, 0)]) ++ (if i = 3 then [] else [(kb + i + 1, 0)])
/-- The entries of row `i`. -/
def ldpcRow (bg zc i : Nat) : List (Nat × Nat) := ldpcEdges bg zc i ++ ldpcTail bg zc i
/-- Bit `z` of the sum over entries, of the bits `w` of a codeword. -/
def ldpcSum (zc : Nat) (edges : List (Nat × Nat)) (w : List Bool) (z : Nat) : Bool :=
  edges.foldl (fun a e => a != bitOf w (e.1 * zc + (z + e.2) % zc)) false
/-- Add, bit by bit. -/
def xorBits (a b : List Bool) : List Bool := (a.zip b).map fun x => x.1 != x.2
/-- The `n` rows' parity bits past the core, from row `i` on. -/
def ldpcExtend (bg zc : Nat) : Nat → Nat → List Bool → List Bool
  | 0, _, w => w
  | n + 1, i, w => ldpcExtend bg zc n (i + 1) (w ++ (upTo zc).map (ldpcSum zc (ldpcEdges bg zc i) w))
/-- The codeword of the systematic bits `sys`: the one that meets every row. -/
def ldpcWord (bg zc : Nat) (sys : List Bool) : List Bool :=
  let c := ldpcCore bg zc
  let lam (i : Nat) : List Bool := (upTo zc).map (ldpcSum zc (ldpcEdges bg zc i) sys)
  let sum := xorBits (xorBits (lam 0) (lam 1)) (xorBits (lam 2) (lam 3))
  let p1 := (upTo zc).map fun z => bitOf sum ((z + zc - c.2) % zc)
  let turn (s : Nat) : List Bool := (upTo zc).map fun z => bitOf p1 ((z + s) % zc)
  let p2 := xorBits (lam 0) (turn c.1)
  let p3 := xorBits (xorBits (lam 1) p2) (if bg = 1 then turn c.2 else List.replicate zc false)
  let p4 := xorBits (xorBits (lam 2) p3) (if bg = 1 then List.replicate zc false else turn c.2)
  ldpcExtend bg zc (if bg = 1 then 42 else 38) 4 (sys ++ p1 ++ p2 ++ p3 ++ p4)
/-- All parity checks of the first `rows` rows hold. -/
def ldpcOk (bg zc rows : Nat) (w : List Bool) : Bool :=
  (upTo rows).all fun i => (upTo zc).all fun z => !ldpcSum zc (ldpcRow bg zc i) w z

/-! ### The LTE turbo code (TS 36.212 clauses 5.1.3, 5.1.4.1) -/

/-- One step of a constituent encoder with feedback 1 + D² + D³ and feedforward 1 + D + D³: parity bit and next state. -/
def rscStep (s : Bool × Bool × Bool) (u : Bool) : Bool × (Bool × Bool × Bool) :=
  let a := (u != s.2.1) != s.2.2
  ((a != s.1) != s.2.2, (a, s.1, s.2.1))
/-- Parity bits of an input, then the three tail bits and their parity bits. -/
def rscRun (u : List Bool) : List Bool × List Bool × List Bool :=
  let r := u.foldl (fun (acc : List Bool × (Bool × Bool × Bool)) b => let y := rscStep acc.2 b; (y.1 :: acc.1, y.2)) ([], (false, false, false))
  let t := (upTo 3).foldl (fun (acc : List Bool × List Bool × (Bool × Bool × Bool)) _ =>
    let s := acc.2.2
    let x := s.2.1 != s.2.2
    let y := rscStep s x
    (acc.1 ++ [x], acc.2.1 ++ [y.1], y.2)) (([] : List Bool), ([] : List Bool), r.2)
  (r.1.reverse, t.1, t.2.1)
/-- f1 and f2 of the turbo interleaver of block size K. -/
def turboQpp (k : Nat) : Nat × Nat := ((turboTab.find? fun x => x.1 == k).map (·.2)).getD (0, 0)
/-- The place that input `i` of the second constituent encoder comes from. -/
def turboPi (k i : Nat) : Nat := let f := turboQpp k; (f.1 * i + f.2 * i * i) % k
/-- The three output streams of K + 4 bits each. -/
def turboStreams (u : List Bool) : List Bool × List Bool × List Bool :=
  let k := u.length
  let a := rscRun u
  let b := rscRun ((upTo k).map fun i => bitOf u (turboPi k i))
  let x (i : Nat) := bitOf a.2.1 i
  let z (i : Nat) := bitOf a.2.2 i
  let x' (i : Nat) := bitOf b.2.1 i
  let z' (i : Nat) := bitOf b.2.2 i
  (u ++ [x 0, z 1, x' 0, z' 1], a.1 ++ [z 0, x 2, z' 0, x' 2], b.1 ++ [x 1, z 2, x' 1, z' 2])
/-- The stream and bit that position `p` of the circular buffer of a block of size `k` holds; none: a dummy. -/
def turboSrc (k p : Nat) : Option (Nat × Nat) :=
  let r := ceilDiv (k + 4) 32
  let kp := 32 * r
  let nd := kp - (k + 4)
  let at_ (i : Nat) : Nat := nth 0 lteCols (i / r) + 32 * (i % r)
  let stream := if p < kp then 0 else if (p - kp) % 2 = 0 then 1 else 2
  let i := if p < kp then p else (p - kp) / 2
  let y := if stream = 2 then (at_ i + 1) % kp else at_ i
  if y < nd then none else some (stream, y - nd)
/-- The bit at circular-buffer position `p`. -/
def turboAt (s : List Bool × List Bool × List Bool) (k p : Nat) : Bool :=
  match turboSrc k p with
  | none => false
  | some (0, i) => bitOf s.1 i
  | some (1, i) => bitOf s.2.1 i
  | some (_, i) => bitOf s.2.2 i

/-! ### Polar codes (TS 38.212 clauses 5.3.1, 5.4.1, 6.3.1, 7.3) -/

/-- ⌈log2 x⌉. -/
def clog2 (x : Nat) : Nat := bitLen 32 (x - 1)
/-- N for K information and CRC bits and E coded bits. -/
def polarN (k e nmax : Nat) : Nat :=
  let l := clog2 e
  let n1 := if 8 * e ≤ 9 * 2 ^ (l - 1) ∧ 16 * k < 9 * e then l - 1 else l
  2 ^ max (min (min n1 (clog2 (8 * k))) nmax) 5

/-- The sub-block interleaver pattern of Table 5.4.1.1-1. -/
def polarSub : List Nat :=
  [0, 1, 2, 4, 3, 5, 6, 7, 8, 16, 9, 17, 10, 18, 11, 19, 12, 20, 13, 21, 14, 22, 15, 23, 24, 25, 26, 28, 27, 29, 30, 31]
/-- J(n) of clause 5.4.1.1. -/
def polarJ (n i : Nat) : Nat := nth 0 polarSub (32 * i / n) * (n / 32) + i % (n / 32)

/-- Bit indices frozen by rate matching (clause 5.4.1.1). -/
def polarFrozen (k e n : Nat) : List Nat :=
  if n ≤ e then []
  else if 16 * k ≤ 7 * e then
    let low := if 3 * n ≤ 4 * e then ceilDiv (3 * n - 2 * e) 4 else ceilDiv (9 * n - 4 * e) 16
    (upTo (n - e)).map (polarJ n) ++ upTo low
  else ((upTo n).drop e).map (polarJ n)
/-- The information and parity-check indices, least reliable first. -/
def polarInfo (k npc e n : Nat) : List Nat :=
  let frozen := polarFrozen k e n
  let l := polarSeq.filter fun q => decide (q < n) && !frozen.contains q
  l.drop (l.length - (k + npc))
/-- Row weight exponent of bit index `q`. -/
def polarWeight (q : Nat) : Nat := popcount 10 q
/-- The parity-check indices (clause 5.3.1.2): `wm` of the `npc` by row weight. -/
def polarPc (info : List Nat) (npc wm : Nat) : List Nat :=
  if npc = 0 then []
  else
    let rest := info.drop npc
    let least := rest.foldl (fun m q => min m (polarWeight q)) 32
    info.take (npc - wm) ++ ((rest.reverse.filter fun q => polarWeight q == least).take wm)
/-- The input vector u (clause 5.3.1.2) from the bits c′. -/
def polarU (n : Nat) (info pc : List Nat) (c : List Bool) : List Bool :=
  ((upTo n).foldl (fun (acc : List Bool × List Bool × List Bool) i =>
    -- acc: bits of u so far, latest first; the five-place register; bits of c′ left
    let y := acc.2.1.drop 1 ++ acc.2.1.take 1
    if !info.contains i then (false :: acc.1, y, acc.2.2)
    else if pc.contains i then (bitOf y 0 :: acc.1, y, acc.2.2)
    else
      let b := bitOf acc.2.2 0
      (b :: acc.1, (bitOf y 0 != b) :: y.drop 1, acc.2.2.drop 1)) (([] : List Bool), List.replicate 5 false, c)).1.reverse
/-- u times the n-fold Kronecker power of [1 0; 1 1]. -/
def polarMul : Nat → List Bool → List Bool
  | 0, u => u
  | n + 1, u =>
    let a := polarMul n (u.take (2 ^ n))
    let b := polarMul n (u.drop (2 ^ n))
    (a.zip b).map (fun (x, y) => x != y) ++ b
/-- Bit selection (clause 5.4.1.2) of E bits. -/
def polarSelect (k e n : Nat) (d : List Bool) : List Bool :=
  let y (i : Nat) : Bool := bitOf d (polarJ n i)
  if n ≤ e then (upTo e).map fun i => y (i % n)
  else if 16 * k ≤ 7 * e then (upTo e).map fun i => y (i + n - e)
  else (upTo e).map y
/-- The triangular interleaver of clause 5.4.1.3. -/
def polarTri (l : List Bool) : List Bool :=
  let e := l.length
  let t := ((upTo (e + 2)).find? fun t => decide (e ≤ t * (t + 1) / 2)).getD 0
  (upTo t).flatMap fun j => (upTo (t - j)).flatMap fun i =>
    let q := i * t - i * (i - 1) / 2 + j
    if q < e then [bitOf l q] else []
/-- The input interleaver of clause 5.3.1.1 over K bits. -/
def polarIl (c : List Bool) : List Bool :=
  let k := c.length
  (polarIlSeq.filter fun m => decide (164 - k ≤ m)).map fun m => bitOf c (m - (164 - k))

/-- The payload bits with their CRC (R209, R211). -/
def polarAttach (dl : Bool) (rnti : Nat) (a : List Bool) : List Bool :=
  if dl then a ++ crcTail 24 (crc24C (List.replicate 24 true ++ a) ^^^ rnti)
  else if a.length ≤ 19 then a ++ crcTail 6 (crc6 a) else a ++ crcTail 11 (crc11 a)
/-- The E coded bits of a payload: UCI, or DCI with `dl` (R209, R211). -/
def polarEncode (dl : Bool) (rnti e : Nat) (a : List Bool) : List Bool :=
  let c := polarAttach dl rnti a
  let k := c.length
  let npc := if !dl && a.length ≤ 19 then 3 else 0
  let n := polarN k e (if dl then 9 else 10)
  let info := polarInfo k npc e n
  let pc := polarPc info npc (if npc = 3 ∧ 192 + k < e + 3 then 1 else 0)
  let d := polarMul (bitLen 11 n - 1) (polarU n info pc (if dl then polarIl c else c))
  let r := polarSelect k e n d
  if dl then r else polarTri r

end Sys2Proof.Machine
end

