-- ==== Sys2Proof/Machine/DecAlg.lean ====
section
/-! DEFINITION. The soft decoders of DEC: layered offset min-sum (R204), max-log-MAP (R208), successive-cancellation list decoding (R209). The
widths, the offset and the scaling of Grivin's bit-exact model (R182) are not printed: constants of Config stand for them (assumption log 124). -/

namespace Sys2Proof.Machine

/-! ### Soft values -/

/-- A magnitude as decoder `kind` passes it on. -/
def softMag (kind m : Nat) : Nat := min m (Config.softMag kind m)
/-- The largest soft value of decoder `kind`. -/
def softMax (kind : Nat) : Int := 127 + (Config.softWide kind : Int)
/-- A sum kept within the decoder's width. -/
def softSat (kind : Nat) (x : Int) : Int := max (-(softMax kind)) (min (softMax kind) x)
/-- A value with another sign and magnitude. -/
def signed (neg : Bool) (m : Nat) : Int := if neg then -(m : Int) else m
/-- A passed-on value. -/
def softPass (kind : Nat) (x : Int) : Int := signed (decide (x < 0)) (softMag kind x.natAbs)
/-- The check-node value of two: the product of their signs, the lesser magnitude. -/
def softCheck (kind : Nat) (a b : Int) : Int := signed (decide (a < 0) != decide (b < 0)) (softMag kind (min a.natAbs b.natAbs))

/-! ### LDPC: layered offset min-sum (R204) -/

/-- The state of a decode: the a-posteriori values of the codeword bits, and what each check last told each of its bits, by row and bit. -/
structure MinSum where
  app : List Int
  told : List (List Int)

/-- The bits that bit `z` of row `i` checks; filler bits, known zeros, drop out. -/
def minSumBits (bg zc i : Nat) (known : Nat → Bool) (z : Nat) : List Nat :=
  ((ldpcRow bg zc i).map fun e => e.1 * zc + (z + e.2) % zc).filter fun n => !known n

/-- What a check tells each of its bits, whose values without its own last word are `l`: the offset minimum of the others. -/
def minSumTell (l : List Int) : List Int :=
  (upTo l.length).map fun e =>
    let others := l.take e ++ l.drop (e + 1)
    let neg := others.foldl (fun s x => s != decide (x < 0)) false
    match others.map Int.natAbs with
    | [] => 0
    | m :: ms => signed neg (softMag 0 (ms.foldl min m))

/-- One check: its bits' values and its words. -/
def MinSum.check (s : MinSum) (bits : List Nat) (slot : Nat) : MinSum :=
  let old := nth [] s.told slot
  let l := (upTo bits.length).map fun e => nth 0 s.app (nth 0 bits e) - nth 0 old e
  let new := minSumTell l
  ⟨(upTo bits.length).foldl (fun a e => setNth a (nth 0 bits e) (softSat 0 (nth 0 l e + nth 0 new e))) s.app, setNth s.told slot new⟩

/-- One iteration: the rows in use, one after the other. -/
def MinSum.iterate (bg zc rows : Nat) (known : Nat → Bool) (s : MinSum) : MinSum :=
  (upTo rows).foldl (fun s i => (upTo zc).foldl (fun s z => s.check (minSumBits bg zc i known z) (i * zc + z)) s) s

/-- The start, from the circular-buffer values `work`: two punctured columns ahead of them, known bits at full confidence. -/
def minSumStart (bg zc rows : Nat) (known : Nat → Bool) (work : List Int) : MinSum :=
  ⟨(upTo ((ldpcKb bg + rows) * zc)).map fun n => if known n then softMax 0 else if n < 2 * zc then 0 else nth 0 work (n - 2 * zc),
   List.replicate (rows * zc) []⟩

/-! ### Turbo: max-log-MAP (R208) -/

/-- A constituent encoder's step from state `s`: parity bit and next state. -/
def rscFrom (s : Nat) (u : Bool) : Bool × Nat :=
  let y := rscStep (bitAt s 0, bitAt s 1, bitAt s 2) u
  (y.1, b2n y.2.1 + 2 * b2n y.2.2.1 + 4 * b2n y.2.2.2)
/-- The input that leads state `s` towards 0 in the tail. -/
def rscTailIn (s : Nat) : Bool := bitAt s 1 != bitAt s 2

/-- A trellis step: the values of its input and of its parity bit, and whether it belongs to the tail. -/
abbrev Trellis := List (Int × Int × Bool)
/-- Twice the metric of the branch that leaves state `s` with input `u`; none: the tail has no such branch. -/
def branchOf (x : Int × Int × Bool) (s : Nat) (u : Bool) : Option Int :=
  if x.2.2 && u != rscTailIn s then none
  else some ((if u then -x.1 else x.1) + (if (rscFrom s u).1 then -x.2.1 else x.2.1))
/-- The greater of two metrics; none: no path. -/
def maxPath (a b : Option Int) : Option Int := match a, b with
  | none, y => y
  | x, none => x
  | some x, some y => some (max x y)
/-- The sum of metrics along a path. -/
def addPath (a b : Option Int) : Option Int := a.bind fun x => b.map (x + ·)
/-- The metrics of the eight states after a step. -/
def forwardStep (al : List (Option Int)) (x : Int × Int × Bool) : List (Option Int) :=
  (upTo 8).map fun t => (upTo 8).foldl (fun m s => [false, true].foldl (fun m u =>
    if (rscFrom s u).2 = t then maxPath m (addPath (nth none al s) (branchOf x s u)) else m) m) none
/-- The metrics of the eight states before a step, from those after it. -/
def backwardStep (x : Int × Int × Bool) (be : List (Option Int)) : List (Option Int) :=
  (upTo 8).map fun s => [false, true].foldl (fun m u => maxPath m (addPath (nth none be (rscFrom s u).2) (branchOf x s u))) none
/-- State 0 alone. -/
def zeroState : List (Option Int) := some 0 :: List.replicate 7 none
/-- The metrics before each step, and after the last, backwards from state 0. -/
def backwards : Trellis → List (List (Option Int))
  | [] => [zeroState]
  | x :: t => match backwards t with
    | [] => []
    | b :: bs => backwardStep x b :: b :: bs
/-- The log-likelihood ratio of each step's input, from the metrics `al` of the states before the first. -/
def inputLlrs : List (Option Int) → Trellis → List (List (Option Int)) → List Int
  | _, [], _ => []
  | al, x :: t, bs =>
    let be := nth [] bs 1
    let best (u : Bool) : Option Int := (upTo 8).foldl (fun m s =>
      maxPath m (addPath (addPath (nth none al s) (branchOf x s u)) (nth none be (rscFrom s u).2))) none
    let l : Int := match best false, best true with
      | some a, some b => (a - b) / 2
      | _, _ => 0
    l :: inputLlrs (forwardStep al x) t (bs.drop 1)
/-- What a constituent decoder makes of its `k` inputs' values `sys`, their a-priori values, the parity values and the tail. -/
def sisoLlrs (sys pri par : List Int) (tail : List (Int × Int)) : List Int :=
  let t : Trellis := ((sys.zip pri).zip par).map (fun x => (x.1.1 + x.1.2, x.2, false)) ++ tail.map fun x => (x.1, x.2, true)
  (inputLlrs zeroState t (backwards t)).take sys.length

/-- The values of a turbo block, by stream. -/
structure TurboIn where
  k : Nat
  d0 : List Int
  d1 : List Int
  d2 : List Int

/-- The streams of a block of size `k` with `f` filler bits from its circular-buffer values: filler bits are known zeros. -/
def turboIn (k f : Nat) (work : List Int) : TurboIn :=
  let put (a : TurboIn) (p : Nat) (v : Int) : TurboIn := match turboSrc k p with
    | some (0, i) => { a with d0 := setNth a.d0 i v }
    | some (1, i) => { a with d1 := setNth a.d1 i v }
    | some (_, i) => { a with d2 := setNth a.d2 i v }
    | none => a
  let zero := List.replicate (k + 4) (0 : Int)
  let a := ((upTo work.length).zip work).foldl (fun a x => put a x.1 x.2) ⟨k, zero, zero, zero⟩
  { a with d0 := List.replicate f (softMax 1) ++ a.d0.drop f }

/-- One full iteration from the second decoder's extrinsic values: its new ones and the a-posteriori values, both in the block's own order. -/
def TurboIn.iterate (a : TurboIn) (ext : List Int) : List Int × List Int :=
  let k := a.k
  let sys := a.d0.take k
  let t1 := [(nth 0 a.d0 k, nth 0 a.d1 k), (nth 0 a.d2 k, nth 0 a.d0 (k + 1)), (nth 0 a.d1 (k + 1), nth 0 a.d2 (k + 1))]
  let t2 := [(nth 0 a.d0 (k + 2), nth 0 a.d1 (k + 2)), (nth 0 a.d2 (k + 2), nth 0 a.d0 (k + 3)), (nth 0 a.d1 (k + 3), nth 0 a.d2 (k + 3))]
  let own (l s p : List Int) : List Int := (upTo k).map fun i => softSat 1 (softPass 1 (nth 0 l i - nth 0 s i - nth 0 p i))
  let e1 := own (sisoLlrs sys ext (a.d1.take k) t1) sys ext
  let pick (l : List Int) : List Int := (upTo k).map fun i => nth 0 l (turboPi k i)
  let l2 := sisoLlrs (pick sys) (pick e1) (a.d2.take k) t2
  let e2 := own l2 (pick sys) (pick e1)
  let back (l : List Int) : List Int := (upTo k).foldl (fun o i => setNth o (turboPi k i) (nth 0 l i)) (List.replicate k 0)
  (back e2, back l2)

/-! ### Polar: successive-cancellation list decoding (R209) -/

/-- The value of the next bit of a block of 2^n values, after the bits `us`. -/
def polarNext : Nat → List Int → List Bool → Int
  | 0, l, _ => nth 0 l 0
  | n + 1, l, us =>
    let h := 2 ^ n
    let ab := (l.take h).zip (l.drop h)
    if us.length < h then polarNext n (ab.map fun x => softCheck 2 x.1 x.2) us
    else
      let a := polarMul n (us.take h)
      polarNext n ((ab.zip a).map fun x => softSat 2 (x.1.2 + if x.2 then -x.1.1 else x.1.1)) (us.drop h)

/-- A path: its decided bits, the five-place register of the parity-check bits, its information bits, its metric (less is better). -/
structure PolarPath where
  us : List Bool
  reg : List Bool
  info : List Bool
  cost : Nat

/-- A path with one more bit: its cost grows by the magnitude of a value it goes against. -/
def PolarPath.go (p : PolarPath) (l : Int) (b keeps : Bool) : PolarPath :=
  let y := p.reg.drop 1 ++ p.reg.take 1
  ⟨p.us ++ [b], if keeps then (bitOf y 0 != b) :: y.drop 1 else y, if keeps then p.info ++ [b] else p.info,
   p.cost + if decide (l < 0) = b then 0 else l.natAbs⟩

/-- The paths after bit index `i`: a frozen bit is 0, a parity-check bit the register's, an information bit both ways; the `list` least costly
stay, the earlier of equals first. -/
def polarStep (n list : Nat) (vals : List Int) (info pc : List Nat) (ps : List PolarPath) (i : Nat) : List PolarPath :=
  let next (p : PolarPath) : Int := polarNext n vals p.us
  if !info.contains i then ps.map fun p => p.go (next p) false false
  else if pc.contains i then ps.map fun p => p.go (next p) (bitOf (p.reg.drop 1 ++ p.reg.take 1) 0) false
  else ((ps.flatMap fun p => [p.go (next p) false true, p.go (next p) true true]).mergeSort fun a b => decide (a.cost ≤ b.cost)).take list

/-- The place in the coded block of each of the E rate-matched bits, the interleaver undone (clauses 5.4.1.1-5.4.1.3). -/
def polarPlaces (k e n : Nat) : List Nat :=
  if n ≤ e then (upTo e).map fun i => polarJ n (i % n)
  else if 16 * k ≤ 7 * e then (upTo e).map fun i => polarJ n (i + n - e)
  else (upTo e).map (polarJ n)
/-- For each of the E bits as sent, its index before the triangular interleaver. -/
def polarTriIdx (e : Nat) : List Nat :=
  let t := ((upTo (e + 2)).find? fun t => decide (e ≤ t * (t + 1) / 2)).getD 0
  (upTo t).flatMap fun j => (upTo (t - j)).flatMap fun i =>
    let q := i * t - i * (i - 1) / 2 + j
    if q < e then [q] else []
/-- The values of the N coded bits from the received ones: repetitions are summed, punctured bits unknown, shortened ones known zeros. -/
def polarVals (k e n : Nat) (rx : List Int) : List Int :=
  let places := polarPlaces k e n
  let known := if n ≤ e ∨ 16 * k ≤ 7 * e then 0 else softMax 2
  ((polarTriIdx e).zip rx).foldl (fun (a : List Int) x =>
    let p := nth 0 places x.1
    setNth a p (softSat 2 (nth 0 a p + x.2))) ((upTo n).map fun d => if places.contains d then 0 else known)

/-- The final paths of an uplink block of `a` payload bits, in the order the decoder numbers them. -/
def polarPaths (list a e : Nat) (rx : List Int) : List PolarPath :=
  let k := a + if a ≤ 19 then 6 else 11
  let npc := if a ≤ 19 then 3 else 0
  let n := polarN k e 10
  let info := polarInfo k npc e n
  let pc := polarPc info npc (if npc = 3 ∧ 192 + k < e + 3 then 1 else 0)
  let vals := polarVals k e n rx
  let ps := (upTo n).foldl (polarStep (bitLen 11 n - 1) list vals info pc) [⟨[], List.replicate 5 false, [], 0⟩]
  (((upTo ps.length).zip ps).mergeSort fun x y => decide (Config.polarRank x.1 ≤ Config.polarRank y.1)).map (·.2)

end Sys2Proof.Machine
end

