-- ==== Sys2Proof/Machine/Dec.lean ====
section
/-! DEFINITION. The coprocessor unit DEC: LDPC, turbo, polar and convolutional decoding and encoding, and HARQ soft
buffers (R198-R224): descriptors, rate matching, soft buffers, the decoders of DecAlg, the stop, status entries, extrinsic values, encoders,
records. -/

namespace Sys2Proof.Machine

/-! ### Common parameters of LDPC_DEC and TURBO_DEC (R201, R208) -/

/-- What the two soft-buffer decoders share, read from their descriptors. `bits r` are a block's information bits with its
CRC and without filler. -/
structure DecPar where
  turbo : Bool
  lbrm : Bool
  noscr : Bool
  ext : Bool
  tbCrc : Bool
  packTb : Bool
  c : Nat
  first : Nat
  count : Nat
  g : Nat
  qm : Nat
  nl : Nat
  rv : Nat
  maxIter : Nat
  lscale : Nat
  harqMode : Nat
  outer : Nat
  extScale : Nat
  cinit : Nat
  llrIn : Nat
  out : Nat
  harq : Nat
  extA : Nat
  cbs : Nat
  stride : Nat
  period : Nat
  tl : Nat
  code : Nat
  bits : Nat → Nat
  size : Nat → Nat
  ncb : Nat → Nat
  k0 : Nat → Nat
  null : Nat → Nat → Bool
  /-- Offsets of the address fields LLR_IN, OUT, HARQ, EXT, CBS. -/
  fLlr : Nat
  fOut : Nat
  fHarq : Nat
  fExt : Nat
  fCbs : Nat

/-- LDPC_DEC (R201, R203). -/
def ldpcPar (ds : List Byte) : DecPar :=
  let bg := leAt ds 16 1; let fl := leAt ds 17 1; let zc := leAt ds 18 2; let kp := leAt ds 20 2
  let c := leAt ds 22 2
  let n := (if bg = 1 then 66 else 50) * zc
  let k := (if bg = 1 then 22 else 10) * zc
  let ncb := if bitAt fl 0 then min n (3 * leAt ds 44 4 / (2 * c)) else n
  { turbo := false, lbrm := bitAt fl 0, noscr := bitAt fl 1, ext := bitAt fl 2, tbCrc := bitAt fl 3, packTb := bitAt fl 4,
    c := c, first := leAt ds 24 2, count := leAt ds 26 2, g := leAt ds 28 4, qm := leAt ds 32 1, nl := leAt ds 33 1,
    rv := leAt ds 34 1, maxIter := leAt ds 35 1, lscale := leAt ds 36 1, harqMode := leAt ds 37 1, outer := leAt ds 38 1,
    extScale := leAt ds 39 1, cinit := leAt ds 40 4, llrIn := addrAt ds 48, out := addrAt ds 56, harq := addrAt ds 64,
    extA := addrAt ds 72, cbs := addrAt ds 80, stride := leAt ds 88 4, period := leAt ds 92 2, tl := leAt ds 94 1,
    code := bg - 1, bits := fun _ => kp, size := fun _ => zc, ncb := fun _ => ncb,
    k0 := fun _ => ldpcK0 bg (leAt ds 34 1) ncb zc,
    null := fun _ p => decide (kp ≤ p + 2 * zc) && decide (p + 2 * zc < k),
    fLlr := 48, fOut := 56, fHarq := 64, fExt := 72, fCbs := 80 }

/-- TURBO_DEC (R208). -/
def turboPar (ds : List Byte) : DecPar :=
  let fl := leAt ds 16 1; let kplus := leAt ds 18 2; let kminus := leAt ds 20 2
  let cminus := leAt ds 24 2; let f := leAt ds 26 2
  let kr (r : Nat) : Nat := if r < cminus then kminus else kplus
  let fr (r : Nat) : Nat := if r = 0 then f else 0
  let kw (r : Nat) : Nat := 3 * 32 * ceilDiv (kr r + 4) 32
  let ncb (r : Nat) : Nat := if bitAt fl 0 then min (leAt ds 84 4) (kw r) else kw r
  { turbo := true, lbrm := bitAt fl 0, noscr := bitAt fl 1, ext := false, tbCrc := bitAt fl 2, packTb := bitAt fl 3,
    c := leAt ds 22 2, first := leAt ds 28 2, count := leAt ds 30 2, g := leAt ds 32 4, qm := leAt ds 36 1,
    nl := leAt ds 37 1, rv := leAt ds 38 1, maxIter := leAt ds 17 1, lscale := leAt ds 39 1, harqMode := leAt ds 40 1,
    outer := 0, extScale := 0, cinit := leAt ds 44 4, llrIn := addrAt ds 48, out := addrAt ds 56, harq := addrAt ds 64,
    extA := 0, cbs := addrAt ds 72, stride := leAt ds 80 4, period := leAt ds 88 2, tl := leAt ds 90 1,
    code := 2, bits := fun r => kr r - fr r, size := kr, ncb := ncb, k0 := fun r => turboK0 (kr r) (leAt ds 38 1) (ncb r),
    null := fun r p => turboNull (kr r) (fr r) p,
    fLlr := 48, fOut := 56, fHarq := 64, fExt := 0, fCbs := 72 }

/-- Length of the code-block CRC (R203). -/
def DecPar.lcb (q : DecPar) : Nat := if q.c > 1 then 24 else 0
/-- Payload bits a block writes (R206). -/
def DecPar.pay (q : DecPar) (r : Nat) : Nat := q.bits r - q.lcb
/-- Bits of the transport block with its CRC, and without (R203). -/
def DecPar.tbBits (q : DecPar) : Nat := sumNat ((upTo q.c).map q.pay)
def DecPar.tbCrcLen (q : DecPar) : Nat := if q.turbo || decide (q.tbBits > 3848) then 24 else 16
def DecPar.a (q : DecPar) : Nat := q.tbBits - q.tbCrcLen
def DecPar.e (q : DecPar) (r : Nat) : Nat := codedBits q.g (q.nl * q.qm) q.c r
def DecPar.start (q : DecPar) (r : Nat) : Nat := codedStart q.g (q.nl * q.qm) q.c r
/-- The transport-block CRC over bits with their CRC: remainder 0 passes. -/
def DecPar.tbOk (q : DecPar) (l : List Bool) : Bool := (if q.tbCrcLen = 24 then crc24A l else crc16 l) == 0
/-- The block CRC that stops a decode: CRC24B when C > 1, else the transport block's (R204, R208). -/
def DecPar.cbOk (q : DecPar) (l : List Bool) : Bool := if q.c > 1 then crc24B l == 0 else q.tbOk l

/-! ### Descriptor checks (R202, R208, R212) -/

/-- The checks both formats share after their own: ranges, spans; `enc` for the encoders (R211, R212), whose first block then lies on a whole byte or CB_FIRST fails (at `oFirst`), and whose
last ends on one or CB_COUNT, the next field, fails. -/
def DecPar.spans (q : DecPar) (p : Nat) (enc : Bool) (oFirst : Nat) : List CpxCheck :=
  let last := q.first + q.count
  let n := if q.count = 0 then 0 else q.start last - q.start q.first
  if enc then
    let s0 := q.start q.first
    [(q.count == 0 || s0 % 8 == 0, 2, oFirst), (q.count == 0 || q.start last % 8 == 0 || last == q.c, 2, oFirst + 2),
     spanCheck p ⟨q.fLlr, q.llrIn, if q.count = 0 then 0 else ceilDiv q.a 8, false⟩,
     spanCheck p ⟨q.fOut, q.out + s0 / 8, ceilDiv n 8, false⟩]
  else
    [spanCheck p ⟨q.fLlr, q.llrIn + q.start q.first, n, false⟩,
     spanCheck p ⟨q.fOut, if q.packTb then q.out else q.out + q.first * q.stride,
       if q.count = 0 then 0 else if q.packTb then ceilDiv q.a 8
         else (q.count - 1) * q.stride + ceilDiv (q.pay (last - 1)) 8, false⟩,
     spanCheck p ⟨q.fHarq, q.harq + q.first * 53248, if q.harqMode = 0 then 0 else q.count * 53248, false⟩,
     spanCheck p ⟨q.fExt, q.extA + q.start q.first, if q.ext then n else 0, false⟩,
     spanCheck p ⟨q.fCbs, q.cbs + 4 * q.first, 4 * q.count, false⟩]

/-- Operation lengths of DEC in 64-byte blocks (R198). -/
def decLen (op : Nat) : Nat := if [0x01, 0x02, 0x11, 0x12].contains op then 2 else 1
def decOps : List Nat := [0x01, 0x02, 0x03, 0x04, 0x11, 0x12, 0x13, 0x14]

/-- G, C, CB_FIRST, CB_COUNT and the modulation of R202. -/
def DecPar.common (q : DecPar) (oG oC oF oQ oN oR oL : Nat) (qms : List Nat) : List CpxCheck :=
  let ls := toSigned 8 q.lscale
  [(decide (1 ≤ q.c) && decide (q.c ≤ 256), 2, oC), (decide (q.first + q.count ≤ q.c), 2, oF),
   (qms.contains q.qm, 2, oQ), (decide (1 ≤ q.nl) && decide (q.nl ≤ 4), 2, oN), (decide (q.rv ≤ 3), 2, oR),
   (decide (-4 ≤ ls) && decide (ls ≤ 4), 2, oL),
   (decide (1 ≤ q.g) && decide (q.g ≤ 2097152) && q.g % (q.nl * q.qm) == 0 && decide (q.g / (q.nl * q.qm) ≥ q.c), 2, oG)]

/-- LDPC_DEC and LDPC_ENC (R202, R211). -/
def ldpcChecks (enc : Bool) (p desc : Nat) (ds : List Byte) : List CpxCheck :=
  let q := ldpcPar ds
  let bg := leAt ds 16 1; let zc := leAt ds 18 2; let kp := leAt ds 20 2
  headerChecks ds 0 desc decOps decLen ++
  [(decide (leAt ds 17 1 < 32), 1, 17), (decide (q.cinit < 2 ^ 31), 1, 40), (decide (q.tl < 4), 1, 94)] ++
  addrOk ds 48 ++ addrOk ds 56 ++ addrOk ds 64 ++ addrOk ds 72 ++ addrOk ds 80 ++ resvBytes ds 95 33 ++
  [(bg == 1 || bg == 2, 2, 16), (ldpcLift zc, 2, 18),
   (decide (1 ≤ kp) && decide (kp ≤ (if bg = 1 then 22 else 10) * zc) && (decide (q.c ≤ 1) || decide (kp > 24)), 2, 20)] ++
  q.common 28 22 24 32 33 34 36 [1, 2, 4, 6, 8, 10] ++
  [(if q.lbrm then leAt ds 44 4 != 0 else leAt ds 44 4 == 0, 2, 44)] ++
  (if enc then
    [(leAt ds 17 1 / 4 == 0, 2, 17)] ++ ([35, 36, 37, 38, 39, 92, 93, 94].map fun i => (leAt ds i 1 == 0, 2, i)) ++
    [(q.harq == 0, 2, 64), (q.extA == 0, 2, 72), (q.cbs == 0, 2, 80), (q.stride == 0, 2, 88)]
  else
    [(decide (1 ≤ q.maxIter) && decide (q.maxIter ≤ 32), 2, 35), (decide (q.harqMode ≤ 3), 2, 37),
     (decide (q.outer ≤ 3) && (q.harqMode != 3 || decide (q.outer ≥ 1))
        && (q.outer == 0 || q.harqMode == 0 || q.harqMode == 3), 2, 38),
     (decide (q.extScale ≤ 4), 2, 39), (!(q.tbCrc || q.packTb) || (q.first == 0 && q.count == q.c), 2, 17),
     (q.harqMode != 0 || q.harq == 0, 2, 64), (q.ext || q.extA == 0, 2, 72), (!q.packTb || q.stride == 0, 2, 88)]) ++
  q.spans p enc 24

/-- TURBO_DEC and TURBO_ENC (R208, R211). -/
def turboChecks (enc : Bool) (p desc : Nat) (ds : List Byte) : List CpxCheck :=
  let q := turboPar ds
  let kplus := leAt ds 18 2; let kminus := leAt ds 20 2; let cminus := leAt ds 24 2
  headerChecks ds 0 desc decOps decLen ++
  [(decide (leAt ds 16 1 < 16), 1, 16)] ++ resvBytes ds 41 3 ++
  [(decide (q.cinit < 2 ^ 31), 1, 44), (decide (q.tl < 4), 1, 90)] ++
  addrOk ds 48 ++ addrOk ds 56 ++ addrOk ds 64 ++ addrOk ds 72 ++ resvBytes ds 91 37 ++
  [(turboK kplus, 2, 18), (if cminus = 0 then kminus == 0 else turboK kminus, 2, 20),
   (cminus == 0 || decide (cminus + 1 ≤ q.c), 2, 24),
   (decide (leAt ds 26 2 < (if cminus = 0 then kplus else kminus)), 2, 26)] ++
  q.common 32 22 28 36 37 38 39 [2, 4, 6, 8] ++
  [(if q.lbrm then leAt ds 84 4 != 0 && decide (leAt ds 84 4 ≤ 3 * 32 * ceilDiv (kplus + 4) 32) else leAt ds 84 4 == 0, 2, 84)] ++
  (if enc then
    [(leAt ds 16 1 / 4 == 0, 2, 16)] ++ ([17, 39, 40, 88, 89, 90].map fun i => (leAt ds i 1 == 0, 2, i)) ++
    [(q.harq == 0, 2, 64), (q.cbs == 0, 2, 72), (q.stride == 0, 2, 80)]
  else
    [(decide (1 ≤ q.maxIter) && decide (q.maxIter ≤ 16), 2, 17), (decide (q.harqMode ≤ 2), 2, 40),
     (!(q.tbCrc || q.packTb) || (q.first == 0 && q.count == q.c), 2, 16),
     (q.harqMode != 0 || q.harq == 0, 2, 64), (!q.packTb || q.stride == 0, 2, 80)]) ++
  q.spans p enc 28

/-! ### HARQ soft buffers (R213-R216) -/

/-- A soft-buffer header (R214). -/
structure HarqHdr where
  cur : Nat
  valid : Bool
  preEmpty : Bool
  code : Nat
  lscale : Nat
  count : Nat
  size : Nat
  ncb : Nat
  high : Nat
  period : Nat
  tl : Nat
  gen : Nat
  highPre : Nat
  deriving DecidableEq, Repr

def harqHdr (b : List Byte) : HarqHdr :=
  let st := leAt b 0 1
  ⟨st % 2, bitAt st 1, bitAt st 2, leAt b 1 1, leAt b 2 1, leAt b 3 1, leAt b 4 2, leAt b 8 4, leAt b 12 4,
   leAt b 16 2, leAt b 18 1 % 4, leAt b 20 4, leAt b 24 4⟩

def harqBytes (h : HarqHdr) : List Byte :=
  leBytes 1 (h.cur + 2 * b2n h.valid + 4 * b2n h.preEmpty) ++ leBytes 1 h.code ++ leBytes 1 h.lscale ++
  leBytes 1 h.count ++ leBytes 2 h.size ++ leBytes 2 0 ++ leBytes 4 h.ncb ++ leBytes 4 h.high ++ leBytes 2 h.period ++
  leBytes 1 h.tl ++ leBytes 1 0 ++ leBytes 4 h.gen ++ leBytes 4 h.highPre ++ List.replicate 36 0

/-- Byte address of half `h` of the slot at `slot` (R213). -/
def halfAddr (slot h : Nat) : Nat := slot + 64 + h * 25344

/-- A header is consistent with the instruction's block `r` (R214). -/
def DecPar.consistent (q : DecPar) (r : Nat) (h : HarqHdr) : Bool :=
  h.valid && h.code == q.code && h.lscale == q.lscale && h.size == q.size r % 2 ^ 16 && h.ncb == q.ncb r

/-- What the soft buffer gives a decode: the unit, the working values, one more than the highest position that holds one (P of R204), whether
a sum saturated, whether HARQ_RESET is reported. -/
structure HarqRes where
  io : Io
  work : List Int
  high : Nat
  sat : Bool
  rst : Bool

/-- The action on block `r`'s slot with the transmission's values `e` in order `ord` (R215, R216): T first, then its sum with what the
slot holds. Data writes come before the header write. -/
def DecPar.harqStep (q : DecPar) (io : Io) (r : Nat) (ord : List Nat) (e : List Int) : HarqRes :=
  let ncb := q.ncb r
  let ht := highOf ord e.length
  let t := accumulate ncb ord e
  let onto (base : List Int) : List Int × Bool := let x := addLlrs base t.1; (x.1, x.2 || t.2)
  if q.harqMode = 0 then ⟨io, t.1, ht, t.2, false⟩
  else
    let slot := q.harq + r * 53248
    let (io1, hb) := io.read q.fHarq slot 64
    let h := harqHdr hb
    let new (h : HarqHdr) : HarqHdr :=
      { h with code := q.code, lscale := q.lscale, size := q.size r % 2 ^ 16, ncb := ncb, period := q.period, tl := q.tl }
    let put (io : Io) (half : Nat) (l : List Int) (h : HarqHdr) : Io :=
      (io.write q.fHarq (halfAddr slot half) (l.map (BitVec.ofInt 8))).write q.fHarq slot (harqBytes h)
    let fresh (reset : Bool) : HarqRes :=
      let h' := { new h with cur := 1 - h.cur, valid := true, preEmpty := true, count := 1, high := ht, highPre := 0,
                             gen := (h.gen + 1) % 2 ^ 32 }
      ⟨put io1 (1 - h.cur) t.1 h', t.1, ht, t.2, reset⟩
    let combine : HarqRes :=
      if q.consistent r h then
        let (io2, cb) := io1.read q.fHarq (halfAddr slot h.cur) ncb
        let x := onto (cb.map readLlr)
        let h' := { new h with cur := 1 - h.cur, valid := true, preEmpty := false, count := min 255 (h.count + 1),
                               high := max h.high ht, highPre := h.high, gen := (h.gen + 1) % 2 ^ 32 }
        ⟨put io2 (1 - h.cur) x.1 h', x.1, max h.high ht, x.2, false⟩
      else fresh true
    if q.harqMode = 1 then fresh false
    else if q.harqMode = 2 || h.tl != q.tl || h.period != q.period || !h.valid then combine
    else
      let pre := 1 - h.cur
      let (io2, pb) := if h.preEmpty then (io1, List.replicate ncb 0) else io1.read q.fHarq (halfAddr slot pre) ncb
      let h1 := { new h with cur := pre, valid := !h.preEmpty, high := h.highPre, gen := (h.gen + 1) % 2 ^ 32 }
      let io3 := io2.write q.fHarq slot (harqBytes h1)
      let x := onto (pb.map readLlr)
      let hp := if h.preEmpty then 0 else h.highPre
      let h2 := { new h with valid := true, high := max hp ht, gen := (h.gen + 2) % 2 ^ 32 }
      ⟨put io3 h.cur x.1 h2, x.1, max hp ht, x.2, false⟩

/-! ### Decoding (R204-R208) -/

/-- Columns of information of a base graph, and all its systematic bits at a lifting size. -/
def DecPar.kb (q : DecPar) : Nat := if q.code = 0 then 22 else 10
/-- ROWS (R204): parity rows in use, from P. -/
def DecPar.rows (q : DecPar) (r high : Nat) : Nat :=
  min (if q.code = 0 then 46 else 42) (max 4 ((high - 1) / q.size r + 3 - q.kb))
/-- How a block's decode ended: its decisions, its a-posteriori values, its CRC, its syndrome, its iterations. -/
structure BlockRes where
  bits : List Bool
  app : List Int
  crc : Bool
  synd : Bool
  iters : Nat

/-- Filler bits of a block: known zeros (R204). -/
def DecPar.known (q : DecPar) (r n : Nat) : Bool := Nat.ble (q.bits r) n && Nat.blt n (q.kb * q.size r)
/-- What a block shows after `iters` iterations, by its a-posteriori values. -/
def DecPar.blockRes (q : DecPar) (r rows iters : Nat) (app : List Int) : BlockRes :=
  let bits := app.map fun v => decide (v < 0)
  let mine := if q.turbo then bits.drop (q.size r - q.bits r) else bits
  ⟨mine, app, q.cbOk (mine.take (q.bits r)), !q.turbo && ldpcOk (q.code + 1) (q.size r) rows bits, iters⟩
/-- A block stops after an iteration at which its CRC passes, for LDPC with every parity check satisfied (R204, R208). -/
def DecPar.stops (q : DecPar) (b : BlockRes) : Bool := b.crc && (q.turbo || b.synd)
/-- The iterations of an LDPC block: at most `left` more after `it`. -/
def DecPar.ldpcRun (q : DecPar) (r rows : Nat) : Nat → Nat → MinSum → BlockRes
  | 0, it, s => q.blockRes r rows it s.app
  | left + 1, it, s =>
    let s1 := s.iterate (q.code + 1) (q.size r) rows (q.known r)
    let b := q.blockRes r rows (it + 1) s1.app
    if q.stops b then b else q.ldpcRun r rows left (it + 1) s1
/-- The same of a turbo block, from the extrinsic values and the a-posteriori values so far. -/
def DecPar.turboRun (q : DecPar) (r : Nat) (a : TurboIn) : Nat → Nat → List Int × List Int → BlockRes
  | 0, it, x => q.blockRes r 0 it x.2
  | left + 1, it, x =>
    let y := a.iterate x.1
    let b := q.blockRes r 0 (it + 1) y.2
    if q.stops b then b else q.turboRun r a left (it + 1) y
/-- The decode of a block from its working values (R204, R208): it goes on to MAX_ITER unless it stops. -/
def DecPar.iterate (q : DecPar) (r rows : Nat) (work : List Int) : BlockRes :=
  if q.turbo then
    let a := turboIn (q.size r) (q.size r - q.bits r) work
    q.turboRun r a q.maxIter 0 (List.replicate a.k 0, List.replicate a.k 0)
  else q.ldpcRun r rows q.maxIter 0 (minSumStart (q.code + 1) (q.size r) rows (q.known r) work)

/-- The extrinsic value at circular-buffer position `p` of a block (R219) and whether it saturated: the a-posteriori value less the bit's own
descrambled input `t`, scaled, or ±127 in the sign of the decision in a block whose CRC passes. -/
def DecPar.extrinsic (q : DecPar) (r : Nat) (b : BlockRes) (p : Nat) (t : Int) : Int × Bool :=
  let n := p + 2 * q.size r
  if b.crc then (if bitOf b.bits n then -127 else 127, false)
  else satLlr (roundDiv ((nth 0 b.app n - t) * q.extScale) 4)

/-- What a decode has gathered so far. -/
structure DecAcc where
  io : Io
  ok : Nat
  iters : Nat
  reset : Bool
  sat : Bool
  dec : Nat
  /-- Payload bits of the decoded blocks, by block; none for a skipped one. -/
  pays : List (Option (List Bool))

/-- Decode one block (R204-R206, R215, R219); `b0` is byte 0 of its status entry as it was read. -/
def DecPar.block (q : DecPar) (a : DecAcc) (r b0 : Nat) : DecAcc :=
  if q.outer ≥ 1 ∧ bitAt b0 0 then
    let b0' := clrBit (setBit b0 4) 5
    { a with io := a.io.write q.fCbs (q.cbs + 4 * r) [BitVec.ofNat 8 b0'], ok := a.ok + 1, pays := a.pays ++ [none] }
  else
    let er := q.e r; let st := q.start r
    let (io1, raw) := a.io.read q.fLlr (q.llrIn + st) er
    let scr := if q.noscr then List.replicate er false else goldBits q.cinit st er
    let l1 := ((raw.map readLlr).zip scr).map fun (x, c) => if c then -x else x
    let e := if q.turbo then l1 else deinterleave q.qm l1
    let ord := cbOrder (q.ncb r) (q.k0 r % max 1 (q.ncb r)) (q.null r)
    let h := q.harqStep io1 r ord e
    let rows := if q.turbo then 0 else q.rows r h.high
    let b := q.iterate r rows h.work
    let ext := ((upTo er).zip l1).map fun (i, t) => q.extrinsic r b (nth 0 ord (interleaveIdx q.qm er i % max 1 ord.length)) t
    let extB : List Byte := (ext.zip scr).map fun (x, c) => BitVec.ofInt 8 (if c then -x.1 else x.1)
    let io6 := if q.ext then h.io.write q.fExt (q.extA + st) extB else h.io
    let pay := b.bits.take (q.pay r)
    let io7 := if q.packTb then io6 else io6.write q.fOut (q.out + r * q.stride) (packBits pay)
    let eb := b2n b.crc + 2 * b2n b.synd + 4 * b2n (b.crc && q.ext) + 8 * b2n h.rst + 32
    let io8 := io7.write q.fCbs (q.cbs + 4 * r) (leBytes 4 (eb + 2 ^ 8 * b.iters + 2 ^ 16 * q.outer))
    let p := io8.i.core / 9
    let d1 := (io8.d.bump (if b.crc then CPX_DEC_CB_OK p else CPX_DEC_CB_FAIL p)).bumpBy (CPX_DEC_ITER p) b.iters
    let d2 := if h.rst then d1.bump (CPX_DEC_HARQ_RESET p) else d1
    { a with io := { io8 with d := if io8.err.isSome then io8.d else d2 }, ok := a.ok + b2n b.crc, iters := a.iters + b.iters,
             reset := a.reset || h.rst, sat := a.sat || h.sat || (q.ext && ext.any (·.2)), dec := a.dec + 1, pays := a.pays ++ [some pay] }

/-- The outputs of skipped blocks, read back (R206): by block with PACK_TB 0, else from the transport block, whose own CRC bits are not
stored: those of a skipped block are a free value. -/
def DecPar.readBack (q : DecPar) (a : DecAcc) : Io × List (List Bool) :=
  let off (r : Nat) := sumNat ((upTo r).map q.pay)
  (upTo q.c).foldl (fun (acc : Io × List (List Bool)) r =>
    match nth none a.pays r with
    | some l => (acc.1, acc.2 ++ [l])
    | none =>
      if q.packTb then
        let first := off r / 8
        let n := min (q.pay r) (q.a - off r)
        let x := acc.1.read q.fOut (q.out + first) (ceilDiv (off r % 8 + n) 8)
        let here := slice (unpackBits (8 * x.2.length) x.2) (off r % 8) n
        (x.1, acc.2 ++ [here ++ (unitDraw x.2 r 2 (q.pay r - n)).map (· == 1)])
      else
        let x := acc.1.read q.fOut (q.out + r * q.stride) (ceilDiv (q.pay r) 8)
        (x.1, acc.2 ++ [unpackBits (q.pay r) x.2])) (a.io, [])

/-- A whole soft-buffer decode (R205-R208) and its RESULT (R207). On an outer pass the status entries are read first. -/
def DecPar.run (q : DecPar) (io : Io) : Io × CpxRec :=
  if q.count = 0 then (io, ⟨0, 1, 0⟩)
  else
    let (io0, ents) := if q.outer = 0 then (io, []) else io.read q.fCbs (q.cbs + 4 * q.first) (4 * q.count)
    let a := (upTo q.count).foldl (fun a i => q.block a (q.first + i) (leAt ents (4 * i) 1)) ⟨io0, 0, 0, false, false, 0, []⟩
    -- TB_CRC and PACK_TB come with the whole transport block (R202)
    let whole := q.tbCrc || q.packTb
    let (io1, outs) := if whole then q.readBack a else (a.io, [])
    let tb := outs.flatten
    let io2 := if q.packTb && a.dec != 0 then io1.write q.fOut q.out (packBits (tb.take q.a)) else io1
    let b14 := if q.tbCrc then 1 + 2 * b2n (q.tbOk tb) else 0
    (io2, ⟨0, 1 + 2 * b2n a.sat, a.ok + 2 ^ 16 * min 0xFFFF a.iters + 2 ^ 32 * (b14 + 4 * b2n a.reset)⟩)

/-! ### Polar and convolutional codes (R209, R210) -/

/-- POLAR_DEC and POLAR_ENC (R209, R211). -/
def polarChecks (enc : Bool) (p desc : Nat) (ds : List Byte) : List CpxCheck :=
  let fl := leAt ds 16 1; let a := leAt ds 18 2; let e := leAt ds 20 2
  let ls := toSigned 8 (leAt ds 22 1)
  let dl := bitAt fl 0
  let crc := if enc && dl then 24 else if a ≤ 19 then 6 else 11
  headerChecks ds 0 desc decOps decLen ++
  [(decide (fl < 2), 1, 16), (leAt ds 23 1 == 0, 1, 23)] ++ addrOk ds 24 ++ addrOk ds 32 ++ resvBytes ds 42 22 ++
  [(enc || !dl, 2, 16),
   (if enc then leAt ds 17 1 == 0 else [1, 2, 4, 8].contains (leAt ds 17 1), 2, 17),
   (decide (12 ≤ a) && decide (a ≤ if enc && dl then 140 else 1002), 2, 18),
   (decide (a + crc ≤ e) && decide (e ≤ 8192), 2, 20),
   (if enc then leAt ds 22 1 == 0 else decide (-4 ≤ ls) && decide (ls ≤ 4), 2, 22),
   ((enc && dl) || leAt ds 40 2 == 0, 2, 40),
   spanCheck p ⟨24, addrAt ds 24, if enc then ceilDiv a 8 else e, false⟩,
   spanCheck p ⟨32, addrAt ds 32, if enc then ceilDiv e 8 else ceilDiv a 8, false⟩]

/-- POLAR_DEC (R209): of the LIST final paths the best whose CRC passes, else the best; ties go to the lower index. -/
def polarDecBody (ds : List Byte) (io : Io) : Io × CpxRec :=
  let a := leAt ds 18 2
  let (io1, raw) := io.read 24 (addrAt ds 24) (leAt ds 20 2)
  let paths := (polarPaths (leAt ds 17 1) a (leAt ds 20 2) (raw.map readLlr)).map fun p =>
    (p.info, p.info == polarAttach false 0 (p.info.take a), p.cost)
  let best (ok : Bool) : Option Nat := (upTo paths.length).foldl (fun (m : Option Nat) i =>
    let p (i : Nat) := nth ([], false, 0) paths i
    if ok && !(p i).2.1 then m
    else match m with
      | none => some i
      | some j => if (p i).2.2 < (p j).2.2 then some i else m) none
  let i := ((best true).orElse fun _ => best false).getD 0
  let p := nth ([], false, 0) paths i
  (io1.write 32 (addrAt ds 32) (packBits (p.1.take a)), ⟨0, 1, b2n p.2.1 + 2 ^ 8 * i⟩)

/-- The record of an encoder (R212): bits written. -/
def encRec (n : Nat) : CpxRec := ⟨0, 1, n % 2 ^ 32⟩

/-- POLAR_ENC (R209, R211). -/
def polarEncBody (ds : List Byte) (io : Io) : Io × CpxRec :=
  let e := leAt ds 20 2
  let a := leAt ds 18 2
  let (io1, raw) := io.read 24 (addrAt ds 24) (ceilDiv a 8)
  let bits := polarEncode (bitAt (leAt ds 16 1) 0) (leAt ds 40 2) e (unpackBits a raw)
  (io1.write 32 (addrAt ds 32) (packBits bits), encRec e)

/-- CONV_DEC and CONV_ENC (R210, R211). -/
def convChecks (enc : Bool) (p desc : Nat) (ds : List Byte) : List CpxCheck :=
  let fl := leAt ds 16 1; let cl := leAt ds 17 1; let np := leAt ds 18 1; let bits := leAt ds 20 2
  let ls := toSigned 8 (leAt ds 19 1)
  let t := if bitAt fl 0 then bits else bits + cl - 1
  let gen (i : Nat) : CpxCheck :=
    let g := leAt ds (24 + 2 * i) 2
    (if i < np then g % 2 == 1 && decide (g < 2 ^ cl) else g == 0, 2, 24 + 2 * i)
  headerChecks ds 0 desc decOps decLen ++
  [(decide (fl < 2), 1, 16)] ++ resvBytes ds 22 2 ++ addrOk ds 32 ++ addrOk ds 40 ++ resvBytes ds 48 16 ++
  [(decide (3 ≤ cl) && decide (cl ≤ 9), 2, 17), (decide (2 ≤ np) && decide (np ≤ 4), 2, 18),
   (if enc then leAt ds 19 1 == 0 else decide (-4 ≤ ls) && decide (ls ≤ 4), 2, 19),
   (decide (1 ≤ bits) && decide (bits ≤ 4096), 2, 20), gen 0, gen 1, gen 2, gen 3,
   spanCheck p ⟨32, addrAt ds 32, if enc then ceilDiv bits 8 else t * np, false⟩,
   spanCheck p ⟨40, addrAt ds 40, if enc then ceilDiv (t * np) 8 else ceilDiv bits 8, false⟩]

/-- The used generators (R210). -/
def convGens (ds : List Byte) : List Nat := (upTo (leAt ds 18 1)).map fun i => leAt ds (24 + 2 * i) 2

/-- CONV_DEC: Viterbi with full traceback; a tail-biting decode runs three passes and outputs the middle one (R210). -/
def convDecBody (ds : List Byte) (io : Io) : Io × CpxRec :=
  let cl := leAt ds 17 1; let np := leAt ds 18 1; let bits := leAt ds 20 2
  let tb := bitAt (leAt ds 16 1) 0
  let t := if tb then bits else bits + cl - 1
  let (io1, raw) := io.read 32 (addrAt ds 32) (t * np)
  let l := raw.map readLlr
  let key := slice ds 16 6 ++ slice ds 24 8 ++ raw
  let tie (j : Nat) : Bool := Config.unitFree key 0 j % 2 == 1
  let states := 2 ^ (cl - 1)
  let res : Nat × List Bool :=
    if tb then
      let r := bestSurvivor (viterbiRun cl (convGens ds) tie np (3 * t) (l ++ l ++ l) (List.replicate states (some (0, []))))
      (r.1, slice r.2 t t)
    else
      let r := zeroSurvivor (viterbiRun cl (convGens ds) tie np t l (some (0, []) :: List.replicate (states - 1) none))
      (r.1, r.2.take bits)
  (io1.write 40 (addrAt ds 40) (packBits res.2), ⟨0, 1, res.1 % 2 ^ 16⟩)

/-- CONV_ENC (R210, R211): terminated by zeros, or tail-biting. -/
def convEncBody (ds : List Byte) (io : Io) : Io × CpxRec :=
  let cl := leAt ds 17 1; let bits := leAt ds 20 2
  let tb := bitAt (leAt ds 16 1) 0
  let (io1, raw) := io.read 32 (addrAt ds 32) (ceilDiv bits 8)
  let u := unpackBits bits raw
  let out := if tb then convEnc cl (convGens ds) (convTail cl u) u
    else convEnc cl (convGens ds) 0 (u ++ List.replicate (cl - 1) false)
  (io1.write 40 (addrAt ds 40) (packBits out), encRec out.length)

/-- The coded bits of block `r` of a transport block with its CRC, before scrambling (R211): the block's bits with CRC24B when there are
several, filler, the code, bit selection from k0, the LDPC interleaver. -/
def DecPar.codeBlock (q : DecPar) (tb : List Bool) (r : Nat) : List Bool :=
  let part := slice tb (sumNat ((upTo r).map q.pay)) (q.pay r)
  let info := if q.c > 1 then part ++ crcTail 24 (crc24B part) else part
  let er := q.e r
  let ord := cbOrder (q.ncb r) (q.k0 r % max 1 (q.ncb r)) (q.null r)
  let pos (i : Nat) : Nat := nth 0 ord (i % max 1 ord.length)
  if q.turbo then
    let s := turboStreams (List.replicate (q.size r - info.length) false ++ info)
    (upTo er).map fun i => turboAt s (q.size r) (pos i)
  else
    let zc := q.size r
    let k := q.kb * zc
    let w := ldpcWord (q.code + 1) zc (info ++ List.replicate (k - info.length) false)
    (upTo er).map fun i => bitOf w (pos (interleaveIdx q.qm er i) + 2 * zc)

/-- LDPC_ENC and TURBO_ENC (R211, R212): the whole transport block is read; the scrambled bits of the instruction's blocks go to their
codeword bit offsets; each block counts in ENC_CB (R223), none after a bus error. -/
def DecPar.encode (q : DecPar) (io : Io) : Io × CpxRec :=
  if q.count = 0 then (io, encRec 0)
  else
    let s0 := q.start q.first
    let (io1, raw) := io.read q.fLlr q.llrIn (ceilDiv q.a 8)
    let u := unpackBits q.a raw
    let tb := u ++ crcTail q.tbCrcLen (if q.tbCrcLen = 24 then crc24A u else crc16 u)
    let coded := (upTo q.count).flatMap fun i => q.codeBlock tb (q.first + i)
    let bits := if q.noscr then coded else scrambleBits q.cinit s0 coded
    let io3 := io1.write q.fOut (q.out + s0 / 8) (packBits bits)
    ({ io3 with d := if io3.err.isSome then io3.d else io3.d.bumpBy (CPX_DEC_ENC_CB (io3.i.core / 9)) q.count }, encRec bits.length)

/-! ### The rows -/

def execLdpcDec (p : Fin 12) (seq : Nat) (descErr : Bool) (s : State) : Res :=
  .next (s.onDev fun d => d.cpxRun p 0 seq 0x01 descErr (ldpcChecks false) fun ds io => (ldpcPar ds).run io)
def execTurboDec (p : Fin 12) (seq : Nat) (descErr : Bool) (s : State) : Res :=
  .next (s.onDev fun d => d.cpxRun p 0 seq 0x02 descErr (turboChecks false) fun ds io => (turboPar ds).run io)
def execPolarDec (p : Fin 12) (seq : Nat) (descErr : Bool) (s : State) : Res :=
  .next (s.onDev fun d => d.cpxRun p 0 seq 0x03 descErr (polarChecks false) polarDecBody)
def execConvDec (p : Fin 12) (seq : Nat) (descErr : Bool) (s : State) : Res :=
  .next (s.onDev fun d => d.cpxRun p 0 seq 0x04 descErr (convChecks false) convDecBody)
def execLdpcEnc (p : Fin 12) (seq : Nat) (descErr : Bool) (s : State) : Res :=
  .next (s.onDev fun d => d.cpxRun p 0 seq 0x11 descErr (ldpcChecks true) fun ds io => (ldpcPar ds).encode io)
def execTurboEnc (p : Fin 12) (seq : Nat) (descErr : Bool) (s : State) : Res :=
  .next (s.onDev fun d => d.cpxRun p 0 seq 0x12 descErr (turboChecks true) fun ds io => (turboPar ds).encode io)
def execPolarEnc (p : Fin 12) (seq : Nat) (descErr : Bool) (s : State) : Res :=
  .next (s.onDev fun d => d.cpxRun p 0 seq 0x13 descErr (polarChecks true) polarEncBody)
def execConvEnc (p : Fin 12) (seq : Nat) (descErr : Bool) (s : State) : Res :=
  .next (s.onDev fun d => d.cpxRun p 0 seq 0x14 descErr (convChecks true) convEncBody)

end Sys2Proof.Machine
end

