-- ==== Sys2Proof/Machine/Mat.lean ====
section
/-! DEFINITION. The coprocessor unit MAT (R189-R197): detection in exact arithmetic; a unit's own rounding takes a stored result at most one
step from it (assumption log 125). -/

namespace Sys2Proof.Machine

/-! ### The descriptor (R190) -/

/-- The checks of a MAT descriptor (R189, R190). -/
def matChecks (p desc : Nat) (ds : List Byte) : List CpxCheck :=
  let op := leAt ds 1 1
  let a := leAt ds 16 1; let l := leAt ds 17 1; let qm := leAt ds 18 1; let opts := leAt ds 19 1
  let s := leAt ds 20 2; let g := leAt ds 22 1
  let ls := toSigned 8 (leAt ds 23 1); let hs := toSigned 8 (leAt ds 24 1)
  let groups := ceilDiv s g
  headerChecks ds 2 desc [1, 2, 3] (fun _ => 2) ++
  [(decide (opts < 8), 1, 19)] ++ addrOk ds 32 ++ addrOk ds 40 ++ addrOk ds 48 ++ addrOk ds 56 ++ addrOk ds 64 ++
  addrOk ds 72 ++ resvBytes ds 80 48 ++
  [(decide (1 ≤ a) && decide (a ≤ 64), 2, 16),
   (decide (1 ≤ l) && decide (l ≤ min a 16) && (op != 3 || decide (l ≤ 8)), 2, 17),
   ([1, 2, 4, 6, 8, 10].contains qm && (op != 3 || decide (qm ≤ 6)), 2, 18),
   (decide (s ≤ 8192), 2, 20), (decide (1 ≤ g) && decide (g ≤ 48), 2, 22),
   (decide (-4 ≤ ls) && decide (ls ≤ 4), 2, 23), (decide (-4 ≤ hs) && decide (hs ≤ 4), 2, 24),
   (decide (leAt ds 25 1 ≤ 15), 2, 25),
   (bitAt opts 0 || addrAt ds 48 == 0, 2, 48), (bitAt opts 1 || addrAt ds 64 == 0, 2, 64),
   (bitAt opts 2 || addrAt ds 72 == 0, 2, 72)] ++
  [spanCheck p ⟨32, addrAt ds 32, if s = 0 then 0 else batchLen a (leAt ds 28 4) (3 * s), true⟩,
   spanCheck p ⟨40, addrAt ds 40, groups * 3 * a * l, true⟩,
   spanCheck p ⟨48, addrAt ds 48, if bitAt opts 0 then s * l * qm else 0, false⟩,
   spanCheck p ⟨56, addrAt ds 56, s * l * qm, false⟩,
   spanCheck p ⟨64, addrAt ds 64, if bitAt opts 1 then groups * l else 0, false⟩,
   spanCheck p ⟨72, addrAt ds 72, if bitAt opts 2 then 3 * s * l else 0, true⟩]

/-! ### Complex numbers and the MMSE solution (R189, R193) -/

/-- A complex number with rational parts. -/
structure CRat where
  re : Rat
  im : Rat
  deriving DecidableEq, Repr

def CRat.zero : CRat := ⟨0, 0⟩
def CRat.add (a b : CRat) : CRat := ⟨a.re + b.re, a.im + b.im⟩
def CRat.sub (a b : CRat) : CRat := ⟨a.re - b.re, a.im - b.im⟩
def CRat.mul (a b : CRat) : CRat := ⟨a.re * b.re - a.im * b.im, a.re * b.im + a.im * b.re⟩
def CRat.conj (a : CRat) : CRat := ⟨a.re, -a.im⟩
def CRat.scale (x : Rat) (a : CRat) : CRat := ⟨x * a.re, x * a.im⟩
/-- Σ conj(a)·b. -/
def CRat.dot (a b : List CRat) : CRat := (a.zip b).foldl (fun s (x, y) => s.add (x.conj.mul y)) .zero

/-- Power of two with an exponent of either sign. -/
def pow2 (e : Int) : Rat := if e < 0 then 1 / (2 ^ e.natAbs : Nat) else (2 ^ e.natAbs : Nat)

/-- The matrix HᴴH of the columns `h`, row by row, `noise` added along its diagonal: σ²I, or σ² above each layer's variance. -/
def gram (h : List (List CRat)) (noise : List Rat) : List (List CRat) :=
  (upTo h.length).map fun i => (upTo h.length).map fun j =>
    let g := CRat.dot (nth [] h i) (nth [] h j)
    if i = j then g.add ⟨nth 0 noise i, 0⟩ else g

/-- A factorisation L·D·Lᴴ: the columns of L below the diagonal (each with its index), the pivots, whether one was floored. -/
structure Factor where
  cols : List (List CRat)
  piv : List Rat
  floored : Bool

/-- Factor the trailing matrix `g`, `n` steps, each pivot at least `floor` (R193). -/
def factor (floor : Rat) : Nat → List (List CRat) → Factor
  | 0, _ => ⟨[], [], false⟩
  | n + 1, g =>
    let d0 := (nth .zero (nth [] g 0) 0).re
    let d := if d0 < floor then floor else d0
    let col := (g.drop 1).map fun row => (nth .zero row 0).scale (1 / d)
    let rest := ((g.drop 1).zip col).map fun (row, l) =>
      ((row.drop 1).zip col).map fun (x, m) => x.sub ((l.mul m.conj).scale d)
    let f := factor floor n rest
    ⟨col :: f.cols, d :: f.piv, f.floored || decide (d0 < floor)⟩

/-- Solve L·z = b. -/
def forward : List (List CRat) → List CRat → List CRat
  | col :: cols, b :: bs => b :: forward cols ((bs.zip col).map fun (x, l) => x.sub (l.mul b))
  | _, bs => bs
/-- Solve Lᴴ·x = z. -/
def backward : List (List CRat) → List CRat → List CRat
  | col :: cols, z :: zs =>
    let xs := backward cols zs
    z.sub (CRat.dot col xs) :: xs
  | _, zs => zs
/-- Solve (L·D·Lᴴ)·x = b. -/
def Factor.solve (f : Factor) (b : List CRat) : List CRat :=
  backward f.cols (((forward f.cols b).zip f.piv).map fun (z, d) => z.scale (1 / d))

/-- A group's channel: its columns, the factorisation of HᴴH + σ²I, and each layer's bias, the diagonal of W·H. -/
structure Channel where
  cols : List (List CRat)
  fac : Factor
  bias : List Rat

/-- The largest of a matrix's diagonal. -/
def topDiag (g : List (List CRat)) : Rat :=
  (upTo g.length).foldl (fun m i => let x := (nth .zero (nth [] g i) i).re; if m < x then x else m) (0 : Rat)
/-- The channel of a group (R189, R193). -/
def channelOf (cols : List (List CRat)) (noise : List Rat) : Channel :=
  let g := gram cols noise
  let f := factor (topDiag g / (2 ^ 24 : Nat)) cols.length g
  ⟨cols, f, (upTo cols.length).map fun i =>
    (nth .zero (f.solve (cols.map fun c => CRat.dot c (nth [] cols i))) i).re⟩

/-- The unbiased estimates of the layers of one element (R189); 0 for a layer the channel does not show. -/
def Channel.estimate (ch : Channel) (y : List CRat) : List CRat :=
  ((ch.fac.solve (ch.cols.map fun c => CRat.dot c y)).zip ch.bias).map fun (x, m) => if m = 0 then .zero else x.scale (1 / m)
/-- Post-detection SINR of a layer; none: without noise, unbounded. -/
def Channel.sinr (ch : Channel) (l : Nat) : Option Rat :=
  let m := nth 0 ch.bias l
  if m < 1 then some (m / (1 - m)) else none

/-! ### Demapping (R191, R192) -/

/-- Amplitude of one axis for its bits (TS 38.211): (1 - 2c)·(2^rest - next). -/
def axisAmp : List Bool → Int
  | [] => 0
  | c :: cs => (if c then -1 else 1) * ((2 ^ cs.length : Nat) - axisAmp cs)
/-- The bit strings of `n` bits. -/
def bitStrings (n : Nat) : List (List Bool) := (upTo (2 ^ n)).map (bitsMsb n)
/-- 1/√E of the constellation of QM bits at unit average energy, in 2^-60. -/
def unitAmp (qm : Nat) : Nat :=
  if qm ≤ 2 then 815238614083298888 else if qm = 4 then 364585791794594742
  else if qm = 6 then 177899650404171869 else if qm = 8 then 88425042892268393 else 44147646104590026
/-- The bits' half of a metric: what a-priori LLRs speak against a bit string (R192). -/
def priorCost (la : List Rat) (bits : List Bool) : Rat := (la.zip bits).foldl (fun s x => s + if x.2 then x.1 / 2 else -(x.1 / 2)) 0
/-- The least of a list of metrics; none: the list is empty. -/
def leastRat : List Rat → Option Rat
  | [] => none
  | d :: t => some (t.foldl (fun m x => if x < m then x else m) d)
/-- An axis amplitude of the constellation. -/
def axisPoint (qm : Nat) (b : List Bool) : Rat := (axisAmp b * unitAmp qm : Int) / ((2 ^ 60 : Nat) : Rat)
/-- Least metric at `x` over the `n` bits of one axis whose bit `i` is `v`: the squared distance times `q`, and the a-priori LLRs of the others. -/
def axisCost (qm n : Nat) (q x : Rat) (la : List Rat) (i : Nat) (v : Bool) : Rat :=
  (leastRat (((bitStrings n).filter fun b => bitOf b i == v).map fun b =>
    let e := x - axisPoint qm b
    q * (e * e) + priorCost (setNth la i 0) b)).getD 0
/-- Every second element from the `i`-th on. -/
def everySecond {α : Type} (d : α) (l : List α) (i : Nat) : List α := (upTo ((l.length - i + 1) / 2)).map fun k => nth d l (2 * k + i)
/-- Max-log extrinsic LLR of bit `b` of an unbiased estimate whose noise is 1/q: the least metric with the bit 1 less that with it 0, `la` the
a-priori LLRs of its layer's bits. BPSK has both axes the one bit. -/
def bitLlr (qm : Nat) (q : Rat) (x : CRat) (la : List Rat) (b : Nat) : Rat :=
  let m (y : Rat) (n : Nat) (la : List Rat) (i : Nat) : Rat := axisCost qm n q y la i true - axisCost qm n q y la i false
  if qm = 1 then m x.re 1 [0] 0 + m x.im 1 [0] 0
  else m (if b % 2 = 0 then x.re else x.im) (qm / 2) (everySecond 0 la (b % 2)) (b / 2)
/-- A constellation point (TS 38.211). -/
def constPoint (qm : Nat) (bits : List Bool) : CRat :=
  if qm = 1 then ⟨axisPoint qm bits, axisPoint qm bits⟩ else ⟨axisPoint qm (everySecond false bits 0), axisPoint qm (everySecond false bits 1)⟩

/-- To nearest, ties to even. -/
def roundRat (x : Rat) : Int := roundDiv x.num x.den
/-- round(2·SINR_dB), −128 to 127 (R194): n with 10^((2n − 1)/40) at or below the SINR, the largest. -/
def sinrHalfDb (s : Option Rat) : Int :=
  match s with
  | none => 127
  | some s => (upTo 255).foldl (fun (m : Int) (i : Nat) =>
      let n : Int := (i : Int) - 127
      let t : Rat := if 2 * n - 1 < 0 then 1 / (10 ^ (2 * n - 1).natAbs : Nat) else (10 ^ (2 * n - 1).natAbs : Nat)
      if t ≤ s ^ 40 then n else m) (-128)

/-! ### A-priori values: soft interference cancellation (R192) -/

/-- e^-x for x from 0 on, to 2^-80 or so. -/
def expDown (x : Rat) : Rat :=
  let cut (v : Rat) : Rat := (roundRat (v * ((2 ^ 100 : Nat) : Rat)) : Rat) / ((2 ^ 100 : Nat) : Rat)
  let y := cut (x / 4096)
  let s := (upTo 20).foldl (fun (a : Rat × Rat) i => (a.1 + a.2, cut (-(a.2 * y) / ((i + 1 : Nat) : Rat)))) (0, 1)
  (upTo 12).foldl (fun v _ => cut (v * v)) s.1
/-- The probability of 0 of a bit of LLR `l`. -/
def probZero (l : Rat) : Rat := let e := expDown (if l < 0 then -l else l); if l < 0 then e / (1 + e) else 1 / (1 + e)
/-- Mean and mean square of one axis by its bits' a-priori LLRs. -/
def axisMoments (qm : Nat) (la : List Rat) : Rat × Rat :=
  (bitStrings la.length).foldl (fun (s : Rat × Rat) b =>
    let p := (la.zip b).foldl (fun p x => p * if x.2 then 1 - probZero x.1 else probZero x.1) (1 : Rat)
    let a := axisPoint qm b
    (s.1 + p * a, s.2 + p * a * a)) (0, 0)
/-- The soft symbol of a layer, and its variance, at least 2^-60. -/
def softSymbol (qm : Nat) (la : List Rat) : CRat × Rat :=
  let a := axisMoments qm (if qm = 1 then la else everySecond 0 la 0)
  let b := if qm = 1 then a else axisMoments qm (everySecond 0 la 1)
  let v := a.2 + b.2 - a.1 * a.1 - b.1 * b.1
  (⟨a.1, b.1⟩, if v < 1 / ((2 ^ 60 : Nat) : Rat) then 1 / ((2 ^ 60 : Nat) : Rat) else v)

/-- What an element's detection gives of a layer: the unbiased estimate and its post-detection SINR; none: unbounded. -/
abbrev LayerEst := CRat × Option Rat
/-- Detection of an element with a-priori values: the soft symbols' interference is cancelled, and the MMSE filter meets their variances; a
layer's own soft symbol comes back to its estimate. -/
def cancelled (qm : Nat) (cols : List (List CRat)) (noise : Rat) (y : List CRat) (la : List (List Rat)) : List LayerEst :=
  let soft := la.map (softSymbol qm)
  let ch := channelOf cols (soft.map fun s => noise / s.2)
  let rest := (upTo y.length).map fun a =>
    (cols.zip soft).foldl (fun s c => s.sub ((nth .zero c.1 a).mul c.2.1)) (nth .zero y a)
  let xs := ch.estimate rest
  (upTo cols.length).map fun l =>
    let s := nth (.zero, 1) soft l
    (s.1.add (nth .zero xs l), (ch.sinr l).map fun q => q / s.2)

/-! ### QR: sorted decomposition and K-best search (R189, R193) -/

/-- A step of the sorted decomposition: the layer, its diagonal of RᴴR, the multipliers of the layers still to come. -/
structure QrStep where
  layer : Nat
  diag : Rat
  mult : List (Nat × CRat)

/-- Element `i` to the front. -/
def toFront {α : Type} (l : List α) (i : Nat) : List α := (l.drop i).take 1 ++ l.take i ++ l.drop (i + 1)
/-- The sorted decomposition of HᴴH = L·D·Lᴴ, D the squares of R's diagonal: the layer with the least remaining norm comes first (PRESUMED,
assumption log 125). -/
def qrSteps : Nat → List Nat → List (List CRat) → List QrStep
  | 0, _, _ => []
  | n + 1, ids, g =>
    let diag (i : Nat) : Rat := (nth .zero (nth [] g i) i).re
    let m := (upTo ids.length).foldl (fun m i => if diag i < diag m then i else m) 0
    let g1 := (toFront g m).map fun row => toFront row m
    let ids1 := toFront ids m
    let d := diag m
    let col := (g1.drop 1).map fun row => (nth .zero row 0).scale (if d = 0 then 0 else 1 / d)
    let rest := ((g1.drop 1).zip col).map fun (row, l) => ((row.drop 1).zip col).map fun (x, c) => x.sub ((l.mul c.conj).scale d)
    ⟨nth 0 ids1 0, d, (ids1.drop 1).zip col⟩ :: qrSteps n (ids1.drop 1) rest
/-- A group's decomposition, each diagonal of R at least 2^-24 of the largest; whether one was floored. -/
def qrOf (cols : List (List CRat)) : List QrStep × Bool :=
  let l := qrSteps cols.length (upTo cols.length) (gram cols [])
  let top := l.foldl (fun m s => if m < s.diag then s.diag else m) (0 : Rat)
  let floor := top / ((2 ^ 48 : Nat) : Rat)
  (l.map fun s => if s.diag < floor then { s with diag := floor } else s, l.any fun s => decide (s.diag < floor))
/-- The centres c/d that the search measures from, step by step, for the matched outputs `b`. -/
def qrCentres : List QrStep → List CRat → List CRat
  | [], _ => []
  | s :: t, b =>
    let c := nth .zero b s.layer
    (if s.diag = 0 then .zero else c.scale (1 / s.diag)) :: qrCentres t (s.mult.foldl (fun b x => setNth b x.1 ((nth .zero b x.1).sub (x.2.mul c))) b)
/-- A path of the search: the bits of the layers decided, by layer, and its metric. -/
structure KPath where
  bits : List (Nat × List Bool)
  cost : Rat
/-- The K-best search: K least metrics at each layer, from the last to the first. -/
def kBest (k qm : Nat) (invNoise : Rat) (la : List (List Rat)) (steps : List (QrStep × CRat)) : List KPath :=
  steps.reverse.foldl (fun ps s =>
    ((ps.flatMap fun p => (bitStrings qm).map fun b =>
      let x := (s.1.mult.foldl (fun u m => match p.bits.find? (·.1 == m.1) with
        | some o => u.add (m.2.conj.mul (constPoint qm o.2))
        | none => u) (constPoint qm b)).sub s.2
      ⟨p.bits ++ [(s.1.layer, b)], p.cost + invNoise * s.1.diag * (x.re * x.re + x.im * x.im) + priorCost (nth [] la s.1.layer) b⟩).mergeSort
        fun a b => decide (a.cost ≤ b.cost)).take k) [⟨[], 0⟩]
/-- Max-log extrinsic LLR of bit `b` of layer `l` over the list; none: the list holds no path with one of its values. -/
def listLlr (ps : List KPath) (l b : Nat) (own : Rat) : Option Rat :=
  let least (v : Bool) : Option Rat := leastRat ((ps.filter fun p => p.bits.any fun x => x.1 == l && bitOf x.2 b == v).map (·.cost))
  match least true, least false with
  | some x, some y => some (x - y - own)
  | _, _ => none

/-! ### The operation (R189-R194) -/

/-- A step of -1, 0 or 1: what a unit's own rounding does to a result. -/
def matStep (key : List Byte) (draw j : Nat) : Int := (Config.unitFree key draw j % 3 : Nat) - 1
/-- An LLR in whole steps: none is unbounded, of the sign of `m`. -/
def llrUnits (scale : Rat) (v : Option Rat) (m : Rat) (step : Int) : Int :=
  match v with
  | some x => roundRat (x * scale) + step
  | none => if m = 0 then 0 else if m < 0 then -1000 else 1000

/-- Complex samples of a pack24 buffer. -/
def samplesAt (b : List Byte) (n : Nat) : List CRat := (samplesOf n b).map fun s => ⟨(s.1 : Rat), (s.2 : Rat)⟩

/-- What a MAT instruction works on. -/
structure MatIn where
  op : Nat
  a : Nat
  l : Nat
  qm : Nat
  s : Nat
  group : Nat
  prior : Bool
  noise : Rat
  scale : Rat
  /-- Element by element: its antennas' samples, its layers' a-priori LLRs; group by group: the channel's columns. -/
  ys : List (List CRat)
  la : List (List (List Rat))
  cols : List (List (List CRat))

/-- The element's layers by MMSE, with or without a-priori values. -/
def MatIn.detect (m : MatIn) (chans : List Channel) (e : Nat) : List LayerEst :=
  if m.prior then cancelled m.qm (nth [] m.cols (e / m.group)) m.noise (nth [] m.ys e) (nth [] m.la e)
  else
    let ch := nth ⟨[], ⟨[], [], false⟩, []⟩ chans (e / m.group)
    (upTo m.l).map fun j => (nth .zero (ch.estimate (nth [] m.ys e)) j, ch.sinr j)

/-- The LLRs of an element in whole steps, in MAT order; `step` is the unit's rounding, `miss` what stands for a bit of which the list of a
QR search holds one value only: the rule gives it none. -/
def MatIn.llrs (m : MatIn) (ests : List LayerEst) (qr : List QrStep) (e : Nat) (step miss : Nat → Int) : List Int :=
  let la := nth [] m.la e
  if m.op = 3 then
    let b := (nth [] m.cols (e / m.group)).map fun c => CRat.dot c (nth [] m.ys e)
    let ps := kBest 8 m.qm (if m.noise = 0 then 1 else 1 / m.noise) (if m.noise = 0 then [] else la) (qr.zip (qrCentres qr b))
    (upTo (m.l * m.qm)).map fun i =>
      let own := if m.noise = 0 then 0 else nth 0 (nth [] la (i / m.qm)) (i % m.qm)
      match listLlr ps (i / m.qm) (i % m.qm) own with
      | none => miss i
      | some v => llrUnits m.scale (if m.noise = 0 then none else some v) v (step i)
  else
    (upTo (m.l * m.qm)).map fun i =>
      let x := nth (.zero, none) ests (i / m.qm)
      let pr := nth [] la (i / m.qm)
      match x.2 with
      | some q => let v := bitLlr m.qm q x.1 pr (i % m.qm); llrUnits m.scale (some v) v (step i)
      | none => llrUnits m.scale none (bitLlr m.qm 1 x.1 [] (i % m.qm)) 0

/-- Detection (R189-R194). The estimates and SINRs of QR, and the SINRs with a-priori values, whose estimates differ within a group, are free. -/
def matBody (ds : List Byte) (io : Io) : Io × CpxRec :=
  let op := leAt ds 1 1
  let a := leAt ds 16 1; let l := leAt ds 17 1; let qm := leAt ds 18 1; let opts := leAt ds 19 1
  let s := leAt ds 20 2; let group := leAt ds 22 1; let groups := ceilDiv s group
  if s = 0 then (io, ⟨0, 1, 0⟩)
  else
    let (io1, rows) := (upTo a).foldl (fun (acc : Io × List (List Byte)) j =>
      let x := acc.1.read 32 (addrAt ds 32 + j * leAt ds 28 4) (3 * s)
      (x.1, acc.2 ++ [x.2])) (io, [])
    let (io2, hb) := io1.read 40 (addrAt ds 40) (groups * 3 * a * l)
    let (io3, pb) := if bitAt opts 0 then io2.read 48 (addrAt ds 48) (s * l * qm) else (io2, [])
    let key (p : List Byte) : List Byte := leBytes 1 op ++ slice ds 16 12 ++ rows.flatten ++ hb ++ p
    let samples := rows.map fun r => samplesAt r s
    let scale := pow2 (toSigned 8 (leAt ds 23 1))
    let prior (i : Nat) : Rat := if bitAt opts 0 then (readLlr (nth 0 pb i) : Rat) / scale else 0
    let cols := (upTo groups).map fun g =>
      let h := (samplesAt (slice hb (3 * a * l * g) (3 * a * l)) (a * l)).map (CRat.scale (pow2 (toSigned 8 (leAt ds 24 1))))
      (upTo l).map fun j => slice h (j * a) a
    let m : MatIn := ⟨op, a, l, qm, s, group, bitAt opts 0, (leAt ds 26 2 * 2 ^ leAt ds 25 1 : Nat), scale,
      (upTo s).map fun e => samples.map fun y => nth .zero y e,
      (upTo s).map fun e => (upTo l).map fun j => (upTo qm).map fun b => prior ((e * l + j) * qm + b), cols⟩
    let chans := cols.map fun c => channelOf c (List.replicate l m.noise)
    let qrs := cols.map qrOf
    let ests := (upTo s).map fun e => if op = 3 then [] else m.detect chans e
    let llrs := ((upTo s).flatMap fun e =>
      let at_ (i : Nat) : Nat := e * l * qm + i
      m.llrs (nth [] ests e) (nth ([], false) qrs (e / group)).1 e (fun i => matStep (key (setNth pb (at_ i) 0)) 0 (at_ i))
        (fun i => unitInt (key (setNth pb (at_ i) 0)) 4 (at_ i))).map satLlr
    let io5 := io3.write 56 (addrAt ds 56) (llrs.map fun x => BitVec.ofInt 8 x.1)
    let sinr := (upTo (groups * l)).map fun i =>
      if op = 3 || bitAt opts 0 then satSigned 8 (unitInt (key pb) 1 i)
      else match (nth ⟨[], ⟨[], [], false⟩, []⟩ chans (i / l)).sinr (i % l) with
        | some q => satSigned 8 (sinrHalfDb (some q) + matStep (key pb) 1 i)
        | none => 127
    let io7 := if bitAt opts 1 then io5.write 64 (addrAt ds 64) (sinr.map (BitVec.ofInt 8)) else io5
    let xs := (upTo (2 * s * l)).map fun i =>
      if op = 3 then unitInt (key pb) 2 i
      else
        let z := (nth (.zero, none) (nth [] ests (i / 2 / l)) (i / 2 % l)).1
        roundRat (1024 * (if i % 2 = 0 then z.re else z.im)) + matStep (key pb) 2 i
    let xb := (upTo (s * l)).flatMap fun i =>
      leBytes 3 (ofSigned 12 (satSigned 12 (nth 0 xs (2 * i))) + 4096 * ofSigned 12 (satSigned 12 (nth 0 xs (2 * i + 1))))
    let io9 := if bitAt opts 2 then io7.write 72 (addrAt ds 72) xb else io7
    let sing := if op = 3 then (qrs.filter (·.2)).length else (chans.filter fun c => c.fac.floored).length
    let sat := (llrs.filter (·.2)).length
    let xsat := bitAt opts 2 && xs.any fun v => satSigned 12 v != v
    (io9, ⟨0, 1 + 2 * b2n (sat != 0 || xsat) + 4 * b2n (sing != 0), sing % 2 ^ 16 + 2 ^ 16 * sat⟩)

def execMmse (p : Fin 12) (seq : Nat) (descErr : Bool) (s : State) : Res :=
  .next (s.onDev fun d => d.cpxRun p 2 seq 1 descErr matChecks matBody)
def execChol (p : Fin 12) (seq : Nat) (descErr : Bool) (s : State) : Res :=
  .next (s.onDev fun d => d.cpxRun p 2 seq 2 descErr matChecks matBody)
def execQr (p : Fin 12) (seq : Nat) (descErr : Bool) (s : State) : Res :=
  .next (s.onDev fun d => d.cpxRun p 2 seq 3 descErr matChecks matBody)

end Sys2Proof.Machine
end

