-- ==== Sys2Proof/Machine/CpxCut.lean ====
section
/-! DEFINITION. A coprocessor instruction that the fence cuts off at its work (R183, R216, R223). -/

namespace Sys2Proof.Machine

/-- The checks of an instruction of unit `unit`, by its descriptor. -/
def unitChecks (unit : Nat) (p desc : Nat) (ds : List Byte) : List CpxCheck :=
  if unit = 1 then xfmChecks p desc ds
  else if unit = 2 then matChecks p desc ds
  else match leAt ds 1 1 with
    | 0x01 => ldpcChecks false p desc ds
    | 0x02 => turboChecks false p desc ds
    | 0x03 => polarChecks false p desc ds
    | 0x04 => convChecks false p desc ds
    | 0x11 => ldpcChecks true p desc ds
    | 0x12 => turboChecks true p desc ds
    | 0x13 => polarChecks true p desc ds
    | _ => convChecks true p desc ds
/-- The work of an instruction of unit `unit`. -/
def unitBody (unit : Nat) (ds : List Byte) (io : Io) : Io × CpxRec :=
  if unit = 1 then xfmBody ds io
  else if unit = 2 then matBody ds io
  else match leAt ds 1 1 with
    | 0x01 => (ldpcPar ds).run io
    | 0x02 => (turboPar ds).run io
    | 0x03 => polarDecBody ds io
    | 0x04 => convDecBody ds io
    | 0x11 => (ldpcPar ds).encode io
    | 0x12 => (turboPar ds).encode io
    | 0x13 => polarEncBody ds io
    | _ => convEncBody ds io

/-- What the instruction `i` has done when the fence abandons it: nothing while it is queued, or where its descriptor fails a check; otherwise as
many of its output writes, in their order, as it got to issue, a free number (assumption log 126), with the blocks it finished counted. -/
def Dev.cpxCut (d : Dev) (i : CpxInst) : Dev :=
  if d.cpxBefore i then d
  else
    let p := i.core / 9
    let ds := d.podRead p i.desc 128
    match firstBad (unitChecks i.unit p i.desc ds) with
    | some _ => d
    | none =>
      let n := d.fresh (2 ^ 16)
      (unitBody i.unit ds ⟨n.1.stageStall p i.unit, i, none, some n.2⟩).1.d

end Sys2Proof.Machine
end

