-- ==== Sys2Proof/Machine/Wds.lean ====
section
/-! DEFINITION. The work dispatcher (R93-R112): job graphs, events, choice, hand-out, the fence's part, hung cores. -/

namespace Sys2Proof.Machine

/-! ### Grid (R42) -/

/-- boundary(k) of timeline `n`, in ns since the PTP epoch. -/
def Dev.boundaryNs (d : Dev) (n k : Nat) : Nat :=
  d.rf (TMU_TLn_OFFSET n) + k * d.rf (TMU_TLn_PERIOD n) / max 1 (d.rf (TMU_TLn_DEN n))
/-- The same instant in units of `now`. -/
def Dev.boundaryT (d : Dev) (n k : Nat) : Nat := nsT (d.boundaryNs n k)
/-- The k with boundary(k) ≤ t < boundary(k + 1); 0 before the first. -/
def Dev.gridIndex (d : Dev) (n t : Nat) : Nat :=
  let ns := t / 2 ^ 32
  let off := d.rf (TMU_TLn_OFFSET n)
  let p := max 1 (d.rf (TMU_TLn_PERIOD n))
  let den := max 1 (d.rf (TMU_TLn_DEN n))
  if ns < off then 0
  else
    let k := (ns - off) * den / p
    if d.boundaryNs n (k + 1) ≤ ns then k + 1 else k

/-! ### Small state -/

def Dev.flow (d : Dev) (f : Nat) : Flow := Tab.getD (fun _ => Flow.reset) d.wds.flows f
def Dev.setFlow (d : Dev) (f : Nat) (x : Flow) : Dev :=
  { d with wds.flows := Tab.setD (fun _ => Flow.reset) d.wds.flows f x }
def Dev.setJob (d : Dev) (s : Nat) (j : Job) : Dev := { d with wds.jobs := Tab.put d.wds.jobs s j }
/-- In service: RUNNING or STOP (R93). -/
def Job.inService (j : Job) : Bool := j.state == .running || j.state == .stop
def JobDesc.cls (x : JobDesc) : Nat := bitsAt x.ctrl 0 2
def JobDesc.early (x : JobDesc) : Bool := bitAt x.ctrl 2
def JobDesc.atomic (x : JobDesc) : Bool := bitAt x.ctrl 3
def JobDesc.evtEn (x : JobDesc) : Bool := bitAt x.ctrl 4
def JobDesc.tgt (x : JobDesc) : Nat := bitsAt x.target 0 9
def JobDesc.dir (x : JobDesc) : Nat := bitsAt x.target 9 2

/-- Refresh RUNNING and SLOTS_FREE (R93, R111). -/
def Dev.wdsShow (d : Dev) : Dev :=
  (d.setFlag WDS_STS_RUNNING (d.flag WDS_CTL_ENABLE || d.wds.jobs.vals.any Job.inService)).wf WDS_SLOTS_FREE
    (16384 - d.wds.jobs.length)

/-- The dispatcher's next stamp: it orders eligibility and waits. -/
def Dev.stamp (d : Dev) : Dev × Nat := ({ d with wds.stamp := d.wds.stamp + 1 }, d.wds.stamp)

/-- CK_WDS cycles (R406). -/
def Dev.wdsCycle (d : Dev) : Nat := 3 * d.cyc

/-! ### Decision log (R109, R110) -/

/-- Append a record; while the recorder does not record it is discarded uncounted, with the buffer full it is counted, and
a LOST record precedes the next one once space returns. -/
def Dev.wlog (d : Dev) (r : LogRec) : Dev :=
  let st := d.rf OBS_REC_STS_STATE
  if !(st == 1 || st == 2) then d
  else
    let r := { r with cycle := d.wdsCycle % 2 ^ 32 }
    let add := if d.wds.lost = 0 then [r] else [⟨0xFF, 0xFF, 0, 0, 0, 0, 0, 0, min 0xFFFF d.wds.lost, r.cycle⟩, r]
    if 4096 < d.wds.log.length + add.length then
      { d.bump WDS_LOG_LOST with wds.lost := d.wds.lost + 1 }
    else
      let d1 := { d with wds.log := d.wds.log ++ add, wds.lost := 0 }
      d1.setFlag WDS_STS_LOG_FULL (d1.wds.log.length == 4096)

/-- Log a record about a job. -/
def Dev.logJob (d : Dev) (type core slot : Nat) (x : JobDesc) (causes : Nat) : Dev :=
  d.wlog ⟨type, core, slot, x.period, x.tl, x.cls, causes, x.flow, 0, 0⟩
/-- Log a mode or core-mask change, or a release. A MASK record names no pod and no core (core 0xFF), and its slot, period, timeline and
flow are 0; so are those of a LOST record (DESIGN CHOICE, assumption log: the spec does not say which fields they fill). -/
def Dev.logPod (d : Dev) (type core slot period tl : Nat) : Dev := d.wlog ⟨type, core, slot, period, tl, 0, 0, 0, 0, 0⟩

/-! ### Eligibility (R99-R103) -/

/-- Pod modes (R108). -/
def Dev.podMode (d : Dev) (n : Nat) : Nat := d.rf (WDS_PODn_CTL_MODE n)
/-- Core `c` is masked from hand-out. -/
def Dev.coreMasked (d : Dev) (c : Nat) : Bool := bitAt (d.rf (WDS_PODn_CORES_CORE_MASK (c / 9))) (c % 9)
/-- Cores of pod `n` holding a job. -/
def Dev.podHolding (d : Dev) (n : Nat) : Nat := popcount 9 (d.rf (WDS_PODn_BUSY n))
/-- Free class-`c` tokens of pod `n`. -/
def Dev.tokenFree (d : Dev) (n c : Nat) : Bool := decide (d.rf (WDS_PODn_TOKc_HELD n c) < d.rf (WDS_PODn_TOKc_ALLOT n c))

/-- Items 1 and 2 of R103, less the pod's release: READY, period live. -/
def Dev.jobOpen (d : Dev) (j : Job) : Bool :=
  d.flag WDS_CTL_ENABLE && j.state == .ready && d.live j.desc.tl j.desc.period
/-- Item 2 for pod `n`: EARLY, or current and released. -/
def Dev.podReleased (d : Dev) (j : Job) (n : Nat) : Bool :=
  j.desc.early || ((d.tl j.desc.tl).k == j.k && (d.tl j.desc.tl).released.contains n)
/-- Items 3 and 4 for pod `n`. -/
def Dev.podTakes (d : Dev) (j : Job) (n : Nat) : Bool :=
  d.podMode n == 0 && bitAt j.desc.podMask n && decide (d.podHolding n < d.rf (WDS_PODn_CAP n)) && d.tokenFree n j.desc.cls
/-- Item 5. -/
def Dev.flowFree (d : Dev) (j : Job) : Bool := let f := d.flow j.desc.flow; !f.atomic || f.inSvc == 0
/-- Items 1-5 for core `c`. -/
def Dev.eligible15 (d : Dev) (j : Job) (c : Nat) : Bool :=
  d.jobOpen j && d.podReleased j (c / 9) && d.podTakes j (c / 9) && !d.coreMasked c && d.flowFree j
/-- The affinity step (item 6). -/
def Dev.affinityOk (d : Dev) (j : Job) (c : Nat) : Bool :=
  match (d.flow j.desc.flow).last with
  | none => true
  | some a =>
    d.rf WDS_GRACE == 0 || d.coreMasked a || d.wds.hung.contains a || d.podMode (a / 9) != 0 ||
      (match j.step with
       | 0 => c == a
       | 1 => c / 9 == a / 9
       | _ => true)
/-- Core `c` waits in WAITJOB with its clock available. -/
def Dev.coreWaits (d : Dev) (c : Nat) : Bool := d.coreState c == 2 && d.domRun (coreDom c)

/-- Eligibility stamps after a change: a READY job that some core could take under items 1-5 keeps or receives its stamp;
one that none could loses it and its affinity step starts again (R103 item 6). -/
def Dev.refreshElig (d : Dev) : Dev :=
  let (d1, st) := d.stamp
  let upd (_ : Nat) (j : Job) : Job :=
    if !j.replay && (upTo 108).any (d.eligible15 j) then
      match j.eligAt with
      | some _ => j
      | none => { j with eligAt := some st, eligCyc := d.wdsCycle, step := 0 }
    else { j with eligAt := none, step := 0 }
  { d1 with wds.jobs := Tab.mapV upd d1.wds.jobs }

/-- What every dispatcher action ends with. -/
def Dev.wdsSettle (d : Dev) : Dev := d.wdsShow.refreshElig

/-! ### Job descriptors and graphs (R94-R97) -/

/-- Read a descriptor. -/
def parseJob (b : List Byte) : JobDesc :=
  { kind := leAt b 0 2, ctrl := leAt b 2 1, npred := leAt b 3 1, period := leAt b 4 2, tl := leAt b 6 1,
    evtDper := leAt b 7 1, flow := leAt b 8 2, target := leAt b 10 2, alloc := leAt b 12 2, evtOut := leAt b 14 2,
    due := leAt b 16 4, podMask := leAt b 20 2, preds := (upTo 8).map fun i => leAt b (24 + 2 * i) 2, args := slice b 40 24 }

/-- The 64 bytes of a descriptor. -/
def JobDesc.bytes (x : JobDesc) : List Byte :=
  leBytes 2 x.kind ++ leBytes 1 x.ctrl ++ leBytes 1 x.npred ++ leBytes 2 x.period ++ leBytes 1 x.tl ++ leBytes 1 x.evtDper ++
  leBytes 2 x.flow ++ leBytes 2 x.target ++ leBytes 2 x.alloc ++ leBytes 2 x.evtOut ++ leBytes 4 x.due ++
  leBytes 2 x.podMask ++ leBytes 2 0 ++ x.preds.flatMap (leBytes 2) ++ x.args

/-- The Format and Order checks of a descriptor at list index `i` (R96), less its reserved bytes 22-23. -/
def jobFormatOk (tl period i : Nat) (x : JobDesc) : Bool :=
  decide (x.kind < 1024) && decide (x.ctrl < 32) && decide (x.npred ≤ 8) && decide (x.tl < 4) && decide (x.evtDper < 4) &&
  decide (x.target < 2048) && decide (x.evtOut < 4096) && decide (x.podMask < 4096) && x.podMask != 0 &&
  x.tl == tl && x.period == period && (!x.evtEn || decide (0xC00 ≤ x.evtOut)) &&
  (upTo 8).all fun n =>
    let r := nth 0 x.preds n
    if x.npred ≤ n then r == 0
    else (decide (r < 0x4000) && decide (r < i)) || (bitsAt r 14 2 == 2 && bitsAt r 12 2 == 0)

/-- The Atomicity check: against the flow's admitted jobs, and against earlier jobs of the graph (R96). -/
def Dev.atomicOk (d : Dev) : List JobDesc → List JobDesc → Bool
  | _, [] => true
  | seen, x :: xs =>
    ((d.wds.jobs.vals.all fun j => j.desc.flow != x.flow || j.desc.atomic == x.atomic) &&
     (seen.all fun y => y.flow != x.flow || y.atomic == x.atomic)) && d.atomicOk (x :: seen) xs

/-- The descriptors of a graph of `jobs` jobs, and its reserved bytes 22-23. -/
def graphJobs (g : List Byte) (jobs : Nat) : List JobDesc := (upTo jobs).map fun i => parseJob (slice g (64 + 64 * i) 64)

/-- Every check of R96. A replay graph's period is not live (R502). -/
def Dev.graphOk (d : Dev) (replay : Bool) (g : List Byte) : Bool :=
  let jobs := leAt g 0 2; let tl := leAt g 2 1; let period := leAt g 4 2
  let js := graphJobs g jobs
  d.flag WDS_CTL_ENABLE && decide (tl < 4) && (replay || d.live tl period) && decide (jobs ≤ 16384 - d.wds.jobs.length) &&
  (leAt g 3 1 == 0) && (slice g 6 58).all (· == 0) &&
  ((js.zip (upTo jobs)).all fun p => jobFormatOk tl period p.2 p.1 && leAt g (64 + 64 * p.2 + 22) 2 == 0) &&
  d.atomicOk [] js

/-- The lowest-numbered free slot at or above `s`. -/
def freeSlot (jobs : Tab Job) : Nat → Nat → Nat
  | 0, s => s
  | fuel + 1, s => if (Tab.find jobs s).isSome then freeSlot jobs fuel (s + 1) else s

/-- The replay under way holds event `e` of a period: raised by a replayed job, or an input, which comes from the log (R502). -/
def Dev.replayHas (d : Dev) (period e : Nat) : Bool := match d.marrow.replay with
  | some r => decide (e < 0xC00) || r.events.contains (period, e)
  | none => false

/-- Admit one job of a graph whose earlier jobs took `slots` (R93, R97): job references become slot numbers; predecessors
already satisfied do not count. A job predecessor of the same graph is never satisfied yet. -/
def Dev.admitJob (d : Dev) (replay : Bool) (slots : List Nat) (x : JobDesc) : Dev × List Nat :=
  let s := freeSlot d.wds.jobs 16384 0
  let used := x.preds.take x.npred
  let conv (r : Nat) : Nat := if r < 0x4000 then nth 0 slots r else r
  let wait := (used.map fun r => if r < 0x4000 then nth 0 slots r else 16384 + bitsAt r 0 12).filter fun wt =>
    !(decide (16384 ≤ wt) && (if replay then d.replayHas x.period (wt - 16384) else d.wds.events.contains (x.tl, x.period, wt - 16384)))
  let y := { x with preds := used.map conv ++ List.replicate (8 - x.npred) 0 }
  let k := (d.tl x.tl).k + ahead (d.tl x.tl).k x.period
  let j : Job := ⟨y, if wait.isEmpty then .ready else .waiting, wait, k, 0, none, 0, 0, 0, replay⟩
  let f := d.flow x.flow
  ((d.setJob s j).setFlow x.flow { f with atomic := x.atomic, idle := none }, slots ++ [s])

/-- Admit a graph whole, or refuse it (R96): the Bool says which. -/
def Dev.admitGraph (d : Dev) (replay : Bool) (g : List Byte) : Dev × Bool :=
  if d.graphOk replay g then
    let r := (graphJobs g (leAt g 0 2)).foldl (fun a x => a.1.admitJob replay a.2 x) (d, [])
    (r.1.wdsSettle, true)
  else (d.bump WDS_GRAPH_REFUSED, false)

/-! ### Events and completions (R97, R98) -/

/-- Every waiting job that `sat` satisfies drops that predecessor; with none left it is READY. -/
def Dev.satisfy (d : Dev) (sat : Job → Nat → Bool) : Dev :=
  let upd (_ : Nat) (j : Job) : Job :=
    if j.state == .waiting then
      let w := j.wait.filter fun x => !sat j x
      { j with wait := w, state := if w.isEmpty then .ready else .waiting }
    else j
  { d with wds.jobs := Tab.mapV upd d.wds.jobs }

/-- Raise event `e` for a timeline and period (R98). -/
def Dev.raiseEvent (d : Dev) (tl period e : Nat) : Dev :=
  if !d.live tl period then d.bump WDS_EVT_IGNORED
  else
    let d1 := { d with wds.events := if d.wds.events.contains (tl, period, e) then d.wds.events
                                     else d.wds.events ++ [(tl, period, e)] }
    (d1.satisfy fun j w => !j.replay && j.desc.tl == tl && j.desc.period == period && w == 16384 + e).wdsSettle

/-- Change the replay under way. -/
def Dev.updReplay (d : Dev) (f : Replay → Replay) : Dev := { d with marrow.replay := d.marrow.replay.map f }
/-- A replayed job raises event `e`: for replayed jobs only (R502). -/
def Dev.replayEvent (d : Dev) (period e : Nat) : Dev :=
  (d.updReplay fun r => { r with events := r.events ++ [(period, e)] }).satisfy fun j w => j.replay && j.desc.period == period && w == 16384 + e

/-! ### Hand-out (R103-R105) -/

/-- Rank of a job (R103): class, deadline, last core waiting, eligibility, slot. Smaller is earlier. -/
structure Rank where
  cls : Nat
  due : Int
  noLast : Nat
  elig : Nat
  slot : Nat

/-- Lexicographic order of ranks. -/
def Rank.lt (a b : Rank) : Bool :=
  if a.cls != b.cls then decide (a.cls < b.cls)
  else if a.due != b.due then decide (a.due < b.due)
  else if a.noLast != b.noLast then decide (a.noLast < b.noLast)
  else if a.elig != b.elig then decide (a.elig < b.elig)
  else decide (a.slot < b.slot)

/-- The waiting cores that job `j` may be handed to. -/
def Dev.candidates (d : Dev) (j : Job) : List Nat :=
  (upTo 108).filter fun c => d.coreWaits c && d.eligible15 j c && d.affinityOk j c

/-- The core of the replay pod for a job recorded on core `c` (R502): the same index, or the lowest unmasked one. -/
def Dev.replayCore (d : Dev) (pod c : Nat) : Nat :=
  let same := 9 * pod + c % 9
  if d.coreMasked same then (((upTo 9).map (9 * pod + ·)).find? fun x => !d.coreMasked x).getD same else same
/-- The core a replayed job may go to now: jobs are handed out in the order of the recorded log, on the pod in REPLAY (R108, R502). -/
def Dev.replayCandidates (d : Dev) (s : Nat) (j : Job) : List Nat :=
  match d.marrow.replay with
  | none => []
  | some r => match r.order.find? (·.1 == s) with
    | none => []
    | some o =>
      let c := d.replayCore r.pod o.2
      let before := r.order.takeWhile (·.1 != s)
      if d.flag WDS_CTL_ENABLE && j.state == .ready && d.podMode r.pod == 2 && d.coreWaits c && !d.coreMasked c &&
          decide (d.podHolding r.pod < d.rf (WDS_PODn_CAP r.pod)) && d.tokenFree r.pod j.desc.cls && d.flowFree j &&
          before.all (fun b => match d.job b.1 with | some x => x.inService | none => true) then [c] else []

/-- The core chosen for a job: its last core if eligible, else the longest waiting, lowest number on a tie. -/
def Dev.chooseCore (d : Dev) (j : Job) (cs : List Nat) : Option Nat :=
  match (d.flow j.desc.flow).last with
  | some a => if cs.contains a then some a else go cs
  | none => go cs
where
  go (cs : List Nat) : Option Nat :=
    cs.foldl (fun b c => match b with
      | none => some c
      | some x => if Tab.getD (fun _ => 0) d.wds.waiting c < Tab.getD (fun _ => 0) d.wds.waiting x then some c else some x) none

/-- The deadline of a job in ns: boundary(k + 1) less DUE (R94). -/
def Dev.deadline (d : Dev) (j : Job) : Int := (d.boundaryNs j.desc.tl (j.k + 1) : Int) - j.desc.due

/-- The decision of one CK_WDS cycle: the slot and the core, if any job has an eligible waiting core. -/
def Dev.choose (d : Dev) : Option (Nat × Nat) :=
  let best := d.wds.jobs.foldl (fun (b : Option (Rank × Nat × Nat)) (p : Nat × Job) =>
    let cs := if p.2.replay then d.replayCandidates p.1 p.2 else d.candidates p.2
    match d.chooseCore p.2 cs with
    | none => b
    | some c =>
      let hasLast := match (d.flow p.2.desc.flow).last with | some a => cs.contains a | none => false
      let r : Rank := ⟨p.2.desc.cls, d.deadline p.2, b2n !hasLast, p.2.eligAt.getD 0, p.1⟩
      match b with
      | none => some (r, p.1, c)
      | some (x, _, _) => if r.lt x then some (r, p.1, c) else b) none
  best.map (·.2)

/-- Set or clear the BUSY bit of core `c` (R111). -/
def Dev.setBusy (d : Dev) (c : Nat) (b : Bool) : Dev :=
  d.wf ⟨rWDS_PODn_BUSY (c / 9), c % 9, 1⟩ (b2n b)

/-- The decision to hand the job `j` of slot `s` to core `c`: the token and the flow are taken, and the decision is logged (R101, R109). -/
def Dev.takeJob (d : Dev) (s c : Nat) (j : Job) : Dev :=
  let d1 := d.setJob s { j with state := .running, core := c, eligAt := none }
  let f := d1.flow j.desc.flow
  let d2 := ((d1.setFlow j.desc.flow { f with inSvc := f.inSvc + 1 }).bump (WDS_PODn_TOKc_HELD (c / 9) j.desc.cls)).setBusy c true
  { d2.logJob 0x01 c s j.desc 0 with wds.waiting := Tab.del d2.wds.waiting c }

/-- Hand the job in slot `s` to core `c`: token, flow, job window, S0 and S1, and WAITJOB returns (R101, R104, R105). -/
def Dev.handTo (d : Dev) (s c : Nat) : Dev :=
  match d.job s with
  | none => d
  | some j =>
    let d1 := ((d.takeJob s c j).bump WDS_HANDOUTS).podWrite (c / 9) (0x7FF000 + c % 9 * 0x40) j.desc.bytes
    let d2 := (d1.updCore c fun k =>
      { ((k.setSN 0 (s + 2 ^ 14 * j.desc.tl)).setSN 1 j.desc.period).adv with job := some s }).setCoreState c 1
    (d2.cpxTick c).wdsSettle

/-- The decision `takeJob` of the job `j` in slot `s` for core `c` is cancelled in F1: the job is unstarted again, the core waits as it did
since `since`, and the cancel is logged (R106, R109). The token is back once the fence is over. -/
def Dev.cancelJob (d : Dev) (s c since : Nat) (j : Job) : Dev :=
  let d1 := d.setJob s { j with state := .ready, eligAt := none }
  let f := d1.flow j.desc.flow
  let hf := WDS_PODn_TOKc_HELD (c / 9) j.desc.cls
  let d2 := ((d1.setFlow j.desc.flow { f with inSvc := f.inSvc - 1 }).wf hf (d1.rf hf - 1)).setBusy c false
  { d2.logJob 0x08 c s j.desc 0 with wds.waiting := Tab.put d2.wds.waiting c since }

/-- The decisions whose hand-outs a boundary finds on their way: at most `fuel`, and how many of those the dispatcher could make is free
(a hand-out takes up to 160 core cycles, R105; timing is left out, assumption log 87). One for a job `expired` names is made and never
delivered: slot, core, since when the core waits, and job. -/
def Dev.lateHand (expired : Job → Bool) : Nat → Dev → List (Nat × Nat × Nat × Job) → Dev × List (Nat × Nat × Nat × Job)
  | 0, d, acc => (d, acc)
  | fuel + 1, d, acc =>
    match d.choose with
    | none => (d, acc)
    | some (s, c) =>
      let x := d.fresh 2
      if x.2 = 0 then (x.1, acc)
      else match x.1.job s with
        | none => (x.1, acc)
        | some j =>
          if expired j then Dev.lateHand expired fuel (x.1.takeJob s c j) (acc ++ [(s, c, Tab.getD (fun _ => 0) x.1.wds.waiting c, j)])
          else Dev.lateHand expired fuel (x.1.handTo s c) acc

/-- CK_WDS cycles in the 160 core cycles of R105. -/
abbrev handCycles : Nat := 80

/-- Stage F1 for the dispatcher: the hand-outs on their way for jobs `expired` names are cancelled (R106). -/
def Dev.cancelLate (d : Dev) (expired : Job → Bool) : Dev :=
  let r := Dev.lateHand expired handCycles d []
  if r.2.isEmpty then r.1 else (r.2.foldl (fun d x => d.cancelJob x.1 x.2.1 x.2.2.1 x.2.2.2) r.1).wdsSettle

/-- HANDOUT: at most one decision in a CK_WDS cycle. -/
def execHandout (s : State) : Res :=
  s.act fun d => match d.choose with
    | some (slot, c) => d.handTo slot c
    | none => d

/-- GRACE_EXPIRY: the affinity step of an eligible READY job widens, GRACE cycles on (R103 item 6); TMU time moves on to
that moment if it has not come. -/
def execGraceExpiry (slot : Fin 16384) (s : State) : Res :=
  s.act fun d => match d.job slot with
    | some j =>
      if j.state == .ready && j.eligAt.isSome && decide (j.step < 2) then
        let due := j.eligCyc + (j.step + 1) * d.rf WDS_GRACE
        let ticks := ceilDiv (due - d.wdsCycle) 3
        let d1 := d.ticks ticks
        d1.setJob slot { j with step := j.step + 1 }
      else d
    | none => d

/-- FLOW_AFFINITY_RESET: a flow with no admitted job for a full period of its last job's timeline loses its last core
(R100). -/
def execFlowAffinityReset (flow : Fin 65536) (s : State) : Res :=
  s.act fun d =>
    let f := d.flow flow
    match f.idle with
    | some (n, k) =>
      if (d.tl n).started && decide (k + 2 ≤ (d.tl n).k) && d.wds.jobs.vals.all (fun j => j.desc.flow != flow.val) then
        (d.setFlow flow { f with last := none, idle := none }).wdsSettle
      else d
    | none => d

/-- Pod `p` begins taking non-EARLY jobs of the current period of timeline `n`, after the pods below it, 64 core cycles
(64/6 CK_TMU ticks of 3,125/768 ns) after each (R99). -/
def Dev.podRelease (d : Dev) (p n : Nat) : Dev :=
  let t := d.tl n
  if t.started && !t.released.contains p && (upTo p).all t.released.contains then
    let d1 := (d.advanceTo (d.boundaryT n t.k + p * 64 * 3125 * 2 ^ 32 / 4608)).setTl n { t with released := t.released ++ [p] }
    (d1.logPod 0x05 0xFF 0 (t.k % 65536) n).wdsSettle
  else d
/-- POD_RELEASE. -/
def execPodRelease (p : Fin 12) (n : Fin 4) (s : State) : Res := s.act fun d => d.podRelease p.val n.val

/-- Step 4 of R21 ends for timelines whose boundary came at the instant `t` and whose pods are not all released yet: it ends before another
timeline's boundary of the same instant begins. -/
def Dev.finishReleases (d : Dev) (t : Nat) : Dev :=
  ((upTo 4).filter fun m => (d.tl m).started && (d.tl m).released.contains 0 && d.boundaryT m (d.tl m).k == t).foldl
    (fun d m => (upTo 12).foldl (fun d p => d.podRelease p m) d) d

/-! ### The end of a job (R104, R107) -/

/-- The job of slot `s` leaves service: its token returns, its flow's count falls (R101, R100); coprocessor work it leaves behind is no other
job's that takes the slot. -/
def Dev.leaveService (d : Dev) (s : Nat) (j : Job) : Dev :=
  let n := j.core / 9
  let hf := WDS_PODn_TOKc_HELD n j.desc.cls
  let f := d.flow j.desc.flow
  let d1 := ((d.wf hf (d.rf hf - 1)).setBusy j.core false).setFlow j.desc.flow { f with inSvc := f.inSvc - 1 }
  { d1 with wds.jobs := Tab.del d1.wds.jobs s, pods.cpx := d1.pods.cpx.map fun i => if i.slot = some s then { i with slot := none } else i }

/-- A flow whose last admitted job has gone remembers since when (R100). -/
def Dev.flowIdle (d : Dev) (flow tl : Nat) : Dev :=
  if d.wds.jobs.vals.any fun j => j.desc.flow == flow then d
  else let f := d.flow flow
    if f.last.isSome then d.setFlow flow { f with idle := some (tl, (d.tl tl).k) } else d

/-- JOBDONE of the job core `c` holds in slot `s`: successors, the event, the flow's last core; `true` if it was in STOP. -/
def Dev.jobEnd (d : Dev) (c s : Nat) (j : Job) : Dev × Bool :=
  let stop := j.state == .stop
  let d1 := d.leaveService s j
  let f := d1.flow j.desc.flow
  let d2 := (d1.setFlow j.desc.flow { f with last := some c }).flowIdle j.desc.flow j.desc.tl
  let d3 := d2.updCore c fun k => { k with job := none }
  let d4 := if stop then d3.logJob 0x03 c s j.desc 0x2
    else (d3.logJob 0x02 c s j.desc 0).satisfy fun i w => i.replay == j.replay && i.desc.tl == j.desc.tl && w == s
  let d5 := if j.replay then
      let d6 := d4.updReplay fun r => { r with order := r.order.filter (·.1 != s) }
      if j.desc.evtEn then d6.replayEvent ((j.desc.period + j.desc.evtDper) % 65536) j.desc.evtOut else d6
    else if j.desc.evtEn && !stop then
      d4.raiseEvent j.desc.tl ((j.desc.period + j.desc.evtDper) % 65536) j.desc.evtOut
    else d4
  (d5.wdsSettle, stop)

/-! ### The fence's part (R50, R54, R106, R530) -/

/-- A drop: the job and its causes: 1 UNSTARTED, 2 STOPPED, 4 PREDECESSOR, 8 INPUT_MISSING. -/
abbrev Drop := JobDesc × Nat

/-- The job still waits for host data (R98). -/
def Job.inputMissing (j : Job) : Bool := j.wait.any fun w => decide (16384 ≤ w) && decide (w < 16384 + 0x800)

/-- Unstarted. -/
def Job.unstarted (j : Job) : Bool := j.state == .waiting || j.state == .ready

/-- The slots that fall with those in `gone`: dependants, repeatedly. -/
def dependants (jobs : Tab Job) : Nat → List Nat → List Nat → List Nat
  | 0, _, acc => acc
  | fuel + 1, gone, acc =>
    let new := (jobs.filter fun p => p.2.unstarted && !acc.contains p.1 && !gone.contains p.1
      && p.2.wait.any fun w => gone.contains w || acc.contains w).map Prod.fst
    if new.isEmpty then acc else dependants jobs fuel gone (acc ++ new)

/-- Drop the job of slot `s` unstarted. -/
def Dev.dropSlot (d : Dev) (s causes : Nat) (acc : List Drop) : Dev × List Drop :=
  match d.job s with
  | none => (d, acc)
  | some j =>
    let c := causes + 8 * b2n j.inputMissing
    let d1 := { d with wds.jobs := Tab.del d.wds.jobs s }
    let d2 := ((d1.bump (WDS_TLn_DROPPED j.desc.tl)).logJob 0x03 0xFF s j.desc c).flowIdle j.desc.flow j.desc.tl
    (d2, acc ++ [(j.desc, c)])

/-- Mark the running job of slot `s` STOP: its core's STOP_MARK latch is set (R51, R142). -/
def Dev.stopSlot (d : Dev) (s stopK : Nat) (acc : List Drop) : Dev × List Drop :=
  match d.job s with
  | none => (d, acc)
  | some j =>
    let d1 := (d.setJob s { j with state := .stop, stopK := stopK }).setLatch j.core 3
    ((d1.bump (WDS_TLn_STOPPED j.desc.tl)).logJob 0x04 j.core s j.desc 0, acc ++ [(j.desc, 2)])

/-- Stages F3 and F4 for the jobs `expired` names (R50, R106): first the unstarted jobs that depend on no dropped or stopped
job, then their dependants, then the stops. -/
def Dev.fenceJobs (d : Dev) (stopK : Nat) (expired : Job → Bool) : Dev × List Drop :=
  let jobs := d.wds.jobs
  let hit := jobs.filter fun p => expired p.2
  let stops := (hit.filter fun p => p.2.state == .running).map Prod.fst
  let uns := (hit.filter fun p => p.2.unstarted).map Prod.fst
  let roots := uns.filter fun s => match Tab.find jobs s with
    | some j => j.wait.all fun w => !uns.contains w && !stops.contains w
    | none => false
  let deps := dependants jobs (jobs.length + 1) (roots ++ stops) []
  let a1 := roots.foldl (fun a s => a.1.dropSlot s 1 a.2) (d, [])
  let a2 := deps.foldl (fun a s => a.1.dropSlot s 4 a.2) a1
  let a3 := stops.foldl (fun a s => a.1.stopSlot s stopK a.2) a2
  (a3.1.wdsSettle, a3.2)

/-- The key of a drop's report (R54). -/
def dropKey (x : JobDesc) : DropKey := ⟨x.tl, x.period, x.dir, x.tgt, x.alloc⟩

/-- The distinct keys of a list of drops, in the order in which each first appears. -/
def dropKeys (l : List Drop) : List DropKey := (l.map fun x => dropKey x.1).eraseDups

/-- Bitwise or of causes. -/
def orCauses (l : List Drop) : Nat := l.foldl (fun a x => a ||| x.2) 0

/-- The key of a target in the binding table (R82 UPQ_BIND): carrier contexts below 256, narrowband channels above. -/
def bindKey (dir target : Nat) : Nat := if dir = 2 then 256 + target % 256 else target % 256

/-- Queue one report (R54, R87 DEADLINE_DROP); one combination is never reported twice. -/
def Dev.report (d : Dev) (drops : List Drop) (k : DropKey) : Dev :=
  if d.wds.reported.contains k then d
  else
    let mine := drops.filter fun x => dropKey x.1 == k
    let car := if k.dir = 2 then d.fw.carriers
      else Tab.upd d.fw.carriers k.target fun c => { c with drops := c.drops + mine.length }
    let d1 := { d with wds.reported := k :: d.wds.reported, fw.carriers := car }
    match Tab.find d.fw.bind (bindKey k.dir k.target) with
    | none => d1.bump WDS_REPORTS_UNBOUND
    | some m =>
      (d1.bump (WDS_TLn_REPORTS k.tl)).up m 0xFFFF 0x0201 0x84 0 (upBody [(8, 1, k.tl + 4 * k.dir + 16 * (orCauses mine % 16)), (10, 2, k.period),
        (12, 2, k.target), (14, 2, k.alloc), (16, 2, mine.length)])

/-- Stage F6: one report for each combination that lost work, in the order in which the fence dropped it: unstarted work, its
dependants, stopped jobs. -/
def Dev.reportAll (d : Dev) (drops : List Drop) : Dev := (dropKeys drops).foldl (fun d k => d.report drops k) d

/-- Events and reported combinations of timeline `n` outside its live periods are forgotten (R98). -/
def Dev.forgetOld (d : Dev) (n : Nat) : Dev :=
  { d with wds.events := d.wds.events.filter fun e => e.1 != n || d.live n e.2.1,
           wds.reported := d.wds.reported.filter fun k => k.tl != n || decide (ahead (d.tl n).k k.period ≤ 3)
             || decide (65536 - ahead (d.tl n).k k.period ≤ 16) }

/-! ### Hung cores (R51, R106) -/

/-- The core is declared hung: masked, its slot freed as DROPPED, its token returned (R106); logged as HUNG, with a MASK record for the
mask bit and a DROP record for the slot (R109), in that order (DESIGN CHOICE, assumption log). -/
def Dev.declareHung (d : Dev) (c s : Nat) (j : Job) : Dev :=
  let g := d.gridIndex j.desc.tl d.now
  let again := match Tab.find d.wds.hungAt c with
    | some (n, k, _) => n == j.desc.tl && decide (g ≤ k + 1000)
    | none => false
  let d1 := (d.leaveService s j).flowIdle j.desc.flow j.desc.tl
  let d2 := (d1.updCore c fun k => { k with job := none }).wf ⟨rWDS_PODn_CORES (c / 9), c % 9, 1⟩ 1
  let d3 := { d2 with wds.hung := if d2.wds.hung.contains c then d2.wds.hung else c :: d2.wds.hung,
                      wds.hungAt := Tab.put d2.wds.hungAt c (j.desc.tl, g, again) }
  let d4 := (d3.bump WDS_HUNG).logJob 0x07 c s j.desc 0
  let d5 := (if d.coreMasked c then d4 else d4.logPod 0x06 0xFF 0 0 0).logJob 0x03 c s j.desc 0x2
  ((d5.health 4 3 c).recSource 1).wdsSettle

/-- HUNG_CORE_DECLARE: a job in STOP that has not ended 4 periods after its period expired (R51). Of a job that a CARRIER_REMOVE or a final
fence stopped before its period ended, the 4 periods count from the stop (DESIGN CHOICE, assumption log). -/
def Dev.hungDeclare (d : Dev) (c : Nat) : Dev :=
  match (d.core c).job with
  | none => d
  | some sl => match d.job sl with
    | some j => if j.state == .stop && decide (j.stopK + 4 ≤ d.gridIndex j.desc.tl d.now) then d.declareHung c sl j else d
    | none => d

/-! ### Register writes of the dispatcher (R108, R111) -/

/-- A write whose field `f` is not taken when `bad` holds of the value it would take: discarded with IGNORED_WRITE. -/
def Dev.vetoWr (d : Dev) (init : Initiator) (off value : Nat) (f : Fld) (bad : Nat → Bool) : Dev × Wrote :=
  let wrote := match regAt off with
    | some (g, _) => bitsAt (writeMask g.wide value) f.lo f.w != 0
    | none => false
  let r := d.busWr init off value
  match r.2 with
  | .no => r
  | .yes _ => if wrote && bad (r.1.rf f) then ((r.1.wf f (d.rf f)).regErr .ignored off init, r.2) else r

/-- WDS_CTL: a write of 0 while any timeline is enabled is discarded. -/
def Dev.wdsEnableWr (d : Dev) (init : Initiator) (value : Nat) : Dev :=
  (d.vetoWr init rWDS_CTL value WDS_CTL_ENABLE fun v => v == 0 && d.anyTl).1.wdsSettle
def execWdsEnableWrite (init : Initiator) (value : Word) (s : State) : Res :=
  s.act fun d => d.wdsEnableWr init value.toNat

/-- A pod's mode acts on hand-outs at once and is logged as MASK when it changes (R108, R109). -/
def Dev.podModeWr (d : Dev) (init : Initiator) (p value : Nat) : Dev :=
  let d1 := d.busReg init (rWDS_PODn_CTL p) value
  if d1.podMode p = d.podMode p then d1 else (d1.logPod 0x06 0xFF 0 0 0).wdsSettle
def execPodModeWrite (init : Initiator) (p : Fin 12) (value : Word) (s : State) : Res :=
  s.act fun d => d.podModeWr init p value.toNat

/-- Cores whose mask bit a change cleared are hung no longer (R107). -/
def Dev.unhang (d : Dev) (p : Nat) : Dev :=
  { d with wds.hung := d.wds.hung.filter fun c => c / 9 != p || d.coreMasked c }

/-- A core-mask write; `hw` holds the bits a hung declaration sets in the same cycle: in those hardware wins, and a
collision is recorded if the write named one (R111, R464, R465). -/
def Dev.coreMaskWr (d : Dev) (init : Initiator) (p value hw : Nat) : Dev :=
  let f := WDS_PODn_CORES_CORE_MASK p
  let r := d.busWr init (rWDS_PODn_CORES p) value
  match r.2 with
  | .no => r.1
  | .yes _ =>
    let d1 := r.1.wf f (r.1.rf f ||| hw)
    let d2 := if value / 2 ^ 16 &&& hw = 0 then d1 else d1.regErr .collide (rWDS_PODn_CORES p) init
    if d2.rf f = d.rf f then d2 else ((d2.logPod 0x06 0xFF 0 0 0).unhang p).wdsSettle
def execCoreMaskWrite (init : Initiator) (p : Fin 12) (value : Word) (hw : BitVec 9) (s : State) : Res :=
  s.act fun d => d.coreMaskWr init p value.toNat hw.toNat

def execHungCoreDeclare (c : Fin 108) (s : State) : Res := s.act fun d => d.hungDeclare c

end Sys2Proof.Machine
end

