-- ==== Sys2Proof/Machine/Cmd.lean ====
section
/-! DEFINITION. The Pequel opcode table, the checks before an opcode's own (R74), and how a command's row acts on its command
(R30, R73-R80). -/

namespace Sys2Proof.Machine

/-! ### Status codes (R77) -/

abbrev okS : Nat := 0x0000
abbrev badOpcode : Nat := 0x0101
abbrev badParam : Nat := 0x0102
abbrev busyS : Nat := 0x0103
abbrev deadlineDropped : Nat := 0x0201
abbrev domainOffS : Nat := 0x0301
abbrev txnAborted : Nat := 0x0401
abbrev protectionS : Nat := 0x0501
abbrev twinNotReady : Nat := 0x0601
abbrev internalS : Nat := 0x0F01

/-! ### The opcode tables (R82-R85, R57) -/

/-- An opcode's entry: parameters (none: any count), flags required (0 none, 1 T, 2 T+P), MIRROR allowed, S, two stages. -/
structure OpInfo where
  params : Option Nat
  marks : Nat
  mirror : Bool
  standby : Bool
  two : Bool
  deriving DecidableEq, Repr

/-- A plain opcode of `n` parameters; one with marks; a STANDBY opcode; a two-stage opcode. -/
def opPlain (n : Nat) : Option OpInfo := some ⟨some n, 0, false, false, false⟩
def opT (n m : Nat) : Option OpInfo := some ⟨some n, m, false, false, false⟩
def opS (n : Nat) : Option OpInfo := some ⟨some n, 0, false, true, false⟩
def opTwo (n : Nat) : Option OpInfo := some ⟨some n, 0, false, false, true⟩

/-- The opcode tables. -/
def opInfo (op : Nat) : Option OpInfo :=
  match op with
  | 0x0101 => opS 0
  | 0x0102 => opPlain 1
  | 0x0103 => opS 3
  | 0x0104 => opPlain 4
  | 0x0105 => opPlain 1
  | 0x0106 => some ⟨none, 0, false, true, false⟩
  | 0x0201 => some ⟨some 10, 2, true, false, false⟩
  | 0x0202 => some ⟨some 10, 2, true, false, false⟩
  | 0x0203 => opT 1 2
  | 0x0204 => opS 1
  | 0x0205 => opT 11 2
  | 0x0206 => opT 1 2
  | 0x0301 => opT 3 2
  | 0x0302 => opT 0 2
  | 0x0303 => opPlain 4
  | 0x0304 => opPlain 1
  | 0x0401 => some ⟨some 4, 1, false, false, true⟩
  | 0x0402 => opS 2
  | 0x0403 => opPlain 2
  | 0x0404 => opT 2 2
  | 0x0501 => opS 0
  | 0x0502 => opPlain 4
  | 0x0503 => opPlain 2
  | 0x0504 => opPlain 5
  | 0x0505 => opPlain 2
  | 0x0506 => opPlain 2
  | 0x0601 => opPlain 2
  | 0x0602 => opS 1
  | 0x0603 => opPlain 3
  | 0x0604 => opS 0
  | 0x0605 => opPlain 1
  | 0x0701 => opTwo 1
  | 0x0702 => opPlain 0
  | 0x0703 => opS 0
  | 0x0704 => opT 0 2
  | 0x0801 => opPlain 4
  | 0x0802 => opPlain 0
  | 0x0803 => opPlain 0
  | 0x0804 => opS 0
  | 0x0805 => opTwo 4
  | 0x0901 => opTwo 3
  | 0x0902 => opT 0 2
  | 0x0903 => opTwo 1
  | 0x0904 => opTwo 4
  | 0x0905 => opPlain 1
  | 0x0906 => opPlain 1
  | 0x0A01 => opPlain 2
  | 0x0A02 => opPlain 3
  | 0x0A03 => opTwo 1
  | 0x0A04 => opS 3
  | 0x0A05 => opS 3
  | 0x0B01 => opPlain 2
  | 0x0B02 => opPlain 4
  | 0x0B03 => opPlain 1
  | 0x0B04 => opPlain 1
  | 0x0B05 => opPlain 4
  | _ => none

/-! ### A command entry (R73) -/

/-- Parameter word `i` of a command, its address pair at `i`, and its flags. -/
def pp (c : PqCmd) (i : Nat) : Nat := (nth 0 c.params i).toNat
def pAddr (c : PqCmd) (i : Nat) : Nat := pp c i + 2 ^ 32 * pp c (i + 1)
def pSigned (c : PqCmd) (i : Nat) : Int := toSigned 32 (pp c i)
def hasTl (c : PqCmd) : Bool := bitAt c.flags.toNat 2
def hasTarget (c : PqCmd) : Bool := bitAt c.flags.toNat 3
def hasMirror (c : PqCmd) : Bool := bitAt c.flags.toNat 1

/-- The command an entry on queue `q` spells, and its opcode. -/
def parseCmd (q : Fin 16) (e : List Byte) : PqCmd × Nat :=
  (⟨q, BitVec.ofNat 16 (leAt e 2 2), BitVec.ofNat 16 (leAt e 4 2), BitVec.ofNat 2 (leAt e 7 1), BitVec.ofNat 16 (leAt e 8 2),
    (upTo (min 12 (leAt e 6 1))).map fun i => BitVec.ofNat 32 (leAt e (16 + 4 * i) 4)⟩, leAt e 0 2)

/-- Checks 1-4 of R74 on an entry: the status of the first that fails. -/
def entryRefusal (e : List Byte) : Option Nat :=
  let fl := leAt e 4 2
  let pc := leAt e 6 1
  if leAt e 10 6 != 0 || decide (16 ≤ fl) || decide (4 ≤ leAt e 7 1) || decide (12 < pc) ||
      (e.drop (16 + 4 * pc)).any (· != 0) || leAt e 2 2 == 0xFFFF || (bitAt fl 3 && !bitAt fl 2) then some badParam
  else match opInfo (leAt e 0 2) with
  | none => some badOpcode
  | some o =>
    if (bitAt fl 1 && !o.mirror) || bitAt fl 2 != decide (1 ≤ o.marks) || bitAt fl 3 != decide (2 ≤ o.marks) then some badParam
    else match o.params with
    | none => none
    | some n => if pc = n then none else some badParam

/-! ### Fetching (R67, R69, R79, R487) -/

/-- The sentinel opcode of an entry refused by checks 1-4: it never enters the tag window. -/
abbrev opRefused : Nat := 0x10000

/-- Completions a running command still owes. -/
def owes (r : RunCmd) : Nat :=
  if r.dup || decide (opRefused ≤ r.opcode) then 1
  else match opInfo r.opcode with
  | some o => if o.two && r.acc != 2 then 2 else 1
  | none => 1

/-- Completion slots of pair `q` not taken, owed, or held back for events (R69). -/
def Dev.cqRoom (d : Dev) (q : Nat) : Nat :=
  d.cqFree q - sumNat ((d.qp q).running.filter (!·.ghost) |>.map owes) - (if q = 0 then 8 - min 8 d.evOut else 0)

/-- The pair has an entry waiting and fetching is not stopped (R67, R71, R91). -/
def Dev.hasEntry (d : Dev) (q : Nat) : Bool :=
  d.pairServes q && !d.hif.fetchStopped && d.domOn 76 && d.rf (HIF_CQn_SQ_HEAD q) != d.rf (HIF_CQn_SQ_TAIL q)

/-- No pair of a path that has its turn before `i` may surely be fetched now (R67): `n` pairs, `rr` where the round stands. -/
def myTurn (n rr i : Nat) (sure : Nat → Bool) : Bool :=
  (upTo n).all fun j => !sure j || decide ((i + n - rr) % n ≤ (j + n - rr) % n)

/-- SQ_HEAD moves past a fetched entry. -/
def Dev.pastEntry (d : Dev) (q : Nat) : Dev := d.wf (HIF_CQn_SQ_HEAD q) ((d.rf (HIF_CQn_SQ_HEAD q) + 1) % d.sqDepth q)

/-- Opcodes the STANDBY applies; the others it only logs (R487). -/
def mirrorApplied (op : Nat) : Bool :=
  op == 0x0104 || op == 0x0105 || op / 256 == 0x02 || (decide (0x0301 ≤ op) && decide (op ≤ 0x0304)) ||
  (decide (0x0504 ≤ op) && decide (op ≤ 0x0506)) || op / 256 == 0x0B || [0x0901, 0x0902, 0x0904].contains op

/-- This device is ACTIVE with a READY partner (R80, R487). -/
def Dev.mirrors (d : Dev) : Bool := d.rf MGT_TWIN_STS_ROLE == 1 && d.rf MGT_TWIN_STS_PARTNER == 2

/-- The window entry or running command a tag meets (R79): its opcode and final completion. -/
def tagMatch (x : QPair) (tag : Nat) : Option (Nat × Option Cmpl) :=
  match x.window.find? (fun w => w.tag == tag) with
  | some w => some (w.opcode, w.cmpl)
  | none => (x.running.find? fun r => !r.dup && decide (r.opcode < opRefused) && r.cmd.tag.toNat == tag).map fun r => (r.opcode, none)

/-- The window after a command was executed: the last 1,024 (R79). -/
def windowAdd (w : List TagRec) (t : TagRec) : List TagRec := let l := w ++ [t]; l.drop (l.length - 1024)

/-- The boundary index target periods are judged against (R48). Before boundary(0), where no period is current, it is 0: period 0 cannot be named
then (DESIGN CHOICE, assumption log 121). -/
def Dev.refK (d : Dev) (n : Nat) : Nat := if (d.tl n).started then (d.tl n).k else d.gridIndex n d.now
/-- `c` is a PLAN_POST whose air period's plan is sealed: period N - 2 or a later one has started (R83). -/
def Dev.planSealed (d : Dev) (op : Nat) (c : PqCmd) : Bool := op == 0x0301 && decide (ahead (d.refK c.timeline.toNat) c.target.toNat ≤ 2)

/-- What a fetched entry becomes: refused by checks 1-4, a duplicate, or a command to run; mirrored when paired. -/
def Dev.takeEntry (d : Dev) (q : Fin 16) (e : List Byte) : Dev :=
  let (c, op) := parseCmd q e
  let m := d.mirrors
  match entryRefusal e with
  | some st =>
    d.updQp q fun x => { x with running := x.running ++ [⟨c, opRefused, true, 0, false, b2n m, false, false, some ⟨st, []⟩, false⟩] }
  | none =>
    match tagMatch (d.qp q) c.tag.toNat with
    | some (o, cm) =>
      let own := if o = op then cm else some ⟨badParam, []⟩
      d.updQp q fun x => { x with running := x.running ++ [⟨c, op, true, 0, true, b2n m, false, false, own, false⟩] }
    | none =>
      d.updQp q fun x => { x with running := x.running ++ [⟨c, op, false, 0, false, b2n m, m && mirrorApplied op, false, none, d.planSealed op c⟩],
                                  window := windowAdd x.window ⟨c.tag.toNat, op, none⟩ }

/-- A command taken over from the partner waits to be carried out again (R90): the oldest in log order, as queue and tag. -/
def Dev.adoptNext (d : Dev) : Option (Nat × Nat) :=
  d.twin.adopted.find? fun a => (d.qp a.1).running.any fun r => r.cmd.tag.toNat == a.2 && !r.started && r.own.isNone && !r.dup

/-- The pair may be fetched (R67, R69): an entry waits, and its completions have room. `single` are the pairs whose waiting entry, as the
host wrote it, calls for one completion. -/
def Dev.mayFetch (d : Dev) (single : BitVec 16) (j : Nat) : Bool :=
  d.hasEntry j && decide ((if single.getLsbD j then 1 else 2) ≤ d.cqRoom j)

/-- COMMAND_FETCH: pair `q` fetches an entry once its turn comes and its completions have room (R67, R69, R74); after a takeover, once the
commands taken over have been carried out (R90). -/
def Dev.commandFetch (d : Dev) (q : Fin 16) (e : List Byte) (single : BitVec 16) : Dev :=
  let need := match opInfo (leAt e 0 2) with
    | some o => if o.two then 2 else 1
    | none => 1
  if d.hasEntry q && decide (need ≤ d.cqRoom q) && d.adoptNext.isNone && myTurn 16 d.hif.rrCmd q (d.mayFetch single) then
    let d1 := { (d.pastEntry q).takeEntry q e with hif.rrCmd := (q.val + 1) % 16 }
    let d2 := if d.mirrors then
        { d1.wf MGT_TWIN_UNACK (d1.rf MGT_TWIN_UNACK + 1) with twin.mirrored := d1.twin.mirrored + 1 }
      else d1
    (d2.recAdd 1 (c0 e) 0 none).flush q
  else d
where
  /-- The timeline a record of the entry names. -/
  c0 (e : List Byte) : Nat := leAt e 7 1 % 4
/-- COMMAND_FETCH of the 64 bytes `entry.1`. -/
def execCommandFetch (q : Fin 16) (entry : List Byte × BitVec 16) (s : State) : Res := s.act fun d => d.commandFetch q entry.1 entry.2

/-! ### Running a command -/

/-- The next command of queue `q` to take effect: the oldest not started (R30); while commands taken over wait, only the first of
them in log order (R90). -/
def Dev.pqNext (d : Dev) (q : Nat) : Option RunCmd :=
  match d.adoptNext with
  | none => (d.qp q).running.find? fun r => !r.started && r.own.isNone && !r.dup
  | some a => if a.1 = q then (d.qp q).running.find? fun r => r.cmd.tag.toNat == a.2 && !r.started && r.own.isNone && !r.dup else none

/-- A STANDBY carries the command out: its opcode is marked S, or the ACTIVE mirrored it (R74, R487). -/
def standbyTakes (op : Nat) (ghost : Bool) : Bool :=
  match opInfo op with
  | some o => o.standby || ghost
  | none => true

/-- A command's row: acts on the queue's next command if `c` is it, after check 5 of R74; the effect decides what is
completed. A row naming any other command does nothing: the device has no such command to run. -/
def Dev.pqDo (d : Dev) (op : Nat) (c : PqCmd) (f : Dev → Dev) : Dev :=
  match d.pqNext c.queue with
  | none => d
  | some r =>
    if r.opcode = op ∧ r.cmd = c then
      let q := c.queue.val
      if d.rf MGT_TWIN_STS_ROLE == 2 && !standbyTakes op r.ghost then d.complete q c.tag.toNat twinNotReady []
      else f (d.inProgress q c.tag.toNat)
    else d

/-- Complete `c` with a status and no results; with results. -/
def Dev.fin (d : Dev) (c : PqCmd) (status : Nat) : Dev := d.complete c.queue.val c.tag.toNat status []
def Dev.finR (d : Dev) (c : PqCmd) (res : List Nat) : Dev := d.complete c.queue.val c.tag.toNat okS res
/-- Complete with the first status whose condition holds, or go on. -/
def Dev.checks (d : Dev) (c : PqCmd) : List (Bool × Nat) → (Dev → Dev) → Dev
  | [], f => f d
  | (b, st) :: t, f => if b then d.fin c st else d.checks c t f

/-- Firmware cannot complete a command it had taken: INTERNAL, and a health event follows (R77). -/
def Dev.internal (d : Dev) (c : PqCmd) : Dev := (d.fin c internalS).health 0 9 (c.tag.toNat + 2 ^ 16 * c.queue.val)

/-- A Pequel row. -/
def State.pq (op : Nat) (c : PqCmd) (s : State) (f : Dev → Dev) : Res := s.act fun d => d.pqDo op c f

/-! ### Targets and staging (R75, R78) -/

/-- Period `p` is in the future (R48). -/
def Dev.future (d : Dev) (n p : Nat) : Bool := let a := ahead (d.refK n) p; decide (1 ≤ a) && decide (a ≤ 32767)
/-- A target period is acceptable (R75). -/
def Dev.targetOk (d : Dev) (n p : Nat) : Bool :=
  d.flag (TMU_TLn_CTL_ENABLE n) && (let a := ahead (d.refK n) p; decide (1 ≤ a) && decide (a ≤ 256))
/-- The command's target fails R75. -/
def Dev.badTarget (d : Dev) (c : PqCmd) : Bool := !d.targetOk c.timeline.toNat c.target.toNat
/-- The boundary index a target names. -/
def Dev.targetK (d : Dev) (n p : Nat) : Nat := d.refK n + ahead (d.refK n) p

/-- Stage an effect of command `c` for its boundary. -/
def Dev.stage (d : Dev) (c : PqCmd) (op : Nat) (owed : Bool) (e : Effect) : Dev :=
  { d with txnOrd := d.txnOrd + 1,
           fw.staged := d.fw.staged ++ [⟨c.timeline.toNat, c.target.toNat, c.queue.val, c.tag.toNat, op, owed, d.txnOrd, e⟩] }

/-- The period of a timeline in ns, rounded down, for a grid of any kind. -/
def Dev.periodNs (d : Dev) (n : Nat) : Nat := d.rf (TMU_TLn_PERIOD n) / max 1 (d.rf (TMU_TLn_DEN n))

end Sys2Proof.Machine
end

