-- ==== Sys2Proof/Machine/Queue.lean ====
section
/-! DEFINITION. Queue doorbells, enable and disable, interrupts, the event backlog and held results (R66-R71, R81, R89). -/

namespace Sys2Proof.Machine

/-- Pairs 0-15 are the command pairs, 16-79 the user-plane pairs, in the order of their register arrays (R66). -/
def pairIx (i : Nat) : Nat := if i < 16 then i else i + 48

/-- A doorbell write: an index at or beyond the depth is ignored and counted (R67). The Bool says it was taken. -/
def Dev.doorbell (d : Dev) (init : Initiator) (q off value depth : Nat) (f : Fld) : Dev × Bool :=
  let r := d.busWr init off value
  match r.2 with
  | .no => (r.1, false)
  | .yes _ => if r.1.rf f < depth then (r.1, true) else ((r.1.wf f (d.rf f)).bump (HIF_CQn_BADDB q), false)

/-- SQ_DOORBELL: new submission entries. -/
def Dev.sqDoorbell (d : Dev) (init : Initiator) (q value : Nat) : Dev :=
  (d.doorbell init q (rHIF_CQn_SQ_TAIL q) value (d.sqDepth q) (HIF_CQn_SQ_TAIL q)).1
def execSqDoorbell (init : Initiator) (pair : Fin 80) (value : Word) (s : State) : Res :=
  s.act fun d => d.sqDoorbell init (pairIx pair) value.toNat

/-- CQ_HEAD_DOORBELL: slots released, the interrupt re-armed (R68, R70), and completions that waited for a slot written. With COUNT or
more completions still pending the vector is raised at once (assumption log). -/
def Dev.cqDoorbell (d : Dev) (init : Initiator) (q value : Nat) : Dev :=
  let old := d.rf (HIF_CQn_CQ_HEAD q)
  let r := d.doorbell init q (rHIF_CQn_CQ_HEAD q) value (d.cqDepth q) (HIF_CQn_CQ_HEAD q)
  if r.2 then
    let n := (r.1.rf (HIF_CQn_CQ_HEAD q) + r.1.cqDepth q - old) % r.1.cqDepth q
    (((r.1.updQp q fun x => { x with raised := false, posted := x.posted.drop n }).showFull q).countTrigger q).flush q
  else r.1
def execCqHeadDoorbell (init : Initiator) (pair : Fin 80) (value : Word) (s : State) : Res :=
  s.act fun d => d.cqDoorbell init (pairIx pair) value.toNat

/-- MSIX_COAL_TIMER: the oldest unreleased completion reaches TIME µs (R70). -/
def execMsixCoalTimer (pair : Fin 80) (s : State) : Res :=
  s.act fun d =>
    let q := pairIx pair
    let t := d.rf (HIF_CQn_COAL_TIME q)
    match (d.qp q).posted with
    | [] => d
    | (t0, _) :: _ => if t = 0 ∨ (d.qp q).raised then d else (d.advanceTo (t0 + usT t)).raiseVector q

/-- EVENT_BACKLOG_POST: a held-back slot of CQ0 has freed (R81). -/
def execEventBacklogPost (s : State) : Res :=
  s.act fun d => match d.hif.backlog with
    | [] => d
    | e :: t =>
      if d.pairServes 0 && decide (d.evOut < 8) && decide (0 < d.cqFree 0) && d.domOn 76 then
        { d with hif.backlog := t }.postEvent e
      else d

/-- UP_COMPLETION_RELEASE: a held user-plane completion is written once the ring has room (R89). -/
def execUpCompletionRelease (m : Fin 64) (s : State) : Res :=
  s.act fun d => match (d.qp (64 + m.val)).held with
    | [] => d
    | c :: t =>
      if 0 < d.cqFree (64 + m.val) then (d.updQp (64 + m.val) fun x => { x with held := t }).postUp m c else d

/-- A ring lies inside the outbound window (R72). -/
def Dev.ringsOk (d : Dev) (q : Nat) : Bool :=
  d.obOk (d.sqBase q) (d.sqDepth q * sqEntry q) && d.obOk (d.cqBase q) (d.cqDepth q * 32)

/-- ENABLE falls: fetching stops, held results are lost and counted (R71). -/
def Dev.pairStop (d : Dev) (q : Nat) : Dev :=
  let n := (d.qp q).held.length
  let d1 := (d.setFlag (HIF_CQn_CTL_ENABLE q) false).updQp q fun x => { x with stopping := true, held := [], ulbufs := [] }
  (if 64 ≤ q then d1.bumpBy (HIF_UPQm_OVERFLOW (q - 64)) n else d1).settleStop q

/-- A write of a pair's CTL (R66, R71). ENABLE written 1 while RUNNING is still 1: the pair starts anew once it has stopped. -/
def Dev.pairCtlWr (d : Dev) (init : Initiator) (q value : Nat) : Dev :=
  let off := rHIF_CQn_CTL q
  let f := HIF_CQn_CTL_ENABLE q
  let r := d.busWr init off value
  match r.2 with
  | .no => r.1
  | .yes _ =>
    if d.flag f == r.1.flag f then r.1
    else if r.1.flag f then
      if r.1.ringsOk q then (if (r.1.qp q).stopping then r.1 else (r.1.pairStart q).flush q) else (r.1.setFlag f false).regErr .ignored off init
    else r.1.pairStop q
def execQueueEnable (init : Initiator) (pair : Fin 80) (value : Word) (s : State) : Res :=
  s.act fun d => d.pairCtlWr init (pairIx pair) value.toNat
def execQueueDisable (init : Initiator) (pair : Fin 80) (value : Word) (s : State) : Res :=
  s.act fun d => d.pairCtlWr init (pairIx pair) value.toNat

end Sys2Proof.Machine
end

