-- ==== Sys2Proof/Machine/MemOps.lean ====
section
/-! DEFINITION. Central-buffer handles, memory errors and scrubbing, and the DDR5 registers (R330-R349). -/

namespace Sys2Proof.Machine

/-! ### Handles (R332-R335) -/

/-- No buffer holds any of `n` handles from `h`. -/
def handlesFree (t : Tab CbfBuf) (h n : Nat) : Bool :=
  t.all fun p => decide (h + n ≤ p.1) || decide (p.1 + p.2.count ≤ h)
/-- A run of `n` handles from `h` fits: inside the buffer, free, none of HARQ pool 1's, every bank in RUN. -/
def Dev.runFits (d : Dev) (h n : Nat) : Bool :=
  decide (h + n ≤ 16384) && handlesFree d.mem.bufs h n && (d.poolRun.2 == 0 || handlesFree [(d.poolRun.1, ⟨d.poolRun.2, none⟩)] h n) &&
  (upTo 8).all fun b => d.domRun (67 + b) || decide (h + n ≤ 2048 * b) || decide (2048 * (b + 1) ≤ h)
/-- The lowest run of `n` handles that fits: it begins at a bank, or right after a buffer or the pool. -/
def Dev.lowestRun (d : Dev) (n : Nat) : Option Nat :=
  let starts := (upTo 8).map (2048 * ·) ++ (d.poolRun.1 + d.poolRun.2) :: d.mem.bufs.map fun p => p.1 + p.2.count
  (starts.filter fun h => d.runFits h n).foldl (fun b h => match b with
    | none => some h
    | some x => some (min x h)) none

/-- Allocate `n` handles, bound or not; none: refused by firmware. -/
def Dev.cbfAlloc (d : Dev) (n : Nat) (bind : Option (Nat × Nat × Nat)) : Dev × Option Nat :=
  if n = 0 ∨ 1024 ≤ d.mem.bufs.length then (d, none)
  else match d.lowestRun n with
  | none => (d, none)
  | some h => ({ d with mem.bufs := Tab.put d.mem.bufs h ⟨n, bind⟩ }.cbfShow, some h)
/-- Free the buffer whose first handle is `h`. -/
def Dev.cbfFree (d : Dev) (h : Nat) : Dev := { d with mem.bufs := Tab.del d.mem.bufs h }.cbfShow

/-- CBF_BUFFER_ALLOC: firmware allocates a run, unbound or bound to a timeline, a period and a hold. -/
def execCbfBufferAlloc (count : Fin 16385) (bind : Option (Fin 4 × BitVec 16 × Fin 4)) (s : State) : Res :=
  s.act fun d => (d.cbfAlloc count (bind.map fun b => (b.1.val, b.2.1.toNat, b.2.2.val))).1

/-- CBF_BUFFER_FREE: only an unbound buffer is freed by firmware. -/
def execCbfBufferFree (first : Fin 16384) (s : State) : Res :=
  s.act fun d => match Tab.find d.mem.bufs first with
    | some ⟨_, none⟩ => d.cbfFree first
    | _ => d

/-- Stage F5 for buffers: those bound to timeline `n` that `done` names return their handles (R333). -/
def Dev.cbfReclaim (d : Dev) (n : Nat) (done : Nat → Nat → Bool) : Dev :=
  { d with mem.bufs := d.mem.bufs.filter fun p => match p.2.bind with
      | some (t, per, h) => t != n || !done per h
      | none => true }.cbfShow

/-! ### The scrubber (R340, R341) -/

/-- Errors arise in the line holding `a`: devices and pairs of beats of a DDR5 burst, words and bits of a line of the central buffer. -/
def Dev.arise (d : Dev) (a : Nat) (flaw : List (Nat × Nat)) : Dev :=
  let l := a / 64 * 64
  if flaw.isEmpty then d else { d with mem.flaws := Tab.put d.mem.flaws l (((Tab.find d.mem.flaws l).getD []) ++ flaw) }

/-- SCRUB_READ: the patrol reads a burst or line and finds what has gone wrong in it. -/
def Dev.scrub (d : Dev) (a : Nat) : Dev :=
  match placeOf a with
  | .ddr x => match d.ddrChannel x with
    | none => d
    | some k =>
      if d.rf MEM_SCRUB_HOURS == 0 || !d.domRun (63 + k) then d
      else
        let d1 := if d.poisoned a 1 then (d.bump (MEM_CHk_POISON_RD k)).recSource 5 else d.lineRead a
        let last := if d.rf MEM_CTL_MODE = 0 then 4 * d.chSize 0 - 4096 * (3 - k) else 0x0800000000 * k + d.chSize k
        if x / 64 * 64 + 64 = last then d1.bump (MEM_CHk_SCRUB_PASSES k) else d1
  | .cbuf off =>
    if !d.domRun (67 + off / 4096 / 2048) then d
    else if d.poisoned a 1 then (d.bump CBF_POISON_RD).recSource 5 else d.lineRead a
  | _ => d
/-- `arisen` is what has gone wrong in the line at `addr` since it was last read: the patrol meets it now, or where it does not read
this line, whatever reads it next (R340). A pair is a device and a pair of beats, or a word and a bit of the central buffer. -/
def execScrubRead (addr : BitVec 40) (arisen : List (Fin 10 × Fin 72)) (s : State) : Res :=
  s.act fun d => (d.arise addr.toNat (arisen.map fun e => (e.1.val, e.2.val))).scrub addr.toNat

/-! ### DDR5 registers (R336, R347) -/

/-- DDR_HOT and DDR_HOT_CLEAR: a device of a populated channel reports above 85 °C, or no longer. -/
def execDdrHot (k : Fin 4) (s : State) : Res :=
  s.act fun d => if d.chHere k && d.domOn (63 + k.val) then d.setFlag (MEM_CHk_STS_HOT k) true else d
def execDdrHotClear (k : Fin 4) (s : State) : Res :=
  s.act fun d => if d.domOn (63 + k.val) then d.setFlag (MEM_CHk_STS_HOT k) false else d

/-- Every populated channel is trained; in INTERLEAVE all four are populated alike. -/
def Dev.memReady (d : Dev) : Bool :=
  ((upTo 4).all fun k => !d.chHere k || d.flag (MEM_CHk_STS_TRAINED k)) &&
  (d.rf MEM_CTL_MODE == 1 || (d.rf MEM_CTL_POPULATED == 15 && (upTo 4).all fun k => d.reg (rMEM_CHk_CFG k) == d.reg (rMEM_CHk_CFG 0)))

/-- MEM_ENABLE_WRITE: a write of 1 is discarded unless the channels are ready. -/
def Dev.memCtlWr (d : Dev) (init : Initiator) (value : Nat) : Dev :=
  let r := d.busWr init rMEM_CTL value
  match r.2 with
  | .no => r.1
  | .yes _ =>
    if bitAt (value / 2 ^ 16) 0 && bitAt value 0 && !r.1.memReady then
      ((r.1.setFlag MEM_CTL_ENABLE (d.flag MEM_CTL_ENABLE)).regErr .ignored rMEM_CTL init).trainSync
    else r.1.trainSync
def execMemEnableWrite (init : Initiator) (value : Word) (s : State) : Res := s.act fun d => d.memCtlWr init value.toNat

end Sys2Proof.Machine
end

