-- ==== Sys2Proof/Machine/Fence.lean ====
section
/-! DEFINITION. The period fence, the end of transaction groups, and the enabling and disabling of timelines (R43-R61,
R106, R528-R530). -/

namespace Sys2Proof.Machine

/-! ### The fence (R50, R530) -/

/-- Carriers a CARRIER_REMOVE staged for boundary `k` of timeline `n` removes. -/
def Dev.removedAt (d : Dev) (n k : Nat) : List Nat :=
  d.fw.staged.filterMap fun e =>
    match e.eff with
    | .carrierRemove cc => if e.tl = n ∧ e.target = k % 65536 then some cc else none
    | _ => none

/-- A job that the removals at boundary `k` treat as expired (R530). -/
def removedJob (cs : List Nat) (k : Nat) (x : JobDesc) : Bool :=
  x.dir != 2 && cs.contains x.tgt && decide (ahead k x.period ≤ 32767)

/-- A job that expires at the boundary that starts period `k` of timeline `n`; `final` expires every period. -/
def Dev.expires (d : Dev) (n k : Nat) (final : Bool) (j : Job) : Bool :=
  !j.replay && j.desc.tl == n && (final || decide (j.k < k) || removedJob (d.removedAt n k) k j.desc)

/-- Stages F3-F6 at the boundary that starts period `k` of timeline `n`; `final` expires every period. F1's part is `cancelLate`, before the
boundary's period is the current one. -/
def Dev.runFence (d : Dev) (n k : Nat) (final : Bool) : Dev :=
  let r := d.fenceJobs k (d.expires n k final)
  let stopped := (r.1.wds.jobs.filter fun (p : Nat × Job) => p.2.desc.tl == n && p.2.state == .stop && p.2.stopK == k).map (·.1)
  let d1 := r.1.cpxExpire n (fun p => final || decide (3 < ahead k p)) stopped Dev.cpxCut
  let d2 := d1.cbfReclaim n fun p h => final || (let a := ahead p k; decide (1 + h ≤ a) && decide (a ≤ 32767))
  let d3 := (d2.reportAll r.2).forgetOld n
  let d4 := if d3.rf OBS_REC_POST_DL_THRESH ≤ r.2.length then d3.recSource 2 else d3
  d4.drainLog

/-! ### Groups (R55-R61) -/

def Dev.txn (d : Dev) (i : Nat) : TxnSlot := Tab.getD (fun _ => TxnSlot.reset) d.txns i
def Dev.setTxn (d : Dev) (i : Nat) (x : TxnSlot) : Dev := { d with txns := Tab.setD (fun _ => TxnSlot.reset) d.txns i x }
/-- The TXN_ARM of slot `i`, (`q`, `tag`), has its outcome, and its completion is not posted. -/
def Dev.armUnposted (d : Dev) (i q tag : Nat) : Bool :=
  (d.qp q).running.any fun r => r.opcode == 0x0B03 && r.cmd.tag.toNat == tag && pp r.cmd 0 == i && !r.dup && r.own.isSome
/-- Slot `i` holds no group: none was opened, it was cancelled, or it resolved and its TXN_ARM's completion is posted (R55). -/
def Dev.txnFree (d : Dev) (i : Nat) : Bool :=
  match (d.txn i).phase with
  | .free => true
  | .done q tag => !d.armUnposted i q tag
  | _ => false

/-- Whole-group reasons (R58). -/
abbrev rsnLate : Nat := 0x07
abbrev rsnTimelineOff : Nat := 0x08
abbrev rsnCancelled : Nat := 0x0A

/-- An armed group resolves: its records are kept for TXN_REPORT, TXN_ARM completes (R59). `period` is word 4, `wins` word 5. -/
def Dev.txnResolve (d : Dev) (i : Nat) (refs : List Refused) (period wins : Nat) : Dev :=
  let x := d.txn i
  match x.phase with
  | .armed q tag _ _ =>
    let d1 := (d.setTxn i { x with phase := .done q tag, writes := [], report := some refs }).recAdd 2 x.tl (period % 65536) none
    match refs with
    | [] => d1.complete q tag okS [i, x.writes.length, 0, 0, period % 65536, wins]
    | r :: _ => d1.complete q tag txnAborted
        [i, x.writes.length, refs.length, r.reason + 2 ^ 8 * r.block + 2 ^ 16 * r.idx, period % 65536, 0]
  | _ => d

/-- A whole-group abort. -/
def Dev.txnAbort (d : Dev) (i reason period : Nat) : Dev := d.txnResolve i [⟨0xFFFF, 0xFF, reason, 0⟩] period 0

/-- The armed groups of timeline `n`, in arm order: slot and order. -/
def Dev.armedOf (d : Dev) (n : Nat) : List (Nat × Nat) :=
  let l := d.txns.filterMap fun p => match p.2.phase with
    | .armed _ _ ord _ => if p.2.tl = n then some (p.1, ord) else none
    | _ => none
  l.mergeSort fun a b => decide (a.2 ≤ b.2)

/-! ### Staged effects discarded (R529) -/

/-- What firmware forgets when an effect never applies. -/
def Dev.undoEffect (d : Dev) (e : Effect) : Dev :=
  match e with
  | .carrierAdd cc _ _ _ => { d with fw.carriers := Tab.del d.fw.carriers cc }
  | .carrierRemove cc => { d with fw.carriers := Tab.upd d.fw.carriers cc fun c => { c with state := 2 } }
  | .twinSwap => d.setFlag MGT_TWIN_STS_SWAP_PENDING false
  | .fwSwitch => { d with hif.fetchStopped := false }
  | _ => d

/-- The final completion of the command of pair `q` with this tag is not posted yet: it is still among the running ones. -/
def Dev.unposted (d : Dev) (q tag op : Nat) : Bool :=
  (d.qp q).running.any fun r => r.cmd.tag.toNat == tag && r.opcode == op && !r.dup

/-- Discard one staged effect: a command whose final completion is not posted completes with DEADLINE_DROPPED, in place of an outcome
decided but held back (R30, R32); for any other STAGED_DISCARDED is raised (R529). -/
def Dev.discardStaged (d : Dev) (e : Staged) : Dev :=
  let d1 := d.undoEffect e.eff
  if d1.unposted e.queue e.tag e.opcode then
    (d1.updQp e.queue fun x => { x with running := x.running.map fun (r : RunCmd) =>
      if r.cmd.tag.toNat == e.tag && r.opcode == e.opcode && !r.dup then { r with own := some ⟨deadlineDropped, []⟩ } else r }).flush e.queue
  else d1.healthCode 1 0x0101 ((e.tag + 2 ^ 16 * e.opcode) + 2 ^ 32 * e.queue + 2 ^ 64 * (e.target + 2 ^ 16 * e.tl))

/-- Every effect and every unbuilt plan of timeline `n` is discarded. -/
def Dev.discardTimeline (d : Dev) (n : Nat) : Dev :=
  let mine := d.fw.staged.filter (·.tl == n)
  let posts := (d.fw.plans.filter (·.tl == n)).flatMap (·.posts)
  let d1 : Dev := { d with fw.staged := d.fw.staged.filter (·.tl != n), fw.plans := d.fw.plans.filter (·.tl != n) }
  posts.foldl (fun d p => d.complete p.queue p.tag deadlineDropped []) (mine.foldl Dev.discardStaged d1)

/-- Timeline `n` is disabled: its switches wait for its next boundary, but for those of DPD_BANK_SELECT, which is discarded
(R529). -/
def Dev.armsStop (d : Dev) (n : Nat) : Dev :=
  let cmds := d.cal.arms.filterMap fun a => match a.src with
    | .cmd q tag => if a.tl = n then some (a.target, q, tag) else none
    | _ => none
  let keep := (d.cal.arms.filter fun a => match a.src with
    | .cmd _ _ => a.tl != n
    | _ => true).map fun a => if a.tl = n then { a with k := 0 } else a
  cmds.foldl (fun d x => (d.setFlag (DFE_TX_t_DPD_PENDING x.1) false).complete x.2.1 x.2.2 deadlineDropped []) { d with cal.arms := keep }

/-! ### Enable and disable (R43, R46, R47, R528) -/

/-- A grid is valid (R43). -/
def gridOk (kind period den offset : Nat) : Bool :=
  (match kind with
   | 0 => [1000000, 500000, 250000, 125000].contains period && den == 1
   | 1 => period == 120000000 && den == 208
   | 2 => decide (1000000 ≤ period) && decide (period ≤ 20000000) && period % 1000 == 0 && den == 1
   | _ => false) && decide (offset < period)

/-- Timeline `n`'s grid registers form a valid grid. -/
def Dev.gridValid (d : Dev) (n : Nat) : Bool :=
  gridOk (d.rf (TMU_TLn_CFG_KIND n)) (d.rf (TMU_TLn_PERIOD n)) (d.rf (TMU_TLn_DEN n)) (d.rf (TMU_TLn_OFFSET n))

/-- The first boundary of timeline `n` whose seal point is later than `t`; 0 while the timeline is disabled: the switch waits,
and is judged when the timeline starts (assumption log). -/
def Dev.sealAfter (d : Dev) (n t : Nat) : Nat :=
  if !d.flag (TMU_TLn_CTL_ENABLE n) then 0
  else
    let k := d.gridIndex n (t + usT 8) + 1
    max (d.tl n).nextK (if t + usT 8 < d.boundaryT n (k - 1) then k - 1 else k)

/-- ENABLE rises: the first boundary is the first whose event falls in a later tick (R46); switches that waited find their boundary (R228, R286). -/
def Dev.timelineStart (d : Dev) (n : Nat) : Dev :=
  let k := d.gridIndex n d.now
  let first := if d.now < d.boundaryT n k then k else k + 1
  let d1 := (d.setTl n { d.tl n with started := false, nextK := first, released := [] }).wf (TMU_TLn_PNUM n) 0
  { d1 with cal.arms := d1.cal.arms.map fun (a : Arm) => if a.tl = n ∧ a.k = 0 then { a with k := d1.sealAfter n (max d1.now a.after) } else a }

/-- ENABLE falls: the final fence, groups and effects of the timeline, and the enable commands that still wait (R46, R528,
R529). -/
def Dev.timelineStop (d : Dev) (n : Nat) : Dev :=
  let t := d.tl n
  let c := d.cancelLate (d.expires n (d.gridIndex n d.now) true)
  let d0 := (c.setFlag (TMU_TLn_CTL_ENABLE n) false).setTl n { t with started := false, released := [], enWait := [] }
  let d1 := d0.runFence n (d0.gridIndex n d0.now) true
  let d2 := (d1.armedOf n).foldl (fun d p => d.txnAbort p.1 rsnTimelineOff (d.txn p.1).target) d1
  let d3 := ((d2.discardTimeline n).armsStop n).setFlag (TMU_TLn_STS_RUNNING n) false
  t.enWait.foldl (fun d p => d.complete p.1 p.2 okS []) d3

/-- A write of TMU_TLn_CTL. -/
def Dev.timelineCtlWr (d : Dev) (init : Initiator) (n value : Nat) : Dev :=
  let off := rTMU_TLn_CTL n
  let f := TMU_TLn_CTL_ENABLE n
  let r := d.busWr init off value
  match r.2 with
  | .no => r.1
  | .yes _ =>
    if d.flag f == r.1.flag f then r.1
    else if r.1.flag f then
      if d.gridValid n then r.1.timelineStart n else (r.1.setFlag f false).regErr .ignored off init
    else r.1.timelineStop n
def execTimelineEnableWrite (init : Initiator) (n : Fin 4) (value : Word) (s : State) : Res :=
  s.act fun d => d.timelineCtlWr init n value.toNat
def execTimelineDisableWrite (init : Initiator) (n : Fin 4) (value : Word) (s : State) : Res :=
  s.act fun d => d.timelineCtlWr init n value.toNat

/-! ### Sealed points -/

/-- The seal point of boundary `k` of timeline `n` has passed: 8 µs before its instant (R61). A command accepted exactly then counts as
after it (DESIGN CHOICE, assumption log: the spec says before and after only). -/
def Dev.sealed (d : Dev) (n k : Nat) : Bool := decide (d.boundaryT n k ≤ d.now + usT 8)

end Sys2Proof.Machine
end

