-- ==== Sys2Proof/Machine/PmuBase.lean ====
section
/-! DEFINITION. The PMU's request queue and its refusals (R416, R418, R426). -/

namespace Sys2Proof.Machine

/-- Duration of W1: pod domains 2.0 µs, others 1.0 µs (R421). -/
def w1Time (dom : Nat) : Nat := if dom < 36 then usT 2 else usT 1

/-- The fence of stop `st` is lifted; the running sample of its statistics is PARTIAL (R322, R325). -/
def Dev.liftFence (d : Dev) (st : Nat) : Dev :=
  let d1 := (d.setFlag (LYR_STOP_s_STS_FENCED st) false).mSend 28 st
  if d.flag (LYR_STOP_s_STS_FENCED st) then { d1 with lyr.partialStops := d1.lyr.partialStops ++ [st] } else d1

/-- Stop `st` is fenced, by a message over ring M (R322). -/
def Dev.fenceStop (d : Dev) (st : Nat) : Dev :=
  ((d.setFlag (LYR_STOP_s_STS_FENCED st) true).setFlag (LYR_STOP_s_STS_DRAINED st) false).mSend 28 st

/-- The request waits to be carried out. -/
def PmuReq.waits (r : PmuReq) : Bool := r.phase == .queued

/-- Refresh RAMPING and QUEUED. -/
def Dev.pmuShow (d : Dev) : Dev :=
  let ramps := d.pmu.queue.any fun r => match r.phase with
    | .waking w _ => decide (d.now < w + w1Time r.dom)
    | _ => false
  (d.setFlag PMU_STS_RAMPING ramps).wf PMU_STS_QUEUED (d.pmu.queue.filter PmuReq.waits).length

/-- The domain is in a transition (R416). -/
def Dev.pmuBusy (d : Dev) (dom : Nat) : Bool := d.pmu.queue.any (·.dom == dom)
/-- A request enters the queue. -/
def Dev.pmuPush (d : Dev) (dom target : Nat) (src : PmuSrc) : Dev :=
  let r : PmuReq := ⟨dom, target, src, .queued⟩
  { d with pmu.queue := d.pmu.queue ++ [r] }.pmuShow
/-- The request for `dom` leaves the queue. -/
def Dev.pmuDrop (d : Dev) (dom : Nat) : Dev :=
  { d with pmu.queue := d.pmu.queue.filter fun (r : PmuReq) => r.dom != dom }.pmuShow
/-- Change the request for `dom`. -/
def Dev.pmuUpd (d : Dev) (dom : Nat) (f : PmuReq → PmuReq) : Dev :=
  { d with pmu.queue := d.pmu.queue.map fun (r : PmuReq) => if r.dom = dom then f r else r }.pmuShow
def Dev.pmuReq (d : Dev) (dom : Nat) : Option PmuReq := d.pmu.queue.find? (·.dom == dom)

/-- A refused transition is counted and its refuser recorded. -/
def Dev.pmuRefuse (d : Dev) (dom refuser source : Nat) : Dev :=
  ((d.bump (PMU_PDd_REFUSED dom)).wf (PMU_PDd_LAST_REFUSER dom) refuser).wf (PMU_PDd_LAST_SOURCE dom) source

/-- The outcome of a request reaches where it came from: a POWER_SET completes. -/
def Dev.pmuAnswer (d : Dev) (src : PmuSrc) (status : Nat) : Dev :=
  match src with
  | .cmd q tag => d.complete q tag status []
  | _ => d

/-- A domain is in state `st`; a change is counted (R426). -/
def Dev.setDom (d : Dev) (dom st : Nat) : Dev := d.wf (PMU_PDd_STS_STATE dom) st
/-- A completed state change. -/
def Dev.enterState (d : Dev) (dom st : Nat) : Dev := (d.setDom dom st).bump (PMU_PDd_TRANSITIONS dom)

/-! ### Wakes and votes of cores (R142, R143, R420) -/

/-- The cores of pod domain A or B (R412); of any other domain, none. -/
def domCores (dom : Nat) : List Nat :=
  if 36 ≤ dom then []
  else if dom % 3 = 0 then (upTo 5).map (9 * (dom / 3) + ·)
  else if dom % 3 = 1 then (upTo 4).map (9 * (dom / 3) + 5 + ·) else []

/-- Source ID of core `c`'s lowest enabled latch that is set. -/
def Core.wakeSource (k : Core) : Option Nat :=
  let x := k.latches &&& k.getCr 0x09
  if x % 32 = 0 then none else some (0x10 + trailingZeros 5 x)
/-- Core `c` waits with a retain vote. -/
def Dev.votes (d : Dev) (c : Nat) : Bool := d.coreState c == 3 && (d.core c).getCr 0x08 == 1
/-- Every core of the domain but those stopped, which are in OFF (R142, assumption log), votes RETAIN, and some does. -/
def Dev.allVote (d : Dev) (dom : Nat) : Bool :=
  (domCores dom).any d.votes && (domCores dom).all fun c => d.votes c || d.coreState c == 0
/-- Refresh VOTE. -/
def Dev.showVote (d : Dev) (dom : Nat) : Dev := d.setFlag (PMU_PDd_STS_VOTE dom) (d.allVote dom)

/-- A vote-driven entry that has not begun is dropped once not every core of the domain votes (R142): no refusal. -/
def Dev.voteWithdraw (d : Dev) (dom : Nat) : Dev :=
  match d.pmuReq dom with
  | some ⟨_, 2, .vote, .queued⟩ => if d.allVote dom then d else d.pmuDrop dom
  | _ => d

/-- The last core of its domain has entered WAIT with RETAIN_VOTE: one attempt (R420); in a transition it is refused. -/
def Dev.retainVote (d : Dev) (c : Nat) : Dev :=
  let dom := coreDom c
  let d1 := d.showVote dom
  if d1.allVote dom && !d1.pmuBusy dom && d1.domRun dom then d1.pmuPush dom 2 .vote else d1

end Sys2Proof.Machine
end

