-- ==== Sys2Proof/Machine/DspSys.lean ====
section
/-! DEFINITION. Far accesses, the core DMA, dispatcher calls, WAIT and wakes, control registers, fault return, and the
core's CTL register (R104, R126-R128, R141-R148, R160-R167). -/

namespace Sys2Proof.Machine

/-! ### Reset and control of a core (R121, R148, R166, R174) -/

/-- Reset core `c`: registers, tickets, tentative coprocessor work; its local memory and the job the dispatcher shows stay. -/
def Dev.coreReset (d : Dev) (c : Nat) : Dev :=
  let p := c / 9
  let i := c % 9
  let d1 := d.cpxCancelAll c
  let d2 := { d1 with pods.cpx := d1.pods.cpx.map fun (x : CpxInst) => if x.core = c then { x with wakes := false } else x,
                      wds.waiting := Tab.del d1.wds.waiting c }
  let d3 := d2.updCore c fun k => { Core.resetWith k.mem with job := k.job }
  let d4 := (((((d3.wf (POD_DMA_c_STS_INFLIGHT p i) 0).wf (POD_CORE_c_FLT_CAUSE p i) 0).wf (POD_CORE_c_FLT_ELEMENT p i) 0xFF).wf
    (POD_CORE_c_FLT_PC p i) 0).wf (POD_CORE_c_FLT_ADDR p i) 0).setFlag (POD_CORE_c_STS_IN_HANDLER p i) false
  ((d4.setCoreState c (d4.rf (POD_CORE_c_CTL_RUN p i))).showVote (coreDom c)).voteWithdraw (coreDom c)

/-- RUN rises: the core runs from PC 0. -/
def Dev.coreStart (d : Dev) (c : Nat) : Dev := (d.updCore c fun k => { k with pc := 0 }).setCoreState c 1
/-- RUN falls: what the core sent ahead of its commits is cancelled (R172). -/
def Dev.coreStop (d : Dev) (c : Nat) : Dev :=
  let d := if (d.core c).tent.isEmpty then d else d.squash c
  (({ d with wds.waiting := Tab.del d.wds.waiting c }.setCoreState c 0).showVote (coreDom c)).voteWithdraw (coreDom c)

/-- A write of POD_CORE_c_CTL: RUN, RESET and DOORBELL. -/
def Dev.coreCtlWr (d : Dev) (init : Initiator) (c value : Nat) : Dev :=
  let off := rPOD_CORE_c_CTL (c / 9) (c % 9)
  let f := POD_CORE_c_CTL_RUN (c / 9) (c % 9)
  let r := d.busWr init off value
  match r.2 with
  | .no => r.1
  | .yes cmds =>
    let stops := d.flag f && !r.1.flag f
    let veto := stops && (d.core c).job.isSome && !d.wds.hung.contains c
    let d1 := if veto then (r.1.setFlag f true).regErr .ignored off init
      else if stops then r.1.coreStop c
      else if !d.flag f && r.1.flag f then r.1.coreStart c else r.1
    let d2 := if bitAt cmds 1 then d1.coreReset c else d1
    if bitAt cmds 2 then d2.setLatch c 2 else d2
def execCoreRunWrite (init : Initiator) (c : Fin 108) (value : Word) (s : State) : Res :=
  s.act fun d => d.coreCtlWr init c value.toNat
def execCoreReset (init : Initiator) (c : Fin 108) (value : Word) (s : State) : Res :=
  s.act fun d => d.coreCtlWr init c value.toNat
def execCoreDoorbell (init : Initiator) (c : Fin 108) (value : Word) (s : State) : Res :=
  s.act fun d => d.coreCtlWr init c value.toNat

/-! ### Far accesses (R128) -/

/-- The far byte address {XHI, Sa}. -/
def farAddr (w : Nat) (k : Core) : Nat := k.getCr 0x0D % 256 * 2 ^ 32 + (k.getS (fA w)).toNat

/-- A register of pod `p`'s own POD_ and CPX_ windows. -/
def ownReg (p off : Nat) : Bool := blockOf off == 0x10 + p || blockOf off == 0x20 + p

/-- A permitted far target for a core of pod `p`. -/
def farPermitted (p a : Nat) : Bool :=
  match placeOf a with
  | .reg off => ownReg p off
  | .host _ | .none => false
  | _ => true

/-- The domain of the register at `off` answers. -/
def Dev.regOn (d : Dev) (off : Nat) : Bool :=
  match regAt off with
  | some (f, idx) => d.domOn (regDomain f.dom off (nth 0 idx 0))
  | none => true

/-- A register write by a core of pod `p` to its own pod. -/
def Dev.podRegWr (d : Dev) (p off value : Nat) (h : p < 12) : Dev :=
  match (upTo 9).find? fun i => off == rPOD_CORE_c_CTL p i with
  | some i => d.coreCtlWr (.pod ⟨p, h⟩) (9 * p + i) value
  | none => d.busReg (.pod ⟨p, h⟩) off value

/-- The pod of a core is one of 12. -/
theorem podLt (c : Fin 108) : c.val / 9 < 12 := by omega

/-- The checks of LDF and STF, then `f` on the address: ILLEGAL, ALIGN, PROTECTION. -/
def Dev.far (d : Dev) (c : Fin 108) (w : Nat) (f : Nat → Dev × Option InsnRes) : Dev :=
  let k := d.core c
  let a := farAddr w k
  let r : Dev × Option InsnRes :=
    if fImm w != 0 then (d, some illegal)
    else if a % 4 != 0 then (d, some (.fault 0x02 a 0xFF))
    else if !farPermitted (c / 9) a then (d, some (.fault 0x04 a 0xFF))
    else f a
  r.1.dspFinish c (r.2.getD (.fault 0x06 a 0xFF))

/-- LDF. -/
def Dev.ldf (d : Dev) (c : Fin 108) (w : Nat) : Dev :=
  d.far c w fun a =>
    let put (v : Nat) : InsnRes := .done ((d.core c).setSN (fD w) v).adv
    match placeOf a with
    | .reg off =>
      let r := d.busRd (.pod ⟨c / 9, podLt c⟩) off
      (r.1, if d.regOn off then some (put r.2) else none)
    | _ =>
      let r := d.busRead (c / 9) a 4
      (r.1, r.2.map fun bs => put (ofLeBytes bs))
def execLdf (c : Fin 108) (w : Word) (s : State) : Res := s.dspRow 0x1E c w fun d => d.ldf c w.toNat

/-- STF. -/
def Dev.stf (d : Dev) (c : Fin 108) (w : Nat) : Dev :=
  d.far c w fun a =>
    let v := ((d.core c).getS (fD w)).toNat
    match placeOf a with
    | .reg off =>
      let d1 := d.podRegWr (c / 9) off v (podLt c)
      -- a core that resets itself is at PC 0 and executes nothing more (R121, R148)
      let resets := off == rPOD_CORE_c_CTL (c / 9) (c % 9) && d.regOn off && bitAt v 1 && bitAt v 17
      (d1, if resets then some .waits else if d.regOn off then some (.done (d1.core c).adv) else none)
    | _ =>
      let r := d.busWrite (c / 9) (d.jobTag c) a (leBytes 4 v)
      (r.1, if r.2 then some (.done (r.1.core c).adv) else none)
def execStf (c : Fin 108) (w : Word) (s : State) : Res := s.dspRow 0x1F c w fun d => d.stf c w.toNat

/-! ### The core DMA (R160-R167) -/

/-- A DMA descriptor (R160), less word 14 and 15, and whether its reserved bits and encodings are clear. -/
structure DmaDesc where
  dir : Nat
  format : Nat
  cls : Nat
  far : Nat
  loc : Nat
  len : Nat
  rows : Nat
  fstride : Int
  lstride : Int
  clean : Bool
  deriving DecidableEq, Repr

/-- Read the descriptor at local word `a`. -/
def Core.dmaDesc (k : Core) (a : Nat) : DmaDesc :=
  let w (i : Nat) := k.word (a + i)
  { dir := bitsAt (w 0) 0 2, format := bitsAt (w 0) 2 2, cls := bitsAt (w 0) 4 2,
    far := w 1 + 2 ^ 12 * w 2 + 2 ^ 24 * w 3 + 2 ^ 36 * bitsAt (w 4) 0 4,
    loc := w 5 + 2 ^ 12 * bitsAt (w 6) 0 6, len := w 7 + 2 ^ 12 * bitsAt (w 8) 0 7, rows := w 9,
    fstride := toSigned 24 (w 10 + 2 ^ 12 * w 11), lstride := toSigned 18 (w 12 + 2 ^ 12 * bitsAt (w 13) 0 6),
    clean := bitsAt (w 0) 6 6 == 0 && bitsAt (w 4) 4 8 == 0 && bitsAt (w 6) 6 6 == 0 && bitsAt (w 8) 7 5 == 0 &&
      bitsAt (w 13) 6 6 == 0 }

/-- First local word and first far byte of row `r`. -/
def rowLoc (x : Nat) (stride : Int) (r : Nat) : Int := x + r * stride
def rowFar (x : Nat) (stride : Int) (r : Nat) : Nat := ofSigned 40 (x + r * stride)

/-- The local span (R163). -/
def DmaDesc.span (x : DmaDesc) : Int × Int :=
  let a := rowLoc x.loc x.lstride 0
  let b := rowLoc x.loc x.lstride (x.rows - 1)
  (min a b, max a b + x.len - 1)

/-- The conditions of R161 for core `c` and the descriptor at `a`. -/
def DmaDesc.bad (x : DmaDesc) (c a : Nat) : Bool :=
  let s := x.span
  let empty := x.len == 0 || x.rows == 0
  let own (f : Nat) : Bool := match placeOf f with | .ldm i _ => i == c | _ => false
  !x.clean || decide (2 ≤ x.dir) || decide (2 ≤ x.format) || x.cls == 0 || decide (262144 < x.len) ||
  (x.format == 0 && x.len % 2 == 1) || (!empty && (decide (s.1 < 0) || decide (0x3FFFF < s.2) ||
    (wordsFrom a 16).any fun v => decide (s.1 ≤ v) && decide ((v : Int) ≤ s.2))) || own x.far ||
  (upTo x.rows).any fun r => own (rowFar x.far x.fstride r)

/-- Write words 14 and 15, count the transfer and set DMA_DONE (R165, R167). -/
def Dev.dmaRecord (d : Dev) (c desc status rowsDone : Nat) (sat : Bool) : Dev :=
  let p := c / 9
  let i := c % 9
  let d1 := d.updCore c fun k => (k.setWord (desc + 14) (status + 16 * b2n sat + 32)).setWord (desc + 15) rowsDone
  let d2 := d1.bump (POD_DMA_c_DONE p i)
  let d3 := if status = 0 then d2 else d2.bump (POD_DMA_c_ERR p i)
  (if sat then d3.bump (POD_DMA_c_SAT p i) else d3).setLatch c 0

/-- The words two spans share, if one of the transfers writes local memory (R163). -/
def clashOf (t u : Dma) : List (Nat × Nat) :=
  if (t.dir = 0 ∨ u.dir = 0) ∧ t.lo ≤ u.hi ∧ u.lo ≤ t.hi then [(max t.lo u.lo, min t.hi u.hi)] else []

/-- Start a transfer with the next ticket. -/
def Dev.dmaStart (d : Dev) (c : Nat) (t : Dma) : Dev :=
  let k := d.core c
  let n := k.nextTicket
  let t1 := { t with clash := k.dma.vals.flatMap (clashOf t) }
  let others := Tab.mapV (fun _ u => { u with clash := u.clash ++ clashOf t u }) k.dma
  (d.setCore c { k with nextTicket := (n + 1) % 16, dma := Tab.put others n t1 }).wf
    ⟨rPOD_DMA_c_STS (c / 9) (c % 9), n, 1⟩ 1

/-- DMA: the instruction. -/
def Dev.dmaInsn (d : Dev) (c : Nat) (w : Nat) : Dev :=
  let k := d.core c
  let a : Nat := (k.getS (fA w)).toNat % 2 ^ 18
  if fImm w != 0 then d.dspFinish c illegal
  else if a % 2 = 1 then d.dspFinish c (.fault 0x02 a 0xFF)
  else match k.accessFault ((wordsFrom a 16).map fun x => (x, false)) with
  | some f => d.dspFinish c f
  | none =>
    let n := k.nextTicket
    if (Tab.find k.dma n).isSome then d.dspFinish c .waits
    else
      let x := k.dmaDesc a
      let k1 := (k.setSN (fD w) n).adv
      let d1 := d.dspFinish c (.done k1)
      let atOnce (st : Nat) : Dev :=
        (d1.updCore c fun k => { k with nextTicket := (n + 1) % 16 }).dmaRecord c a st 0 false
      if x.bad c a then atOnce 1
      else if x.len = 0 ∨ x.rows = 0 then atOnce 0
      else
        let tag := d.jobTag c
        d1.dmaStart c ⟨a, x.dir, x.format, x.cls, x.far, x.loc, x.len, x.rows, x.fstride, x.lstride, x.span.1.toNat,
          x.span.2.toNat, true, tag.map (·.2), (tag.map (·.1)).getD 0, []⟩
def execDma (c : Fin 108) (w : Word) (s : State) : Res := s.dspRow 0x30 c w fun d => d.dmaInsn c w.toNat

/-- The words a list of far bytes holds (R162). -/
def wordsOfBytes (format : Nat) (bs : List Byte) : List Nat :=
  if format = 0 then
    (upTo (bs.length / 3)).flatMap fun g => let v := leAt bs (3 * g) 3; [v % 4096, v / 4096]
  else bs.map fun b => ofSigned 12 (toSigned 8 b.toNat)

/-- The far bytes of local words, and whether a value saturated. -/
def bytesOfWords (format : Nat) (ws : List Nat) : List Byte × Bool :=
  if format = 0 then
    ((upTo (ws.length / 2)).flatMap fun g => leBytes 3 (nth 0 ws (2 * g) + 4096 * nth 0 ws (2 * g + 1)), false)
  else (ws.map fun x => BitVec.ofNat 8 (ofSigned 8 (satSigned 8 (toSigned 12 x))),
    ws.any fun x => satSigned 8 (toSigned 12 x) != toSigned 12 x)

/-- The first piece of a write that fails, and how many bytes come before it. -/
def Dev.firstFail (d : Dev) (cls src : Nat) (job : Option (Nat × Nat)) : List (Nat × Nat) → Nat → Option ((Nat × Nat) × Nat)
  | [], _ => none
  | p :: ps, n =>
    let st := (d.judgeC (some cls) src true job p.1 p.2).2
    if st = stOK ∨ st = stStale then d.firstFail cls src job ps (n + p.2) else some (p, n)

/-- How a row ended: the device, whether it is whole, whether a value saturated, local words written. -/
abbrev RowRes := Dev × Bool × Bool × Nat

/-- A piece of a transfer of core `c` that goes to a permitted target: one of R128, not the core's own byte view (R164). -/
def dmaPermitted (c a : Nat) : Bool :=
  farPermitted (c / 9) a && match placeOf a with | .ldm i _ => i != c | _ => true

/-- Bytes of the row of `n` far bytes at `a` before the first that lies in no permitted target. -/
def dmaReach (c a n : Nat) : Nat :=
  ((piecesOf a n).takeWhile fun p => dmaPermitted c p.1).foldl (fun m p => m + p.2) 0

/-- Row bytes read from the core's own pod's registers, register by register: of one read in part, the bytes named (R470); a target that is off
is an error (R128, R472). -/
def Dev.dmaRegRead (d : Dev) (c : Fin 108) : Nat → Nat → Nat → Dev × Option (List Byte)
  | 0, _, _ => (d, some [])
  | fuel + 1, off, n =>
    if n = 0 then (d, some [])
    else
      let reg := off / 4 * 4
      let m := min n (4 - off % 4)
      let r := d.busRd (.pod ⟨c / 9, podLt c⟩) reg
      if !d.regOn reg then (r.1, none)
      else
        let t := Dev.dmaRegRead r.1 c fuel (reg + 4) (n - m)
        (t.1, t.2.map (((leBytes 4 r.2).drop (off % 4)).take m ++ ·))
/-- Row bytes written to them: a register written in part is ignored, with NARROW. -/
def Dev.dmaRegWrite (d : Dev) (c : Fin 108) : Nat → Nat → List Byte → Dev × Bool
  | 0, _, _ => (d, true)
  | fuel + 1, off, bs =>
    if bs.isEmpty then (d, true)
    else
      let reg := off / 4 * 4
      let m := min bs.length (4 - off % 4)
      let e := if m = 4 then d.podRegWr (c / 9) reg (leAt bs 0 4) (podLt c) else d.regErr .narrow off (.pod ⟨c / 9, podLt c⟩)
      if m = 4 && !d.regOn reg then (e, false) else Dev.dmaRegWrite e c fuel (reg + 4) (bs.drop m)
/-- `n` bytes from an unaligned start that are not one narrow access: ALIGN (R470). -/
def regSkew (off n : Nat) : Bool := off % 4 != 0 && !(n == 1 || (n == 2 && off % 2 == 0))

/-- Row `r` of an IN transfer: a failing row may have written a part, how much is a free value (R164). -/
def Dev.dmaIn (d : Dev) (c : Fin 108) (t : Dma) (r : Nat) : RowRes :=
  let a := rowFar t.far t.fstride r
  let n := if t.format = 0 then 3 * t.len / 2 else t.len
  let put (d : Dev) (ws : List Nat) : Dev :=
    d.updCore c fun k => k.setWords ((upTo ws.length).map fun i => ((rowLoc t.loc t.lstride r).toNat + i, nth 0 ws i))
  match placeOf a with
  | .reg off =>
    if dmaReach c a n != n then (d, false, false, 0)
    else
      match (if regSkew off n then (d.regErr .align off (.pod ⟨c / 9, podLt c⟩), some (List.replicate n 0xFF)) else d.dmaRegRead c (n / 4 + 1) off n) with
      | (d1, some bs) => (put d1 (wordsOfBytes t.format bs), true, false, t.len)
      | (d1, none) => (d1, false, false, 0)
  | _ =>
    let m := dmaReach c a n
    let x := d.rdBytesC (some t.cls) (c / 9) a m
    let ws := wordsOfBytes t.format x.2.2
    if x.2.1 = stOK ∧ m = n then (put x.1 ws, true, false, t.len)
    else
      let f := x.1.fresh (ws.length + 1)
      (put f.1 (ws.take f.2), false, false, f.2)

/-- Row `r` of an OUT transfer. -/
def Dev.dmaOut (d : Dev) (c : Fin 108) (t : Dma) (r : Nat) : RowRes :=
  let a := rowFar t.far t.fstride r
  let job := t.tag.map fun p => (t.tl, p)
  let ws := (upTo t.len).map fun i => (d.core c).word ((rowLoc t.loc t.lstride r).toNat + i)
  let b := bytesOfWords t.format ws
  let n := b.1.length
  match placeOf a with
  | .reg off =>
    if dmaReach c a n != n then (d, false, b.2, 0)
    else
      let x := if regSkew off n then (d.regErr .align off (.pod ⟨c / 9, podLt c⟩), true) else d.dmaRegWrite c (n / 4 + 1) off b.1
      (x.1, x.2, b.2, 0)
  | _ =>
    let m := dmaReach c a n
    match d.firstFail t.cls (c / 9) job (piecesOf a m) 0 with
    | none =>
      if m = n then ((d.wrBytesC (some t.cls) (c / 9) job a b.1).1, true, b.2, 0)
      else
        let f := d.fresh (m + 1)
        ((f.1.wrBytesC (some t.cls) (c / 9) job a (b.1.take f.2)).1, false, b.2, 0)
    | some (p, k) =>
      let f := d.fresh (k + 1)
      (((f.1.wrBytesC (some t.cls) (c / 9) job a (b.1.take f.2)).1.judgeC (some t.cls) (c / 9) true job p.1 p.2).1, false, b.2, 0)

/-- How the rows of a transfer ended. -/
structure RowsRes where
  dev : Dev
  status : Nat
  rows : Nat
  sat : Bool
  /-- First local word of each row written into, and how many. -/
  wrote : List (Nat × Nat)

/-- The rows from `r` on. A core reset that the transfer itself caused stops it (R166). -/
def Dev.dmaRows (c : Fin 108) (n : Nat) (t : Dma) : Nat → Nat → RowsRes → RowsRes
  | 0, _, x => x
  | fuel + 1, r, x =>
    if (Tab.find (x.dev.core c).dma n).isNone then x
    else
      let y : RowRes := if !dmaPermitted c (rowFar t.far t.fstride r) then (x.dev, false, false, 0)
        else if t.dir = 0 then x.dev.dmaIn c t r else x.dev.dmaOut c t r
      let z : RowsRes := { dev := y.1, status := 0, rows := r + 1, sat := x.sat || y.2.2.1,
                           wrote := ((rowLoc t.loc t.lstride r).toNat, y.2.2.2) :: x.wrote }
      if y.2.1 then Dev.dmaRows c n t fuel (r + 1) z else { z with status := 2, rows := r }

/-- Words of a shared range that the transfer wrote: each is a free value (R163). -/
def Dev.dmaClash (d : Dev) (c : Nat) (shared wrote : List (Nat × Nat)) : Dev :=
  (shared.flatMap fun p => wrote.map fun w => (max p.1 w.1, min (p.2 + 1) (w.1 + w.2))).foldl (fun d p =>
    { d.updCore c (fun k => k.setWords ((upTo (p.2 - p.1)).map fun i => (p.1 + i, Config.freeAt d.free i % 4096))) with
      free := d.free + 1 }) d

/-- DMA_COMPLETE: the transfer of ticket `t` finishes: record, ticket, guard, latch (R165). -/
def Dev.dmaComplete (d : Dev) (c : Fin 108) (n : Nat) : Dev :=
  match Tab.find (d.core c).dma n with
  | none => d
  | some t =>
    let x := Dev.dmaRows c n t t.rows 0 ⟨d, 0, 0, false, []⟩
    if (Tab.find (x.dev.core c).dma n).isNone then x.dev
    else
      let d2 := (x.dev.dmaClash c t.clash x.wrote).dmaRecord c t.desc x.status x.rows x.sat
      (d2.updCore c fun k => { k with dma := Tab.del k.dma n }).wf ⟨rPOD_DMA_c_STS (c / 9) (c % 9), n, 1⟩ 0
def execDmaComplete (c : Fin 108) (ticket : Fin 16) (s : State) : Res :=
  s.act fun d => if d.domRun (coreDom c) then d.dmaComplete c ticket else d

/-- DMAWAIT. -/
def insnDmawait (w : Nat) (k : Core) : InsnRes :=
  legalThen (fD w == 0 && fImm w == 0)
    (if (Tab.find k.dma ((k.getS (fA w)).toNat % 16)).isSome then .waits else .done k.adv)
def execDmawait (c : Fin 108) (w : Word) (s : State) : Res := s.dsp 0x31 c w insnDmawait

/-! ### Dispatcher calls (R104, R141) -/

/-- An SY word with nothing in its fields. -/
def syOk (w : Nat) : Bool := bitsAt w 0 26 == 0
/-- The WDS_HANDLE fault: FADDR is S0. -/
def wdsFault (k : Core) : InsnRes := .fault 0x07 (k.getS 0).toNat 0xFF

/-- WAITJOB. -/
def Dev.waitjob (d : Dev) (c w : Nat) : Dev :=
  if !syOk w then d.dspFinish c illegal
  else if (d.core c).job.isSome then d.dspFinish c (wdsFault (d.core c))
  else
    let x := d.stamp
    { x.1 with wds.waiting := Tab.put x.1.wds.waiting c x.2 }.setCoreState c 2
def execWaitjob (c : Fin 108) (w : Word) (s : State) : Res := s.dspRow 0x34 c w fun d => d.waitjob c w.toNat

/-- JOBCHK. -/
def Dev.jobchk (d : Dev) (c w : Nat) : Dev :=
  let k := d.core c
  let v := match k.job with
    | none => 2 ^ 15
    | some s => match d.job s with
      | some j => b2n (j.state == .stop)
      | none => 0
  d.dspFinish c (if syOk w then .done (k.setSN 0 v).adv else illegal)
def execJobchk (c : Fin 108) (w : Word) (s : State) : Res := s.dspRow 0x35 c w fun d => d.jobchk c w.toNat

/-- JOBDONE. -/
def Dev.jobdone (d : Dev) (c w : Nat) : Dev :=
  let k := d.core c
  if !syOk w then d.dspFinish c illegal
  else match k.job with
  | none => d.dspFinish c (wdsFault k)
  | some sl => match d.job sl with
    | none => d.dspFinish c (wdsFault k)
    | some j =>
      if (k.getS 0).toNat = sl + 2 ^ 14 * j.desc.tl then
        let r := d.jobEnd c sl j
        r.1.dspFinish c (.done ((r.1.core c).setSN 0 (b2n r.2)).adv)
      else d.dspFinish c (wdsFault k)
def execJobdone (c : Fin 108) (w : Word) (s : State) : Res := s.dspRow 0x36 c w fun d => d.jobdone c w.toNat

/-! ### WAIT and wakes (R142, R143) -/

/-- A WAIT ends: WAIT_STATUS is written, the enabled latches cleared. -/
def Core.waitEnd (k : Core) (status source : Nat) : Core :=
  { (k.setCr 0x0A (status + 2 ^ 8 * source)) with latches := k.latches &&& (31 - k.getCr 0x09 % 32) }

/-- WAIT. -/
def Dev.waitInsn (d : Dev) (c w : Nat) : Dev :=
  let k := d.core c
  if !syOk w then d.dspFinish c illegal
  else if k.getCr 0x09 = 0 then d.dspFinish c (.done (k.waitEnd 2 0).adv)
  else match k.wakeSource with
  | some src =>
    ((d.pmuRefuse (coreDom c) 0x01 src).bump (POD_CORE_c_WAIT_ABORTS (c / 9) (c % 9))).dspFinish c (.done (k.waitEnd 2 src).adv)
  | none => (d.setCoreState c 3).retainVote c
def execWait (c : Fin 108) (w : Word) (s : State) : Res := s.dspRow 0x37 c w fun d => d.waitInsn c w.toNat

/-- CORE_WAKE: an enabled latch wakes core `c`; from a retained domain it starts a switch-on first (R142, R419). -/
def Dev.coreWake (d : Dev) (c : Nat) : Dev :=
  if d.coreState c != 3 then d
  else match (d.core c).wakeSource with
  | none => d
  | some src =>
    let dom := coreDom c
    if d.domRun dom then
      (((d.setCoreState c 1).dspFinish c (.done ((d.core c).waitEnd 1 src).adv)).showVote dom).voteWithdraw dom
    else if d.dom dom = 2 && !d.pmuBusy dom then d.pmuPush dom 0 .vote
    else match d.pmuReq dom with
    | some r => match r.phase with
      | .draining _ => (((d.pmuRefuse dom 0x01 src).setDom dom 0).pmuAnswer r.src busyS).pmuDrop dom
      | _ => d
    | none => d
/-- A debug request to core `c` sets its DEBUG latch (R142). It takes an open session of a level that halts and steps cores, 2 or 3
(R456, assumption log). -/
def Dev.debugRequest (d : Dev) (c : Nat) : Dev := if 2 ≤ d.rf SEC_DEBUG_STS_LEVEL then d.setLatch c 4 else d
/-- CORE_WAKE of a core; the flag says a debug request comes with it, the one wake source no other row raises. -/
def execCoreWake (cause : Fin 108 × Bool) (s : State) : Res :=
  s.act fun d => (if cause.2 then d.debugRequest cause.1 else d).coreWake cause.1

/-! ### Control registers (R147) -/

/-- Mask of the CTL and CNT bits of a control register kept as a plain number. -/
def crMask (n : Nat) : Nat :=
  if n = 0x01 then 2 ^ 21 - 1
  else if n = 0x06 then 1
  else if n = 0x09 then 31
  else if n = 0x0D then 255
  else if n = 0x0E ∨ n = 0x0F then 2 ^ 32 - 1
  else if 0x10 ≤ n ∧ n < 0x18 then (if n % 2 = 0 then 0xE003FFFF else 0x3FFFF)
  else 0

/-- MFC's value; a number not listed reads 0. -/
def Core.readCr (k : Core) (c n : Nat) : Nat :=
  if n = 0 then c
  else if n = 0x07 then k.gov + 2 ^ 8 * k.esat + 2 ^ 16 * k.satMode
  else if n = 0x0C then k.cyclesHi
  else if 0x18 ≤ n ∧ n ≤ 0x1A then
    match nth none (k.loops.reverse.map some) (n - 0x18) with
    | some l => l.count
    | none => 0
  else k.getCr n

/-- MTC's effect; STS fields and numbers not listed keep their values, PWR_MODE refuses 2 and 3. -/
def Core.writeCr (k : Core) (n v : Nat) : Core :=
  if n = 0x08 then (if v % 4 < 2 then k.setCr 0x08 (v % 4) else k)
  else if n = 0x0B then { k with cycles := putBits k.cycles 0 32 v }
  else if n = 0x0C then { k with cyclesHi := v % 2 ^ 32 }
  else if crMask n = 0 then k
  else k.setCr n (v &&& crMask n)

/-- MFC: reading CYCLES_LO settles the cycles run, a free value, and latches the upper half. -/
def Dev.mfc (d : Dev) (c w : Nat) : Dev :=
  let k := d.core c
  let n := bitsAt w 8 8
  if bitsAt w 0 8 != 0 then d.dspFinish c illegal
  else if n = 0x0B then
    let cy := (k.cycles + Config.coreCycles d.free) % 2 ^ 64
    { d with free := d.free + 1 }.dspFinish c
      (.done ({ k with cycles := cy, cyclesHi := cy / 2 ^ 32 }.setSN (fD w) (cy % 2 ^ 32)).adv)
  else d.dspFinish c (.done (k.setSN (fD w) (k.readCr c n)).adv)
def execMfc (c : Fin 108) (w : Word) (s : State) : Res := s.dspRow 0x38 c w fun d => d.mfc c w.toNat

/-- MTC. Its SD field, and MFC's SA field, are not shown as 0 (R136) and are ignored. -/
def insnMtc (w : Nat) (k : Core) : InsnRes :=
  legalThen (bitsAt w 0 8 == 0) (.done (k.writeCr (bitsAt w 8 8) (k.getS (fA w)).toNat).adv)
def execMtc (c : Fin 108) (w : Word) (s : State) : Res := s.dsp 0x39 c w insnMtc

/-- MBAR: the store buffer drains at once and far stores are serialising (assumption log), so it completes. -/
def insnMbar (w : Nat) (k : Core) : InsnRes := legalThen (syOk w) (.done k.adv)
def execMbar (c : Fin 108) (w : Word) (s : State) : Res := s.dsp 0x3A c w insnMbar

/-! ### Faults (R144, R145) -/

/-- RFE. -/
def Dev.rfe (d : Dev) (c w : Nat) : Dev :=
  let k := d.core c
  if bitsAt w 1 25 != 0 || !k.inHandler then d.dspFinish c illegal
  else
    let d1 := d.dspFinish c (.done { k.setInHandler false with pc := (k.getCr 0x02 + w % 2) % 2 ^ 21 })
    d1.setFlag (POD_CORE_c_STS_IN_HANDLER (c / 9) (c % 9)) false
def execRfe (c : Fin 108) (w : Word) (s : State) : Res := s.dspRow 0x19 c w fun d => d.rfe c w.toNat

/-- BKPT. -/
def insnBkpt (w : Nat) (_ : Core) : InsnRes := legalThen (syOk w) (.fault 0x09 0 0xFF)
def execBkpt (c : Fin 108) (w : Word) (s : State) : Res := s.dsp 0x3F c w insnBkpt

end Sys2Proof.Machine
end

