-- ==== Sys2Proof/Machine/Wipe.lean ====
section
/-! DEFINITION. What a domain that goes OFF loses: its registers, its logic and its memories (R417, R421). -/

namespace Sys2Proof.Machine

/-- The register at `off` stands in domain `dom`. -/
def regIn (dom off : Nat) : Bool :=
  match regAt off with
  | some (f, idx) => regDomain f.dom off (nth 0 idx 0) == dom
  | none => false

/-- Every register of the domain is at its reset value. -/
def Dev.wipeRegs (d : Dev) (dom : Nat) : Dev := { d with regs := Tab.keep (fun off _ => !regIn dom off) d.regs }

/-- Memory cells at the addresses `gone` names, and their poison marks, are lost. -/
def Dev.wipeCells (d : Dev) (gone : Nat → Bool) : Dev :=
  { d with mem.cells := d.mem.cells.filter fun p => !gone p.1, mem.poison := d.mem.poison.filter fun a => !gone a,
           mem.flaws := d.mem.flaws.filter fun p => !gone p.1 }

/-- The cores of a pod domain are lost whole; what their coprocessors still owe them wakes nothing. -/
def Dev.wipeCores (d : Dev) (cs : List Nat) : Dev :=
  cs.foldl (fun d c =>
    let d1 := d.cpxCancelAll c
    { d1 with pods.cpx := d1.pods.cpx.map fun (x : CpxInst) => if x.core = c then { x with wakes := false } else x,
              wds.waiting := Tab.del d1.wds.waiting c, cores := Tab.del d1.cores c }) d

/-- Pod `p` loses its memory, its image and what its units hold. -/
def Dev.wipePod (d : Dev) (p : Nat) : Dev :=
  { d with pods.mem := d.pods.mem.filter fun x => x.1 / 2 ^ 23 != p,
           pods.cpx := d.pods.cpx.filter fun i => i.core / 9 != p,
           pods.images := Tab.del d.pods.images p }

/-- The dispatcher loses every job, event and flow. -/
def Dev.wipeWds (d : Dev) : Dev :=
  { d with wds := Wds.reset, cores := Tab.mapV (fun _ (k : Core) => { k with job := none }) d.cores }

/-- DDR5 behind channel `k` loses its contents: unlisted bytes read as after power-on (assumption log). -/
def Dev.wipeDdr (d : Dev) (k : Nat) : Dev :=
  d.wipeCells fun a => match placeOf a with
    | .ddr x => d.ddrChannel x == some k
    | _ => false

/-- Spared cores stay masked, their spares unmasked (R478, R479). -/
def Dev.remask (d : Dev) : Dev :=
  d.pods.spared.foldl (fun d c => (d.wf ⟨rWDS_PODn_CORES (c / 9), c % 9, 1⟩ 1).wf ⟨rWDS_PODn_CORES (c / 9), 8, 1⟩ 0) d

/-- WDS_PODn_CAP is the smaller of the thermal cap and the power cap (R435), a dispatcher that is back among them. -/
def Dev.showCap (d : Dev) : Dev :=
  if !d.domOn 75 then d
  else ((upTo 12).foldl (fun e p => e.wf (WDS_PODn_CAP p) (min (d.rf THM_THROTTLE_CAP) d.thm.powerCap)) d).wdsSettle

/-- Bank `b` of the central buffer reads zeros again. -/
def Dev.wipeBank (d : Dev) (b : Nat) : Dev :=
  d.wipeCells fun a => match placeOf a with
    | .cbuf off => off / 4096 / 2048 == b
    | _ => false

/-- TMU time at which the front end's own time is `t`: they part when TMU time steps, or DEVCLK drifts, while the links run. -/
def Dev.feTime (d : Dev) (t : Nat) : Nat := match d.dfe.epoch with
  | some (s, e) => t + e - s
  | none => t
/-- The front end's own time now. -/
def Dev.feNow (d : Dev) : Nat := match d.dfe.epoch with
  | some (s, e) => d.now + s - e
  | none => d.now
/-- TMU time of the stamped SYSREF edge. -/
def Dev.stampT (d : Dev) : Nat := match d.dfe.epoch with
  | some (s, _) => s
  | none => 0
/-- Channel `n` is bound to a GSM carrier, and to which (R261). -/
def Dev.nbCarrier (d : Dev) (n : Nat) : Bool := d.rf (NBB_CHn_MOD_SRC n) == 1
def Dev.nbCc (d : Dev) (n : Nat) : Nat := d.rf (NBB_CHn_MOD_CC n)
/-- The user-plane pair of channel `n` as it is bound now: its carrier's, or its own (R82, R277). -/
def Dev.nbPair (d : Dev) (n : Nat) : Option Nat := Tab.find d.fw.bind (if d.nbCarrier n then d.nbCc n else 256 + n)
/-- NB_TX_DONE for packet `p` of channel `n`, on the pair bound now (R266); `flags` are bits 2-6 of byte 7, 0 for OK. A burst in the air stays its
carrier's. -/
def Dev.nbDone (d : Dev) (n : Nat) (p : NbPkt) (flags sent : Nat) : Dev :=
  let d1 := d.bump (if flags = 0 then NBB_CHn_TX_SENT n else NBB_CHn_TX_DROP n)
  let pair := match p.onAir.bind (·.feed) with
    | some f => Tab.find d.fw.bind f.cc
    | none => d.nbPair n
  d1.up (pair.getD p.pair) p.tag (if flags = 0 then 0 else 0x0201) 0x86 flags (upBody [(8, 1, n), (9, 1, p.tl), (10, 2, p.air), (12, 4, p.start), (16, 2, sent)])

/-- `c` symbols at three times the rate `rate3`, in units of `now`. -/
def symsT (rate3 c : Nat) : Nat := c * 3 * nsT 1000000000 / max 1 rate3
/-- Bits of a packet in the air that have been sent by now: those of its whole symbols. -/
def Dev.nbSent (d : Dev) (p : NbPkt) : Nat :=
  match p.onAir with
  | none => 0
  | some m => min p.bits ((d.feNow - p.t) * m.rate3 / (3 * nsT 1000000000) * (if m.modu = 2 then 2 else 1))
/-- The first ramp instant of a packet modulated so, its fall's start, and its end, in front-end time (R264, R265). -/
def NbPkt.rise (p : NbPkt) (m : NbMod) : Nat := p.t - symsT m.rate3 2
def NbPkt.fall (p : NbPkt) (m : NbMod) : Nat := match p.cut with
  | some (_, t) => t
  | none => p.t + symsT m.rate3 (p.bits / if m.modu = 2 then 2 else 1)
def NbPkt.gone (p : NbPkt) (m : NbMod) : Nat := p.fall m + symsT m.rate3 2
/-- The packets channel `n` holds are dropped with CUT; one in the air falls off over two symbols first, unless the modems lose power (R265). -/
def Dev.nbCut (d : Dev) (n : Nat) (power : Bool) : Dev :=
  let l := Tab.getD (fun _ => []) d.nbb.held n
  let fall (p : NbPkt) : Bool := power && p.onAir.isSome
  let stay := (l.filter fall).map fun p =>
    match p.onAir, p.cut with
    | some m, none => { p with cut := some (d.nbSent p, min (p.fall m) d.feNow) }
    | _, _ => p
  (l.filter fun p => !fall p).foldl (fun d p => d.nbDone n p 32 ((p.cut.map (·.1)).getD (d.nbSent p)))
    { d with nbb.held := Tab.setD (fun _ => []) d.nbb.held n stay }
/-- Every channel loses its packets. -/
def Dev.nbCutAll (d : Dev) (power : Bool) : Dev := (Tab.keys d.nbb.held).foldl (fun d n => d.nbCut n power) d

/-- Domain `dom` goes OFF: nothing is saved. -/
def Dev.wipe (d : Dev) (dom : Nat) : Dev :=
  let d1 : Dev :=
    if dom < 36 then (if dom % 3 = 2 then d.wipePod (dom / 3) else d.wipeCores (domCores dom))
    else if 63 ≤ dom ∧ dom < 67 then { d.wipeDdr (dom - 63) with mem.caps := Tab.put d.mem.caps (dom - 63) (d.chSize (dom - 63)) }
    else if 67 ≤ dom ∧ dom < 75 then d.wipeBank (dom - 67)
    else if 36 ≤ dom ∧ dom < 40 then { d with dfe.tx := d.dfe.tx.filter fun x => x.1 / 16 + 36 != dom }
    else if 40 ≤ dom ∧ dom < 44 then
      { d with dfe.prach := d.dfe.prach.filter fun p => p.1 / 8 + 40 != dom, dfe.rx := d.dfe.rx.filter fun x => x.1 / 16 + 40 != dom }
    else if dom = 44 then { d with nbb.chans := [], nbb.reports := [] }.nbCutAll true
    else if dom = 45 then d.nbCutAll false
    else if 57 ≤ dom ∧ dom < 61 then { d with eth.tsq := Tab.del d.eth.tsq (dom - 57), eth.saks := d.eth.saks.filter fun (x : Sak) => x.link / 4 != dom - 57 }
    else if dom = 62 then { d with eth.seqs := [], eth.syms := [] }
    else if dom = 75 then d.wipeWds
    else if dom = 77 then { d with marrow := Dev.reset.marrow, ledger := Ledger.reset }
    else d
  d1.wipeRegs dom

end Sys2Proof.Machine
end

