-- ==== Sys2Proof/Machine/Lane.lean ====
section
/-! DEFINITION. Lanes: the board table's lane section, lane start, locks, and service (R225, R257, R350-R357, R366, R371). -/

namespace Sys2Proof.Machine

/-! ### Lanes (R350) -/

def isCtx (i : Nat) : Bool := decide (i < 52)
def isCrx (i : Nat) : Bool := decide (52 ≤ i) && decide (i < 84)
def isEl (i : Nat) : Bool := decide (84 ≤ i) && decide (i < 104)
def isPl (i : Nat) : Bool := decide (104 ≤ i) && decide (i < 112)

/-- The full rate code a lane runs at: PL codes imply bit 5. -/
def Dev.laneRate (d : Dev) (i : Nat) : Nat := d.rf (ZTH_Li_STS_RATE i) + if isPl i then 0x20 else 0
def Dev.inService (d : Dev) (i : Nat) : Bool := d.flag (ZTH_Li_STS_IN_SERVICE i)
/-- A lane event (class 6, R356). -/
def Dev.laneEvent (d : Dev) (code lane rate res3 : Nat) : Dev := d.event 6 code lane rate res3

/-! ### The board table's lane section (R353-R355) -/

/-- A signed 6-bit tap at `lo` of a TX field, its magnitude. -/
def tapMag (tx lo : Nat) : Nat := (toSigned 6 (bitsAt tx lo 6)).natAbs

/-- The conditions of R354 on an entry alone. -/
def LaneEntry.good (e : LaneEntry) (rsv : Bool) : Bool :=
  let i := e.lane
  let hasTx := isCtx i || isEl i
  decide (i < 112) && bitAt e.flags 0 && decide (e.flags < 16) && !rsv &&
  (if isEl i then decide (0x10 ≤ e.rate) && decide (e.rate ≤ 0x12) && decide (1 ≤ e.req) && decide (e.req ≤ 3) && decide (e.window < 8)
   else if isPl i then decide (0x20 ≤ e.rate) && decide (e.rate ≤ 0x25) && decide (e.tx < 2 ^ 15) && e.window == 0
   else decide (1 ≤ e.rate) && decide (e.rate ≤ 3) && e.req == 0 && e.window == 0) &&
  (if isCrx i then e.tx == 0 else isPl i || decide (e.tx < 2 ^ 24)) && (if isCtx i then e.rx == 0 else decide (e.rx < 2 ^ 27)) &&
  (!hasTx || (let main := bitsAt e.tx 12 6
    decide (32 ≤ main) && decide (tapMag e.tx 0 + tapMag e.tx 6 + main + tapMag e.tx 18 ≤ 64)))

/-- Entry `n` of a lane section, and whether its bytes 13-15 are not 0. -/
def laneEntryAt (b : List Byte) (n : Nat) : LaneEntry × Bool :=
  let e := slice b (8 + 16 * n) 16
  (⟨leAt e 0 1, leAt e 1 1, leAt e 2 1, leAt e 3 1, leAt e 4 4, leAt e 8 4, leAt e 12 1⟩, leAt e 13 3 != 0)

/-- The entries in use of a lane section, and how many are ignored. -/
def laneSection (b : List Byte) : List LaneEntry × Nat :=
  (upTo (leAt b 0 2)).foldl (fun acc n =>
    let (e, rsv) := laneEntryAt b n
    if e.good rsv && !acc.1.any (fun x => x.lane == e.lane && x.rate == e.rate) then (acc.1 ++ [e], acc.2)
    else (acc.1, acc.2 + 1)) ([], 0)

/-- The entry of lane `i` at rate code `r`. -/
def Dev.entry (d : Dev) (i r : Nat) : Option LaneEntry := d.zth.entries.find? fun e => e.lane == i && e.rate == r

/-- The highest PCIe rate advertised (R360). -/
def maxGen (es : List LaneEntry) : Nat :=
  let has (r : Nat) : Bool := (upTo 8).all fun j => es.any fun e => e.lane == 104 + j && e.rate == 0x20 + r
  if !has 2 then 2 else if !has 3 then 3 else if !has 4 then 4 else if !has 5 then 5 else 6

/-- A lane section comes into use. -/
def Dev.loadLanes (d : Dev) (b : List Byte) : Dev :=
  let (es, ign) := laneSection b
  (({ d with zth.entries := es }.wf ZTH_BT_ENTRIES es.length).wf ZTH_BT_IGNORED ign).wf ZTH_PCIE_STS_MAXGEN (maxGen es)

/-- A lane starts at a rate (R355): its entry is loaded, or NO_ENTRY is set, raised once for the lane and rate, and the lane does
not start. PL lanes at 2.5 and 5 GT/s have built-in settings. -/
def Dev.laneStart (d : Dev) (i r : Nat) : Dev × Bool :=
  match d.entry i r with
  | some e =>
    let d1 := ((d.wf (ZTH_Li_STS_RATE i) (r % 32)).setFlag (ZTH_Li_STS_NO_ENTRY i) false)
    let d2 := if isCrx i then d1 else d1.wf (ZTH_Li_EQ_TX i) e.tx
    (if isCtx i then d2 else d2.wf (ZTH_Li_EQ_RX i) e.rx, true)
  | none =>
    if isPl i && decide (r ≤ 0x21) then ((d.wf (ZTH_Li_STS_RATE i) (r % 32)).setFlag (ZTH_Li_STS_NO_ENTRY i) false, true)
    else
      let d1 := d.setFlag (ZTH_Li_STS_NO_ENTRY i) true
      if d1.zth.noEntry.contains (i, r) then (d1, false)
      else ({ d1 with zth.noEntry := (i, r) :: d1.zth.noEntry }.laneEvent 4 i r 0, false)

/-! ### Service (R352, R366) -/

/-- A lane enters service: hardware clears its test fields; or leaves it, losing its locks. -/
def Dev.setService (d : Dev) (i : Nat) (b : Bool) : Dev :=
  let d1 := d.setFlag (ZTH_Li_STS_IN_SERVICE i) b
  if b then
    let d2 := ((d1.wf (ZTH_Li_CTL_LOOPBACK i) 0).wf (ZTH_Li_CTL_GEN i) 0).wf (ZTH_Li_CTL_CHK i) 0
    (if isCrx i then d2 else d2.wf (ZTH_Li_INJ_RATE i) 0).setFlag (ZTH_Li_STS_CHK_LOCK i) false
  else (d1.setFlag (ZTH_Li_STS_CDR_LOCK i) false).setFlag (ZTH_Li_STS_BLOCK_LOCK i) false

/-- A lane locks, or loses its locks. -/
def Dev.setLock (d : Dev) (i : Nat) (b : Bool) : Dev :=
  ((d.setFlag (ZTH_Li_STS_SIGNAL i) (b || d.flag (ZTH_Li_STS_SIGNAL i))).setFlag (ZTH_Li_STS_CDR_LOCK i) b).setFlag (ZTH_Li_STS_BLOCK_LOCK i) b

/-! ### Converter units (R225, R252, R257) -/

/-- Registers of link unit `u`: CTL, CFG, SPARE, PARAM0, PARAM1, STS, SHERR, CRCERR, RELINK by index. -/
def jReg (u i : Nat) : Nat := (jesdEnable u).off + 4 * i
def Dev.jRate (d : Dev) (u : Nat) : Nat := d.rf ⟨jReg u 1, 0, 2⟩
/-- Lane rate code of a unit's RATE. -/
def jCode (rate : Nat) : Nat := 3 - rate
/-- Lanes of unit `u` as the group numbers them, and its spare. -/
def unitLanes (u : Nat) : List Nat :=
  if u < 4 then (upTo 12).map (12 * u + ·) else if u < 8 then (upTo 6).map (52 + 6 * (u - 4) + ·) else (upTo 3).map (76 + 3 * (u - 8) + ·)
def unitSpare (u : Nat) : Nat := if u < 4 then 48 + u else if u < 8 then 82 + (u - 4) / 2 else 82 + (u - 8)
/-- SPARE.USE, SPARE.LANE and REMAP_PENDING of unit `u`. -/
def jUse (u : Nat) : Fld := ⟨jReg u 2, 4, 1⟩
def jSpareLane (u : Nat) : Fld := ⟨jReg u 2, 0, 4⟩
def jPending (u : Nat) : Fld := ⟨jReg u 5, 12, 1⟩
/-- Logical lane `i` of unit `u` as it runs: the spare once it has replaced it. -/
def Dev.unitLane (d : Dev) (u i : Nat) : Nat := if Tab.find d.dfe.spares u = some i then unitSpare u else nth 0 (unitLanes u) i

/-! ### Front-end time and links (R226, R255, R257) -/

/-- LINK_UP of link `i` of unit `u`. -/
def linkUpF (u i : Nat) : Fld := ⟨jReg u 5, i, 1⟩
/-- The key of a link. -/
def linkKey (u i : Nat) : Nat := 16 * u + i
/-- The data of link `i` of unit `u` ends now. -/
def Dev.linkEnds (d : Dev) (u i : Nat) : Dev :=
  { d with dfe.spans := Tab.upd d.dfe.spans (linkKey u i) fun l => l.map fun s => if s.2.isNone then (s.1, some d.feNow) else s }
/-- The links of unit `u` go down. -/
def Dev.linksDown (d : Dev) (u : Nat) : Dev := (upTo 12).foldl (fun d i => (d.linkEnds u i).setFlag (linkUpF u i) false) d

/-! ### Control lines (R250) -/

/-- Line `l` takes a level. -/
def Dev.setLine (d : Dev) (l : Nat) (b : Bool) : Dev := { d with dfe.lines := Tab.setD (fun _ => false) d.dfe.lines l b }
/-- Line `l` takes its LEVEL: a STATIC line at once; a line in a timed mode when the device is parked. -/
def Dev.lineRest (d : Dev) (l : Nat) : Dev := d.setLine l (d.flag (DFE_GPIO_l_CFG_LEVEL l))
def Dev.linesPark (d : Dev) : Dev :=
  (upTo 64).foldl (fun d l => if 2 ≤ d.rf (DFE_GPIO_l_CFG_MODE l) ∧ d.rf (DFE_GPIO_l_CFG_MODE l) ≤ 6 then d.lineRest l else d) d

/-! ### Service (R352, R371) -/

/-- The twin link is wanted: an attachment is under way, or this device is paired. -/
def Dev.twinWanted (d : Dev) : Bool := d.twin.attach.isSome || d.rf MGT_TWIN_STS_ROLE != 0

/-- The links of unit `u` run: an observation link while either of its TX groups is in RUN (R225). -/
def Dev.unitRuns (d : Dev) (u : Nat) : Bool := d.flag (jesdEnable u) && (decide (u < 8) || d.domRun (20 + 2 * u) || d.domRun (21 + 2 * u))
/-- Converter unit `u` holds lane `i`. -/
def Dev.unitHolds (d : Dev) (u i : Nat) : Bool :=
  d.unitRuns u &&
    (((upTo 12).any fun j => decide (j < (unitLanes u).length) && d.unitLane u j == i) || (unitSpare u == i && d.flag (jUse u)))
/-- A user holds the lane. -/
def Dev.held (d : Dev) (i : Nat) : Bool :=
  if i < 84 then (upTo 10).any fun u => d.unitHolds u i
  else if i < 100 then d.flag (ETH_Pp_CTL_ENABLE ((i - 84) / 4))
  else if i < 104 then d.twinWanted
  else d.domRun 62

/-- The PLL of lane `i` has locked. -/
def Dev.lanePll (d : Dev) (i : Nat) : Bool := d.flag (if i < 84 then CKR_PLL_STS_JESD_LOCK else if i < 104 then CKR_PLL_STS_ETH_LOCK else CKR_PLL_STS_PCIE_LOCK)
/-- Lane `i` can lock: its domain runs, its PLL has locked, and it has started (R355, R357). -/
def Dev.laneReady (d : Dev) (i : Nat) : Bool := d.domRun (laneDom i) && d.lanePll i && !d.flag (ZTH_Li_STS_NO_ENTRY i)
/-- A receive lane loses its locks; one that its user still holds raises LANE_LOST and counts, once until it locks again (R356). -/
def Dev.loseLock (d : Dev) (i : Nat) : Dev :=
  let had := d.flag (ZTH_Li_STS_CDR_LOCK i) || d.flag (ZTH_Li_STS_BLOCK_LOCK i)
  let d1 := d.setLock i false
  if !had || isCtx i || !d.inService i || !d.held i || !d.domOn (laneDom i) then d1
  else
    let d2 := (d1.laneEvent 1 i (d.laneRate i) 0).bump (ZTH_Li_LOCK_LOSS i)
    { d2 with zth.lostAt := Tab.put d2.zth.lostAt i d2.now }
/-- A lane locks; one that was lost and is still in service raises LANE_RESTORED (R356). -/
def Dev.lockAgain (d : Dev) (i : Nat) : Dev :=
  let d1 := d.setLock i true
  match Tab.find d.zth.lostAt i with
  | some t =>
    let d2 : Dev := { d1 with zth.lostAt := Tab.del d1.zth.lostAt i }
    if d.inService i then d2.laneEvent 2 i (d.laneRate i) ((d.now - t) / msT 1) else d2
  | none => d1

/-- Lane `i` is in service exactly while a user holds it; a converter lane that enters service loads its entry and starts. -/
def Dev.serviceOne (d : Dev) (i : Nat) : Dev :=
  let h := d.held i
  if !d.domOn (laneDom i) || h == d.inService i then d
  else
    let d1 := d.setService i h
    match (if h && decide (i < 84) then (upTo 10).find? fun u => d.unitHolds u i else none) with
    | some u => (d1.laneStart i (jCode (d.jRate u))).1
    | none => d1
/-- The unit whose spare lane `i` is, while that unit's links run (R371). -/
def Dev.spareOf (d : Dev) (i : Nat) : Option Nat := (upTo 10).find? fun u => unitSpare u == i && d.unitRuns u
/-- A spare that no remap uses runs as a lane of its running unit while its domain is in RUN (R371): it starts at the unit's rate. -/
def Dev.spareStart (d : Dev) (i : Nat) : Dev :=
  match d.spareOf i with
  | some u => if d.domRun (laneDom i) && !d.inService i then (d.laneStart i (jCode (d.jRate u))).1 else d
  | none => d
/-- Lanes follow their users, spares their units; an observation link whose TX groups have both left RUN goes down. -/
def Dev.serviceSync (d : Dev) : Dev :=
  [48, 49, 50, 51, 82, 83].foldl Dev.spareStart
    ((upTo 112).foldl (fun d i => d.serviceOne i) ([8, 9].foldl (fun d u => if d.flag (jesdEnable u) && !d.unitRuns u then d.linksDown u else d) d))

end Sys2Proof.Machine
end

