-- ==== Sys2Proof/Machine/TmuBase.lean ====
section
/-! DEFINITION. The time unit's quality state, its captured times, and its tick source across PARK (R391, R399, R400). -/

namespace Sys2Proof.Machine

/-- Nominal increments of CK_TMU and of the RC oscillator, in 2^-32 ns (R390). -/
abbrev incTmu : Nat := 4 * 2 ^ 32 + 0x11AAAAAB
abbrev incRc : Nat := 33 * 2 ^ 32 + 0x55555555

/-- Write a T128 time into four registers. -/
def Dev.putTime (d : Dev) (f : Nat → Fld) (t : Nat) : Dev :=
  (upTo 4).foldl (fun d i => d.wf (f i) (nth 0 (t128 t) i)) d

/-- The quality state becomes `st`; a change raises QUALITY_CHANGE with a reason. -/
def Dev.setQuality (d : Dev) (st reason : Nat) : Dev :=
  let old := d.rf TMU_QUALITY_STATE
  if old = st then d
  else { (d.wf TMU_QUALITY_STATE st).event 2 1 (st + 2 ^ 8 * old) reason 0 with
         tmu.holdSince := if st = 3 then some d.now else none }

/-- Load bank `b` with an increment of 2^-32 ns units. -/
def Dev.loadBank (d : Dev) (b inc : Nat) : Dev := (d.wf (TMU_INC_b_NS b) (inc / 2 ^ 32)).wf (TMU_INC_b_FRAC b) inc

/-- The tick goes over to the RC oscillator: the inactive bank holds the measured RC increment, open within 1,000 ppm of its
nominal (assumption log), and the switch is logged. -/
def Dev.toRc (d : Dev) : Dev :=
  let a := d.rf TMU_INC_CTL_ACTIVE
  let x := d.fresh (incRc / 500)
  let d1 := (x.1.loadBank (1 - a) (incRc - incRc / 1000 + x.2)).wf TMU_INC_CTL_ACTIVE (1 - a)
  let d2 := ((d1.setFlag TMU_INC_CTL_SRC_RC true).putTime TMU_RCSW_i_TIME d1.now).setQuality 4 3
  { d2 with tmu.parkBank := some a }

/-- The tick comes back to CK_TMU and the bank active before. -/
def Dev.fromRc (d : Dev) : Dev :=
  match d.tmu.parkBank with
  | none => d
  | some a =>
    let d1 := ((d.wf TMU_INC_CTL_ACTIVE a).setFlag TMU_INC_CTL_SRC_RC false).putTime TMU_RCSW_i_TIME d.now
    let d2 : Dev := { d1 with tmu.parkBank := none }
    if d2.tmu.source = 2 then d2.setQuality 0 3 else d2

end Sys2Proof.Machine
end

