-- ==== Sys2Proof/Machine/Pmu.lean ====
section
/-! DEFINITION. Power-state requests, entries, switch-ons and PARK (R412-R425, R428). -/

namespace Sys2Proof.Machine

/-! ### Ring stops and their domains (R14, R305, R322) -/

/-- The data-ring stop of a domain; none: the domain has no stop of its own. -/
def domStop (dom : Nat) : Option Nat :=
  if dom < 36 then (if dom % 3 = 2 then some (dom / 3) else none)
  else if dom < 40 then some 12
  else if dom < 44 then some 13
  else if dom < 46 then some 14
  else if dom = 57 ∨ dom = 58 then some 15
  else if dom = 59 ∨ dom = 60 then some 16
  else if dom = 61 then some 27
  else if dom = 76 then some 17
  else if 63 ≤ dom ∧ dom < 67 then some (18 + (dom - 63))
  else if 67 ≤ dom ∧ dom < 71 then some 22
  else if 71 ≤ dom ∧ dom < 75 then some 23
  else if dom = 75 then some 24
  else if dom = 78 then some 25
  else if dom = 77 then some 26
  else none

/-- `dom` is the last of its stop's domains in RUN or IDLE. -/
def Dev.lastOfStop (d : Dev) (dom : Nat) : Option Nat :=
  match domStop dom with
  | none => none
  | some st => if (upTo 80).any fun j => j != dom && domStop j == some st && d.domOn j then none else some st

/-! ### Refusal conditions of an entry (R418) -/

/-- The domain an internal memory address lies in. -/
def Dev.memDomain (d : Dev) (a : Nat) : Option Nat :=
  match placeOf a with
  | .ddr x => (d.ddrChannel x).map (63 + ·)
  | .cbuf off => some (67 + off / 4096 / 2048)
  | _ => none
/-- Domain `dom` holds a mirrored HARQ slot whose copy the partner has not acknowledged. -/
def Dev.harqIn (d : Dev) (dom : Nat) : Bool :=
  decide (0 < d.rf MGT_TWIN_SLOTS_PENDING_SLOTS) && d.slotsPending.any fun x =>
    (upTo 14).any fun b => d.memDomain (d.slotAddr x.1 x.2 + min (4096 * b) (harqSlotBytes - 1)) == some dom

/-- The earliest armed group that writes a register of the domain. -/
def Dev.txnIn (d : Dev) (dom : Nat) : Option Nat :=
  let l := (upTo 4).flatMap d.armedOf
  let hit := l.filter fun p => (d.txn p.1).writes.any fun w => regIn dom w.off
  (hit.foldl (fun (b : Option (Nat × Nat)) p => match b with
    | none => some p
    | some x => if p.2 < x.2 then some p else some x) none).map (·.1)

/-- The cores judged for domain `dom`: its own, or for PD_PODn_S all nine of the pod. -/
def judgedCores (dom : Nat) : List Nat :=
  if 36 ≤ dom then [] else if dom % 3 = 2 then (upTo 9).map (9 * (dom / 3) + ·) else domCores dom

/-- The pod is LIVE, or a judged core holds a job: the source byte. -/
def Dev.dispatchPending (d : Dev) (dom : Nat) : Option Nat :=
  if 36 ≤ dom then none
  else if d.domOn 75 && d.podMode (dom / 3) == 0 then some 0xFF
  else ((judgedCores dom).find? fun c => (d.core c).job.isSome).map (· % 9)

/-- A core of the domain with a DMA ticket in flight. -/
def Dev.dmaActive (d : Dev) (dom : Nat) : Option Nat := ((domCores dom).find? fun c => !(d.core c).dma.isEmpty).map (· % 9)

/-- A pending wake of a core of the domain. -/
def Dev.wakePending (d : Dev) (dom : Nat) : Option Nat :=
  (domCores dom).findSome? fun c => if d.coreState c == 3 then (d.core c).wakeSource else none

/-- Refuser ID and source of the first condition that holds. -/
def Dev.entryRefusal (d : Dev) (dom : Nat) : Option (Nat × Nat) :=
  if d.pmu.debugHold.contains dom then some (0x04, 0)
  else match d.txnIn dom with
  | some g => some (0x06, g)
  | none =>
    if d.paired && (dom == 61 || d.harqIn dom) then some (0x07, 0)
    else match d.dispatchPending dom with
    | some x => some (0x03, x)
    | none => match d.dmaActive dom with
      | some x => some (0x05, x)
      | none => (d.wakePending dom).map fun x => (0x01, x)

/-! ### Entries and switch-ons (R417-R422) -/

/-- Steps E3 to E5. -/
def Dev.entryEnd (d : Dev) (r : PmuReq) : Dev :=
  let d1 := if r.target = 3 then d.wipe r.dom else d
  ((d1.enterState r.dom r.target).pmuDrop r.dom).pmuAnswer r.src okS

/-- An entry is refused: the domain keeps (or takes back) state `st`. -/
def Dev.entryRefuse (d : Dev) (r : PmuReq) (st refuser source : Nat) : Dev :=
  (((d.setDom r.dom st).pmuRefuse r.dom refuser source).pmuDrop r.dom).pmuAnswer r.src busyS

/-- Steps E1 and E2. A vote some core of the domain has left starts no entry (R142). -/
def Dev.entryBegin (d : Dev) (r : PmuReq) : Dev :=
  if r.src == .vote && d.domOn r.dom && !d.allVote r.dom then d.pmuDrop r.dom
  else match d.entryRefusal r.dom with
  | some (x, src) => d.entryRefuse r (d.dom r.dom) x src
  | none =>
    match (if d.domOn r.dom then d.lastOfStop r.dom else none) with
    | some st =>
      (((d.fenceStop st).setDom r.dom 4).pmuUpd r.dom
        fun r => { r with phase := .draining d.now })
    | none => d.entryEnd r

/-- The request needs a switch-on first. -/
def Dev.isSwitchOn (d : Dev) (r : PmuReq) : Bool :=
  decide (2 ≤ d.dom r.dom) && (decide (r.target ≤ 1) || (r.target == 2 && d.dom r.dom == 3))

/-- The first request not yet begun. -/
def Dev.pmuFirst (d : Dev) : Option PmuReq := d.pmu.queue.find? PmuReq.waits

/-- RUN and IDLE change at once (R414). -/
def Dev.quickState (d : Dev) (r : PmuReq) : Dev := ((d.enterState r.dom r.target).pmuDrop r.dom).pmuAnswer r.src okS

/-- DOMAIN_ENTRY: the first request, when it is an entry (R417). A change between RUN and IDLE that had to wait in the queue is
made here too. -/
def execDomainEntry (s : State) : Res :=
  s.act fun d => match d.pmuFirst with
    | none => d
    | some r =>
      if d.isSwitchOn r then d
      else if d.dom r.dom = r.target then (d.pmuDrop r.dom).pmuAnswer r.src okS
      else if r.target ≤ 1 then d.quickState r
      else d.entryBegin r

/-- The draining request of stop `st`. -/
def Dev.drainingOf (d : Dev) (st : Nat) : Option (PmuReq × Nat) :=
  d.pmu.queue.findSome? fun r => match r.phase with
    | .draining t => if domStop r.dom = some st then some (r, t) else none
    | _ => none

/-- Every credit of the stop's streams is home, its retry windows are empty, nothing it asked is unanswered (R322 step 5). -/
def Dev.stopQuiet (d : Dev) (st : Nat) : Bool :=
  d.lyr.streams.all (fun p => (keySrc p.1 != st && keyDst p.1 != st) || (p.2.window.isEmpty && p.2.flight.isEmpty)) &&
  d.lyr.returns.all (fun r => keySrc r.key != st && keyDst r.key != st) &&
  d.lyr.bounces.all (fun b => b.1 != st) &&
  d.lyr.waiting.all fun w => isRequest w.pkt.type || (w.src != st && w.dst != st)

/-- STOP_DRAINED: everything the stop owes or is owed has come back (R322 step 5): the entry goes on, unless a wake has come
(R419). -/
def execStopDrained (st : Fin 28) (s : State) : Res :=
  s.act fun d => match d.drainingOf st with
    | none => d
    | some (r, _) =>
      let d := d.returnsHome
      if !d.stopQuiet st then d
      else match d.wakePending r.dom with
      | some src => (d.liftFence st).entryRefuse r 0 0x01 src
      | none => (d.setFlag (LYR_STOP_s_STS_DRAINED st) true).entryEnd r

/-- RING_DRAIN_TIMEOUT: 100 µs without DRAINED: the fence is lifted and the entry refused. -/
def execRingDrainTimeout (st : Fin 28) (s : State) : Res :=
  s.act fun d => match d.drainingOf st with
    | none => d
    | some (r, t) => ((d.advanceTo (t + usT 100)).liftFence st).entryRefuse r 0 0x02 st

/-- DOMAIN_SWITCH_ON: the first request, when it is a switch-on: its W1 begins, at least 2 µs after the last W1 began and, for a
pod domain, after the last pod domain's W1 ended (R421, R422). In throttle a pod domain is refused (R434). -/
def execDomainSwitchOn (s : State) : Res :=
  s.act fun d => match d.pmuFirst with
    | none => d
    | some r =>
      if !d.isSwitchOn r then d
      else if r.dom < 36 ∧ d.rf THM_STS_STATE = 2 then
        d.entryRefuse r (d.dom r.dom) 0x08 (d.rf THM_STS_HOTTEST_TS)
      else
        let t := max (match d.pmu.lastW1 with | some w => w + usT 2 | none => 0) (if r.dom < 36 then d.pmu.podW1End else 0)
        let d1 := d.advanceTo t
        let off := d1.dom r.dom == 3
        let d2 := ((d1.setDom r.dom 5).bump PMU_SWITCH_ONS).pmuUpd r.dom fun r => { r with phase := .waking d1.now off }
        { d2 with pmu.lastW1 := some d1.now,
                  pmu.podW1End := if r.dom < 36 then d1.now + w1Time r.dom else d2.pmu.podW1End }.pmuShow

/-- What the zero-fill adds to W3 from OFF (R421). -/
def zeroFill (dom : Nat) : Nat :=
  if dom < 36 then (if dom % 3 = 2 then usT 50 else usT 25)
  else if dom < 46 then usT 10
  else if dom < 67 then usT 2
  else if dom < 75 then usT 50
  else if dom < 78 then usT 10
  else usT 50

/-- PD_PODn_A and PD_PODn_B wait for PD_PODn_S at W4 (R415). -/
def Dev.logicReady (d : Dev) (dom : Nat) : Bool := decide (36 ≤ dom) || dom % 3 == 2 || d.domOn (3 * (dom / 3) + 2)

/-- Step W5: the stop of a domain that is back accepts packets again. -/
def Dev.unfence (d : Dev) (dom : Nat) : Dev :=
  match domStop dom with
  | none => d
  | some st => (d.liftFence st).setFlag (LYR_STOP_s_STS_DRAINED st) false

/-- DOMAIN_ON_DONE: steps W2 to W5 of domain `dom` have ended. A request for RETAIN from OFF goes on as an entry. -/
def Dev.onDone (d : Dev) (dom : Nat) : Dev :=
  match d.pmuReq dom with
  | some ⟨_, target, src, .waking w1 off⟩ =>
    if !d.logicReady dom then d
    else
      let d1 := d.advanceTo (w1 + w1Time dom + usT 2 + if off then zeroFill dom else 0)
      let d2 := ((d1.enterState dom (if target = 1 then 1 else 0)).unfence dom).serviceSync.trainSync
      let d2 := if dom = 75 then d2.remask.showCap else d2
      if target ≤ 1 then (d2.pmuDrop dom).pmuAnswer src okS
      else d2.entryBegin ⟨dom, target, src, .queued⟩
  | _ => d
def execDomainOnDone (dom : Fin 80) (s : State) : Res := s.act fun d => d.onDone dom

/-! ### POWER_SET and POWER_STATUS (R413-R416, R335, R372) -/

/-- Queued to reach RUN; RUN or IDLE. -/
def Dev.queuedRun (d : Dev) (dom : Nat) : Bool := d.pmu.queue.any fun r => r.dom == dom && r.target == 0
def Dev.queuedUp (d : Dev) (dom : Nat) : Bool := d.pmu.queue.any fun r => r.dom == dom && decide (r.target ≤ 1)
/-- States a domain may take (R413). -/
def mayTake (dom st : Nat) : Bool := !([76, 62, 78, 79].contains dom) || st == 0
/-- PD_PODn_A or B of pod `p` stands in the way of S leaving (R415). -/
def Dev.podUsesS (d : Dev) (p : Nat) : Bool :=
  [3 * p, 3 * p + 1].any fun x => d.domOn x || d.dom x == 5 || d.queuedUp x
/-- A lane domain holding a lane in service (R372). -/
def Dev.laneHeld (d : Dev) (dom : Nat) : Bool := (upTo 112).any fun i => laneDom i == dom && d.inService i
/-- A bank with an allocated handle (R335). -/
def Dev.bankHeld (d : Dev) (dom : Nat) : Bool :=
  ((d.poolRun.1, d.poolRun.2) :: d.mem.bufs.map fun p => (p.1, p.2.count)).any fun p =>
    p.2 != 0 && decide (p.1 < 2048 * (dom - 66)) && decide (2048 * (dom - 67) < p.1 + p.2)

/-- POWER_SET. -/
def Dev.powerSet (d : Dev) (c : PqCmd) : Dev :=
  let dom := pp c 0
  let st := pp c 1
  let s := 3 * (dom / 3) + 2
  d.checks c
    [(decide (80 ≤ dom) || decide (4 ≤ st) || !mayTake dom st, badParam),
     (decide (dom < 36) && dom % 3 != 2 && decide (st ≤ 1) && !d.domOn s && !d.queuedRun s, badParam),
     (d.pmuBusy dom, busyS),
     (decide (dom < 36) && dom % 3 == 2 && decide (2 ≤ st) && d.podUsesS (dom / 3), busyS),
     (decide (67 ≤ dom) && decide (dom < 75) && st == 3 && d.bankHeld dom, busyS),
     (decide (46 ≤ dom) && decide (dom ≤ 62) && decide (2 ≤ st) && d.laneHeld dom, busyS),
     (d.dom dom == st, okS)]
    fun d =>
      if d.domOn dom && decide (st ≤ 1) then (d.enterState dom st).fin c okS
      else d.pmuPush dom st (.cmd c.queue.val c.tag.toNat)
def execPowerSet (c : PqCmd) (s : State) : Res := s.pq 0x0601 c fun d => d.powerSet c

/-- POWER_STATUS. -/
def execPowerStatus (c : PqCmd) (s : State) : Res :=
  s.pq 0x0602 c fun d =>
    let x := pp c 0
    d.checks c [(decide (80 ≤ x), badParam)] fun d =>
      d.finR c [d.dom x, d.rf (PMU_PDd_REFUSED x), d.rf (PMU_PDd_LAST_REFUSER x) * 256 + d.rf (PMU_PDd_LAST_SOURCE x)]

/-! ### PARK (R423-R425) -/

/-- Conditions under which PARK completes BUSY. -/
def Dev.parkBusy (d : Dev) : Bool :=
  d.anyTl || !d.pmu.aspm || (upTo 76).any (fun x => x != 62 && d.domOn x) || d.domOn 77

/-- A park that would go on waits for firmware to finish every other fetched command (R423 step 1). -/
def Dev.parkWaits (d : Dev) (c : PqCmd) : Bool :=
  !d.paired && !d.parkBusy &&
    (upTo 16).any fun q => (d.qp q).running.any fun r => !(q == c.queue.val && r.cmd == c) && r.own.isNone && !r.dup
/-- The first domain of the floor whose entry is refused (E1, and E2 for stop HIF), with refuser and source. -/
def Dev.parkRefusal (d : Dev) : Option (Nat × Nat × Nat) :=
  [76, 62, 78].findSome? fun x => match d.entryRefusal x with
    | some r => some (x, r.1, r.2)
    | none => if x = 76 ∧ !d.returnsHome.stopQuiet 17 then some (x, 0x02, 17) else none
/-- PARK: the floor enters RETAIN under R417 in the order HIF, ZTH_P, MGT, stop HIF fenced and drained, and TWIN_ROLE_OUT goes
low (R484); a wake pending at step 5 refuses it. -/
def Dev.parkCmd (d : Dev) (c : PqCmd) (wake : Option Nat) : Dev :=
  d.checks c
    [(d.paired || (pp c 0 == 0 && pp c 1 == 0 && pp c 2 == 0), badParam), (d.parkBusy, busyS)]
    fun d => match (match d.parkRefusal with | some r => some r | none => wake.map fun src => (78, 0x01, src)) with
      | some r => (d.pmuRefuse r.1 r.2.1 r.2.2).complete c.queue.val c.tag.toNat busyS [0]
      | none =>
        let d := (d.returnsHome.fenceStop 17).setFlag (LYR_STOP_s_STS_DRAINED 17) true
        let d1 := ([76, 62, 78].foldl (fun d x => d.enterState x 2) d.linesPark).toRc
        let p : Park := ⟨c.queue.val, c.tag.toNat, pp c 1 + 2 ^ 32 * pp c 2, d.now, if pp c 0 = 0 then none else some (d.now + msT (pp c 0))⟩
        let d2 : Dev := { d1 with pmu.park := some p, hif.fetchStopped := true, twin.silent := 2 }
        d2.setFlag MGT_TWIN_STS_ROLE_OUT false
/-- PARK; `wake` is a wake source pending when step 5 is reached. -/
def execPark (c : PqCmd) (wake : Option (BitVec 8)) (s : State) : Res :=
  s.act fun d => if d.parkWaits c then d else d.pqDo 0x0603 c fun d => d.parkCmd c (wake.map (·.toNat))

/-- A wake source of a parked device: the timer 0x20, the host 0x22, or GPIO `l` as 0x40 + l (R424). -/
def Dev.wakesPark (d : Dev) (p : Park) (src : Nat) : Bool :=
  (src == 0x20 && p.wakeAt.isSome) || src == 0x22 ||
  (decide (0x40 ≤ src) && decide (src < 0x80) && bitAt p.gpio (src - 0x40) && decide (d.rf (DFE_GPIO_l_CFG_MODE (src - 0x40)) ≤ 1))

/-- PARK_WAKE: the return of R425; the floor switches on and PARK completes with the whole ms parked. -/
def Dev.parkWake (d : Dev) (src : Nat) : Dev :=
  match d.pmu.park with
  | none => d
  | some p =>
    if !d.wakesPark p src then d
    else
      let d0 := match (if src = 0x20 then p.wakeAt else none) with
        | some t => d.advanceTo t
        | none => d
      let ms := (d0.now - p.since) / msT 1
      let d1 := [78, 62, 76].foldl (fun d x => ((d.enterState x 0).bump PMU_SWITCH_ONS).unfence x) d0 |>.serviceSync
      let d2 := { (d1.bump PMU_PARKS).bumpBy PMU_PARK_MS ms with pmu.park := none, hif.fetchStopped := false }
      d2.fromRc.complete p.queue p.tag okS [ms]
def execParkWake (src : BitVec 8) (s : State) : Res := s.act fun d => d.parkWake src.toNat

end Sys2Proof.Machine
end

