-- ==== Sys2Proof/Machine/Reset.lean ====
section
/-! DEFINITION. Resets (R409-R411, R427, R449, R479). -/

namespace Sys2Proof.Machine

/-- Every domain but PD_AON goes OFF at once, with no fence and no drain: what remains is PD_AON's registers, its thermal
history and fuse-board facts, and the memory of the host (R409, R433). -/
def Dev.allOff (d : Dev) : Dev :=
  let d1 : Dev := { Dev.reset with
    regs := Tab.keep (fun off _ => regIn 79 off) d.regs, guardOpen := d.guardOpen, free := d.free, hif.mem := d.hif.mem,
    thm := d.thm, pods.spared := d.pods.spared }
  (upTo 79).foldl (fun d x => if d.dom x = 3 then d else d.enterState x 3) d1

/-- The cause of a reset is shown and counted (R411, R427). -/
def Dev.resetCause (d : Dev) (kind trigger : Nat) : Dev :=
  let d1 := (d.wf CKR_RESET_CAUSE_KIND kind).wf CKR_RESET_CAUSE_TRIGGER trigger
  if trigger = 0 then d1 else d1.bump (CKR_RESETS_t_RESETS (trigger - 1))

/-- Firmware's own power cap starts anew with it (R435). -/
def Thm.fresh (t : Thm) : Thm := { t with powerCap := 8, capAt := 0, power := [], below := 0, railMiss := [] }

/-- What the security block and the sensors forget at COLD (R431, R449, R453, R456). -/
def Dev.coldAon (d : Dev) : Dev :=
  let clear (d : Dev) (fs : List Fld) : Dev := fs.foldl (fun d f => d.wf f 0) d
  let d1 := clear d ([SEC_BOOT_STS_SEALED, SEC_BOOT_STS_RECOVERY, SEC_BOOT_STS_FALLBACK, SEC_BOOT_STS_BT_OK, SEC_KEY_STS_LOADED,
    SEC_DEBUG_STS_LEVEL, SEC_DEBUG_STS_MAX_LEVEL, THM_BROKEN_LO_BROKEN, THM_BROKEN_HI_BROKEN] ++ (upTo 60).map THM_TS_i_BROKEN)
  { d1 with thm := { d1.thm.fresh with disagree := [], past125 := [], trip := none } }

/-- COLD: every domain but PD_AON. -/
def Dev.coldReset (d : Dev) (trigger : Nat) : Dev := (d.allOff.coldAon).resetCause 1 trigger

/-- The floor of alarm actions (R447 F6). -/
def Sec.floor (x : Sec) : Nat := bitsAt x.f6 0 3

/-- What the registers show of the fuses (R447, R457). -/
def Dev.fuseShow (d : Dev) (x : Sec) : Dev :=
  let d1 := ((d.wf SEC_BOOT_STS_REVOKED x.f0).wf SEC_FW_SVN_MIN_SVN (min 63 (popcount 64 x.f1))).wf64 SEC_DEVICE_ID_LO_ID SEC_DEVICE_ID_HI_ID x.f5
  (upTo 7).foldl (fun d i => d.wf (SEC_ALARM_ACT_s_ACTION i) x.floor) d1

/-- A COLD reset of the whole part: volatile keys are zeroed, a session and its challenge end. -/
def State.cold (s : State) (trigger : Nat) : State :=
  let d1 := s.dev.coldReset trigger
  { s with dev := d1.fuseShow s.sec, sec := { s.sec with keys := [], ckns := [], challenge := none, lockout := s.sec.lockout.map (· - s.dev.now) } }

/-- The part after POR: everything but fuses, flash and the host's memory; spared cores are forgotten (R479). -/
def State.por (s : State) (supply : Bool) : State :=
  let d0 : Dev := { Dev.reset with free := s.dev.free, hif.mem := s.dev.hif.mem }
  { s with dev := (d0.resetCause 0 (b2n supply)).fuseShow s.sec,
           sec := { Sec.reset with f0 := s.sec.f0, f1 := s.sec.f1, f2 := s.sec.f2, f3 := s.sec.f3, f4 := s.sec.f4, f5 := s.sec.f5,
                                   f6 := s.sec.f6, flash := s.sec.flash } }

/-- POR: PORST_N low, or a supply below its monitor threshold (R409, R508). -/
def execPor (supply : Bool) (s : State) : Res := .next (s.por supply)

/-- COLD_RESET: the cold restart a DEVICE_RESTART asked for begins (R82, R409). -/
def execColdReset (s : State) : Res :=
  match s.dev.fw.restart with
  | some (1, t) => .next ({ s with dev := s.dev.advanceTo t }.cold 2)
  | _ => .next s

/-! ### WARM -/

/-- Cores and coprocessors of every pod start anew; local and pod memories stay. -/
def Dev.warmPods (d : Dev) : Dev :=
  let isPod (off : Nat) : Bool := decide (0x10 ≤ blockOf off)
  { d with cores := freshCores d.cores, pods.cpx := [], regs := Tab.keep (fun off _ => !isPod off) d.regs }
where
  /-- Each core keeps its local memory alone. -/
  freshCores (t : Tab Core) : Tab Core :=
    (t.map fun p => (p.1, Core.resetWith p.2.mem)).filter fun p => p.2 != Core.reset

/-- The dispatcher starts anew: every pod MASKED, spared cores masked. -/
def Dev.warmWds (d : Dev) : Dev :=
  let d1 := { d with wds := Wds.reset, regs := Tab.keep (fun off _ => blockOf off != 4) d.regs }
  ((upTo 12).foldl (fun d p => d.wf (WDS_PODn_CTL_MODE p) 1) d1).remask.showCap

/-- The queue pairs are as after reset; firmware's tag windows come back from its store (assumption log). -/
def Dev.warmQueues (d : Dev) : Dev :=
  let isPair (off : Nat) : Bool := decide (0x1000 ≤ off) && decide (off < 0x3000)
  let keepWin (t : Tab QPair) : Tab QPair :=
    (t.map fun p => (p.1, { QPair.reset with window := p.2.window })).filter fun p => p.2 != QPair.reset
  { d with regs := Tab.keep (fun off _ => !isPair off) d.regs,
           hif := { Hif.reset with qs := keepWin d.hif.qs, msix := d.hif.msix, mem := d.hif.mem } }

/-- Carrier contexts and narrowband channels are removed: their enables fall. -/
def Dev.warmCarriers (d : Dev) : Dev :=
  (upTo 256).foldl (fun d c => ((((d.setFlag (DFE_CCc_CTL_ENABLE c) false).setFlag (ETH_CCc_CTL_ENABLE c) false).setFlag
    (NBB_CHn_CTL_RX_EN c) false).setFlag (NBB_CHn_CTL_TX_EN c) false)) d

/-- HARQ slots of removed carriers are free again (R218). -/
def Dev.warmHarq (d : Dev) : Dev :=
  (upTo 2).foldl (fun d p => (d.wf (MEM_HARQ_p_USED p) 0).wf (MEM_HARQ_p_FREE p) (d.rf (MEM_HARQ_p_COUNT p)))
    { d with mem.harq := [[], []], mem.bufs := [] }.cbfShow

/-- Firmware's calibration runs end: no target is held, and a switch a run armed stays armed (R285). -/
def Dev.warmCal (d : Dev) : Dev :=
  let held : List Fld := [DFE_CAL_DPD_HELD_LO_HELD, DFE_CAL_DPD_HELD_HI_HELD] ++ (upTo 64).flatMap (fun i => [DFE_IQC_r_CTL_HELD i, DFE_ALN_c_CTL_HELD i]) ++
    (upTo 112).map ZTH_Li_SPC_CTL_HELD
  { held.foldl (fun d f => if d.rf f = 0 then d else d.wf f 0) d with
    cal.runs := [], cal.auto := [], cal.autoAt := [],
    cal.arms := d.cal.arms.map fun a => match a.src with
      | .run _ => { a with src := .sel }
      | _ => a }

/-- WARM: firmware, dispatcher, queue pairs, cores and coprocessors start anew (R409). -/
def Dev.warmReset (d : Dev) : Dev :=
  let d1 := (upTo 4).foldl (fun d n => if d.flag (TMU_TLn_CTL_ENABLE n) then d.timelineStop n else d) d
  let d2 := (({ d1.warmPods with thm := d1.thm.fresh }.warmWds).warmQueues).warmCarriers.warmHarq.warmCal
  let d3 : Dev := { d2 with txns := [], fw := { Fw.reset with health := d2.fw.health, version := d2.fw.version, since := d2.now }, nbb := Nbb.reset, twin := Dev.reset.twin,
                            marrow := { d2.marrow with waiting := [], replay := none } }
  (((d3.setReg rMGT_TWIN_STS (32 * d3.rf MGT_TWIN_STS_ROLE_IN)).wf MGT_TWIN_UNACK 0).wf MGT_TWIN_SLOTS_PENDING_SLOTS 0).resetCause 2 2

/-- WARM_RESET: the firmware restart a DEVICE_RESTART asked for begins. -/
def execWarmReset (s : State) : Res :=
  s.act fun d => match d.fw.restart with
    | some (0, t) => (d.advanceTo t).warmReset
    | _ => d

/-- TAP_RESET: JTAG logic and the debug unlock (R409, R456). -/
def execTapReset (s : State) : Res :=
  .next { s with dev := { s.dev.wf SEC_DEBUG_STS_LEVEL 0 with pmu.debugHold := [] }, sec := { s.sec with challenge := none } }

end Sys2Proof.Machine
end

