-- ==== Sys2Proof/Machine/Thermal.lean ====
section
/-! DEFINITION. Temperature, power cap, adaptive voltage and lifetime (R429-R442, R505-R508). Temperatures are whole numbers of
0.25 °C. -/

namespace Sys2Proof.Machine

/-! ### Sensors (R429-R431) -/

/-- The neighbours of sensor `i` (R430). -/
def neighbours (i : Nat) : List Nat :=
  if i < 36 then
    let n := i / 3
    let j := i % 3
    ((upTo 3).filter (· != j)).map (3 * n + ·) ++ (if n % 6 = 0 then [] else [3 * (n - 1) + j]) ++
      (if n % 6 = 5 then [] else [3 * (n + 1) + j])
  else nth [] [[37, 40, 45], [36, 38, 41, 45], [37, 39, 42, 46], [38, 43, 46], [36, 41, 47], [37, 40, 42, 47], [38, 41, 43, 48],
    [39, 42, 44, 48], [43, 48, 58], [36, 37, 46], [38, 39, 45], [40, 41, 48], [42, 43, 44, 47], [50, 54, 58], [49, 51, 55],
    [50, 52, 56], [51, 53, 57], [52, 57, 59], [49, 55, 58], [50, 54, 56], [51, 55, 57], [52, 53, 56], [44, 49, 54, 59],
    [53, 58]] (i - 36)

/-- Twice the median of a list; none for an empty list. -/
def median2 (l : List Int) : Option Int :=
  let s := l.mergeSort fun a b => decide (a ≤ b)
  let n := s.length
  if n = 0 then none
  else if n % 2 = 1 then some (2 * nth 0 s (n / 2)) else some (nth 0 s (n / 2 - 1) + nth 0 s (n / 2))

/-- The reading of sensor `i`: raw value plus trim. -/
def Dev.reading (d : Dev) (raw : List (BitVec 12)) (i : Nat) : Int :=
  toSigned 12 (nth 0 raw i).toNat + toSigned 8 (d.rf (THM_TRIM_i_TRIM i))
/-- A reading lies within −55 … +150 °C. -/
def inRange (r : Int) : Bool := decide (-220 ≤ r) && decide (r ≤ 600)

/-- Sensor `i` is broken. -/
def Dev.broken (d : Dev) (i : Nat) : Bool := d.flag (THM_TS_i_BROKEN i)
/-- Readings of the unbroken neighbours of `i`. -/
def Dev.nbReads (d : Dev) (rd : Nat → Int) (i : Nat) : List Int := ((neighbours i).filter fun j => !d.broken j).map rd
/-- A thermal event (class 1, R440). -/
def Dev.thmEvent (d : Dev) (code : Nat) (a b c : Int) : Dev := d.event 1 code (ofSigned 32 a) (ofSigned 32 b) (ofSigned 32 c)

/-- Declare sensor `i` broken. -/
def Dev.declareBroken (d : Dev) (rd : Nat → Int) (i why : Nat) : Dev :=
  let f : Fld := if i < 32 then ⟨rTHM_BROKEN_LO, i, 1⟩ else ⟨rTHM_BROKEN_HI, i - 32, 1⟩
  ((d.setFlag (THM_TS_i_BROKEN i) true).wf f 1).thmEvent 4 i why (rd i)

/-- Judge every sensor against its neighbours as they stood at the start of the sample (R431). -/
def Dev.judgeSensors (d : Dev) (rd : Nat → Int) : Dev :=
  let dis (i : Nat) : Bool := match median2 (d.nbReads rd i) with
    | none => false
    | some m => decide (80 < (2 * rd i - m).natAbs)
  let cnt (i : Nat) : Nat := if dis i then Tab.getD (fun _ => 0) d.thm.disagree i + 1 else 0
  let new := (upTo 60).filterMap fun i =>
    if d.broken i then none else if !inRange (rd i) then some (i, 0) else if 32 ≤ cnt i then some (i, 1) else none
  let tab := (upTo 60).foldl (fun t i => Tab.setD (fun _ => 0) t i (cnt i)) []
  new.foldl (fun d p => d.declareBroken rd p.1 p.2) { d with thm.disagree := tab }

/-- The values in use. A mean of two middle values between two steps of 0.25 °C is rounded to either (assumption log); with
no unbroken sensor at all the last value stands. -/
def Dev.valuesInUse (d : Dev) (rd : Nat → Int) : Dev :=
  let good := (upTo 60).filter fun i => !d.broken i
  let top := good.foldl (fun (b : Option Int) i => match b with
    | none => some (rd i)
    | some x => some (max x (rd i))) none
  let sub (i : Nat) : Int :=
    let l := d.nbReads rd i
    match (if 2 ≤ l.length then median2 l else none), top with
    | some m, _ => (m + (Config.freeAt d.free i % 2 : Nat)) / 2 + 12
    | none, some t => t + 12
    | none, none => toSigned 12 (d.rf (THM_TS_i_TEMP i))
  let d1 := (upTo 60).foldl (fun e i => e.wf (THM_TS_i_TEMP i) (ofSigned 12 (if d.broken i then sub i else rd i))) d
  { d1 with free := d.free + 1 }

/-- The hottest value and its sensor, the lowest number on a tie (assumption log). -/
def Dev.hottest (d : Dev) : Int × Nat :=
  (upTo 60).foldl (fun b i => let v := toSigned 12 (d.rf (THM_TS_i_TEMP i)); if b.1 < v then (v, i) else b)
    (toSigned 12 (d.rf (THM_TS_i_TEMP 0)), 0)

/-! ### Caps (R434, R435) -/

/-- The thermal cap takes a value. -/
def Dev.setCap (d : Dev) (v : Nat) : Dev := (d.wf THM_THROTTLE_CAP v).showCap

/-! ### States (R432, R433) -/

def Dev.toWarning (d : Dev) (h : Int × Nat) : Dev :=
  ((d.wf THM_STS_STATE 1).bump THM_WARNINGS).thmEvent 1 h.1 h.2 0
def Dev.toThrottle (d : Dev) (h : Int × Nat) : Dev :=
  let d1 := ((d.wf THM_STS_STATE 2).bump THM_THROTTLES).setCap (d.rf THM_THROTTLE_CAP_START)
  { d1.thmEvent 2 h.1 h.2 (d1.rf THM_THROTTLE_CAP) with thm.stepHot := h.1 }
def Dev.toClear (d : Dev) (st : Nat) (h : Int × Nat) : Dev := (d.wf THM_STS_STATE st).thmEvent 3 st h.1 0

/-- The state follows the hottest value. -/
def Dev.thmState (d : Dev) (h : Int × Nat) : Dev :=
  match d.rf THM_STS_STATE with
  | 0 =>
    let d1 := if 420 ≤ h.1 then d.toWarning h else d
    if 452 ≤ h.1 then d1.toThrottle h else d1
  | 1 => if 452 ≤ h.1 then d.toThrottle h else if h.1 < 408 then d.toClear 0 h else d
  | _ => if h.1 < 432 then (d.setCap 8).toClear 1 h else d

/-- Shutdown: THERMTRIP_N low, every domain but PD_AON OFF, THM_PEAK frozen (R433). -/
def Dev.shutdown (d : Dev) (sensor : Nat) : Dev :=
  let d1 := d.allOff
  { d1.bump THM_SHUTDOWNS with thm.trip := some (sensor, 0), thm.past125 := [] }

/-- A sensor trips: two samples in a row at 125 °C or more, each a reading that could be true. -/
def overTrip (r : Int) : Bool := decide (500 ≤ r) && decide (r ≤ 600)

/-- THERMAL_SAMPLE: the raw readings of TS0-TS59 (R432). -/
def Dev.thermalSample (d : Dev) (raw : List (BitVec 12)) : Dev :=
  let rd := d.reading raw
  let d0 := (upTo 60).foldl (fun d i => d.wf (THM_RAW_i_RAW i) (nth 0 raw i).toNat) d
  let past125 := (upTo 60).filter fun i => overTrip (rd i)
  let peak := ((upTo 60).map rd).foldl (fun m r => if inRange r && decide (m < r) then r else m) (toSigned 12 (d.rf THM_PEAK))
  let d1 := if d.thm.trip.isSome then d0 else d0.wf THM_PEAK (ofSigned 12 peak)
  match (if d.thm.trip.isNone then past125.find? d.thm.past125.contains else none) with
  | some i => d1.shutdown i
  | none =>
    let d2 := ({ d1 with thm.past125 := past125 }.judgeSensors rd).valuesInUse rd
    let h := d2.hottest
    let d3 := (d2.wf THM_HOTTEST_TEMP (ofSigned 12 h.1)).wf THM_STS_HOTTEST_TS h.2
    if d.thm.trip.isSome then d3 else d3.thmState h
def execThermalSample (raw : List (BitVec 12)) (s : State) : Res := s.act fun d => d.thermalSample raw

/-- THROTTLE_STEP: every 10 ms in THROTTLE (R434). -/
def execThrottleStep (s : State) : Res :=
  s.act fun d =>
    if d.rf THM_STS_STATE = 2 then
      let h := toSigned 12 (d.rf THM_HOTTEST_TEMP)
      let cap := d.rf THM_THROTTLE_CAP
      let d1 := if d.thm.stepHot ≤ h ∧ d.rf THM_THROTTLE_CAP_MIN < cap then d.setCap (cap - 1) else d
      { d1 with thm.stepHot := h }
    else d

/-- THERMAL_RESTART: `secs` seconds have passed since the trip; once every reading is below 95 °C, the part restarts cold, and
firmware will raise SHUTDOWN_RECOVERED (R433). -/
def State.thermalRestart (s : State) (secs : Nat) : State :=
  match s.dev.thm.trip with
  | none => s
  | some (sensor, _) =>
    let raw := (upTo 60).map fun i => BitVec.ofNat 12 (s.dev.rf (THM_RAW_i_RAW i))
    if 10 ≤ secs ∧ (upTo 60).all (fun i => decide (s.dev.reading raw i < 380)) then
      let s1 := s.cold 3
      { s1 with dev := { s1.dev with thm.recovered := some (s.dev.rf THM_PEAK, sensor, secs) } }
    else s
def execThermalRestart (secs : BitVec 32) (s : State) : Res := .next (s.thermalRestart secs.toNat)

/-! ### Power (R435, R505, R507) -/

/-- Nominal mV and maximum mA of rail `r`; VDD_CORE stands at its set point. -/
def Dev.railMax (d : Dev) (r : Nat) : Nat × Nat :=
  nth (0, 0) [(d.rf THM_AVS_MV, 220000), (850, 15000), (750, 500), (900, 1000), (750, 32000), (1200, 7000), (1100, 7000),
    (1800, 1000)] r

/-- What rail `r` adds to the sum, in µW: its telemetry, or its maximum current while it does not answer; before the third failed
read the value is open (assumption log). -/
def Dev.railPower (d : Dev) (r : Nat) (v : Option (BitVec 16 × BitVec 32)) : Nat :=
  match v with
  | some (mv, ma) => mv.toNat * ma.toNat
  | none => if 3 ≤ Tab.getD (fun _ => 0) d.thm.railMiss r then let m := d.railMax r; m.1 * m.2 else Config.freeAt d.free r % 2 ^ 32

/-- A rail answers or not. -/
def Dev.railSeen (d : Dev) (r : Nat) (ok : Bool) : Dev :=
  let n := if ok then 0 else Tab.getD (fun _ => 0) d.thm.railMiss r + 1
  let d1 : Dev := { d with thm.railMiss := Tab.setD (fun _ => 0) d.thm.railMiss r n }
  if n = 3 then d1.health 0x0D 5 r else d1

/-- The power cap moves by one at most every 10 ms (`thm.capAt` counts the polls since). -/
def Dev.powerJudge (d : Dev) : Dev :=
  let t := d.thm
  let mean := sumNat t.power / 10
  let p := d.fw.powerCap * 1000000
  let below := if mean * 100 < p * 95 then t.below + 1 else 0
  let d1 : Dev := { d with thm.below := below, thm.capAt := t.capAt + 1 }
  if t.power.length < 10 ∨ t.capAt + 1 < 10 then d1
  else if p < mean ∧ d.rf THM_THROTTLE_CAP_MIN < t.powerCap then { d1 with thm.powerCap := t.powerCap - 1, thm.capAt := 0 }.showCap
  else if 100 ≤ below ∧ t.powerCap < 8 then { d1 with thm.powerCap := t.powerCap + 1, thm.capAt := 0 }.showCap
  else d1

/-- POWER_TELEMETRY_POLL: what each rail answers, in mV and mA. -/
def Dev.telemetry (d : Dev) (rails : List (Option (BitVec 16 × BitVec 32))) : Dev :=
  let at' (r : Nat) : Option (BitVec 16 × BitVec 32) := nth none rails r
  let d1 := (upTo 8).foldl (fun d r => d.railSeen r (at' r).isSome) d
  let sum := sumNat ((upTo 8).map fun r => d1.railPower r (at' r))
  let l := d1.thm.power ++ [sum]
  { d1 with thm.power := l.drop (l.length - 10), free := d1.free + 1 }.powerJudge
def execPowerTelemetryPoll (rails : List (Option (BitVec 16 × BitVec 32))) (s : State) : Res :=
  s.act fun d => if d.domOn 78 then d.telemetry rails else d

/-- POWER_CAP. -/
def execPowerCap (c : PqCmd) (s : State) : Res :=
  s.pq 0x0605 c fun d =>
    d.checks c [(decide (pp c 0 < 60) || decide (185 < pp c 0), badParam)] fun d =>
      { d with fw.powerCap := pp c 0 }.finR c [d.fw.powerCap]

/-- THERMAL_STATUS. -/
def execThermalStatus (c : PqCmd) (s : State) : Res :=
  s.pq 0x0604 c fun d =>
    d.finR c [ofSigned 32 (toSigned 12 (d.rf THM_HOTTEST_TEMP)), d.rf THM_STS_HOTTEST_TS, d.rf THM_STS_STATE,
      popcount 32 (d.rf THM_BROKEN_LO_BROKEN) + popcount 28 (d.rf THM_BROKEN_HI_BROKEN)]

/-! ### Adaptive voltage (R436, R437) -/

/-- The domain ageing monitor `k` sits in. -/
def amDomain (k : Nat) : Nat :=
  if k < 12 then 3 * k + 2 else if k < 16 then 78 else nth 78 [36, 40, 75, 78, 67, 71, 57, 44] (k - 16)

/-- AVS_LOOP: the slack each monitor reads (R437). -/
def Dev.avsLoop (d : Dev) (slack : List (BitVec 10)) : Dev :=
  if d.pmu.park.isSome then d
  else
    let d1 := (upTo 24).foldl (fun d k => d.wf (THM_AM_k_SLACK k) (nth 0 slack k).toNat) d
    let low := ((upTo 24).filter fun k => d1.domRun (amDomain k)).foldl (fun (b : Option (Nat × Nat)) k =>
      let v := (nth 0 slack k).toNat
      match b with
      | none => some (v, k)
      | some x => if v < x.1 then some (v, k) else some x) none
    match low with
    | none => d1
    | some (v, k) =>
      let mv := d1.rf THM_AVS_MV
      let target := d1.rf THM_AVS_TARGET
      let high := if target + 20 < v then d1.thm.avsHigh + 1 else 0
      let atMax := if v < target ∧ mv = 850 then d1.thm.avsMax + 1 else 0
      let d2 : Dev := { d1 with thm.avsHigh := if high = 60 then 0 else high, thm.avsMax := atMax }
      let d3 := if v < target then d2.wf THM_AVS_MV (min 850 (mv + 5))
        else if high = 60 then d2.wf THM_AVS_MV (max 700 (mv - 5)) else d2
      if 60 ≤ atMax then
        let d4 := d3.setFlag THM_STS_AVS_AT_MAX true
        if d4.thm.ageing then d4 else { d4.thmEvent 6 k v (d4.rf THM_AVS_MV) with thm.ageing := true }
      else d3
def execAvsLoop (slack : List (BitVec 10)) (s : State) : Res := s.act fun d => d.avsLoop slack

/-! ### Lifetime (R438) -/

/-- The band of a hottest value. -/
def histBand (h : Int) : Nat := if h < 360 then 0 else if h < 420 then 1 else if h < 452 then 2 else 3

/-- PROFILE_EXCEEDED, the first time it holds once 1,000 h have been counted. -/
def Dev.profileCheck (d : Dev) : Dev :=
  let b (i : Nat) : Nat := d.rf (THM_HIST_b_SECONDS i)
  let sum := b 0 + b 1 + b 2 + b 3
  let deg := toSigned 64 (d.rf64 THM_DEGSEC_LO THM_DEGSEC_HI)
  let hot := decide (sum < 10 * (b 2 + b 3))
  let mean := decide (90 * (sum : Int) < deg)
  if 3600000 < sum ∧ (hot || mean) ∧ !d.thm.profile then
    { d.thmEvent 7 (b2n hot + 2 * b2n mean : Nat) ((b 2 + b 3) / 3600 : Nat) (4 * deg / sum) with thm.profile := true }
  else d

/-- LIFETIME_SECOND: one second of the hottest value. -/
def execLifetimeSecond (s : State) : Res :=
  s.act fun d =>
    let h := toSigned 12 (d.rf THM_HOTTEST_TEMP)
    let deg := ofSigned 64 (toSigned 64 (d.rf64 THM_DEGSEC_LO THM_DEGSEC_HI) + h / 4)
    let d1 := (d.bump (THM_HIST_b_SECONDS (histBand h))).wf64 THM_DEGSEC_LO THM_DEGSEC_HI deg
    if d1.domOn 78 then d1.profileCheck else d1

/-- LIFETIME_SAVE: firmware saves the counters to flash. -/
def execLifetimeSave (s : State) : Res :=
  let d := s.dev
  if d.domOn 78 then
    .next { s with sec.flash.life := (upTo 4).map (fun i => d.rf (THM_HIST_b_SECONDS i)) ++ [d.rf THM_DEGSEC_LO, d.rf THM_DEGSEC_HI] }
  else .next s

end Sys2Proof.Machine
end

