-- ==== Sys2Proof/Machine/Time.lean ====
section
/-! DEFINITION. The time unit: snapshots, increments, sources, 1PPS, time of day and quality (R391-R399). -/

namespace Sys2Proof.Machine

/-! ### Snapshots and increments (R391, R392) -/

/-- SNAP captures TMU time. -/
def Dev.snap (d : Dev) : Dev := d.putTime TMU_SNAP_i_TIME d.now
def Dev.snapWr (d : Dev) (init : Initiator) (value : Nat) : Dev :=
  let r := d.busWr init rTMU_SNAP_CTL value
  match r.2 with
  | .no => r.1
  | .yes cmds => if bitAt cmds 0 then r.1.snap else r.1
/-- TMU_SNAP. -/
def execTmuSnap (init : Initiator) (value : Word) (s : State) : Res := s.act fun d => d.snapWr init value.toNat

/-- Bank `b` lies within 1,000 ppm of the nominal of the present tick source. -/
def Dev.bankNear (d : Dev) (b : Nat) : Bool :=
  let x := d.rf (TMU_INC_b_NS b) * 2 ^ 32 + d.rf (TMU_INC_b_FRAC b)
  let n := if d.flag TMU_INC_CTL_SRC_RC then incRc else incTmu
  decide ((if x < n then n - x else x - n) * 1000 ≤ n)

/-- ARM: refused while PENDING = 1 or for a bank too far off (R391). -/
def Dev.incWr (d : Dev) (init : Initiator) (value : Nat) : Dev :=
  let r := d.busWr init rTMU_INC_CTL value
  match r.2 with
  | .no => r.1
  | .yes cmds =>
    if !bitAt cmds 2 then r.1
    else if d.flag TMU_INC_CTL_PENDING || !d.bankNear (1 - d.rf TMU_INC_CTL_ACTIVE) then r.1.regErr .ignored rTMU_INC_CTL init
    else r.1.setFlag TMU_INC_CTL_PENDING true
/-- TMU_INC_ARM. -/
def execTmuIncArm (init : Initiator) (value : Word) (s : State) : Res := s.act fun d => d.incWr init value.toNat

/-- TIME_GET. -/
def execTimeGet (c : PqCmd) (s : State) : Res :=
  s.pq 0x0501 c fun d => d.snap.finR c (t128 d.now ++ [d.rf TMU_QUALITY_STATE])

/-! ### Sources (R396, R397, R399) -/

/-- A pairing of profile and transport that PTP supports. -/
def ptpPair (profile transport : Nat) : Bool := (profile == 0 && transport == 0) || (profile == 1 && (transport == 1 || transport == 2))

/-- A TIME_SOURCE names no source that exists. -/
def badSource (c : PqCmd) : Bool :=
  decide (2 < pp c 0) || decide (1 < pp c 1) || decide (3 < pp c 2) || decide (2 < pp c 3) || (pp c 0 == 0 && !ptpPair (pp c 1) (pp c 3))
/-- A source starts. -/
def Dev.startSource (d : Dev) (source profile port transport : Nat) : Dev :=
  { d with tmu.source := source, tmu.profile := profile, tmu.port := port, tmu.transport := transport, tmu.missed := 0 }
/-- TIME_SOURCE: the selected source and what quality follows. -/
def Dev.timeSource (d : Dev) (c : PqCmd) : Dev :=
  d.checks c [(badSource c, badParam)]
    fun d =>
      let d1 := d.startSource (pp c 0) (pp c 1) (pp c 2) (pp c 3)
      let d2 := if pp c 0 = 2 then d1.setQuality 0 4
        else if d1.rf TMU_QUALITY_STATE = 4 then d1 else d1.setQuality 1 4
      d2.fin c okS
def execTimeSource (c : PqCmd) (s : State) : Res := s.pq 0x0502 c fun d => d.timeSource c

/-- SYNCE_CLK follows link 0 of its port: held low while that link is down, with SYNCE_LOST raised when it goes (R397). -/
def Dev.synceCheck (d : Dev) : Dev :=
  let lost := d.flag TMU_SYNCE_EN && !bitAt (d.rf (ETH_Pp_STS_LINK_UP (d.rf TMU_SYNCE_PORT))) 0
  let d1 : Dev := { d with tmu.synceLost := lost }
  if lost && !d.tmu.synceLost then d1.event 2 4 (d.rf TMU_SYNCE_PORT) 0 0 else d1

/-- SYNCE_SET. -/
def execSynceSet (c : PqCmd) (s : State) : Res :=
  s.pq 0x0506 c fun d =>
    d.checks c [(decide (3 < pp c 0) || decide (1 < pp c 1), badParam)] fun d =>
      ((d.wf TMU_SYNCE_PORT (pp c 0)).wf TMU_SYNCE_EN (pp c 1)).synceCheck.fin c okS

/-- The increment held in HOLDOVER is its 60 s average, open within 1,000 ppm (assumption log). -/
def Dev.holdInc (d : Dev) : Dev :=
  let a := d.rf TMU_INC_CTL_ACTIVE
  let x := d.fresh (incTmu / 500)
  (x.1.loadBank (1 - a) (incTmu - incTmu / 1000 + x.2)).wf TMU_INC_CTL_ACTIVE (1 - a)

/-- The source is lost (R399): after LOCKED, HOLDOVER; otherwise FREE_RUN. A HOLD_LIMIT of 0 ends HOLDOVER at once. -/
def Dev.sourceLost (d : Dev) : Dev :=
  let d0 := if d.tmu.source = 1 then d.event 2 3 3 0 0 else d
  match d.rf TMU_QUALITY_STATE with
  | 2 =>
    let d1 := d0.holdInc.setQuality 3 0
    if d1.rf TMU_HOLD_LIMIT = 0 then d1.setQuality 0 2 else d1
  | 1 => d0.setQuality 0 0
  | _ => d0

/-- QUALITY_CHANGE: 0 the source is lost, 1 the lock criterion is met, 2 HOLDOVER reaches its limit, 3 the source returns.
The reason code of a return is open (assumption log). -/
def Dev.qualityChange (d : Dev) (why : Nat) : Dev :=
  let q := d.rf TMU_QUALITY_STATE
  match why with
  | 0 => d.sourceLost
  | 1 => if (q = 1 ∨ q = 4) ∧ d.tmu.source ≠ 2 then d.setQuality 2 1 else d
  | 2 => match d.tmu.holdSince with
    | some t => if q = 3 then (d.advanceTo (t + nsT (1000000000 * d.rf TMU_HOLD_LIMIT))).setQuality 0 2 else d
    | none => d
  | _ => if q = 3 ∨ (q = 0 ∧ d.tmu.source ≠ 2) then d.setQuality 1 (Config.freeAt 9 3 % 256) else d
def execQualityChange (why : Fin 4) (s : State) : Res := s.act fun d => d.qualityChange why

/-! ### 1PPS and time of day (R398) -/

/-- PPS_IN_EDGE: a rising edge is timestamped. -/
def execPpsInEdge (s : State) : Res :=
  s.act fun d =>
    let t := d.now - nsT (d.rf TMU_PPS_IN_DLY)
    { (d.putTime TMU_PPS_IN_i_TIME t).bump TMU_PPS_IN_CNT with tmu.edge := some d.now, tmu.missed := 0 }

/-- TOD_RX_MESSAGE: a message of `format` naming second `secs` is complete; between 100 ms and 900 ms after an edge it names
that edge. ZDA sentences are in UTC. -/
def execTodRxMessage (format : Bool) (secs : BitVec 48) (s : State) : Res :=
  s.act fun d =>
    match d.tmu.edge with
    | none => d
    | some t =>
      if d.flag TMU_TOD_CFG_FORMAT == format && decide (t + msT 100 ≤ d.now) && decide (d.now ≤ t + msT 900) then
        { d with tmu.named := some (t, secs.toNat + if format then d.rf TMU_UTC_OFS else 0) }
      else d

/-- The next instant after `now` at which TMU nanoseconds pass `ofs`. -/
def nextPps (now ofs : Nat) : Nat :=
  let sec := nsT 1000000000
  let t := now / sec * sec + nsT ofs
  if now < t then t else t + sec

/-- PPS_OUT_EDGE: the output rises where TMU nanoseconds pass PPS_OFS, and falls WIDTH ms later. -/
def execPpsOutEdge (s : State) : Res :=
  s.act fun d =>
    match d.tmu.ppsFall with
    | some t => { d.advanceTo t with tmu.ppsFall := none }
    | none =>
      if d.flag TMU_PPS_OUT_EN then
        let ofs := (toSigned 32 (d.rf TMU_PPS_OFS) % 1000000000).toNat
        let d1 := d.advanceTo (nextPps d.now ofs)
        { d1 with tmu.ppsFall := some (d1.now + msT (d1.rf TMU_PPS_OUT_WIDTH)), tmu.ppsEdge := some d1.now }
      else d

/-- TOD_TX_SEND: the message of the last edge, 300 ms after it, in UTC with FORMAT 1. -/
def execTodTxSend (s : State) : Res :=
  s.act fun d =>
    match d.tmu.ppsEdge with
    | none => d
    | some t =>
      if d.flag TMU_TOD_CFG_TX_EN then
        let secs := t / nsT 1000000000 - if d.flag TMU_TOD_CFG_FORMAT then d.rf TMU_UTC_OFS else 0
        { d.advanceTo (t + msT 300) with tmu.ppsEdge := none, tmu.todSent := d.tmu.todSent ++ [secs] }
      else d

end Sys2Proof.Machine
end

