-- ==== Sys2Proof/Machine/Zth.lean ====
section
/-! DEFINITION. The Zither: link bring-up, lock loss, tests and scans (R356-R375). -/

namespace Sys2Proof.Machine

/-! ### Ethernet links (R358, R376) -/

/-- Link k = 4p + j exists under the port's SPLIT, and the lanes it uses. -/
def Dev.ethLanes (d : Dev) (k : Nat) : Option (List Nat) :=
  let p := k / 4
  let j := k % 4
  match d.rf (ETH_Pp_CFG_SPLIT p) with
  | 0 => if j = 0 then some ((upTo 4).map (84 + 4 * p + ·)) else none
  | 1 => if j % 2 = 0 then some [84 + k, 85 + k] else none
  | 2 => some [84 + k]
  | _ => none

def ethUpF (k : Nat) : Fld := ⟨rETH_Pp_STS (k / 4), k % 4, 1⟩
/-- Ethernet link `k` is up. -/
def Dev.ethUp (d : Dev) (k : Nat) : Bool := d.flag (ethUpF k)

/-- The taps of EL lane `i` return to its board values, from which a bring-up starts (R358). -/
def Dev.tapsBoard (d : Dev) (i : Nat) : Dev := { d with zth.taps := d.zth.taps.filter fun p => p.1 / 4 != i }
/-- An Ethernet link goes down: its lanes lose their locks and return to their board values, SyncE follows. -/
def Dev.ethDown (d : Dev) (k : Nat) : Dev :=
  if !d.ethUp k then d
  else
    let lanes := (d.ethLanes k).getD []
    (lanes.foldl (fun d i => (d.loseLock i).tapsBoard i) (d.setFlag (ethUpF k) false)).synceCheck

/-- A port that is off has no link. -/
def Dev.portStop (d : Dev) (p : Nat) : Dev :=
  if d.flag (ETH_Pp_CTL_ENABLE p) then d else (upTo 4).foldl (fun d j => d.ethDown (4 * p + j)) d

/-- The first failed training of a link since it was last up is reported. -/
def Dev.trainFailed (d : Dev) (link lane step : Nat) : Dev :=
  if d.zth.failed.contains link then d
  else { d.laneEvent 3 lane (d.laneRate lane) step with zth.failed := link :: d.zth.failed }

/-- Start every lane of a list at a rate: the Bool says all could. -/
def Dev.startAll (d : Dev) (lanes : List Nat) (r : Nat) : Dev × Bool :=
  lanes.foldl (fun (acc : Dev × Bool) i => let x := acc.1.laneStart i r; (x.1, acc.2 && x.2)) (d, true)

/-- ETH_LINK_BRINGUP: link `k` is brought up; `step` is the step of R358 that failed, 0 for none; without auto-negotiation steps 2 and 3 do not take
place. RX_SKEW is measured at the
alignment: a free value. -/
def Dev.ethBringup (d : Dev) (k step : Nat) : Dev :=
  let p := k / 4
  match d.ethLanes k with
  | none => d
  | some lanes =>
    if !d.domRun (57 + p) || !d.flag CKR_PLL_STS_ETH_LOCK || !d.flag (ETH_Pp_CTL_ENABLE p) || d.ethUp k || (!d.flag (ZTH_ETH_p_CFG_AN p) && (step == 2 || step == 3)) then d
    else
      let x := d.startAll lanes 0x12
      if !x.2 then x.1
      else if 0 < step then (lanes.foldl Dev.tapsBoard x.1).trainFailed k (84 + k) step
      else
        let d1 := (lanes.foldl Dev.lockAgain x.1).setFlag (ethUpF k) true
        let f := d1.fresh (2 ^ 16)
        { (f.1.wf (ETH_Lk_RX_SKEW k) f.2) with zth.failed := f.1.zth.failed.filter (· != k) }.synceCheck
def execEthLinkBringup (k : Fin 16) (step : Fin 5) (s : State) : Res := s.act fun d => d.ethBringup k step

/-- The link that EL lane `i` of a port belongs to. -/
def Dev.linkOf (d : Dev) (i : Nat) : Option Nat := (upTo 16).find? fun k => ((d.ethLanes k).getD []).contains i
/-- ETH_TRAIN_REQUEST: while the lane's link trains, the partner asks to move tap `tap` of an EL lane by one step; no further than WINDOW (R358 step 3). -/
def execEthTrainRequest (lane : Fin 16) (tap : Fin 4) (up : Bool) (s : State) : Res :=
  s.act fun d =>
    let i := 84 + lane.val
    let p := lane.val / 4
    match d.entry i 0x12 with
    | none => d
    | some e =>
      if !d.flag (ETH_Pp_CTL_ENABLE p) || !d.flag (ZTH_ETH_p_CFG_AN p) || !d.domRun (57 + p) || !d.lanePll i || ((d.linkOf i).map d.ethUp).getD true then d
      else
        let key := 4 * i + tap.val
        let v := Tab.getD (fun _ => (0 : Int)) d.zth.taps key + if up then 1 else -1
        if v.natAbs ≤ e.window then { d with zth.taps := Tab.setD (fun _ => (0 : Int)) d.zth.taps key v } else d

/-! ### The twin link (R359) -/

/-- EL16-EL19. -/
def twinLanes : List Nat := [100, 101, 102, 103]
/-- The highest rate code (0-2) for which all four twin lanes have entries at it and every lower one. -/
def Dev.twinBest (d : Dev) : Option Nat :=
  let has (r : Nat) : Bool := twinLanes.all fun i => (d.entry i (0x10 + r)).isSome
  if has 2 then some 2 else if has 1 then some 1 else if has 0 then some 0 else none
/-- The twin link is up. -/
def Dev.twinUp (d : Dev) : Bool := d.flag ZTH_TWIN_STS_UP

/-- The twin link goes down; its lanes go back to step 1. -/
def Dev.twinDown (d : Dev) : Dev :=
  { (twinLanes.foldl Dev.loseLock ((d.setFlag ZTH_TWIN_STS_UP false).wf ZTH_TWIN_STS_RATE 0)) with zth.twinCap := 2, zth.twinPeer := none }

/-- A device that wants no twin link has none. -/
def Dev.twinStop (d : Dev) : Dev := if d.twinUp && !d.twinWanted then d.twinDown else d

/-- TWIN_LINK_TRAIN: all four lanes have their 256 good blocks and lock at the lower of the two advertised rate codes. -/
def Dev.twinTrain (d : Dev) (partner : Nat) : Dev :=
  if !d.twinWanted || !d.domRun 61 || !d.flag CKR_PLL_STS_ETH_LOCK || d.twinUp then d
  else
    let x := d.startAll twinLanes 0x10
    if !x.2 then x.1
    else
      let r := min (min (d.twinBest.getD 0) partner) d.zth.twinCap
      let y := x.1.startAll twinLanes (0x10 + r)
      if !y.2 then { y.1 with zth.twinPeer := some partner } else
      let d1 := twinLanes.foldl Dev.lockAgain y.1
      { ((d1.wf ZTH_TWIN_STS_RATE (r + 1)).setFlag ZTH_TWIN_STS_UP true) with zth.failed := d1.zth.failed.filter (· != 16) }
def execTwinLinkTrain (partner : Fin 3) (s : State) : Res := s.act fun d => d.twinTrain partner

/-- TWIN_LINK_FALLBACK: not locked 5 ms after the switch: one rate below the one agreed, the lower of both advertised; which code the partner advertised
before the link has ever been up is a free value. -/
def execTwinLinkFallback (s : State) : Res :=
  s.act fun d =>
    if !d.twinWanted || !d.domRun 61 || d.twinUp then d
    else
      let p := match d.zth.twinPeer with
        | some c => (d, c)
        | none => d.fresh 3
      let top := min (min p.1.zth.twinCap (p.1.twinBest.getD 0)) p.2
      ({ p.1 with zth.twinCap := top - 1, zth.twinPeer := some p.2 }.bump ZTH_TWIN_FALLBACKS).trainFailed 16 100 4

/-! ### PCI Express (R360, R361) -/

/-- The presets of a generation start from DEFAULT again. -/
def Dev.eqDefault (d : Dev) (gen : Nat) : Dev := { d with zth.presets := d.zth.presets.filter fun p => p.1 % 8 != gen }
/-- The preset PL lane `i` transmits at a generation: the one its partner requested last in this training, or DEFAULT of its entry (R361). -/
def Dev.preset (d : Dev) (i gen : Nat) : Option Nat :=
  match Tab.find d.zth.presets (8 * i + gen) with
  | some p => some p
  | none => (d.entry i (0x1F + gen)).map fun e => bitsAt e.tx 11 4
/-- Equalisation at a generation begins, unless it is under way: every lane starts from DEFAULT, and has requested REQ_PRESET of its partner, once. -/
def Dev.eqBegin (d : Dev) (gen : Nat) : Dev :=
  if d.zth.eqGen = some gen ∨ gen < 3 then d
  else
    let d1 := d.eqDefault gen
    { d1 with zth.eqGen := some gen, zth.asked := (upTo 8).foldl (fun t j => match d.entry (104 + j) (0x1F + gen) with
        | some e => Tab.put t (104 + j) e.req
        | none => t) d1.zth.asked }

/-- PCIE_LINK_TRAIN: the link trains to generation `gen`, 1-6, and a width of 2^`w` lanes; `step` not 0: it failed there. Once it is up the host
enables ASPM L1 for it, or not (R423, assumption log). -/
def Dev.pcieTrain (d : Dev) (gen w : Nat) (flit reversed : Bool) (step : Nat) (aspm : Bool) : Dev :=
  if !d.domRun 62 || !d.flag CKR_PLL_STS_PCIE_LOCK || gen == 0 || decide (d.rf ZTH_PCIE_STS_MAXGEN < gen) || (gen == 6 && !flit) then d
  else
    let lanes := (upTo 8).map (104 + ·)
    let e := d.eqBegin gen
    let x := ({ e with zth.eqGen := none } : Dev).startAll lanes (0x20 + gen - 1)
    if 0 < step then x.1.trainFailed 17 104 step
    else
      let d1 := (lanes.take (2 ^ w)).foldl Dev.lockAgain x.1
      let d2 := ((((d1.wf ZTH_PCIE_STS_GEN gen).wf ZTH_PCIE_STS_WIDTH (2 ^ w)).setFlag ZTH_PCIE_STS_FLIT flit).setFlag
        ZTH_PCIE_STS_REVERSED reversed)
      { d2 with zth.failed := d2.zth.failed.filter (· != 17), pmu.aspm := aspm }
def execPcieLinkTrain (gen : Fin 7) (w : Fin 4) (flit reversed : Bool) (ended : Fin 4 × Bool) (s : State) : Res :=
  s.act fun d => d.pcieTrain gen w flit reversed ended.1 ended.2

/-- PCIE_EQ_PRESET_REQUEST: in Phase 3 a preset is applied if its ALLOWED bit is 1, else rejected. -/
def execPcieEqPresetRequest (lane : Fin 8) (gen : Fin 7) (preset : Fin 11) (s : State) : Res :=
  s.act fun d =>
    let i := 104 + lane.val
    match d.entry i (0x1F + gen.val) with
    | some e => if 3 ≤ gen.val ∧ d.domRun 62 ∧ bitAt e.tx preset.val then
        let d1 := d.eqBegin gen.val
        { d1 with zth.presets := Tab.put d1.zth.presets (8 * i + gen.val) preset.val }
      else if 3 ≤ gen.val ∧ d.domRun 62 then d.eqBegin gen.val else d
    | none => d

/-! ### Lock loss (R356, R357) -/

/-- LANE_LOST: an in-service receive lane loses its lock; the link it belongs to follows. -/
def Dev.laneLost (d : Dev) (i : Nat) : Dev :=
  if !d.inService i || isCtx i || !(d.flag (ZTH_Li_STS_CDR_LOCK i)) then d
  else
    let d2 := d.loseLock i
    if isEl i && decide (100 ≤ i) then d2.twinDown
    else if isEl i then
      match d2.linkOf i with
      | some k => d2.ethDown k
      | none => d2
    else d2
def execLaneLost (lane : Fin 112) (s : State) : Res := s.act fun d => d.laneLost lane

/-- LANE_RESTORED: a lost lane that is still in service and can lock does so. -/
def execLaneRestored (lane : Fin 112) (s : State) : Res :=
  s.act fun d => if (Tab.find d.zth.lostAt lane).isSome && d.inService lane && d.laneReady lane then d.lockAgain lane else d

/-- CRX_LOCK: a started converter receive lane acquires clock-recovery lock. -/
def execCrxLock (lane : Fin 32) (s : State) : Res :=
  s.act fun d =>
    let i := 52 + lane.val
    if d.laneReady i && d.rf (ZTH_Li_STS_RATE i) != 0 then
      if (Tab.find d.zth.lostAt i).isSome then d.lockAgain i else (d.setFlag (ZTH_Li_STS_SIGNAL i) true).setFlag (ZTH_Li_STS_CDR_LOCK i) true
    else d

/-! ### Patterns, injected errors, loopbacks (R363-R366) -/

/-- The lane that loops with lane `i`: CTX i with CRX i; an EL lane with itself. -/
def loopPartner (i : Nat) : Nat := if i < 32 then 52 + i else if isCrx i then i - 52 else i
/-- The lane or its loop partner is in service. -/
def Dev.testBusy (d : Dev) (i : Nat) : Bool := d.inService i || d.inService (loopPartner i)
/-- The lane's own domain, and its partner's, do not answer. -/
def Dev.testOff (d : Dev) (i : Nat) : Bool := !d.domOn (laneDom i) || !d.domOn (laneDom (loopPartner i))

/-- LANE_LOOPBACK. -/
def execLaneLoopback (c : PqCmd) (s : State) : Res :=
  s.pq 0x0A01 c fun d =>
    let i := pp c 0
    d.checks c [(decide (104 ≤ i) || decide (3 < pp c 1) || (decide (32 ≤ i) && decide (i < 52)), badParam), (d.testOff i, domainOffS),
        (d.testBusy i, busyS)] fun d =>
      ((d.wf (ZTH_Li_CTL_LOOPBACK i) (pp c 1)).wf (ZTH_Li_CTL_LOOPBACK (loopPartner i)) (pp c 1)).fin c okS

/-- Set a lane's generator; set its checker, which then seeds itself again. -/
def Dev.setGen (d : Dev) (i pat rate : Nat) : Dev := (d.wf (ZTH_Li_CTL_GEN i) pat).wf (ZTH_Li_INJ_RATE i) rate
def Dev.setChk (d : Dev) (i pat : Nat) : Dev := (d.wf (ZTH_Li_CTL_CHK i) pat).setFlag (ZTH_Li_STS_CHK_LOCK i) false

/-- LANE_PATTERN: the generator on a CTX lane, the checker on a CRX lane, both on an EL lane. -/
def execLanePattern (c : PqCmd) (s : State) : Res :=
  s.pq 0x0A02 c fun d =>
    let i := pp c 0
    d.checks c [(decide (104 ≤ i) || decide (3 < pp c 1) || decide (1000000 < pp c 2), badParam),
        (!d.domOn (laneDom i), domainOffS), (d.testBusy i, busyS)] fun d =>
      let d1 := if isCrx i then d else d.setGen i (pp c 1) (pp c 2)
      (if isCtx i then d1 else d1.setChk i (pp c 1)).fin c okS

/-- CHECKER_LOCK: 64 error-free bits. -/
def execCheckerLock (lane : Fin 112) (s : State) : Res :=
  s.act fun d => if d.rf (ZTH_Li_CTL_CHK lane) != 0 && !isCtx lane && d.domRun (laneDom lane) then d.setFlag (ZTH_Li_STS_CHK_LOCK lane) true else d

/-- CHECKER_LOCK_LOST: `errs` and `mbits` were counted while the checker was locked; it lost its lock, more than 256 of 1,024 bits being in error,
or (the operand's flag) it is still locked and only its counters have moved. -/
def execCheckerLockLost (lane : Fin 112 × Bool) (errs mbits : BitVec 32) (s : State) : Res :=
  s.act fun d => if d.flag (ZTH_Li_STS_CHK_LOCK lane.1) && !isCtx lane.1 then
      ((d.bumpBy (ZTH_Li_CHK_ERR lane.1) errs.toNat).bumpBy (ZTH_Li_CHK_MBITS lane.1) mbits.toNat).setFlag (ZTH_Li_STS_CHK_LOCK lane.1) lane.2
    else d

/-- ERROR_INJECT: the generator inverts one bit; a looped lane's locked checker counts it once. -/
def execErrorInject (lane : Fin 112) (s : State) : Res :=
  s.act fun d =>
    if d.rf (ZTH_Li_CTL_GEN lane) = 0 ∨ isCrx lane ∨ d.rf (ZTH_Li_INJ_RATE lane) = 0 ∨ !d.domRun (laneDom lane) then d
    else
      let d1 := d.bump (ZTH_Li_INJECTED lane)
      let r := loopPartner lane
      let m := d1.rf (ZTH_Li_CTL_LOOPBACK lane)
      if (m = 1 ∨ m = 2) ∧ d1.flag (ZTH_Li_STS_CHK_LOCK r) ∧ d1.rf (ZTH_Li_CTL_CHK r) = d1.rf (ZTH_Li_CTL_GEN lane) then
        d1.bump (ZTH_Li_CHK_ERR r)
      else d1

/-! ### Eye scans (R367-R369, R300, R301) -/

/-- A scan begins: an EL lane's port, or the twin link after announcing the gap, is out of receive service for 1.8 ms on A1. -/
def Dev.scanStart (d : Dev) (i : Nat) (cmd : Option (Nat × Nat)) : Dev :=
  let d1 : Dev := { d.setFlag (ZTH_Li_STS_SCANNING i) true with zth.scans := d.zth.scans ++ [⟨i, d.flag (ZTH_Li_STS_CDR_LOCK i), cmd⟩] }
  if isEl i then
    let t := d.now + usT 1800
    let d2 : Dev := { d1 with zth.gaps := Tab.put d1.zth.gaps ((i - 84) / 4) t }
    if 100 ≤ i then { d2 with twin.gapEnd := t } else d2
  else d1

/-- EYE_SCAN. -/
def execEyeScan (c : PqCmd) (s : State) : Res :=
  s.pq 0x0A03 c fun d =>
    let i := pp c 0
    d.checks c [(!isCrx i && !isEl i || (isEl i && (d.rf (ZTH_Li_STS_RATE i) == 0x10 || d.rf (ZTH_Li_STS_RATE i) == 0x11)), badParam), (!d.domOn (laneDom i), domainOffS),
        (d.flag (ZTH_Li_STS_SCANNING i), busyS)] fun d =>
      (d.accepted c.queue.val c.tag.toNat).scanStart i (some (c.queue.val, c.tag.toNat))

/-- The run of consecutive open points of `pts` that contains point `mid`. -/
def openRun (pts : List Bool) (mid : Nat) : Nat :=
  if nth false pts mid then
    ((pts.drop mid).takeWhile id).length + ((pts.take mid).reverse.takeWhile id).length
  else 0

/-- Width in mUI and height in mV from the 96 points: 64 phase offsets about point 32, 32 thresholds about point 16. -/
def eyeOf (pts : BitVec 128) : Nat × Nat :=
  let l := (upTo 96).map fun i => bitAt pts.toNat i
  (openRun (l.take 64) 32 * 15625 / 1000, openRun (l.drop 64) 16 * 5)

/-- The result of a scan goes to the lane's EYE register. -/
def Dev.scanEnd (d : Dev) (x : Scan) (pts : BitVec 128) : Dev × Nat × Nat :=
  let e := if x.lock then eyeOf pts else (0, 0)
  let d1 := ((d.setFlag (ZTH_Li_STS_SCANNING x.lane) false).wf (ZTH_Li_EYE_WIDTH x.lane) e.1).wf (ZTH_Li_EYE_HEIGHT x.lane) e.2
  ({ d1 with zth.scans := d1.zth.scans.filter (·.lane != x.lane), zth.eyes := Tab.put d1.zth.eyes x.lane (if x.lock then pts.toNat else 0) }, e.1, e.2)

end Sys2Proof.Machine
end

