-- ==== Sys2Proof/Machine/Banks.lean ====
section
/-! DEFINITION. Two-bank controls: DPD, IQ and DC, alignment and sampling-point banks, their arming and switching (R228, R238-R242,
R285, R286, R292, R302, R370). -/

namespace Sys2Proof.Machine

/-! ### One view of the four controls -/

/-- ACTIVE, PENDING, TIMELINE, SWITCHES and the ARM register of control `i` of kind `kind`. -/
def bkActive (kind i : Nat) : Fld :=
  match kind with
  | 0 => DFE_TX_t_DPD_ACTIVE i
  | 1 => DFE_IQC_r_CTL_ACTIVE i
  | 2 => DFE_ALN_c_CTL_ACTIVE i
  | _ => ZTH_Li_SPC_CTL_ACTIVE i
def bkPending (kind i : Nat) : Fld :=
  match kind with
  | 0 => DFE_TX_t_DPD_PENDING i
  | 1 => DFE_IQC_r_CTL_PENDING i
  | 2 => DFE_ALN_c_CTL_PENDING i
  | _ => ZTH_Li_SPC_CTL_PENDING i
def bkTl (kind i : Nat) : Fld :=
  match kind with
  | 0 => DFE_TX_t_DPD_TIMELINE i
  | 1 => DFE_IQC_r_CTL_TIMELINE i
  | 2 => DFE_ALN_c_CTL_TIMELINE i
  | _ => ZTH_Li_SPC_CTL_TIMELINE i
def bkSwitches (kind i : Nat) : Fld :=
  match kind with
  | 0 => DFE_TX_t_SWITCHES i
  | 1 => DFE_IQC_r_SWITCHES i
  | 2 => DFE_ALN_c_SWITCHES i
  | _ => ZTH_Li_SWITCHES i
def bkSel (kind i : Nat) : Nat :=
  match kind with
  | 0 => rDFE_TX_t_DPD_SEL i
  | 1 => rDFE_IQC_r_SEL i
  | 2 => rDFE_ALN_c_SEL i
  | _ => rZTH_Li_SPC_SEL i
/-- HELD of a control; DPD chains show it in DFE_CAL_DPD_HELD (R302). -/
def bkHeld (kind i : Nat) : Fld :=
  match kind with
  | 0 => if i < 32 then ⟨rDFE_CAL_DPD_HELD_LO, i, 1⟩ else ⟨rDFE_CAL_DPD_HELD_HI, i - 32, 1⟩
  | 1 => DFE_IQC_r_CTL_HELD i
  | 2 => DFE_ALN_c_CTL_HELD i
  | _ => ZTH_Li_SPC_CTL_HELD i

/-! ### DPD terms (R238, R239) -/

/-- Bank `b` of chain `t` has a used term, and no used term breaks R238. -/
def Dev.dpdOk (d : Dev) (t b : Nat) : Bool :=
  let used := (upTo 64).filter fun i => d.rf (DFE_DPD_t_b_TERM_i_K t b i) != 0
  !used.isEmpty && used.all fun i =>
    let m : Int := d.rf (DFE_DPD_t_b_TERM_i_M t b i)
    let l := toSigned 4 (d.rf (DFE_DPD_t_b_TERM_i_L t b i))
    decide (d.rf (DFE_DPD_t_b_TERM_i_K t b i) ≤ 9) && decide (0 ≤ m + l) && decide (m + l ≤ 7) && decide (-8 < l)

/-! ### Arming -/

/-- Arm a switch for the first boundary whose seal point is later than `t`. -/
def Dev.armAt (d : Dev) (kind i t : Nat) (src : ArmSrc) : Dev :=
  let n := d.rf (bkTl kind i)
  let a : Arm := ⟨kind, i, n, d.sealAfter n t, t, false, src⟩
  { d.setFlag (bkPending kind i) true with cal.arms := d.cal.arms ++ [a] }
/-- Arm a switch for the next boundary whose seal point has not passed (R228). -/
def Dev.armNow (d : Dev) (kind i : Nat) (src : ArmSrc) : Dev := d.armAt kind i d.now src

/-- Arming is refused: pending, held, or an unusable DPD bank. -/
def Dev.armBad (d : Dev) (kind i : Nat) : Bool :=
  d.flag (bkPending kind i) || d.flag (bkHeld kind i) || (kind == 0 && !d.dpdOk i (1 - d.rf (bkActive 0 i)))

/-- A write of a SEL register. -/
def Dev.selWr (d : Dev) (init : Initiator) (kind i value : Nat) : Dev :=
  let off := bkSel kind i
  let r := d.busWr init off value
  match r.2 with
  | .no => r.1
  | .yes cmds =>
    if !bitAt cmds 0 then r.1
    else if d.armBad kind i then r.1.regErr .ignored off init
    else r.1.armNow kind i .sel
/-- DPD_ARM, CAL_BANK_ARM (kinds 1 and 2), SPC_BANK_ARM. -/
def execDpdArm (init : Initiator) (t : Fin 64) (value : Word) (s : State) : Res := s.act fun d => d.selWr init 0 t value.toNat
def execCalBankArm (init : Initiator) (aln : Bool) (i : Fin 64) (value : Word) (s : State) : Res :=
  s.act fun d => d.selWr init (1 + b2n aln) i value.toNat
def execSpcBankArm (init : Initiator) (lane : Fin 112) (value : Word) (s : State) : Res :=
  s.act fun d => d.selWr init 3 lane value.toNat

/-! ### DPD_BANK_SELECT (R240, R292) -/

/-- Write ARM for a DPD_BANK_SELECT; a control that cannot be armed any more fails the command. -/
def Dev.dpdArmFor (d : Dev) (t q tag : Nat) : Dev :=
  if d.flag (bkPending 0 t) || d.flag (bkHeld 0 t) then d.complete q tag busyS []
  else if !d.dpdOk t (1 - d.rf (bkActive 0 t)) then (d.complete q tag internalS []).health 5 6 t
  else d.armNow 0 t (.cmd q tag)

/-- DPD_BANK_SELECT: ARM is written in the period before the target. -/
def Dev.dpdBankSelect (d : Dev) (c : PqCmd) : Dev :=
  let t := pp c 0
  let n := c.timeline.toNat
  d.checks c
    [(decide (64 ≤ t) || decide (2 ≤ pp c 1) || d.badTarget c || n != d.rf (DFE_TX_t_DPD_TIMELINE t), badParam),
     (d.flag (bkPending 0 t) || d.flag (bkHeld 0 t), busyS)] fun d =>
      if d.rf (DFE_TX_t_DPD_ACTIVE t) = pp c 1 then d.finR c [d.refK n % 65536]
      else if (d.tl n).started && ahead (d.tl n).k c.target.toNat == 1 then d.dpdArmFor t c.queue.val c.tag.toNat
      else d.stage c 0x0404 true (.dpdSelect t (pp c 1))
def execDpdBankSelect (c : PqCmd) (s : State) : Res := s.pq 0x0404 c fun d => d.dpdBankSelect c

/-- At the event of boundary `k`, the selects staged for boundary `k + 1` write ARM. -/
def Dev.dpdStagedArm (d : Dev) (n k : Nat) : Dev :=
  let due (e : Staged) : Bool := match e.eff with
    | .dpdSelect _ _ => e.tl == n && decide (ahead k e.target ≤ 1)
    | _ => false
  let mine := d.fw.staged.filter due
  mine.foldl (fun d e => match e.eff with
    | .dpdSelect t _ => d.dpdArmFor t e.queue e.tag
    | _ => d) { d with fw.staged := d.fw.staged.filter fun e => !due e }

/-! ### Switching (step 3 of R21) -/

/-- A group touched chain `t` at the boundary before `k` (R242). -/
def Dev.touchedBefore (d : Dev) (n k t : Nat) : Bool := d.cal.touched.any fun x => x.1 == n && x.2.1 + 1 == k && x.2.2 == t

/-- The switch of control `i` of kind `kind` acts on a chain or lane that the statistic of a run's target measures (R290): predistortion and
transmit weight on TX chains, IQ control and receive weight on RX chains; the windows of kind 2 measure every target's chains. -/
def CalRun.measures (r : CalRun) (t : CalTgt) (kind i : Nat) : Bool :=
  match r.kind with
  | 0 => (kind == 0 || kind == 2) && t.idx == i
  | 1 => (kind == 1 || kind == 2) && t.idx == i
  | 2 => decide (kind ≤ 2) && r.targets.any fun x => x.idx == i
  | _ => kind == 3 && t.idx == i
/-- The statistic windows that are open where a switch acts are discarded, and begin again with the first sample after it (R290). -/
def Dev.windowsRestart (d : Dev) (kind i at_ : Nat) : Dev :=
  { d with cal.runs := d.cal.runs.map fun (r : CalRun) =>
      { r with targets := r.targets.map fun t =>
          if (t.phase == .gathering || t.phase == .verifying) && r.measures t kind i then { t with win := at_ } else t } }
/-- The two words of a bank of an IQ or alignment control. -/
def Dev.bankWords (d : Dev) (kind i b : Nat) : Nat × Nat :=
  if kind = 1 then (d.reg (rDFE_IQC_r_b_DC i b), d.reg (rDFE_IQC_r_b_IQ i b)) else (d.reg (rDFE_ALN_c_b_RXW i b), d.reg (rDFE_ALN_c_b_TXW i b))

/-- The switch acts: ACTIVE and PENDING change, and whoever armed it learns the period. -/
def Dev.switchBank (d : Dev) (a : Arm) (k : Nat) : Dev :=
  let at_ := d.boundaryT a.tl k
  let old := d.bankWords a.kind a.target (d.rf (bkActive a.kind a.target))
  let d0 : Dev := if a.kind = 1 ∨ a.kind = 2 then { d with cal.swOld := Tab.put d.cal.swOld (128 * a.kind + a.target) (at_, old) } else d
  let d1 := ((((d0.recAdd 5 a.tl (k % 65536) none).wf (bkActive a.kind a.target) (1 - d.rf (bkActive a.kind a.target))).setFlag (bkPending a.kind a.target) false)).bump
    (bkSwitches a.kind a.target) |>.windowsRestart a.kind a.target at_
  match a.src with
  | .sel => d1
  | .cmd q tag => d1.complete q tag okS [k % 65536]
  | .run id =>
    let d1 := d1.setFlag (bkHeld a.kind a.target) false
    let upd (r : CalRun) : CalRun :=
      if r.id = id then
        { r with lastPeriod := some (k % 65536),
                 targets := r.targets.map fun t => if t.idx = a.target then
                   { t with phase := if a.kind ≤ 1 then .verifying else .committed, period := k % 65536, win := at_ } else t }
      else r
    { d1 with cal.runs := d1.cal.runs.map upd }

/-- The switches of timeline `n` due at boundary `k`; on A1 a DPD switch may be deferred once. -/
def Dev.switchDue (d : Dev) (n k : Nat) : Dev :=
  let due := d.cal.arms.filter fun a => a.tl == n && decide (a.k ≤ k)
  let defer (a : Arm) : Bool := a.kind == 0 && !a.deferred && d.touchedBefore n k a.target
  let act := due.filter fun a => !defer a
  let upd (a : Arm) : Arm := { a with k := k + 1, deferred := true }
  let keep := (d.cal.arms.filter fun a => !(a.tl == n && decide (a.k ≤ k)) || defer a).map fun a =>
    if a.tl == n && decide (a.k ≤ k) then upd a else a
  act.foldl (fun d a => d.switchBank a k)
    { d with cal.arms := keep, cal.touched := d.cal.touched.filter fun x => x.1 != n || decide (k ≤ x.2.1 + 1) }

end Sys2Proof.Machine
end

