-- ==== Sys2Proof/Machine/Crypto.lean ====
section
/-! DEFINITION. The standard algorithms boot and debug unlock rest on: SHA-384 (FIPS 180-4), ECDSA over P-384 (FIPS 186-5),
AES-256 (FIPS 197) and AES Key Wrap (RFC 3394), as R445, R446, R449 and R456 name them. -/

namespace Sys2Proof.Machine

/-! ### SHA-384 -/

/-- The round constants. -/
def shaK : List Nat :=
  [0x428a2f98d728ae22, 0x7137449123ef65cd, 0xb5c0fbcfec4d3b2f, 0xe9b5dba58189dbbc] ++
  [0x3956c25bf348b538, 0x59f111f1b605d019, 0x923f82a4af194f9b, 0xab1c5ed5da6d8118] ++
  [0xd807aa98a3030242, 0x12835b0145706fbe, 0x243185be4ee4b28c, 0x550c7dc3d5ffb4e2] ++
  [0x72be5d74f27b896f, 0x80deb1fe3b1696b1, 0x9bdc06a725c71235, 0xc19bf174cf692694] ++
  [0xe49b69c19ef14ad2, 0xefbe4786384f25e3, 0x0fc19dc68b8cd5b5, 0x240ca1cc77ac9c65] ++
  [0x2de92c6f592b0275, 0x4a7484aa6ea6e483, 0x5cb0a9dcbd41fbd4, 0x76f988da831153b5] ++
  [0x983e5152ee66dfab, 0xa831c66d2db43210, 0xb00327c898fb213f, 0xbf597fc7beef0ee4] ++
  [0xc6e00bf33da88fc2, 0xd5a79147930aa725, 0x06ca6351e003826f, 0x142929670a0e6e70] ++
  [0x27b70a8546d22ffc, 0x2e1b21385c26c926, 0x4d2c6dfc5ac42aed, 0x53380d139d95b3df] ++
  [0x650a73548baf63de, 0x766a0abb3c77b2a8, 0x81c2c92e47edaee6, 0x92722c851482353b] ++
  [0xa2bfe8a14cf10364, 0xa81a664bbc423001, 0xc24b8b70d0f89791, 0xc76c51a30654be30] ++
  [0xd192e819d6ef5218, 0xd69906245565a910, 0xf40e35855771202a, 0x106aa07032bbd1b8] ++
  [0x19a4c116b8d2d0c8, 0x1e376c085141ab53, 0x2748774cdf8eeb99, 0x34b0bcb5e19b48a8] ++
  [0x391c0cb3c5c95a63, 0x4ed8aa4ae3418acb, 0x5b9cca4f7763e373, 0x682e6ff3d6b2b8a3] ++
  [0x748f82ee5defb2fc, 0x78a5636f43172f60, 0x84c87814a1f0ab72, 0x8cc702081a6439ec] ++
  [0x90befffa23631e28, 0xa4506cebde82bde9, 0xbef9a3f7b2c67915, 0xc67178f2e372532b] ++
  [0xca273eceea26619c, 0xd186b8c721c0c207, 0xeada7dd6cde0eb1e, 0xf57d4f7fee6ed178] ++
  [0x06f067aa72176fba, 0x0a637dc5a2c898a6, 0x113f9804bef90dae, 0x1b710b35131c471b] ++
  [0x28db77f523047d84, 0x32caab7b40c72493, 0x3c9ebe0a15c9bebc, 0x431d67c49c100d4c] ++
  [0x4cc5d4becb3e42b6, 0x597f299cfc657e2a, 0x5fcb6fab3ad6faec, 0x6c44198c4a475817]

/-- The initial hash value. -/
def shaH0 : List Nat :=
  [0xcbbb9d5dc1059ed8, 0x629a292a367cd507, 0x9159015a3070dd17, 0x152fecd8f70e5939] ++
  [0x67332667ffc00b31, 0x8eb44a8768581511, 0xdb0c2e0d64f98fa7, 0x47b5481dbefa4fa4]

def w64 (x : Nat) : Nat := x % 2 ^ 64
def ror64 (n x : Nat) : Nat := x / 2 ^ n + x % 2 ^ n * 2 ^ (64 - n)
def not64 (x : Nat) : Nat := 2 ^ 64 - 1 - x
/-- A number from bytes, most significant first. -/
def ofBeBytes (l : List Byte) : Nat := l.foldl (fun a b => 256 * a + b.toNat) 0
/-- The `n` low bytes of `v`, most significant first. -/
def beBytes (n v : Nat) : List Byte := (leBytes n v).reverse

/-- The padded message. -/
def shaPad (m : List Byte) : List Byte :=
  m ++ [0x80] ++ List.replicate ((239 - m.length % 128) % 128) 0 ++ beBytes 16 (8 * m.length)

/-- The next word of the message schedule, the latest word first. -/
def shaNext (w : List Nat) : Nat :=
  let a := nth 0 w 1
  let b := nth 0 w 14
  let s1 := ror64 19 a ^^^ ror64 61 a ^^^ a / 2 ^ 6
  let s0 := ror64 1 b ^^^ ror64 8 b ^^^ b / 2 ^ 7
  w64 (s1 + nth 0 w 6 + s0 + nth 0 w 15)

/-- The message schedule of a block. -/
def shaSched (blk : List Byte) : List Nat :=
  let w0 := (upTo 16).foldl (fun (w : List Nat) i => ofBeBytes (slice blk (8 * i) 8) :: w) []
  ((upTo 64).foldl (fun (w : List Nat) _ => shaNext w :: w) w0).reverse

/-- One round on the eight working values. -/
def shaRound (h : List Nat) (kw : Nat) : List Nat :=
  match h with
  | [a, b, c, d, e, f, g, hh] =>
    let s1 := ror64 14 e ^^^ ror64 18 e ^^^ ror64 41 e
    let ch := (e &&& f) ^^^ (not64 e &&& g)
    let t1 := hh + s1 + ch + kw
    let s0 := ror64 28 a ^^^ ror64 34 a ^^^ ror64 39 a
    let maj := (a &&& b) ^^^ (a &&& c) ^^^ (b &&& c)
    [w64 (t1 + s0 + maj), a, b, c, w64 (d + t1), e, f, g]
  | _ => h

/-- One block. -/
def shaBlock (h : List Nat) (blk : List Byte) : List Nat :=
  let r := ((shaSched blk).zip shaK).foldl (fun h p => shaRound h (p.1 + p.2)) h
  (h.zip r).map fun p => w64 (p.1 + p.2)

/-- SHA-384 of a message, as a number of 384 bits, most significant byte first. -/
def sha384 (m : List Byte) : Nat :=
  let b := shaPad m
  let h := (upTo (b.length / 128)).foldl (fun h i => shaBlock h (slice b (128 * i) 128)) shaH0
  (h.take 6).foldl (fun a x => 2 ^ 64 * a + x) 0

/-! ### ECDSA over P-384 -/

def ecP : Nat := 2 ^ 384 - 2 ^ 128 - 2 ^ 96 + 2 ^ 32 - 1
def ecN : Nat := 0xffffffffffffffffffffffffffffffffffffffffffffffffc7634d81f4372ddf581a0db248b0a77aecec196accc52973
def ecB : Nat := 0xb3312fa7e23ee7e4988e056be3f82d19181d9c6efe8141120314088f5013875ac656398d8a2ed19d2a85c8edd3ec2aef
def ecGx : Nat := 0xaa87ca22be8b05378eb1c71ef320ad746e1d3b628ba79b9859f741e082542a385502f25dbf55296c3a545e3872760ab7
def ecGy : Nat := 0x3617de4a96262c6f5d9e98bf9292dc29f8f41dbd289a147ce9da3113b5f0b8c00a60b1ce1d7e819d7a431d7c90ea0e5f

/-- `b^e` modulo `m`, for `e` of at most `n` bits. -/
def powMod (m : Nat) : Nat → Nat → Nat → Nat
  | 0, _, _ => 1 % m
  | n + 1, b, e => let r := powMod m n (b * b % m) (e / 2); if e % 2 = 1 then b * r % m else r
/-- The inverse modulo a prime of at most 384 bits. -/
def invMod (m x : Nat) : Nat := powMod m 384 (x % m) (m - 2)

/-- The sum of two points of the curve; none is the point at infinity. -/
def ecAdd (p q : Option (Nat × Nat)) : Option (Nat × Nat) :=
  match p, q with
  | none, _ => q
  | _, none => p
  | some (x1, y1), some (x2, y2) =>
    if x1 = x2 ∧ (y1 + y2) % ecP = 0 then none
    else
      let l := if x1 = x2 then (3 * x1 * x1 + (ecP - 3)) * invMod ecP (2 * y1) % ecP
        else (y2 + ecP - y1) * invMod ecP (x2 + ecP - x1) % ecP
      let x3 := (l * l + 2 * ecP - x1 - x2) % ecP
      some (x3, (l * (x1 + ecP - x3) + ecP - y1) % ecP)

/-- `k` times a point, for `k` of at most `n` bits. -/
def ecMul : Nat → Nat → Option (Nat × Nat) → Option (Nat × Nat)
  | 0, _, _ => none
  | n + 1, k, p => let r := ecMul n (k / 2) (ecAdd p p); if k % 2 = 1 then ecAdd p r else r

/-- The signature `sig` (r then s) over `msg` verifies under `key` (x then y), every number most significant byte first. -/
def ecdsaOk (key msg sig : List Byte) : Bool :=
  let x := ofBeBytes (slice key 0 48)
  let y := ofBeBytes (slice key 48 48)
  let r := ofBeBytes (slice sig 0 48)
  let s := ofBeBytes (slice sig 48 48)
  let onCurve := decide (x < ecP) && decide (y < ecP) && (y * y % ecP == (x * x * x + (ecP - 3) * x + ecB) % ecP)
  if onCurve && decide (0 < r) && decide (r < ecN) && decide (0 < s) && decide (s < ecN) then
    let w := invMod ecN s
    match ecAdd (ecMul 384 (sha384 msg * w % ecN) (some (ecGx, ecGy))) (ecMul 384 (r * w % ecN) (some (x, y))) with
    | none => false
    | some (px, _) => px % ecN == r
  else false

/-! ### AES-256 and key unwrapping -/

/-- Multiplication by x in the field of AES. -/
def xtime (a : Nat) : Nat := if a < 128 then 2 * a else (2 * a - 256) ^^^ 0x1B
/-- Product in the field of AES. -/
def gfMul (a b : Nat) : Nat :=
  ((upTo 8).foldl (fun (p : Nat × Nat) i => (if bitAt b i then p.1 ^^^ p.2 else p.1, xtime p.2)) (0, a)).1
/-- The inverse: a^254. -/
def gfInv (a : Nat) : Nat := (upTo 253).foldl (fun p _ => gfMul p a) a
/-- The S-box. -/
def aesS (a : Nat) : Nat :=
  let i := if a = 0 then 0 else gfInv a
  let rol (n : Nat) : Nat := (i * 2 ^ n) % 256 + i / 2 ^ (8 - n)
  i ^^^ rol 1 ^^^ rol 2 ^^^ rol 3 ^^^ rol 4 ^^^ 0x63
def aesSTab : List Nat := (upTo 256).map aesS
/-- The inverse S-box. -/
def aesInvS (t : List Nat) (a : Nat) : Nat := t.idxOf a

/-- The key schedule: 60 words of four bytes, in order. -/
def aesSched (t : List Nat) (key : List Byte) : List (List Nat) :=
  let sub (w : List Nat) : List Nat := w.map (nth 0 t)
  let w0 := (upTo 8).map fun i => (slice key (4 * i) 4).map (·.toNat)
  ((upTo 52).foldl (fun (p : List (List Nat) × Nat) j =>
    let i := j + 8
    let prev := nth [] p.1 (i - 1)
    let x := if i % 8 = 0 then (match sub (prev.drop 1 ++ prev.take 1) with
        | a :: r => (a ^^^ p.2) :: r
        | [] => [])
      else if i % 8 = 4 then sub prev else prev
    (p.1 ++ [((nth [] p.1 (i - 8)).zip x).map fun q => q.1 ^^^ q.2], if i % 8 = 0 then xtime p.2 else p.2)) (w0, 1)).1

def aesAddKey (st k : List Nat) : List Nat := (st.zip k).map fun q => q.1 ^^^ q.2
/-- The inverse of the row shift: byte 4c + r comes from column c - r. -/
def aesInvShift (st : List Nat) : List Nat := (upTo 16).map fun i => nth 0 st (4 * ((i / 4 + 4 - i % 4) % 4) + i % 4)
/-- The inverse column mix. -/
def aesInvMix (st : List Nat) : List Nat :=
  (upTo 16).map fun i => (upTo 4).foldl (fun a j =>
    a ^^^ gfMul (nth 0 st (4 * (i / 4) + (i + j) % 4)) (nth 0 [14, 11, 13, 9] j)) 0

/-- AES-256 decryption of one block. -/
def aesDecrypt (key blk : List Byte) : List Byte :=
  let t := aesSTab
  let ks := aesSched t key
  let rk (r : Nat) : List Nat := (slice ks (4 * r) 4).flatten
  let st0 := aesAddKey (blk.map (·.toNat)) (rk 14)
  let st1 := (upTo 14).foldl (fun st i =>
    let a := aesAddKey ((aesInvShift st).map (aesInvS t)) (rk (13 - i))
    if i = 13 then a else aesInvMix a) st0
  st1.map (BitVec.ofNat 8)

/-- AES Key Wrap, unwrapping (RFC 3394): none when the integrity check fails. -/
def keyUnwrap (kek wrapped : List Byte) : Option (List Byte) :=
  let n := wrapped.length / 8 - 1
  let init : List Byte × List (List Byte) := (slice wrapped 0 8, (upTo n).map fun i => slice wrapped (8 + 8 * i) 8)
  let (a, r) := (upTo (6 * n)).foldl (fun (p : List Byte × List (List Byte)) k =>
    let t := 6 * n - k
    let i := (t - 1) % n
    let x := beBytes 8 (ofBeBytes p.1 ^^^ t)
    let b := aesDecrypt kek (x ++ nth [] p.2 i)
    (b.take 8, setNth p.2 i (b.drop 8))) init
  if a = List.replicate 8 0xA6 then some r.flatten else none

end Sys2Proof.Machine
end

