-- ==== Sys2Proof/Machine/HostCmd.lean ====
section
/-! DEFINITION. Device, timeline, plan and weight commands, the building of job graphs, user-plane entries and results, HARQ slots,
and the PCIe reset (R22, R82-R88, R92, R96, R218, R410, R480, R482, R524, R528, R531). -/

namespace Sys2Proof.Machine

/-! ### Device commands (R82, R524, R531) -/

/-- Cores not masked. -/
def Dev.coresInService (d : Dev) : Nat := ((upTo 108).filter fun c => !d.coreMasked c).length

/-- DEVICE_INFO. -/
def execDeviceInfo (c : PqCmd) (s : State) : Res :=
  s.pq 0x0101 c fun d => d.finR c [d.reg rMGT_CHIP_ID, d.fw.version, d.rf SEC_BOOT_STS_FW_SLOT, d.rf MGT_TWIN_STS_ROLE, d.coresInService]

/-- DEVICE_RESTART: the restart begins 1 ms later; an earlier one already asked for stands. -/
def execDeviceRestart (c : PqCmd) (s : State) : Res :=
  s.pq 0x0102 c fun d => d.checks c [(decide (1 < pp c 0), badParam)] fun d =>
    { d with fw.restart := match d.fw.restart with
        | some r => some r
        | none => some (pp c 0, d.now + msT 1) }.fin c okS

/-- The 32 bytes of a health record. -/
def HealthRec.bytes (r : HealthRec) : List Byte := leBytes 2 r.block ++ leBytes 2 r.code ++ leBytes 12 r.detail ++ leBytes 16 r.time

/-- HEALTH_READ. -/
def execHealthRead (c : PqCmd) (s : State) : Res :=
  s.pq 0x0103 c fun d =>
    let whole := pp c 2 / 32
    d.checks c [(decide (1 ≤ whole) && !d.obOk (pAddr c 0) (32 * whole), badParam)] fun d =>
      let have_ := d.fw.health.length
      let n := min whole have_
      (d.hostWrite (pAddr c 0) ((d.fw.health.drop (have_ - n)).flatMap HealthRec.bytes)).finR c [n, have_]

/-- UPQ_BIND. -/
def execUpqBind (c : PqCmd) (s : State) : Res :=
  s.pq 0x0104 c fun d =>
    d.checks c [(pp c 3 == 0, okS), (decide (63 < pp c 0) || decide (1 < pp c 1) || decide (256 < pp c 2 + pp c 3), badParam)] fun d =>
      let t := (upTo (pp c 3)).foldl (fun t i => Tab.put t (256 * pp c 1 + pp c 2 + i) (pp c 0)) d.fw.bind
      { d with fw.bind := t }.fin c okS

/-- EVENT_MASK. -/
def execEventMask (c : PqCmd) (s : State) : Res :=
  s.pq 0x0105 c fun d => d.checks c [(decide (128 ≤ pp c 0), badParam)] fun d =>
    { d with hif.evMask := pp c 0 }.finR c [d.hif.evMask]

/-- ECHO. -/
def execEcho (c : PqCmd) (s : State) : Res := s.pq 0x0106 c fun d => d.finR c ((c.params.take 6).map (·.toNat))

/-! ### Timelines (R43, R47, R84, R528) -/

/-- TIMELINE_SET. -/
def execTimelineSet (c : PqCmd) (s : State) : Res :=
  s.pq 0x0504 c fun d =>
    let n := pp c 0
    d.checks c [(decide (3 < n) || d.tlOn n || !gridOk (pp c 1) (pp c 2) (pp c 3) (pp c 4), badParam)] fun d =>
      ((((d.wf (TMU_TLn_CFG_KIND n) (pp c 1)).wf (TMU_TLn_PERIOD n) (pp c 2)).wf (TMU_TLn_DEN n) (pp c 3)).wf
        (TMU_TLn_OFFSET n) (pp c 4)).fin c okS

/-- TIMELINE_ENABLE. -/
def Dev.timelineEnable (d : Dev) (c : PqCmd) : Dev :=
  let n := pp c 0
  let on := d.flag (TMU_TLn_CTL_ENABLE n)
  let wait (d : Dev) : Dev := d.setTl n { d.tl n with enWait := (d.tl n).enWait ++ [(c.queue.val, c.tag.toNat)] }
  d.checks c [(decide (3 < n) || decide (1 < pp c 1), badParam), (pp c 1 == 1 && !on && !d.gridValid n, badParam)] fun d =>
    if pp c 1 = 1 then
      if on then (if (d.tl n).started then d.finR c [(d.tl n).k % 65536] else wait d)
      else wait ((d.setFlag (TMU_TLn_CTL_ENABLE n) true).timelineStart n)
    else if on then (d.timelineStop n).fin c okS
    else d.fin c okS
def execTimelineEnable (c : PqCmd) (s : State) : Res := s.pq 0x0505 c fun d => d.timelineEnable c

/-! ### Maximum transmission bandwidths (R232) -/

/-- The entry of a table of (bandwidth, resource blocks). -/
def nrbFind (t : List (Nat × Nat)) (bw : Nat) : Nat :=
  match t.find? (·.1 == bw) with
  | some p => p.2
  | none => 0

/-- Resource blocks of a carrier, from TS 38.104 or TS 36.104 (PRESUMED, assumption log): 0 where the standards have none. -/
def nrbOf (std scs bw : Nat) : Nat :=
  match std, scs with
  | 0, 15 => nrbFind [(5000, 25), (10000, 52), (15000, 79), (20000, 106), (25000, 133), (30000, 160), (35000, 188), (40000, 216),
      (45000, 242), (50000, 270)] bw
  | 0, 30 => nrbFind [(5000, 11), (10000, 24), (15000, 38), (20000, 51), (25000, 65), (30000, 78), (35000, 92), (40000, 106),
      (45000, 119), (50000, 133), (60000, 162), (70000, 189), (80000, 217), (90000, 245), (100000, 273)] bw
  | 0, 60 => nrbFind [(10000, 11), (15000, 18), (20000, 24), (25000, 31), (30000, 38), (35000, 44), (40000, 51), (45000, 58),
      (50000, 65), (60000, 79), (70000, 93), (80000, 107), (90000, 121), (100000, 135), (200000, 264)] bw
  | 0, 120 => nrbFind [(50000, 32), (100000, 66), (200000, 132), (400000, 264)] bw
  | 1, _ => nrbFind [(1400, 6), (3000, 15), (5000, 25), (10000, 50), (15000, 75), (20000, 100)] bw
  | _, _ => 0

/-! ### Period plans (R22, R83) -/

def Dev.plan (d : Dev) (n air : Nat) : Option Plan := d.fw.plans.find? fun p => p.tl == n && p.period == air
/-- Replace, or add, a plan. -/
def Dev.setPlan (d : Dev) (p : Plan) : Dev :=
  { d with fw.plans := d.fw.plans.filter (fun q => q.tl != p.tl || q.period != p.period) ++ [p] }

/-- An allocation record of R83. -/
def parsePlanRec (b : List Byte) : PlanRec :=
  { alloc := leAt b 0 2, cc := leAt b 2 1, dir := leAt b 3 1, prbFirst := leAt b 4 2, prbCount := leAt b 6 2, symFirst := leAt b 8 1,
    symCount := leAt b 9 1, layers := leAt b 10 1, qm := leAt b 11 1, upq := leAt b 12 2, harq := leAt b 14 1, flags := leAt b 15 1,
    tbs := leAt b 16 4, rate := leAt b 20 2, rv := leAt b 22 1, code := leAt b 23 1, weights := leAt b 24 2 }

/-- Every field is in range for the record's carrier, which stands on timeline `n`. -/
def Dev.recFits (d : Dev) (n : Nat) (r : PlanRec) : Bool :=
  match Tab.find d.fw.carriers r.cc with
  | none => false
  | some x =>
    x.tl == n && decide (r.alloc < 2048) && decide (r.dir ≤ 1) && decide (r.prbFirst + r.prbCount ≤ nrbOf x.par.std x.par.scsKhz x.par.bwKhz) &&
    decide (r.symFirst + r.symCount ≤ 14) && decide (1 ≤ r.layers) && decide (r.layers ≤ 16) && [1, 2, 4, 6, 8, 10].contains r.qm &&
    decide (r.upq ≤ 63) && decide (r.harq ≤ 31) && decide (r.flags ≤ 3) && decide (r.rv ≤ 3) && decide (r.code ≤ 3) &&
    (r.weights == 0xFFFF || decide (r.weights < 1024))

/-- Take the records of a PLAN_POST in order: the plan's records, how many were accepted and refused, the first refused. -/
def Dev.takeRecs (d : Dev) (n : Nat) (b : List Byte) : List Nat → List PlanRec → Nat → Nat → Nat → List PlanRec × Nat × Nat × Nat
  | [], l, a, r, f => (l, a, r, f)
  | i :: is, l, a, r, f =>
    let e := slice b (32 * i) 32
    let x := parsePlanRec e
    if l.length < 2048 ∧ l.all (·.alloc != x.alloc) ∧ d.recFits n x ∧ (e.drop 26).all (· == 0) then d.takeRecs n b is (l ++ [x]) (a + 1) r f
    else d.takeRecs n b is l a (r + 1) (if r = 0 then i else f)

/-- The running command `c` was fetched after its plan's seal (R83). -/
def Dev.fetchedLate (d : Dev) (c : PqCmd) : Bool := (d.qp c.queue).running.any fun r => r.cmd == c && r.late && r.own.isNone && !r.dup
/-- A PLAN_POST fetched before the seal of the plan of air period `air` has not been carried out yet. -/
def Dev.postWaits (d : Dev) (n air : Nat) : Bool :=
  (upTo 16).any fun q => (d.qp q).running.any fun r => r.opcode == 0x0301 && !r.started && !r.late && r.own.isNone && !r.dup &&
    r.cmd.timeline.toNat == n && r.cmd.target.toNat == air

/-- PLAN_POST; `recs` holds what the host has at the record address. -/
def Dev.planPost (d : Dev) (c : PqCmd) (recs : List Byte) : Dev :=
  let n := c.timeline.toNat
  let air := c.target.toNat
  let count := pp c 2
  d.checks c
    [(d.badTarget c || (decide (1 ≤ count) && !d.obOk (pAddr c 0) (32 * count)), badParam),
     (d.fetchedLate c, deadlineDropped)] fun d =>
      if count = 0 then d.finR c [0, 0, 2 ^ 32 - 1, 0]
      else if d.hif.closed then d.internal c
      else
        let p := (d.plan n air).getD ⟨n, air, [], [], false, []⟩
        let x := d.takeRecs n recs (upTo count) p.recs 0 0 (2 ^ 32 - 1)
        d.setPlan { p with recs := x.1, posts := p.posts ++ [⟨c.queue.val, c.tag.toNat, x.2.1, x.2.2.1, x.2.2.2⟩] }
def execPlanPost (c : PqCmd) (recs : List Byte) (s : State) : Res := s.pq 0x0301 c fun d => d.planPost c recs

/-- PLAN_CANCEL. -/
def execPlanCancel (c : PqCmd) (s : State) : Res :=
  s.pq 0x0302 c fun d =>
    let p := d.plan c.timeline.toNat c.target.toNat
    d.checks c [(d.badTarget c, badParam), ((p.map (·.built)).getD false, busyS)] fun d =>
      match p with
      | none => d.finR c [0]
      | some x => (d.setPlan { x with recs := [] }).finR c [x.recs.length]

/-! ### Weights (R20, R82) -/

/-- A live period's plan names the handle. -/
def Dev.weightNamed (d : Dev) (h : Nat) : Bool := d.fw.plans.any fun p => d.live p.tl p.period && p.recs.any (·.weights == h)

/-- WEIGHTS_LOAD; `data` holds what the host has at the source address. A handle is in use while a set is loaded under it or a live plan
names it (R20). -/
def Dev.weightsLoad (d : Dev) (c : PqCmd) (data : List Byte) : Dev :=
  let len := pp c 2
  let h := pp c 3
  d.checks c
    [(decide (1024 ≤ h) || len == 0 || decide (2 ^ 26 < len) || !d.obOk (pAddr c 0) len, badParam),
     ((upTo 8).all fun b => !d.domOn (67 + b), domainOffS), ((Tab.find d.fw.weights h).isSome || d.weightNamed h, busyS)] fun d =>
      if d.hif.closed then d.internal c
      else match d.cbfAlloc (ceilDiv len 4096) none with
      | (d1, none) => d1.fin c busyS
      | (d1, some f) =>
        let a := cbufBase + 4096 * f
        let w := d1.busWrite 17 none a ((upTo len).map fun i => nth 0 data i)
        if w.2 then { w.1 with fw.weights := Tab.put w.1.fw.weights h f }.finR c [a % 2 ^ 32, a / 2 ^ 32]
        else ((w.1.cbfFree f).fin c internalS).health 0x0B 5 a
def execWeightsLoad (c : PqCmd) (data : List Byte) (s : State) : Res := s.pq 0x0303 c fun d => d.weightsLoad c data

/-- WEIGHTS_FREE. -/
def execWeightsFree (c : PqCmd) (s : State) : Res :=
  s.pq 0x0304 c fun d =>
    let f := Tab.find d.fw.weights (pp c 0)
    d.checks c [(f.isNone, badParam), (d.weightNamed (pp c 0), busyS)] fun d =>
      ({ d with fw.weights := Tab.del d.fw.weights (pp c 0) }.cbfFree (f.getD 0)).fin c okS

/-! ### HARQ slots (R213, R218) -/

/-- Refresh FREE and USED of pool `p`. -/
def Dev.harqShow (d : Dev) (p : Nat) : Dev :=
  let u := (nth [] d.mem.harq p).length
  (d.wf (MEM_HARQ_p_USED p) u).wf (MEM_HARQ_p_FREE p) (d.rf (MEM_HARQ_p_COUNT p) - u)

/-- Slot `i` of pool `p` is marked used, its header zeroed, or free; otherwise REFUSED counts. -/
def Dev.harqAlloc (d : Dev) (p i : Nat) : Dev × Bool :=
  let l := nth [] d.mem.harq p
  if d.rf (MEM_HARQ_p_COUNT p) ≤ i ∨ l.contains i then (d.bump (MEM_HARQ_p_REFUSED p), false)
  else
    let d1 : Dev := { d with mem.harq := setNth d.mem.harq p (i :: l) }
    ((d1.poke (d.slotAddr p i) (List.replicate 64 0)).harqShow p, true)
def Dev.harqFree (d : Dev) (p i : Nat) : Dev × Bool :=
  let l := nth [] d.mem.harq p
  if d.rf (MEM_HARQ_p_COUNT p) ≤ i ∨ !l.contains i then (d.bump (MEM_HARQ_p_REFUSED p), false)
  else ({ d with mem.harq := setNth d.mem.harq p (l.filter (· != i)) }.harqShow p, true)

/-- A write of MEM_HARQ_p_OP: the slot is the one MEM_HARQ_p_SLOT names. `proc` is the carrier and HARQ process for which firmware
takes the slot; `op` is the row's. -/
def Dev.harqOp (d : Dev) (init : Initiator) (p op value : Nat) (proc : Option Nat) : Dev :=
  let r := d.busWr init (rMEM_HARQ_p_OP p) value
  let i := d.rf (MEM_HARQ_p_SLOT p)
  match r.2 with
  | .no => r.1
  | .yes cmds =>
    if bitsAt cmds 0 2 ≠ op then r.1
    else if op = 1 then
      let x := r.1.harqAlloc p i
      match proc with
      | some k => if x.2 ∧ init = .firmware then { x.1 with fw.soft := Tab.put x.1.fw.soft k (Tab.getD (fun _ => []) x.1.fw.soft k ++ [(p, i)]) } else x.1
      | none => x.1
    else
      let x := r.1.harqFree p i
      { x.1 with fw.soft := Tab.keep (fun _ l => !l.isEmpty) (Tab.mapV (fun _ l => l.filter (· != (p, i))) x.1.fw.soft) }
def execHarqSlotAlloc (init : Initiator) (p : Fin 2) (value : Word) (proc : Option (Fin 256 × Fin 32)) (s : State) : Res :=
  s.act fun d => d.harqOp init p 1 value.toNat (proc.map fun x => 32 * x.1.val + x.2.val)
def execHarqSlotFree (init : Initiator) (p : Fin 2) (value : Word) (s : State) : Res := s.act fun d => d.harqOp init p 2 value.toNat none

/-- The slots of a carrier's processes are freed (R218). -/
def Dev.harqDropCarrier (d : Dev) (cc : Nat) : Dev :=
  let mine := d.fw.soft.filter fun p => p.1 / 32 == cc
  let d1 := (mine.flatMap (·.2)).foldl (fun d s => (d.harqFree s.1 s.2).1) d
  { d1 with fw.soft := d1.fw.soft.filter fun p => p.1 / 32 != cc }

/-- Code blocks of an uplink record's transport block, by the segmentation of TS 38.212 clause 5.2.2 and TS 36.212 clause 5.1.2: the slots
its HARQ process needs. A polar block needs none. -/
def PlanRec.slots (r : PlanRec) : Nat :=
  let blocks (b k : Nat) : Nat := if b ≤ k then 1 else ceilDiv b (k - 24)
  match r.code with
  | 0 => blocks (r.tbs + if 3824 < r.tbs then 24 else 16) 8448
  | 1 => blocks (r.tbs + if 3824 < r.tbs then 24 else 16) 3840
  | 2 => blocks (r.tbs + 24) 6144
  | _ => 0
/-- The HARQ process of a record, as a key of `Fw.soft`. -/
def PlanRec.proc (r : PlanRec) : Nat := 32 * r.cc + r.harq
/-- The lowest run of `n` free slots of pool `p`: block r of a process uses the r-th slot on (R213). It begins at 0 or right after a used slot. -/
def Dev.slotRun (d : Dev) (p n : Nat) : Option Nat :=
  let l := nth [] d.mem.harq p
  let ok (i : Nat) : Bool := decide (i + n ≤ d.rf (MEM_HARQ_p_COUNT p)) && l.all fun u => decide (u < i) || decide (i + n ≤ u)
  ((0 :: l.map (· + 1)).filter ok).foldl (fun (b : Option Nat) i => match b with
    | none => some i
    | some x => some (min x i)) none
/-- Slots `i` to `i + n - 1` of pool `p` become those of process `k`. -/
def Dev.takeSlots (d : Dev) (k p i n : Nat) : Dev :=
  let d1 := (upTo n).foldl (fun d j => (d.harqAlloc p (i + j)).1) d
  { d1 with fw.soft := Tab.put d1.fw.soft k ((upTo n).map fun j => (p, i + j)) }
/-- The slots of process `k` are freed. -/
def Dev.dropSlots (d : Dev) (k : Nat) : Dev :=
  let d1 := (Tab.getD (fun _ => []) d.fw.soft k).foldl (fun d x => (d.harqFree x.1 x.2).1) d
  { d1 with fw.soft := Tab.del d1.fw.soft k }
/-- A record with NEW_DATA takes the slots its process needs (R218): those it has, if their number is right; otherwise new ones, of pool
0 before pool 1 (assumption log), or none where neither pool has enough. A slot of pool 0 is taken only where its DDR5 is in RUN: with PD_MEM off
the soft buffer lives in the central buffer (R26). -/
def Dev.softFor (d : Dev) (r : PlanRec) : Dev :=
  if r.dir ≠ 1 ∨ !bitAt r.flags 0 ∨ (Tab.getD (fun _ => []) d.fw.soft r.proc).length = r.slots then d
  else
    let d1 := d.dropSlots r.proc
    if r.slots = 0 then d1 else
    match (d1.slotRun 0 r.slots).filter fun i => d1.ddrUp (d1.slotAddr 0 i) (r.slots * harqSlotBytes), d1.slotRun 1 r.slots with
    | some i, _ => d1.takeSlots r.proc 0 i r.slots
    | none, some i => d1.takeSlots r.proc 1 i r.slots
    | none, none => d1
/-- The slot address a record's jobs get in ARGS: 0xFF_FFFF_FFFF where its process has no slot. -/
def Dev.softAddr (d : Dev) (r : PlanRec) : Nat := match Tab.find d.fw.soft r.proc with
  | some (x :: _) => d.slotAddr x.1 x.2
  | _ => 0xFFFFFFFFFF

/-- The uplink record's jobs get no soft buffer, though its code has one. -/
def Dev.noSoft (d : Dev) (r : PlanRec) : Bool := r.dir == 1 && r.code != 3 && (Tab.find d.fw.soft r.proc).isNone
/-- The uplink jobs of an allocation were built without a soft buffer: its result carries NO_SOFT_BUFFER (R87, R218). -/
def Dev.bareAlloc (d : Dev) (n air alloc : Nat) : Bool := match d.plan n air with
  | some p => p.bare.contains alloc
  | none => false

/-! ### Outer passes (R221) -/

/-- CK_CPX cycles (983.04 MHz) of a period of timeline `n`. -/
def Dev.cpxCycles (d : Dev) (n : Nat) : Nat := d.rf (TMU_TLn_PERIOD n) * 98304 / (100000 * max 1 (d.rf (TMU_TLn_DEN n)))
/-- What the cycle counts of a record's planned work depend on. -/
def PlanRec.work (r : PlanRec) : List Nat :=
  [r.alloc, r.cc, r.dir, r.prbCount, r.symCount, r.layers, r.qm, r.harq, r.flags, r.tbs, r.rate, r.rv, r.code]
/-- Passes of `pass` cycles, up to `m`, that keep every pod's sum within 80 % of `limit`; the sums with them. -/
def grantUp (limit : Nat) (pass : List Nat) : Nat → List Nat → Nat × List Nat
  | 0, sums => (0, sums)
  | m + 1, sums =>
    let s := (sums.zip pass).map fun x => x.1 + x.2
    if s.all fun x => decide (10 * x ≤ 8 * limit) then let r := grantUp limit pass m s; (r.1 + 1, r.2) else (0, sums)
/-- The grants of a plan, record by record (R221): the work planned for each pod first, then up to 3 passes to each ITERATIVE record, in
the plan's order (assumption log). -/
def Dev.grants (d : Dev) (p : Plan) : List (PlanRec × Nat) :=
  let perPod (f : Nat → List Nat → Nat) (r : PlanRec) : List Nat := (upTo 12).map fun q => f q r.work
  let base := p.recs.foldl (fun s r => (s.zip (perPod Config.planCycles r)).map fun x => x.1 + x.2) ((upTo 12).map fun _ => 0)
  (p.recs.foldl (fun (a : List (PlanRec × Nat) × List Nat) r =>
    if bitAt r.flags 1 then
      let g := grantUp (d.cpxCycles p.tl) (perPod Config.passCycles r) 3 a.2
      (a.1 ++ [(r, g.1)], g.2)
    else (a.1 ++ [(r, 0)], a.2)) ([], base)).1

/-! ### Graphs (R83, R96, R480, R482) -/

/-- The kernel-table entry of pod `p` at an index. -/
def Dev.kernelOf (d : Dev) (p kind : Nat) : Option (Nat × Nat × Nat) := match Tab.find d.pods.images p with
  | some i => i.kernels[kind]?
  | none => none

/-- The pods firmware may name for a kernel: LIVE, not being drained, their entry placing the same ARGS as the first such pod's. -/
def Dev.podsFor (d : Dev) (kind : Nat) : List Nat :=
  let l := (upTo 12).filter fun p => d.podMode p == 0 && !d.fw.leftOut.contains p && (d.kernelOf p kind).isSome
  match l with
  | [] => []
  | p :: _ => l.filter fun q => (d.kernelOf q kind).map (·.2) == (d.kernelOf p kind).map (·.2)

/-- Bytes of `b` from `o` on replaced. -/
def patch (b : List Byte) (o : Nat) (v : List Byte) : List Byte := b.take o ++ v ++ b.drop (o + v.length)
/-- The ARGS of a descriptor that serves an uplink allocation: the slot address and the outer-pass grant, where the kernel's entry places
them (R218, R221, R481). -/
def Dev.fillArgs (d : Dev) (gs : List (PlanRec × Nat)) (x : JobDesc) (e : List Byte) : List Byte :=
  match gs.find? (fun g => g.1.dir == 1 && x.dir == 1 && g.1.alloc == x.alloc && g.1.cc == x.tgt), d.podsFor x.kind with
  | some g, q :: _ => match d.kernelOf q x.kind with
    | some (_, a, b) =>
      let e1 := if a ≤ 16 then patch e (40 + a) (leBytes 8 (d.softAddr g.1)) else e
      if b ≤ 23 then patch e1 (40 + b) (leBytes 1 g.2) else e1
    | none => e
  | _, _ => e
/-- A descriptor as firmware places it: POD_MASK[11:0] holds only pods it may name, ARGS hold the plan's values; every other byte stands. -/
def Dev.fillJob (d : Dev) (gs : List (PlanRec × Nat)) (e : List Byte) : List Byte :=
  let x := parseJob e
  let m := sumNat ((d.podsFor x.kind).map fun p => if bitAt x.podMask p then 2 ^ p else 0)
  d.fillArgs gs x (patch e 20 (leBytes 2 (x.podMask / 4096 * 4096 + m)))
/-- The graph as firmware places it. -/
def Dev.fillGraph (d : Dev) (gs : List (PlanRec × Nat)) (g : List Byte) : List Byte :=
  g.take 64 ++ (upTo (leAt g 0 2)).flatMap fun i => d.fillJob gs (slice g (64 + 64 * i) 64)
/-- A graph of the plan of air period `air` of timeline `n`: downlink work in period N - 1, uplink work in period N + 1 (R22, R23). -/
def graphFor (n air : Nat) (g : List Byte) : Bool :=
  let js := graphJobs g (leAt g 0 2)
  let per := leAt g 4 2
  leAt g 2 1 % 4 == n &&
  ((per == (air + 65535) % 65536 && js.all fun x => x.dir != 1) || (per == (air + 1) % 65536 && js.all fun x => x.dir != 0))

/-- GRAPH_BUILD: firmware builds the graphs of a sealed plan and places them in the mailbox; `graphs` is what it builds, but for the values
of R218, R221 and R482. It waits for a PLAN_POST of the plan that was fetched before the seal. A STANDBY, whose pods run no
live work, answers the plan and places nothing (R487). -/
def Dev.graphBuild (d : Dev) (n air : Nat) (graphs : List (List Byte)) : Dev :=
  match d.plan n air with
  | none => d
  | some p =>
    if p.built || !decide (ahead (d.refK n) air ≤ 2) || d.postWaits n air then d
    else
      let d0 := d.setPlan { p with built := true, posts := [] }
      if !d.flag WDS_CTL_ENABLE then
        p.posts.foldl (fun d x => d.complete x.queue x.tag busyS [0, x.refused, x.first, 0]) d0
      else
        let ds0 := p.recs.foldl Dev.softFor d0
        let ds := ds0.setPlan { p with built := true, posts := [], bare := (p.recs.filter ds0.noSoft).map (·.alloc) }
        let gs := ds.grants p
        let r := ((if d.rf MGT_TWIN_STS_ROLE = 2 then [] else graphs).filter (graphFor n air)).foldl (fun (a : Dev × Nat × Bool) g =>
          let g1 := ds.fillGraph gs g
          let y := a.1.admitGraph false g1
          (y.1, if y.2 then a.2.1 + leAt g1 0 2 else a.2.1, a.2.2 || !y.2)) (ds, 0, false)
        let d1 := p.posts.foldl (fun d x =>
          if r.2.2 then d.complete x.queue x.tag internalS []
          else d.complete x.queue x.tag okS [x.accepted, x.refused, x.first, r.2.1]) r.1
        if r.2.2 then d1.health 4 7 (n + 256 * air) else d1
def execGraphBuild (n : Fin 4) (air : BitVec 16) (graphs : List (List Byte)) (s : State) : Res :=
  s.act fun d => d.graphBuild n air.toNat graphs

/-! ### User-plane entries (R67, R86, R87) -/

/-- A user-plane pair has an entry waiting. -/
def Dev.hasUpEntry (d : Dev) (m : Nat) : Bool := d.hasEntry (64 + m)

/-- Fetch the next entry of pair `m` in its turn; the row takes its own KIND, and any row an unknown one (REFUSED). -/
def Dev.upFetch (d : Dev) (m kind : Nat) (e : List Byte) (f : Dev → Dev) : Dev :=
  let k := leAt e 0 1
  if !d.hasUpEntry m || !myTurn 64 d.hif.rrUp m d.hasUpEntry then d
  else
    let d1 : Dev := { d.pastEntry (64 + m) with hif.rrUp := (m + 1) % 64 }
    if k = kind then f d1
    else if 1 ≤ k ∧ k ≤ 3 then d
    else d1.up m (leAt e 2 2) badParam 0x87 0 (upBody [(8, 1, k)])

/-- Reserved bytes and bits, and the reserved tag (R86). -/
def upBad (e : List Byte) : Bool := (e.drop 21).any (· != 0) || decide (4 ≤ leAt e 20 1) || leAt e 2 2 == 0xFFFF

/-- UL_BUF: an empty buffer is posted, or returned. -/
def Dev.ulBuf (d : Dev) (m : Nat) (e : List Byte) : Dev :=
  let tag := leAt e 2 2
  let a := leAt e 8 8
  let len := leAt e 16 4
  d.upFetch m 2 e fun d =>
    let back (st : Nat) : Dev := d.up m tag st 0x85 0 (upBody [(8, 4, len)])
    if upBad e || leAt e 1 1 != 0 || leAt e 4 2 != 0xFFFF || leAt e 6 2 != 0 then back badParam
    else if len = 0 then back okS
    else if !d.obOk a len then back badParam
    else d.updQp (64 + m) fun x => { x with ulbufs := x.ulbufs ++ [⟨tag, a, len⟩] }
def execUlBuf (m : Fin 64) (entry : List Byte) (s : State) : Res := s.act fun d => d.ulBuf m entry

/-- The record of a plan. -/
def Dev.planRec (d : Dev) (n air alloc : Nat) : Option PlanRec :=
  match d.plan n air with
  | some p => p.recs.find? (·.alloc == alloc)
  | none => none

/-- DL_TB: the block's data, `data`, is moved to the central-buffer address `dst` that firmware gave it, and answered. -/
def Dev.dlTb (d : Dev) (m : Nat) (e data : List Byte) (dst : Nat) : Dev :=
  let n := leAt e 20 1 % 4
  let air := leAt e 6 2
  let alloc := leAt e 4 2
  let cc := leAt e 1 1
  let len := leAt e 16 4
  let job := (air + 65535) % 65536
  d.upFetch m 1 e fun d =>
    let back (d : Dev) (st : Nat) : Dev := d.up m (leAt e 2 2) st 0x81 0 (upBody [(8, 2, alloc), (10, 2, air), (12, 1, cc)])
    match d.planRec n air alloc with
    | none => back d badParam
    | some r =>
      if upBad e || r.cc != cc || r.dir != 0 || len != ceilDiv r.tbs 8 || (decide (0 < len) && !d.obOk (leAt e 8 8) len) then back d badParam
      else
        let w := d.busWrite 17 (some (n, job)) dst ((upTo len).map fun i => nth 0 data i)
        let e := if bitAt d.marrow.cfg.mask 2 then w.1.recAdd 10 n air (some data) else w.1
        back { e with hif.landing := e.hif.landing ++ [(n, job, alloc)] } okS
def execDlTb (m : Fin 64) (entry data : List Byte) (dst : BitVec 40) (s : State) : Res := s.act fun d => d.dlTb m entry data dst.toNat

/-- HOST_DATA_LANDED: the oldest block not yet announced has landed; its allocation's event is raised for its job period. -/
def execHostDataLanded (s : State) : Res :=
  s.act fun d => match d.hif.landing with
    | [] => d
    | (n, job, alloc) :: t => { d with hif.landing := t }.raiseEvent n job alloc

/-- The first buffer long enough. -/
def takeBuf : List UlBuf → Nat → Option (UlBuf × List UlBuf)
  | [], _ => none
  | b :: t, n => if n ≤ b.len then some (b, t) else (takeBuf t n).map fun x => (x.1, b :: x.2)

/-- UL_TB_RESULT: the uplink block of an allocation of air period `air` is decoded (R87, R88, R89). Work of an allocation that a fence
dropped or stopped is reported as such and gives no result (R24, R51, R530). A result posted without a buffer answers no entry: its TAG is
0xFFFF (DESIGN CHOICE, assumption log). -/
def Dev.ulTb (d : Dev) (n air alloc : Nat) (crcOk : Bool) (iters cbs fails : Nat) (data : List Byte) : Dev :=
  match d.planRec n air alloc with
  | none => d
  | some r =>
    if r.dir ≠ 1 ∨ d.wds.reported.contains ⟨n, (air + 1) % 65536, 1, r.cc, alloc⟩ then d
    else
      let m := r.upq
      let x := d.qp (64 + m)
      let len := ceilDiv r.tbs 8
      let body (n1 : Nat) := upBody [(8, 2, alloc), (10, 2, air), (12, 1, r.cc), (13, 1, n), (14, 1, r.harq), (15, 1, iters), (16, 4, n1),
        (20, 2, cbs), (22, 2, fails)]
      let fl := 2 * b2n crcOk + 8 * b2n (d.bareAlloc n air alloc)
      let room := d.upRoom m
      match takeBuf x.ulbufs len with
      | some (b, rest) =>
        if room then
          let bs := (upTo len).map fun i => nth 0 data i
          ((d.updQp (64 + m) fun x => { x with ulbufs := rest }).hostWrite b.addr bs).up m b.tag okS 0x82 fl (body len) bs
        else d.up m b.tag okS 0x82 fl (body 0)
      | none => (if room then d.bump (HIF_UPQm_OVERFLOW m) else d).up m 0xFFFF okS 0x82 (fl + 4) (body 0)
def execUlTbResult (n : Fin 4) (air : BitVec 16) (alloc : Fin 2048) (crcOk : Bool) (iters : Byte) (cbs fails : BitVec 16) (data : List Byte)
    (s : State) : Res :=
  s.act fun d => d.ulTb n air.toNat alloc crcOk iters.toNat cbs.toNat fails.toNat data

/-! ### PCIe reset (R410) -/

/-- Pair `q` is disabled by the reset: its completions are discarded from now on. -/
def Dev.pairReset (d : Dev) (q : Nat) : Dev :=
  if d.pairOn q then ((d.updQp q fun x => { x with muted := true }).pairStop q) else d

/-- Every queue pair is disabled, the MSI-X table cleared; what the host set in the link's configuration space is gone. -/
def Dev.pcieReset (d : Dev) : Dev :=
  let d1 := (upTo 80).foldl (fun d i => d.pairReset (pairIx i)) d
  { d1 with hif.closed := true, hif.msix := [], pmu.aspm := false }
/-- PCIE_RESET: a hot reset, a link-down from the host side, a function-level reset, or PERST_N low (R517). -/
def execPcieReset (s : State) : Res := s.act fun d => if d.domOn 76 then d.pcieReset else d

end Sys2Proof.Machine
end

