-- ==== Sys2Proof/Machine/Air.lean ====
section
/-! DEFINITION. Air time: ticks and symbols, the configuration of an air period, TDD patterns (R226-R228, R249, R299). -/

namespace Sys2Proof.Machine

/-! ### Time (R226, R227) -/

/-- `n` DEVCLK ticks (491.52 MHz), and `n` TX samples, in units of `now`. -/
def tickT (n : Nat) : Nat := n * 3125 * 2 ^ 32 / 1536
def txT (n : Nat) : Nat := n * 3125 * 2 ^ 32 / 3072

/-- TX samples of symbol `l` of a slot of numerology `mu`, CP included; `s` is the slot's index in its 1 ms subframe. -/
def symSamples (mu : Nat) (ecp : Bool) (s l : Nat) : Nat :=
  if ecp then (65536 + 16384) / 2 ^ mu
  else
    let n := 14 * s + l
    65536 / 2 ^ mu + 4608 / 2 ^ mu + if n = 0 ∨ n = 7 * 2 ^ mu then 512 else 0
/-- TX samples from the slot's start to symbol `l`. -/
def symStart (mu : Nat) (ecp : Bool) (s l : Nat) : Nat := sumNat ((upTo l).map (symSamples mu ecp s))

/-- Boundaries per slot of numerology `mu` on timeline `n`, and slots' index in the subframe at boundary `k`. -/
def Dev.slotPeriods (d : Dev) (n mu : Nat) : Nat := max 1 (1000000 / 2 ^ mu / max 1 (d.periodNs n))
def Dev.slotIndex (d : Dev) (n mu k : Nat) : Nat := k / d.slotPeriods n mu % 2 ^ mu
/-- The boundary at which the slot holding boundary `k` starts. -/
def Dev.slotK (d : Dev) (n mu k : Nat) : Nat := k / d.slotPeriods n mu * d.slotPeriods n mu
/-- Air time of symbol `l` of the slot that starts at boundary `k`. -/
def Dev.airTime (d : Dev) (n mu : Nat) (ecp : Bool) (k l : Nat) : Nat := d.boundaryT n k + txT (symStart mu ecp (d.slotIndex n mu k) l)

/-! ### The configuration of an air period (R228) -/

/-- Offsets of the front end's registers. -/
def inDfe (off : Nat) : Bool := blockOf off == blockOf (rDFE_CCc_CTL 0)
/-- The configuration that stands once the groups of boundary `k` of timeline `n` have resolved is that of air period `k + 1`; it is kept for as
long as a symbol of the period may still complete, or a PRACH occasion that it started runs. -/
def Dev.latchDfe (d : Dev) (n k : Nat) : Dev :=
  { d with dfe.latched := (n, k + 1, d.regs.filter fun e => inDfe e.1) :: (d.dfe.latched.filter fun x => x.1 != n || decide (k ≤ x.2.1 + 2) || d.dfe.prach.any fun y => y.2 == x.2.1) }
/-- The device with the front-end registers as they stood for air period `k` of timeline `n`; as they stand where no boundary preceded it. Its
configuration fields alone are read. -/
def Dev.asOf (d : Dev) (n k : Nat) : Dev :=
  match d.dfe.latched.find? fun x => x.1 == n && x.2.1 == k with
  | some x =>
    let base := rDFE_CCc_CTL 0
    { d with regs := (d.regs.filter fun e => !inDfe e.1 && decide (e.1 < base)) ++ x.2.2 ++ d.regs.filter fun e => !inDfe e.1 && decide (base < e.1) }
  | none => d

/-! ### TDD patterns (R249) -/

/-- Code of symbol `l` in period `k` of pattern `p`: 0 G, 1 D, 2 U. -/
def Dev.patCode (d : Dev) (p k l : Nat) : Nat :=
  bitsAt (d.reg (rDFE_TDDn_ROW_j p (k % max 1 (d.rf (DFE_TDDn_CFG_LEN p))))) (2 * l) 2

/-- Code of symbol `l` of direct carrier `c`'s slot at boundary `k`: FDD carriers send and receive in every symbol. -/
def Dev.ccCode (d : Dev) (c k l : Nat) : Option Nat :=
  if d.flag (DFE_CCc_CFG_TDD c) then some (d.patCode (d.rf (DFE_CCc_CFG_PAT c)) k l) else none

/-- A line's pattern is active at time `t`: a symbol of code `code` runs from LEAD ticks before its start to LAG after its end (R250).
Only symbols that start within their period count. -/
def Dev.patActive (d : Dev) (p code lead lag t : Nat) : Bool :=
  let n := d.rf (DFE_TDDn_CFG_TIMELINE p)
  let mu := d.rf (DFE_TDDn_CFG_SCS p)
  let ecp := d.flag (DFE_TDDn_CFG_ECP p)
  let k0 := d.gridIndex n t
  d.tlOn n && (upTo 5).any fun i =>
    let k := k0 + i - 2
    (upTo (if ecp then 12 else 14)).any fun l =>
      let a := d.airTime n mu ecp (d.slotK n mu k) l
      let b := a + txT (symSamples mu ecp (d.slotIndex n mu k) l)
      (d.asOf n k).patCode p k l == code && decide (d.boundaryT n k ≤ a) && decide (a < d.boundaryT n (k + 1)) &&
      decide (a ≤ t + tickT lead) && decide (t < b + tickT lag)

/-- Runs of consecutive symbols of code `code` of the slot at boundary `k` of pattern `p`, symbols that start within the period alone: from when until
when (R249, R299). -/
def Dev.patRuns (d : Dev) (p code k : Nat) : List (Nat × Nat) :=
  let n := d.rf (DFE_TDDn_CFG_TIMELINE p)
  let mu := d.rf (DFE_TDDn_CFG_SCS p)
  let ecp := d.flag (DFE_TDDn_CFG_ECP p)
  (upTo (if ecp then 12 else 14)).foldl (fun (rs : List (Nat × Nat)) l =>
    let a := d.airTime n mu ecp (d.slotK n mu k) l
    let b := a + txT (symSamples mu ecp (d.slotIndex n mu k) l)
    if d.patCode p k l != code || decide (a < d.boundaryT n k) || decide (d.boundaryT n (k + 1) ≤ a) then rs
    else match rs.getLast? with
      | some r => if r.2 = a then rs.dropLast ++ [(r.1, b)] else rs ++ [(a, b)]
      | none => [(a, b)]) []
/-- The next G run of at least 16 µs that begins no earlier than `t`, within a repeat of the pattern (R299). -/
def Dev.nextGRun (d : Dev) (p t : Nat) : Option Nat :=
  let k0 := d.gridIndex (d.rf (DFE_TDDn_CFG_TIMELINE p)) t
  (upTo 42).findSome? fun i => ((d.patRuns p 0 (k0 + i)).find? fun r => decide (t ≤ r.1) && decide (r.1 + usT 16 ≤ r.2)).map (·.1)
/-- The end of the last D run that ends by `t`, within a repeat of the pattern; `t` where there is none. -/
def Dev.lastDRun (d : Dev) (p t : Nat) : Nat :=
  let k0 := d.gridIndex (d.rf (DFE_TDDn_CFG_TIMELINE p)) t
  ((upTo 42).findSome? fun i => if k0 < i then none else (((d.patRuns p 1 (k0 - i)).filter fun r => decide (r.2 ≤ t)).getLast?).map (·.2)).getD t
/-- Pattern and timeline of the lowest-numbered enabled TDD carrier on chain `t`. -/
def Dev.tddOf (d : Dev) (t : Nat) : Option (Nat × Nat) :=
  ((upTo 256).find? fun c => d.ccOn c && d.flag (DFE_CCc_CFG_TDD c) && decide (d.rf (DFE_CCc_PORTS_FIRST c) ≤ t) &&
    decide (t < d.rf (DFE_CCc_PORTS_FIRST c) + d.rf (DFE_CCc_PORTS_COUNT c))).map fun c => (d.rf (DFE_CCc_CFG_PAT c), d.rf (DFE_CCc_CFG_TIMELINE c))
/-- The time from `a` to `b` lies within D symbols of chain `t`'s pattern; a chain without a TDD carrier always sends (R294). -/
def Dev.inDown (d : Dev) (t a b : Nat) : Bool :=
  match d.tddOf t with
  | none => true
  | some (p, n) =>
    let k := d.gridIndex n a
    let rs := (upTo 4).flatMap fun i => if k + i = 0 then [] else d.patRuns p 1 (k + i - 1)
    decide (b ≤ (upTo 16).foldl (fun c _ => match rs.find? fun r => decide (r.1 ≤ c) && decide (c < r.2) with
      | some r => r.2
      | none => c) a)
/-- When RX chain `r` has taken `n` ticks of samples from U symbols from `t` on, of any symbols without a TDD carrier (R296); none: not within 10 s. -/
def Dev.upTaken (d : Dev) (r t n : Nat) : Option Nat :=
  match d.tddOf r with
  | none => some (t + tickT n)
  | some (p, tl) =>
    let k := d.gridIndex tl t
    let scan := (upTo (10000000000 / max 125000 (d.periodNs tl))).foldl (fun (acc : Nat × Option Nat) i =>
      if acc.2.isSome then acc
      else (d.patRuns p 2 (k + i)).foldl (fun (acc : Nat × Option Nat) x =>
        let got := x.2 - max x.1 t
        if acc.2.isSome then acc
        else if acc.1 ≤ got then (0, some (max x.1 t + acc.1)) else (acc.1 - got, none)) acc) (tickT n, (none : Option Nat))
    scan.2

end Sys2Proof.Machine
end

