-- ==== Sys2Proof/Machine/Signal.lean ====
section
/-! DEFINITION. Signal arithmetic of the front end and the narrowband bank (R231, R233, R237, R238, R244, R245, R264, R295). Samples are
pairs of integers; between two stages that round, they are counted in 2^-20 of a converter step. -/

namespace Sys2Proof.Machine

/-! ### Rounding and rotation -/

/-- Both parts rounded to nearest, ties to even, and saturated to 12 bits; whether a part was. -/
def satSmp (den : Nat) (s : Smp) : Smp × Bool :=
  let r := (roundDiv s.1 den, roundDiv s.2 den)
  let v := (satSigned 12 r.1, satSigned 12 r.2)
  (v, v != r)
/-- The product of two samples. -/
def Smp.mul (a b : Smp) : Smp := (a.1 * b.1 - a.2 * b.2, a.1 * b.2 + a.2 * b.1)
def Smp.add (a b : Smp) : Smp := (a.1 + b.1, a.2 + b.2)
def Smp.scale (x : Int) (s : Smp) : Smp := (x * s.1, x * s.2)
def Smp.sum (l : List Smp) : Smp := l.foldl Smp.add (0, 0)
/-- Squared magnitude. -/
def Smp.mag2 (s : Smp) : Nat := s.1.natAbs ^ 2 + s.2.natAbs ^ 2
/-- Total power of samples, in the square of their unit. -/
def power (l : List Smp) : Nat := sumNat (l.map Smp.mag2)
def isZero (s : Smp) : Bool := s == (0, 0)

/-- A sample turned by `k`/`n` of a turn. -/
def turned (n : Nat) (k : Int) (s : Smp) : Smp :=
  if isZero s then s
  else
    let r := rootFix n (k % n).toNat
    let p := Smp.mul s r
    (roundDiv p.1 (2 ^ 60), roundDiv p.2 (2 ^ 60))

/-! ### Transforms (R231, R233, R245) -/

/-- log2 of N_FFT: the smallest power of two that is at least 1.25 × 12 × NRB. -/
def fftLog (nrb : Nat) : Nat := ((upTo 13).find? fun b => decide (15 * nrb ≤ 2 ^ b)).getD 13
/-- The base rate in kHz, and the TX and RX ratios. -/
def baseRate (nrb khz : Nat) : Nat := 2 ^ fftLog nrb * khz
def txRatio (nrb khz : Nat) : Nat := 983040 / baseRate nrb khz
def rxRatio (nrb khz : Nat) : Nat := 491520 / baseRate nrb khz

/-- 2^-1/2 in 2^-60. -/
def rootHalf : Int := 815238614083298888
/-- A part of a transform of 2^b points, `y` in 2^-60, × 2^(e - b/2 - 1), before it is rounded, as a numerator over `partDen b`. -/
def partNum (b e : Nat) (y : Int) : Int :=
  let z := snapFix y
  (if b % 2 = 1 then roundDiv (z * rootHalf) (2 ^ 60) else z) * 2 ^ e
def partDen (b : Nat) : Nat := 2 ^ (60 + b / 2 + 1)

/-- The subcarrier of `cnt` centred ones on bin `j` of `n`; with `dc`, bin 0 is left empty. -/
def subcarrierAt (dc : Bool) (n cnt j : Nat) : Option Nat :=
  if n ≤ j + cnt / 2 then some (j + cnt / 2 - n)
  else if dc && j == 0 then none
  else if j < cnt / 2 + b2n dc then some (cnt / 2 + j - b2n dc) else none

/-- A symbol at the base rate (R233): the IDFT of the subcarriers `xs` over 2^b points, rounded and saturated, its cyclic prefix of `cp` samples
before it; whether a part saturated. -/
def symbolOut (dc : Bool) (b cp : Nat) (xs : List Smp) : List Smp × Bool :=
  let n := 2 ^ b
  if xs.all isZero then (List.replicate (cp + n) (0, 0), false)
  else
    let bins := (upTo n).map fun j => match subcarrierAt dc n xs.length j with
      | some k => nth (0, 0) xs k
      | none => (0, 0)
    let roots := rootsFix n
    let ys := (upTo n).map fun m =>
      let y := xfmPoint true n roots bins m
      satSmp (partDen b) (partNum b 0 y.1, partNum b 0 y.2)
    let s := ys.map (·.1)
    (s.drop (n - cp) ++ s, ys.any (·.2))

/-- The subcarriers of a received symbol (R245), before they are rounded, as numerators over `partDen b` at exponent 0: the DFT of 2^b samples
in 2^-20; `half` removes the half-subcarrier shift of the LTE uplink. -/
def symbolIn (half : Bool) (b cnt : Nat) (xs : List Smp) : List Smp :=
  let n := 2 ^ b
  if xs.all isZero then List.replicate cnt (0, 0)
  else
    let roots := rootsFix n
    let ys := (upTo n).map fun (m : Nat) => if half then turned (2 * n) (-(m : Int)) (nth (0, 0) xs m) else nth (0, 0) xs m
    (upTo cnt).map fun k =>
      let y := xfmPoint false n roots ys (if k < cnt / 2 then n - cnt / 2 + k else k - cnt / 2)
      (partNum b 0 (roundDiv y.1 (2 ^ 20)), partNum b 0 (roundDiv y.2 (2 ^ 20)))

/-- A sample in pack24. -/
def packSmp (s : Smp) : List Byte := leBytes 3 (ofSigned 12 s.1 + 4096 * ofSigned 12 s.2)
/-- A sample read from its 24 bits. -/
def unpackSmp (v : Nat) : Smp := (toSigned 12 v, toSigned 12 (v / 4096))

/-! ### Filters -/

/-- Sample `n` of a stream interpolated, or decimated, by a ratio: a filter of zeros gives zeros. -/
def interp (ratio : Nat) (l : List Smp) (n : Nat) : Smp := if l.all isZero then (0, 0) else Config.interp ratio l n
def decimate (ratio : Nat) (l : List Smp) (n : Nat) : Smp := if l.all isZero then (0, 0) else Config.decimate ratio l n

/-! ### Crest-factor reduction (R237) -/

/-- Samples around index 0, by their distance from it. -/
abbrev Around := Int → Smp
/-- Half the length of a cancellation pulse: three passes fit the stage's 1,536 samples of delay. -/
abbrev cfrHalf : Nat := 512

/-- A peak above the threshold: no smaller than what follows, larger than what precedes. -/
def isPeak (thresh : Nat) (c : Around) (j : Int) : Bool :=
  let m := (c j).mag2
  decide (thresh ^ 2 < m) && decide ((c (j - 1)).mag2 < m) && decide ((c (j + 1)).mag2 ≤ m)
/-- What lies above the threshold of a sample, in 2^-20. -/
def excess (thresh : Nat) (s : Smp) : Smp :=
  let m : Nat := Nat.sqrt (s.mag2 * 2 ^ 40)
  if m ≤ thresh * 2 ^ 20 then (0, 0)
  else
    let p := Smp.scale ((m - thresh * 2 ^ 20 : Nat) : Int) s
    (p.1 * 2 ^ 20 / (m : Int), p.2 * 2 ^ 20 / (m : Int))
/-- One pass at index `i`: the pulses of the peaks within reach are subtracted. -/
def cfrPass (bands : List (Int × Nat × Nat)) (thresh : Nat) (c : Around) (i : Int) : Smp :=
  let ps := ((upTo (2 * cfrHalf + 1)).map fun (k : Nat) => i + (k : Int) - (cfrHalf : Int)).filter (isPeak thresh c)
  if ps.isEmpty then c i
  else
    let cut := Smp.sum (ps.map fun j => Smp.mul (Config.cfrPulse bands (i - j)) (excess thresh (c j)))
    ((c i).1 - roundDiv cut.1 (2 ^ 35), (c i).2 - roundDiv cut.2 (2 ^ 35))
/-- `n` passes. -/
def cfrPasses (bands : List (Int × Nat × Nat)) (thresh : Nat) : Nat → Around → Around
  | 0, c => c
  | n + 1, c => cfrPasses bands thresh n (cfrPass bands thresh c)
/-- The stage at index `i`: after the passes, a magnitude above the threshold is clipped to it; whether it was. -/
def cfrAt (bands : List (Int × Nat × Nat)) (thresh passes : Nat) (c : Around) (i : Int) : Smp × Bool :=
  if passes = 0 then (c i, false)
  else
    let v := cfrPasses bands thresh passes c i
    let m := v.mag2
    if m ≤ thresh ^ 2 then (v, false)
    else
      let q := Nat.sqrt (m * 2 ^ 40)
      let r := if q * q = m * 2 ^ 40 then q else q + 1
      ((Int.tdiv (v.1 * (thresh * 2 ^ 20 : Nat)) r, Int.tdiv (v.2 * (thresh * 2 ^ 20 : Nat)) r), true)

/-! ### Pre-distortion (R238) -/

/-- A used term of a bank: its number, order, memory, cross lag, exponent, coefficient. -/
structure DpdTerm where
  idx : Nat
  k : Nat
  m : Nat
  l : Int
  shift : Nat
  w : Smp

/-- |x|^p in 2^-40. -/
def magPow (x : Smp) (p : Nat) : Nat :=
  let q := x.mag2 ^ (p / 2)
  if p % 2 = 0 then q * 2 ^ 40 else q * Nat.sqrt (x.mag2 * 2 ^ 80)
/-- One term at the present sample, in 2^-143 of a step; `x` gives the inputs by their age. -/
def DpdTerm.at (t : DpdTerm) (x : Nat → Smp) : Smp :=
  let p := t.k - 1
  Smp.scale ((magPow (x (t.m + t.l).toNat) p * 2 ^ t.shift * 2 ^ (11 * (8 - p)) : Nat) : Int) (Smp.mul t.w (x t.m))
/-- y(n): rounded to nearest, ties to even, and saturated; whether it saturated. -/
def dpdOut (ts : List DpdTerm) (x : Nat → Smp) : Smp × Bool := satSmp (2 ^ 143) (Smp.sum (ts.map fun t => t.at x))

/-! ### IQ, DC and alignment (R295, R302) -/

/-- Both signed halves of a word. -/
def halves (w : Nat) : Smp := (toSigned 16 w, toSigned 16 (w / 2 ^ 16))
/-- The correction of a received sample: DC in 1/16 step, image coefficient in Q15, alignment weight in Q14. -/
def iqCorrect (dc iq rxw : Smp) (s : Smp) : Smp :=
  let u := (16 * s.1 - dc.1, 16 * s.2 - dc.2)
  let v := Smp.add (Smp.scale (2 ^ 15) u) (Smp.mul iq (u.1, -u.2))
  (satSmp (2 ^ 33) (Smp.mul v rxw)).1
/-- The transmit weight at the end of the combiner. -/
def txWeigh (txw : Smp) (s : Smp) : Smp := if txw == (16384, 0) then s else (satSmp (2 ^ 14) (Smp.mul s txw)).1

/-! ### Gaussian frequency-shift keying (R264) -/

/-- Symbol values of the bits, first bit first. -/
def gfskSymbols (modu : Nat) : List Bool → List Int
  | [] => []
  | b :: t => if modu = 2 then match t with
      | [] => []
      | c :: u => ((if b then -1 else 1) * (if c then 3 else 1)) :: gfskSymbols modu u
    else (if b then 1 else -1) :: gfskSymbols modu t

/-- (ln 2)^1/2 / (2 pi), in 2^-60: a Gaussian filter's standard deviation, in symbols, times BT; 1 / (2 pi)^1/2 in 2^-80. -/
def gaussSigma : Nat := 152768073522595256
def normalPeak : Nat := 482291623313231213510444
/-- x times the normal distribution plus the density at `x`, in 2^-80, for `x` from 0 on: the integral of the distribution. -/
def normalArea (x : Nat) : Nat :=
  if 7 * 2 ^ 80 ≤ x then x
  else
    let y : Nat := x * x / 2 ^ 80
    let dens : Nat := (roundRat (expDown ((y : Rat) / ((2 ^ 81 : Nat) : Rat)) * ((2 ^ 80 : Nat) : Rat))).toNat * normalPeak / 2 ^ 80
    let s := (upTo 120).foldl (fun (a : Nat × Nat) n => (a.1 + a.2, a.2 * y / 2 ^ 80 / (2 * n + 3))) (0, x)
    x / 2 + x * (dens * s.1 / 2 ^ 80) / 2 ^ 80 + dens
/-- The integral of a rectangle of one symbol through the Gaussian filter of BT × 100, up to `u` 2^-20 of a symbol from its centre, but for a factor. -/
def gaussArea (bt : Nat) (u : Int) : Int :=
  let f (w : Int) : Int := let x := w * (bt * 2 ^ 119 : Nat) / (100 * gaussSigma : Nat); if 0 ≤ x then normalArea x.toNat else (normalArea (-x).toNat : Int) + x
  f (2 * u + 2 ^ 20) - f (2 * u - 2 ^ 20)
/-- The integral, in 2^-30, of the frequency pulse of BT × 100 from its beginning to `v` 2^-20 of a symbol after it: truncated to four symbols, of
unit area. -/
def gaussStep (bt v : Nat) : Int :=
  let a (u : Int) : Int := gaussArea bt (u - 2 ^ 21) - gaussArea bt (-2 ^ 21)
  let whole := a (2 ^ 22)
  if whole ≤ 0 then 0 else roundDiv (a v * 2 ^ 30) whole.toNat
/-- The part of its phase, in 2^-30, that symbol `k` has given `u` 2^-20 of a symbol after the packet's first symbol starts: its pulse, of four
symbols, is centred on the middle of its symbol. -/
def gaussGain (bt : Nat) (k u : Int) : Int :=
  let v := u - k * 2 ^ 20 + 3 * 2 ^ 19
  if v ≤ 0 then 0 else if 2 ^ 22 ≤ v then 2 ^ 30 else gaussStep bt v.toNat

/-- The envelope, in 2^-60 of AMP, `u` 2^-20 of a symbol after the first symbol starts, where its fall starts at `stop`: raised cosines of two
symbols before and after. -/
def rampAt (stop u : Int) : Int :=
  let c (v : Int) : Int := (2 ^ 60 - (rootFix (2 ^ 23) (2 * v).toNat).1) / 2
  let part (v : Int) : Int := if v ≤ 0 then 0 else if v < 2 ^ 21 then c v else 2 ^ 60
  min (part (u + 2 ^ 21)) (part (stop + 2 ^ 21 - u))

/-- The modem's output in 2^-20, `u` 2^-20 of a symbol after the first of the symbols `as` starts, where its fall starts at `stop`: through a ramp
the frequency is that of the symbol beside it. -/
def gfskAt (m : NbMod) (as : List Int) (stop u : Int) : Smp :=
  let env := rampAt stop u
  if m.amp = 0 ∨ env = 0 then (0, 0)
  else
    let a (k : Int) : Int := nth 0 as (min k.toNat (as.length - 1))
    let within := min (max u 0) stop
    let steps := ((upTo (as.length + 4)).map fun (i : Nat) => a ((i : Int) - 2) * gaussGain m.bt ((i : Int) - 2) within).foldl (· + ·) 0
    let keyed := (m.h : Int) * (steps + a (within / 2 ^ 20) * (u - within) * 2 ^ 10)
    -- turns: h / 2 for a symbol value of one over a symbol, and the centre offset over the time since
    let p := turned (200 * m.rate3 * 2 ^ 30) (keyed * m.rate3 + 600 * m.ofs * u * 2 ^ 10) ((m.amp : Int) * 2 ^ 20, 0)
    (p.1 * env / 2 ^ 60, p.2 * env / 2 ^ 60)

end Sys2Proof.Machine
end

