-- ==== Sys2Proof/Machine/Align.lean ====
section
/-! DEFINITION. The fits of array alignment (R297-R299): logarithms and arguments, least squares, the receive and the transmit fit, their residuals. -/

namespace Sys2Proof.Machine

/-! ### Logarithm, argument, root -/

/-- A number to 2^-100. -/
def cutRat (x : Rat) : Rat := (roundRat (x * ((2 ^ 100 : Nat) : Rat)) : Rat) / ((2 ^ 100 : Nat) : Rat)
/-- The square root of a number from 0 on, to 2^-100. -/
def sqrtRat (x : Rat) : Rat := ((Nat.sqrt (x * ((2 ^ 200 : Nat) : Rat)).floor.toNat : Nat) : Rat) / ((2 ^ 100 : Nat) : Rat)
/-- ln 2 and ln 10, to 2^-60. -/
def lnTwo : Rat := ((799144290325165978 : Nat) : Rat) / ((2 ^ 60 : Nat) : Rat)
def lnTen : Rat := ((2654699869899991813 : Nat) : Rat) / ((2 ^ 60 : Nat) : Rat)
/-- z + c z^3/3 + z^5/5 + … with the sign `c` at every second term. -/
def oddSeries (c : Rat) (z : Rat) : Rat :=
  let z2 := cutRat (c * z * z)
  ((upTo 34).foldl (fun (a : Rat × Rat) i => (a.1 + a.2 / ((2 * i + 1 : Nat) : Rat), cutRat (a.2 * z2))) (0, z)).1
/-- The natural logarithm of a number above 0. -/
def lnRat (x : Rat) : Rat :=
  let k : Int := (Nat.log2 x.num.natAbs : Int) - (Nat.log2 x.den : Int)
  let m := cutRat (x / pow2 k)
  k * lnTwo + 2 * oddSeries 1 (cutRat ((m - 1) / (m + 1)))
/-- Half the angle of a number not on the negative axis. -/
def halfAngle (c : CRat) : CRat := ⟨cutRat (c.re + sqrtRat (c.re * c.re + c.im * c.im)), c.im⟩
/-- The argument of a number, between -pi and pi; 0 for 0. -/
def argRat (c : CRat) : Rat :=
  let top := max (if c.re < 0 then -c.re else c.re) (if c.im < 0 then -c.im else c.im)
  if top = 0 then 0
  else
    let z : CRat := ⟨cutRat (c.re / top), cutRat (c.im / top)⟩
    let front : CRat := if z.re < 0 then ⟨-z.re, -z.im⟩ else z
    let h := halfAngle (halfAngle front)
    let a := 4 * oddSeries (-1) (cutRat (h.im / h.re))
    let pi : Rat := (piFix : Rat) / ((2 ^ 60 : Nat) : Rat)
    if z.re < 0 then (if z.im < 0 then a - pi else a + pi) else a

/-! ### Least squares -/

/-- One column of Gauss-Jordan elimination: the rows solved so far, with their columns, and the rest. -/
def eliminate (acc : List (Nat × List Rat) × List (List Rat)) (c : Nat) : List (Nat × List Rat) × List (List Rat) :=
  match acc.2.find? fun r => nth 0 r c != 0 with
  | none => acc
  | some p =>
    let q := p.map fun x => x / nth 0 p c
    let less (r : List Rat) : List Rat := (r.zip q).map fun x => cutRat (x.1 - nth 0 r c * x.2)
    (acc.1.map (fun r => (r.1, less r.2)) ++ [(c, q)], (acc.2.erase p).map less)
/-- The least-squares solution of equations over `n` unknowns; an unknown that they do not settle is 0 (assumption log). -/
def leastSquares (n : Nat) (eqs : List (List Rat × Rat)) : List Rat :=
  let normal := (upTo n).map fun i => (upTo n).map (fun j => eqs.foldl (fun (s : Rat) e => s + nth 0 e.1 i * nth 0 e.1 j) 0) ++
    [eqs.foldl (fun (s : Rat) e => s + nth 0 e.1 i * e.2) 0]
  let r := (upTo n).foldl eliminate ([], normal)
  (upTo n).map fun c => match r.1.find? fun x => x.1 = c with
    | some x => nth 0 x.2 n
    | none => 0
/-- The root mean square of what a solution leaves. -/
def residual (eqs : List (List Rat × Rat)) (xs : List Rat) : Rat :=
  let rs := eqs.map fun e => e.2 - (e.1.zip xs).foldl (fun (s : Rat) p => s + p.1 * p.2) 0
  if rs.isEmpty then 0 else sqrtRat (rs.foldl (fun (s : Rat) x => s + x * x) 0 / ((rs.length : Nat) : Rat))

/-! ### Normalisation (R298) -/

def dotRat (a b : List Rat) : Rat := (a.zip b).foldl (fun s p => s + p.1 * p.2) 0
/-- `x` less its components along mutually orthogonal vectors. -/
def removeAlong (us : List (List Rat)) (x : List Rat) : List Rat :=
  us.foldl (fun x u =>
    let n := dotRat u u
    if n = 0 then x else (x.zip u).map fun p => p.1 - dotRat x u / n * p.2) x
/-- The vectors made mutually orthogonal, in order. -/
def orthogonal (vs : List (List Rat)) : List (List Rat) := vs.foldl (fun us v => us ++ [removeAlong us v]) []
/-- Gain changes of the targets with a geometric mean of 1: their logarithms less the mean. -/
def unitGain (as : List Rat) : List Rat := removeAlong [as.map fun _ => 1] as
/-- The receive step's gain changes: what its fit cannot see, a common gain of either polarisation, keeps its value (R298, assumption log). -/
def flatGain (ts : List (Nat × Nat × Nat)) (as : List Rat) : List Rat :=
  removeAlong ([0, 1].map fun pol => ts.map fun t => if t.2.2 = pol then 1 else 0) as
/-- Phase changes without a mean or a linear component along rows or columns, per polarisation (R298); a target is its row, column and
polarisation. -/
def flatPhase (ts : List (Nat × Nat × Nat)) (ps : List Rat) : List Rat :=
  let along (pol : Nat) (f : Nat × Nat × Nat → Nat) : List Rat := ts.map fun t => if t.2.2 = pol then (f t : Rat) else 0
  removeAlong (orthogonal ([0, 1].flatMap fun pol => [along pol fun _ => 1, along pol (·.1), along pol (·.2.1)])) ps

/-! ### The receive fit (R297) -/

/-- What a kind-2 run measures over its targets: their places; the covariances of each counted window, by row and column of target; the couplings,
by excited target and receiving one. -/
structure ArrayStat where
  geo : List (Nat × Nat × Nat)
  cov : List (List (List CRat))
  coup : List (List CRat)
def covAt (m : List (List CRat)) (i j : Nat) : CRat := nth .zero (nth [] m i) j
def CRat.mag2 (c : CRat) : Rat := c.re * c.re + c.im * c.im
/-- The pairs of targets of equal polarisation, ordered so that their baseline points one way, each with its class: polarisation and baseline. -/
def ArrayStat.pairs (s : ArrayStat) : List (Nat × Nat × Nat × Int × Int) :=
  (upTo s.geo.length).flatMap fun i => (upTo s.geo.length).filterMap fun j =>
    let x := nth (0, 0, 0) s.geo i
    let y := nth (0, 0, 0) s.geo j
    let dr : Int := (y.1 : Int) - x.1
    let dc : Int := (y.2.1 : Int) - x.2.1
    if x.2.2 = y.2.2 ∧ (0 < dr ∨ dr = 0 ∧ 0 < dc) then some (i, j, x.2.2, dr, dc) else none
/-- A window counts: the mean coherence of the pairs that are adjacent on the grid is at least 0.1; without such a pair none does. -/
def ArrayStat.counts (s : ArrayStat) (m : List (List CRat)) : Bool :=
  let near := s.pairs.filter fun p => p.2.2.2.1.natAbs + p.2.2.2.2.natAbs == 1
  let coh := near.map fun p =>
    let q := (covAt m p.1 p.1).re * (covAt m p.2.1 p.2.1).re
    if q ≤ 0 then 0 else sqrtRat ((covAt m p.1 p.2.1).mag2 / q)
  !near.isEmpty && decide ((near.length : Rat) ≤ 10 * coh.foldl (fun s x => s + x) 0)
/-- The equations of the receive fit for amplitudes and for phases: within a class the common term is taken out by its mean. A pair without
covariance has no logarithm and takes no part. -/
def ArrayStat.rxEqs (s : ArrayStat) : List (List Rat × Rat) × List (List Rat × Rat) :=
  let n := s.geo.length
  let sum (i j : Nat) : CRat := s.cov.foldl (fun a m => a.add (covAt m i j)) .zero
  let live := s.pairs.filter fun p => (sum p.1 p.2.1).mag2 != 0
  let unit (c : Rat) (p : Nat × Nat × Nat × Int × Int) : List Rat := (upTo n).map fun i => if i = p.1 then 1 else if i = p.2.1 then c else 0
  let centred (l : List (List Rat × Rat)) : List (List Rat × Rat) :=
    let m : Rat := ((max 1 l.length : Nat) : Rat)
    let mean := (upTo n).map fun i => l.foldl (fun (s : Rat) e => s + nth 0 e.1 i) 0 / m
    let y := l.foldl (fun (s : Rat) e => s + e.2) 0 / m
    l.map fun e => ((e.1.zip mean).map fun x => x.1 - x.2, e.2 - y)
  let classes := (live.map (·.2.2)).eraseDups.map fun k => live.filter fun p => p.2.2 == k
  (classes.flatMap fun c => centred (c.map fun p => (unit 1 p, lnRat (sum p.1 p.2.1).mag2 / 2)),
   classes.flatMap fun c => match c with
     | [] => []
     | p0 :: _ => centred (c.map fun p => (unit (-1) p, argRat ((sum p.1 p.2.1).mul (sum p0.1 p0.2.1).conj))))

/-! ### The transmit fit (R299) -/

/-- The equations of the transmit fit, given the receive gains: pairs of which both couplings are within 40 dB of the strongest. -/
def ArrayStat.txEqs (s : ArrayStat) (as phis : List Rat) : List (List Rat × Rat) × List (List Rat × Rat) :=
  let n := s.geo.length
  let h (j i : Nat) : CRat := covAt s.coup i j
  let idx := (upTo n).flatMap fun i => (upTo i).map fun j => (i, j)
  let top := idx.foldl (fun m p => max m (max (h p.1 p.2).mag2 (h p.2 p.1).mag2)) 0
  let ok (c : CRat) : Bool := c.mag2 != 0 && decide (top ≤ 10000 * c.mag2)
  let live := idx.filter fun p => ok (h p.1 p.2) && ok (h p.2 p.1)
  let row (p : Nat × Nat) : List Rat := (upTo n).map fun k => if k = p.1 then 1 else if k = p.2 then -1 else 0
  (live.map fun (i, j) => (row (i, j), lnRat ((h j i).mag2 / (h i j).mag2) / 2 - (nth 0 as j - nth 0 as i)),
   live.map fun (i, j) =>
     let g := nth 0 phis j - nth 0 phis i
     let a := argRat ((h j i).mul (h i j).conj) - g
     let pi : Rat := (piFix : Rat) / ((2 ^ 60 : Nat) : Rat)
     (row (i, j), a - 2 * pi * ((a / (2 * pi) + 1 / 2).floor : Rat)))

/-! ### Both steps -/

/-- What the fits give: gain and phase changes of the receive step and of the transmit step, normalised, and the RMS residual of phase, in 0.01 degree,
and of gain, in 0.01 dB, of the worse step. -/
structure ArrayFit where
  as : List Rat
  phis : List Rat
  bs : List Rat
  psis : List Rat
  phase : Rat
  gain : Rat
def ArrayStat.fit (s : ArrayStat) (tx : Bool) : ArrayFit :=
  let n := s.geo.length
  let (ea, ep) := s.rxEqs
  let a := leastSquares n ea
  let p := leastSquares n ep
  let as := flatGain s.geo a
  let phis := flatPhase s.geo p
  let (eb, eq) := if tx then s.txEqs as phis else ([], [])
  let b := leastSquares n eb
  let q := leastSquares n eq
  let pi : Rat := (piFix : Rat) / ((2 ^ 60 : Nat) : Rat)
  let rx := (residual ep p * 18000 / pi, residual ea a * 2000 / lnTen)
  let t := (residual eq q * 18000 / pi, residual eb b * 2000 / lnTen)
  let worse := if tx ∧ rx.1 < t.1 then t else rx
  ⟨as, phis, unitGain b, unitGain q, worse.1, worse.2⟩

end Sys2Proof.Machine
end

