-- ==== Sys2Proof/Machine/Cal.lean ====
section
/-! DEFINITION. Calibration runs and the ends of eye scans (R284-R303, R367). A statistic is gathered from the device's own captures, or from the
samples that come with the event that says it is complete. -/

namespace Sys2Proof.Machine

/-! ### Targets (R284, R288) -/

/-- Targets of a kind. -/
def calCount (kind : Nat) : Nat := if kind = 3 then 112 else 64
/-- The domains a target needs are in RUN. -/
def Dev.calDomOn (d : Dev) (kind i : Nat) : Bool :=
  match kind with
  | 0 => d.domRun (36 + i / 16)
  | 1 => d.domRun (40 + i / 16)
  | 2 => d.domRun (36 + i / 16) && d.domRun (40 + i / 16)
  | _ => d.domRun (laneDom i)
/-- An eye scan is possible on the lane (R300, R368). -/
def Dev.scanLane (d : Dev) (i : Nat) : Bool := isCrx i || (isEl i && d.rf (ZTH_Li_STS_RATE i) == 0x12)
/-- A target cannot take the kind. -/
def Dev.calNotFor (d : Dev) (kind i : Nat) : Bool :=
  match kind with
  | 0 => d.flag (DFE_TX_t_DPD_BYPASS i)
  | 1 => false
  | 2 => !d.flag (DFE_GEO_c_VALID i)
  | _ => !d.scanLane i
/-- Step 2 of R287: the reason a target fails at once, 0 for none. `tl` is the command's timeline; automatic runs have none. -/
def Dev.calRefuse (d : Dev) (kind i : Nat) (tl : Option Nat) (intr : Nat) : Nat :=
  if !d.calDomOn kind i then 3
  else if kind == 3 && (isCtx i || isPl i) then 5
  else if (tl.map fun n => n != d.rf (bkTl kind i)).getD false then 7
  else if d.flag (bkPending kind i) then 4
  else if d.calNotFor kind i then 5
  else if kind == 3 && isEl i && intr == 0 then 2
  else 0

/-- TARGET_FAILED. -/
def Dev.calEvent (d : Dev) (kind i reason fig : Nat) : Dev := d.event 5 1 (kind + 2 ^ 8 * i) reason fig

/-! ### Runs -/

/-- A run of the kind has this target, and it is not final. -/
def CalTgt.live (t : CalTgt) : Bool := t.phase != .committed && t.phase != .failed
def Dev.calRunning (d : Dev) (kind i : Nat) : Bool := d.cal.runs.any fun r => r.kind == kind && r.targets.any fun t => t.idx == i && t.live
/-- The run whose target is in phase `ph`. -/
def Dev.calFind (d : Dev) (kind i : Nat) (ph : CalPhase) : Option (CalRun × CalTgt) :=
  d.cal.runs.findSome? fun r => if r.kind = kind then (r.targets.find? fun t => t.idx == i && t.phase == ph).map (r, ·) else none
/-- Change a target of run `id`. -/
def Dev.calUpd (d : Dev) (id i : Nat) (f : CalTgt → CalTgt) : Dev :=
  { d with cal.runs := d.cal.runs.map fun (r : CalRun) =>
      if r.id = id then { r with targets := r.targets.map fun t => if t.idx = i then f t else t } else r }
def Dev.calRun (d : Dev) (id : Nat) : Option CalRun := d.cal.runs.find? (·.id == id)
/-- A target of a run fails: it is held no longer. -/
def Dev.calFail (d : Dev) (r : CalRun) (i reason fig : Nat) : Dev :=
  ((d.calUpd r.id i fun t => { t with phase := .failed, fig := fig }).setFlag (bkHeld r.kind i) false).calEvent r.kind i reason fig

/-- `a` is a worse figure than `b` by more than `m` steps (R289). -/
def worseBy (kind m a b : Nat) : Bool :=
  match kind with
  | 0 => decide (toSigned 32 b + m < toSigned 32 a)
  | 1 => decide (a % 65536 + m < b % 65536)
  | 2 => decide (b % 65536 + m < a % 65536)
  | _ => decide (a % 65536 + m < b % 65536)

/-- Step 7: a run whose targets are all final completes, with the period of its last commit boundary, those later reverted among them, and the
worst figure of the targets that stay committed (assumption log); a committed target's figure is kept for CAL_STATUS. -/
def Dev.calClose (d : Dev) (r : CalRun) : Dev :=
  if r.targets.any CalTgt.live then d
  else
    let good := r.targets.filter (·.phase == .committed)
    let last := good.foldl (fun m t => Tab.put m (128 * r.kind + t.idx) (t.fig, t.period, d.now)) d.cal.last
    let d1 : Dev := { d with cal.runs := d.cal.runs.filter (·.id != r.id), cal.last := last }
    match r.cmd with
    | none => d1
    | some (q, tag) =>
      let worst := match good with
        | [] => 0
        | t :: ts => ts.foldl (fun w x => if worseBy r.kind 0 x.fig w then x.fig else w) t.fig
      let per := r.lastPeriod.getD (2 ^ 16)
      d1.complete q tag okS [good.length, r.targets.length - good.length, per, worst]
/-- Close every run that can be closed. -/
def Dev.calFinish (d : Dev) : Dev := d.cal.runs.foldl (fun d r => d.calClose r) d

/-- Arm the solved targets of a run (R286). -/
def Dev.calArmAll (d : Dev) (r : CalRun) : Dev :=
  (r.targets.filter (·.phase == .solved)).foldl (fun d t =>
    (d.armAt r.kind t.idx (max d.now (r.solAt + usT 100 - 1)) (.run r.id)).calUpd r.id t.idx fun t => { t with phase := .armed }) d

/-- A kind-2 run makes the transmit step: every target chain follows one pattern on one timeline. -/
def Dev.txStep (d : Dev) (r : CalRun) : Bool :=
  r.kind == 2 && match r.targets.map fun t => d.tddOf t.idx with
    | [] => false
    | x :: xs => x.isSome && xs.all (· == x)

/-! ### Solutions (R294-R300) -/

/-- Squared magnitude of a pair of signed 16-bit halves. -/
def mag2 (w : Nat) : Nat := (halves w).mag2

/-- A solution is within the bank's range: kind 0 gives SHIFT and coefficient of the 64 terms, kind 1 DC and image term, kind 2 RX and
TX weight, kind 3 the sampling point. -/
def solOk (kind : Nat) (sol : List Nat) : Bool :=
  let x (i : Nat) := nth 0 sol i
  match kind with
  | 0 => (upTo 64).all fun i => decide (x (2 * i) ≤ 7)
  | 1 => decide (mag2 (x 0) ≤ 4096 ^ 2) && decide (mag2 (x 1) ≤ 4096 ^ 2)
  | 2 => [x 0, x 1].all fun w => decide (8192 ^ 2 ≤ mag2 w) && decide (mag2 w ≤ 32768 ^ 2)
  | _ => !(decide (32 ≤ x 0 % 128) && decide (x 0 % 128 ≤ 95))

/-- Write a solution into the inactive bank; kind 0 copies the active bank's terms. -/
def Dev.solWrite (d : Dev) (kind i : Nat) (sol : List Nat) : Dev :=
  let a := d.rf (bkActive kind i)
  let b := 1 - a
  let x (j : Nat) := nth 0 sol j
  match kind with
  | 0 => (upTo 64).foldl (fun d t =>
      let d1 := (d.setReg (rDFE_DPD_t_b_TERM_i i b t) (d.reg (rDFE_DPD_t_b_TERM_i i a t))).setReg (rDFE_DPD_t_b_COEF_i i b t) 0
      if d.rf (DFE_DPD_t_b_TERM_i_K i a t) = 0 then d1
      else (d1.wf (DFE_DPD_t_b_TERM_i_SHIFT i b t) (x (2 * t))).setReg (rDFE_DPD_t_b_COEF_i i b t) (x (2 * t + 1))) d
  | 1 => (d.setReg (rDFE_IQC_r_b_DC i b) (x 0)).setReg (rDFE_IQC_r_b_IQ i b) (x 1)
  | 2 => (d.setReg (rDFE_ALN_c_b_RXW i b) (x 0)).setReg (rDFE_ALN_c_b_TXW i b) (x 1)
  | _ => d.setReg (rZTH_Li_SPC_b i b) (x 0 % 65536)

/-- A pair of halves as a word; out of the range of halves, none. -/
def ofHalves (s : Smp) : Option Nat :=
  if [s.1, s.2].all fun v => decide (-32768 ≤ v) && decide (v ≤ 32767) then some (ofSigned 16 s.1 + 2 ^ 16 * ofSigned 16 s.2) else none

/-- The largest n from `lo` to `hi` with 10^n at or below `x` to the power `e`; `lo` if there is none. -/
def logFloor (lo hi : Int) (e : Nat) (x : Rat) : Int :=
  (upTo (hi - lo).toNat).foldl (fun (m : Int) (i : Nat) =>
    let n : Int := lo + i + 1
    let t : Rat := if n < 0 then 1 / (10 ^ n.natAbs : Nat) else (10 ^ n.natAbs : Nat)
    if t ≤ x ^ e then n else m) lo
/-- A figure in whole steps: the rule gives no rounding, so `given` may be the step above (assumption log). -/
def nearFig (low : Int) (given : Int) : Int := if given = low + 1 then given else low

/-! #### Pre-distortion (R294) -/

/-- The used terms of bank `b` of chain `t` (R239). -/
def Dev.dpdTerms (d : Dev) (t b : Nat) : List DpdTerm :=
  ((upTo 64).filter fun i => d.rf (DFE_DPD_t_b_TERM_i_K t b i) != 0).map fun i =>
    ⟨i, d.rf (DFE_DPD_t_b_TERM_i_K t b i), d.rf (DFE_DPD_t_b_TERM_i_M t b i), toSigned 4 (d.rf (DFE_DPD_t_b_TERM_i_L t b i)),
     d.rf (DFE_DPD_t_b_TERM_i_SHIFT t b i), halves (d.reg (rDFE_DPD_t_b_COEF_i t b i))⟩

/-- Captures of a kind-0 statistic, and samples of one. -/
abbrev calCaps : Nat := 4
abbrev calLen : Nat := 16384
/-- |x| in units of a full-scale step, from its fixed-point root. -/
def basisMag (x : Smp) (p : Nat) : Rat := (magPow x p : Rat) / ((2 ^ 40 * 2048 ^ p : Nat) : Rat)
def toCRat (s : Smp) : CRat := ⟨(s.1 : Rat), (s.2 : Rat)⟩
/-- The row of basis values at sample `n` of a capture of inputs `xs`; what lies before the capture counts as nothing (assumption log). -/
def basisRow (ts : List DpdTerm) (xs : List Smp) (n : Nat) : List CRat :=
  let past (m : Nat) : Smp := if n < m then (0, 0) else nth (0, 0) xs (n - m)
  ts.map fun t => (toCRat (past t.m)).scale (basisMag (past ((t.m : Int) + t.l).toNat) (t.k - 1))
/-- The coefficient with the smallest SHIFT that holds it: SHIFT (8 where none does) and word. -/
def coefFor (w : CRat) : Nat × Nat :=
  ((upTo 8).findSome? fun (s : Nat) =>
    let q := pow2 (15 - (s : Int))
    (ofHalves (roundRat (w.re * q), roundRat (w.im * q))).map fun v => (s, v)).getD (8, 0)
/-- The update of R294 from captures of inputs and aligned observed samples; none: no gain could be formed. With it, the NMSE. -/
def dpdUpdate (ts : List DpdTerm) (xs zs : List (List Smp)) : Option (List CRat × Rat) :=
  let pairs := (xs.zip zs).flatMap fun c => (upTo calLen).map fun n => (toCRat (nth (0, 0) c.1 n), toCRat (nth (0, 0) c.2 n))
  let px := (CRat.dot (pairs.map (·.1)) (pairs.map (·.1))).re
  let g := (CRat.dot (pairs.map (·.1)) (pairs.map (·.2))).scale (1 / px)
  let g2 := g.re * g.re + g.im * g.im
  if px = 0 ∨ g2 = 0 then none
  else
    let errs := pairs.map fun p => p.1.sub ((p.2.mul g.conj).scale (1 / g2))
    let rows := xs.flatMap fun c => (upTo calLen).map (basisRow ts c)
    let cols := (upTo ts.length).map fun i => rows.map fun r => nth .zero r i
    let tr := (upTo ts.length).foldl (fun (s : Rat) i => s + (CRat.dot (nth [] cols i) (nth [] cols i)).re) 0
    let lam := tr / ((2 ^ 20 * max 1 ts.length : Nat) : Rat)
    let step := (factor 0 ts.length (gram cols (List.replicate cols.length lam))).solve (cols.map fun c => CRat.dot c errs)
    some (((ts.zip step).map fun p => ((toCRat p.1.w).scale (pow2 ((p.1.shift : Int) - 15))).add (p.2.scale (3 / 4)),
      (CRat.dot errs errs).re / px))

/-! #### IQ and DC (R296) -/

/-- m, p and c of a window of received samples with the correction in force, before the alignment weight: mean, power and pseudo-covariance (R296). -/
structure IqStat where
  m : CRat
  p : Rat
  c : CRat
def iqStat (dc iq : Smp) (ss : List Smp) : IqStat :=
  let unit : Rat := 1 / ((2 ^ 19 : Nat) : Rat)
  let vs := ss.map fun s =>
    let u : Smp := (16 * s.1 - dc.1, 16 * s.2 - dc.2)
    Smp.add (Smp.scale (2 ^ 15) u) (Smp.mul iq (u.1, -u.2))
  let n : Rat := ((max 1 vs.length : Nat) : Rat)
  let s1 := Smp.sum vs
  let s2 := Smp.sum (vs.map fun v => Smp.mul v v)
  let pw := power vs
  let m : CRat := (toCRat s1).scale (unit / n)
  ⟨m, (pw : Rat) * unit * unit / n - m.mag2, ((toCRat s2).scale (unit * unit / n)).sub (m.mul m)⟩
/-- The new DC and image terms, in 1/16 and in 2^-15, rounded; none out of the range of its register. -/
def iqUpdate (dc iq : Smp) (x : IqStat) : Option Nat × Option Nat :=
  let q := x.p + sqrtRat (max 0 (x.p * x.p - x.c.mag2))
  let w : CRat := if q = 0 then .zero else x.c.scale (1 / q)
  let step (v : CRat) (k : Nat) : Smp := (roundRat (v.re * (k : Rat)), roundRat (v.im * (k : Rat)))
  let dm := step x.m 16
  let dw := step w (2 ^ 15)
  (ofHalves (dc.1 + dm.1, dc.2 + dm.2), ofHalves (iq.1 - dw.1, iq.2 - dw.2))
/-- Image rejection and residual DC, in 0.25 dB (R289, R303). -/
def iqFigure (x : IqStat) (given : Nat) : Nat :=
  let rej : Int := if x.c.mag2 = 0 then 400 else min 400 (nearFig (logFloor (-1) 400 40 (4 * x.p * x.p / x.c.mag2)) (toSigned 16 given))
  let dc : Int := if x.m.mag2 = 0 then -512 else nearFig (logFloor (-512) 16 40 (x.m.mag2 / ((2047 ^ 2 : Nat) : Rat))) (toSigned 16 (given / 2 ^ 16))
  ofSigned 16 rej + 2 ^ 16 * ofSigned 16 dc

/-! #### Array alignment (R297-R299) -/

/-- e^-a in 2^-60, for a in 2^-60 between -4 and 4. -/
def expNeg (a : Int) : Int :=
  ((upTo 48).foldl (fun (acc : Int × Int) (i : Nat) =>
    let t := -(acc.2 * a / 2 ^ 60) / ((i : Int) + 1)
    (acc.1 + t, t)) ((2 ^ 60 : Int), (2 ^ 60 : Int))).1
/-- Cosine and sine of an angle in 2^-60 radian, in 2^-60. -/
def angleFix (x : Int) : Int × Int :=
  let y := x - roundDiv x (2 * piFix).toNat * (2 * piFix)
  let y2 := y * y / 2 ^ 60
  (2 ^ 60 + trigSeries 0 y2 18 0 (2 ^ 60), y + trigSeries 1 y2 18 0 y)
/-- A weight × e^(-a - jφ), rounded; none out of the range of its register. -/
def weightStep (w : Smp) (a phi : Rat) : Option Nat :=
  if a < -4 ∨ 4 < a then none
  else
    let g := expNeg (a * ((2 ^ 60 : Nat) : Rat)).floor
    let r := angleFix (phi * ((2 ^ 60 : Nat) : Rat)).floor
    let p := Smp.mul w (r.1, -r.2)
    ofHalves (roundDiv (p.1 * g) (2 ^ 120), roundDiv (p.2 * g) (2 ^ 120))

/-- What a run's targets measured: each gives, for its four windows, the covariance of its chain with every target's, then, where it was excited, the
coupling into every target's chain, real and imaginary parts in 2^-8. -/
def Dev.arrayStat (d : Dev) (r : CalRun) : ArrayStat :=
  let n := r.targets.length
  let at_ (t : CalTgt) (k : Nat) : CRat := ⟨((nth 0 t.sol (2 * k) : Int) : Rat) / 256, ((nth 0 t.sol (2 * k + 1) : Int) : Rat) / 256⟩
  let rows (k : Nat) : List (List CRat) := r.targets.map fun t => (upTo n).map fun j => at_ t (k * n + j)
  ⟨r.targets.map fun t => (d.rf (DFE_GEO_c_ROW t.idx), d.rf (DFE_GEO_c_COL t.idx), d.rf (DFE_GEO_c_POL t.idx)), (upTo 4).map rows, rows 4⟩
/-- The weights of a kind-2 run's targets, in order (R297-R299): the changes the fits give, normalised, on the active weights. TX weights change
where the transmit step ran. A target without a weight in range has none. -/
def Dev.alnWeights (d : Dev) (r : CalRun) (f : ArrayFit) : List (Nat × Option (List Nat)) :=
  let tx := d.txStep r
  (upTo r.targets.length).map fun j =>
    let i := (nth ⟨0, .failed, 0, 0, 0, 0, []⟩ r.targets j).idx
    let w := d.bankWords 2 i (d.rf (bkActive 2 i))
    (i, match weightStep (halves w.1) (nth 0 f.as j) (nth 0 f.phis j), if tx then weightStep (halves w.2) (nth 0 f.bs j) (nth 0 f.psis j) else some w.2 with
      | some x, some y => if solOk 2 [x, y] then some [x, y] else none
      | _, _ => none)
/-- The figure of the fits (R289), each half as its step or the one above. -/
def alnFigure (f : ArrayFit) (given : Nat) : Nat :=
  let up (x : Rat) (g : Nat) : Nat := min 65535 (if x.den = 1 then x.num.toNat else (nearFig x.floor g).toNat)
  up f.phase (given % 65536) + 2 ^ 16 * up f.gain (given / 2 ^ 16)

/-! #### Lane eyes (R300) -/

/-- The first of the open points of the widest opening, and their number. -/
def widestRun (pts : List Bool) : Nat × Nat :=
  (upTo pts.length).foldl (fun (b : Nat × Nat) i =>
    let n := ((pts.drop i).takeWhile id).length
    if b.2 < n then (i, n) else b) (0, 0)
/-- The middle of `n` points from `a`; of an even number, either of two (assumption log). -/
def middle (a n : Nat) (up : Bool) : Nat := a + (n - 1) / 2 + (if n % 2 = 0 ∧ up then 1 else 0)
/-- The sampling point that scan points `pts` give a lane whose bank holds `w`; none: no opening. The vertical opening is that at the new phase: the
scan's where the phase stays, else the 32 points that follow the scan's 96. -/
def eyePoint (w pts pick : Nat) : Option (Int × Int) :=
  let l := (upTo 128).map (bitAt pts)
  let ph := widestRun (l.take 64)
  let mid := middle ph.1 ph.2 (bitAt pick 0)
  let th := (l.drop (if mid = 32 then 64 else 96)).take 32
  let lo := 16 - ((th.take 16).reverse.takeWhile id).length
  let n := openRun th 16
  if ph.2 = 0 ∨ n = 0 then none
  else some (toSigned 7 w + (mid : Nat) - 32, toSigned 8 (w / 2 ^ 8) + 5 * ((middle lo n (bitAt pick 1) : Nat) - 16))

/-- Step 5 of a kind-2 run whose targets all have their statistic: a window that does not count is gathered again, with all of them; the weights are written
into the inactive banks, or the targets out of range fail. -/
def Dev.calAlign (d : Dev) (r : CalRun) : Dev :=
  let s := d.arrayStat r
  if !s.cov.all s.counts then
    r.targets.foldl (fun d t => d.calUpd r.id t.idx fun (t : CalTgt) => { t with phase := .gathering, win := d.now, sol := [] }) d
  else
    let f := s.fit (d.txStep r)
    let fig := alnFigure f ((r.targets.head?.map (·.fig)).getD 0)
    let ws := d.alnWeights r f
    if ws.all fun w => w.2.isSome then
      (ws.foldl (fun d w => (d.solWrite 2 w.1 (w.2.getD [])).calUpd r.id w.1 fun (t : CalTgt) => { t with fig0 := fig, fig := fig }) d).calArmAll r
    else ws.foldl (fun d w => d.calFail r w.1 (if w.2.isSome then 9 else 6) fig) d

/-- Step 5: once no target gathers, the survivors are armed; a kind-2 run with a failure arms none. -/
def Dev.calSettle (d : Dev) (id : Nat) : Dev :=
  match d.calRun id with
  | none => d
  | some r =>
    if r.targets.any (·.phase == .gathering) then d
    else if r.kind == 2 && r.targets.any (·.phase == .failed) then
      ((r.targets.filter (·.phase == .solved)).foldl (fun d t => d.calFail r t.idx 9 t.fig0) d).calFinish
    else if r.kind == 2 && r.targets.any (·.phase == .solved) then (d.calAlign r).calFinish
    else (d.calArmAll r).calFinish

/-- Start a run over targets, each with the reason it fails at once. -/
def Dev.calStart (d : Dev) (kind : Nat) (cmd : Option (Nat × Nat)) (tl : Nat) (ts : List (Nat × Nat)) : Dev :=
  let id := d.cal.nextId
  let mk (p : Nat × Nat) : CalTgt := ⟨p.1, if p.2 = 0 then .gathering else .failed, 0, 0, 0, d.now, []⟩
  let r : CalRun := ⟨id, kind, cmd, tl, ts.map mk, d.now, none, [], d.now⟩
  let d1 : Dev := { d with cal.runs := d.cal.runs ++ [r], cal.nextId := id + 1 }
  let d2 := ts.foldl (fun d p => if p.2 = 0 then
      (let e := d.setFlag (bkHeld kind p.1) true
       if kind = 3 && !d.flag (ZTH_Li_STS_SCANNING p.1) then e.scanStart p.1 none else e)
    else d.calEvent kind p.1 p.2 0) d1
  d2.calSettle id

/-- CAL_RUN. -/
def Dev.calRunCmd (d : Dev) (c : PqCmd) : Dev :=
  let kind := pp c 0
  let ts := (upTo (min 112 (pp c 2))).map (pp c 1 + ·)
  d.checks c
    [(decide (3 < kind) || decide (calCount kind < pp c 1 + pp c 2) || decide (1 < pp c 3), badParam),
     (ts.any (d.calRunning kind), busyS)] fun d =>
      let tl := c.timeline.toNat
      (d.accepted c.queue.val c.tag.toNat).calStart kind (some (c.queue.val, c.tag.toNat)) tl
        (ts.map fun i => (i, d.calRefuse kind i (some tl) (pp c 3)))
def execCalRun (c : PqCmd) (s : State) : Res := s.pq 0x0401 c fun d => d.calRunCmd c

/-! ### Statistics (R290, R294-R300) -/

/-- Time limits of the kinds. -/
def calLimit (kind : Nat) : Nat :=
  match kind with
  | 0 => msT 50
  | 1 => msT 200
  | 2 => msT 10000
  | _ => msT 100

/-- When the statistic window of a target that began at `win` is full (R294, R296, R297, R300): captures and scans carry their own time; 2^20 samples, four
times as many for kind 2, of U symbols under TDD; none: the chain never has them. -/
def Dev.calFull (d : Dev) (kind i win : Nat) : Option Nat :=
  if kind = 0 ∨ 3 ≤ kind then some win
  else (d.upTaken i (win + d.feNow - d.now) (if kind = 1 then 2 ^ 20 else 2 ^ 22)).map d.feTime
/-- The captures of chain `i` that count since `win` (R294): wholly within D symbols, their input at -30 dBFS or above. One that fails is discarded. -/
def Dev.calCaptures (d : Dev) (i win : Nat) : List CalCap :=
  d.cal.got.filter fun c => c.chain == i && decide (win ≤ d.feTime c.start) && d.inDown i c.start (c.start + txT calLen) &&
    decide (2047 ^ 2 * calLen ≤ 1000 * power c.xs)

/-- What a complete statistic gives a target. -/
inductive CalSol where
  /-- Its window or captures are discarded, and gathered again. -/
  | discarded
  /-- It fails, with its reason and figure. -/
  | fails (reason fig : Nat)
  /-- Its figure, and what is written into the bank, or kept until a kind-2 run is normalised. -/
  | solves (fig : Nat) (sol : List Nat)
  deriving DecidableEq, Repr

/-- A solution checked against the bank's range. -/
def CalSol.ranged (kind fig : Nat) (sol : Option (List Nat)) : CalSol :=
  match sol with
  | some l => if solOk kind l then .solves fig l else .fails 6 fig
  | none => .fails 6 fig

/-- What its statistic gives target `i` (R294-R300). Kind 0: its first four captures since `win`. Kind 1: `stat` are the window's samples as received, 24
bits each. Kind 2: `stat` is what the target measured; it is solved with the run's others. Kind 3: the scan. `fig` is the rounding of a figure. -/
def Dev.calSolve (d : Dev) (kind i win fig : Nat) (stat : List Nat) : CalSol :=
  match kind with
  | 0 =>
    let caps := (d.calCaptures i win).take calCaps
    let ts := d.dpdTerms i (d.rf (DFE_TX_t_DPD_ACTIVE i))
    if caps.length < calCaps then .discarded
    else match dpdUpdate ts (caps.map (·.xs)) (caps.map (·.zs)) with
      | none => .discarded
      | some (ws, e) =>
        let cs := (ts.zip ws).map fun p => (p.1.idx, coefFor p.2)
        let f := ofSigned 32 (nearFig (logFloor (-512) 512 40 e) (toSigned 32 fig))
        CalSol.ranged 0 f (some ((upTo 64).flatMap fun j => match cs.find? fun c => c.1 == j with
          | some c => [c.2.1, c.2.2]
          | none => [0, 0]))
  | 1 =>
    let a := d.bankWords 1 i (d.rf (bkActive 1 i))
    let by_ := d.flag (DFE_IQC_r_CTL_BYPASS i)
    let dc := if by_ then (0, 0) else halves a.1
    let iq := if by_ then (0, 0) else halves a.2
    let x := iqStat dc iq (stat.map unpackSmp)
    if 100000 * x.p < 2047 ^ 2 then .discarded
    else match iqUpdate dc iq x with
      | (some y, some z) => CalSol.ranged 1 (iqFigure x fig) (some [y, z])
      | _ => .fails 6 (iqFigure x fig)
  | 2 => .solves fig stat
  | _ =>
    let eye := d.reg (rZTH_Li_EYE i)
    match eyePoint (d.reg (rZTH_Li_SPC_b i (d.rf (bkActive 3 i)))) (Tab.getD (fun _ => 0) d.zth.eyes i) fig with
    | none => .fails 1 eye
    | some (p, t) =>
      if p < -32 ∨ 31 < p ∨ t < -128 ∨ 127 < t then .fails 6 eye else CalSol.ranged 3 eye (some [ofSigned 7 p + 2 ^ 8 * ofSigned 8 t])

/-- A target is solved: kinds but 2 write their bank at once. -/
def Dev.calSolved (d : Dev) (r : CalRun) (i fig : Nat) (sol : List Nat) : Dev :=
  let d1 := (if r.kind = 2 then d else d.solWrite r.kind i sol).calUpd r.id i fun t =>
    { t with phase := .solved, fig0 := fig, fig := fig, sol := if r.kind = 2 then sol.map (toSigned 32) else [] }
  { d1 with cal.runs := d1.cal.runs.map fun (x : CalRun) => if x.id = r.id then { x with solAt := d1.now } else x }

/-- Steps 3 and 4 for one target: its statistic is complete, or a link it needs went down. Its window has been full since it began or a bank switch
restarted it (R290), within the time limit. A kind-2 target waits for its excitation where the transmit step runs; a kind-2 run of one target has no pair
to fit (R303). Discarded captures and windows are gathered again. -/
def Dev.calStat (d : Dev) (kind i : Nat) (linkDown : Bool) (fig : Nat) (stat : List Nat) : Dev :=
  match d.calFind kind i .gathering with
  | none => d
  | some (r, t) =>
    if kind == 3 && d.flag (ZTH_Li_STS_SCANNING i) then d
    else if linkDown then (d.calFail r i 0x0A 0).calSettle r.id
    else
      let alone := kind == 2 && r.targets.length == 1
      if !alone && d.txStep r && !r.excited.contains i then d
      else match d.calFull kind i t.win with
        | none => d
        | some full =>
          let ready := if !alone && d.txStep r then max full ((d.cal.excite.map fun e => d.feTime e.till).foldl max 0) else full
          if r.since + calLimit kind < max d.now ready then d
          else
            let d1 := d.advanceTo ready
            if alone then (d1.calFail r i 1 0).calSettle r.id
            else match d1.calSolve kind i t.win fig stat with
              | .discarded => if kind = 0 then d1 else d1.calUpd r.id i fun t => { t with win := d1.now }
              | .fails reason f => (d1.calFail r i reason f).calSettle r.id
              | .solves f sol => (d1.calSolved r i f sol).calSettle r.id
def execCalStatisticDone (kind : Fin 4) (target : Fin 112) (linkDown : Bool) (fig : Word) (stat : List Word) (s : State) : Res :=
  s.act fun d => d.calStat kind target linkDown fig.toNat (stat.map (·.toNat))

/-- CAL_TIME_LIMIT: the time limit of the run that has this target passes; targets still without a statistic fail. -/
def execCalTimeLimit (kind : Fin 4) (target : Fin 112) (s : State) : Res :=
  s.act fun d => match d.calFind kind target .gathering with
    | none => d
    | some (r, _) =>
      let d1 := d.advanceTo (r.since + calLimit kind)
      let tx := d.txStep r
      ((r.targets.filter (·.phase == .gathering)).foldl (fun d t =>
        d.calFail r t.idx (if tx && decide (r.targets.length ≠ 1) && !r.excited.contains t.idx then 2 else 1) 0) d1).calSettle r.id

/-- Step 6: the statistic is gathered once more; a figure worse by more than 1.0 dB arms the previous bank again. -/
def Dev.calVerify (d : Dev) (kind i fig : Nat) (stat : List Nat) : Dev :=
  match d.calFind kind i .verifying with
  | none => d
  | some (r, t) =>
    match d.calFull kind i t.win with
    | none => d
    | some full =>
      let d1 := d.advanceTo full
      let judge (f : Nat) : Dev :=
        if worseBy kind 4 f t.fig0 then
          ((if d1.flag (bkPending kind i) then d1 else d1.armNow kind i .sel).calFail r i 8 f).calFinish
        else (d1.calUpd r.id i fun t => { t with phase := .committed, fig := f }).calFinish
      match d1.calSolve kind i t.win fig stat with
      | .discarded => if kind = 0 then d1 else d1.calUpd r.id i fun t => { t with win := d1.now }
      | .fails _ f => judge f
      | .solves f _ => judge f
/-- CAL_VERIFY_DONE; `measured` is the window's figure and statistic. -/
def execCalVerifyDone (kind : Fin 4) (target : Fin 112) (measured : Word × List Word) (s : State) : Res :=
  s.act fun d => d.calVerify kind target measured.1.toNat (measured.2.map (·.toNat))

/-! ### CAL_STATUS, CAL_AUTO (R84, R291) -/

/-- CAL_STATUS; the figure, period and age of a target that has never committed, and everything about a target number the kind does not
have, are open. -/
def Dev.calStatus (d : Dev) (c : PqCmd) : Dev :=
  let kind := pp c 0
  let i := pp c 1
  d.checks c [(decide (3 < kind) || decide (128 ≤ i), badParam)] fun d =>
    let a := d.fresh 2
    let f := a.1.fresh (2 ^ 32)
    let p := f.1.fresh (2 ^ 16)
    let g := p.1.fresh (2 ^ 32)
    let bank := if i < calCount kind ∧ (kind < 3 ∨ isCrx i ∨ isEl i) then d.rf (bkActive kind i) else a.2
    match Tab.find d.cal.last (128 * kind + i) with
    | some (fig, per, t) => d.finR c [bank, fig, per, (d.now - t) / msT 1]
    | none => g.1.finR c [bank, f.2, p.2, g.2]
def execCalStatus (c : PqCmd) (s : State) : Res := s.pq 0x0402 c fun d => d.calStatus c

/-- CAL_AUTO. -/
def execCalAuto (c : PqCmd) (s : State) : Res :=
  s.pq 0x0403 c fun d =>
    let kind := pp c 0
    let i := pp c 1
    d.checks c [(decide (3 < kind), badParam)] fun d =>
      { d with cal.auto := Tab.setD (fun _ => 0) d.cal.auto kind i,
               cal.autoAt := if i = 0 then Tab.del d.cal.autoAt kind else Tab.put d.cal.autoAt kind (d.now + msT i) }.finR c
        [Tab.getD (fun _ => 0) d.cal.auto kind]

/-- A target of an automatic run. -/
def Dev.autoTakes (d : Dev) (kind i : Nat) : Bool :=
  d.calDomOn kind i && (kind != 3 || d.scanLane i) && !d.flag (bkPending kind i) && !d.flag (bkHeld kind i)

/-- CAL_AUTO_RUN: the interval of a kind expires. -/
def execCalAutoRun (kind : Fin 4) (s : State) : Res :=
  s.act fun d => match Tab.find d.cal.autoAt kind with
    | none => d
    | some t =>
      let d1 := d.advanceTo t
      let d2 : Dev := { d1 with cal.autoAt := Tab.put d1.cal.autoAt kind (t + msT (Tab.getD (fun _ => 0) d1.cal.auto kind)) }
      let ts := (upTo (calCount kind)).filter (d2.autoTakes kind)
      if ts.isEmpty then d2 else d2.calStart kind none 0 (ts.map fun i => (i, d2.calRefuse kind i none 0))

/-! ### Eye scans (R367) -/

/-- EYE_SCAN_COMPLETE: `pts` says which of the 96 points were open, then which of 32 thresholds at the centre of the widest opening (R300). -/
def execEyeScanComplete (lane : Fin 112) (pts : BitVec 128) (s : State) : Res :=
  s.act fun d => match d.zth.scans.find? (·.lane == lane.val) with
    | none => d
    | some x =>
      let r := d.scanEnd x pts
      match x.cmd with
      | some (q, tag) => r.1.complete q tag okS [r.2.1, r.2.2]
      | none => r.1

end Sys2Proof.Machine
end

