-- ==== Sys2Proof/Machine/Front.lean ====
section
/-! DEFINITION. Carrier checks (R229-R232, R252, R380). -/

namespace Sys2Proof.Machine

/-! ### Carrier checks (R43, R229-R232, R252, R380) -/

/-- What the checks read of a carrier. -/
structure CcSpec where
  cc : Nat
  std : Nat
  scs : Nat
  ecp : Bool
  tdd : Bool
  pat : Nat
  tl : Nat
  bw : Nat
  off : Int
  first : Nat
  count : Nat
  nrb : Nat
  rxevt : Nat
  deriving DecidableEq, Repr

/-- The placed direct carrier `c`, from its registers. -/
def Dev.ccSpec (d : Dev) (c : Nat) : CcSpec :=
  ⟨c, d.rf (DFE_CCc_CFG_STD c), 15 * 2 ^ d.rf (DFE_CCc_CFG_SCS c), d.flag (DFE_CCc_CFG_ECP c), d.flag (DFE_CCc_CFG_TDD c),
   d.rf (DFE_CCc_CFG_PAT c), d.rf (DFE_CCc_CFG_TIMELINE c), d.rf (DFE_CCc_BW c), toSigned 32 (d.reg (rDFE_CCc_OFFSET c)),
   d.rf (DFE_CCc_PORTS_FIRST c), d.rf (DFE_CCc_PORTS_COUNT c), d.rf (DFE_CCc_NRB c), d.rf (DFE_CCc_RXEVT c)⟩
/-- NRB of a command's carrier; the context of a GSM carrier holds the one value that its checks pass (R230, assumption log). -/
def CarrierPar.nrb (p : CarrierPar) : Nat := if p.std = 2 then 1 else nrbOf p.std p.scsKhz p.bwKhz
/-- A carrier as its command gives it: normal CP (a command carries none), its event register as it stands. -/
def Dev.parSpec (d : Dev) (c tl : Nat) (p : CarrierPar) : CcSpec :=
  ⟨c, p.std, p.scsKhz, false, p.duplex == 1, p.pattern, tl, p.bwKhz, p.offsetKhz, p.firstPort, p.portCount, p.nrb,
   if 128 ≤ p.firstPort then d.rf (ETH_CCc_RXEVT c) else d.rf (DFE_CCc_RXEVT c)⟩

/-- Chains of a group served at each RATE (R252). -/
def servedChains (rate : Nat) : Nat := match rate with | 0 => 16 | 1 => 12 | 2 => 8 | _ => 0

/-- The numerology check. -/
def numerologyOk (x : CcSpec) : Bool :=
  match x.std with
  | 0 => [(15, 50000), (30, 100000), (60, 200000), (120, 400000)].any (fun p => p.1 == x.scs && decide (x.bw ≤ p.2)) && (!x.ecp || x.scs == 60)
  | 1 => x.scs == 15 && [1400, 3000, 5000, 10000, 15000, 20000].contains x.bw && !x.ecp
  | 2 => x.bw == 200
  | _ => false
/-- The resource-block check. -/
def blocksOk (x : CcSpec) : Bool := decide (1 ≤ x.nrb) && decide (x.nrb ≤ 273) && decide (12 * x.nrb * x.scs ≤ x.bw)
/-- The ranges of chains, and the bands, of two carriers meet. -/
def chainsMeet (x y : CcSpec) : Bool := decide (x.first < y.first + y.count) && decide (y.first < x.first + x.count)
def bandsMeet (x y : CcSpec) : Bool := decide (2 * x.off - x.bw < 2 * y.off + y.bw) && decide (2 * y.off - y.bw < 2 * x.off + x.bw)

/-- The checks of R230, with R229 and R252, that fail for carrier `x` beside the carriers `others`: for each, the registers that take
part in it. -/
def Dev.ccFails (d : Dev) (x : CcSpec) (others : List CcSpec) : List (List Nat) :=
  let c := x.cc
  let f (bad : Bool) (l : List Nat) : List (List Nat) := if bad then [rDFE_CCc_CTL c :: l] else []
  let chains := (upTo (min 64 x.count)).map (x.first + ·)
  let unserved := chains.find? fun t => decide (servedChains (d.jRate (t / 16)) ≤ t % 16) || decide (servedChains (d.jRate (4 + t / 16)) ≤ t % 16)
  let overlap := others.filter fun y => chainsMeet x y && bandsMeet x y
  let inputs (t : Nat) : Nat := 1 + (others.filter fun y => decide (y.first ≤ t) && decide (t < y.first + y.count)).length +
    ((upTo 16).filter fun w => d.compChain w == some t).length
  let p := x.pat
  f (decide (400000 < 2 * x.off.natAbs + x.bw)) [rDFE_CCc_BW c, rDFE_CCc_OFFSET c] ++
  f (!numerologyOk x) [rDFE_CCc_CFG c, rDFE_CCc_BW c] ++
  f (!blocksOk x) [rDFE_CCc_NRB c, rDFE_CCc_CFG c, rDFE_CCc_BW c] ++
  f (x.count == 0 || decide (64 < x.first + x.count)) [rDFE_CCc_PORTS c] ++
  (match unserved with
   | some t => f true [rDFE_CCc_PORTS c, jReg (t / 16) 1, jReg (4 + t / 16) 1]
   | none => []) ++
  overlap.flatMap (fun y => f true ([rDFE_CCc_BW c, rDFE_CCc_OFFSET c, rDFE_CCc_PORTS c, rDFE_CCc_CTL y.cc, rDFE_CCc_BW y.cc, rDFE_CCc_OFFSET y.cc,
    rDFE_CCc_PORTS y.cc])) ++
  f (chains.any fun t => decide (8 < inputs t)) (rDFE_CCc_PORTS c :: (others.flatMap fun y => [rDFE_CCc_CTL y.cc, rDFE_CCc_PORTS y.cc]) ++
    ((upTo 256).flatMap fun n => [rNBB_CHn_CTL n, rNBB_CHn_MOD n]) ++ (upTo 16).map rDFE_NBW_w_CHAIN) ++
  f (x.tdd && (d.rf (DFE_TDDn_CFG_LEN p) == 0 || decide (40 < d.rf (DFE_TDDn_CFG_LEN p)) || d.rf (DFE_TDDn_CFG_TIMELINE p) != x.tl ||
      15 * 2 ^ d.rf (DFE_TDDn_CFG_SCS p) != x.scs || d.flag (DFE_TDDn_CFG_ECP p) != x.ecp)) [rDFE_CCc_CFG c, rDFE_TDDn_CFG p] ++
  f (decide (0xBFF < x.rxevt + 13)) [rDFE_CCc_RXEVT c]

/-- Placed direct carriers but `c`. -/
def Dev.ccOthers (d : Dev) (c : Nat) : List CcSpec := ((upTo 256).filter fun o => o != c && d.ccOn o).map d.ccSpec

/-! ### Remote carriers (R380) -/

/-- The remote carrier `c`, from its registers; `first` is its first stream. -/
def Dev.ethSpec (d : Dev) (c : Nat) : CcSpec :=
  ⟨c, d.rf (ETH_CCc_CFG_STD c), 15 * 2 ^ d.rf (ETH_CCc_CFG_SCS c), d.flag (ETH_CCc_CFG_ECP c), d.flag (ETH_CCc_CFG_TDD c),
   d.rf (ETH_CCc_CFG_PAT c), d.rf (ETH_CCc_CFG_TIMELINE c), 0, 0, d.rf (ETH_CCc_PORTS_FIRST c), d.rf (ETH_CCc_PORTS_COUNT c),
   d.rf (ETH_CCc_NRB c), d.rf (ETH_CCc_RXEVT c)⟩

end Sys2Proof.Machine
end

