-- ==== Sys2Proof/Machine/Chains.lean ====
section
/-! DEFINITION. The chains of the front end at work, sample by sample: front-end time, what is combined into a TX chain and leaves it through
CFR and DPD, what enters an RX chain (R226, R227, R233-R238, R244, R261, R264, R295). -/

namespace Sys2Proof.Machine

/-! ### Front-end time (R226, R227) -/

/-- The tick, and the TX sample, nearest front-end time `t`, counted from the SYSREF edge. -/
def Dev.tickAt (d : Dev) (t : Nat) : Nat := ((t - d.stampT) * 1536 + 3125 * 2 ^ 31) / (3125 * 2 ^ 32)
def Dev.txAt (d : Dev) (t : Nat) : Nat := ((t - d.stampT) * 3072 + 3125 * 2 ^ 31) / (3125 * 2 ^ 32)

/-! ### Narrowband packets on their way (R264, R265) -/

/-- How channel `n` modulates by its registers; where a GSM carrier's transmit channel goes, the carrier's registers say. -/
def Dev.nbModOf (d : Dev) (n : Nat) : NbMod :=
  let c := d.nbCc n
  ⟨d.rf (NBB_CHn_MOD_MOD n), d.rf (NBB_CHn_RATE_RATE3 n), d.rf (NBB_CHn_SHAPE_BT n), d.rf (NBB_CHn_SHAPE_H n),
   toSigned 32 (d.reg (rNBB_CHn_OFFSET n)), d.rf (NBB_CHn_TX_AMP n),
   if d.nbCarrier n then some ⟨c, d.rf (DFE_CCc_PORTS_FIRST c), if d.ccOn c then d.rf (DFE_CCc_PORTS_COUNT c) else 0,
     1000 * toSigned 32 (d.reg (rDFE_CCc_OFFSET c)), d.rf (DFE_CCc_GAIN c)⟩ else none⟩
def Dev.nbHeld (d : Dev) (n : Nat) : List NbPkt := Tab.getD (fun _ => []) d.nbb.held n

/-- GSM's differential encoding (R279): each bit against the one before it, the first against a 1. -/
def diffEncode : Bool → List Bool → List Bool
  | _, [] => []
  | prev, b :: t => (b == prev) :: diffEncode b t
/-- The symbols of a packet. -/
def NbPkt.symbols (p : NbPkt) (m : NbMod) (gsm : Bool) : List Int :=
  let bits := ((p.data.flatMap fun b => bitsMsb 8 b.toNat).take p.bits)
  gfskSymbols m.modu (if gsm then diffEncode true bits else bits)
/-- How a packet of channel `n` is modulated: as it was when it went on the air, before that as the channel modulates now (R280). -/
def Dev.pktMod (d : Dev) (n : Nat) (p : NbPkt) : NbMod := p.onAir.getD (d.nbModOf n)
/-- What packet `p` of channel `n` puts out at front-end time `t`, in 2^-20. -/
def Dev.pktAt (d : Dev) (n : Nat) (p : NbPkt) (t : Nat) : Smp :=
  let m := d.pktMod n p
  if t < p.rise m ∨ p.gone m < t then (0, 0)
  else
    let since (x : Nat) : Int := ((x : Int) - (p.t : Nat)) * (m.rate3 * 2 ^ 20 : Nat) / (3 * nsT 1000000000 : Nat)
    gfskAt m (p.symbols m m.feed.isSome) (since (p.fall m)) (since t)
/-- What channel `n` puts out to its window's composite, or to a carrier's chains. -/
def Dev.chanAt (d : Dev) (n : Nat) (feed : Option NbFeed) (t : Nat) : Smp :=
  Smp.sum (((d.nbHeld n).filter fun p => (d.pktMod n p).feed == feed).map fun p => d.pktAt n p t)
/-- Front-end time of 1.92 Msps sample `i`. -/
def Dev.nbT (d : Dev) (i : Nat) : Nat := d.stampT + i * 3125 * 2 ^ 32 / 6
/-- Sample `i` of composite `w`, and whether it saturated (R264). -/
def Dev.compAt (d : Dev) (w i : Nat) : Smp × Bool :=
  satSmp (2 ^ 20) (Smp.sum ((upTo 16).map fun j => d.chanAt (16 * w + j) none (d.nbT i)))
/-- A 1.92 Msps stream `f`, in 2^-20, at TX sample `i`, shifted by `hz` (R236). -/
def upSampled (f : Nat → Smp) (hz : Int) (i : Nat) : Smp :=
  turned 983040000 (hz * i) (interp 512 ((upTo 17).map fun j => f (i / 512 + j - 8)) (8 * 512 + i % 512))

/-- Composites with packets add to their saturation counters up to front-end time `t`. -/
def Dev.compDrain (d : Dev) (w t : Nat) : Dev :=
  let upto := (t - d.stampT) * 6 / (3125 * 2 ^ 32)
  if (upTo 16).all fun j => (d.nbHeld (16 * w + j)).isEmpty then { d with nbb.compDone := Tab.del d.nbb.compDone w }
  else
    let from_ := Tab.getD (fun _ => upto) d.nbb.compDone w
    let sats := ((upTo (upto - from_)).filter fun j => (d.compAt w (from_ + j)).2).length
    { d.bumpBy (NBB_COMP_w_SAT w) sats with nbb.compDone := Tab.put d.nbb.compDone w upto }

/-! ### TX chains (R233, R236-R238) -/

/-- An idle chain. -/
def TxChan.idle : TxChan := ⟨[], [], 0, []⟩
def Dev.txChan (d : Dev) (t : Nat) : TxChan := Tab.getD (fun _ => TxChan.idle) d.dfe.tx t
def Dev.setTx (d : Dev) (t : Nat) (x : TxChan) : Dev := { d with dfe.tx := Tab.setD (fun _ => TxChan.idle) d.dfe.tx t x }

/-- What a carrier's symbol adds to the combiner at TX sample `i`. -/
def TxIn.at (x : TxIn) (i : Nat) : Smp :=
  if i < x.start ∨ x.start + x.ratio * x.base.length ≤ i then (0, 0)
  else
    let s := turned 983040000 (x.hz * i) (interp x.ratio x.base (i - x.start))
    (roundDiv (s.1 * x.gain) 2048, roundDiv (s.2 * x.gain) 2048)

/-- Carrier context `c` of configuration `e` places a carrier on chain `t`. -/
def Dev.ccHas (e : Dev) (c t : Nat) : Bool :=
  e.ccOn c && decide (e.rf (DFE_CCc_PORTS_FIRST c) ≤ t) && decide (t < e.rf (DFE_CCc_PORTS_FIRST c) + e.rf (DFE_CCc_PORTS_COUNT c))
/-- Offset of carrier `c` in Hz. -/
def Dev.ccHz (e : Dev) (c : Nat) : Int := 1000 * toSigned 32 (e.reg (rDFE_CCc_OFFSET c))
/-- Offset of window `w` in Hz. -/
def Dev.winHz (e : Dev) (w : Nat) : Int := toSigned 32 (e.reg (rDFE_NBW_w_FREQ w))

/-- Composite `w` enters chain `t`: while a channel of its window has an enabled transmit role, and while a packet cut off falls (R261, R265). -/
def Dev.compEnters (d e : Dev) (w t : Nat) : Bool :=
  e.compChain w == some t || (16 * (w / 4) + e.rf (DFE_NBW_w_CHAIN w) == t && (upTo 16).any fun j => (d.nbHeld (16 * w + j)).any fun p => p.cut.isSome)
/-- The narrowband inputs of chain `t` at TX sample `i`: its composites, and the transmit channels of its GSM carriers (R236, R277). -/
def Dev.nbInputs (d e : Dev) (t i : Nat) : List Smp :=
  (((upTo 16).filter fun w => d.compEnters e w t).map fun w => upSampled (fun j => Smp.scale (2 ^ 20) (d.compAt w j).1) (e.winHz w) i) ++
  d.nbb.held.flatMap fun h => ((h.2.filterMap fun p => (d.pktMod h.1 p).feed).eraseDups.filter fun f => decide (f.first ≤ t) && decide (t < f.first + f.count)).map fun f =>
    let s := upSampled (fun j => d.chanAt h.1 (some f) (d.nbT j)) f.hz i
    (roundDiv (s.1 * f.gain) 2048, roundDiv (s.2 * f.gain) 2048)
/-- The two words of the bank of an IQ (1) or alignment (2) control that acts on air time `t` (R228): the active one, unless its switch acted
later than `t`, or one is armed that will act no later. -/
def Dev.bankFor (d : Dev) (kind i t : Nat) : Nat × Nat :=
  let b := d.rf (bkActive kind i)
  if d.cal.arms.any fun a => a.kind == kind && a.target == i && a.k != 0 && decide (d.boundaryT a.tl a.k ≤ t) then d.bankWords kind i (1 - b)
  else match Tab.find d.cal.swOld (128 * kind + i) with
    | some (at_, old) => if t < at_ then old else d.bankWords kind i b
    | none => d.bankWords kind i b
/-- The transmit weight of chain `t` at TX sample `i` (R228, R302). -/
def Dev.txWeight (d e : Dev) (t i : Nat) : Smp :=
  if e.flag (DFE_ALN_c_CTL_BYPASS t) then (16384, 0) else halves (d.bankFor 2 t (d.stampT + txT i)).2
/-- The combined sample `i` of chain `t` (R233); the chains of a STANDBY send zeros (R487). -/
def Dev.combineAt (d e : Dev) (t : Nat) (ins : List TxIn) (i : Nat) : Smp :=
  if d.rf MGT_TWIN_STS_ROLE = 2 then (0, 0) else txWeigh (d.txWeight e t i) (satSmp (2 ^ 20) (Smp.sum ((ins.map fun x => x.at i) ++ d.nbInputs e t i))).1

/-- The bands CFR shapes its pulses by: those of the chain's carriers, then of its composites, each with its weight (R237). -/
def Dev.cfrBands (e : Dev) (t : Nat) : List (Int × Nat × Nat) :=
  let ws := e.reg (rDFE_TX_t_CFR_WEIGHT t) + 2 ^ 16 * e.reg (rDFE_TX_t_CFR_WEIGHT_HI t)
  let bands := (((upTo 256).filter fun c => e.ccHas c t).map fun c => (e.ccHz c, 1000 * e.rf (DFE_CCc_BW c))) ++
    (((upTo 16).filter fun w => e.compChain w == some t).map fun w => (e.winHz w, 1500000))
  (bands.zip (upTo bands.length)).map fun b => (b.1.1, b.1.2, bitsAt ws (4 * b.2) 4)
/-- How far CFR looks ahead and back: three passes. -/
abbrev cfrReach : Nat := 3 * cfrHalf
/-- The first TX sample that a capture queued on chain `t`, or an excitation of it, needs. -/
def Dev.captured (d : Dev) (t upto : Nat) : Nat :=
  let m := (Tab.getD (fun _ => []) d.dfe.caps (t / 8)).foldl (fun m (x : OrxCap) => if x.chain = t then min m (d.txAt x.start) else m) (upto - 8)
  d.cal.excite.foldl (fun m x => if x.chain = t ∧ upto ≤ d.txAt x.till then min m (x.src - 4096) else m) m
/-- 10^(-b/20) in 2^-60. -/
def backoff (b : Nat) : Int := expNeg ((lnTen * ((b % 20 : Nat) : Rat) / 20 * ((2 ^ 60 : Nat) : Rat)).floor) / 10 ^ (b / 20)
/-- What an excitation makes chain `t` send at TX sample `i` (R299): its samples once more, attenuated and weighted; every other chain sends zeros. -/
def Dev.resent (d e : Dev) (t i : Nat) (hist : Tab (Smp × Smp)) : Option Smp :=
  (d.cal.excite.find? fun x => decide (d.txAt x.since ≤ i) && decide (i < d.txAt x.since + 4096)).map fun x =>
    if x.chain = t then
      let s := (Tab.getD (fun _ => ((0, 0), (0, 0))) hist (x.src + i - 4096 - d.txAt x.since)).1
      (satSmp (2 ^ 74) (Smp.scale (backoff (e.rf DFE_ALN_CFG_BACKOFF)) (Smp.mul s (d.txWeight e t i)))).1
    else (0, 0)
/-- One sample through CFR and DPD; an excitation's passes DPD unchanged. The counts so far are of clipped and of saturated samples. -/
def Dev.txOne (e : Dev) (t : Nat) (bands : List (Int × Nat × Nat)) (terms : List DpdTerm) (comb : Tab Smp) (resent : Nat → Tab (Smp × Smp) → Option Smp)
    (acc : Tab (Smp × Smp) × Nat × Nat) (i : Nat) : Tab (Smp × Smp) × Nat × Nat :=
  match resent i acc.1 with
  | some s => (Tab.setD (fun _ => ((0, 0), (0, 0))) acc.1 i (s, s), acc.2.1, acc.2.2)
  | none =>
    let zero : Nat → Smp × Smp := fun _ => ((0, 0), (0, 0))
    let x := cfrAt bands (e.rf (DFE_TX_t_CFR_THRESH t)) (e.rf (DFE_TX_t_CFR_PASSES t)) (fun k => Tab.getD (fun _ => (0, 0)) comb ((i : Int) + k).toNat) 0
    let y := if e.flag (DFE_TX_t_DPD_BYPASS t) then (x.1, false)
      else dpdOut terms fun age => if age = 0 then x.1 else (Tab.getD zero acc.1 (i - age)).1
    (Tab.setD zero acc.1 i (x.1, y.1), acc.2.1 + b2n x.2, acc.2.2 + b2n y.2)
/-- The air period of chain `t` at TX sample `i`, and its configuration, which is `e` in period `k`. -/
def Dev.confAt (d e : Dev) (k t i : Nat) : Dev :=
  let n := d.rf (DFE_TX_t_DPD_TIMELINE t)
  let ki := d.gridIndex n (d.stampT + txT i)
  if ki = k then e else d.asOf n ki
/-- Chain `t` runs on to TX sample `upto` under configuration `e`; what is combined ahead of CFR takes that of its own air period. -/
def Dev.txRun (d e : Dev) (t upto : Nat) (x : TxChan) : Dev :=
  let n := upto - x.done
  let k := d.gridIndex (d.rf (DFE_TX_t_DPD_TIMELINE t)) (d.stampT + txT x.done)
  let comb := (upTo n).foldl (fun c j =>
    let i := x.done + cfrReach + j
    Tab.setD (fun _ => (0, 0)) c i (d.combineAt (d.confAt e k t i) t x.ins i)) x.comb
  let terms := d.dpdTerms t (d.rf (DFE_TX_t_DPD_ACTIVE t))
  let r := (upTo n).foldl (fun a j => e.txOne t (e.cfrBands t) terms comb (d.resent e t) a (x.done + j)) (x.hist, 0, 0)
  let keep := d.captured t upto
  ((d.setTx t ⟨x.ins.filter fun y => decide (upto + cfrReach < y.start + y.ratio * y.base.length), comb.filter fun c => decide (upto ≤ c.1 + cfrReach),
    upto, r.1.filter fun h => decide (keep ≤ h.1)⟩).bumpBy (DFE_TX_t_CLIP t) r.2.1).bumpBy (DFE_TX_t_DPDSAT t) r.2.2

/-- The air period of chain `t` at front-end time `at_`, and its configuration. -/
def Dev.txConf (d : Dev) (t at_ : Nat) : Dev :=
  let n := d.rf (DFE_TX_t_DPD_TIMELINE t)
  d.asOf n (d.gridIndex n at_)
/-- Packets are held for a narrowband input of some chain. -/
def Dev.nbBusy (d : Dev) : Bool := !d.nbb.held.isEmpty
/-- Chain `t` runs on to front-end time `at_`; a chain with nothing to send passes zeros, and one that has just got something begins there. -/
def Dev.txDrain (d : Dev) (t at_ : Nat) : Dev :=
  let x := d.txChan t
  let upto := d.txAt at_
  if x.ins.isEmpty && x.comb.isEmpty && x.hist.isEmpty && !d.nbBusy then { d with dfe.tx := Tab.del d.dfe.tx t }
  else if x.done = 0 then d.setTx t { x with done := upto }
  else if upto ≤ x.done then d
  else d.txRun (d.txConf t (d.stampT + txT x.done)) t upto x
/-- Every chain and composite runs on to the present. -/
def Dev.txDrainAll (d : Dev) : Dev :=
  if d.dfe.epoch.isNone || (d.dfe.tx.isEmpty && !d.nbBusy) then d
  else
    let t := d.feNow
    (upTo 16).foldl (fun d w => d.compDrain w t) ((upTo 64).foldl (fun d c => d.txDrain c t) d)

/-! ### RX chains (R244, R255, R295) -/

/-- Links of a unit, and chains per link, at its RATE (R252). -/
def unitLinks (u rate : Nat) : Nat := if u < 4 then nth 0 [4, 12, 4] rate else if u < 8 then nth 0 [2, 6, 2] rate else 1
def linkChains (u rate : Nat) : Nat := if u < 4 then nth 0 [4, 1, 2] rate else if u < 8 then nth 0 [8, 2, 4] rate else 4
/-- Lanes per link (R252). -/
def linkLanes (rate : Nat) : Nat := if rate = 1 then 1 else 3
/-- The data of link `i` of unit `u` counts at front-end time `t`. -/
def Dev.linkLive (d : Dev) (u i t : Nat) : Bool :=
  (Tab.getD (fun _ => []) d.dfe.spans (linkKey u i)).any fun s => decide (s.1 ≤ t) && s.2.all fun e => decide (t < e)
/-- The link's data counts from `t` on. -/
def Dev.linkFrom (d : Dev) (u i t : Nat) : Dev :=
  { d with dfe.spans := Tab.put d.dfe.spans (linkKey u i) ((t, none) :: (Tab.getD (fun _ => []) d.dfe.spans (linkKey u i)).take 3) }
/-- Unit and link of RX chain `r`, and whether its data counts at `t`. -/
def Dev.rxLink (d : Dev) (r : Nat) : Nat × Nat :=
  let u := 4 + r / 16
  (u, r % 16 / max 1 (linkChains u (d.jRate u)))
def Dev.rxLive (d : Dev) (r t : Nat) : Bool := d.linkLive (d.rxLink r).1 (d.rxLink r).2 t
/-- The data of RX chain `r` counts throughout, from front-end time `a` to `b`: its link did not go down in between (R255). -/
def Dev.rxThrough (d : Dev) (r a b : Nat) : Bool :=
  (Tab.getD (fun _ => []) d.dfe.spans (linkKey (d.rxLink r).1 (d.rxLink r).2)).any fun s => decide (s.1 ≤ a) && s.2.all fun e => decide (b < e)
/-- The sample `s` of RX chain `r` of air time `t`, corrected (R295). -/
def Dev.rxCorrect (d : Dev) (r t : Nat) (s : Smp) : Smp :=
  let iq := d.bankFor 1 r t
  let n (f : Nat → Fld) : Dev := d.asOf (d.rf (f r)) (d.gridIndex (d.rf (f r)) t)
  let off := (n DFE_IQC_r_CTL_TIMELINE).flag (DFE_IQC_r_CTL_BYPASS r)
  let w := if (n DFE_ALN_c_CTL_TIMELINE).flag (DFE_ALN_c_CTL_BYPASS r) then (16384, 0) else halves (d.bankFor 2 r t).1
  iqCorrect (if off then (0, 0) else halves iq.1) (if off then (0, 0) else halves iq.2) w s

/-! ### What a narrowband receiver listens to (R248, R261, R277) -/

/-- The place of channel `n` among the channels of its GSM carrier: firmware takes them highest first, for the carrier's chains in their order
(assumption log). -/
def Dev.gsmIndex (d : Dev) (n : Nat) : Nat :=
  ((upTo 256).filter fun m => decide (n < m) && d.nbCarrier m && d.nbCc m == d.nbCc n).length
/-- The RX chain a channel's source comes from, and the centre of the source in Hz: its window's, while it is enabled, or its carrier's. -/
def Dev.nbSource (d : Dev) (n : Nat) : Option (Nat × Int) :=
  if d.nbCarrier n then
    let c := d.nbCc n
    let e := d.asOf (d.rf (DFE_CCc_CFG_TIMELINE c)) (d.gridIndex (d.rf (DFE_CCc_CFG_TIMELINE c)) d.feNow)
    if e.ccOn c then some (e.rf (DFE_CCc_PORTS_FIRST c) + d.gsmIndex n, e.ccHz c) else none
  else if d.flag (DFE_NBW_w_CTL_ENABLE (n / 16)) then some (16 * (n / 64) + d.rf (DFE_NBW_w_CHAIN (n / 16)), d.winHz (n / 16))
  else none
/-- Ticks of `c` symbols of channel `n`, in whole 1.92 Msps samples. -/
def Dev.nbTicks (d : Dev) (n c : Nat) : Nat := 256 * ceilDiv (c * 3 * 1920000) (max 1 (d.rf (NBB_CHn_RATE_RATE3 n)))
/-- How many symbols back a receiver still looks: as far as its pulse reaches; on a GSM carrier, over a burst. -/
def Dev.nbBack (d : Dev) (n : Nat) : Nat := if d.nbCarrier n then 168 else 4
/-- Ticks of chain `r` the narrowband receivers that listen to it still need. -/
def Dev.nbNeeds (d : Dev) (r : Nat) : Nat :=
  d.nbb.chans.foldl (fun m x => match d.nbSource x.1 with
    | some (q, _) => if q = r then max m (d.nbTicks x.1 (d.nbBack x.1)) else m
    | none => m) 0

/-- RX chain `r` takes its samples up to tick `upto`, `ins` among them in order; samples a down link did not bring are zeros. A sample at a limit
counts once. TD_CAPTURE keeps them as they came (R496). What is older than tick `keep` is forgotten; a chain that was idle begins at `first`. -/
def Dev.rxTake (d : Dev) (r first upto keep : Nat) (ins : List (BitVec 24)) : Dev :=
  let x := (Tab.find d.dfe.rx r).getD ⟨first, []⟩
  let raw := (upTo (upto - x.upto)).map fun j =>
    let t := d.stampT + tickT (x.upto + j)
    let live := d.rxLive r t
    (t, live, if live then unpackSmp (nth 0 ins j).toNat else (0, 0))
  let lim (s : Smp) : Bool := [s.1, s.2].any fun v => v == -2048 || v == 2047
  let sats := (raw.filter fun s => s.2.1 && lim s.2.2).length
  let win := x.win ++ raw.map fun s => d.rxCorrect r (s.1 - tickT (d.rf DFE_RX_DELAY)) s.2.2
  let last := max upto x.upto
  let f := d.marrow.cfg
  let seen := if bitAt f.mask 1 && decide (f.first ≤ 64 + r) && decide (64 + r < f.first + f.count) && !raw.isEmpty then
      (d.bumpBy (DFE_RX_r_SAT r) sats).capture 9 d.marrow.tl (d.recK % 65536) (raw.flatMap fun s => packSmp s.2.2)
    else d.bumpBy (DFE_RX_r_SAT r) sats
  { seen with dfe.rx := Tab.put d.dfe.rx r ⟨last, win.drop (win.length - (last - keep))⟩ }
/-- The corrected samples of ticks `a` to `b`. -/
def Dev.rxWin (d : Dev) (r a b : Nat) : List Smp :=
  let x := (Tab.find d.dfe.rx r).getD ⟨0, []⟩
  (upTo (b - a)).map fun j => if a + j + x.win.length < x.upto then (0, 0) else nth (0, 0) x.win (a + j + x.win.length - x.upto)

end Sys2Proof.Machine
end

