-- ==== Sys2Proof/Machine/Dfe.lean ====
section
/-! DEFINITION. The front end at work: placing direct carriers, symbols, PRACH, observation captures, control lines, and converter
links (R226, R232-R258). What a converter delivers and when a link locks reach the device with the event. -/

namespace Sys2Proof.Machine

/-! ### Writes of one enable (R232, R254, R380) -/

/-- A write to a register whose ENABLE `f` may refuse to rise: `bad` judges the state the write leaves. A refused rise is discarded
with IGNORED_WRITE. The Bool says ENABLE changed. -/
def Dev.enableWr (d : Dev) (init : Initiator) (off value : Nat) (f : Fld) (bad : Dev → Bool) : Dev × Bool :=
  let r := d.busWr init off value
  match r.2 with
  | .no => (r.1, false)
  | .yes _ =>
    if d.flag f == r.1.flag f then (r.1, false)
    else if r.1.flag f && bad r.1 then ((r.1.setFlag f false).regErr .ignored off init, false)
    else (r.1, true)

/-- DFE_CARRIER_ENABLE: a direct carrier is placed if R230 and R380 let it. -/
def Dev.dfeCtlWr (d : Dev) (init : Initiator) (c value : Nat) : Dev :=
  (d.enableWr init (rDFE_CCc_CTL c) value (DFE_CCc_CTL_ENABLE c)
    fun e => e.ethCcOn c || !(e.ccFails (e.ccSpec c) (e.ccOthers c)).isEmpty).1
def execDfeCarrierEnable (init : Initiator) (c : Fin 256) (value : Word) (s : State) : Res :=
  s.act fun d => d.dfeCtlWr init c value.toNat

/-! ### Symbols of direct carriers (R227, R233-R237, R244-R246) -/

/-- Boundary index of the air period number `air` nearest the reference boundary of timeline `n`. -/
def Dev.airK (d : Dev) (n air : Nat) : Nat :=
  let k := d.refK n
  let a := ahead k air
  if a ≤ 32767 then k + a else k + a - 65536

/-- Where a carrier's symbol `l` of its slot at boundary `k` stands: it is on timeline `n`, of numerology `mu`. -/
structure SymAt where
  n : Nat
  mu : Nat
  ecp : Bool
  k : Nat
  l : Nat
  deriving DecidableEq, Repr

/-- A symbol of direct carrier `c` in air period number `air`; of remote carrier `c`. -/
def Dev.ccSym (d : Dev) (c air l : Nat) : SymAt :=
  let n := d.rf (DFE_CCc_CFG_TIMELINE c)
  ⟨n, d.rf (DFE_CCc_CFG_SCS c), d.flag (DFE_CCc_CFG_ECP c), d.airK n air, l⟩
def Dev.symAir (d : Dev) (x : SymAt) : Nat := d.airTime x.n x.mu x.ecp x.k x.l
def Dev.symEnd (d : Dev) (x : SymAt) : Nat := d.symAir x + txT (symSamples x.mu x.ecp (d.slotIndex x.n x.mu x.k) x.l)
/-- The symbol exists: its slot starts at the boundary, on an enabled timeline, and has that many symbols. -/
def Dev.symOk (d : Dev) (x : SymAt) : Bool :=
  d.flag (TMU_TLn_CTL_ENABLE x.n) && d.slotK x.n x.mu x.k == x.k && decide (x.l < if x.ecp then 12 else 14)
/-- The pattern gives the symbol this code; a carrier without a pattern sends and receives always. -/
def Dev.symIs (d : Dev) (x : SymAt) (tdd : Bool) (pat code : Nat) : Bool :=
  !tdd || d.patCode pat (d.gridIndex x.n (d.symAir x)) x.l == code

/-- The ready word of symbol `l` for air period number `air` (R234). -/
def readyOk (b : Option (List Byte)) (air l : Nat) : Bool :=
  match b with
  | some w => leAt w 0 2 == air && leAt w 2 1 == l && leAt w 3 1 == 1
  | none => false

/-- The bytes a read brought; what one that failed would have brought is open. -/
def Dev.orFree (d : Dev) (len : Nat) (b : Option (List Byte)) : Dev × List Byte :=
  match b with
  | some l => (d, l)
  | none => ({ d with free := d.free + 1 }, (upTo len).map fun j => BitVec.ofNat 8 (Config.freeAt d.free j))

/-- The phase term of a symbol of an NR carrier, in turns of 983,040: f0 over the time from the subframe's start to the end of its cyclic prefix
(R233, TS 38.211 clause 5.4). -/
def Dev.phaseTurn (e : Dev) (c : Nat) (x : SymAt) : Int :=
  let sub := e.slotIndex x.n x.mu x.k
  let before := (sumNat ((upTo sub).map fun s => symStart x.mu x.ecp s (if x.ecp then 12 else 14))) + symStart x.mu x.ecp sub x.l
  let cp := symSamples x.mu x.ecp sub x.l - 65536 / 2 ^ x.mu
  ((before + cp : Nat) : Int) * -toSigned 32 (e.reg (rDFE_CCc_FREF c))

/-- A fetched symbol on its way: for each chain of the carrier whose links carry live data, its subcarriers through the IFFT, cyclic prefix and
phase term into the combiner; a saturated IFFT output counts once. The recorder keeps a CRC-32 of each symbol-port (R496). -/
def Dev.txSend (d e : Dev) (c air slot : Nat) (x : SymAt) : Dev :=
  let first := e.rf (DFE_CCc_PORTS_FIRST c)
  let count := e.rf (DFE_CCc_PORTS_COUNT c)
  let nrb := e.rf (DFE_CCc_NRB c)
  let khz := 15 * 2 ^ x.mu
  let ratio := txRatio nrb khz
  let cp := (symSamples x.mu x.ecp (e.slotIndex x.n x.mu x.k) x.l - 65536 / 2 ^ x.mu) / ratio
  let turn := if e.rf (DFE_CCc_CFG_STD c) = 0 then e.phaseTurn c x else 0
  let port (acc : Dev × Bool) (p : Nat) : Dev × Bool :=
    let t := first + p
    let r := acc.1.busRead 12 (slot + 64 + (x.l * count + p) * 36 * nrb) (36 * nrb)
    let b0 := r.1.orFree (36 * nrb) r.2
    let b := (b0.1.recAdd 7 x.n air (some (digestBody b0.2 0xFFFF)), b0.2)
    let y := symbolOut (e.rf (DFE_CCc_CFG_STD c) == 1) (fftLog nrb) cp (samplesOf (12 * nrb) b.2)
    let base := y.1.map fun s => turned 983040 turn (Smp.scale (2 ^ 20) s)
    let z := b.1.txChan t
    let live := (Tab.find b.1.dfe.lemc (t / 16)).isSome && b.1.domRun (36 + t / 16)
    (if live then b.1.setTx t { z with ins := z.ins ++ [⟨c, b.1.txAt (e.symAir x), ratio, e.ccHz c, e.rf (DFE_CCc_GAIN c), base⟩],
                                       done := max 1 (max z.done (b.1.txAt b.1.feNow)) } else b.1, acc.2 || y.2)
  let r := (upTo count).foldl port (d, false)
  if r.2 then r.1.bump (DFE_CCc_TXSAT c) else r.1

/-- Where a TX input lies: so far into the central buffer, or into DDR5 (R234). -/
def txInput (central : Bool) (off : Nat) : Nat := if central then cbufBase + off else off
/-- TX_SYMBOL_FETCH: the ready word of a symbol is judged at its fetch instant, by the configuration of its air period (R228); `slot` is the
carrier's TX input, bound to timeline `tl` (R49); a slot bound to another is no input of the carrier. Without a SYSREF stamp there is no tick to fetch at (R254). -/
def Dev.txFetch (d : Dev) (c l air tl slot : Nat) : Dev :=
  let n := d.rf (DFE_CCc_CFG_TIMELINE c)
  let e := d.asOf n (d.airK n air)
  let x := e.ccSym c air l
  let first := e.rf (DFE_CCc_PORTS_FIRST c)
  if d.dfe.epoch.isNone || n != tl || !e.ccOn c || decide (2 ≤ e.rf (DFE_CCc_CFG_STD c)) || !e.symOk x ||
      !e.symIs x (e.flag (DFE_CCc_CFG_TDD c)) (e.rf (DFE_CCc_CFG_PAT c)) 1 ||
      !(upTo (e.rf (DFE_CCc_PORTS_COUNT c))).any (fun p => d.domRun (36 + (first + p) / 16)) then d
  else
    let d1 := (d.advanceTo (d.feTime (e.symAir x - (tickT (d.rf DFE_TX_ADV) + usT 6)))).txDrainAll
    let r := d1.busRead 12 (slot + 4 * l) 4
    if readyOk r.2 air l then r.1.txSend e c air slot x
    else if e.rf (DFE_CCc_GAIN c) = 0 then r.1 else r.1.bump (DFE_CCc_ZERO_SYM c)
def execTxSymbolFetch (c : Fin 256) (l : Fin 14) (air : BitVec 16) (tl : Fin 4) (central : Bool) (off : BitVec 40) (s : State) : Res :=
  s.act fun d => d.txFetch c l air.toNat tl (txInput central off.toNat)

/-- The exponent of carrier `c`, port `p`, for air period `k`, and the largest magnitude so far in that period, as a numerator over `partDen` at
exponent 0, plus one (R246); `e` is the period's configuration. In AUTO, a period that measured one sets the largest EXP at which it stays
below 2^(11 - HEADROOM); the first EXP of a carrier in AUTO is open. -/
def Dev.agcExp (d e : Dev) (c p k b : Nat) : Dev × Nat × Nat :=
  if e.rf (DFE_CCc_AGC_MODE c) = 0 then (d, e.rf (DFE_CCc_AGC_EXP c), 0)
  else match Tab.find d.dfe.exps (64 * c + p) with
  | none => let f := d.fresh 13; (f.1, f.2, 0)
  | some (k0, x, m) =>
    if k0 = k then (d, x, m)
    else if m = 0 then (d, x, 0)
    else
      let lim := 2 ^ (11 - e.rf (DFE_CCc_AGC_HEADROOM c)) * partDen b
      (d, ((upTo 13).filter fun y => decide ((m - 1) * 2 ^ y < lim)).foldl max 0, 0)

/-- An instant `n` ticks, of either sign, after `t`. -/
def afterTicks (t : Nat) (n : Int) : Nat := if 0 ≤ n then t + tickT n.toNat else t - tickT (-n).toNat
/-- By how many ticks what carrier `c` receives enters the transport layer after its air time (R227). -/
def Dev.rxLate (d e : Dev) (c : Nat) : Int := d.rf DFE_RX_DELAY - toSigned 32 (e.reg (rDFE_CCc_RXOFS c))
/-- Entry into the transport layer of what is received at air time `t` by carrier `c` (R227). -/
def Dev.rxEntry (d e : Dev) (c t : Nat) : Nat := afterTicks t (d.rxLate e c)
/-- Ticks of the longest symbol, of 15 kHz, twice over: what any carrier of a chain may still need of it (R244). -/
abbrev rxSpan : Nat := 2 * 35328
/-- The carrier, its timeline, and the configuration that occasion `k` of PRACH context `x` runs by (R228). -/
def Dev.prachConf (d : Dev) (x k : Nat) : Dev := d.asOf (d.rf (DFE_CCc_CFG_TIMELINE (d.rf (DFE_PRACH_x_CFG_CC x)))) k
/-- Entry of the first sample of occasion `k` of context `x`, by configuration `e`. -/
def Dev.prachEntry (d e : Dev) (x k : Nat) : Nat :=
  let c := e.rf (DFE_PRACH_x_CFG_CC x)
  d.rxEntry e c (d.boundaryT (e.rf (DFE_CCc_CFG_TIMELINE c)) k + tickT (e.reg (rDFE_PRACH_x_START x)))
/-- The first tick of chain `r` to keep once it has run to tick `upto`: the symbols of all its carriers, its running PRACH occasions, and what narrowband
receivers still need. -/
def Dev.rxKeep (d : Dev) (r upto : Nat) : Nat :=
  d.dfe.prach.foldl (fun m x =>
    let e := d.prachConf x.1 x.2
    if e.ccHas (e.rf (DFE_PRACH_x_CFG_CC x.1)) r then min m (d.tickAt (d.prachEntry e x.1 x.2)) else m) (upto - max rxSpan (d.nbNeeds r))
/-- Where a chain that was idle begins when a symbol, or an occasion, wants it from tick `a` on: the symbols of its other carriers that are
already under way. -/
def Dev.rxFirst (d e : Dev) (r a : Nat) : Nat :=
  ((upTo 256).filter fun c => e.ccHas c r).foldl (fun m c =>
    let n := e.rf (DFE_CCc_CFG_TIMELINE c)
    let mu := e.rf (DFE_CCc_CFG_SCS c)
    let t := afterTicks (d.stampT + tickT (a + 1)) (-(d.rxLate e c))
    let k := e.slotK n mu (e.gridIndex n t)
    let s := (upTo 14).foldl (fun s l => let x := e.airTime n mu (e.flag (DFE_CCc_CFG_ECP c)) k l; if x ≤ t then max s x else s) (e.boundaryT n k)
    min m (d.tickAt (d.rxEntry e c s))) a

/-- What chain `r` delivers to a carrier at the base rate from ticks `a` to `b`: shifted by -`hz`, through the channel filter (R244). -/
def Dev.ddc (d : Dev) (r a b ratio : Nat) (hz : Int) : Nat → Smp :=
  let w := ((upTo (b - a)).zip (d.rxWin r a b)).map fun s => turned 491520000 (-hz * (a + s.1 : Nat)) (Smp.scale (2 ^ 20) s.2)
  decimate ratio w

/-- One port of a received symbol, between ticks `a` and `b`: what its chain has taken in, its DFT, EXP, rounding, SAT and LINK_BAD. Carries the
status words and the data. -/
def Dev.rxPort (e : Dev) (c : Nat) (x : SymAt) (a b : Nat) (input : Nat → List (BitVec 24)) (acc : Dev × List Byte × List Byte) (p : Nat) :
    Dev × List Byte × List Byte :=
  let r := e.rf (DFE_CCc_PORTS_FIRST c) + p
  let nrb := e.rf (DFE_CCc_NRB c)
  let ratio := rxRatio nrb (15 * 2 ^ x.mu)
  let lg := fftLog nrb
  let d0 := acc.1.rxTake r (acc.1.rxFirst e r a) b (acc.1.rxKeep r b) (input p)
  let bad := !d0.rxThrough r (d0.stampT + tickT a) (d0.stampT + tickT (b - 1))
  let g := d0.agcExp e c p x.k lg
  let f := d0.ddc r a b ratio (e.ccHz c)
  let skip := (b - a) / ratio - 2 ^ lg
  let ys := symbolIn (e.rf (DFE_CCc_CFG_STD c) == 1) lg (12 * nrb) ((upTo (2 ^ lg)).map fun i => f (skip + i))
  let zs := ys.map fun y => satSmp (partDen lg) (Smp.scale (2 ^ g.2.1) y)
  let sat := zs.any (·.2)
  let peak := ys.foldl (fun m y => max m (max y.1.natAbs y.2.natAbs)) 0
  let d1 := if sat then g.1.bump (DFE_CCc_RXSAT c) else g.1
  let d2 := { d1 with dfe.exps := Tab.put d1.dfe.exps (64 * c + p) (x.k, g.2.1, if e.flag (DFE_CCc_AGC_MODE c) then max g.2.2 (peak + 1) else 0) }
  (d2, acc.2.1 ++ leBytes 2 (g.2.1 + 16 * b2n sat + 32 * b2n bad), acc.2.2 ++ zs.flatMap fun z => packSmp z.1)

/-- FD_CAPTURE (R496): of the selected carrier, the symbol's data of the selected ports, a record for each port. -/
def Dev.fdCapture (d : Dev) (c count air n : Nat) (data : List Byte) : Dev :=
  let f := d.marrow.cfg
  if bitAt f.mask 0 && c == f.first then
    let each := data.length / max 1 count
    (upTo (min f.count count)).foldl (fun d p => d.capture 8 n air (slice data (p * each) each)) d
  else d
/-- RX_SYMBOL_COMPLETE: every chain of a symbol has its output; the slot is written under tag N + 1 and, once acknowledged, the event
is raised. `inputs` gives, for each chain of the carrier, the samples its converter has sent since the chain was last read. -/
def Dev.rxSymbol (d : Dev) (c l air slot : Nat) (inputs : List (List (BitVec 24))) : Dev :=
  let n := d.rf (DFE_CCc_CFG_TIMELINE c)
  let e := d.asOf n (d.airK n air)
  let x := e.ccSym c air l
  let count := e.rf (DFE_CCc_PORTS_COUNT c)
  if !e.ccOn c || decide (2 ≤ e.rf (DFE_CCc_CFG_STD c)) || !e.symOk x || !e.symIs x (e.flag (DFE_CCc_CFG_TDD c)) (e.rf (DFE_CCc_CFG_PAT c)) 2 ||
      !(upTo count).all (fun p => d.domRun (40 + (e.rf (DFE_CCc_PORTS_FIRST c) + p) / 16)) then d
  else
    let b := d.rxEntry e c (e.symEnd x)
    let d1 := d.advanceTo (d.feTime b)
    let r := (upTo count).foldl (e.rxPort c x (d.tickAt (d.rxEntry e c (e.symAir x))) (d.tickAt b) (nth [] inputs)) (d1, [], [])
    let job := (air + 1) % 65536
    let w1 := r.1.busWrite 13 (some (x.n, job)) (slot + 2 * l * count) r.2.1
    let w2 := w1.1.busWrite 13 (some (x.n, job)) (slot + 1792 + l * count * 36 * e.rf (DFE_CCc_NRB c)) r.2.2
    let w3 := w2.1.fdCapture c count air x.n r.2.2
    if w1.2 && w2.2 then w3.raiseEvent x.n job (e.rf (DFE_CCc_RXEVT c) + l) else w3
def execRxSymbolComplete (c : Fin 256) (l : Fin 14) (air : BitVec 16) (slot : BitVec 40) (inputs : List (List (BitVec 24))) (s : State) : Res :=
  s.act fun d => d.rxSymbol c l air.toNat slot.toNat inputs

/-! ### PRACH (R247) -/

/-- The first boundary index `k` with k mod MOD = PHASE whose instant, moved by `ofs` ticks, is not past in front-end time. -/
def Dev.nextPhase (d : Dev) (n m phase : Nat) (ofs : Int) : Nat :=
  let back : Int := (d.feNow : Int) - (if 0 ≤ ofs then (tickT ofs.toNat : Int) else -(tickT (-ofs).toNat : Int))
  let k := d.gridIndex n back.toNat
  let k1 := if (d.boundaryT n k : Int) < back then k + 1 else k
  k1 + (phase + m - k1 % m) % m
/-- The instant of boundary `k` moved by `ofs` ticks. -/
def Dev.phaseTime (d : Dev) (n k : Nat) (ofs : Int) : Nat :=
  if 0 ≤ ofs then d.boundaryT n k + tickT ofs.toNat else d.boundaryT n k - tickT (-ofs).toNat

/-- PRACH_OCCASION: the next occasion of context `x` starts. -/
def Dev.prachStart (d : Dev) (x : Nat) : Dev :=
  let c := d.rf (DFE_PRACH_x_CFG_CC x)
  let n := d.rf (DFE_CCc_CFG_TIMELINE c)
  let m := d.rf (DFE_PRACH_x_REP_MOD x)
  let ph := d.rf (DFE_PRACH_x_REP_PHASE x)
  let ofs : Int := d.reg (rDFE_PRACH_x_START x)
  if !d.flag (DFE_PRACH_x_CTL_ENABLE x) || !d.ccOn c || !d.flag (TMU_TLn_CTL_ENABLE n) || !d.domRun (40 + x / 8) || decide (m ≤ ph) then d
  else
    let k := d.nextPhase n m ph ofs
    let e := d.prachConf x k
    if !e.flag (DFE_PRACH_x_CTL_ENABLE x) || !e.ccOn (e.rf (DFE_PRACH_x_CFG_CC x)) || k % max 1 (e.rf (DFE_PRACH_x_REP_MOD x)) != e.rf (DFE_PRACH_x_REP_PHASE x) then d
    else
      let d1 := d.advanceTo (d.feTime (d.phaseTime n k (e.reg (rDFE_PRACH_x_START x))))
      { d1 with dfe.prach := d1.dfe.prach ++ [(x, k)] }
def execPrachOccasion (x : Fin 32) (s : State) : Res := s.act fun d => d.prachStart x

/-- Ticks to a sample at the output rate of context `x`, and samples of a sequence: 1.92 or 7.68 Msps, or 256 × SCS_RA (R247). -/
def Dev.prachRatio (d : Dev) (x : Nat) : Nat :=
  match d.rf (DFE_PRACH_x_CFG_FORMAT x) with
  | 0 => 256
  | 1 => 64
  | _ => 128 / 2 ^ d.rf (DFE_PRACH_x_CFG_SCS_RA x)
def Dev.prachSize (d : Dev) (x : Nat) : Nat := if d.rf (DFE_PRACH_x_CFG_FORMAT x) = 2 then 256 else 1536
/-- One chain of an occasion between ticks `a` and `b`, by configuration `e`: its band at DC and at the output rate, CP_LEN samples dropped. -/
def Dev.prachChain (e : Dev) (x c a b : Nat) (inputs : List (List (BitVec 24))) (acc : Dev × List Byte) (p : Nat) : Dev × List Byte :=
  let r := e.rf (DFE_CCc_PORTS_FIRST c) + p
  let d := acc.1.rxTake r (acc.1.rxFirst e r a) b (acc.1.rxKeep r b) (nth [] inputs p)
  let f := d.ddc r a b (e.prachRatio x) (e.ccHz c + toSigned 32 (e.reg (rDFE_PRACH_x_FREQ x)))
  let out := (upTo (e.prachSize x * e.rf (DFE_PRACH_x_CFG_SEQ x))).flatMap fun i =>
    packSmp (satSmp (2 ^ 20) (f (e.rf (DFE_PRACH_x_CP_CP_LEN x) + i))).1
  (d, acc.2 ++ out)

/-- PRACH_DONE: the last sequence of the oldest running occasion of `x` is written. `inputs` as for RX_SYMBOL_COMPLETE. -/
def Dev.prachDone (d : Dev) (x : Nat) (inputs : List (List (BitVec 24))) : Dev :=
  match d.dfe.prach.find? (·.1 == x) with
  | none => d
  | some (_, k) =>
    let e := d.prachConf x k
    let c := e.rf (DFE_PRACH_x_CFG_CC x)
    let n := e.rf (DFE_CCc_CFG_TIMELINE c)
    let gone (d : Dev) : Dev := { d with dfe.prach := d.dfe.prach.erase (x, k) }
    if !d.flag (DFE_PRACH_x_CTL_ENABLE x) || !d.domRun (40 + x / 8) then gone d
    else
      let start := d.prachEntry e x k
      let a := d.tickAt start
      let b := a + (e.rf (DFE_PRACH_x_CP_CP_LEN x) + e.prachSize x * e.rf (DFE_PRACH_x_CFG_SEQ x)) * e.prachRatio x
      let r := (upTo (e.rf (DFE_CCc_PORTS_COUNT c))).foldl (Dev.prachChain e x c a b inputs) (d.advanceTo (d.feTime (start + tickT (b - a))), [])
      let job := (k + 1) % 65536
      let w := (gone r.1).busWrite 13 (some (n, job)) (cbufBase + e.rf (DFE_PRACH_x_DEST x)) r.2
      w.1.raiseEvent n job (e.rf (DFE_PRACH_x_EVT x))
def execPrachDone (x : Fin 32) (inputs : List (List (BitVec 24))) (s : State) : Res := s.act fun d => d.prachDone x inputs

/-! ### Observation captures (R243) -/

def Dev.orxCaps (d : Dev) (k : Nat) : List OrxCap := Tab.getD (fun _ => []) d.dfe.caps k
def Dev.setOrxCaps (d : Dev) (k : Nat) (l : List OrxCap) : Dev := { d with dfe.caps := Tab.setD (fun _ => []) d.dfe.caps k l }

/-- ORX_CAPTURE: firmware asks for `len` samples of TX chain `chain` from air time `start` (ns) on, written to `dst`. Captures on one receiver do
not overlap: one begins no earlier than the one before it ends (DESIGN CHOICE, assumption log). -/
def execOrxCapture (chain : Fin 64) (start : Nat) (len : Fin 65537) (dst : BitVec 40) (s : State) : Res :=
  s.act fun d =>
    let k := chain.val / 8
    if !d.domRun (36 + chain.val / 16) || decide (4 ≤ (d.orxCaps k).length) then d.bump (DFE_ORX_k_REFUSED k)
    else if len.val = 0 then d.bump (DFE_ORX_k_CAPS k)
    else
      let free := match (d.orxCaps k).getLast? with
        | some x => x.start + txT x.len
        | none => 0
      d.setOrxCaps k (d.orxCaps k ++ [⟨chain, max (nsT start) free, len, dst.toNat⟩])

/-- ORX_CAPTURE_DONE: the oldest capture of receiver `k` completes: of the samples `seen` at the receiver from the start on, those that LAT
later show the capture's instants, zeros where its link is down, then the DPD's inputs,
then its outputs at the same air instants (their order is a DESIGN CHOICE, assumption log). A kind-0 run that holds the chain takes a capture of its
length (R294). -/
def execOrxCaptureDone (k : Fin 8) (seen : List (BitVec 24)) (s : State) : Res :=
  s.act fun d =>
    match d.orxCaps k with
    | [] => d
    | x :: rest =>
      let lat := d.rf (DFE_ORX_k_LAT k)
      let d1 := (d.advanceTo (d.feTime (x.start + txT (x.len + lat)))).txDrainAll.setOrxCaps k rest
      let d2 := { d1 with dfe.orxSel := Tab.setD (fun _ => 0) d1.dfe.orxSel k x.chain }
      if !d2.domRun (36 + x.chain / 16) then d2.bump (DFE_ORX_k_REFUSED k)
      else
        let i := d2.txAt x.start
        let xy (j : Nat) : Smp × Smp := Tab.getD (fun _ => ((0, 0), (0, 0))) (d2.txChan x.chain).hist (i + j)
        let obs (j : Nat) : Smp := if d2.linkLive (8 + k / 4) 0 (x.start + txT (j + lat)) then unpackSmp (nth 0 seen (j + lat)).toNat else (0, 0)
        let idx := upTo x.len
        let cap : CalCap := ⟨x.chain, x.start, idx.map fun j => (xy j).1, idx.map obs⟩
        let keep := d2.cal.got.filter fun c => d2.calRunning 0 c.chain
        let d2 : Dev := { d2 with cal.got := if x.len = calLen ∧ d2.calRunning 0 x.chain then keep ++ [cap] else keep }
        let w := d2.busWrite 12 none x.dst (idx.flatMap (fun j => packSmp (obs j)) ++ idx.flatMap (fun j => packSmp (xy j).1) ++ idx.flatMap fun j => packSmp (xy j).2)
        w.1.bump (DFE_ORX_k_CAPS k)

/-! ### Control lines (R243, R250, R251, R256) -/

/-- The device is parked: timed lines hold LEVEL. -/
def Dev.linesHeld (d : Dev) : Bool := d.pmu.park.isSome
/-- The chain receiver `k` selects at the present time: that of its next capture from SETTLE ticks before it starts. -/
def Dev.orxChain (d : Dev) (k : Nat) : Nat :=
  match d.orxCaps k with
  | x :: _ => if x.start ≤ d.feNow + tickT (d.rf (DFE_ORX_k_SETTLE k)) then x.chain else Tab.getD (fun _ => 0) d.dfe.orxSel k
  | [] => Tab.getD (fun _ => 0) d.dfe.orxSel k
/-- The level of a line in modes 3 to 6 now, before INVERT; an excitation activates the lines of its pattern in both directions (R299). -/
def Dev.lineActive (d : Dev) (l : Nat) : Bool :=
  let arg := d.rf (DFE_GPIO_l_CFG_ARG l)
  let lead := d.rf (DFE_GPIO_l_LEAD l)
  let lag := d.rf (DFE_GPIO_l_LAG l)
  let excited := d.cal.excite.any fun x => x.pat == arg % 16 && decide (x.since ≤ d.feNow + tickT lead) && decide (d.feNow < x.till + tickT lag)
  let pat (code : Nat) : Bool := excited || d.patActive (arg % 16) code lead lag d.feNow
  match d.rf (DFE_GPIO_l_CFG_MODE l) with
  | 3 => pat 1
  | 4 => pat 2
  | 5 => bitAt (d.orxChain (arg % 8) % 8) (arg / 8)
  | _ => match Tab.find d.dfe.strobes arg with
    | some t => decide (d.feNow < t)
    | none => false

/-- ALIGN_EXCITATION: TX chain `i` will be excited 8 µs into the next G run of at least 16 µs of its pattern that no other excitation has, for 4,096
samples: it re-sends the last of the D run before (R299). -/
def execAlignExcitation (i : Fin 64) (s : State) : Res :=
  s.act fun d => match d.calFind 2 i .gathering with
    | none => d
    | some (r, _) =>
      let from_ := (d.cal.excite.map (·.till)).foldl max d.feNow
      match (d.tddOf i).bind fun p => (d.nextGRun p.1 from_).map fun t => (p.1, t) with
      | none => d
      | some (p, g) =>
        let t := g + usT 8
        if d.txStep r && !r.excited.contains i.val then
          { d with cal.runs := d.cal.runs.map fun (x : CalRun) => if x.id = r.id then { x with excited := x.excited ++ [i.val] } else x,
                   cal.excite := (d.cal.excite.filter fun x => decide (d.feNow < x.till + msT 1)) ++
                     [⟨i, p, d.txAt (d.lastDRun p g), t, t + txT 4096⟩] }
        else d

/-- RF_LINE_EDGE: after `ns` nanoseconds, line `l` takes the level its mode schedules then; while the device is parked, the timed modes hold
LEVEL. -/
def execRfLineEdge (l : Fin 64) (ns : Nat) (s : State) : Res :=
  s.act fun d =>
    let mode := d.rf (DFE_GPIO_l_CFG_MODE l)
    if mode < 2 ∨ 6 < mode ∨ !d.domOn 78 then d
    else
      let d1 := d.advanceTo (d.now + nsT ns)
      if d1.linesHeld then d1.setLine l (d1.flag (DFE_GPIO_l_CFG_LEVEL l))
      else if mode = 2 then d1
      else d1.setLine l (d1.lineActive l != d1.flag (DFE_GPIO_l_CFG_INVERT l))

/-- Two instants fall in one DEVCLK tick. -/
def sameTick (a b : Nat) : Bool := a * 1536 / (3125 * 2 ^ 32) == b * 1536 / (3125 * 2 ^ 32)

/-- GEV_ACTION: the next action of event entry `e`, as the configuration of its air period has it (R228). -/
def Dev.gevAct (d : Dev) (e : Nat) : Dev :=
  let n := d.rf (DFE_GEV_e_CFG_TIMELINE e)
  let ofs (c : Dev) : Int := toSigned 32 (c.reg (rDFE_GEV_e_OFFSET e))
  if !d.flag (TMU_TLn_CTL_ENABLE n) || !d.domOn 78 then d
  else
    let k := d.nextPhase n (d.rf (DFE_GEV_e_REP_MOD e)) (d.rf (DFE_GEV_e_REP_PHASE e)) (ofs d)
    let c := d.asOf n k
    let line := c.rf (DFE_GEV_e_CFG_LINE e)
    let m := c.rf (DFE_GEV_e_REP_MOD e)
    let t := d.phaseTime n k (ofs c)
    if !c.flag (DFE_GEV_e_CTL_ENABLE e) || c.rf (DFE_GPIO_l_CFG_MODE line) != 2 || decide (m ≤ c.rf (DFE_GEV_e_REP_PHASE e)) ||
        k % max 1 m != c.rf (DFE_GEV_e_REP_PHASE e) || decide (t < d.feNow) then d
    else
      let d1 := d.advanceTo (d.feTime t)
      let later := match Tab.find d1.dfe.gev line with
        | some (t0, e0) => sameTick t0 t && decide (e < e0)
        | none => false
      if d1.linesHeld || later then d1
      else { d1.setLine line (c.flag (DFE_GEV_e_CFG_LEVEL e)) with dfe.gev := Tab.put d1.dfe.gev line (t, e) }
def execGevAction (e : Fin 256) (s : State) : Res := s.act fun d => d.gevAct e

/-! ### Ticks, SYSREF and links (R226, R253-R256) -/

/-- FE_TIME_CHECK: 1 ms after the last, the tick count is compared with TMU time. `drift` is how many ticks DEVCLK has gained on its nominal rate
since; `rx` gives the samples of RX chains that nothing else has read. The difference counts the ticks past those TMU time has made (DEDUCED,
assumption log); what ERR shows of one beyond 16 bits is open. -/
def Dev.timeCheck (d : Dev) (drift : Int) (rx : List (Nat × List (BitVec 24))) : Dev :=
  match d.dfe.epoch with
  | none => d
  | some (s, e0) =>
    let d0 := d.advanceTo (d.dfe.checkAt + msT 1)
    let e := if 0 ≤ drift then e0 - tickT drift.toNat else e0 + tickT (-drift).toNat
    let d1 : Dev := { d0 with dfe.epoch := some (s, e), dfe.checkAt := d0.now }
    let diff := roundDiv (((s : Int) - e) * 1536) (3125 * 2 ^ 32)
    let f := d1.fresh (2 ^ 16)
    let d2 := if satSigned 16 diff = diff then d1.wf DFE_TIME_ERR (ofSigned 16 diff) else f.1.wf DFE_TIME_ERR f.2
    let d3 := rx.foldl (fun d x => let b := d.tickAt d.feNow; if d.domRun (40 + x.1 / 16) then d.rxTake x.1 (b - x.2.length) b b x.2 else d) d2
    if 2 < diff.natAbs then d3.event 2 2 (ofSigned 32 diff) 0 0 else d3
/-- FE_TIME_CHECK; `seen` is the drift and the samples RX chains have received since the last. -/
def execFeTimeCheck (seen : BitVec 16 × List (Fin 64 × List (BitVec 24))) (s : State) : Res :=
  s.act fun d => d.timeCheck seen.1.toInt (seen.2.map fun x => (x.1.val, x.2))

/-- Some unit's links run. -/
def Dev.anyUnit (d : Dev) : Bool := (upTo 10).any fun u => d.flag (jesdEnable u)
/-- Unit `u` is enabled: its lanes enter service and start at its rate, a TX unit transmits, and its LEMC waits for SYSREF; disabled: its links
are down, and with the last of them the ticks end. -/
def Dev.unitSwitch (d : Dev) (u : Nat) : Dev :=
  let d1 : Dev := { d with dfe.lemc := Tab.del d.dfe.lemc u }
  if d.flag (jesdEnable u) then (if u < 4 then d1.setFlag (linkUpF u 0) true else d1).serviceSync
  else
    let d2 := d1.linksDown u
    { d2 with dfe.lost := d2.dfe.lost.filter (fun p => p.1 != u), dfe.epoch := if d2.anyUnit then d2.dfe.epoch else none }.serviceSync

/-- JESD_ENABLE. -/
def Dev.jesdCtlWr (d : Dev) (init : Initiator) (u value : Nat) : Dev :=
  let r := d.enableWr init (jReg u 0) value (jesdEnable u) fun _ => false
  if r.2 then r.1.unitSwitch u else r.1
def execJesdEnable (init : Initiator) (u : Fin 10) (value : Word) (s : State) : Res :=
  s.act fun d => d.jesdCtlWr init u value.toNat

/-- Ticks of the LEMC of a RATE (R252, R253): 32 blocks of 66 bits for each of E multiblocks at the lane rate. -/
def lemcTicks (rate : Nat) : Nat := nth 32 [32, 128, 64] rate
/-- An edge at tick `i` disagrees with the LEMC of unit `u` by more than a tick. -/
def Dev.lemcMiss (d : Dev) (i u : Nat) : Bool :=
  match Tab.find d.dfe.lemc u with
  | none => false
  | some a =>
    let per := lemcTicks (d.jRate u)
    let ph := (i + per - a % per) % per
    decide (1 < ph) && decide (ph + 1 < per)
/-- SYSREF_EDGE: an edge `ticks` DEVCLK ticks from now. It aligns the LEMCs that wait for it, and is stamped where no link ran before; running
LEMCs keep their phase, and one that disagrees counts. -/
def execSysrefEdge (ticks : Nat) (s : State) : Res :=
  s.act fun d =>
    let t := d.now + tickT ticks
    let d1 := d.advanceTo t
    let fresh := (upTo 10).filter fun u => d.flag (jesdEnable u) && (Tab.find d.dfe.lemc u).isNone
    if !d1.anyUnit then d1
    else
      let d2 := match d1.dfe.epoch with
        | some _ => d1
        | none => { d1.putTime DFE_SYSREF_TIME_i_TIME t with dfe.epoch := some (t, t), dfe.checkAt := t }
      let i := d2.tickAt (t + d2.stampT - (d2.feTime d2.stampT))
      let d3 := if (upTo 10).any (d2.lemcMiss i) then d2.bump DFE_SYSREF_MISS else d2
      { d3 with dfe.lemc := fresh.foldl (fun l u => Tab.put l u i) d3.dfe.lemc }

/-- SHERR, CRCERR and RELINK of unit `u`. -/
def jCount (u i : Nat) : Fld := ⟨jReg u i, 0, 32⟩

/-- The tick of the next LEMC edge of a unit aligned at tick `a`, at its rate. -/
def Dev.lemcEdge (d : Dev) (u a : Nat) : Nat :=
  let per := lemcTicks (d.jRate u)
  let i := d.tickAt d.feNow
  i + (per - (i + per - a % per) % per) % per
/-- JESD_LINK_UP: every lane of an RX or observation link has locked; the link is up at the next LEMC edge of its unit, and its data counts from
the release of its receive buffers (R253, R254). -/
def Dev.linkUp (d : Dev) (u i : Nat) : Dev :=
  let rate := d.jRate u
  let lanes := (upTo (linkLanes rate)).map fun j => d.unitLane u (i * linkLanes rate + j)
  match Tab.find d.dfe.lemc u with
  | none => d
  | some a =>
    if u < 4 || !d.unitRuns u || decide (unitLinks u rate ≤ i) || d.flag (linkUpF u i) ||
        !lanes.all (fun x => d.domRun (laneDom x) && d.flag (ZTH_Li_STS_CDR_LOCK x)) then d
    else
      let edge := d.stampT + tickT (d.lemcEdge u a)
      let d0 := (d.advanceTo (d.feTime edge)).linkFrom u i (edge + tickT (d.rf DFE_RX_RBD))
      let d1 := (lanes.foldl (fun d x => d.setLock x true) d0).setFlag (linkUpF u i) true
      let d2 := if d1.dfe.lost.contains (u, i) then { d1.bump (jCount u 8) with dfe.lost := d1.dfe.lost.filter (· != (u, i)) } else d1
      if d2.flag (jPending u) && d2.dfe.remaps.all (·.1 != u) && (upTo (unitLinks u rate)).all (fun j => d2.flag (linkUpF u j)) then
        d2.setFlag (jPending u) false
      else d2
def execJesdLinkUp (u : Fin 10) (link : Fin 12) (s : State) : Res := s.act fun d => d.linkUp u link

/-- JESD_LINK_DOWN: logical lane `lane.1` of an RX or observation unit loses lock, or, where `lane.2`, its counters alone move; `shErr` and `crcErr` were
counted on the unit since the last such event: a CRC mismatch does not take a link down (R255). -/
def execJesdLinkDown (u : Fin 10) (lane : Fin 12 × Bool) (shErr crcErr : Word) (s : State) : Res :=
  s.act fun d =>
    let i := lane.1.val / linkLanes (d.jRate u)
    if u.val < 4 || !d.flag (jesdEnable u) || decide ((unitLanes u).length ≤ lane.1.val) then d
    else
      let d1 := (d.bumpBy (jCount u 6) shErr.toNat).bumpBy (jCount u 7) crcErr.toNat
      if lane.2 || !d.flag (linkUpF u i) then d1
      else
        let d2 := (d1.linkEnds u i).setFlag (linkUpF u i) false
        { d2 with dfe.lost := (u.val, i) :: d2.dfe.lost }.laneLost (d2.unitLane u lane.1)

/-! ### Spare lanes (R256) -/

/-- The lowest-numbered enabled carrier on a chain of unit `u`. -/
def Dev.unitCarrier (d : Dev) (u : Nat) : Option Nat :=
  let lo := if u < 8 then 16 * (u % 4) else 32 * (u - 8)
  let hi := if u < 8 then lo + 16 else lo + 32
  (upTo 256).find? fun c => d.ccOn c && decide (d.rf (DFE_CCc_PORTS_FIRST c) < hi) &&
    decide (lo < d.rf (DFE_CCc_PORTS_FIRST c) + d.rf (DFE_CCc_PORTS_COUNT c))

/-- The instant the remap of unit `u` acts, after a commit at boundary `k` of timeline `n`. -/
def Dev.remapTime (d : Dev) (u n k : Nat) : Nat :=
  match d.unitCarrier u with
  | none => d.boundaryT n (k + 1)
  | some c =>
    let m := d.rf (DFE_CCc_CFG_TIMELINE c)
    let ka := d.gridIndex m (d.boundaryT n k) + 1
    let mu := d.rf (DFE_CCc_CFG_SCS c)
    let ecp := d.flag (DFE_CCc_CFG_ECP c)
    if !d.flag (DFE_CCc_CFG_TDD c) then d.boundaryT m ka
    else match (upTo (if ecp then 12 else 14)).find? fun l =>
        let t := d.airTime m mu ecp (d.slotK m mu ka) l
        d.patCode (d.rf (DFE_CCc_CFG_PAT c)) ka l == 0 && decide (d.boundaryT m ka ≤ t) && decide (t < d.boundaryT m (ka + 1)) with
      | some l => d.airTime m mu ecp (d.slotK m mu ka) l
      | none => d.boundaryT m ka

/-- LANE_REMAP: the unit pulses its strobe lines and switches to, or back from, its spare; its receive links go down and relock. -/
def Dev.remap (d : Dev) (u : Nat) : Dev :=
  match d.dfe.remaps.find? (·.1 == u) with
  | none => d
  | some (_, n, k) =>
    let t := d.remapTime u n k
    let d1 := d.advanceTo (d.feTime t)
    let sp := if d1.flag (jUse u) then Tab.put d1.dfe.spares u (d1.rf (jSpareLane u)) else Tab.del d1.dfe.spares u
    let down := (upTo 12).filter fun i => decide (4 ≤ u) && d1.flag (linkUpF u i)
    let d2 := { d1 with dfe.remaps := d1.dfe.remaps.filter (·.1 != u), dfe.spares := sp,
                        dfe.strobes := Tab.put d1.dfe.strobes u (t + tickT 16), dfe.lost := down.map (u, ·) ++ d1.dfe.lost }
    let d3 := (down.foldl (fun d i => (d.linkEnds u i).setFlag (linkUpF u i) false) d2).serviceSync
    let relocks := decide (4 ≤ u) && d3.flag (jesdEnable u)
    let strobe := (upTo 64).foldl (fun d l =>
      if d.rf (DFE_GPIO_l_CFG_MODE l) = 6 ∧ d.rf (DFE_GPIO_l_CFG_ARG l) = u ∧ d.domOn 78 ∧ !d.linesHeld then
        d.setLine l (!d.flag (DFE_GPIO_l_CFG_INVERT l)) else d) d3
    if relocks then strobe else strobe.setFlag (jPending u) false
def execLaneRemap (u : Fin 10) (s : State) : Res := s.act fun d => d.remap u

end Sys2Proof.Machine
end

