-- ==== Sys2Proof/Machine/Nbb.lean ====
section
/-! DEFINITION. The narrowband bank (R260-R283): roles, transmission, reception from the window's or the carrier's stream, detection, capture,
reports, GSM bursts. -/

namespace Sys2Proof.Machine

/-! ### Channels (R261, R262, R278, R281) -/

/-- The timeline of channel `n`: its role's, its carrier's, or, enabled by registers alone, the first NB_PACKET timeline that is
enabled (assumption log). -/
def Dev.nbTl (d : Dev) (n : Nat) : Nat :=
  if d.nbCarrier n then d.rf (DFE_CCc_CFG_TIMELINE (d.nbCc n))
  else match Tab.find d.fw.nb n, Tab.find d.fw.nbTx n with
  | some p, _ => p.tl
  | none, some p => p.tl
  | none, none => ((upTo 4).find? fun t => d.tlOn t && d.rf (TMU_TLn_CFG_KIND t) == 2).getD 0
/-- Samples per symbol. -/
def Dev.nbSps (d : Dev) (n : Nat) : Nat := if d.rf (NBB_CHn_MOD_SPS8 n) = 1 then 8 else 4
/-- Bits per symbol. -/
def Dev.nbLog2M (d : Dev) (n : Nat) : Nat := if d.rf (NBB_CHn_MOD_MOD n) = 2 then 2 else 1
/-- `c` symbols of the channel in units of `now`. -/
def Dev.nbSyms (d : Dev) (n c : Nat) : Nat := symsT (d.rf (NBB_CHn_RATE_RATE3 n)) c

/-- R262 on values: three times the rate, samples per symbol, BT and h times 100, offset in Hz. -/
def nbLegal (carrier : Bool) (modu rate3 sps bt h : Nat) (ofs : Int) : Bool :=
  let m1 := if modu = 2 then 3 else 1
  decide (modu ≤ 2) && (if carrier then rate3 == 812500 else decide (3600 ≤ rate3) && decide (rate3 ≤ 900000)) &&
  (sps == 4 || sps == 8) && decide (rate3 * sps ≤ 5760000) && decide (30 ≤ bt) && decide (bt ≤ 100) && decide (25 ≤ h) && decide (h ≤ 100) &&
  (modu != 1 || (bt == 30 && h == 50)) && decide (600 * ofs.natAbs + (m1 * h + 100) * rate3 ≤ 450000000)

/-- Channel `n`'s registers keep R262, its capture threshold included. -/
def Dev.nbOk (d : Dev) (n : Nat) : Bool :=
  let r (f : Nat → Fld) : Nat := d.rf (f n)
  nbLegal (d.nbCarrier n) (r NBB_CHn_MOD_MOD) (r NBB_CHn_RATE_RATE3) (d.nbSps n) (r NBB_CHn_SHAPE_BT)
    (r NBB_CHn_SHAPE_H) (toSigned 32 (d.reg (rNBB_CHn_OFFSET n))) &&
  decide (6 ≤ r NBB_CHn_DET_CAP_TH) && decide (r NBB_CHn_DET_CAP_TH ≤ 30)
/-- It may receive: R262, and neither PRE_LEN nor SYNC_LEN is 0 (R281, R283). -/
def Dev.nbRxOk (d : Dev) (n : Nat) : Bool := d.nbOk n && d.rf (NBB_CHn_FMT_PRE_LEN n) != 0 && d.rf (NBB_CHn_FMT_SYNC_LEN n) != 0
/-- A group may leave it running so: no zero of R283, and a 4-level SYNC_LEN is even (R280). -/
def Dev.nbGroupOk (d : Dev) (n : Nat) : Bool :=
  d.nbRxOk n && d.rf (NBB_CHn_DET_MARGIN n) != 0 && (d.rf (NBB_CHn_MOD_MOD n) != 2 || d.rf (NBB_CHn_FMT_SYNC_LEN n) % 2 == 0)

/-- The domains its receive, and its transmit, side need are in RUN. -/
def Dev.nbRxOn (d : Dev) (n : Nat) : Bool :=
  d.domRun 44 && if d.nbCarrier n then true else d.domRun (40 + n / 64)
def Dev.nbTxOn (d : Dev) (n : Nat) : Bool :=
  d.domRun 45 && if d.nbCarrier n then true else d.domRun (36 + n / 64)

/-! ### A channel's receiver -/

/-- A receiver just enabled at `now`. -/
def NbChan.fresh (now : Nat) : NbChan := ⟨now, 0, now, 0, some now, none, none, false, 0, [], [], [], [], 0, none⟩
def Dev.nbChan (d : Dev) (n : Nat) : NbChan := (Tab.find d.nbb.chans n).getD (NbChan.fresh d.now)

/-- The time this receiver was idle in its present interval, at `now`. -/
def NbChan.idleNow (x : NbChan) (now : Nat) : Nat := x.idle + match x.idleFrom with
  | some t => now - t
  | none => 0

/-- The receiver's state is `st`, and STS shows it; leaving the idle states stops the idle clock. -/
def Dev.nbSet (d : Dev) (n : Nat) (x : NbChan) (st : Nat) : Dev :=
  let idle := st == 1 || st == 2
  let y : NbChan := if idle then (if x.idleFrom.isSome then x else { x with idleFrom := some d.now })
    else { x with idle := x.idleNow d.now, idleFrom := none }
  let d1 := ((d.wf (NBB_CHn_STS_STATE n) st).setFlag (NBB_CHn_STS_SHADOW n) y.shadow.isSome).setFlag (NBB_CHn_STS_AGC_FROZEN n) (st == 4)
  { d1 with nbb.chans := if st = 0 then Tab.del d1.nbb.chans n else Tab.put d1.nbb.chans n y }

/-- Whole bytes of payload bits, first bit most significant, the last byte filled with zeros; of LLR8 values, one byte each. -/
def nbPackBits : Nat → List Nat → List Byte
  | 0, _ => []
  | fuel + 1, l => if l.isEmpty then []
    else BitVec.ofNat 8 (ofBitsMsb ((upTo 8).map fun i => nth 0 l i == 1)) :: nbPackBits fuel (l.drop 8)
def NbLock.bytes (k : NbLock) : List Byte :=
  let l := k.bits.reverse
  if k.gsm then l.map (BitVec.ofNat 8) else nbPackBits (l.length / 8 + 1) l

/-- A packet's report waits to be posted on the pair its channel has now (R276). -/
def Dev.nbReport (d : Dev) (n : Nat) (k : NbLock) (reason : Nat) : Dev :=
  { d with nbb.reports := d.nbb.reports ++ [⟨n, d.nbPair n, d.nbTl n, k, k.bytes, reason⟩] }
/-- MAXB of a packet that channel `n` locks. -/
def Dev.nbMaxb (d : Dev) (n : Nat) (access : Bool) : Nat :=
  if access then 36 else if d.flag (NBB_CHn_FMT_LEN_MODE n) then 256 else d.rf (NBB_CHn_PLEN_PAYLOAD n)

/-- The receiver of `n` ends a locked packet with `reason`, abandons a qualification without counting it, and goes to state `st`. -/
def Dev.nbAbandon (d : Dev) (n reason st : Nat) : Dev :=
  let x := d.nbChan n
  let d1 := match x.lock with
    | some k => d.nbReport n k reason
    | none => d
  let y : NbChan := if st = 1 then NbChan.fresh d.now else x
  d1.nbSet n { y with prim := none, shadow := none, took := false, lock := none } st

/-! ### Roles change (R263, R265, R270, R280) -/

/-- What follows once RX_EN and TX_EN were `rx0` and `tx0` and stand as they do: a receiver starts, or ends with TRUNCATED_BY_REMOVE;
packets of a lost transmit role are cut. -/
def Dev.nbRoles (d : Dev) (n : Nat) (rx0 tx0 : Bool) : Dev :=
  let rx := d.flag (NBB_CHn_CTL_RX_EN n)
  let d1 := if rx == rx0 then d
    else if rx then d.nbSet n (NbChan.fresh d.now) 1 else d.nbAbandon n 4 0
  if tx0 && !d.flag (NBB_CHn_CTL_TX_EN n) then d1.nbCut n true else d1

/-- A role is staged for channel `n`. -/
def Dev.nbStaged (d : Dev) (n dir : Nat) : Option NbPar :=
  d.fw.staged.findSome? fun e => match e.eff with
    | .nbAdd m p => if m = n ∧ p.dir = dir then some p else none
    | _ => none
/-- A GSM carrier waiting for its boundary takes channel `n`. -/
def Dev.nbTaken (d : Dev) (n : Nat) : Bool :=
  d.fw.staged.any fun e => match e.eff with
    | .carrierAdd _ _ _ chs => chs.contains n
    | _ => false
/-- The channel has the role, or will have. -/
def Dev.nbHas (d : Dev) (n dir : Nat) : Bool :=
  d.flag (if dir = 0 then NBB_CHn_CTL_RX_EN n else NBB_CHn_CTL_TX_EN n) || (d.nbStaged n dir).isSome
/-- Channels with the role, those staged and those of waiting GSM carriers included. -/
def Dev.nbCount (d : Dev) (dir : Nat) : Nat :=
  ((upTo 256).filter fun n => d.nbHas n dir).length +
    sumNat (d.fw.staged.map fun e => match e.eff with
      | .carrierAdd _ _ _ chs => if dir = 0 then chs.length - 1 else min 1 chs.length
      | _ => 0)

/-- NB_CHANNEL_CTL_WRITE: RX_EN is discarded if R262 fails, or PRE_LEN or SYNC_LEN is 0, TX_EN if every modem has a channel, has been promised to one,
or to a GSM carrier. -/
def Dev.nbCtlWr (d : Dev) (init : Initiator) (n value : Nat) : Dev :=
  let off := rNBB_CHn_CTL n
  let rx0 := d.flag (NBB_CHn_CTL_RX_EN n)
  let tx0 := d.flag (NBB_CHn_CTL_TX_EN n)
  let r := d.busWr init off value
  match r.2 with
  | .no => r.1
  | .yes _ =>
    let badRx := !rx0 && r.1.flag (NBB_CHn_CTL_RX_EN n) && !d.nbRxOk n
    let badTx := !tx0 && r.1.flag (NBB_CHn_CTL_TX_EN n) && (d.nbStaged n 1).isNone && decide (64 ≤ d.nbCount 1)
    let d1 := if badRx then r.1.setFlag (NBB_CHn_CTL_RX_EN n) false else r.1
    let d2 := if badTx then d1.setFlag (NBB_CHn_CTL_TX_EN n) false else d1
    (if badRx || badTx then d2.regErr .ignored off init else d2).nbRoles n rx0 tx0
def execNbChannelCtlWrite (init : Initiator) (n : Fin 256) (value : Word) (s : State) : Res := s.act fun d => d.nbCtlWr init n value.toNat

/-- What two roles of one channel share (R263): modulation, three times the rate, samples per symbol, BT, h, offset, pair, timeline. -/
structure NbShared where
  modu : Nat
  rate3 : Nat
  sps : Nat
  bt : Nat
  h : Nat
  ofs : Int
  upq : Option Nat
  tl : Nat
  deriving DecidableEq, Repr
def NbPar.shared (p : NbPar) : NbShared := ⟨p.mod, 3 * p.baud, p.sps, p.bt, p.h, p.offsetHz, some p.upq, p.tl⟩
/-- The values of the role a channel has, or will have: of a staged one its command's, of an enabled one what the registers hold. -/
def Dev.nbOther (d : Dev) (n dir : Nat) : Option NbShared :=
  match d.nbStaged n dir with
  | some p => some p.shared
  | none =>
    if d.flag (if dir = 0 then NBB_CHn_CTL_RX_EN n else NBB_CHn_CTL_TX_EN n) then
      let m := d.nbModOf n
      some ⟨m.modu, m.rate3, d.nbSps n, m.bt, m.h, m.ofs, d.nbPair n, d.nbTl n⟩
    else none

/-- NB_CHANNEL_ADD. -/
def Dev.nbChannelAdd (d : Dev) (c : PqCmd) : Dev :=
  let n := pp c 0
  let p : NbPar := ⟨pp c 1, pp c 2, pp c 3, pp c 4, pp c 5, pp c 6, pSigned c 7, pp c 8, pp c 9, pp c 10, c.timeline.toNat⟩
  d.checks c
    [(d.badTarget c || decide (256 ≤ n) || decide (2 ≤ p.dir) || !nbLegal false p.mod (3 * p.baud) p.sps p.bt p.h p.offsetHz ||
        (if p.dir = 0 then decide (2 ≤ p.capMode) || decide (p.capTh < 6) || decide (30 < p.capTh) else p.capMode != 0 || p.capTh != 0) ||
        decide (63 < p.upq) || d.rf (TMU_TLn_CFG_KIND p.tl) != 2 || d.nbCarrier n || d.nbTaken n ||
        ((d.nbOther n (1 - p.dir)).map fun q => q != p.shared).getD false, badParam),
     (!d.domRun (44 + p.dir), domainOffS),
     (d.nbHas n p.dir || decide ((if p.dir = 0 then 256 else 64) ≤ d.nbCount p.dir), busyS)]
    fun d => (d.stage c 0x0205 false (.nbAdd n p)).fin c okS
def execNbChannelAdd (c : PqCmd) (s : State) : Res := s.pq 0x0205 c fun d => d.nbChannelAdd c

/-- NB_CHANNEL_REMOVE. -/
def Dev.nbChannelRemove (d : Dev) (c : PqCmd) : Dev :=
  let n := pp c 0
  let tl := (((d.nbOther n 0).orElse fun _ => d.nbOther n 1).map (·.tl)).getD c.timeline.toNat
  d.checks c
    [(d.badTarget c || decide (256 ≤ n) || d.nbCarrier n || d.nbTaken n || !(d.nbHas n 0 || d.nbHas n 1) || tl != c.timeline.toNat, badParam)]
    fun d => (d.stage c 0x0206 false (.nbRemove n)).fin c okS
def execNbChannelRemove (c : PqCmd) (s : State) : Res := s.pq 0x0206 c fun d => d.nbChannelRemove c

/-- Firmware writes a channel's modulation and capture fields. -/
def Dev.nbWrite (d : Dev) (n src cc capMode capTh modu rate3 sps bt h : Nat) (ofs : Int) (rx : Bool) : Dev :=
  let d1 := (((((((d.wf (NBB_CHn_MOD_MOD n) modu).wf (NBB_CHn_MOD_SPS8 n) (b2n (sps == 8))).wf (NBB_CHn_MOD_SRC n) src).wf (NBB_CHn_MOD_CC n) cc).wf
    (NBB_CHn_RATE_RATE3 n) rate3).wf (NBB_CHn_SHAPE_BT n) bt).wf (NBB_CHn_SHAPE_H n) h).wf (NBB_CHn_OFFSET n) (ofSigned 32 ofs)
  if rx then (d1.wf (NBB_CHn_MOD_CAPTURE_MODE n) capMode).wf (NBB_CHn_DET_CAP_TH n) capTh else d1

/-- The boundary of NB_CHANNEL_ADD: the role is written and enabled, the pair bound; a receive role with PRE_LEN or SYNC_LEN 0 is written and not
enabled (R283). -/
def Dev.nbAddNow (d : Dev) (n : Nat) (p : NbPar) : Dev :=
  if !d.domOn 44 then d
  else
    let rx0 := d.flag (NBB_CHn_CTL_RX_EN n)
    let tx0 := d.flag (NBB_CHn_CTL_TX_EN n)
    let d1 := d.nbWrite n 0 (d.nbCc n) p.capMode p.capTh p.mod (3 * p.baud) p.sps p.bt p.h p.offsetHz (p.dir == 0)
    let on := p.dir != 0 || d1.nbRxOk n
    let d2 : Dev := { (if on then d1.setFlag (if p.dir = 0 then NBB_CHn_CTL_RX_EN n else NBB_CHn_CTL_TX_EN n) true else
        d1.regErr .ignored (rNBB_CHn_CTL n) .group) with
      fw.nb := if p.dir = 0 ∧ on then Tab.put d1.fw.nb n p else d1.fw.nb, fw.nbTx := if p.dir = 0 then d1.fw.nbTx else Tab.put d1.fw.nbTx n p,
      fw.bind := Tab.put d1.fw.bind (256 + n) p.upq }
    d2.nbRoles n rx0 tx0
/-- The boundary of NB_CHANNEL_REMOVE, and of a GSM carrier's removal. -/
def Dev.nbRemoveNow (d : Dev) (n : Nat) : Dev :=
  let rx0 := d.flag (NBB_CHn_CTL_RX_EN n)
  let tx0 := d.flag (NBB_CHn_CTL_TX_EN n)
  let d1 := (((d.setFlag (NBB_CHn_CTL_RX_EN n) false).setFlag (NBB_CHn_CTL_TX_EN n) false).nbRoles n rx0 tx0)
  { d1 with fw.nb := Tab.del d1.fw.nb n, fw.nbTx := Tab.del d1.fw.nbTx n }

/-! ### GSM carriers (R277) -/

/-- Free channels, highest first. -/
def Dev.nbFree (d : Dev) : List Nat :=
  (upTo 256).reverse.filter fun n => !d.nbHas n 0 && !d.nbHas n 1 && !d.nbTaken n && !d.nbCarrier n
/-- The channels a GSM carrier of `count` chains takes: its receive channels, then its transmit channel. -/
def Dev.gsmChannels (d : Dev) (count : Nat) : Option (List Nat) :=
  let l := d.nbFree.take (count + 1)
  if l.length = count + 1 ∧ d.nbCount 1 < 64 then some l else none
/-- Its channels are set up and enabled. -/
def Dev.gsmPlace (d : Dev) (cc : Nat) (chs : List Nat) : Dev :=
  let last := chs.length - 1
  (upTo chs.length).foldl (fun d i =>
    let n := nth 0 chs i
    let d1 := d.nbWrite n 1 cc 0 12 1 812500 4 30 50 0 true
    (d1.setFlag (if i = last then NBB_CHn_CTL_TX_EN n else NBB_CHn_CTL_RX_EN n) true).nbRoles n false false) d
/-- Its channels are free again. -/
def Dev.gsmFree (d : Dev) (cc : Nat) : Dev :=
  ((upTo 256).filter fun n => d.nbCarrier n && d.nbCc n == cc).foldl
    (fun d n => (d.nbRemoveNow n).wf (NBB_CHn_MOD_SRC n) 0) d

/-! ### Transmission (R264-R266, R279) -/

def Dev.setHeld (d : Dev) (n : Nat) (l : List NbPkt) : Dev := { d with nbb.held := Tab.setD (fun _ => []) d.nbb.held n l }

/-- The time of the 1.92 Msps sample nearest `t`; the samples count from the stamped SYSREF edge. -/
def Dev.nbSample (d : Dev) (t : Nat) : Nat := d.nbT (((t - d.stampT) * 6 + 3125 * 2 ^ 31) / (3125 * 2 ^ 32))

/-- NB_TX: an entry is checked and its packet held, or dropped with a flag. `data` holds what the host has at the buffer's address. -/
def Dev.nbTx (d : Dev) (m : Nat) (e data : List Byte) : Dev :=
  let n := leAt e 1 1
  let tag := leAt e 2 2
  let len := leAt e 16 4
  let tl := leAt e 20 1 % 4
  let air := leAt e 6 2
  d.upFetch m 3 e fun d =>
    let pair := (d.nbPair n).getD m
    let start := leAt data 0 4
    let nb := leAt data 4 2
    let per := d.periodNs tl
    let k := d.airK tl air
    let t := d.nbSample (d.boundaryT tl k + nsT start)
    let p : NbPkt := ⟨tag, pair, tl, air, start, nb, (upTo ((nb + 7) / 8)).map fun i => nth 0 data (8 + i), t, none, none⟩
    let mo := d.nbModOf n
    let held := d.nbHeld n
    let meets (q : NbPkt) : Bool := let mq := d.pktMod n q; decide (q.rise mq < p.gone mo) && decide (p.rise mo < q.gone mq)
    if upBad e || leAt e 4 2 != 0xFFFF || decide (len < 8) || !d.obOk (leAt e 8 8) len then d.nbDone n { p with start := 0, bits := 0, data := [] } 64 0
    else if decide (per ≤ start) || decide (8 * (len - 8) < nb) || (d.nbLog2M n == 2 && nb % 2 == 1) || leAt data 6 2 != 0 ||
        (d.nbCarrier n && (start != 0 || nb != 148)) then d.nbDone n p 64 0
    else if !d.flag (NBB_CHn_CTL_TX_EN n) then d.nbDone n p 32 0
    else if !d.flag (TMU_TLn_CTL_ENABLE tl) || !d.future tl air || decide (256 < ahead (d.refK tl) air) || decide (p.rise mo < d.feNow + usT 200) then d.nbDone n p 4 0
    else if held.any meets then d.nbDone n p 8 0
    else if 8 ≤ held.length then d.nbDone n p 16 0
    else
      let d1 := if bitAt d.marrow.cfg.mask 2 then d.recAdd 10 tl air (some data) else d
      d1.setHeld n ((held ++ [p]).mergeSort fun a b => decide (a.t ≤ b.t))
def execNbTx (m : Fin 64) (entry data : List Byte) (s : State) : Res := s.act fun d => d.nbTx m entry data

/-- NB_TX_START: the ramp of the next held packet begins, as the channel modulates now; a channel whose modems are off drops it. -/
def execNbTxStart (n : Fin 256) (s : State) : Res :=
  s.act fun d => match d.nbHeld n with
    | [] => d
    | p :: t =>
      if p.onAir.isSome then d
      else
        let m := d.nbModOf n
        let d1 := (d.advanceTo (d.feTime (p.rise m))).txDrainAll
        if d1.nbTxOn n then d1.setHeld n ({ p with onAir := some m } :: t)
        else (d1.setHeld n t).nbDone n p 32 0

/-- NB_TX_DONE for the packet of that TAG: in the air, its last ramp sample has left, of a cut one after its fall. -/
def execNbTxDone (n : Fin 256) (tag : BitVec 16) (s : State) : Res :=
  s.act fun d => match d.nbHeld n with
    | [] => d
    | p :: t =>
      if p.onAir.isNone || p.tag != tag.toNat then d
      else
        let d1 := ((d.advanceTo (d.feTime (p.gone (d.pktMod n p)))).txDrainAll).setHeld n t
        match p.cut with
        | some c => d1.nbDone n p 32 c.1
        | none => d1.nbDone n p 0 p.bits

/-! ### Floor (R269) -/

/-- Division by 8 of a signed difference: its rounding is open, so a free bit takes floor or ceiling. -/
def Dev.nbEighth (d : Dev) (x : Int) : Dev × Int :=
  if x % 8 = 0 then (d, x / 8) else let f := d.fresh 2; (f.1, x / 8 + f.2)

/-- NB_FLOOR_UPDATE: a 1 ms interval of the channel ends; `p` is the mean power over its idle part, in 0.25 dB. -/
def Dev.nbFloor (d : Dev) (n : Nat) (p : Int) : Dev :=
  match Tab.find d.nbb.chans n with
  | none => d
  | some x =>
    if !d.nbRxOn n then d
    else
      let d1 := d.advanceTo (x.msAt + msT 1)
      let idle := x.idleNow d1.now
      let st := d1.rf (NBB_CHn_STS_STATE n)
      let y : NbChan := { x with msAt := x.msAt + msT 1, idle := 0, idleFrom := x.idleFrom.map fun _ => d1.now }
      if idle < usT 500 then d1.nbSet n y st
      else if st = 1 then (d1.wf (NBB_CHn_FLOOR_NF n) (ofSigned 16 p)).nbSet n y 2
      else
        let nf := toSigned 16 (d1.rf (NBB_CHn_FLOOR_NF n))
        let q := d1.nbEighth (p - nf)
        if st = 2 then (q.1.wf (NBB_CHn_FLOOR_NF n) (ofSigned 16 (nf + q.2))).nbSet n y st else d1.nbSet n y st
def execNbFloorUpdate (n : Fin 256) (p : BitVec 16) (s : State) : Res := s.act fun d => d.nbFloor n p.toInt

/-! ### What a modem measures over a symbol (R267, R268, R271) -/

/-- The channel's samples in 2^-20 of a step between ticks `a`, a multiple of 256, and `b`: its source's stream, shifted by -OFFSET, through its filter
to its rate; a channel without a source has zeros. -/
def Dev.nbStream (d : Dev) (n r : Nat) (hz : Int) (a b : Nat) (k : Nat) : Smp :=
  let m := d.nbModOf n
  let f := d.ddc r a b 256 hz
  let s := (upTo ((b - a) / 256)).map fun i => turned 1920000 (-m.ofs * (a / 256 + i : Nat)) (f i)
  if s.all isZero then (0, 0)
  else Config.nbFilter (((if m.modu = 2 then 3 else 1) * m.h + 100) * m.rate3) (m.rate3 * d.nbSps n) s k
/-- The samples of the `c` symbols of channel `n` that end now, of which the chain has brought `ins` since it was last read. -/
def Dev.nbSamples (d : Dev) (n c : Nat) (ins : List (BitVec 24)) : Dev × List Smp :=
  let want := c * d.nbSps n
  match d.nbSource n with
  | none => (d, List.replicate want (0, 0))
  | some (r, hz) =>
    if !d.domRun (40 + r / 16) then (d, List.replicate want (0, 0))
    else
      let b := d.tickAt d.feNow
      let a := (b - d.nbTicks n (c + 3)) / 256 * 256
      let d1 := d.rxTake r (d.rxFirst d r a) b (d.rxKeep r b) ins
      (d1, (upTo want).map fun k => d1.nbStream n r hz a b (3 * d.nbSps n + k))

/-- Mean power of samples in 2^-20 of a step, in 0.25 dB of a full-scale sinusoid of amplitude 2,047; nothing reads as the least the register
shows (assumption log). `level`: which step a level between two is expressed as. -/
def rssiOf (smps : List Smp) (level : Int) : Int :=
  let p := power smps
  if p = 0 then -32768
  else
    let x : Rat := (p : Rat) / ((smps.length * (2047 * 2 ^ 20) ^ 2 : Nat) : Rat)
    let low := logFloor (-480) 41 40 x
    let t : Rat := if low < 0 then 1 / (10 ^ low.natAbs : Nat) else (10 ^ low.natAbs : Nat)
    if t = x ^ 40 then low else nearFig low level
/-- Samples after the AGC at its gain in 2^-16, in whole steps; `frozen`: they saturate (R268). Whether one did. -/
def agcOut (frozen : Bool) (gain : Nat) (s : Smp) : Smp × Bool :=
  if frozen then satSmp (2 ^ 36) (Smp.scale gain s) else ((roundDiv (s.1 * gain) (2 ^ 36), roundDiv (s.2 * gain) (2 ^ 36)), false)
/-- Where the loop goes that scales samples toward an RMS of 512 (R268): its law is open, so `given`; but once the level has stood for two symbols after
a step of at most 40 dB, within 1 dB of it (assumption log). `rssi`: latest first. -/
def agcGoes (smps : List Smp) (rssi : List Int) (given : Nat) : Nat :=
  let p := power smps
  let steady := match rssi with
    | a :: b :: t => decide ((a - b).natAbs ≤ 4) && (t.take 1).all fun c => decide ((b - c).natAbs ≤ 160)
    | _ => false
  if p = 0 ∨ !steady then given
  else
    let r : Rat := ((given ^ 2 * p : Nat) : Rat) / ((smps.length * 2 ^ 18 * 2 ^ 72 : Nat) : Rat)
    if r ^ 10 ≤ 10 ∧ 1 ≤ 10 * r ^ 10 then given else Nat.sqrt (smps.length * 2 ^ 90 / p)

/-- What a modem has of one symbol: the samples before the AGC, its RSSI; a sample saturated; the discriminator's value; the symbol timings that the
primary and the shadow estimate, in 2^-16 of a symbol; the magnitude of a soft value; frequency error; which quarter symbol a delay between two is
expressed as. Estimators, and the soft values' magnitude, are open. -/
structure NbMeas where
  smps : List Smp
  rssi : Int
  sat : Bool
  disc : Int
  prim : Nat
  shad : Nat
  mag : Nat
  ferr : Nat
  quarter : Int
  deriving DecidableEq, Repr

/-- The discriminator's value, 256 to a symbol value of one, for the symbol that ends at sample `e` of `l`, with a symbol timing: it looks at the four
symbols of the pulse. -/
def discAt (m : NbMod) (sps : Nat) (l : List Smp) (timing e : Nat) : Int :=
  let w := (l.take e).drop (e - 4 * sps)
  if w.all isZero then 0 else Config.discr m.bt m.h sps w timing
/-- Its values over the latest `c` symbols, the latest first. -/
def Dev.nbDiscs (d : Dev) (n : Nat) (past : List Smp) (timing c : Nat) : List Int :=
  (upTo c).map fun i => discAt (d.nbModOf n) (d.nbSps n) past timing (past.length - i * d.nbSps n)
/-- The bits of a discriminator value, first in the air first (R264). -/
def discBits (lm : Nat) (v : Int) : List Bool :=
  if lm = 2 then [decide (v < 0), decide (512 ≤ v) || decide (v < -512)] else [decide (0 ≤ v)]
/-- Correlation of the latest values `vs`, latest first, with a pattern, latest first, normalised to 0-255 (its normalisation is a DESIGN CHOICE,
assumption log); `either`: a pattern that may begin with either of its values. -/
def corrOf (vs pat : List Int) (either : Bool) : Nat :=
  let dot (a b : List Int) : Int := (a.zip b).foldl (fun s p => s + p.1 * p.2) 0
  let s := dot vs pat
  let e := dot (vs.take pat.length) vs * dot pat pat
  if e = 0 ∨ (s < 0 ∧ !either) then 0 else Nat.sqrt (255 ^ 2 * s.natAbs ^ 2 / e.toNat)

/-! ### Detection and capture (R269-R275) -/

/-- The synchronisation sequence of an access burst, from TS 45.002 (PRESUMED). -/
def accessSync : Nat := 0b01001011011111111001100110101010001111000

/-- The sync step's word and its length for channel `n`; access bursts compare 41 bits (R278). -/
def Dev.nbSync (d : Dev) (n : Nat) (access : Bool) : Nat × Nat :=
  if access then (accessSync, 41) else (d.reg (rNBB_CHn_SYNC n), d.rf (NBB_CHn_FMT_SYNC_LEN n))
/-- Differential encoding removed from demodulated bits, in the order of the air, after the bit `prev` (R278, R279). -/
def diffDecode : Bool → List Bool → List Bool
  | _, [] => []
  | prev, b :: t => let x := if b then prev else !prev; x :: diffDecode x t
/-- The bits the sync step compares, latest first: of an access burst those of the sequence's length, decoded from the 0 before it (assumption log). -/
def syncBits (access : Bool) (len : Nat) (bits : List Bool) : List Bool :=
  if access then (diffDecode false (bits.take len).reverse).reverse else bits.take len
/-- Hamming distance of the latest bits to the sync word, once there are enough bits. -/
def Dev.nbDist (d : Dev) (n : Nat) (access : Bool) (bits : List Bool) : Option Nat :=
  let (w, len) := d.nbSync n access
  if bits.length < len then none
  else
    let got := syncBits access len bits
    some (sumNat ((upTo len).map fun i => b2n (nth false got i != bitAt w i)))

/-- Length of the preamble window and of the preamble (R271, R278). -/
def Dev.nbWin (d : Dev) (n : Nat) (access : Bool) : Nat := if access then 16 else min 8 (d.rf (NBB_CHn_FMT_PRE_LEN n))
/-- Correlation of a context's latest symbols: with the alternating preamble, or with the first 16 symbols of the access sequence as the air has them. -/
def Dev.nbCorr (d : Dev) (n : Nat) (access : Bool) (c : NbCtx) : Nat :=
  if access then
    let enc := diffEncode false ((upTo 16).map fun i => bitAt accessSync (40 - i))
    corrOf c.soft (enc.reverse.map fun b => if b then 1 else -1) false
  else corrOf c.soft ((upTo (d.nbWin n false)).map fun i => (if i % 2 = 0 then 1 else -1) * (if d.nbLog2M n = 2 then 3 else 1)) true
/-- A context one symbol on. It demodulates on its timing, which the primary fixes once its window is full and the shadow estimates anew every symbol
(R271, R272): with a new timing its window is demodulated again. -/
def Dev.nbTick (d : Dev) (n : Nat) (access : Bool) (x : NbChan) (shadow : Bool) (estimate : Nat) (c : NbCtx) : NbCtx :=
  let win := d.nbWin n access
  let age := c.age + 1
  let bitsOf (l : List Int) : List Bool := l.flatMap fun v => (discBits (d.nbLog2M n) v).reverse
  if shadow || (c.timing.isNone && decide (win ≤ age)) then
    let l := d.nbDiscs n x.past estimate win
    let old := c.bits.drop ((win - 1) * d.nbLog2M n)
    { c with age := age, timing := some estimate, soft := l, bits := (bitsOf l ++ old).take 64 }
  else
    let l := d.nbDiscs n x.past (c.timing.getD x.timing) 1
    { c with age := age, soft := (l ++ c.soft).take 16, bits := (bitsOf l ++ c.bits).take 64 }

/-- The primary's part of a symbol in QUALIFY: it locks, fails, or goes on. -/
inductive NbQual where
  | locks (dist : Nat)
  | fails
  | goes (c : NbCtx)
  deriving DecidableEq, Repr
def Dev.nbPrimary (d : Dev) (n : Nat) (access : Bool) (c : NbCtx) (corr : Nat) : NbQual :=
  let pre := d.rf (NBB_CHn_FMT_PRE_LEN n)
  let c1 : NbCtx := if c.pass.isNone && decide (d.nbWin n access ≤ c.age) && decide (d.rf (NBB_CHn_QUAL_CORR_TH n) ≤ corr) then
    { c with pass := some c.age } else c
  match c1.pass with
  | none => if pre ≤ c1.age then .fails else .goes c1
  | some a =>
    match d.nbDist n access c1.bits with
    | some h => if h ≤ d.rf (NBB_CHn_FMT_SYNC_HD n) then .locks h
      else if a + pre + (d.nbSync n access).2 / d.nbLog2M n ≤ c1.age then .fails else .goes c1
    | none => if a + pre + (d.nbSync n access).2 / d.nbLog2M n ≤ c1.age then .fails else .goes c1

/-- The shadow's part: its correlation against the primary's; a pass stays while its correlation stands at the threshold. -/
def Dev.nbShadow (d : Dev) (n : Nat) (access : Bool) (c : NbCtx) (corr shCorr : Nat) : NbCtx :=
  let beat := decide (d.nbWin n access ≤ c.age) && decide (d.rf (NBB_CHn_QUAL_CORR_TH n) ≤ shCorr)
  { c with pass := if beat then c.pass.orElse (fun _ => some c.age) else none, wins := if beat && decide (corr + 32 ≤ shCorr) then c.wins + 1 else 0 }

/-- A candidate: the primary begins, and the shadow on the next symbol. -/
def candidate (x : NbChan) : NbChan :=
  { x with prim := some ⟨0, none, none, 0, x.soft, x.bits⟩, shadow := some ⟨0, none, none, 0, x.soft, x.bits⟩, took := false, lock := none }

/-- Mean of a list of readings, its rounding open. -/
def Dev.nbMean (d : Dev) (l : List Int) : Dev × Int :=
  let s := l.foldl (· + ·) 0
  let n : Int := max 1 l.length
  if s % n = 0 then (d, s / n) else let f := d.fresh 2; (f.1, s / n + f.2)

/-- Bits the payload of the packet still being received holds in all; none: its length byte is not complete (R275). -/
def Dev.nbNeed (d : Dev) (n : Nat) (k : NbLock) : Option Nat :=
  if k.gsm then some 36
  else if d.flag (NBB_CHn_FMT_LEN_MODE n) then
    if k.bits.length < 8 then none else some (8 * (ofBitsMsb ((k.bits.reverse.take 8).map (· == 1)) + 1))
  else some (8 * d.rf (NBB_CHn_PLEN_PAYLOAD n))
/-- The packet is complete. -/
def Dev.nbWhole (d : Dev) (n : Nat) (k : NbLock) : Bool := match d.nbNeed n k with
  | some b => decide (b ≤ k.bits.length)
  | none => false

/-- Receive mode of the timeslot that a GSM channel is in, its index, and its burst's start, RXOFS included, in front-end time (R278). -/
def Dev.gsmSlot (d : Dev) (n : Nat) : Nat × Nat × Nat :=
  let tl := d.nbTl n
  let ofs := toSigned 32 (d.reg (rDFE_CCc_RXOFS (d.nbCc n)))
  let k := d.gridIndex tl (afterTicks d.feNow (-ofs))
  (bitsAt (d.rf (NBB_CHn_GSM_TN_MODE n)) (2 * (k % 8)) 2, k, d.phaseTime tl k ofs)

/-- `num` / `den` to the nearest, halves up. -/
def nearest (num den : Nat) : Nat := (2 * num + den) / (2 * max 1 den)
/-- The access delay in quarter symbols (R278): how much later than at delay 0, after 8 + 41 symbols of the burst, its sequence ended. -/
def Dev.nbDelay (d : Dev) (n : Nat) (x : NbChan) (m : NbMeas) : Int :=
  let sym := d.nbSyms n 1
  let late : Int := (d.feNow + sym * x.timing / 2 ^ 16 : Nat) - ((d.gsmSlot n).2.2 + d.nbSyms n 49 : Nat)
  let low := 4 * late / (max 1 sym : Nat)
  if 4 * late % (max 1 sym : Nat) = 0 then low else nearFig low m.quarter

/-- LOCK (R270, R271, R273): the AGC freezes, the shadow stops; a packet without payload is complete at once. -/
def Dev.nbLockNow (d : Dev) (n : Nat) (access : Bool) (x : NbChan) (c : NbCtx) (m : NbMeas) (dist : Nat) : Dev :=
  let tl := d.nbTl n
  let k := d.gridIndex tl d.now
  let len := (d.nbSync n access).2
  let y : NbChan := { x with prim := none, shadow := none, took := false, timing := c.timing.getD x.timing }
  let r := d.nbMean (x.rssi.take (max 1 (len / d.nbLog2M n)))
  let lk : NbLock := {
    k := k, ns := nearest (d.now - d.boundaryT tl k) (2 ^ 32), rssi := r.2, nf := toSigned 16 (d.rf (NBB_CHn_FLOOR_NF n)),
    ferr := m.ferr, dist := dist, timing := if access then ofSigned 16 (d.nbDelay n y m) else 0, shadow := x.took, seen := false, sat := false, gsm := access,
    maxb := d.nbMaxb n access, bits := [], syms := 0, rise := 0, fade := 0, last := nth false (syncBits access len c.bits) 0 }
  let d1 := r.1.bump (NBB_CHn_LOCKS n)
  if d1.nbWhole n lk then (d1.nbReport n lk 0).nbSet n { y with lock := none } 2
  else d1.nbSet n { y with lock := some lk } 4

/-- A symbol in QUALIFY; `late`: no lock may come any more (R278). -/
def Dev.nbQualify (d : Dev) (n : Nat) (access : Bool) (x : NbChan) (m : NbMeas) (late : Bool) : Dev :=
  match x.prim with
  | none => d.nbSet n x 2
  | some p0 =>
    let p := d.nbTick n access x false m.prim p0
    let corr := d.nbCorr n access p
    let sh := x.shadow.map fun s => let t := d.nbTick n access x true m.shad s; d.nbShadow n access t corr (d.nbCorr n access t)
    let takes (q : Bool) (s : NbCtx) : Bool := decide (2 ≤ s.wins) || (q && s.pass.isSome)
    let beat (s : NbCtx) : Dev :=
      (d.bump (NBB_CHn_FALSE_CAND n)).nbSet n { x with prim := some s, shadow := some ⟨0, none, none, 0, s.soft, s.bits⟩, took := true, soft := s.soft, bits := s.bits } 3
    let fail : Dev := (d.bump (NBB_CHn_FALSE_CAND n)).nbSet n { x with prim := none, shadow := none, took := false } 2
    match d.nbPrimary n access p corr with
    | .locks h => if late then fail else d.nbLockNow n access x p m h
    | .fails => match sh with
      | some s => if takes true s && !late then beat s else fail
      | none => fail
    | .goes c => match sh with
      | some s => if late then fail else if takes false s then beat s else d.nbSet n { x with prim := some c, shadow := some s } 3
      | none => if late then fail else d.nbSet n { x with prim := some c } 3

/-- An LLR8 of a bit, positive for 0 (R192), of an open magnitude. -/
def softValue (bit : Bool) (mag : Nat) : Int := if bit then -(min 127 mag : Nat) else (min 127 mag : Nat)
/-- A symbol in LOCK: completion, then capture, then fade (R273, R274). -/
def Dev.nbLocked (d : Dev) (n : Nat) (x : NbChan) (k0 : NbLock) (m : NbMeas) : Dev :=
  let lm := d.nbLog2M n
  let bit := if 0 ≤ m.disc then k0.last else !k0.last
  let new := if k0.gsm then [ofSigned 8 (softValue bit m.mag)] else ((discBits lm m.disc).map b2n).reverse
  let rssi := m.rssi
  let up := decide (k0.rssi + 2 * (d.rf (NBB_CHn_DET_CAP_TH n) : Int) ≤ rssi)
  let down := decide (rssi < toSigned 16 (d.rf (NBB_CHn_FLOOR_NF n)) + (d.rf (NBB_CHn_DET_MARGIN n) : Int))
  let k : NbLock := { k0 with last := bit, bits := new ++ k0.bits, syms := k0.syms + 1, rise := if up then k0.rise + 1 else 0,
                              fade := if down then k0.fade + 1 else 0, sat := k0.sat || m.sat }
  let stop (d : Dev) (k : NbLock) (reason : Nat) : Dev := (d.nbReport n k reason).nbSet n { x with lock := none } 2
  if d.nbWhole n k then stop d { k with bits := k.bits.drop (k.bits.length - ((d.nbNeed n k).getD 0)) } 0
  else if decide (2 ≤ k.rise) && !k.seen then
    if d.rf (NBB_CHn_MOD_CAPTURE_MODE n) = 0 then
      let per := if k.gsm then 1 else lm
      let cut : NbLock := { k with bits := k.bits.drop (2 * per), syms := k.syms - 2 }
      ((d.bump (NBB_CHn_CAP_SWITCH n)).nbReport n cut 1).nbSet n (candidate { x with lock := none }) 3
    else
      let d1 := d.bump (NBB_CHn_CAP_LOST n)
      if 8 ≤ k.fade then stop d1 { k with seen := true } 2 else d1.nbSet n { x with lock := some { k with seen := true } } 4
  else if 8 ≤ k.fade then stop d k 2
  else d.nbSet n { x with lock := some k } 4

/-- When the next symbol of a receiver ends. -/
def Dev.nbNext (d : Dev) (n : Nat) (x : NbChan) : Nat := x.symAt + d.nbSyms n (x.syms + 1)
/-- What the source chain has brought since it was last read, the AGC's gains over the symbol's quarters, and the open estimates of R267-R272. -/
structure NbInput where
  ins : List (BitVec 24)
  gains : List Nat
  prim : Nat
  shad : Nat
  mag : Nat
  gain : Nat
  ferr : Nat
  quarter : Int
  level : Int
  deriving DecidableEq, Repr
/-- The receiver at the end of its next symbol, and what it measured: samples, RSSI, the AGC's output over the symbol's quarters, and what the discriminator
makes of it. -/
def Dev.nbMeasure (d : Dev) (n : Nat) (x : NbChan) (i : NbInput) : Dev × NbChan × NbMeas :=
  let d1 := d.advanceTo (d.nbNext n x)
  let r := d1.nbSamples n 1 i.ins
  let sps := d.nbSps n
  let rssi := rssiOf r.2 i.level
  let levels := (rssi :: x.rssi).take 41
  let frozen := x.lock.isSome
  let last := if frozen then x.gain else agcGoes r.2 levels i.gain
  let gainOf (k : Nat) : Nat := let q := 4 * k / sps; if frozen then x.gain else if q = 3 then last else nth x.gain i.gains q
  let ys := (r.2.zip (upTo sps)).map fun s => agcOut frozen (gainOf s.2) s.1
  let past := x.past ++ ys.map (·.1)
  let past := past.drop (past.length - 24 * sps)
  let v := (d.nbDiscs n past x.timing 1).headD 0
  (r.1, { x with syms := x.syms + 1, rssi := levels, past := past, gain := last, soft := (v :: x.soft).take 16,
                 bits := ((discBits (d.nbLog2M n) v).reverse ++ x.bits).take 64 },
   ⟨r.2, rssi, ys.any (·.2), v, i.prim, i.shad, i.mag, i.ferr, i.quarter⟩)

/-- NB_SYMBOL_END. -/
def Dev.nbSymbol (d : Dev) (n : Nat) (i : NbInput) : Dev :=
  match Tab.find d.nbb.chans n with
  | none => d
  | some x0 =>
    if !d.nbRxOn n then d
    else
      let r := d.nbMeasure n x0 i
      let x := r.2.1
      let m := r.2.2
      let d1 := r.1.wf (NBB_CHn_RSSI n) (ofSigned 16 m.rssi)
      let slot := d1.gsmSlot n
      let access := d1.nbCarrier n
      let st := d1.rf (NBB_CHn_STS_STATE n)
      let late := access && decide (slot.2.2 + d1.nbSyms n 112 < d1.feNow)
      if access && slot.1 != 2 && st != 4 then
        if st = 3 then (d1.bump (NBB_CHn_FALSE_CAND n)).nbSet n { x with prim := none, shadow := none, took := false } 2 else d1.nbSet n x st
      else match st with
      | 2 =>
        let th := toSigned 16 (d1.rf (NBB_CHn_FLOOR_NF n)) + 2 * (d1.rf (NBB_CHn_DET_MARGIN n) : Int)
        if decide (th ≤ m.rssi) && !late then d1.nbSet n (candidate x) 3 else d1.nbSet n x 2
      | 3 => d1.nbQualify n access x m late
      | 4 => match x.lock with
        | some k => d1.nbLocked n x k m
        | none => d1.nbSet n x 2
      | _ => d1.nbSet n x st
def execNbSymbolEnd (n : Fin 256) (ins : List (BitVec 24)) (gains : List Word) (prim shad : BitVec 16) (mag : Byte) (gain : Word)
    (ferr quarter level : BitVec 16) (s : State) : Res :=
  s.act fun d => d.nbSymbol n ⟨ins, gains.map (·.toNat), prim.toNat, shad.toNat, mag.toNat, gain.toNat, ferr.toNat, quarter.toInt, level.toInt⟩

/-- The training sequences of set 1 of TS 45.002 (PRESUMED, assumption log), first bit most significant. -/
def trainSeq (tsc : Nat) : Nat :=
  nth 0 [0b00100101110000100010010111, 0b00101101110111100010110111, 0b01000011101110100100001110, 0b01000111101101000100011110,
    0b00011010111001000001101011, 0b01001110101100000100111010, 0b10100111110110001010011111, 0b11101111000100101110111100] tsc
/-- What GSM_BURST_RX brings: which training sequence the channel has (no register names one), what the source chain has brought, the AGC's gain and the
magnitudes of the soft values; the open estimates and roundings. -/
structure NbBurst where
  tsc : Nat
  pick : Nat
  level : Int
  ferr : Nat
  up : Bool
  ins : List (BitVec 24)
  gain : Nat
  mags : List Byte
  deriving DecidableEq, Repr
/-- The burst's samples after the AGC: eight symbols before it, and its 156. -/
abbrev burstLead : Nat := 8
/-- Correlation of the training sequence with burst bits 61-86, `q` quarter symbols after the known timing; the symbol of its first bit depends on
the data before it and is left out. -/
def trainCorr (m : NbMod) (l : List Smp) (tsc : Nat) (q : Int) : Nat :=
  let bits := (upTo 26).map fun i => bitAt (trainSeq tsc) (25 - i)
  let enc := (diffEncode false bits).drop 1
  let at_ (k : Nat) : Nat := (4 * (burstLead + k + 1 : Nat) + q).toNat
  corrOf ((upTo 25).map fun i => discAt m 4 l 0 (at_ (62 + i))) (enc.map fun b => if b then 1 else -1) false
/-- The offset of the largest correlation within four symbols; among equals, `pick` says which. -/
def trainAt (m : NbMod) (l : List Smp) (tsc pick : Nat) : Int × Nat :=
  let all := (upTo 33).map fun (i : Nat) => ((i : Int) - 16, trainCorr m l tsc ((i : Int) - 16))
  let top := all.foldl (fun a x => max a x.2) 0
  let best := all.filter fun x => x.2 = top
  nth (0, 0) best (pick % max 1 best.length)
/-- Burst bits 3-60 and 87-144, decoded from the training sequence outwards (assumption log). -/
def burstBits (m : NbMod) (l : List Smp) (tsc : Nat) (q : Int) : List Bool :=
  let step (k : Nat) : Bool := decide (0 ≤ discAt m 4 l 0 (4 * (burstLead + k + 1 : Nat) + q).toNat)
  let before := diffDecode (bitAt (trainSeq tsc) 25) ((upTo 58).map fun i => step (61 - i))
  before.reverse ++ diffDecode (bitAt (trainSeq tsc) 0) ((upTo 58).map fun i => step (87 + i))

/-- GSM_BURST_RX: a NORMAL burst of channel `n` has been demodulated (R278). -/
def Dev.gsmBurst (d : Dev) (n : Nat) (b : NbBurst) : Dev :=
  let slot := d.gsmSlot n
  if !d.nbCarrier n || !d.flag (NBB_CHn_CTL_RX_EN n) || !d.nbRxOn n || slot.1 != 1 then d
  else
    let r := (d.advanceTo (d.feTime (slot.2.2 + d.nbSyms n 156))).nbSamples n (burstLead + 156) b.ins
    let m := d.nbModOf n
    let l := r.2.map fun s => (agcOut false b.gain s).1
    let at_ := trainAt m l b.tsc b.pick
    let tl := d.nbTl n
    let k : NbLock := {
      k := slot.2.1, ns := nearest (slot.2.2 - d.boundaryT tl slot.2.1) (2 ^ 32), rssi := rssiOf (r.2.drop (4 * burstLead)) b.level,
      nf := toSigned 16 (d.rf (NBB_CHn_FLOOR_NF n)), ferr := b.ferr, dist := min 255 (at_.2 + b2n b.up), timing := ofSigned 16 at_.1, shadow := false,
      seen := false, sat := false, gsm := true, maxb := 116,
      bits := (((burstBits m l b.tsc at_.1).zip b.mags).map fun x => ofSigned 8 (softValue x.1 x.2.toNat)).reverse, syms := 116, rise := 0, fade := 0, last := false }
    r.1.nbReport n k 0
/-- `seen`: the chain's samples, the AGC's gain, 116 magnitudes. -/
def execGsmBurstRx (n : Fin 256) (tsc : Fin 8) (pick level ferr : BitVec 16) (up : Bool) (seen : List (BitVec 24) × Word × List Byte) (s : State) : Res :=
  s.act fun d => d.gsmBurst n ⟨tsc, pick.toNat, level.toInt, ferr.toNat, up, seen.1, seen.2.1.toNat, seen.2.2⟩

/-! ### Reports (R276) -/

/-- NB_RX_REPORT: the oldest report is posted: its data in the oldest long enough buffer, or NO_BUFFER, whose TAG is 0xFFFF (DESIGN CHOICE, assumption
log). A report for which the pair has no room is lost before any buffer is used (R89). -/
def Dev.nbPost (d : Dev) : Dev :=
  match d.nbb.reports with
  | [] => d
  | r :: rest =>
    let d0 : Dev := { d with nbb.reports := rest }
    match r.pair with
    | none => d0
    | some m =>
      let k := r.lock
      let fl := 4 * b2n k.seen + 8 * b2n k.shadow + 16 * b2n k.gsm + 32 * b2n k.sat
      let body (n1 reason : Nat) := upBody [(8, 1, r.ch), (9, 1, r.tl), (10, 2, k.k % 65536), (12, 4, k.ns), (16, 4, n1), (20, 2, k.syms),
        (22, 2, ofSigned 16 k.rssi), (24, 2, ofSigned 16 k.nf), (26, 2, k.ferr), (28, 1, k.dist), (29, 1, reason), (30, 2, if k.gsm then k.timing else 0)]
      let d1 := if 1 ≤ r.reason then d0.bump (NBB_CHn_TRUNC r.ch) else d0
      match takeBuf (d1.qp (64 + m)).ulbufs k.maxb with
      | some (b, t) =>
        if d1.upRoom m then
          (((d1.updQp (64 + m) fun x => { x with ulbufs := t }).hostWrite b.addr r.data)).up m b.tag okS 0x83 fl (body r.data.length r.reason) r.data
        else d1.up m b.tag okS 0x83 fl (body r.data.length r.reason)
      | none => (d0.bump (NBB_CHn_NOBUF r.ch)).up m 0xFFFF okS 0x83 fl (body 0 5)
def execNbRxReport (s : State) : Res := s.act fun d => d.nbPost

/-! ### Group changes (R280) -/

/-- A committed group changed MOD, RATE, SHAPE, OFFSET, FMT or PLEN of a running channel. -/
def Dev.nbChanged (d : Dev) (n : Nat) : Dev := if (Tab.find d.nbb.chans n).isSome then d.nbAbandon n 3 1 else d

end Sys2Proof.Machine
end

