-- ==== Sys2Proof/Machine/Carrier.lean ====
section
/-! DEFINITION. Carriers: the checks of remote ones, the carrier commands, and their boundaries (R41, R43, R80, R82, R230, R277, R380-R382,
R530). -/

namespace Sys2Proof.Machine

/-! ### Remote carriers (R380, R382) -/

/-- PRBs a frame of stream `s` carries with mantissas of `m` bits (R382). -/
def Dev.maxPrb (d : Dev) (s m : Nat) : Nat :=
  let k := d.rf (ETH_ST_s_CFG_LINK s)
  let room := d.rf (ETH_Pp_FRAME_MAX (k / 4)) - 36 - (if d.flag (ETH_Lk_MSEC_ENABLE k) then 32 else 0)
  min 255 (room / (1 + 3 * m))
/-- Bytes of the frames of one symbol-port of stream `s`, in one direction. -/
def Dev.symBytes (d : Dev) (s nrb : Nat) (dl : Bool) : Nat :=
  let m := d.rf (if dl then ETH_ST_s_COMP_DL_M s else ETH_ST_s_COMP_UL_M s)
  let k := d.rf (ETH_ST_s_CFG_LINK s)
  ceilDiv nrb (max 1 (d.maxPrb s m)) * (36 + if d.flag (ETH_Lk_MSEC_ENABLE k) then 32 else 0) + nrb * (1 + 3 * m)
/-- Symbols of a carrier in 1 ms. -/
def symsPerMs (x : CcSpec) : Nat := (if x.ecp then 12 else 14) * (x.scs / 15)
/-- Bytes per ms of carrier `x` on link `k` in one direction. -/
def Dev.linkBytes (d : Dev) (x : CcSpec) (k : Nat) (dl : Bool) : Nat :=
  sumNat ((upTo (min 64 x.count)).map fun p =>
    let s := x.first + p
    if d.rf (ETH_ST_s_CFG_LINK s) = k ∧ d.flag (if dl then ETH_ST_s_CFG_DL_EN s else ETH_ST_s_CFG_UL_EN s) then
      symsPerMs x * d.symBytes s x.nrb dl else 0)
/-- Bytes per ms at the rate of link `k`. -/
def Dev.linkRate (d : Dev) (k : Nat) : Nat :=
  match d.rf (ETH_Pp_CFG_SPLIT (k / 4)) with
  | 0 => 50000000
  | 1 => 25000000
  | _ => 12500000
/-- Firmware's count exceeds 95 % of a link's rate. -/
def Dev.overLoad (d : Dev) (all : List CcSpec) : Bool :=
  (upTo 16).any fun k => [true, false].any fun dl => decide (95 * d.linkRate k < 100 * sumNat (all.map fun y => d.linkBytes y k dl))

/-- A stream of a carrier is unusable: no direction, its port not enabled, its radio untagged, or no PRB fits its frames. -/
def Dev.streamBad (d : Dev) (s : Nat) : Bool :=
  let k := d.rf (ETH_ST_s_CFG_LINK s)
  (!d.flag (ETH_ST_s_CFG_DL_EN s) && !d.flag (ETH_ST_s_CFG_UL_EN s)) || !d.flag (ETH_Pp_CTL_ENABLE (k / 4)) ||
  !d.flag (ETH_RAD_r_VLAN_TAGGED (d.rf (ETH_ST_s_CFG_RADIO s))) ||
  (d.flag (ETH_ST_s_CFG_DL_EN s) && d.maxPrb s (d.rf (ETH_ST_s_COMP_DL_M s)) == 0) ||
  (d.flag (ETH_ST_s_CFG_UL_EN s) && d.maxPrb s (d.rf (ETH_ST_s_COMP_UL_M s)) == 0)

/-- The checks of R380 that remote carrier `x` fails, each with the registers that take part; `cmd` adds those of a command's bandwidth. -/
def Dev.ethFails (d : Dev) (x : CcSpec) (others : List CcSpec) (cmd : Bool) : List (List Nat) :=
  let c := x.cc
  let f (bad : Bool) (l : List Nat) : List (List Nat) := if bad then [rETH_CCc_CTL c :: l] else []
  let range := decide (x.first + x.count ≤ 384)
  let streams := if range then (upTo (min 64 x.count)).map (x.first + ·) else []
  let epoch := d.rf64 ⟨rTMU_AIR_EPOCH_LO, 0, 32⟩ ⟨rTMU_AIR_EPOCH_HI, 0, 32⟩
  let n := x.tl
  f (decide (2 ≤ x.std) || (x.std == 1 && (x.scs != 15 || x.ecp)) || (x.std == 0 && x.ecp && x.scs != 60) || (cmd && !numerologyOk x)) [rETH_CCc_CFG c] ++
  f (x.nrb == 0 || decide (273 < x.nrb) || (cmd && !blocksOk x)) [rETH_CCc_NRB c] ++
  f (x.count == 0 || decide (64 < x.count) || !range) [rETH_CCc_PORTS c] ++
  (others.filter fun y => chainsMeet x y).flatMap (fun y => f true [rETH_CCc_PORTS c, rETH_CCc_PORTS y.cc, rETH_CCc_CTL y.cc]) ++
  (streams.filter d.streamBad).flatMap (fun s =>
    f true [rETH_CCc_PORTS c, rETH_ST_s_CFG s, rETH_RAD_r_VLAN (d.rf (ETH_ST_s_CFG_RADIO s)), rETH_Pp_CTL (d.rf (ETH_ST_s_CFG_LINK s) / 4)]) ++
  f ((1000000000 * epoch + 1000000 * d.rf (TMU_TLn_OFFSET n) - d.rf (TMU_TLn_OFFSET n)) % 1000000 != 0) [rETH_CCc_CFG c] ++
  f (range && d.overLoad (x :: others)) ([rETH_CCc_PORTS c, rETH_CCc_NRB c, rETH_CCc_CFG c] ++ others.flatMap fun y =>
    [rETH_CCc_CTL y.cc, rETH_CCc_PORTS y.cc, rETH_CCc_NRB y.cc]) ++
  f (decide (0xBFF < x.rxevt + 13)) [rETH_CCc_RXEVT c]

/-- Placed remote carriers but `c`. -/
def Dev.ethOthers (d : Dev) (c : Nat) : List CcSpec := ((upTo 256).filter fun o => o != c && d.ethCcOn o).map d.ethSpec

/-- ETH_CARRIER_ENABLE: a remote carrier is placed if R380 lets it. -/
def Dev.ethCtlWr (d : Dev) (init : Initiator) (c value : Nat) : Dev :=
  (d.enableWr init (rETH_CCc_CTL c) value (ETH_CCc_CTL_ENABLE c)
    fun e => e.ccOn c || !(e.ethFails (e.ethSpec c) (e.ethOthers c) false).isEmpty).1
def execEthCarrierEnable (init : Initiator) (c : Fin 256) (value : Word) (s : State) : Res :=
  s.act fun d => d.ethCtlWr init c value.toNat

/-! ### Carrier commands (R82) -/

/-- A carrier's ports are remote streams. -/
def CarrierPar.remote (p : CarrierPar) : Bool := decide (128 ≤ p.firstPort)
/-- The checks' view of a command's carrier: streams count from AP_128. -/
def Dev.cmdSpec (d : Dev) (cc tl : Nat) (p : CarrierPar) : CcSpec :=
  let x := d.parSpec cc tl p
  if p.remote then { x with first := p.firstPort - 128 } else x

/-- The removal of context `c` is staged on timeline `n` for no later boundary than `target`. -/
def Dev.goneBy (d : Dev) (c n target : Nat) : Bool :=
  d.fw.staged.any fun e => match e.eff with
    | .carrierRemove x => x == c && e.tl == n && decide (ahead (d.refK n) e.target ≤ ahead (d.refK n) target)
    | _ => false

/-- The carriers beside which a command for context `cc` is judged: those placed, those waiting and the changes waiting, less those
removed by then. -/
def Dev.cmdOthers (d : Dev) (cc n target : Nat) (remote : Bool) : List CcSpec :=
  let placed := (if remote then d.ethOthers cc else d.ccOthers cc).filter fun x => !d.goneBy x.cc n target
  let waiting := d.fw.staged.filterMap fun e => match e.eff with
    | .carrierAdd c p _ _ | .carrierModify c p _ => if c ≠ cc ∧ p.remote = remote ∧ !d.goneBy c n target then some (d.cmdSpec c e.tl p) else none
    | _ => none
  placed ++ waiting

/-- A carrier slot's length in ns (R227), 0 for GSM. -/
def slotNs (p : CarrierPar) : Nat := match p.std with
  | 0 => 15000000 / max 1 p.scsKhz
  | 1 => 1000000
  | _ => 0

/-- A command's carrier fails a check of its own values or of the front end or engine. -/
def Dev.carBad (d : Dev) (cc n target : Nat) (p : CarrierPar) : Bool :=
  let gsm := p.std == 2
  decide (256 ≤ cc) || decide (2 < p.std) || decide (1 < p.duplex) || decide (15 < p.pattern) || decide (63 < p.upq) ||
  (decide (64 ≤ p.firstPort) && decide (p.firstPort < 128)) || d.rf (TMU_TLn_CFG_KIND n) != (if gsm then 1 else 0) ||
  (if gsm then p.scsKhz != 0 || decide (8 < p.portCount) else nrbOf p.std p.scsKhz p.bwKhz == 0 || decide (slotNs p < d.periodNs n)) ||
  !(if p.remote then d.ethFails (d.cmdSpec cc n p) (d.cmdOthers cc n target true) true
    else d.ccFails (d.cmdSpec cc n p) (d.cmdOthers cc n target false)).isEmpty

def carPar (c : PqCmd) : CarrierPar :=
  ⟨pp c 1, pp c 2, pp c 3, pSigned c 4, pp c 5, pp c 6, pp c 7, pp c 8, pp c 9⟩

/-- CARRIER_ADD: staged; the command completes once staged. -/
def Dev.carrierAdd (d : Dev) (c : PqCmd) : Dev :=
  let cc := pp c 0
  let n := c.timeline.toNat
  let p := carPar c
  let chs := if p.std = 2 then d.gsmChannels p.portCount else some []
  d.checks c
    [(d.badTarget c || d.carBad cc n c.target.toNat p, badParam),
     ((Tab.find d.fw.carriers cc).isSome || d.ccOn cc || d.ethCcOn cc || chs.isNone, busyS)] fun d =>
      let d1 := d.stage c 0x0201 false (.carrierAdd cc p (hasMirror c) (chs.getD []))
      { d1 with fw.carriers := Tab.put d1.fw.carriers cc ⟨p, n, 1, 0, 0, hasMirror c, false⟩ }.fin c okS
def execCarrierAdd (c : PqCmd) (s : State) : Res := s.pq 0x0201 c fun d => d.carrierAdd c

/-- The addition of context `cc` is staged for a later boundary than `target`. -/
def Dev.addLater (d : Dev) (cc n target : Nat) : Bool :=
  d.fw.staged.any fun e => match e.eff with
    | .carrierAdd x _ _ _ => x == cc && decide (ahead (d.refK n) target < ahead (d.refK n) e.target)
    | _ => false

/-- CARRIER_MODIFY; a context being removed counts as absent. -/
def Dev.carrierModify (d : Dev) (c : PqCmd) : Dev :=
  let cc := pp c 0
  let n := c.timeline.toNat
  let p := carPar c
  let old := Tab.find d.fw.carriers cc
  let same := (old.map fun x => x.par.std == 2 && x.par.portCount == p.portCount).getD false
  d.checks c
    [(d.badTarget c || d.carBad cc n c.target.toNat p || !(old.map fun x => x.tl == n && x.state != 3).getD false || d.addLater cc n c.target.toNat, badParam),
     (p.std == 2 && !same && (d.gsmChannels p.portCount).isNone, busyS)] fun d =>
      (d.stage c 0x0202 false (.carrierModify cc p (hasMirror c))).fin c okS
def execCarrierModify (c : PqCmd) (s : State) : Res := s.pq 0x0202 c fun d => d.carrierModify c

/-- CARRIER_REMOVE. A context that is absent or on another timeline answers BAD_PARAM, one already being removed BUSY (DESIGN CHOICE, assumption
log 120: R82 gives no status for them). -/
def Dev.carrierRemove (d : Dev) (c : PqCmd) : Dev :=
  let cc := pp c 0
  let n := c.timeline.toNat
  let old := Tab.find d.fw.carriers cc
  d.checks c
    [(d.badTarget c || !(old.map fun x => x.tl == n).getD false || d.addLater cc n c.target.toNat, badParam),
     ((old.map fun x => x.state == 3).getD false, busyS)] fun d =>
      let d1 := d.stage c 0x0203 false (.carrierRemove cc)
      { d1 with fw.carriers := Tab.upd d1.fw.carriers cc fun x => { x with state := 3 } }.fin c okS
def execCarrierRemove (c : PqCmd) (s : State) : Res := s.pq 0x0203 c fun d => d.carrierRemove c

/-- CARRIER_STATUS. -/
def execCarrierStatus (c : PqCmd) (s : State) : Res :=
  s.pq 0x0204 c fun d =>
    d.checks c [(decide (256 ≤ pp c 0), badParam)] fun d =>
      match Tab.find d.fw.carriers (pp c 0) with
      | none => d.finR c [0, 0, 0, 0, 0]
      | some x => d.finR c [x.state, x.tl, x.served % 65536, x.drops, b2n (x.mirror && d.paired)]

/-! ### Their boundaries (R78, R228) -/

/-- Numerology code of a spacing. -/
def scsCode (khz : Nat) : Nat := match khz with | 30 => 1 | 60 => 2 | 120 => 3 | _ => 0

/-- Firmware writes a carrier's context and enables it. -/
def Dev.carWrite (d : Dev) (cc n : Nat) (p : CarrierPar) : Dev :=
  let nrb := p.nrb
  let cfg := p.std + 4 * scsCode p.scsKhz + 32 * p.duplex + 64 * p.pattern + 1024 * n
  if p.remote then
    ((((d.setReg (rETH_CCc_CFG cc) cfg).wf (ETH_CCc_PORTS_FIRST cc) (p.firstPort - 128)).wf (ETH_CCc_PORTS_COUNT cc) p.portCount).wf
      (ETH_CCc_NRB cc) nrb).setFlag (ETH_CCc_CTL_ENABLE cc) true
  else
    ((((((d.setReg (rDFE_CCc_CFG cc) cfg).wf (DFE_CCc_BW cc) p.bwKhz).setReg (rDFE_CCc_OFFSET cc) (ofSigned 32 p.offsetKhz)).wf
      (DFE_CCc_PORTS_FIRST cc) p.firstPort).wf (DFE_CCc_PORTS_COUNT cc) p.portCount).wf (DFE_CCc_NRB cc) nrb).setFlag (DFE_CCc_CTL_ENABLE cc) true
/-- The context stands on no ports. -/
def Dev.carClear (d : Dev) (cc : Nat) : Dev := (d.setFlag (DFE_CCc_CTL_ENABLE cc) false).setFlag (ETH_CCc_CTL_ENABLE cc) false

/-- The boundary of CARRIER_ADD. -/
def Dev.carAddNow (d : Dev) (cc n : Nat) (p : CarrierPar) (mirror : Bool) (chs : List Nat) : Dev :=
  let d1 := d.carWrite cc n p
  let d2 : Dev := { d1 with fw.carriers := Tab.put d1.fw.carriers cc ⟨p, n, (Tab.find d1.fw.carriers cc |>.map fun x => if x.state = 3 then 3 else 2).getD 2, (d.tl n).k, 0, mirror, true⟩,
                            fw.bind := Tab.put d1.fw.bind cc p.upq }
  d2.gsmPlace cc chs

/-- The boundary of CARRIER_MODIFY; a change that would fail there is not made. -/
def Dev.carModifyNow (d : Dev) (cc n : Nat) (p : CarrierPar) (mirror : Bool) : Dev :=
  match Tab.find d.fw.carriers cc with
  | none => d
  | some x =>
    let fails := if p.remote then d.ethFails (d.cmdSpec cc n p) (d.ethOthers cc) true else d.ccFails (d.cmdSpec cc n p) (d.ccOthers cc)
    if x.state = 1 ∨ !fails.isEmpty then d
    else
      let keep := x.par.std == 2 && p.std == 2 && x.par.portCount == p.portCount
      let d0 := if keep then d else d.gsmFree cc
      let chs := if p.std = 2 ∧ !keep then (d0.gsmChannels p.portCount).getD [] else []
      let d1 := (d0.carClear cc).carWrite cc n p
      { d1 with fw.carriers := Tab.put d1.fw.carriers cc { x with par := p, mirror := mirror }, fw.bind := Tab.put d1.fw.bind cc p.upq }.gsmPlace cc chs

/-- The boundary of CARRIER_REMOVE. -/
def Dev.carRemoveNow (d : Dev) (cc : Nat) : Dev :=
  let d1 := (((d.gsmFree cc).carClear cc).harqDropCarrier cc)
  { d1 with fw.carriers := Tab.del d1.fw.carriers cc }

end Sys2Proof.Machine
end

