-- ==== Sys2Proof/Machine/Eth.lean ====
section
/-! DEFINITION. The Ethernet engine: frames, the U-plane, the message path, timestamps, MACsec, and the references of the PLLs
(R376-R395, R401, R408). What the medium delivers, and what the cipher makes of it, reaches the device with the frame. -/

namespace Sys2Proof.Machine

/-! ### Time at the medium, associations (R389, R393) -/

/-- The big-endian number of `n` bytes at `i`. -/
def beAt (l : List Byte) (i n : Nat) : Nat := (upTo n).foldl (fun a j => 256 * a + (nth 0 l (i + j)).toNat) 0
/-- The ring stop of a port. -/
def ethStop (p : Nat) : Nat := 15 + p / 2
/-- Medium time of a frame captured now, received or sent on link `k`; the corrections are in 1/256 ns. -/
def Dev.rxStamp (d : Dev) (k : Nat) : Nat := d.now - (d.reg (rETH_Lk_RXLAT k) + d.rf (ETH_Lk_RX_SKEW k)) * 2 ^ 24
def Dev.txStamp (d : Dev) (k : Nat) : Nat := d.now + d.reg (rETH_Lk_TXLAT k) * 2 ^ 24

/-- MACSEC_SAK_INSTALL: firmware installs association `an` of a channel of link `k`, with a key slot; it is refused beyond 16 receive
channels; a channel keeps two associations, the transmit channel uses the new one. -/
def Dev.sakInstall (d : Dev) (k : Nat) (tx : Bool) (sci an slot : Nat) : Dev :=
  let mine (x : Sak) : Bool := x.link == k && x.tx == tx && (tx || x.sci == sci)
  let chans := ((d.eth.saks.filter fun x => x.link == k && !x.tx).map (·.sci)).eraseDups
  if !d.flag (ETH_Lk_MSEC_ENABLE k) || !d.domOn (57 + k / 4) || (!tx && decide (16 ≤ chans.length) && !chans.contains sci) then d
  else
    let old := (d.eth.saks.filter fun x => mine x && x.an != an)
    let d1 : Dev := { d with eth.saks := d.eth.saks.filter (fun x => !mine x) ++ old.drop (old.length - 1) ++ [⟨k, tx, sci, an, slot, 0⟩] }
    if tx then d1.setFlag (ETH_Lk_MSEC_SAK_READY k) true else d1
/-- MKA runs on link `k` with the CAK in volatile slot `v`, which boot named for the link and filled (R389, R449). -/
def State.mkaKey (s : State) (k v : Nat) : Bool := (s.sec.ckns.any fun x => x.1 == v && x.2.1 == k) && (Tab.find s.sec.keys v).isSome
def execMacsecSakInstall (k : Fin 16) (tx : Bool) (sci : BitVec 64) (an : Fin 4) (slot : Fin 16) (s : State) : Res :=
  s.act fun d => if s.mkaKey k slot then d.sakInstall k tx sci.toNat an slot else d

/-- The transmit association in use on link `k`: the last installed. -/
def Dev.txSak (d : Dev) (k : Nat) : Option Sak := (d.eth.saks.filter fun x => x.link == k && x.tx).getLast?
/-- A frame is on the medium. -/
def Dev.leaves (d : Dev) (w : Wire) : Dev := { d with eth.wire := d.eth.wire ++ [w] }
/-- What left before has gone by. -/
def Dev.wireGone (d : Dev) : Dev := { d with eth.wire := [] }
/-- A frame leaves on link `k`: the Bool says it was sent. A protected frame takes the next packet number, and is not sent without an
association or once the number is used up (PN_STOP). -/
def Dev.sendFrame (d : Dev) (k : Nat) (clear : Bool) (frame : List Byte) : Dev × Bool :=
  if !d.ethUp k then (d, false)
  else if !d.flag (ETH_Lk_MSEC_ENABLE k) || clear then ((d.leaves ⟨k, frame, none⟩).bump (ETH_Lk_TX_FRAMES k), true)
  else match d.txSak k with
  | none => (d, false)
  | some x =>
    if 0xFFFFFFFF ≤ x.pn then (d.bump (ETH_Lk_PN_STOP k), false)
    else
      let d1 : Dev := { d with eth.saks := d.eth.saks.map fun (y : Sak) => if y = x then { y with pn := y.pn + 1 } else y }
      ((d1.leaves ⟨k, frame, some (x.sci, x.an, x.pn + 1, d1.flag (ETH_Lk_MSEC_CONF k))⟩).bump (ETH_Lk_TX_FRAMES k), true)

/-! ### Timestamp queues (R394, R395) -/

def Dev.tsq (d : Dev) (p : Nat) : List TsEntry := Tab.getD (fun _ => []) d.eth.tsq p
/-- The queue of port `p` is `l`, and its registers show it; TSQ_OVF clears when it is empty. -/
def Dev.setTsq (d : Dev) (p : Nat) (l : List TsEntry) : Dev :=
  let d1 : Dev := { d with eth.tsq := Tab.setD (fun _ => []) d.eth.tsq p l }
  let h := l.head?.getD ⟨0xFFFF, 0, 0, 0⟩
  let d2 := ((((d1.wf (ETH_TSQ_p_STS_OCC p) l.length).wf (ETH_TSQ_p_HEAD_ID p) h.id).setFlag (ETH_TSQ_p_HEAD_INFO_VALID p) (!l.isEmpty)).wf
    (ETH_TSQ_p_HEAD_INFO_MSGTYPE p) h.msgType).wf (ETH_TSQ_p_HEAD_INFO_LINK p) h.link
  let d3 := d2.putTime (ETH_TSQ_p_HEAD_TS_i_TS p) h.time
  if l.isEmpty then d3.setFlag (ETH_TSQ_p_STS_TSQ_OVF p) false else d3
/-- A push; onto a full queue it drops the newest entry. -/
def Dev.tsPush (d : Dev) (p : Nat) (x : TsEntry) : Dev :=
  if 32 ≤ (d.tsq p).length then (d.bump (ETH_TSQ_p_DROPPED p)).setFlag (ETH_TSQ_p_STS_TSQ_OVF p) true
  else (d.setTsq p (d.tsq p ++ [x])).bump (ETH_TSQ_p_PUSHED p)
/-- TSQ_POP. -/
def Dev.tsPop (d : Dev) (init : Initiator) (p value : Nat) : Dev :=
  let r := d.busWr init (rETH_TSQ_p_CTL p) value
  match r.2 with
  | .no => r.1
  | .yes cmds => if bitAt cmds 0 && !(r.1.tsq p).isEmpty then (r.1.setTsq p ((r.1.tsq p).drop 1)).bump (ETH_TSQ_p_POPPED p) else r.1
def execTsqPop (init : Initiator) (p : Fin 4) (value : Word) (s : State) : Res := s.act fun d => d.tsPop init p value.toNat

/-! ### Message path (R388) -/

def Dev.mqBase (d : Dev) (p q : Nat) : Nat := d.rf (ETH_MQ_p_TXq_BASE_BASE_LO p q) * 64 + d.rf (ETH_MQ_p_TXq_CTL_BASE_HI p q) * 2 ^ 32
def Dev.mqSize (d : Dev) (p q : Nat) : Nat := 2 ^ d.rf (ETH_MQ_p_TXq_CTL_LOG2 p q)

/-- MSG_TX_TAIL_WRITE; an index past the ring is ignored, as at R67. -/
def Dev.msgTailWr (d : Dev) (init : Initiator) (p q value : Nat) : Dev :=
  let f := ETH_MQ_p_TXq_TAIL p q
  let off := rETH_MQ_p_TXq_TAIL p q
  let r := d.busWr init off value
  match r.2 with
  | .no => r.1
  | .yes _ => if d.mqSize p q ≤ r.1.rf f then (r.1.wf f (d.rf f)).regErr .ignored off init else r.1
def execMsgTxTailWrite (init : Initiator) (p : Fin 4) (q : Fin 4) (value : Word) (s : State) : Res :=
  s.act fun d => d.msgTailWr init p q value.toNat

/-- PTP messageType of a frame for MSGTYPE: EtherType 0x88F7, or UDP ports 319 and 320 over IPv4 or IPv6; otherwise 0xF. -/
def ptpType (f : List Byte) : Nat :=
  let o := if beAt f 12 2 = 0x8100 then 16 else 12
  let et := beAt f o 2
  let udp (h : Nat) : Nat := if beAt f (h + 2) 2 = 319 ∨ beAt f (h + 2) 2 = 320 then beAt f (h + 8) 1 % 16 else 0xF
  if et = 0x88F7 then beAt f (o + 2) 1 % 16
  else if et = 0x0800 ∧ beAt f (o + 11) 1 = 17 then udp (o + 2 + 4 * (beAt f (o + 2) 1 % 16))
  else if et = 0x86DD ∧ beAt f (o + 8) 1 = 17 then udp (o + 42)
  else 0xF

/-- MSG_TX_LAUNCH: the head entry of a TX queue is sent, `late` ns after its LAUNCH. -/
def Dev.msgLaunch (d : Dev) (p q late : Nat) : Dev :=
  let h := d.rf (ETH_MQ_p_TXq_HEAD p q)
  if !d.flag (ETH_Pp_CTL_ENABLE p) || !d.flag (ETH_MQ_p_TXq_CTL_ENABLE p q) || h == d.rf (ETH_MQ_p_TXq_TAIL p q) || !d.domRun (57 + p) then d
  else
    let a := d.mqBase p q + 32 * h
    let r := d.busRead (ethStop p) a 32
    let next (d : Dev) : Dev := d.wf (ETH_MQ_p_TXq_HEAD p q) ((h + 1) % d.mqSize p q)
    match r.2 with
    | none => next (r.1.health 8 5 (p + 4 * q))
    | some e =>
      let len := leAt e 16 2
      let k := 4 * p + leAt e 20 1 % 4
      let lns := nsT (leAt e 0 4 + 1000000000 * leAt e 4 4)
      let hi := r.1.now / nsT (1000000000 * 2 ^ 32) * nsT (1000000000 * 2 ^ 32)
      let d1 := if leAt e 0 8 = 0 then r.1 else r.1.advanceTo (hi + lns + nsT late)
      let bad := decide (len < 60) || decide (d1.rf (ETH_Pp_FRAME_MAX p) < len)
      let f := if bad then (d1, none) else d1.busRead (ethStop p) (leAt e 8 8) len
      let frame := f.2.getD []
      let x := if bad || f.2.isNone then (f.1, false)
        else f.1.wireGone.sendFrame k (f.1.flag (ETH_Lk_MSEC_PTP_CLEAR k) && beAt frame 12 2 == 0x88F7) frame
      let d2 := if x.2 && bitAt (leAt e 20 1) 2 then x.1.tsPush p ⟨leAt e 18 2, ptpType frame, k % 4, x.1.txStamp k⟩ else x.1
      let st := 1 + 2 * b2n (x.2 && decide (leAt e 0 8 ≠ 0) && decide (usT 10 < d2.now - (hi + lns))) + 4 * b2n (!x.2)
      next (d2.busWrite (ethStop p) none (a + 21) [BitVec.ofNat 8 st]).1
def execMsgTxLaunch (p : Fin 4) (q : Fin 4) (late : Nat) (s : State) : Res := s.act fun d => d.msgLaunch p q late

/-- Bytes of an RX slot. -/
def Dev.rxSlotBytes (d : Dev) (p : Nat) : Nat := ceilDiv (64 + d.rf (ETH_Pp_FRAME_MAX p)) 64 * 64
/-- A frame for the message path is stored, or dropped while the ring is full or off. -/
def Dev.msgRx (d : Dev) (k : Nat) (frame : List Byte) (secure : Bool) (t : Nat) : Dev :=
  let p := k / 4
  let tail := d.rf (ETH_MQ_p_RX_TAIL p)
  let next := (tail + 1) % d.mqSize p 4
  if !d.flag (ETH_MQ_p_TXq_CTL_ENABLE p 4) || next == d.rf (ETH_MQ_p_RX_HEAD p) || decide (d.rf (ETH_Pp_FRAME_MAX p) < frame.length) then
    d.bump (ETH_MQ_p_RX_DROP p)
  else
    let bytes := leBytes 2 frame.length ++ [BitVec.ofNat 8 (k % 4 + 4 * b2n secure), 0] ++ leBytes 16 (t128Nat t) ++ List.replicate 44 0 ++ frame
    let d1 := (d.busWrite (ethStop p) none (d.mqBase p 4 + d.rxSlotBytes p * tail) bytes).1.wf (ETH_MQ_p_RX_TAIL p) next
    let e := d1.rf (ETH_MQ_p_RX_EVT_EVT p)
    let n := d1.rf (ETH_MQ_p_RX_EVT_TL p)
    if 0x800 ≤ e ∧ (d1.tl n).started then d1.raiseEvent n ((d1.tl n).k % 65536) e else d1

/-! ### MACsec on receive (R377, R389) -/

/-- What MACsec makes of a frame: passed on as these bytes, protected or not; or failed. `plain` is what the cipher recovers, if the
frame's tag is right. -/
def Dev.msecRx (d : Dev) (k : Nat) (frame : List Byte) (plain : Option (List Byte)) : Option (List Byte × Bool) :=
  let strict := d.rf (ETH_Lk_MSEC_VALIDATE k) == 2
  if !d.flag (ETH_Lk_MSEC_ENABLE k) then some (frame, false)
  else if beAt frame 12 2 = 0x88E5 then
    let known := d.eth.saks.any fun x => x.link == k && !x.tx && x.sci == beAt frame 20 8 && x.an == beAt frame 14 1 % 4
    let stripped := frame.take 12 ++ (frame.drop 28).take (frame.length - 44)
    match plain with
    | some p => if known then some (p, true) else if strict || bitAt (beAt frame 14 1) 2 then none else some (stripped, false)
    | none => if strict || bitAt (beAt frame 14 1) 2 then none else some (stripped, false)
  else if (d.flag (ETH_Lk_MSEC_PTP_CLEAR k) && beAt frame 12 2 == 0x88F7) || !strict then some (frame, false)
  else none

/-! ### U-plane reception (R381, R384, R386, R387, R401) -/

/-- A U-plane frame's place: where its eCPRI header begins. -/
def ecpriAt (f : List Byte) : Option Nat :=
  if beAt f 12 2 = 0xAEFE then some 14 else if beAt f 12 2 = 0x8100 ∧ beAt f 16 2 = 0xAEFE then some 18 else none
/-- The stream a U-plane frame on link `k` matches. -/
def Dev.upStream (d : Dev) (k : Nat) (f : List Byte) : Option Nat :=
  match ecpriAt f with
  | none => none
  | some o =>
    if beAt f (o + 1) 1 ≠ 0 ∨ beAt f (o + 8) 1 % 16 ≠ 0 then none
    else (upTo 384).find? fun s => d.rf (ETH_ST_s_CFG_LINK s) == k && d.flag (ETH_ST_s_CFG_UL_EN s) && d.rf (ETH_ST_s_EAXC s) == beAt f (o + 4) 2 &&
      (let r := d.rf (ETH_ST_s_CFG_RADIO s)
       d.rf (ETH_RAD_r_MAC_HI r) * 2 ^ 32 + d.reg (rETH_RAD_r_MAC_LO r) == beAt f 6 6)

/-- The `i`-th field of `m` bits of a big-endian bit string. -/
def bitField (l : List Byte) (m i : Nat) : Nat :=
  let lo := i * m
  let n := lo % 8 + m
  let w := ceilDiv n 8
  beAt l (lo / 8) w / 2 ^ (8 * w - n) % 2 ^ m
/-- A PRB: exponent and 24 mantissas of `m` bits. -/
def parsePrb (b : List Byte) (m : Nat) : Nat × List Int := (beAt b 0 1 % 16, (upTo 24).map fun i => toSigned m (bitField (b.drop 1) m i))

/-- The air slot nearest to `t` that frame, subframe and slot numbers name (R401): its start in ns. -/
def Dev.slotNear (d : Dev) (frame sub slot len t : Nat) : Nat :=
  let e := 1000000000 * d.rf64 ⟨rTMU_AIR_EPOCH_LO, 0, 32⟩ ⟨rTMU_AIR_EPOCH_HI, 0, 32⟩ + frame * 10000000 + sub * 1000000 + slot * len
  let cyc : Int := 2560000000
  let m := ((t / 2 ^ 32 : Nat) - (e : Int) + cyc / 2) / cyc
  ((e : Int) + m * cyc).toNat

/-- The enabled remote carrier that uses stream `s`. -/
def Dev.streamCarrier (d : Dev) (s : Nat) : Option Nat :=
  (upTo 256).find? fun c => d.ethCcOn c && decide (d.rf (ETH_CCc_PORTS_FIRST c) ≤ s) && decide (s < d.rf (ETH_CCc_PORTS_FIRST c) + d.rf (ETH_CCc_PORTS_COUNT c))
/-- A symbol of remote carrier `c`. -/
def Dev.ethSym (d : Dev) (c k l : Nat) : SymAt := ⟨d.rf (ETH_CCc_CFG_TIMELINE c), d.rf (ETH_CCc_CFG_SCS c), d.flag (ETH_CCc_CFG_ECP c), k, l⟩
/-- Largest ULLATE, and DLADV, of a carrier's radios, in units of `now`. -/
def Dev.ccRadio (d : Dev) (c : Nat) (f : Nat → Fld) : Nat :=
  nsT ((upTo (d.rf (ETH_CCc_PORTS_COUNT c))).foldl (fun m p => max m (d.rf (f (d.rf (ETH_ST_s_CFG_RADIO (d.rf (ETH_CCc_PORTS_FIRST c) + p)))))) 0)

def Dev.ulSym (d : Dev) (c k l : Nat) : UlSym := (d.eth.syms.find? fun x => x.cc == c && x.k == k && x.sym == l).getD ⟨c, k, l, [], false⟩
def Dev.setUlSym (d : Dev) (x : UlSym) : Dev :=
  { d with eth.syms := d.eth.syms.filter (fun y => !(y.cc == x.cc && y.k == x.k && y.sym == x.sym)) ++ [x] }

/-- `v × 2^-s` rounded to nearest, ties to even. -/
def roundEven (v : Int) (s : Nat) : Int :=
  let q := v / (2 ^ s : Nat)
  let r := 2 * (v % (2 ^ s : Nat))
  if r < (2 ^ s : Nat) ∨ (r = (2 ^ s : Nat) ∧ q % 2 = 0) then q else q + 1
/-- A mantissa of exponent `e` as the symbol-port's sample (R384). -/
def ulSample (m e emax : Nat) (v : Int) : Int :=
  if emax ≤ 12 - m + e then v * (2 ^ (12 - m + e - emax) : Nat) else roundEven v (emax - (12 - m + e))

/-- A symbol-port's status and data (R384-R386), and whether it counts as missing: `ps` are its PRBs. -/
def portOut (m nrb : Nat) (en : Bool) (ps : List UlPrb) : Nat × List Byte × Bool :=
  let emax := ps.foldl (fun a p => max a p.exp) 0
  let whole := (upTo nrb).all fun b => ps.any (·.prb == b)
  let samples (b : Nat) : List Int := match ps.find? (·.prb == b) with
    | some p => p.mant.map (ulSample m p.exp emax)
    | none => List.replicate 24 0
  let bytes := (upTo nrb).flatMap fun b =>
    let l := samples b
    (upTo 12).flatMap fun i => leBytes 3 (ofSigned 12 (nth 0 l (2 * i)) + 4096 * ofSigned 12 (nth 0 l (2 * i + 1)))
  (emax + 32 * b2n (!whole), bytes, en && !whole)

/-- The symbol is finished: statuses and data go to its RX slot, missing symbol-ports are counted, its event is raised. -/
def Dev.ulFinish (d : Dev) (x : UlSym) (slot : Nat) (again : Bool) : Dev :=
  let c := x.cc
  let n := d.rf (ETH_CCc_CFG_TIMELINE c)
  let first := d.rf (ETH_CCc_PORTS_FIRST c)
  let count := d.rf (ETH_CCc_PORTS_COUNT c)
  let nrb := d.rf (ETH_CCc_NRB c)
  let out := (upTo count).map fun p =>
    let s := first + p
    portOut (d.rf (ETH_ST_s_COMP_UL_M s)) nrb (d.flag (ETH_ST_s_CFG_UL_EN s)) (x.prbs.filter (·.stream == s))
  let stop := ethStop (d.rf (ETH_ST_s_CFG_LINK first) / 4)
  let job := (x.k + 1) % 65536
  let w1 := d.busWrite stop (some (n, job)) (slot + 2 * x.sym * count) (out.flatMap fun o => leBytes 2 o.1)
  let w2 := w1.1.busWrite stop (some (n, job)) (slot + 1792 + x.sym * count * 36 * nrb) (out.flatMap fun o => o.2.1)
  let d1 := w2.1.setUlSym { x with closed := true }
  if again then d1
  else (d1.bumpBy (ETH_CCc_UL_MISSING c) (out.filter fun o => o.2.2).length).raiseEvent n job (d.rf (ETH_CCc_RXEVT c) + x.sym)

/-- Every enabled stream of the carrier has delivered all its PRBs. -/
def Dev.ulWhole (d : Dev) (x : UlSym) : Bool :=
  (upTo (d.rf (ETH_CCc_PORTS_COUNT x.cc))).all fun p =>
    let s := d.rf (ETH_CCc_PORTS_FIRST x.cc) + p
    !d.flag (ETH_ST_s_CFG_UL_EN s) || (upTo (d.rf (ETH_CCc_NRB x.cc))).all fun b => x.prbs.any fun q => q.stream == s && q.prb == b

/-- A gap in the sequence byte of stream `s` counts. -/
def Dev.ulSeq (d : Dev) (k s seq : Nat) : Dev :=
  let d1 := match Tab.find d.eth.seqs (2 * s) with
    | some v => if seq = v then d else d.bump (ETH_Lk_RX_SEQ_GAP k)
    | none => d
  { d1 with eth.seqs := Tab.put d1.eth.seqs (2 * s) ((seq + 1) % 256) }

/-- A U-plane frame of stream `s` (R386, R387); `slot` is the RX slot of the symbol it names. -/
def Dev.uplaneRx (d : Dev) (k s : Nat) (f : List Byte) (t slot : Nat) : Dev :=
  let o := (ecpriAt f).getD 14
  let h := o + 8
  let start := beAt f (h + 4) 4 / 256 % 1024
  let num := beAt f (h + 7) 1
  let m := d.rf (ETH_ST_s_COMP_UL_M s)
  let body := f.drop (h + 10)
  let d1 := d.ulSeq k s (beAt f (o + 6) 1)
  match d1.streamCarrier s with
  | none => d1.bump (ETH_Lk_RX_OTHER k)
  | some c =>
    let nrb := d1.rf (ETH_CCc_NRB c)
    let sect := beAt f (h + 4) 4
    if beAt f o 1 != 16 || beAt f h 1 / 16 != 1 || num == 0 || decide (nrb < start + num) || body.length != num * (1 + 3 * m) ||
        bitsAt sect 18 2 != 0 || beAt f (h + 8) 2 != 0 || (upTo num).any (fun i => decide (16 ≤ beAt body (i * (1 + 3 * m)) 1)) then
      d1.bump (ETH_Lk_RX_MALFORMED k)
    else
      let l := beAt f (h + 3) 1 % 64
      let len := 1000000 / 2 ^ d1.rf (ETH_CCc_CFG_SCS c)
      let a := d1.slotNear (beAt f (h + 1) 1) (beAt f (h + 2) 1 / 16) (beAt f (h + 2) 2 / 64 % 64) len t
      let n := d1.rf (ETH_CCc_CFG_TIMELINE c)
      let x := d1.ethSym c (d1.gridIndex n (nsT a)) l
      let open_ := d1.symAir x
      let close := d1.symEnd x + nsT (d1.rf (ETH_RAD_r_ULLATE (d1.rf (ETH_ST_s_CFG_RADIO s))))
      if !d1.symOk x || d1.boundaryNs n x.k != a || !d1.symIs x (d1.flag (ETH_CCc_CFG_TDD c)) (d1.rf (ETH_CCc_CFG_PAT c)) 2 || decide (close < t) then
        d1.bump (if t < nsT a then ETH_Lk_RX_EARLY k else ETH_Lk_RX_LATE k)
      else if t < open_ then d1.bump (ETH_Lk_RX_EARLY k)
      else
        let y := d1.ulSym c x.k l
        let new := (upTo num).map fun i => let p := parsePrb (body.drop (i * (1 + 3 * m))) m; (⟨s, start + i, p.1, p.2⟩ : UlPrb)
        let dup := new.any fun p => y.prbs.any fun q => q.stream == s && q.prb == p.prb
        let z : UlSym := { y with prbs := y.prbs.filter (fun q => !(q.stream == s && new.any fun p => p.prb == q.prb)) ++ new }
        let d2 := if dup then d1.bump (ETH_Lk_RX_DUP k) else d1
        if y.closed then d2.ulFinish z slot true
        else if d2.ulWhole z then d2.ulFinish z slot false
        else d2.setUlSym z

/-- The destinations of the message path. -/
def Dev.msgDest (d : Dev) (k : Nat) (f : List Byte) : Bool :=
  let a := beAt f 0 6
  a == d.rf (ETH_Lk_MAC_HI k) * 2 ^ 32 + d.reg (rETH_Lk_MAC_LO k) || a == 2 ^ 48 - 1 || a == 0x011B19000000 || a == 0x0180C200000E

/-- ETH_FRAME_RX: a frame arrives on link `k`; `fcs` says its FCS is good, `plain` what the cipher recovers of a MACsec frame, `slot` the
RX slot firmware bound for the symbol a U-plane frame names. While a scan has its port out of receive service it is lost (R300, R301, R368). -/
def Dev.frameRx (d : Dev) (k : Nat) (frame : List Byte) (fcs : Bool) (plain : Option (List Byte)) (slot : Nat) : Dev :=
  if !d.ethUp k || !d.flag (ETH_Pp_CTL_ENABLE (k / 4)) || decide (d.now < Tab.getD (fun _ => 0) d.zth.gaps (k / 4)) then d
  else if !fcs then d.bump (ETH_Lk_RX_FCS k)
  else
    let t := d.rxStamp k
    let d1 := d.bump (ETH_Lk_RX_FRAMES k)
    match d1.msecRx k frame plain with
    | none => d1.bump (ETH_Lk_MSEC_BAD k)
    | some (f, secure) =>
      match d1.upStream k f with
      | some s => d1.uplaneRx k s f t slot
      | none => if d1.msgDest k f then d1.msgRx k f secure t else d1.bump (ETH_Lk_RX_OTHER k)
def execEthFrameRx (k : Fin 16) (frame : List Byte) (fcs : Bool) (plain : Option (List Byte)) (slot : BitVec 40) (s : State) : Res :=
  s.act fun d => d.frameRx k frame fcs plain slot.toNat

/-- UL_WINDOW_CLOSE: the window of an uplink symbol of remote carrier `c` closes. -/
def Dev.ulClose (d : Dev) (c air l slot : Nat) : Dev :=
  let n := d.rf (ETH_CCc_CFG_TIMELINE c)
  let x := d.ethSym c (d.airK n air) l
  if !d.ethCcOn c || !d.symOk x || !d.symIs x (d.flag (ETH_CCc_CFG_TDD c)) (d.rf (ETH_CCc_CFG_PAT c)) 2 then d
  else
    let d1 := d.advanceTo (d.symEnd x + d.ccRadio c ETH_RAD_r_ULLATE)
    let y := d1.ulSym c x.k l
    let d2 := if y.closed then d1 else d1.ulFinish y slot false
    { d2 with eth.syms := d2.eth.syms.filter fun z => !(z.cc == c && z.k == x.k && z.sym == l) }
def execUlWindowClose (c : Fin 256) (air : BitVec 16) (l : Fin 14) (slot : BitVec 40) (s : State) : Res :=
  s.act fun d => d.ulClose c air.toNat l slot.toNat

/-! ### Downlink (R383, R385) -/

/-- A part as a mantissa at exponent `e`, before it saturates. -/
def dlMant (m shift e : Nat) (x : Int) : Int :=
  if e + 12 ≤ shift + m then x * (2 ^ (shift + m - e - 12) : Nat) else roundEven x (e + 12 - shift - m)
/-- Every part of a PRB fits its mantissas at exponent `e`. -/
def prbFits (m shift e : Nat) (l : List Int) : Bool :=
  l.all fun x => decide (-(2 ^ (m - 1) : Nat) ≤ dlMant m shift e x) && decide (dlMant m shift e x < (2 ^ (m - 1) : Nat))
/-- The 24 parts of PRB `r` in a symbol-port's data. -/
def prbParts (b : List Byte) (r : Nat) : List Int :=
  (upTo 24).map fun i => toSigned 12 (bitsAt (leAt b (36 * r + 3 * (i / 2)) 3) (12 * (i % 2)) 12)
/-- The PRBs of a symbol-port's data that saturate even at exponent 15. -/
def dlSats (m shift nrb : Nat) (b : List Byte) : Nat := ((upTo nrb).filter fun r => !prbFits m shift 15 (prbParts b r)).length
/-- A PRB as it is sent (R381, R383): the smallest exponent at which it fits, or 15, and its saturated mantissas of `m` bits, I before Q. -/
def prbBytes (m shift : Nat) (l : List Int) : List Byte :=
  let e := ((upTo 16).find? fun e => prbFits m shift e l).getD 15
  BitVec.ofNat 8 e :: beBytes (3 * m) (l.foldl (fun a x => a * 2 ^ m + ofSigned m (satSigned m (dlMant m shift e x))) 0)

/-- The numbers of a remote carrier's slot (R401): frameId, subframeId and slotId, before AIR_EPOCH too. -/
def Dev.airNumbers (d : Dev) (x : SymAt) : Nat × Nat × Nat :=
  let t : Int := (d.boundaryNs x.n x.k : Nat) - (1000000000 * d.rf64 ⟨rTMU_AIR_EPOCH_LO, 0, 32⟩ ⟨rTMU_AIR_EPOCH_HI, 0, 32⟩ : Nat)
  ((t / 10000000 % 256).toNat, (t % 10000000 / 1000000).toNat, (t % 1000000 / (1000000 / 2 ^ x.mu : Nat)).toNat)
/-- A downlink U-plane frame of stream `s` (R381, R382): frame `idx` of its symbol-port, sequence byte `seq`, from PRB `start`. -/
def Dev.uFrame (d : Dev) (s seq idx start : Nat) (x : SymAt) (prbs : List (List Byte)) : List Byte :=
  let r := d.rf (ETH_ST_s_CFG_RADIO s)
  let k := d.rf (ETH_ST_s_CFG_LINK s)
  let (fr, sub, slot) := d.airNumbers x
  let body := prbs.flatten
  beBytes 6 (d.rf (ETH_RAD_r_MAC_HI r) * 2 ^ 32 + d.reg (rETH_RAD_r_MAC_LO r)) ++ beBytes 6 (d.rf (ETH_Lk_MAC_HI k) * 2 ^ 32 + d.reg (rETH_Lk_MAC_LO k)) ++
    beBytes 4 (0x8100 * 2 ^ 16 + d.rf (ETH_RAD_r_VLAN_PCP r) * 2 ^ 13 + d.rf (ETH_RAD_r_VLAN_VID r)) ++ [0xAE, 0xFE, 0x10, 0] ++
    beBytes 2 (14 + body.length) ++ beBytes 2 (d.rf (ETH_ST_s_EAXC s)) ++ [BitVec.ofNat 8 seq, 0x80, 0x90, BitVec.ofNat 8 fr] ++
    beBytes 2 (sub * 2 ^ 12 + slot % 2 ^ 6 * 2 ^ 6 + x.l) ++ beBytes 4 (idx % 2 ^ 12 * 2 ^ 20 + start * 2 ^ 8 + prbs.length) ++ [0, 0] ++ body

/-- The frames of one symbol-port leave, each full except the last. -/
def Dev.dlPort (d : Dev) (c s addr : Nat) (x : SymAt) : Dev :=
  if !d.flag (ETH_ST_s_CFG_DL_EN s) then d
  else
    let k := d.rf (ETH_ST_s_CFG_LINK s)
    let nrb := d.rf (ETH_CCc_NRB c)
    let m := d.rf (ETH_ST_s_COMP_DL_M s)
    let r := d.busRead (ethStop (k / 4)) addr (36 * nrb)
    let most := max 1 (r.1.maxPrb s m)
    let n := ceilDiv nrb most
    let shift := r.1.rf (ETH_ST_s_COMP_DL_SHIFT s)
    let data := r.2.getD []
    let d1 := r.1.bumpBy (ETH_CCc_DLSAT c) (dlSats m shift nrb data)
    let seq := Tab.getD (fun _ => 0) d1.eth.seqs (2 * s + 1)
    let prbs := (upTo nrb).map fun b => prbBytes m shift (prbParts data b)
    let d2 := (upTo n).foldl (fun d i => (d.sendFrame k false (d.uFrame s ((seq + i) % 256) i (i * most) x (slice prbs (i * most) most))).1) d1
    { d2 with eth.seqs := Tab.put d2.eth.seqs (2 * s + 1) ((Tab.getD (fun _ => 0) d2.eth.seqs (2 * s + 1) + n) % 256) }

/-- DL_SYMBOL_FETCH: a remote symbol is judged at its instant and its frames sent, or not; `late` says how many frames of each link
reached the medium more than 10 µs late. -/
def Dev.dlFetch (d : Dev) (c air l slot : Nat) (late : List (Nat × Nat)) : Dev :=
  let n := d.rf (ETH_CCc_CFG_TIMELINE c)
  let x := d.ethSym c (d.airK n air) l
  let count := d.rf (ETH_CCc_PORTS_COUNT c)
  let first := d.rf (ETH_CCc_PORTS_FIRST c)
  if !d.ethCcOn c || !d.symOk x || !d.symIs x (d.flag (ETH_CCc_CFG_TDD c)) (d.rf (ETH_CCc_CFG_PAT c)) 1 then d
  else
    let d1 := d.advanceTo (d.symAir x - (d.ccRadio c ETH_RAD_r_DLADV + usT 2))
    let r := d1.busRead (ethStop (d1.rf (ETH_ST_s_CFG_LINK first) / 4)) (slot + 4 * l) 4
    if readyOk r.2 air l then
      let d2 := (upTo count).foldl (fun d p => d.dlPort c (first + p) (slot + 64 + (l * count + p) * 36 * d.rf (ETH_CCc_NRB c)) x) r.1.wireGone
      late.foldl (fun d q => if d.ethUp q.1 then d.bumpBy (ETH_Lk_TX_LATE q.1) q.2 else d) d2
    else r.1.bump (ETH_CCc_ZERO_SYM c)
def execDlSymbolFetch (c : Fin 256) (air : BitVec 16) (l : Fin 14) (slot : BitVec 40) (late : List (Fin 16 × Word)) (s : State) : Res :=
  s.act fun d => d.dlFetch c air.toNat l slot.toNat (late.map fun p => (p.1.val, p.2.toNat))

/-! ### References (R408) -/

/-- Every converter link goes down; TX units stop or, on return, transmit again. -/
def Dev.jesdDown (d : Dev) : Dev :=
  let lanes := (upTo 32).map (52 + ·)
  let d1 := lanes.foldl (fun d i => d.laneLost i) d
  (upTo 10).foldl (fun d u =>
    let up := (upTo 12).filter fun i => d.flag (linkUpF u i)
    let e := d.linksDown u
    { e with dfe.lost := (if u < 4 then [] else up.map (u, ·)) ++ e.dfe.lost }) d1

/-- REF_LOSS. -/
def Dev.refLoss (d : Dev) (k : Nat) : Dev :=
  if !bitAt (d.rf CKR_REF_STS_PRESENT) k then d
  else
    let d1 := (((d.setFlag ⟨rCKR_REF_STS, k, 1⟩ false).bump (CKR_REF_LOSS_k_LOSS k)).health 0x0C 1 k)
    match k with
    | 0 => d1.setFlag CKR_PLL_STS_ROOT_HOLDOVER true
    | 1 => (d1.setFlag CKR_PLL_STS_JESD_LOCK false).jesdDown
    | 2 => ((upTo 16).foldl (fun d i => d.ethDown i) (d1.setFlag CKR_PLL_STS_ETH_LOCK false)) |> fun e => if e.twinUp then e.twinDown else e
    | 3 => ((((upTo 8).foldl (fun d i => d.loseLock (104 + i)) (d1.setFlag CKR_PLL_STS_PCIE_LOCK false)).wf ZTH_PCIE_STS_GEN 0).wf ZTH_PCIE_STS_WIDTH 0).pcieReset
    | _ => d1.setFlag CKR_PLL_STS_DDR_HOLDOVER true
def execRefLoss (k : Fin 5) (s : State) : Res := s.act fun d => d.refLoss k

/-- REF_RETURN: the reference has been present for 10 ms; a PLL that had never locked locks. -/
def Dev.refReturn (d : Dev) (k : Nat) : Dev :=
  if bitAt (d.rf CKR_REF_STS_PRESENT) k then d
  else
    let d1 := d.setFlag ⟨rCKR_REF_STS, k, 1⟩ true
    match k with
    | 0 => (d1.setFlag CKR_PLL_STS_ROOT_LOCK true).setFlag CKR_PLL_STS_ROOT_HOLDOVER false
    | 1 => (upTo 4).foldl (fun d u => d.setFlag (linkUpF u 0) (d.flag (jesdEnable u))) { d1.setFlag CKR_PLL_STS_JESD_LOCK true with dfe.epoch := none, dfe.lemc := [] }
    | 2 => d1.setFlag CKR_PLL_STS_ETH_LOCK true
    | 3 => d1.setFlag CKR_PLL_STS_PCIE_LOCK true
    | _ => (d1.setFlag CKR_PLL_STS_DDR_LOCK true).setFlag CKR_PLL_STS_DDR_HOLDOVER false
def execRefReturn (k : Fin 5) (s : State) : Res := s.act fun d => d.refReturn k

end Sys2Proof.Machine
end

