-- ==== Sys2Proof/Machine/Sec.lean ====
section
/-! DEFINITION. Boot, containers, keys, the protection set-up, the security alarm, debug unlock (R443-R458, R508). -/

namespace Sys2Proof.Machine

/-! ### Containers (R445, R446) -/

def allZero (b : List Byte) (i n : Nat) : Bool := (slice b i n).all (· == 0)

/-- The header of a container of the kind (1 firmware, 2 board table) has the right form. -/
def headerForm (kind : Nat) (b : List Byte) : Bool :=
  let len := leAt b 16 4
  decide (512 ≤ b.length) && leAt b 0 4 == 0x5A4E4331 && leAt b 4 2 == 1 && leAt b 6 1 == kind && allZero b 13 3 &&
  allZero b 164 92 && allZero b 352 160 && decide (1 ≤ len) &&
  (if kind = 1 then decide (leAt b 7 1 ≤ 3) && decide (leAt b 12 1 ≤ 63) && decide (len ≤ 16777216) && allZero b 68 96
   else leAt b 7 1 == 0 && leAt b 12 1 == 0 && decide (len ≤ 2096640))

def payloadOf (b : List Byte) : List Byte := slice b 512 (leAt b 16 4)
def svnOf (b : List Byte) : Nat := leAt b 12 1
def versionOf (b : List Byte) : Nat := leAt b 8 4

/-- F1 as a number: how many bits of the thermometer are blown. -/
def Sec.minSvn (x : Sec) : Nat := popcount 64 x.f1

/-- The signature verifies under the right key. -/
def Sec.signed (x : Sec) (kind : Nat) (b : List Byte) : Bool :=
  let key := if kind = 1 then Config.romKey (leAt b 7 1) else slice b 68 96
  (if kind = 1 then !bitAt x.f0 (leAt b 7 1) else x.f2 != 0 && sha384 key == x.f2) && ecdsaOk key (slice b 0 256) (slice b 256 96)

/-- A container is valid. -/
def Sec.valid (x : Sec) (kind : Nat) (b : List Byte) : Bool :=
  headerForm kind b && x.signed kind b && (kind == 2 || decide (x.minSvn ≤ svnOf b)) &&
  decide (512 + leAt b 16 4 ≤ b.length) && sha384 (payloadOf b) == ofBeBytes (slice b 20 48)

/-! ### Flash (R443, R444) -/

def Flash.fw (f : Flash) (slot : Nat) : List Byte := if slot = 0 then f.fwA else f.fwB
def Flash.bt (f : Flash) (slot : Nat) : List Byte := if slot = 0 then f.bt0 else f.bt1
def Flash.setFw (f : Flash) (slot : Nat) (b : List Byte) : Flash := if slot = 0 then { f with fwA := b } else { f with fwB := b }
def Flash.setBt (f : Flash) (slot : Nat) (b : List Byte) : Flash := if slot = 0 then { f with bt0 := b } else { f with bt1 := b }

/-- The copy in force: a good CRC and the higher GEN; with no good copy, slots A and 0 are tried first (assumption log). -/
def Flash.inForce (f : Flash) : Nat × Nat × Nat × Nat :=
  match f.hdr0, f.hdr1 with
  | some a, some b => if a.1 < b.1 then (1, b) else (0, a)
  | some a, none => (0, a)
  | none, some b => (1, b)
  | none, none => (1, 0, 0, 0)
def Flash.fwSlot (f : Flash) : Nat := f.inForce.2.2.1
def Flash.btSlot (f : Flash) : Nat := f.inForce.2.2.2
/-- Firmware writes the other copy with GEN + 1. -/
def Flash.writeHeader (f : Flash) (fwSlot btSlot : Nat) : Flash :=
  let h := f.inForce
  let n := some ((h.2.1 + 1) % 2 ^ 32, fwSlot, btSlot)
  if h.1 = 0 then { f with hdr1 := n } else { f with hdr0 := n }

/-! ### The alarm (R454, R455) -/

/-- A health event of boot: recorded now, raised once CQ0 is enabled. -/
def Dev.bootHealth (d : Dev) (block kind detail : Nat) : Dev :=
  let code := Config.freeAt block kind % 2 ^ 16
  let d1 := d.record block code detail
  { d1 with hif.boot := d1.hif.boot ++ [(0, code, detail % 2 ^ 32, 0, 0)] }

/-- ERASE: V0-V15 and every SAK are zeroed; a debug session ends. -/
def State.erase (s : State) : State :=
  let d1 := (s.dev.wf SEC_KEY_STS_LOADED 0).wf SEC_DEBUG_STS_LEVEL 0
  { s with dev := { d1 with eth.saks := [], pmu.debugHold := [] },
           sec := { s.sec with keys := [], ckns := [], challenge := none } }

/-- The action set for source `i`, 1-7. -/
def Dev.alarmAct (d : Dev) (i : Nat) : Nat := d.rf (SEC_ALARM_ACT_s_ACTION (i - 1))

/-- An entry of the alarm log: the oldest of 16 gives way (assumption log). -/
def State.alarmLog (s : State) (i : Nat) : State :=
  let l := s.sec.alarms ++ [⟨i, s.dev.alarmAct i, t128Nat s.dev.now⟩]
  { s with sec.alarms := l.drop (l.length - 16), dev := s.dev.bump SEC_ALARMS }

/-- RESTART; in a thermal shutdown the thermal restart stands in for it (R455). -/
def State.alarmRestart (s : State) : State := if s.dev.thm.trip.isSome then s else s.cold 4

/-- The action `a`, with everything below it. -/
def State.alarmDo (s : State) (srcs : List Nat) (a : Nat) : State :=
  let s1 := if 1 ≤ a then s.onDev fun d => srcs.foldl (fun d i => d.health 2 1 i) d else s
  match a with
  | 0 | 1 => s1
  | 2 => s1.erase
  | 3 => s1.erase.alarmRestart
  | 4 => s1.erase.alarmRestart
  | _ => let s2 := s1.erase
    { s2 with sec.f6 := setBit s2.sec.f6 3 }.alarmRestart

/-- The highest action of the sources. -/
def Dev.worstAct (d : Dev) (srcs : List Nat) : Nat := (srcs.map d.alarmAct).foldl max 0

/-- Sources that fire in one cycle: each is logged, the highest action is carried out once. -/
def State.alarm (s : State) (srcs : List Nat) : State :=
  let a := s.dev.worstAct srcs
  if srcs.isEmpty then s else (srcs.foldl State.alarmLog s).alarmDo srcs a

/-- The sources a mask of seven bits names: bit 0 is source 0x01. -/
def alarmSources (m : BitVec 7) : List Nat := ((upTo 7).filter (bitAt m.toNat)).map (· + 1)

/-- SECURITY_ALARM: the sources of the mask fire. -/
def execSecurityAlarm (fired : BitVec 7) (s : State) : Res := .next (s.alarm (alarmSources fired))

/-- FUSE_RESENSE: a re-sense that disagrees or fails parity is source FUSE. -/
def execFuseResense (bad : Bool) (s : State) : Res := .next (if bad then s.alarm [3] else s)

/-- INTEGRITY_CHECK: a digest that differs from the one taken at the seal is source INTEGRITY. -/
def execIntegrityCheck (differs : Bool) (s : State) : Res :=
  .next (if differs && s.dev.flag SEC_BOOT_STS_SEALED then s.alarm [6] else s)

/-- SUPPLY_DEVIATION (R508): of rail `r`; `level` 0 within 5 %, 1 within 10 %, 2 beyond 10 %, 3 below the monitor's POR threshold,
which VDD_CORE, VDD_AON and VDD_IO18 have. -/
def State.supplyDeviation (s : State) (r level : Nat) : State :=
  let event := s.onDev fun d => d.health 0x0E 9 r
  match level with
  | 0 => s
  | 1 => event
  | 2 => if r = 0 ∨ r = 2 then s.alarm [1] else event
  | _ => if r = 0 ∨ r = 2 ∨ r = 7 then s.por true else event
def execSupplyDeviation (rail : Fin 8) (level : Fin 4) (s : State) : Res := .next (s.supplyDeviation rail.val level.val)

/-! ### Fuses (R447, R448, R450) -/

/-- FUSE_PROG: F2, F3, F4 take a whole-slot write while blank, F6 takes more blown bits; each while FUSE_SEAL is 0. -/
def Sec.fuseProg (x : Sec) (slot value : Nat) : Sec :=
  if bitAt x.f6 4 then x
  else match slot with
    | 2 => if x.f2 = 0 then { x with f2 := value % 2 ^ 384 } else x
    | 3 => if x.f3 = 0 then { x with f3 := value % 2 ^ 256 } else x
    | 4 => if x.f4 = 0 then { x with f4 := value % 2 ^ 384 } else x
    | 6 => { x with f6 := x.f6 ||| value % 32 }
    | _ => x
def execFuseProg (slot : Fin 7) (value : BitVec 384) (s : State) : Res := .next { s with sec := s.sec.fuseProg slot.val value.toNat }

/-- The lower SVN of the two slots; a slot that holds no image does not count (assumption log). -/
def Sec.lowerSvn (x : Sec) : Nat :=
  let l := ((upTo 2).filter fun i => headerForm 1 (x.flash.fw i)).map fun i => svnOf (x.flash.fw i)
  match l with
  | [] => 0
  | a :: t => t.foldl min a

/-- SVN_RAISE: the running image has run for 24 hours. -/
def State.svnRaise (s : State) : State :=
  if s.dev.domOn 78 && !s.dev.flag SEC_BOOT_STS_RECOVERY && decide (s.dev.fw.since + nsT (86400 * 1000000000) ≤ s.dev.now) then
    let x : Sec := { s.sec with f1 := s.sec.f1 ||| (2 ^ s.sec.lowerSvn - 1) }
    { s with sec := x, dev := s.dev.wf SEC_FW_SVN_MIN_SVN (min 63 x.minSvn) }
  else s
def execSvnRaise (s : State) : Res := .next s.svnRaise

/-! ### Debug unlock (R456) -/

/-- SEC_CHALLENGE: a nonce is drawn; none during the lock-out, and level 0 is no level. -/
def State.secChallenge (s : State) (level : Nat) : State :=
  if level = 0 ∨ s.sec.lockout.isSome then s
  else
    let x := s.dev.fresh (2 ^ 256)
    { s with dev := x.1, sec.challenge := some (level, x.2) }
def execSecChallenge (level : Fin 4) (s : State) : Res := .next (s.secChallenge level.val)

/-- A response to the challenge is right: the level is allowed, the key is F4's or an unrevoked ROM key's, the signature verifies. -/
def State.responseOk (s : State) (key sig : List Byte) : Option Nat :=
  match s.sec.challenge with
  | none => none
  | some (lvl, nonce) =>
    let keyOk := if lvl = 3 then (upTo 4).any fun i => !bitAt s.sec.f0 i && key == Config.romKey i
      else decide (lvl ≤ s.dev.rf SEC_DEBUG_STS_MAX_LEVEL) && s.sec.f4 != 0 && sha384 key == s.sec.f4
    if keyOk && ecdsaOk key (Config.challenge nonce s.sec.f5 lvl) sig then some lvl else none

/-- Open a session: RMA erases first; `holds` are the domains the debugger takes. -/
def State.openSession (s : State) (lvl : Nat) (holds : List (Fin 80)) : State :=
  let s1 := if lvl = 3 then s.erase else s
  let d1 := ((s1.dev.wf SEC_DEBUG_STS_LEVEL lvl).wf SEC_DEBUG_STS_FAILS 0).health 2 2 lvl
  { s1 with dev := { d1 with pmu.debugHold := holds.map (·.val) }, sec.challenge := none }

/-- A failed response; the third in a row raises DEBUG and refuses challenges for 10 s. -/
def State.failResponse (s : State) : State :=
  let n := s.dev.rf SEC_DEBUG_STS_FAILS
  let s1 := { s with dev := s.dev.wf SEC_DEBUG_STS_FAILS (min 3 (n + 1)), sec.challenge := none }
  if n = 2 then { s1 with sec.lockout := some (s1.dev.now + nsT 10000000000) }.alarm [4] else s1

/-- SEC_RESPONSE; `fired` are alarm sources of the same cycle: with an action of ERASE or above the response is refused (R455). -/
def State.secResponse (s : State) (key sig : List Byte) (holds : List (Fin 80)) (fired : BitVec 7) : State :=
  let srcs := alarmSources fired
  if !srcs.isEmpty && decide (2 ≤ s.dev.worstAct srcs) then { s with sec.challenge := none }.alarm srcs
  else
    let s1 := s.alarm srcs
    match s1.responseOk key sig with
    | some lvl => s1.openSession lvl holds
    | none => s1.failResponse
def execSecResponse (key sig : List Byte) (holds : List (Fin 80)) (fired : BitVec 7) (s : State) : Res :=
  .next (s.secResponse key sig holds fired)

/-- DEBUG_LOCKOUT_EXPIRY: 10 s are over; the failures in a row start anew (assumption log). -/
def execDebugLockoutExpiry (s : State) : Res :=
  match s.sec.lockout with
  | none => .next s
  | some t => .next { s with dev := (s.dev.advanceTo t).wf SEC_DEBUG_STS_FAILS 0, sec.lockout := none }

/-! ### The board table (R452, R453, R449) -/

/-- The section of a type in a board-table payload: its offset and length in the first such entry of the directory. -/
def btSection (b : List Byte) (type : Nat) : Option (List Byte) :=
  let rec go : Nat → Nat → Option (List Byte)
    | 0, _ => none
    | fuel + 1, i =>
      let t := leAt b (16 * i) 2
      if t = 0 ∨ b.length ≤ 16 * i then none
      else if t = type then some (slice b (leAt b (16 * i + 4) 4) (leAt b (16 * i + 8) 4))
      else go fuel (i + 1)
  go (b.length / 16 + 1) 0

/-- Write firewall region `r`. -/
def Dev.setRegion (d : Dev) (r base limit rd wr en : Nat) : Dev :=
  ((((d.wf (MEM_FWr_BASE r) base).wf (MEM_FWr_LIMIT r) limit).wf (MEM_FWr_RD r) rd).wf (MEM_FWr_WR r) wr).wf (MEM_FWr_CTL_ENABLE r) en

/-- Region record `i` of a protection section, for region 8 + i; a reserved bit leaves the region disabled. -/
def Dev.loadRegion (d : Dev) (p : List Byte) (i : Nat) : Dev :=
  let w (j : Nat) : Nat := leAt p (20 * i + 4 * j) 4
  if (upTo 4).any (fun j => decide (2 ^ 28 ≤ w j)) || decide (2 ≤ w 4) then d.bootHealth 2 3 (8 + i)
  else d.setRegion (8 + i) (w 0) (w 1) (w 2) (w 3) (w 4)

/-- The protection section: regions, alarm actions at least the floor, the highest debug level. -/
def Dev.loadProtection (d : Dev) (x : Sec) (p : List Byte) : Dev :=
  let d1 := (upTo 8).foldl (fun d i => d.loadRegion p i) d
  let d2 := (upTo 7).foldl (fun d i =>
    let a := leAt p (160 + i) 1
    d.wf (SEC_ALARM_ACT_s_ACTION i) (max x.floor (if 5 < a then 5 else a))) d1
  d2.wf SEC_DEBUG_STS_MAX_LEVEL (leAt p 167 1 % 4)

/-- Entry `i` of a key section; KEK_DEAD unwraps nothing. A CKN length beyond 32 is treated as 0 is (assumption log). -/
def State.loadKey (s : State) (k : List Byte) (i : Nat) : State :=
  let e := slice k (80 * i) 80
  let v := leAt e 0 1 % 16
  let n := leAt e 2 1
  if n = 0 ∨ 32 < n then { s with dev := s.dev.bootHealth 2 4 v }
  else if bitAt s.sec.f6 3 then s
  else match keyUnwrap (beBytes 32 s.sec.f3) (slice e 40 40) with
    | none => { s with dev := s.dev.bootHealth 2 5 v }
    | some key => { s with dev := s.dev.wf ⟨rSEC_KEY_STS, v, 1⟩ 1,
                           sec := { s.sec with keys := Tab.put s.sec.keys v (ofBeBytes key),
                                               ckns := s.sec.ckns ++ [(v, leAt e 1 1 % 16, ofBeBytes (slice e 8 n))] } }

/-- A board table comes into use. -/
def State.useTable (s : State) (slot : Nat) : State :=
  let b := payloadOf (s.sec.flash.bt slot)
  let d1 := ((s.dev.setFlag SEC_BOOT_STS_BT_OK true).wf SEC_BOOT_STS_BT_SLOT slot).setFlag ZTH_BT_STS_LOADED true
  let d2 := { d1.loadLanes ((btSection b 1).getD []) with mem.ddrStart := (btSection b 4).isSome }
  let d3 := match btSection b 2 with
    | some p => d2.loadProtection s.sec p
    | none => d2
  let k := (btSection b 3).getD []
  (upTo (k.length / 80)).foldl (fun s i => s.loadKey k i) { s with dev := d3 }

/-- No board table can be used (R355). -/
def State.noTable (s : State) : State :=
  s.onDev fun d => ((d.loadLanes []).setFlag ZTH_BT_STS_REFUSED true).bootHealth 7 1 0

/-! ### Boot (R451) -/

/-- A fresh set point from fuse, 0.720-0.800 V in steps of 5 mV (R507). -/
def Dev.startAvs (d : Dev) : Dev := let x := d.fresh 17; x.1.wf THM_AVS_MV (720 + 5 * x.2)

/-- Domain `i` of the floor is switched on. -/
def Dev.floorOn (d : Dev) (i : Nat) : Dev := ((d.enterState i 0).bump PMU_SWITCH_ONS).unfence i

/-- The records of a boot: the alarm log's entries first (R531), then what the thermal history left to report (R433). -/
def State.bootRecords (s : State) : State :=
  s.onDev fun d =>
    let recs : List HealthRec := s.sec.alarms.map fun (a : AlarmRec) => ⟨2, a.source, 0, a.time⟩
    let d1 : Dev := { d with fw.health := recs ++ d.fw.health }
    match d1.thm.recovered with
    | some (peak, sensor, secs) => { d1 with thm.recovered := none, hif.boot := d1.hif.boot ++ [(1, 5, peak, sensor, secs)] }
    | none => d1

/-- The life-time counters come back from flash after a POR (R438). -/
def State.bootLife (s : State) : State :=
  if s.dev.rf CKR_RESET_CAUSE_KIND = 0 ∧ s.sec.flash.life ≠ [] then
    let l := s.sec.flash.life
    s.onDev fun d => (((upTo 4).foldl (fun d i => d.bumpBy (THM_HIST_b_SECONDS i) (nth 0 l i)) d).wf THM_DEGSEC_LO (nth 0 l 4)).wf THM_DEGSEC_HI (nth 0 l 5)
  else s

/-- Firmware image `slot` starts; `fb` says the named slot failed. -/
def State.startImage (s : State) (slot : Nat) (fb : Bool) : State :=
  let b := s.sec.flash.fw slot
  let p := payloadOf b
  let d1 := ((s.dev.wf SEC_BOOT_STS_FW_SLOT slot).setFlag SEC_BOOT_STS_FALLBACK fb).wf SEC_FW_SVN_RUN_SVN (svnOf b)
  let d2 := (upTo 8).foldl (fun d r =>
    let w (j : Nat) : Nat := Config.fwRegion p r j
    d.setRegion r (w 0) (w 1) (w 2) (w 3) (w 4 % 2)) d1
  let d3 : Dev := { d2 with fw.version := versionOf b, fw.since := d2.now }
  { s with dev := if fb then d3.bootHealth 2 6 slot else d3 }

/-- The slot to use of two: the named one, else the other. -/
def pickSlot (named : Nat) (ok : Nat → Bool) : Option (Nat × Bool) :=
  if ok named then some (named, false) else if ok (1 - named) then some (1 - named, true) else none

/-- Steps 5 and 6: the board table, the protection set-up, its seal. -/
def State.bootTable (s : State) : State :=
  let s1 := match pickSlot s.sec.flash.btSlot fun i => s.sec.valid 2 (s.sec.flash.bt i) with
    | some (slot, _) => s.useTable slot
    | none => s.noTable
  s1.onDev fun d => d.setFlag SEC_BOOT_STS_SEALED true

/-- RECOVERY: both firmware slots fail. -/
def State.recoveryMode (s : State) : State :=
  s.onDev fun d => (([62, 76, 67, 68].foldl Dev.floorOn d).setFlag SEC_BOOT_STS_RECOVERY true).serviceSync

/-- BOOT: the steps of R451 after POR or COLD, once the root PLL has locked; a fuse alarm that restarts the part ends this boot. -/
def State.boot (s : State) (parity : Bool) : State :=
  let s0 := if parity then s.alarm [3] else s
  if parity && decide (3 ≤ s.dev.worstAct [3]) then s0 else
  let s1 := s0.onDev fun d => ((d.fuseShow s0.sec).startAvs.floorOn 78).wf (THM_TRIM_i_TRIM 59) (256 - 12)
  let s2 := s1.bootRecords.bootLife
  match pickSlot s2.sec.flash.fwSlot fun i => s2.sec.valid 1 (s2.sec.flash.fw i) with
  | none => s2.recoveryMode
  | some (slot, fb) => ((s2.startImage slot fb).bootTable).onDev fun d => ([62, 76].foldl Dev.floorOn d).serviceSync
/-- BOOT; `parity` is a fuse parity error of step 1. Nothing happens unless the part has been reset and the root PLL has locked. -/
def execBoot (parity : Bool) (s : State) : Res :=
  .next (if s.dev.dom 78 == 3 && s.dev.flag CKR_PLL_STS_ROOT_LOCK && s.dev.thm.trip.isNone then s.boot parity else s)

/-- The container at the start of BAR2 in RECOVERY: central-buffer banks 0 and 1. -/
def Dev.recoveryImage (d : Dev) : List Byte := getBytes d.mem.cells cbufBase (min (d.rf SEC_RECOVERY_LEN) (2 ^ 24))

/-- RECOVERY_GO: a good container goes to slot A, a header names it, and the part restarts cold; the trigger code is not stated. -/
def State.recoveryGo (s : State) : State :=
  let b := s.dev.recoveryImage
  if s.sec.valid 1 b then
    let x := s.dev.fresh 5
    { s with dev := x.1, sec.flash := (s.sec.flash.setFw 0 b).writeHeader 0 s.sec.flash.btSlot }.cold x.2
  else { s with dev := s.dev.bump SEC_ALARMS }
def State.recoveryWr (s : State) (init : Initiator) (value : Nat) : State :=
  let r := s.dev.busWr init rSEC_RECOVERY_CTL value
  let s1 := { s with dev := r.1 }
  match r.2 with
  | .no => s1
  | .yes cmds => if bitAt cmds 0 then s1.recoveryGo else s1
/-- What the host has written to the start of BAR2 in RECOVERY stands in central-buffer banks 0 and 1. -/
def Dev.bar2In (d : Dev) (bar2 : List Byte) : Dev :=
  if d.flag SEC_BOOT_STS_RECOVERY && d.domOn 67 && d.domOn 68 then d.poke cbufBase (bar2.take (2 ^ 24)) else d
def execRecoveryGo (init : Initiator) (value : Word) (bar2 : List Byte) (s : State) : Res :=
  .next ((s.onDev fun d => d.bar2In bar2).recoveryWr init value.toNat)

end Sys2Proof.Machine
end

