-- ==== Sys2Proof/Machine/Ring.lean ====
section
/-! DEFINITION. The Lyre: injection, acceptance, replay and retry, bounces, epochs, bypass, statistics (R304-R329). -/

namespace Sys2Proof.Machine

/-! ### Credits and the retry window (R314, R316) -/

/-- Flits of a stream on the ring or in replay buffers: the credits not held. -/
def Stream.inFlight (ring : Nat) (x : Stream) : Nat :=
  sumNat (x.flight.map fun q => match x.window.find? (·.seq == q) with
    | some p => p.flits ring
    | none => 0)

/-- Retry-window entries of a source on a ring: class 0, and the other classes. -/
def Dev.windowUse (d : Dev) (ring src : Nat) : Nat × Nat :=
  d.lyr.streams.foldl (fun a p =>
    if keyRing p.1 = ring ∧ keySrc p.1 = src then
      (if keyCls p.1 = 0 then (a.1 + p.2.window.length, a.2) else (a.1, a.2 + p.2.window.length))
    else a) (0, 0)
/-- A retry-window entry is free for the class: 64 per ring, 8 of them for class 0 only. -/
def Dev.windowFree (d : Dev) (ring src cls : Nat) : Bool :=
  let u := d.windowUse ring src
  decide (u.1 + u.2 < 64) && (cls == 0 || decide (u.2 < 56))

/-- Old-epoch packets, per stop and in sum, while DRAINING (R320). -/
def Dev.showOld (d : Dev) : Dev :=
  if !d.flag LYR_EPOCH_DRAINING then d
  else
    let act := d.rf LYR_EPOCH_ACTIVE
    let old (s : Nat) : Nat := d.lyr.streams.foldl (fun a p =>
      if keySrc p.1 = s then a + (p.2.window.filter fun q => q.epoch != act).length else a) 0
    let d1 := (upTo 28).foldl (fun d s => d.wf (LYR_STOP_s_OLD_INFLIGHT_COUNT s) (old s)) d
    d1.wf LYR_OLD_INFLIGHT_COUNT (sumNat ((upTo 28).map old))

/-! ### Answers (R308, R316, R318, R322) -/

/-- A packet is ready at stop `src` (R307). -/
def Dev.ringReady (d : Dev) (control : Bool) (src dst cls : Nat) (p : RingPkt) : Dev :=
  { d with lyr.waiting := d.lyr.waiting ++ [⟨control, src, dst, cls, { p with ready := 6 * d.cyc % 2 ^ 24, tries := 0, replays := 0, slots := [] }⟩] }
/-- Stop `s` answers packet `p` of stream `k`: a response is ready there. -/
def Dev.ringRespond (d : Dev) (s k : Nat) (p : RingPkt) (status : Nat) (data : List Byte) : Dev :=
  d.ringReady (keyRing k == 2) s (keySrc k) (keyCls k)
    { p with type := (if p.type = 1 then 2 else 5), status := status, data := data, len := data.length, tag := none }
/-- Stop `s` refuses packet `p` of stream `k`: an error response, or a bounce for a posted packet. The source stop itself answers its own block at
once, over no ring. -/
def Dev.ringError (d : Dev) (s k : Nat) (p : RingPkt) (status : Nat) : Dev :=
  if s = keySrc k then
    if isPosted p.type then { d with lyr.bounces := d.lyr.bounces ++ [(s, keyDst k, p.addr, status)] } else d
  else if isPosted p.type then
    d.ringReady (keyRing k == 2) s (keySrc k) (keyCls k) { p with type := 6, status := status, data := [], len := 0, tag := none, orig := keyDst k }
  else if isRequest p.type then d.ringRespond s k p status []
  else d

/-- The destination goes past packet `q` of a stream. -/
def Stream.past (x : Stream) (q : Nat) : Stream := { x with expSeq := (q + 1) % 65536, refused := false }
/-- Packet `p` of stream `k` has left the ring for good: its credits and its acknowledgement go back. -/
def Dev.ringTaken (d : Dev) (k : Nat) (p : RingPkt) : Dev :=
  ((d.updStream k fun x => x.past p.seq).ringReturn false k (p.flits (keyRing k))).ringReturn true k p.seq

/-- Every unacknowledged packet of a stream is ended with UNREACHABLE, and its source answers for each. -/
def Dev.endStream (d : Dev) (k : Nat) : Dev :=
  let x := d.stream k
  let d1 := x.window.foldl (fun d p => (d.bump (LYR_STOP_s_UNREACHABLE (keySrc k))).ringError (keySrc k) k p 4) d
  d1.setStream k { x with window := [], flight := [], retry := none, refused := false, expSeq := x.nextSeq }

/-! ### Slots and the reservation (R304, R310, R311) -/

/-- The strand of a ring and a direction: 0-3 of D0 and D1, 4 and 5 of C. -/
def strandOf (ring dir : Nat) : Nat := 2 * ring + dir
/-- The slots of a strand that carry flits. -/
def Dev.slotsUsed (d : Dev) (ring dir : Nat) : List Nat :=
  d.lyr.streams.flatMap fun s =>
    if keyRing s.1 = ring then (s.2.window.filter fun p => s.2.flight.contains p.seq && p.dir == dir).flatMap (·.slots) else []
/-- Stop `src` may fill slot `j` of a strand in class `cls`: any but a reserved one, and of those, in class 0, the ones it owns. -/
def Dev.slotMine (d : Dev) (ring dir src cls j : Nat) : Bool :=
  ring == 2 || j % 8 != 0 ||
    (cls == 0 && (let e := d.rf LYR_EPOCH_ACTIVE; let i := 7 * strandOf ring dir + j / 8
      d.flag (LYR_RSV_e_q_j_VALID e i) && d.rf (LYR_RSV_e_q_j_OWNER e i) == src))
/-- The slots that a packet's flits take: empty ones that its stop may fill. -/
def Dev.slotsFor (d : Dev) (k : Nat) (p : RingPkt) : List Nat :=
  let used := d.slotsUsed (keyRing k) p.dir
  ((upTo 56).filter fun j => !used.contains j && d.slotMine (keyRing k) p.dir (keySrc k) (keyCls k) j).take (p.flits (keyRing k))

/-! ### Injection (R310-R312, R314, R316, R319) -/

/-- A packet of a stop's block. -/
def newPkt (type txid addr : Nat) (tag : Option Nat) (len : Nat) (data : List Byte) : RingPkt :=
  ⟨type, 0, tag, 0, txid, addr, 0, len, data, 0, 0, 0, 0, [], 0⟩

/-- The packet is injected. -/
def Dev.ringPut (d : Dev) (k : Nat) (p : RingPkt) : Dev :=
  let d1 := d.updStream k fun x => { x with nextSeq := (x.nextSeq + 1) % 65536, window := x.window ++ [p], flight := x.flight ++ [p.seq] }
  let s := keySrc k
  let open_ := p.slots.any fun j => j % 8 != 0 || keyRing k == 2
  { d1 with lyr.starving := d1.lyr.starving.filter (· != s),
            lyr.turns := if open_ then Tab.setD (fun _ => 0) d1.lyr.turns s ((Tab.getD (fun _ => 0) d1.lyr.turns s + 1) % 16) else d1.lyr.turns }

/-- The packet may go now: its stream has no retransmission owing and no packet on another route; credits for all its flits, a window entry and
empty slots for its flits are there. -/
def Dev.ringMay (d : Dev) (k : Nat) (p : RingPkt) : Bool :=
  let x := d.stream k
  x.retry.isNone && x.window.all (fun q => q.dir == p.dir) &&
  decide (x.inFlight (keyRing k) + d.returning k + p.flits (keyRing k) ≤ ringAllot (keyRing k) (keyCls k)) &&
  d.windowFree (keyRing k) (keySrc k) (keyCls k) && (d.slotsFor k p).length == p.flits (keyRing k)

/-- The sizes a packet may have, and those of the response to a read, which goes by its class on a ring of its kind (R307, R312). -/
def pktFits (ring cls type len : Nat) (data : List Byte) : Bool :=
  (type == 1 || type == 3 || type == 4 || type == 7) && decide (len ≤ 256) && (type == 1 || data.length == len) &&
  (cls != 0 || decide (len ≤ 96)) && (ring != 2 || decide (len ≤ 64))

/-- The other data ring's stream of the same route end has packets unacknowledged: the route changed (R319). -/
def Dev.otherRing (d : Dev) (ring src dst cls : Nat) : Bool :=
  decide (ring < 2) && !(d.stream (streamKey (1 - ring) src dst cls)).window.isEmpty

/-- The ring a packet takes: C for control traffic, else what the route entry says. -/
def Dev.ringOf (d : Dev) (control : Bool) (src dst cls : Nat) : Nat :=
  if control then 2 else d.route src (d.rf LYR_EPOCH_ACTIVE) dst cls % 2
/-- The stream of a waiting packet, and the packet as it would be injected now. -/
def Dev.ringAs (d : Dev) (w : RingWait) : Nat × RingPkt :=
  let e := d.rf LYR_EPOCH_ACTIVE
  let k := streamKey (d.ringOf w.control w.src w.dst w.cls) w.src w.dst w.cls
  let p : RingPkt := { w.pkt with dir := d.route w.src e w.dst w.cls / 2 % 2, seq := (d.stream k).nextSeq, epoch := e }
  (k, { p with slots := d.slotsFor k p })
/-- The next stop downstream of `w`'s on its strand has asked for an empty slot, and waits for that strand itself. -/
def Dev.ringYields (d : Dev) (w : RingWait) : Option Nat :=
  let x := d.ringAs w
  let t := if x.2.dir = 0 then (w.src + 1) % 28 else (w.src + 27) % 28
  if d.lyr.starving.contains t && (x.2.slots.any fun j => j % 8 != 0) &&
      d.lyr.waiting.any (fun v => v.src == t && (let y := d.ringAs v; keyRing y.1 == keyRing x.1 && y.2.dir == x.2.dir)) then some t else none

/-- What the injection of a waiting packet comes to: it is refused at its source, it goes, it leaves the slot to a starving stop, or it waits. -/
inductive RingTry where
  | gone (d : Dev)
  | yields (t : Nat)
  | waits
def Dev.ringTry (d : Dev) (w : RingWait) : RingTry :=
  let x := d.ringAs w
  let d1 : Dev := { d with lyr.waiting := d.lyr.waiting.erase w }
  if d.flag (LYR_STOP_s_CTL_BYPASS w.src) || (isRequest w.pkt.type && d.flag (LYR_STOP_s_STS_FENCED w.src)) then .waits
  else if d.flag (LYR_STOP_s_CTL_BYPASS w.dst) || d.route w.src (d.rf LYR_EPOCH_ACTIVE) w.dst w.cls / 4 == 2 then
    .gone ((d1.bump (LYR_STOP_s_UNREACHABLE w.src)).ringError w.src x.1 x.2 4)
  else if !d.ringMay x.1 x.2 || d.otherRing (keyRing x.1) w.src w.dst w.cls then .waits
  else match d.ringYields w with
  | some t => .yields t
  | none => .gone (d1.ringPut x.1 x.2)

/-- The packets of a list that no earlier one of the same stream holds back (R29). -/
def ringHeads (l : List RingWait) : List RingWait :=
  l.foldl (fun a w => if a.any fun v => v.control == w.control && v.src == w.src && v.dst == w.dst && v.cls == w.cls then a else a ++ [w]) []
/-- The order in which stop `s` picks: by class, but every sixteenth unreserved opportunity goes to its oldest packet first (R310). -/
def Dev.ringPicks (d : Dev) (s : Nat) : List RingWait :=
  let l := ringHeads (d.lyr.waiting.filter (·.src == s))
  let byClass := (upTo 4).flatMap fun c => l.filter (·.cls == c)
  if Tab.getD (fun _ => 0) d.lyr.turns s = 15 then l.take 1 ++ byClass else byClass
/-- The first of some packets that goes or yields. -/
def Dev.ringPick (d : Dev) : List RingWait → RingTry
  | [] => .waits
  | w :: ws => match d.ringTry w with
    | .waits => d.ringPick ws
    | x => x
/-- Injections, until no packet can go: stops in the order in which their packets became ready, one that was left a slot before all. -/
def Dev.ringPump : Nat → List Nat → Dev → Dev
  | 0, _, d => d
  | fuel + 1, first, d =>
    match d.ringPick ((first ++ (d.lyr.waiting.map (·.src)).eraseDups).flatMap d.ringPicks) with
    | .gone e => Dev.ringPump fuel [] e
    | .yields t => Dev.ringPump fuel [t] { d with lyr.starving := d.lyr.starving.filter (· != t) }
    | .waits => d
/-- A row of the ring: what was on its way has arrived; afterwards every packet that can go goes. -/
def Dev.ringRow (d : Dev) (f : Dev → Dev) : Dev :=
  let e := f d.returnsHome
  Dev.ringPump (e.lyr.waiting.length + e.lyr.starving.length) [] e

/-- RING_INJECT: a request of stop `src` becomes ready, or with any other type, a response or bounce that waits has its opportunity. -/
def Dev.ringInjectCmd (d : Dev) (control : Bool) (src dst cls type txid addr : Nat) (tag : Option Nat) (len : Nat)
    (data : List Byte) : Dev :=
  d.ringRow fun d =>
    if src = dst ∨ d.flag (LYR_STOP_s_CTL_BYPASS src) ∨ d.flag (LYR_STOP_s_STS_FENCED src) then d
    else if !pktFits (d.ringOf control src dst cls) cls type len data then d
    else d.ringReady control src dst cls (newPkt type txid addr tag len (if type = 1 then [] else data))
def execRingInject (control : Bool) (src dst : Fin 28) (cls : Fin 4) (type : Fin 8) (txid : BitVec 16) (addr : BitVec 40)
    (tag : Option (Fin 16)) (len : Fin 257) (data : List Byte) (s : State) : Res :=
  s.act fun d => d.ringInjectCmd control src.val dst.val cls.val type.val txid.toNat addr.toNat (tag.map (·.val)) len.val data

/-- RING_STARVATION: a stop that has waited 512 ring cycles asks for an empty slot; an injection of its own ends it. -/
def execRingStarvation (st : Fin 28) (s : State) : Res :=
  s.act fun d => if d.lyr.starving.contains st.val then d else { d with lyr.starving := d.lyr.starving ++ [st.val] }

/-! ### Acceptance (R316, R322, R340, R342, R49) -/

/-- A bounce is recorded at stop `i`, its packet's source. -/
def Dev.bounceAt (d : Dev) (i dst addr status : Nat) : Dev :=
  ((((d.bump (LYR_STOP_s_BOUNCED i)).wf (LYR_STOP_s_BOUNCE_ADDR i) addr).wf (LYR_STOP_s_BOUNCE_INFO_ADDR_HI i)
    (addr / 2 ^ 32)).wf (LYR_STOP_s_BOUNCE_INFO_DST i) dst).wf (LYR_STOP_s_BOUNCE_INFO_STATUS i) status

/-- The destination acts on an accepted packet. -/
def Dev.ringAct (d : Dev) (k : Nat) (p : RingPkt) : Dev :=
  let src := keySrc k
  let dst := keyDst k
  let here := d.stopAt p.addr == some dst || p.len == 0
  match p.type with
  | 1 =>
    if !here then d.ringError dst k p stTarget
    else
      let r := d.rdAt src p.addr p.len
      r.1.ringRespond dst k p r.2.1 (if r.2.1 = stOK then r.2.2 else [])
  | 3 =>
    if !here then d.ringError dst k p stTarget
    else
      let r := d.wrAt src (p.tag.map fun t => (0, t)) p.addr p.data
      if r.2 = stOK ∨ r.2 = stStale then r.1 else r.1.ringError dst k p r.2
  | 4 =>
    if !here then d.ringError dst k p stTarget
    else
      let r := d.wrAt src (p.tag.map fun t => (0, t)) p.addr p.data
      r.1.ringRespond dst k p r.2 []
  | 6 => d.bounceAt dst p.orig p.addr p.status
  | _ => d

/-- The packet at the front of a stream reaches the stop that takes it off the ring; `flips` are the bits that a stop's buffer corrupted on its way,
`latency` runs from READY. -/
def Dev.ringArrive (d : Dev) (k : Nat) (p : RingPkt) (flips : List (Nat × Byte)) (latency : Nat) : Dev :=
  let src := keySrc k
  let dst := keyDst k
  let x := d.stream k
  let seen := flipBytes (p.image k) flips
  match d.refuser src dst (keyCls k) p.epoch p.dir with
  | some s => ((d.ringTaken k p).bump (LYR_STOP_s_UNREACHABLE s)).ringError s k p 4
  | none =>
    if !(flips.isEmpty || ringCrcOk seen) || p.seq != x.expSeq then
      let d1 := d.ringReturn false k (p.flits (keyRing k))
      if x.refused && !(p.seq == x.expSeq) then d1
      else ((d1.updStream k fun x => { x with refused := true, retry := some x.expSeq }).bump (LYR_STOP_s_E2E_RETRY dst))
    else
      let d1 := (d.ringTaken k p).ringCount k p.carried p.replays latency
      if isRequest p.type && d1.flag (LYR_STOP_s_STS_FENCED dst) then (d1.bump (LYR_STOP_s_DOMAIN_OFF dst)).ringError dst k p 1
      else d1.ringAct k (if flips.isEmpty then p else p.read seen)

/-- The stops at whose inputs a packet arrives on its way, its destination the last. -/
def arrivals (src dst dir : Nat) : List Nat := (pathStops src dst dir).tail ++ [dst]

/-- RING_PACKET_ACCEPT: the first packet in flight of a stream arrives. `corr` names stops on its way that corrected a single-bit error of one of
its flits (R315), once per error. -/
def Dev.ringAccept (d : Dev) (k : Nat) (flips : List (Nat × Byte)) (corr : List Nat) (latency : Nat) : Dev :=
  let x := d.stream k
  match x.flight with
  | [] => d
  | q :: rest =>
    let d1 := d.setStream k { x with flight := rest }
    match x.window.find? (·.seq == q) with
    | none => d1
    | some p =>
      let hops := corr.filter (arrivals (keySrc k) (keyDst k) p.dir).contains
      ((hops.foldl (fun d s => d.bump (LYR_STOP_s_HOP_CORR s)) d1).ringArrive k p flips latency).showOld
def execRingPacketAccept (ring : Fin 3) (src dst : Fin 28) (cls : Fin 4) (arrival : List (Fin 288 × Byte) × List (Fin 28)) (latency : BitVec 32) (s : State) : Res :=
  s.act fun d => d.ringRow fun d =>
    d.ringAccept (streamKey ring.val src.val dst.val cls.val) (arrival.1.map fun f => (f.1.val, f.2)) (arrival.2.map (·.val)) latency.toNat

/-! ### Bypass (R323) -/

/-- What a bypass of stop `s` ends: streams to it, its own unaccepted packets, what others still owe it. -/
def Dev.bypassEnd (d : Dev) (s : Nat) : Dev :=
  let d1 := (Tab.keys d.lyr.streams).foldl (fun d k =>
    if keyDst k = s then d.endStream k
    else if keySrc k = s then d.updStream k fun x => { x with window := [], flight := [], retry := none, refused := false, expSeq := x.nextSeq }
    else d) d
  let owed := d1.lyr.waiting.filter fun w => w.dst == s && !isRequest w.pkt.type && w.src != s
  let d2 := owed.foldl (fun d w => d.bump (LYR_STOP_s_UNREACHABLE w.src)) d1
  { d2 with lyr.waiting := d2.lyr.waiting.filter fun w => w.src != s && (w.dst != s || isRequest w.pkt.type),
            lyr.returns := d2.lyr.returns.filter fun r => keySrc r.key != s && keyDst r.key != s,
            lyr.bounces := d2.lyr.bounces.filter fun b => b.1 != s }.showOld

/-! ### Failed stops (R483) -/

/-- The queue number of a drain that answers no command. -/
abbrev ownDrain : Nat := 255
/-- POD_DRAIN begins on pod `p`: firmware leaves it out of graphs from now on (R480). -/
def Dev.drainBegin (d : Dev) (p q tag : Nat) : Dev :=
  { d with fw.drains := Tab.put d.fw.drains p (q, tag, ((upTo 4).filter d.tlOn).map fun n => (n, (d.tl n).k)),
           fw.leftOut := d.fw.leftOut ++ [p] }
/-- Firmware bypasses stop `s`, MGT's excepted (R323), and a health event names it. -/
def Dev.bypassNow (d : Dev) (s : Nat) : Dev :=
  if s = 25 ∨ d.flag (LYR_STOP_s_CTL_BYPASS s) then d
  else (((d.setFlag (LYR_STOP_s_CTL_BYPASS s) true).bypassEnd s).mSend 25 63).health 3 11 s
/-- Firmware takes stop `s` for failed: a POD stop is handled first as by POD_DRAIN, any other is bypassed at once. -/
def Dev.stopFails (d : Dev) (s : Nat) : Dev :=
  if 12 ≤ s then d.bypassNow s
  else if d.lyr.failing.contains s then d
  else if d.podMode s = 1 ∧ (Tab.find d.fw.drains s).isNone then d.bypassNow s
  else
    let d1 : Dev := { d with lyr.failing := d.lyr.failing ++ [s] }
    if (Tab.find d1.fw.drains s).isSome then d1 else d1.drainBegin s ownDrain 0
/-- A fault that speaks against stop `s` is noted under `key`; `n` of them within 1 s, and the stop fails. -/
def Dev.noteFault (d : Dev) (s key n : Nat) : Dev :=
  let l := d.now :: (Tab.getD (fun _ => []) d.lyr.faults key).filter fun t => decide (d.now < t + nsT 1000000000)
  let full := decide (n ≤ l.length)
  let d1 : Dev := { d with lyr.faults := Tab.setD (fun _ => ([] : List Nat)) d.lyr.faults key (if full then [] else l) }
  if full then d1.stopFails s else d1

/-! ### Replay, retry, bounces (R308, R315, R316) -/

/-- HOP_REPLAY at stop `st` on its incoming hop of a ring and direction; `hit` names the packets it delays. -/
def Dev.hopReplay (d : Dev) (st ring dir : Nat) (hit : List (Nat × Nat × Nat × Nat)) : Dev :=
  let hop := (ring * 2 + dir) * 28 + st
  let old := (Tab.getD (fun _ => []) d.lyr.hops hop).filter fun t => decide (d.now < t + msT 1)
  let l := d.now :: old
  let full := decide (8 ≤ l.length)
  let d1 := { d.bump (LYR_STOP_s_HOP_REPLAY st) with
    lyr.hops := Tab.setD (fun _ => ([] : List Nat)) d.lyr.hops hop (if full then [] else l) }
  let d2 := hit.foldl (fun d (h : Nat × Nat × Nat × Nat) =>
    d.updStream (streamKey ring h.1 h.2.1 h.2.2.1) fun x =>
      { x with window := x.window.map fun (p : RingPkt) => if p.seq = h.2.2.2 then { p with replays := p.replays + 1 } else p }) d1
  if full then (d2.health 3 1 (st + 2 ^ 8 * ring + 2 ^ 16 * dir)).noteFault st st 3 else d2
def execHopReplay (st : Fin 28) (ring : Fin 3) (ccw : Bool) (hit : List (Fin 28 × Fin 28 × Fin 4 × BitVec 16)) (s : State) : Res :=
  s.act fun d => d.hopReplay st.val ring.val (b2n ccw) (hit.map fun h => (h.1.val, h.2.1.val, h.2.2.1.val, h.2.2.2.toNat))

/-- RING_RETRY: the source retransmits from the named SEQ; after four tries it ends the stream. -/
def Dev.ringRetry (d : Dev) (k : Nat) : Dev :=
  let x := d.stream k
  match x.retry with
  | none => d
  | some q =>
    let again := x.window.dropWhile (·.seq != q)
    if again.any fun p => decide (4 ≤ p.tries) then
      (((((d.endStream k).bump (LYR_STOP_s_E2E_FAIL (keySrc k))).health 3 2 k).recSource 4).noteFault (keyDst k) (32 + keyDst k) 2).showOld
    else
      let act := d.rf LYR_EPOCH_ACTIVE
      let d1 := d.setStream k { x with window := x.window.takeWhile (·.seq != q), flight := [], retry := none }
      (again.foldl (fun d p => d.updStream k fun x =>
        { x with window := x.window ++ [{ p with tries := p.tries + 1, epoch := act, slots := d.slotsFor k p }], flight := x.flight ++ [p.seq] }) d1).showOld
def execRingRetry (ring : Fin 3) (src dst : Fin 28) (cls : Fin 4) (s : State) : Res :=
  s.act fun d => d.ringRow fun d => d.ringRetry (streamKey ring.val src.val dst.val cls.val)

/-- RING_BOUNCE: the first bounce on its way to stop `st` is recorded there: one of its own stop, or a BOUNCE packet, accepted as any packet is. -/
def Dev.ringBounce (d : Dev) (st : Nat) : Dev :=
  match d.lyr.bounces.find? fun b => b.1 == st with
  | some b => { d with lyr.bounces := d.lyr.bounces.erase b }.bounceAt st b.2.1 b.2.2.1 b.2.2.2
  | none => match d.lyr.streams.find? fun x => keyDst x.1 == st && x.2.window.any fun p => p.type == 6 && x.2.flight.head? == some p.seq with
    | none => d
    | some x => { d with free := d.free + 1 }.ringAccept x.1 [] [] (Config.accessLatency d.free)
def execRingBounce (st : Fin 28) (s : State) : Res := s.act fun d => d.ringRow fun d => d.ringBounce st.val

/-! ### Epochs (R320) -/

/-- The FLIP command: ignored while DRAINING. -/
def Dev.epochFlip (d : Dev) (init : Initiator) : Dev :=
  if d.flag LYR_EPOCH_DRAINING then d.regErr .ignored rLYR_EPOCH init
  else (((d.wf LYR_EPOCH_ACTIVE (1 - d.rf LYR_EPOCH_ACTIVE)).setFlag LYR_EPOCH_DRAINING true).mSend 25 63).showOld
def Dev.epochWr (d : Dev) (init : Initiator) (value : Nat) : Dev :=
  let r := d.busWr init rLYR_EPOCH value
  match r.2 with
  | .no => r.1
  | .yes cmds => if bitAt cmds 0 then r.1.epochFlip init else r.1
def execEpochFlip (init : Initiator) (value : Word) (s : State) : Res := s.act fun d => d.epochWr init value.toNat

/-- EPOCH_DRAINED: no old-epoch packet is left. -/
def execEpochDrained (s : State) : Res :=
  s.act fun d => d.ringRow fun d =>
    let d1 := d.showOld
    if d.flag LYR_EPOCH_DRAINING && d1.rf LYR_OLD_INFLIGHT_COUNT == 0 then ((d1.setFlag LYR_EPOCH_DRAINING false).bump LYR_EPOCH_FLIPS).mSend 25 63
    else d1

/-! ### Bypass by command (R323) -/

/-- A write of a stop's CTL: BYPASS = 1 is ignored for MGT, BYPASS = 0 is taken only while the stop is fenced. -/
def Dev.stopCtlWr (d : Dev) (init : Initiator) (st value : Nat) : Dev :=
  let off := rLYR_STOP_s_CTL st
  let f := LYR_STOP_s_CTL_BYPASS st
  let r := d.busWr init off value
  match r.2 with
  | .no => r.1
  | .yes _ =>
    if d.flag f == r.1.flag f then r.1
    else if r.1.flag f then
      if st = 25 then (r.1.setFlag f false).regErr .ignored off init else (r.1.bypassEnd st).mSend 25 63
    else if d.flag (LYR_STOP_s_STS_FENCED st) then (r.1.setFlag (LYR_STOP_s_STS_BYPASSED st) false).mSend 25 63
    else (r.1.setFlag f true).regErr .ignored off init
def execStopBypass (init : Initiator) (st : Fin 28) (value : Word) (s : State) : Res := s.act fun d => d.stopCtlWr init st.val value.toNat
def execStopRejoin (init : Initiator) (st : Fin 28) (value : Word) (s : State) : Res := s.act fun d => d.stopCtlWr init st.val value.toNat

/-- STOP_BYPASSED: every stop has acknowledged. -/
def execStopBypassed (st : Fin 28) (s : State) : Res :=
  s.act fun d => if d.flag (LYR_STOP_s_CTL_BYPASS st) then d.setFlag (LYR_STOP_s_STS_BYPASSED st) true else d

/-! ### Samples (R324, R325) -/

/-- The counts become a sample and start again from 0. A stop fenced or bypassed now, or until some time in the sample, is PARTIAL. -/
def Dev.ringSample (d : Dev) (clock : Bool) (period at' : Nat) : Dev :=
  let fenced := (upTo 28).filter fun s => d.flag (LYR_STOP_s_STS_FENCED s) || d.flag (LYR_STOP_s_STS_BYPASSED s) || d.flag (LYR_STOP_s_CTL_BYPASS s)
  { d with lyr.sample := some ⟨clock, period, d.lyr.partialStops ++ fenced, d.lyr.stats⟩, lyr.stats := [], lyr.sampledAt := at',
           lyr.shift := d.rf LYR_STAT_CFG_SHIFT, lyr.partialStops := [] }

/-- RING_STATS_SAMPLE: at a boundary event of T0, once each; while T0 is disabled, 1 ms after the last one. -/
def execRingStatsSample (s : State) : Res :=
  s.act fun d =>
    if d.tlOn 0 then
      let t := d.tl 0
      if t.started && d.lyr.sampledAt != d.boundaryT 0 t.k then d.ringSample false ((t.k + 65535) % 65536) (d.boundaryT 0 t.k) else d
    else
      let d1 := d.advanceTo (d.lyr.sampledAt + msT 1)
      d1.ringSample true 0 d1.now

/-- A RING_STATS record. -/
def RingSample.record (x : RingSample) (st ring cls : Nat) : List Byte :=
  let r := Tab.getD (fun _ => RingStat.zero) x.stats (statKey st ring cls)
  leBytes 1 1 ++ leBytes 1 st ++ leBytes 1 (cls + 4 * ring + 16 * b2n x.clock + 32 * b2n (x.partialStops.contains st)) ++ leBytes 1 0 ++
  leBytes 2 x.period ++ leBytes 2 0 ++ leBytes 8 r.bytes ++ leBytes 4 r.pkts ++ leBytes 4 r.replays ++
  (r.bins.flatMap fun b => leBytes 4 b) ++ leBytes 8 0
/-- The 336 records, by stop, ring and class. -/
def RingSample.records (x : RingSample) : List (List Byte) :=
  (upTo 28).flatMap fun st => (upTo 3).flatMap fun ring => (upTo 4).map fun cls => x.record st ring cls

/-- STATS_READ. -/
def execStatsRead (c : PqCmd) (s : State) : Res :=
  s.pq 0x0A05 c fun d =>
    let whole := pp c 2 / 96
    let n := min (if d.lyr.sample.isSome then 336 else 0) whole
    d.checks c [(decide (1 ≤ whole) && !d.obOk (pAddr c 0) (96 * whole), badParam)] fun d =>
    match d.lyr.sample with
    | none => d.finR c [0, 0]
    | some x =>
      (d.hostWrite (pAddr c 0) ((x.records.take n).flatten)).finR c [n, 336]

end Sys2Proof.Machine
end

