-- ==== Sys2Proof/Machine/Service.lean ====
section
/-! DEFINITION. Sparing, pods out of service and back, firmware staging and switching (R107, R91, R450, R478-R482). -/

namespace Sys2Proof.Machine

/-! ### Cores (R107, R478, R479) -/

/-- The command `c` has started and owes its final completion: its row goes on with it. -/
def Dev.pqWaits (d : Dev) (op : Nat) (c : PqCmd) : Bool :=
  (d.qp c.queue).running.any fun r => r.opcode == op && r.cmd == c && r.started && r.own.isNone && !r.dup
/-- A row that begins a command, or goes on with it once it has begun. -/
def Dev.pqStep (d : Dev) (op : Nat) (c : PqCmd) (begin' again : Dev → Dev) : Dev :=
  if d.pqWaits op c then again d else d.pqDo op c begin'

/-- Write a core's mask bit; a change is logged as MASK. -/
def Dev.setMask (d : Dev) (c : Nat) (b : Bool) : Dev :=
  if d.coreMasked c = b then d
  else (((d.setFlag ⟨rWDS_PODn_CORES (c / 9), c % 9, 1⟩ b).logPod 0x06 0xFF 0 0 0).unhang (c / 9)).wdsSettle

/-- Core index 8 of pod `p` is reset, runs and is unmasked. -/
def Dev.bringSpare (d : Dev) (p : Nat) : Dev :=
  let c := 9 * p + 8
  let d1 := (d.coreReset c).setFlag (POD_CORE_c_CTL_RUN p 8) true
  (d1.coreStart c).setMask c false

/-- Steps 3 and 4 of CORE_SPARE, once the core holds no job. -/
def Dev.spareIn (d : Dev) (c : Nat) : Dev :=
  let p := c / 9
  let d1 := ((d.coreReset c).setFlag (POD_CORE_c_CTL_RUN p (c % 9)) false).coreStop c
  let fl := Tab.mapV (fun _ (f : Flow) => if f.last = some c then { f with last := none } else f) d1.wds.flows
  ({ d1 with pods.spared := if d1.pods.spared.contains c then d1.pods.spared else d1.pods.spared ++ [c], wds.flows := fl }).bringSpare p

/-- Go on with CORE_SPARE: it waits while the core holds a job. -/
def Dev.coreSpareGo (d : Dev) (c : PqCmd) : Dev :=
  let i := pp c 0
  if (d.core i).job.isSome then d else (d.spareIn i).finR c [9 * (i / 9) + 8]

/-- CORE_SPARE. -/
def Dev.coreSpare (d : Dev) (c : PqCmd) : Dev :=
  let i := pp c 0
  d.checks c
    [(decide (108 ≤ i) || i % 9 == 8, badParam), (!d.domOn 75 || !d.domOn (coreDom i) || !d.domOn (coreDom (9 * (i / 9) + 8)), domainOffS),
     (!d.coreMasked (9 * (i / 9) + 8), busyS)]
    fun d => (d.setMask i true).coreSpareGo c
def execCoreSpare (c : PqCmd) (s : State) : Res := s.act fun d => d.pqStep 0x0906 c (fun d => d.coreSpare c) fun d => d.coreSpareGo c

/-- HUNG_CORE_RECOVERY: firmware resets the core and runs its self-test. One that passes is unmasked, unless it was declared hung
again within 1,000 periods: then the spare takes its place, if it is free. -/
def Dev.hungRecovery (d : Dev) (c : Nat) (passed : Bool) : Dev :=
  if !d.wds.hung.contains c then d
  else
    let again := match Tab.find d.wds.hungAt c with
      | some (_, _, b) => b
      | none => false
    let d1 := d.coreReset c
    if again then (if d1.coreMasked (9 * (c / 9) + 8) && c % 9 != 8 then d1.spareIn c else d1)
    else if passed then d1.setMask c false else d1
def execHungCoreRecovery (c : Fin 108) (passed : Bool) (s : State) : Res := s.act fun d => d.hungRecovery c.val passed

/-! ### Pods (R480-R482) -/

/-- A pod is drained: MASKED, no job held. -/
def Dev.podIdle (d : Dev) (p : Nat) : Bool := d.podMode p == 1 && d.rf (WDS_PODn_BUSY p) == 0

/-- POD_DRAIN. -/
def Dev.podDrain (d : Dev) (c : PqCmd) : Dev :=
  let p := pp c 0
  d.checks c
    [(decide (12 ≤ p), badParam), (!d.domOn 75, domainOffS), (d.podMode p == 2 || (Tab.find d.fw.drains p).isSome, busyS)]
    fun d =>
      let d1 := d.accepted c.queue.val c.tag.toNat
      if d1.podMode p = 1 then d1.fin c okS
      else d1.drainBegin p c.queue.val c.tag.toNat
def execPodDrain (c : PqCmd) (s : State) : Res := s.pq 0x0903 c fun d => d.podDrain c

/-- Every live period of every enabled timeline has been built since the drain began: two boundaries have passed. -/
def Dev.builtSince (d : Dev) (marks : List (Nat × Nat)) : Bool :=
  marks.all fun m => !d.tlOn m.1 || decide (m.2 + 2 ≤ (d.tl m.1).k) || decide ((d.tl m.1).k < m.2)

/-- A pod is drained: its command completes, and a stop that had failed is bypassed (R480, R483). -/
def Dev.drained (d : Dev) (p q tag : Nat) : Dev :=
  let d1 : Dev := { d with fw.drains := Tab.del d.fw.drains p, lyr.failing := d.lyr.failing.filter (· != p) }
  let d2 := if q = ownDrain then d1 else d1.complete q tag okS []
  if d.lyr.failing.contains p then d2.bypassNow p else d2

/-- POD_DRAIN_COMPLETE: the pod is set MASKED, and POD_DRAIN completes once its busy fields read 0. -/
def execPodDrainComplete (p : Fin 12) (s : State) : Res :=
  s.act fun d => match Tab.find d.fw.drains p.val with
    | none => d
    | some (q, tag, marks) =>
      if !d.builtSince marks then d
      else
        let d1 := if d.podMode p.val = 1 then d else ((d.wf (WDS_PODn_CTL_MODE p.val) 1).logPod 0x06 0xFF 0 0 0).wdsSettle
        if d1.rf (WDS_PODn_BUSY p.val) = 0 ∧ d1.rf (CPX_STS_BUSY p.val) = 0 then
          d1.drained p.val q tag
        else d1

/-- A kernel-table entry keeps to its layout, and its first instruction lies in the code. -/
def kernelOk (b : List Byte) (codeLen i : Nat) : Bool :=
  let e := slice b (64 + 8 * i) 8
  let a := leAt e 4 1
  let g := leAt e 5 1
  decide (leAt e 0 4 < 2 ^ 21) && decide (leAt e 0 4 < codeLen / 4) && (decide (a ≤ 16) || a == 0xFF) &&
  (decide (g ≤ 23) || g == 0xFF) && leAt e 6 2 == 0

/-- A pod image keeps to R481. -/
def podImageOk (b : List Byte) : Bool :=
  let n := leAt b 6 2
  let co := leAt b 8 4
  let cl := leAt b 12 4
  decide (64 ≤ b.length) && leAt b 0 4 == 0x5A4E5031 && leAt b 4 2 == 1 && decide (1 ≤ n) && decide (n ≤ 1024) && co % 4 == 0 &&
  decide (4 ≤ cl) && decide (cl ≤ 0x7FF000) && cl % 4 == 0 && (slice b 24 40).all (· == 0) && decide (64 + 8 * n ≤ b.length) &&
  (upTo n).all (fun i => kernelOk b cl i) && decide (co + cl ≤ b.length) &&
  crc32 (b.take 20 ++ [0, 0, 0, 0] ++ b.drop 24) == leAt b 20 4

/-- POD_LOAD; `image` is what the host holds at its address. -/
def Dev.podLoad (d : Dev) (c : PqCmd) (image : List Byte) : Dev :=
  let p := pp c 0
  let b := image.take (pp c 3)
  d.checks c
    [(decide (12 ≤ p) || pp c 3 == 0 || !d.obOk (pAddr c 1) (pp c 3), badParam), (!d.hif.closed && !podImageOk b, badParam),
     (!d.domOn 75 || !d.domOn (3 * p + 2), domainOffS), (!d.podIdle p || (Tab.find d.fw.loads p).isSome, busyS)]
    fun d =>
      if d.hif.closed then d.internal c
      else
        let d1 := d.accepted c.queue.val c.tag.toNat
        { d1 with fw.loads := Tab.put d1.fw.loads p (c.queue.val, c.tag.toNat, b) }
def execPodLoad (c : PqCmd) (image : List Byte) (s : State) : Res := s.pq 0x0904 c fun d => d.podLoad c image

/-- The pod image in force. -/
def podImageOf (b : List Byte) : PodImage :=
  ⟨leAt b 16 4, leAt b 20 4, (upTo (leAt b 6 2)).map fun i => let e := slice b (64 + 8 * i) 8; (leAt e 0 4, leAt e 4 1, leAt e 5 1)⟩

/-- POD_LOAD_COMPLETE: with the coprocessors idle, the cores are reset and the code is copied. A recording then holds more than one
image for the pod (R502), marked by a value no CRC has. A pod put back to LIVE meanwhile is not written until it is drained again (R20). -/
def execPodLoadComplete (p : Fin 12) (s : State) : Res :=
  s.act fun d => match Tab.find d.fw.loads p.val with
    | none => d
    | some (q, tag, b) =>
      if d.rf (CPX_STS_BUSY p.val) ≠ 0 ∨ !d.podIdle p.val then d
      else
        let d1 := (upTo 9).foldl (fun d i => if d.domOn (coreDom (9 * p.val + i)) then d.coreReset (9 * p.val + i) else d) d
        let d2 := d1.podWrite p.val 0 (slice b (leAt b 8 4) (leAt b 12 4))
        let mixed := if d2.recording && (Tab.find d2.pods.images p.val).map (·.crc) != some (podImageOf b).crc then
          Tab.put d2.marrow.images p.val (2 ^ 32) else d2.marrow.images
        { d2 with fw.loads := Tab.del d2.fw.loads p.val, pods.images := Tab.put d2.pods.images p.val (podImageOf b),
                  marrow.images := mixed }.complete q tag okS []

/-- RUN is set on a core. -/
def Dev.runCore (d : Dev) (c : Nat) : Dev :=
  let f := POD_CORE_c_CTL_RUN (c / 9) (c % 9)
  if d.flag f || !d.domOn (coreDom c) then d else (d.setFlag f true).coreStart c

/-- POD_RETURN. -/
def Dev.podReturn (d : Dev) (c : PqCmd) : Dev :=
  let p := pp c 0
  d.checks c [(decide (12 ≤ p), badParam), (!d.domOn 75, domainOffS), (!d.podIdle p || (Tab.find d.fw.loads p).isSome, busyS)] fun d =>
    let d1 := ((upTo 9).filter fun i => !d.coreMasked (9 * p + i)).foldl (fun d i => d.runCore (9 * p + i)) d
    let d2 := ((d1.wf (WDS_PODn_CTL_MODE p) 0).logPod 0x06 0xFF 0 0 0).wdsSettle
    { d2 with fw.leftOut := d2.fw.leftOut.filter (· != p) }.fin c okS
def execPodReturn (c : PqCmd) (s : State) : Res := s.pq 0x0905 c fun d => d.podReturn c

/-! ### Firmware (R91, R450) -/

/-- FW_STAGE; `image` is what the host holds at its address. One staging at a time. -/
def Dev.fwStage (d : Dev) (c : PqCmd) (image : List Byte) : Dev :=
  d.checks c [(pp c 2 == 0 || !d.obOk (pAddr c 0) (pp c 2), badParam), (d.fw.stage.isSome, busyS)] fun d =>
    if d.hif.closed then d.internal c
    else { d.accepted c.queue.val c.tag.toNat with fw.stage := some (c.queue.val, c.tag.toNat, image.take (pp c 2)) }
def execFwStage (c : PqCmd) (image : List Byte) (s : State) : Res := s.pq 0x0901 c fun d => d.fwStage c image

/-- Staging ends for a container of either kind. -/
def State.fwStageDone (s : State) : State :=
  match s.dev.fw.stage with
  | none => s
  | some (q, tag, b) =>
    let d0 : Dev := { s.dev with fw.stage := none }
    let done (f : Flash) (next : Option (Nat × Nat × Nat)) (ok : Bool) : State :=
      let d1 : Dev := { d0 with fw.next := next }
      { s with dev := if ok then d1.complete q tag okS [versionOf b] else d1.complete q tag protectionS [], sec.flash := f }
    let f := s.sec.flash
    match leAt b 6 1 with
    | 1 =>
      let slot := 1 - d0.rf SEC_BOOT_STS_FW_SLOT
      if s.sec.valid 1 b then done (f.setFw slot b) (some (slot, versionOf b, svnOf b)) true else done (f.setFw slot []) none false
    | 2 =>
      let slot := 1 - f.btSlot
      if s.sec.valid 2 b then done ((f.setBt slot b).writeHeader f.fwSlot slot) d0.fw.next true else done (f.setBt slot []) d0.fw.next false
    | _ => done f d0.fw.next false
def execFwStageComplete (s : State) : Res := .next s.fwStageDone

/-- FW_SWITCH: with nothing staged, or a switch staged already, it does not happen: BUSY (assumption log). -/
def Dev.fwSwitch (d : Dev) (c : PqCmd) : Dev :=
  d.checks c
    [(d.badTarget c, badParam), (d.fw.next.isNone || d.fw.staged.any (fun e => e.eff == .fwSwitch), busyS)]
    fun d => d.stage c 0x0902 true .fwSwitch
def execFwSwitch (c : PqCmd) (s : State) : Res := s.pq 0x0902 c fun d => d.fwSwitch c

/-- A two-stage FW_STAGE, POD_LOAD or REC_REPLAY is open. -/
def Dev.openTwoStage (d : Dev) : Bool := d.fw.stage.isSome || !d.fw.loads.isEmpty || d.marrow.replay.isSome
/-- The new image takes over, and the command completes with its version; with no image staged any more, or with a two-stage command open where no
seal point was met, the old one goes on serving. -/
def Dev.fwTakeover (d : Dev) (e : Staged) : Dev :=
  match (if d.openTwoStage then none else d.fw.next) with
  | none => { d with hif.fetchStopped := false }.complete e.queue e.tag busyS []
  | some (slot, version, svn) =>
    let d1 : Dev := { (d.wf SEC_BOOT_STS_FW_SLOT slot).wf SEC_FW_SVN_RUN_SVN svn with
      fw.version := version, fw.since := d.now, fw.next := none, hif.fetchStopped := false }
    d1.complete e.queue e.tag okS [version]

/-- Once FW_SWITCH has completed OK, firmware writes a header naming the new slot. -/
def State.nameSlot (old : Nat) (s : State) : State :=
  let n := s.dev.rf SEC_BOOT_STS_FW_SLOT
  if n = old then s else { s with sec.flash := s.sec.flash.writeHeader n s.sec.flash.btSlot }

/-- The staged FW_SWITCH and TWIN_SWAP whose boundary comes first, and its instant. -/
def Dev.nextSeal (d : Dev) : List Staged × Nat :=
  (d.fw.staged.filter fun e => e.eff == .fwSwitch || e.eff == .twinSwap).foldl (fun (b : List Staged × Nat) e =>
    let t := d.boundaryT e.tl (d.targetK e.tl e.target)
    if b.1.isEmpty ∨ t < b.2 then ([e], t) else if t = b.2 then (b.1 ++ [e], t) else b) ([], 0)

/-- SEAL_POINT: 8 µs before that boundary fetching stops; with a two-stage command open, FW_SWITCH completes BUSY instead, whatever else that
boundary seals. -/
def Dev.sealPoint (d : Dev) : Dev :=
  match d.nextSeal with
  | ([], _) => d
  | (es, t) =>
    let d1 := d.advanceTo (t - usT 8)
    let busy := if d1.openTwoStage then es.filter (·.eff == .fwSwitch) else []
    let d2 := busy.foldl (fun d e => { d with fw.staged := d.fw.staged.filter (· != e) }.complete e.queue e.tag busyS []) d1
    if busy.length = es.length then d2 else { d2 with hif.fetchStopped := true }
def execSealPoint (s : State) : Res := s.act fun d => d.sealPoint

end Sys2Proof.Machine
end

