-- ==== Sys2Proof/Machine/Twin.lean ====
section
/-! DEFINITION. Twins: heartbeats, mirroring, takeover, swap, attach (R32, R80, R90, R484-R495). -/

namespace Sys2Proof.Machine

/-! ### Roles (R484, R494) -/

def Dev.role (d : Dev) : Nat := d.rf MGT_TWIN_STS_ROLE
def Dev.partner (d : Dev) : Nat := d.rf MGT_TWIN_STS_PARTNER
/-- TWIN_ROLE_OUT is high while the device is ACTIVE, PD_MGT runs, and a heartbeat left at one of the last two instants. -/
def Dev.roleOut (d : Dev) : Dev := d.setFlag MGT_TWIN_STS_ROLE_OUT (d.role == 1 && d.domRun 78 && decide (d.twin.silent < 2))

/-- Twin event `code`. -/
def Dev.twinEvent (d : Dev) (code a b c : Nat) : Dev := d.event 3 code a b c
/-- PARTNER_LOST. -/
def Dev.partnerLost (d : Dev) (reason : Nat) : Dev := d.twinEvent 2 reason (d.rf MGT_TWIN_UNACK) 0
/-- The role changes: ROLE_CHANGE with its reason. -/
def Dev.setRole (d : Dev) (role reason : Nat) : Dev :=
  let old := d.role
  ((d.wf MGT_TWIN_STS_ROLE role).roleOut).twinEvent 1 (role + 2 ^ 8 * old) reason ((d.tl 0).k % 65536)

/-- Nothing waits for the partner any more: acknowledgements and outcomes are not awaited. -/
def Dev.unwait (d : Dev) : Dev :=
  let d1 : Dev := { d.wf MGT_TWIN_UNACK 0 with
    hif.qs := Tab.mapV (fun _ (x : QPair) => { x with running := x.running.map fun (r : RunCmd) =>
      { r with mirror := if r.mirror = 1 then 2 else r.mirror, outcome := false } }) d.hif.qs }
  (upTo 16).foldl (fun d q => d.flush q) d1

/-- The ACTIVE leaves the pair and serves on. -/
def Dev.leaveActive (d : Dev) (partner reason : Nat) : Dev :=
  (((((d.partnerLost reason).wf MGT_TWIN_STS_PARTNER partner).wf MGT_TWIN_STS_MISSED_RUN 0).wf MGT_TWIN_SLOTS_PENDING_SLOTS 0).setRole 0 3).unwait.twinStop.serviceSync

/-- The STANDBY's mirrored commands are forgotten. -/
def Dev.dropGhosts (d : Dev) : Dev :=
  { d with twin.log := [], twin.banks := [], twin.source := none, hif.qs := Tab.mapV (fun _ (x : QPair) => { x with running := x.running.filter fun r => !r.ghost }) d.hif.qs }

/-- The STANDBY leaves the pair: every timeline is disabled, every carrier context and narrowband channel removed (R491). -/
def Dev.leaveStandby (d : Dev) (reason : Nat) : Dev :=
  let d1 := (upTo 4).foldl (fun d n => if d.flag (TMU_TLn_CTL_ENABLE n) then d.timelineStop n else d) d
  let d2 := (Tab.keys d1.fw.carriers).foldl (fun d cc => d.carRemoveNow cc) d1
  let d3 := (upTo 256).foldl (fun d n =>
    if d.flag (NBB_CHn_CTL_RX_EN n) || d.flag (NBB_CHn_CTL_TX_EN n) || (Tab.find d.fw.nb n).isSome || (Tab.find d.fw.nbTx n).isSome then d.nbRemoveNow n
    else d) d2
  let d4 := (d3.partnerLost reason).dropGhosts
  { ((d4.wf MGT_TWIN_STS_PARTNER 0).wf MGT_TWIN_STS_MISSED_RUN 0).setRole 0 3 with twin.lostAt := none, twin.takeover := false }.twinStop.serviceSync

/-! ### Heartbeats (R485, R486) -/

/-- A scan has the twin link out of receive service: nothing arrives (R301, R368). -/
def Dev.twinDeaf (d : Dev) : Bool := decide (d.now < d.twin.gapEnd)
/-- TWIN_HEARTBEAT_SEND: an instant at which one is due: `sent` says it left this device, `heard` that the partner's arrived. -/
def Dev.heartbeat (d : Dev) (sent heard : Bool) : Dev :=
  if d.role = 0 then d
  else
    let d1 := { d with twin.silent := if sent then 0 else d.twin.silent + 1 }.roleOut
    if heard && !d.twinDeaf && (d1.partner == 2 || d1.partner == 3) then
      { (d1.wf MGT_TWIN_STS_MISSED_RUN 0).wf MGT_TWIN_STS_PARTNER 2 with twin.lostAt := none, twin.takeover := false, twin.heardAt := d.now }
    else d1
def execTwinHeartbeatSend (sent heard : Bool) (s : State) : Res := s.act fun d => d.heartbeat sent heard

/-- Three misses in a row. -/
def Dev.missedThree (d : Dev) (roleIn : Bool) : Dev :=
  if d.role = 1 then
    ((d.partnerLost 0).wf MGT_TWIN_STS_PARTNER 4).unwait
  else if roleIn then
    { (d.wf MGT_TWIN_STS_PARTNER 3).twinEvent 3 3 0 0 with twin.lostAt := some d.now }
  else { d with twin.takeover := true }

/-- TWIN_HEARTBEAT_MISS: none has arrived 20 µs after it was due; `roleIn` is the level of TWIN_ROLE_IN. Misses in a gap the partner
announced are not counted. -/
def Dev.heartbeatMiss (d : Dev) (roleIn : Bool) : Dev :=
  if !d.paired || d.twinDeaf then d
  else
    let n := d.rf MGT_TWIN_STS_MISSED_RUN
    let d1 := ((d.bump MGT_TWIN_MISSED).wf MGT_TWIN_STS_MISSED_RUN (min 3 (n + 1))).setFlag MGT_TWIN_STS_ROLE_IN roleIn
    if n = 2 then d1.missedThree roleIn
    else if n = 3 ∧ d1.role = 2 ∧ !roleIn then { d1 with twin.takeover := true }
    else d1
def execTwinHeartbeatMiss (roleIn : Bool) (s : State) : Res := s.act fun d => d.heartbeatMiss roleIn

/-- TWIN_LINK_LOST_TIMEOUT: LINK_LOST has lasted 10 s. -/
def execTwinLinkLostTimeout (s : State) : Res :=
  s.act fun d => match (if d.role == 2 && d.partner == 3 then d.twin.lostAt else none) with
    | none => d
    | some t => (d.advanceTo (t + nsT 10000000000)).leaveStandby 3

/-! ### Mirroring (R487-R489) -/

/-- What the STANDBY keeps of a command it only logs: a swap is staged, since both devices take part (R492); a time source is remembered for
the takeover (R487). -/
def Dev.mirrorNote (d : Dev) (op : Nat) (c : PqCmd) : Dev :=
  if op = 0x0704 ∧ !d.badTarget c ∧ !d.flag MGT_TWIN_STS_SWAP_PENDING then (d.setFlag MGT_TWIN_STS_SWAP_PENDING true).stage c op false .twinSwap
  else if op = 0x0502 ∧ !badSource c then { d with twin.source := some (pp c 0, pp c 1, pp c 2, pp c 3) }
  else d
/-- The STANDBY takes a mirrored command into its log and, by its group, applies it. -/
def Dev.mirrorIn (d : Dev) (q : Fin 16) (e : List Byte) : Dev :=
  let (c, op) := parseCmd q e
  match Sys2Proof.Machine.entryRefusal e with
  | some _ => d
  | none =>
    let app := mirrorApplied op
    let run : RunCmd := ⟨c, op, false, 0, false, 0, false, true, none, d.planSealed op c⟩
    let d1 := d.updQp q fun x => { x with window := windowAdd x.window ⟨c.tag.toNat, op, none⟩,
                                          running := if app then x.running ++ [run] else x.running }
    let m : MirrorRec := ⟨q.val, run, app, none, false⟩
    { d1 with twin.log := d1.twin.log ++ [m] }.mirrorNote op c

/-- The oldest command of a list that awaits its acknowledgement has it. -/
def ackFirst : List RunCmd → List RunCmd
  | [] => []
  | r :: t => if r.mirror = 1 then { r with mirror := 2 } :: t else r :: ackFirst t

/-- TWIN_MIRROR_ACK: on the STANDBY, `entry` of pair `q` has reached its log; on the ACTIVE, the oldest command of the pair is
acknowledged. -/
def Dev.mirrorAck (d : Dev) (q : Fin 16) (e : List Byte) : Dev :=
  if d.twinDeaf then d
  else if d.role = 2 then d.mirrorIn q e
  else if d.role = 1 ∧ (d.qp q).running.any (fun r => r.mirror == 1) then
    ((d.updQp q fun x => { x with running := ackFirst x.running }).wf MGT_TWIN_UNACK (d.rf MGT_TWIN_UNACK - 1)).flush q
  else d
def execTwinMirrorAck (q : Fin 16) (entry : List Byte) (s : State) : Res := s.act fun d => d.mirrorAck q entry

/-- The outcomes differ: the pair has diverged. -/
def Dev.diverged (d : Dev) (r : RunCmd) (own standby : Nat) : Dev :=
  let g := if r.opcode / 256 = 0x0B ∧ r.opcode ≠ 0x0B01 then pp r.cmd 0 % 256 else 0xFF
  (d.twinEvent 5 (r.cmd.tag.toNat + 2 ^ 16 * r.opcode) (own + 2 ^ 16 * standby) g).leaveActive 4 1

/-- The control that `off`, a register of one of its banks, belongs to, with the register of bank 0 in its place and the ACTIVE field: later
commits replace earlier ones whichever bank they wrote. -/
def bankSpot (off : Nat) : Option (Nat × Nat × Nat × Fld) :=
  let go (base n stride step : Nat) (act : Nat → Fld) : Option (Nat × Nat × Nat × Fld) :=
    let i := (off - base) / stride
    let r := (off - base) % stride
    if base ≤ off ∧ i < n ∧ r < 2 * step then some (base + stride * i, base + stride * i + r % step, step, act i) else none
  [go (rDFE_DPD_t_b_TERM_i 0 0 0) 64 0x800 0x400 DFE_TX_t_DPD_ACTIVE, go (rDFE_IQC_r_b_DC 0 0) 64 0x20 8 DFE_IQC_r_CTL_ACTIVE,
    go (rDFE_ALN_c_b_RXW 0 0) 64 0x20 8 DFE_ALN_c_CTL_ACTIVE].findSome? id
/-- The STANDBY keeps a commit's bank: it takes the place of the control's earlier one (R293). -/
def keepBanks (t : Tab Nat) (banks : List (Nat × Nat)) : Tab Nat :=
  let hit := banks.filterMap fun b => (bankSpot b.1).map (·.1)
  banks.foldl (fun t b => match bankSpot b.1 with
    | some x => Tab.put t x.2.1 b.2
    | none => t) (t.filter fun p => !((bankSpot p.1).any fun x => hit.contains x.1))
/-- The register of the control's active bank here that kept register `off` is loaded into. -/
def Dev.bankHome (d : Dev) (off : Nat) : Option Nat := (bankSpot off).map fun x => x.2.1 + x.2.2.1 * d.rf x.2.2.2
/-- The mirrored banks are loaded as the active banks (R293). -/
def Dev.loadBanks (d : Dev) : Dev :=
  let d1 := d.twin.banks.foldl (fun e (b : Nat × Nat) => match d.bankHome b.1 with
    | some o => if (regAt o).isSome then e.setReg o b.2 else e
    | none => e) d
  { d1 with twin.banks := [] }
/-- TWIN_OUTCOME: on the ACTIVE, the STANDBY's status of a command it awaits it for; on the STANDBY, the completion the ACTIVE has
confirmed, and `banks`, registers of the coefficient banks it has committed. -/
def Dev.twinOutcome (d : Dev) (q : Fin 16) (tag status : Nat) (res : List Nat) (banks : List (Nat × Nat)) : Dev :=
  if d.twinDeaf then d
  else if d.role = 2 then
    let d1 : Dev := { d with twin.log := d.twin.log.filter fun m => !(m.queue == q.val && m.run.cmd.tag.toNat == tag),
                             twin.banks := keepBanks d.twin.banks banks }
    d1.updQp q fun x => { x with window := noteWindow x.window tag ⟨status, res⟩ }
  else
    match (d.qp q).running.find? fun r => r.outcome && r.cmd.tag.toNat == tag with
    | none => d
    | some r => match r.own with
      | none => d
      | some c =>
        if c.status = status then
          (d.updQp q fun x => { x with running := x.running.map fun (y : RunCmd) => if y = r then { y with outcome := false } else y }).flush q
        else d.diverged r c.status status
def execTwinOutcome (q : Fin 16) (tag status : BitVec 16) (res : List Word × List (BitVec 28 × Word)) (s : State) : Res :=
  s.act fun d => d.twinOutcome q tag.toNat status.toNat (res.1.map (·.toNat)) (res.2.map fun b => (b.1.toNat, b.2.toNat))

/-- TWIN_SLOT_COPY: the ACTIVE has copied a marked slot; the STANDBY writes the half (`bside`: half B), then the header. -/
def Dev.slotCopy (d : Dev) (p i : Nat) (bside : Bool) (half header : List Byte) : Dev :=
  let a := d.slotAddr p i
  if d.twinDeaf then d
  else if d.role = 1 then
    if d.slotsPending.contains (p, i) then
      { d with twin.gens := Tab.setD (fun _ => 0) d.twin.gens (2 ^ 16 * p + i) (d.slotGen p i) }.slotsShow
    else d
  else if d.role = 2 then
    (d.poke (a + (if bside then 25408 else 64)) (half.take 25344)).poke a (header.take 64)
  else d
def execTwinSlotCopy (p : Fin 2) (slot : Fin 65536) (bside : Bool) (half header : List Byte) (s : State) : Res :=
  s.act fun d => d.slotCopy p.val slot.val bside half header

/-! ### Takeover and swap (R90, R490, R492) -/

/-- DEADLINE_DROPPED reports for planned allocations not served: downlink up to `k + 1`, and, where the partner died (`died`), uplink and downlink of
the periods before `k` that began after its last heartbeat (R490, R492; assumption log 150). -/
def Dev.reportUnserved (d : Dev) (died : Bool) : Dev :=
  (d.fw.plans.filter fun p => (d.tl p.tl).started).foldl (fun d p =>
    let k := (d.tl p.tl).k
    let past := died && decide (32768 ≤ ahead k p.period) && decide (d.twin.heardAt < d.boundaryT p.tl (d.airK p.tl p.period))
    let lost (r : PlanRec) : Bool := if r.dir = 1 then past else past || decide (ahead k p.period ≤ 1)
    (p.recs.filter lost).foldl (fun d r =>
      let x : JobDesc := { parseJob [] with period := p.period, tl := p.tl, target := r.cc + 512 * r.dir, alloc := r.alloc }
      d.report [(x, if r.dir = 1 then 1 else 8)] (dropKey x)) d) d

/-- The plans of every live period are to be built anew, on this device (R490, R492). -/
def Dev.replan (d : Dev) : Dev :=
  { d with fw.plans := d.fw.plans.map fun (p : Plan) =>
      if p.built ∧ (d.tl p.tl).started ∧ ahead (d.tl p.tl).k p.period ≤ 32767 then { p with built := false } else p }

/-- A mirrored command the old ACTIVE had not confirmed becomes this device's own: behind those adopted before it, in the order of the log (R90). -/
def Dev.adopt (d : Dev) (m : MirrorRec) : Dev :=
  let q := m.queue
  let tag := m.run.cmd.tag.toNat
  let mine (r : RunCmd) : Bool := r.ghost && r.cmd.tag.toNat == tag
  match (d.qp q).running.find? mine with
  | some g => d.updQp q fun x => { x with running := (x.running.filter fun r => !mine r) ++ [{ g with ghost := false }] }
  | none =>
    let own := match (d.qp q).window.find? (fun w => w.tag == tag) with
      | some w => w.cmpl
      | none => none
    let done := m.applied && own.isSome
    d.updQp q fun x => { x with running := x.running ++ [⟨m.run.cmd, m.run.opcode, done, 0, false, 0, false, false, if done then own else none, m.run.late⟩] }

/-- TWIN_TAKEOVER. -/
def Dev.takeOver (d : Dev) : Dev :=
  if !(d.role == 2 && d.twin.takeover) then d
  else
    let lost := d.twin.log
    let d1 : Dev := { d with twin.log := [], twin.takeover := false, twin.silent := 0, twin.lostAt := none,
                             twin.adopted := lost.map fun m => (m.queue, m.run.cmd.tag.toNat) }
    let d2 := (((d1.wf MGT_TWIN_STS_PARTNER 4).wf MGT_TWIN_STS_MISSED_RUN 0).setRole 1 1).partnerLost 0
    let d3 := ((upTo 36).filter fun x => d2.dom x == 2 && !d2.pmuBusy x).foldl (fun d x => d.pmuPush x 0 .firmware) d2
    let d4 := lost.foldl (fun d m => d.adopt m) d3
    let d5 := (upTo 16).foldl (fun d q => d.flush q) d4
    let d6 := if d5.rf TMU_QUALITY_STATE = 2 then d5.holdInc.setQuality 3 0 else d5
    let d7 := match d6.twin.source with
      | some x => { d6.startSource x.1 x.2.1 x.2.2.1 x.2.2.2 with twin.source := none }
      | none => d6
    ((d7.loadBanks.reportUnserved true).replan).bump MGT_TWIN_TAKEOVERS
def execTwinTakeover (s : State) : Res := s.act fun d => d.takeOver

/-- TWIN_SWAP. -/
def Dev.twinSwap (d : Dev) (c : PqCmd) : Dev :=
  d.checks c
    [(d.badTarget c, badParam), (d.flag MGT_TWIN_STS_SWAP_PENDING, busyS), (d.role != 1 || d.partner != 2, twinNotReady)]
    fun d => (d.setFlag MGT_TWIN_STS_SWAP_PENDING true).stage c 0x0704 true .twinSwap
def execTwinSwap (c : PqCmd) (s : State) : Res := s.pq 0x0704 c fun d => d.twinSwap c

/-- The roles exchange at the swap's boundary; the new ACTIVE reports what is not transmitted. -/
def Dev.swapNow (d : Dev) (e : Staged) : Dev :=
  let was := d.role
  let d1 : Dev := { d.setFlag MGT_TWIN_STS_SWAP_PENDING false with hif.fetchStopped := false }
  if was = 1 then { d1 with twin.heardAt := d1.now }.setRole 2 2 |>.complete e.queue e.tag okS []
  else if was = 2 then ((d1.setRole 1 2).reportUnserved false).replan
  else d1.complete e.queue e.tag twinNotReady []

/-! ### Attach and detach (R359, R491, R493) -/

/-- TWIN_ATTACH. -/
def Dev.twinAttach (d : Dev) (c : PqCmd) : Dev :=
  d.checks c
    [(pp c 0 != 1 && pp c 0 != 2, badParam), (!d.domOn 61, domainOffS), (d.paired || d.twin.attach.isSome, busyS)]
    fun d =>
      let d1 := d.accepted c.queue.val c.tag.toNat
      { d1.wf MGT_TWIN_STS_PARTNER 1 with twin.attach := some ⟨c.queue.val, c.tag.toNat, pp c 0, d1.now⟩ }.serviceSync
def execTwinAttach (c : PqCmd) (s : State) : Res := s.pq 0x0701 c fun d => d.twinAttach c

/-- The attachment ends without a pair. -/
def Dev.attachFail (d : Dev) (a : Attach) (status : Nat) : Dev :=
  ({ d.wf MGT_TWIN_STS_PARTNER 0 with twin.attach := none }.twinStop.serviceSync).complete a.queue a.tag status []

/-- TWIN_ATTACH_TIMEOUT: the link is not up 10 s after TWIN_ATTACH. -/
def execTwinAttachTimeout (s : State) : Res :=
  s.act fun d => match d.twin.attach with
    | none => d
    | some a => if d.flag ZTH_TWIN_STS_UP then d else (d.advanceTo (a.since + nsT 10000000000)).attachFail a twinNotReady

/-- The snapshot's registers: configuration and committed banks of the front end, the narrowband bank, Ethernet, the time unit, the
rings, the dispatcher and memory. -/
def Dev.snapRegs (d : Dev) (regs : List (Nat × Nat)) : Dev :=
  regs.foldl (fun d r => if [3, 4, 5, 6, 8, 9, 10, 11].contains (blockOf r.1) && (regAt r.1).isSome then d.setReg r.1 r.2 else d) d

/-- A mirrored carrier context in service. -/
def Dev.snapCarrier (d : Dev) (cc tl : Nat) (mirror : Bool) (ws : List Word) : Dev :=
  let p := carPar ⟨0, 0, 0, BitVec.ofNat 2 tl, 0, BitVec.ofNat 32 cc :: ws⟩
  { d with fw.carriers := Tab.put d.fw.carriers cc ⟨p, tl, 2, (d.tl tl).k, 0, mirror, true⟩, fw.bind := Tab.put d.fw.bind cc p.upq }

/-- The STANDBY applies the ACTIVE's snapshot as one group. -/
def Dev.snapshotIn (d : Dev) (regs : List (Nat × Nat)) (wins : List (Fin 16 × List TagRec)) (cars : List (Nat × Nat × Bool × List Word))
    (cmds : List (Fin 16 × List Byte)) : Dev :=
  let on (d : Dev) (n : Nat) : Bool := d.flag (TMU_TLn_CTL_ENABLE n)
  let d1 := d.snapRegs regs
  let d2 := ((upTo 4).filter fun n => !on d n && on d1 n).foldl (fun d n => d.timelineStart n) d1
  let d3 := wins.foldl (fun d w => d.updQp w.1 fun x => { x with window := w.2 }) d2
  let d4 := cars.foldl (fun d (x : Nat × Nat × Bool × List Word) => d.snapCarrier x.1 x.2.1 x.2.2.1 x.2.2.2) d3
  cmds.foldl (fun d x => d.mirrorIn x.1 x.2) d4

/-- The role this device takes: 1 ACTIVE, 2 STANDBY; none: both have an enabled timeline. -/
def Dev.chooseRole (d : Dev) (pref : Nat) (partnerTl : Bool) (partnerPref partnerId : Nat) : Option Nat :=
  match d.anyTl, partnerTl with
  | true, true => none
  | true, false => some 1
  | false, true => some 2
  | false, false =>
    if pref ≠ partnerPref then some pref
    else some (if d.rf64 SEC_DEVICE_ID_LO_ID SEC_DEVICE_ID_HI_ID < partnerId then 1 else 2)

/-- What an earlier pair mirrored counts in no ledger of this one (R34). -/
def Dev.forgetMirror (d : Dev) : Dev :=
  { d with hif.qs := Tab.mapV (fun _ (x : QPair) => { x with running := x.running.map fun (r : RunCmd) => { r with mirror := 0, outcome := false } }) d.hif.qs }
/-- TWIN_ATTACH_COMPLETE: versions are exchanged (`same`), roles chosen, and on the STANDBY the snapshot applied: registers, tag
windows, carriers, and the commands whose staged effects and plans are outstanding. -/
def Dev.attachDone (d : Dev) (same partnerTl : Bool) (partnerPref partnerId : Nat) (snap : Dev → Dev) : Dev :=
  match d.twin.attach with
  | none => d
  | some a =>
    if !d.flag ZTH_TWIN_STS_UP then d
    else if !same then d.attachFail a twinNotReady
    else match d.chooseRole a.pref partnerTl partnerPref partnerId with
    | none => d.attachFail a busyS
    | some role =>
      let d1 := if role = 2 then snap d else d.forgetMirror
      let d2 : Dev := { (d1.wf MGT_TWIN_STS_PARTNER 2).wf MGT_TWIN_STS_MISSED_RUN 0 with
        twin.attach := none, twin.mirrored := 0, twin.acked := 0, twin.gens := [], twin.banks := [], twin.source := none, twin.lostAt := none, twin.takeover := false, twin.silent := 0, twin.heardAt := d1.now }
      (((d2.setRole role 0).complete a.queue a.tag okS [role]).twinEvent 4 role 0 0).slotsShow.serviceSync
def execTwinAttachComplete (same partnerTl : Bool) (partnerActive : Bool) (partnerId : BitVec 64) (regs : List (BitVec 28 × Word))
    (wins : List (Fin 16 × List WindowTag)) (cars : List (Fin 256 × Fin 4 × Bool × List Word))
    (cmds : List (Fin 16 × List Byte)) (s : State) : Res :=
  s.act fun d => d.attachDone same partnerTl (if partnerActive then 1 else 2) partnerId.toNat fun d =>
    d.snapshotIn (regs.map fun r => (r.1.toNat, r.2.toNat))
      (wins.map fun w => (w.1, w.2.map fun t => ⟨t.tag.toNat, t.op.toNat, t.done.map fun c => ⟨c.1.toNat, c.2.map (·.toNat)⟩⟩))
      (cars.map fun x => (x.1.val, x.2.1.val, x.2.2.1, x.2.2.2)) cmds

/-- TWIN_DETACH: taken by the ACTIVE; the STANDBY is told over the link and leaves when the command is in its log. -/
def Dev.twinDetach (d : Dev) (c : PqCmd) : Dev :=
  d.checks c [(d.role != 1 || d.partner != 2, twinNotReady)] fun d => (d.leaveActive 0 2).fin c okS
def execTwinDetach (c : PqCmd) (s : State) : Res :=
  s.act fun d =>
    if d.role == 2 && d.twin.log.any (fun m => m.run.opcode == 0x0702 && m.run.cmd == c) then d.leaveStandby 2
    else d.pqDo 0x0702 c fun d => d.twinDetach c

/-- TWIN_STATUS. -/
def execTwinStatus (c : PqCmd) (s : State) : Res :=
  s.pq 0x0703 c fun d => d.finR c [d.role, d.partner, d.rf MGT_TWIN_MISSED, d.rf MGT_TWIN_UNACK]

end Sys2Proof.Machine
end

