-- ==== Sys2Proof/Machine/Marrow.lean ====
section
/-! DEFINITION. The Marrow: recorder selections, states, replay, BAR4 writes (R496-R503, R85). -/

namespace Sys2Proof.Machine

/-! ### REC_CONFIG (R344, R496, R497) -/

/-- Bytes one port of the carrier gives FD capture in the slot at pattern row `k`: its uplink symbols in pack24, and the
28-byte header of an RX slot if there are any (R497's own figures). -/
def Dev.fdPort (d : Dev) (x : CcSpec) (k : Nat) : Nat :=
  let n := if x.ecp then 12 else 14
  let syms := if x.tdd then ((upTo n).filter fun l => d.patCode x.pat k l == 2).length else n
  if syms = 0 then 0 else syms * x.nrb * 36 + 28
/-- Rows of the carrier's pattern: one for FDD. -/
def Dev.fdRows (d : Dev) (x : CcSpec) : Nat := if x.tdd then max 1 (d.rf (DFE_TDDn_CFG_LEN x.pat)) else 1
/-- Bytes of `ports` ports over one repeat of the pattern. -/
def Dev.fdRepeat (d : Dev) (x : CcSpec) (ports : Nat) : Nat := ports * sumNat ((upTo (d.fdRows x)).map (d.fdPort x))
/-- Slot length in ns of an NR or LTE carrier. -/
def specSlotNs (x : CcSpec) : Nat := if x.std = 0 then 15000000 / max 1 x.scs else 1000000
/-- The carrier a context holds, direct or remote. -/
def Dev.anySpec (d : Dev) (c : Nat) : Option CcSpec :=
  if d.ccOn c then some (d.ccSpec c) else if d.ethCcOn c then some (d.ethSpec c) else none

/-- The capture area in bytes (R497); none: a word breaks R496's table or the rate is too high. -/
def Dev.captureArea (d : Dev) (size mask w2 w3 : Nat) : Option Nat :=
  if 7 < mask || mask % 4 = 3 then none
  else if bitAt mask 0 then
    match (if w2 < 256 then d.anySpec w2 else none) with
    | none => none
    | some x =>
      let slots := d.fdRows x * specSlotNs x
      let n := d.fdRepeat x w3
      if w3 = 0 ∨ 64 < w3 ∨ x.count < w3 ∨ 2 ≤ x.std ∨ 12 * slots < n then none
      else some (ceilDiv (n * 200 * d.periodNs x.tl) slots)
  else if bitAt mask 1 then
    if w2 < 64 ∨ w3 = 0 ∨ 8 < w3 ∨ 128 < w2 + w3 then none
    else some (min (491520000 * 3 * w3) (size * 2 ^ 20 - 256 * 2 ^ 20))
  else some 0

def Dev.recConfig (d : Dev) (c : PqCmd) : Dev :=
  let size := pp c 0
  let area := d.captureArea size (pp c 1) (pp c 2) (pp c 3)
  let bad := decide (size = 0) || decide (16384 < size) || decide (d.ddrSize < 2 * size * 2 ^ 20) ||
    (match area with | none => true | some a => decide (size * 2 ^ 20 < a + 256 * 2 ^ 20))
  d.checks c [(bad, badParam), (!d.domOn 77 || d.noDdr, domainOffS), (d.recording, busyS)] fun d =>
    let base := d.ddrTop / 2 ^ 20 - size
    let same := d.rf MEM_REC_BASE == base && d.rf MEM_REC_SIZE == size
    let tl := if bitAt (pp c 1) 0 then (match d.anySpec (pp c 2) with | some x => x.tl | none => 0) else 0
    let d1 := (d.wf MEM_REC_BASE base).wf MEM_REC_SIZE size |>.wf OBS_REC_STS_STATE 0
    { d1 with marrow.cfg := ⟨size, pp c 1, pp c 2, pp c 3, area.getD 0⟩, marrow.tl := tl,
              marrow.log := if same then d1.marrow.log else [],
              marrow.captures := if same then d1.marrow.captures else [] }.fin c okS
def execRecConfig (c : PqCmd) (s : State) : Res := s.pq 0x0801 c fun d => d.recConfig c

/-! ### Recording (R496, R498, R501) -/

/-- REC_START: what is held is discarded, and the snapshot is the first record. -/
def Dev.recStart (d : Dev) (c : PqCmd) : Dev :=
  d.checks c [(!d.domOn 77 || !d.recMem, domainOffS)] fun d =>
    let d1 := (d.wf OBS_REC_STS_STATE 1).setFlag OBS_REC_STS_WRAPPED false
    let d2 : Dev := { d1 with marrow.log := [], marrow.captures := [], marrow.bytes := 0, marrow.lost := false, marrow.images := Tab.mapV (fun _ i => i.crc) d1.pods.images }
    (d2.recAdd 0x0B d2.marrow.tl (d2.recK % 65536) none).fin c okS
def execRecStart (c : PqCmd) (s : State) : Res := s.pq 0x0802 c fun d => d.recStart c

/-- REC_TRIGGER completes at the freeze; of a recorder already frozen, at once. -/
def Dev.recTriggerCmd (d : Dev) (c : PqCmd) : Dev :=
  d.checks c [(!d.domOn 77, domainOffS)] fun d =>
    if d.rf OBS_REC_STS_STATE = 3 then (d.recTrigger 6).finR c [d.marrow.frozenP]
    else
      let d1 := d.inProgress c.queue.val c.tag.toNat
      { d1 with marrow.waiting := d1.marrow.waiting ++ [(c.queue.val, c.tag.toNat)] }.recTrigger 6
def execRecTrigger (c : PqCmd) (s : State) : Res := s.pq 0x0803 c fun d => d.recTriggerCmd c

/-- REC_STATUS: state, bytes recorded, oldest period held (R85). -/
def execRecStatus (c : PqCmd) (s : State) : Res :=
  s.pq 0x0804 c fun d => d.checks c [(!d.domOn 77, domainOffS)] fun d =>
    let oldest := match d.marrow.log with | e :: _ => e.period | [] => 0
    d.finR c [d.rf OBS_REC_STS_STATE, d.marrow.bytes % 2 ^ 32, d.marrow.bytes / 2 ^ 32 % 2 ^ 32, oldest]

/-- REC_FREEZE: POST periods after the trigger, or POST ms while the recorder's timeline is disabled. -/
def Dev.recFreezeDue (d : Dev) : Dev :=
  if d.rf OBS_REC_STS_STATE ≠ 2 then d
  else if d.tlOn d.marrow.tl then
    if d.marrow.trigK + d.rf OBS_REC_POST_POST ≤ d.recK then d.recFreeze else d
  else (d.advanceTo (d.marrow.trigT + msT (d.rf OBS_REC_POST_POST))).recFreeze
def execRecFreeze (s : State) : Res := s.act fun d => d.recFreezeDue

/-! ### Replay (R502, R503) -/

/-- Decision-log records of a recorder record: type, core, timeline, period. -/
def decisions (e : RecEntry) : List (Nat × Nat × Nat × Nat) :=
  if e.type = 3 then
    (upTo (e.body.length / 16)).map fun i =>
      let b := slice e.body (16 * i) 16
      (leAt b 0 1, leAt b 1 1, leAt b 6 1 % 4, leAt b 4 2)
  else []

/-- A period lies in the interval. -/
def inSpan (first count p : Nat) : Bool := decide (ahead first p < count)

/-- The records from the first to the last that holds a decision of the interval. -/
def spanOf (log : List RecEntry) (tl first count : Nat) : List RecEntry :=
  let has (e : RecEntry) : Bool := (decisions e).any fun x => x.2.2.1 == tl && inSpan first count x.2.2.2
  ((log.dropWhile fun e => !has e).reverse.dropWhile fun e => !has e).reverse

/-- The interval is held whole, with no LOST record of either kind (R499, R110). -/
def spanHeld (log : List RecEntry) (tl first count : Nat) : Bool :=
  let l := spanOf log tl first count
  let ds := l.flatMap decisions
  ((upTo count).all fun i => ds.any fun x => x.2.2.1 == tl && x.2.2.2 == (first + i) % 65536) &&
  l.all (fun e => e.type != 0x0D) && ds.all (fun x => x.1 != 0xFF)

/-- The pods that ran jobs of the interval. -/
def spanPods (log : List RecEntry) (tl first count : Nat) : List Nat :=
  (((spanOf log tl first count).flatMap decisions).filter fun x => x.1 == 1 && x.2.2.1 == tl && inSpan first count x.2.2.2).map (·.2.1 / 9)

/-- The CPX_ORDER entries of a span, in order. -/
def spanCpx (l : List RecEntry) : List Nat :=
  l.flatMap fun e => if e.type = 4 then (upTo (e.body.length / 4)).map fun i => leAt e.body (4 * i) 4 else []

def Dev.recReplay (d : Dev) (c : PqCmd) : Dev :=
  let q := pp c 0; let tl := pp c 1; let first := pp c 2; let count := pp c 3
  let log := d.marrow.log
  let st := d.rf OBS_REC_STS_STATE
  let image := (Tab.find d.pods.images q).map (·.crc)
  let bad := decide (12 ≤ q) || decide (4 ≤ tl) || decide (65536 ≤ first) || decide (32768 < count) ||
    !(st == 3 || (st == 0 && !log.isEmpty)) || !spanHeld log tl first count || !d.podIdle q ||
    (spanPods log tl first count).any fun p => Tab.find d.marrow.images p != image || image.isNone
  d.checks c [(bad, badParam), (!d.domOn 77 || !d.domOn 75, domainOffS), (d.marrow.replay.isSome, busyS)] fun d =>
    let d1 := d.accepted c.queue.val c.tag.toNat
    if count = 0 then d1.finR c [0, 0]
    else
      let d2 := d1.wf (WDS_PODn_CTL_MODE q) 2
      ({ d2 with marrow.replay := some ⟨q, tl, first, count, 0, 0, c.queue.val, c.tag.toNat, 0, 0, [], [],
          spanCpx (spanOf log tl first count)⟩ }.logPod 0x06 0xFF 0 0 0).wdsSettle
def execRecReplay (c : PqCmd) (s : State) : Res := s.pq 0x0805 c fun d => d.recReplay c

/-- No replayed job is left. -/
def Dev.replayDone (d : Dev) : Bool := d.wds.jobs.vals.all fun j => !j.replay

/-- A graph of the replay is refused (R96): its command completes with INTERNAL, with a health event; the replay ends, its unstarted jobs
are taken back and the pod is MASKED (assumption log). -/
def Dev.replayRefused (d : Dev) (r : Replay) : Dev :=
  let d1 : Dev := { d with marrow.replay := none, wds.jobs := d.wds.jobs.filter fun p => !(p.2.replay && p.2.unstarted) }
  let d2 := ((d1.wf (WDS_PODn_CTL_MODE r.pod) 1).logPod 0x06 0xFF 0 0 0).wdsSettle
  (d2.complete r.queue r.tag internalS []).health 4 8 (r.pod + 256 * r.tl)

/-- REPLAY_PERIOD_RELEASE: the period's graphs, rebuilt by firmware, are admitted once the previous period has finished and 8
period lengths have passed since it began. `order` names each job by its number in admission order, in log order, with the core it was recorded on. -/
def Dev.replayRelease (d : Dev) (graphs : List (List Byte)) (order : List (Nat × Nat)) : Dev :=
  match d.marrow.replay with
  | none => d
  | some r =>
    if r.released < r.count && d.replayDone then
      let d1 := if r.released = 0 then d else d.advanceTo (r.last + nsT (8 * d.periodNs r.tl))
      let d2 := d1.updReplay fun x => { x with released := r.released + 1, last := d1.now }
      let mine (g : List Byte) : Bool := leAt g 2 1 == r.tl && leAt g 4 2 == (r.first + r.released) % 65536
      let a := (graphs.filter mine).foldl (fun (a : Dev × Bool) g => let x := a.1.admitGraph true g; (x.1, a.2 && x.2)) (d2, true)
      let d3 := a.1
      if !a.2 then d3.replayRefused r else
      let slots := (d3.wds.jobs.filter (·.2.replay)).map Prod.fst
      (d3.updReplay fun x => { x with order := order.filterMap fun o => (slots[o.1]?).map fun s => (s, o.2) }).wdsSettle
    else d
def execReplayPeriodRelease (graphs : List (List Byte)) (order : List (Nat × Fin 108)) (s : State) : Res :=
  s.act fun d => d.replayRelease graphs (order.map fun o => (o.1, o.2.val))

/-- The job period a RESULT record (uplink: one after its air period) or a TX_DIGEST record (one before) belongs to. -/
def RecEntry.jobOf (e : RecEntry) : Nat := if e.type = 6 then (e.period + 1) % 65536 else (e.period + 65535) % 65536
/-- The RESULT or TX_DIGEST records (`type`) of a replay's interval that carry a CRC-32, in log order. -/
def replayRecs (log : List RecEntry) (type : Nat) (r : Replay) : List RecEntry :=
  log.filter fun e => e.type == type && e.tl == r.tl && inSpan r.first r.count e.jobOf && decide (6 ≤ e.body.length)
/-- A recorded record beside the CRC-32 of what the replay gave for it (none: not replayed): compared, and if they differ, the mismatch as
period, allocation or 0xFFFF, and record type. -/
def compareRecs (l : List (RecEntry × Option Nat)) : Nat × List (Nat × Nat × Nat) :=
  ((l.filter (·.2.isSome)).length,
   (l.filter fun x => x.2.isSome && x.2 != some (leAt x.1.body 0 4)).map fun x => (x.1.period, leAt x.1.body 4 2, x.1.type))

/-- REPLAY_COMPLETE: for each RESULT and each TX_DIGEST record of the interval, in log order, the CRC-32 of the data the replay gave, none
where it was not replayed; each is compared with the recorded one (R502). -/
def Dev.replayComplete (d : Dev) (results digests : List (Option Nat)) : Dev :=
  match d.marrow.replay with
  | none => d
  | some r =>
    if r.released = r.count && d.replayDone then
      let a := compareRecs ((replayRecs d.marrow.log 6 r).zip results)
      let b := compareRecs ((replayRecs d.marrow.log 7 r).zip digests)
      let mism := a.2 ++ b.2
      let d1 := mism.foldl (fun d m => d.event 4 3 m.1 (m.2.1 + 2 ^ 16 * m.2.2) 0) { d with marrow.replay := none }
      let d2 := ((d1.wf (WDS_PODn_CTL_MODE r.pod) 1).logPod 0x06 0xFF 0 0 0).wdsSettle
      d2.complete r.queue r.tag okS [a.1 + b.1, mism.length]
    else d
def execReplayComplete (results digests : List (Option Word)) (s : State) : Res :=
  s.act fun d => d.replayComplete (results.map (·.map (·.toNat))) (digests.map (·.map (·.toNat)))

/-! ### BAR4 (R500) -/

/-- BAR4_WRITE: carried out by OBS in STOPPED, within the region; otherwise ignored. -/
def Dev.bar4Write (d : Dev) (off : Nat) (data : List Byte) : Dev :=
  let rel := d.rf OBS_REC_WIN * 2 ^ 24 + off
  if d.domOn 76 && d.domOn 77 && d.rf OBS_REC_STS_STATE == 0 && decide (off + data.length ≤ 2 ^ 24) &&
      decide (rel + data.length ≤ d.rf MEM_REC_SIZE * 2 ^ 20) then
    (d.wrBytes 26 none (d.rf MEM_REC_BASE * 2 ^ 20 + rel) data).1
  else d
def execBar4Write (off : BitVec 24) (data : List Byte) (s : State) : Res := s.act fun d => d.bar4Write off.toNat data

end Sys2Proof.Machine
end

