-- ==== Sys2Proof/Machine/Ledgers.lean ====
section
/-! DEFINITION. The seven ledgers and their snapshots (R34-R40). -/

namespace Sys2Proof.Machine

/-- Ledger 0x01 of one ring: every pair of two stops and class; a stop sends nothing to itself, so it has no entry with itself (DESIGN CHOICE,
assumption log). What a destination accepts its block takes at once, so nothing stands at T4 (assumption log). The counters are in the ring-side half of
the stops, which is in PD_MGT (R14). -/
def Dev.ringLedger (d : Dev) (ring : Nat) : List LedgerEntry :=
  let on := d.domOn 78
  (upTo 28).flatMap fun s =>
    (upTo 28).flatMap fun t =>
      if s = t then []
      else (upTo 4).map fun cls =>
        let a := ringAllot ring cls
        let k := streamKey ring s t cls
        let f := (d.stream k).inFlight ring
        let r := d.returning k
        ⟨1, ring * 4096 + (s * 28 + t) * 4 + cls, on, [a, a - f - r, f, 0, r, 0]⟩

/-- Ledger 0x02: tokens of every pod and class. -/
def Dev.tokenLedger (d : Dev) : List LedgerEntry :=
  (upTo 12).flatMap fun p => (upTo 4).map fun c =>
    let a := d.rf (WDS_PODn_TOKc_ALLOT p c); let h := d.rf (WDS_PODn_TOKc_HELD p c)
    ⟨2, 4 * p + c, d.domOn 75, [a, (a + 2 ^ 32 - h) % 2 ^ 32, h, 0, 0, 0]⟩

/-- Ledger 0x04: atomic flows with one job in service, and with more than one. -/
def Dev.flowLedger (d : Dev) : LedgerEntry :=
  let f := d.wds.flows.vals.filter (·.atomic)
  ⟨4, 0, d.domOn 75, [(f.filter (·.inSvc == 1)).length, (f.filter fun x => decide (1 < x.inSvc)).length, 0, 0, 0, 0]⟩

/-- Every entry of a snapshot taken now, in the order of ledger IDs, and within one of instances: it decides which entries fit a short buffer
(DESIGN CHOICE, assumption log). -/
def Dev.ledgerNow (d : Dev) : List LedgerEntry :=
  (upTo 3).flatMap d.ringLedger ++ d.tokenLedger ++
  [⟨3, 0, d.domOn 78, [d.rf CBF_FREE, d.rf CBF_ALLOCATED, 0, 0, 0, 0]⟩, d.flowLedger] ++
  (upTo 2).map (fun p => ⟨5, p, d.domOn 78, [d.rf (MEM_HARQ_p_COUNT p), d.rf (MEM_HARQ_p_FREE p), d.rf (MEM_HARQ_p_USED p), 0, 0, 0]⟩) ++
  (upTo 4).map (fun p => ⟨6, p, d.domOn (57 + p), [d.rf (ETH_TSQ_p_PUSHED p), d.rf (ETH_TSQ_p_POPPED p), d.rf (ETH_TSQ_p_DROPPED p),
    d.rf (ETH_TSQ_p_STS_OCC p), 0, 0]⟩) ++
  (if d.paired then [⟨7, 0, true, [d.twin.mirrored % 2 ^ 32, d.twin.acked % 2 ^ 32, 0, 0, 0, 0]⟩] else [])

/-- The invariant of R34 holds of an entry. -/
def LedgerEntry.balanced (e : LedgerEntry) : Bool :=
  let t (i : Nat) : Nat := nth 0 e.terms (i - 1)
  match e.id with
  | 1 => t 2 + t 3 + t 4 + t 5 == t 1
  | 2 => t 2 + t 3 == t 1
  | 3 => t 1 + t 2 == 16384
  | 4 => t 2 == 0
  | 5 => t 2 + t 3 == t 1
  | 6 => (t 2 + t 3 + t 4) % 2 ^ 32 == t 1
  | _ => t 1 == t 2

/-- An entry whose counters could not be captured keeps its shadows' terms. -/
def keepShadow (old : List LedgerEntry) (e : LedgerEntry) : LedgerEntry :=
  if e.captured then e
  else match old.find? fun o => o.id == e.id && o.inst == e.inst with
    | some o => { e with terms := o.terms }
    | none => { e with terms := [0, 0, 0, 0, 0, 0] }

/-- The strobe (R36): every shadow loads; no fence is in progress between commands of the model. -/
def Dev.ledgerStrobe (d : Dev) : Dev :=
  let es := d.ledgerNow.map (keepShadow d.ledger.entries)
  let d1 := (((d.bump OBS_SNAP_SEQ).setFlag OBS_SNAP_STS_VALID true).setFlag OBS_SNAP_STS_FENCE_OPEN false).setFlag OBS_SNAP_STS_PARTIAL
    (es.any fun e => !e.captured)
  { d1 with ledger := ⟨d1.rf OBS_SNAP_SEQ, 6 * d1.cyc, d1.now, d1.paired, es, d1.ledger.packing⟩ }

/-- The 32 bytes of an entry (R37). -/
def LedgerEntry.bytes (e : LedgerEntry) : List Byte :=
  leBytes 1 e.id ++ leBytes 1 (b2n (!e.captured) + 2 * b2n (!e.balanced)) ++ leBytes 2 e.inst ++ leBytes 4 0 ++
  (upTo 6).flatMap fun i => leBytes 4 (nth 0 e.terms i)
/-- The 32-byte header of an image of `n` entries (R37). -/
def Ledger.header (l : Ledger) (n : Nat) : List Byte :=
  leBytes 4 l.seq ++ leBytes 8 l.cyc ++ leBytes 16 (t128Nat l.time) ++ leBytes 2 n ++
  leBytes 1 (2 * b2n l.paired + 4 * b2n (l.entries.any fun e => !e.captured)) ++ leBytes 1 0

/-- LEDGER_SNAPSHOT: the strobe fires and packing begins. -/
def Dev.ledgerSnapshot (d : Dev) (c : PqCmd) : Dev :=
  let len := pp c 2
  d.checks c [(decide (32 ≤ len) && !d.obOk (pAddr c 0) (len / 32 * 32), badParam), (!d.domRun 77, domainOffS),
      (d.ledger.packing.isSome, busyS)] fun d =>
    let d1 := (d.ledgerStrobe.setFlag OBS_SNAP_STS_BUSY true).inProgress c.queue.val c.tag.toNat
    { d1 with ledger.packing := some (c.queue.val, c.tag.toNat, pAddr c 0, len) }
def execLedgerSnapshot (c : PqCmd) (s : State) : Res := s.pq 0x0A04 c fun d => d.ledgerSnapshot c

/-- LEDGER_SNAPSHOT_PACKED: the image is in host memory as far as it fits (R38, R40). -/
def Dev.ledgerPacked (d : Dev) : Dev :=
  match d.ledger.packing with
  | none => d
  | some (q, tag, a, len) =>
    let all := d.ledger.entries.length
    let n := min all (len / 32 - 1)
    let d1 := if len < 32 then d
      else d.hostWrite a (d.ledger.header n ++ (d.ledger.entries.take n).flatMap LedgerEntry.bytes)
    { d1.setFlag OBS_SNAP_STS_BUSY false with ledger.packing := none }.complete q tag okS [d.ledger.seq, n, all]
def execLedgerSnapshotPacked (s : State) : Res := s.act fun d => d.ledgerPacked

/-- LEDGER_SNAP_STROBE: the register path; refused and counted while a snapshot packs. -/
def Dev.snapCtlWr (d : Dev) (init : Initiator) (value : Nat) : Dev :=
  let r := d.busWr init rOBS_SNAP_CTL value
  match r.2 with
  | .no => r.1
  | .yes cmds =>
    if !bitAt cmds 0 then r.1
    else if r.1.flag OBS_SNAP_STS_BUSY then r.1.bump OBS_SNAP_REFUSED
    else r.1.ledgerStrobe
def execLedgerSnapStrobe (init : Initiator) (value : Word) (s : State) : Res := s.act fun d => d.snapCtlWr init value.toNat

end Sys2Proof.Machine
end

