-- ==== Sys2Proof/Machine/Regbus.lean ====
section
/-! DEFINITION. The register bus: writes of any register, the guard, the 4 µs bound (R459-R477). -/

namespace Sys2Proof.Machine

/-! ### What a written register shows elsewhere -/

/-- PARAM0 of a unit's link at a RATE (R252, R257): L, M, F, E and S, each less 1. -/
def param0 (u rate : Nat) : Nat :=
  let p (l m f e s : Nat) : Nat := (l - 1) + 4 * (m - 1) + 64 * (f - 1) + 512 * (e - 1) + 2048 * (s - 1)
  if u < 4 then nth 0 [p 3 8 4 1 1, p 1 2 3 3 1, p 3 4 2 1 1] rate
  else if u < 8 then nth 0 [p 3 16 8 1 1, p 1 4 6 3 1, p 3 8 4 1 1] rate
  else p 3 8 4 1 1

/-- A unit that is off takes its spare at the write (R256: the remap on a strobe is that of a running unit). -/
def Dev.spareHook (d : Dev) (u : Nat) : Dev :=
  if d.flag (jesdEnable u) then d
  else
    let sp := if d.flag (jUse u) then Tab.put d.dfe.spares u (d.rf (jSpareLane u)) else Tab.del d.dfe.spares u
    { d with dfe := { d.dfe with spares := sp } }

/-- What follows a changed register of family `name`: a spare, PARAM0 after RATE, links and lanes in service after a port's enable, SYNCE_CLK, the level of a STATIC line, FREE after COUNT,
training after a channel's configuration, eligibility after the dispatcher's grace and allotments. -/
def Dev.regHook (d : Dev) (name : String) (i : Nat) : Dev :=
  match name with
  | "DFE_Jg_CFG_TX" => d.setReg (jReg i 3) (param0 i (d.jRate i))
  | "DFE_Jg_CFG_RX" => d.setReg (jReg (4 + i) 3) (param0 (4 + i) (d.jRate (4 + i)))
  | "DFE_Jg_SPARE_TX" => d.spareHook i
  | "DFE_Jg_SPARE_RX" => d.spareHook (4 + i)
  | "DFE_Jk_SPARE_OBS" => d.spareHook (8 + i)
  | "ETH_Pp_CTL" => (d.portStop i).serviceSync
  | "TMU_SYNCE" => d.synceCheck
  | "DFE_GPIO_l_CFG" => if d.rf (DFE_GPIO_l_CFG_MODE i) = 1 then d.lineRest i else d
  | "MEM_HARQ_p_COUNT" => (d.harqShow i).cbfShow
  | "MEM_HARQ_p_BASE_LO" | "MEM_HARQ_p_BASE_HI" => d.cbfShow
  | "MEM_CHk_CFG" => d.trainSync
  | "WDS_GRACE" | "WDS_PODn_TOKc" => d.wdsSettle
  | _ => d

/-- A plain write and what follows it. -/
def Dev.plainWr (d : Dev) (init : Initiator) (off value : Nat) (name : String) (i : Nat) : Dev :=
  let r := d.busWr init off value
  match r.2 with
  | .no => r.1
  | .yes _ => r.1.regHook name i

/-- THM_THROTTLE: a pair with CAP_MIN above CAP_START is not taken. -/
def Dev.throttleWr (d : Dev) (init : Initiator) (value : Nat) : Dev :=
  let r := d.busWr init rTHM_THROTTLE value
  if r.1.rf THM_THROTTLE_CAP_START < r.1.rf THM_THROTTLE_CAP_MIN then
    (r.1.setReg rTHM_THROTTLE (d.reg rTHM_THROTTLE)).regErr .ignored rTHM_THROTTLE init
  else r.1

/-- DFE_PRACH_x_CTL: a context with SEQ or MOD 0 is not enabled (R247). -/
def Dev.prachCtlWr (d : Dev) (init : Initiator) (x value : Nat) : Dev :=
  (d.enableWr init (rDFE_PRACH_x_CTL x) value (DFE_PRACH_x_CTL_ENABLE x) fun e =>
    e.rf (DFE_PRACH_x_CFG_SEQ x) == 0 || e.rf (DFE_PRACH_x_REP_MOD x) == 0).1

/-- A checker that is switched on or over seeds itself again (R363). -/
def Dev.laneCtlWr (d : Dev) (init : Initiator) (i value : Nat) : Dev :=
  let r := d.busWr init (rZTH_Li_CTL i) value
  if r.1.rf (ZTH_Li_CTL_CHK i) = d.rf (ZTH_Li_CTL_CHK i) then r.1 else r.1.setFlag (ZTH_Li_STS_CHK_LOCK i) false

/-- A 32-bit aligned write of a register that another row of the table acts on, or that has checks of its own; none: a plain register.
The protection set-up and SEC_RECOVERY_CTL are not among them. -/
def Dev.rowWrite (d : Dev) (init : Initiator) (off value : Nat) (name : String) (i j : Nat) : Option Dev :=
  match name with
  | "HIF_CQn_CTL" => some (d.pairCtlWr init i value)
  | "HIF_UPQm_CTL" => some (d.pairCtlWr init (64 + i) value)
  | "HIF_CQn_SQ_TAIL" => some (d.sqDoorbell init i value)
  | "HIF_UPQm_SQ_TAIL" => some (d.sqDoorbell init (64 + i) value)
  | "HIF_CQn_CQ_HEAD" => some (d.cqDoorbell init i value)
  | "HIF_UPQm_CQ_HEAD" => some (d.cqDoorbell init (64 + i) value)
  | "LYR_EPOCH" => some (d.epochWr init value)
  | "LYR_STOP_s_CTL" => some (d.stopCtlWr init i value)
  | "WDS_CTL" => some (d.wdsEnableWr init value)
  | "WDS_PODn_CTL" => some (d.podModeWr init i value)
  | "WDS_PODn_CORES" => some (d.coreMaskWr init i value 0)
  | "DFE_Jg_CTL_TX" => some (d.jesdCtlWr init i value)
  | "DFE_Jg_CTL_RX" => some (d.jesdCtlWr init (4 + i) value)
  | "DFE_Jk_CTL_OBS" => some (d.jesdCtlWr init (8 + i) value)
  | "DFE_CCc_CTL" => some (d.dfeCtlWr init i value)
  | "DFE_TX_t_DPD_SEL" => some (d.selWr init 0 i value)
  | "DFE_IQC_r_SEL" => some (d.selWr init 1 i value)
  | "DFE_ALN_c_SEL" => some (d.selWr init 2 i value)
  | "ZTH_Li_SPC_SEL" => some (d.selWr init 3 i value)
  | "DFE_PRACH_x_CTL" => some (d.prachCtlWr init i value)
  | "NBB_CHn_CTL" => some (d.nbCtlWr init i value)
  | "ZTH_Li_CTL" => some (d.laneCtlWr init i value)
  | "ETH_TSQ_p_CTL" => some (d.tsPop init i value)
  | "ETH_MQ_p_TXq_TAIL" => some (d.msgTailWr init i j value)
  | "ETH_CCc_CTL" => some (d.ethCtlWr init i value)
  | "TMU_SNAP_CTL" => some (d.snapWr init value)
  | "TMU_INC_CTL" => some (d.incWr init value)
  | "TMU_TLn_CTL" => some (d.timelineCtlWr init i value)
  | "MEM_CTL" => some (d.memCtlWr init value)
  | "MEM_HARQ_p_OP" => some (d.harqOp init i (if bitsAt value 0 2 = 2 then 2 else 1) value none)
  | "THM_THROTTLE" => some (d.throttleWr init value)
  | "OBS_SNAP_CTL" => some (d.snapCtlWr init value)
  | "POD_CORE_c_CTL" => some (d.coreCtlWr init (9 * (blockOf off - 0x10) + i) value)
  | _ => none

/-- A 32-bit aligned write of any register but those of the protection set-up and SEC_RECOVERY_CTL. -/
def Dev.regWrite (d : Dev) (init : Initiator) (off value : Nat) : Dev :=
  match regAt off with
  | none => d.busReg init off value
  | some (f, idx) =>
    match d.rowWrite init off value f.name (nth 0 idx 0) (nth 0 idx 1) with
    | some e => e
    | none => d.plainWr init off value f.name (nth 0 idx 0)

/-! ### The protection set-up (R343, R453) -/

/-- A register of the protection set-up. -/
def protReg (off : Nat) : Bool :=
  match regAt off with
  | some (f, idx) => f.blk == .prot || (f.blk == .memFwR && decide (nth 0 idx 0 < 16))
  | none => false

/-- The write reaches a CFG field. -/
def reachesCfg (off value : Nat) : Bool :=
  match regAt off with
  | some (f, _) => f.fields.any fun x => x.kind == .cfg && bitsAt (writeMask f.wide value) x.lo x.w != 0
  | none => false

/-- A 32-bit aligned write of any register. A write to the set-up by anyone but boot code is counted; after the seal it is an
alarm. -/
def State.regWrite (s : State) (init : Initiator) (off value : Nat) : State :=
  if off = rSEC_RECOVERY_CTL then s.recoveryWr init value
  else if protReg off then
    let r := s.dev.busWr init off value
    match r.2 with
    | .no => { s with dev := r.1 }
    | .yes _ =>
      if reachesCfg off value then
        let s1 : State := { s with dev := r.1.bump SEC_SEAL_VIOL }
        if s.dev.flag SEC_BOOT_STS_SEALED then s1.alarm [5] else s1
      else { s with dev := r.1 }
  else s.onDev fun d => d.regWrite init off value

/-! ### What a write reaches (R464, R472) -/

/-- Ranges whose registers only the management firmware writes, and whose contents the spec does not list (R96, R332, R426). -/
def firmwareRange (off : Nat) : Bool :=
  let o := off % 0x400000
  (blockOf off == 0x04 && decide (0xC00 ≤ o) && decide (o < 0x1000)) ||
  (blockOf off == 0x0B && decide (0x4000 ≤ o) && decide (o < 0x8000)) ||
  (blockOf off == 0x0D && decide (0x800 ≤ o) && decide (o < 0xC00))

/-- The bits of the register at `off` in CTL fields. -/
def ctlBits (off : Nat) : Nat :=
  match regAt off with
  | some (f, _) => f.fields.foldl (fun a x => if x.kind == .ctl then a ||| ((2 ^ x.w - 1) * 2 ^ x.lo) else a) 0
  | none => 0
/-- The register at `off` is there for the initiator and its domain answers. -/
def Dev.answers (d : Dev) (init : Initiator) (off : Nat) : Bool :=
  !d.holeFor init off && !d.hostDown init && match regAt off with
    | some (f, idx) => d.domOn (regDomain f.dom off (nth 0 idx 0))
    | none => false
def wideReg (off : Nat) : Bool := match regAt off with | some (f, _) => f.wide | none => false

end Sys2Proof.Machine
end

