-- ==== Sys2Proof/Machine/Groups.lean ====
section
/-! DEFINITION. Transaction groups: their commands, validation and commit (R55-R63, R242, and the blocks' own checks). -/

namespace Sys2Proof.Machine

/-! ### A write's fields -/

/-- Families whose writes have an effect of their own (`Dev.rowWrite`). -/
def rowFamilies : List String :=
  ["HIF_CQn_CTL", "HIF_UPQm_CTL", "HIF_CQn_SQ_TAIL", "HIF_UPQm_SQ_TAIL", "HIF_CQn_CQ_HEAD", "HIF_UPQm_CQ_HEAD", "LYR_EPOCH",
   "LYR_STOP_s_CTL", "WDS_CTL", "WDS_PODn_CTL", "WDS_PODn_CORES", "DFE_Jg_CTL_TX", "DFE_Jg_CTL_RX", "DFE_Jk_CTL_OBS", "DFE_CCc_CTL",
   "DFE_TX_t_DPD_SEL", "DFE_IQC_r_SEL", "DFE_ALN_c_SEL", "ZTH_Li_SPC_SEL"] ++
  ["DFE_PRACH_x_CTL", "NBB_CHn_CTL", "ZTH_Li_CTL", "ETH_TSQ_p_CTL", "ETH_MQ_p_TXq_TAIL", "ETH_CCc_CTL", "TMU_SNAP_CTL", "TMU_INC_CTL",
   "TMU_TLn_CTL", "MEM_CTL", "MEM_HARQ_p_OP", "THM_THROTTLE", "OBS_SNAP_CTL", "POD_CORE_c_CTL"]

/-- The register value after the write, with no block held to be enabled: the Bool says a field met a reserved encoding. -/
def groupValue (old off value : Nat) (f : RegFam) : WriteAcc :=
  strobeArg off old (f.fields.foldl (writeField false off (writeMask f.wide value) (writeVal f.wide value)) ⟨old, false, 0⟩)

/-- The write's value with only the CFG fields written (`cfg`), or all but those. -/
def splitCfg (cfg : Bool) (value : Nat) (f : RegFam) : Nat :=
  let bits := f.fields.foldl (fun a x => if x.kind == .cfg then a ||| ((2 ^ x.w - 1) * 2 ^ x.lo) else a) 0
  let m := value / 2 ^ 16
  value % 2 ^ 16 + 2 ^ 16 * (if cfg then m &&& bits else m - (m &&& bits))

/-- The register after a write of the group: every field it reaches. -/
def Dev.groupSet (d : Dev) (off value : Nat) : Dev :=
  match regAt off with
  | some (f, _) => d.setReg off (groupValue (d.reg off) off value f).v
  | none => d

/-- The registers as the whole group would leave them. -/
def Dev.groupView (d : Dev) (ws : List TxnWrite) : Dev := ws.foldl (fun d w => d.groupSet w.off w.value) d

/-- The write reaches a field of one of the kinds. -/
def reaches (off value : Nat) (ks : List FKind) : Bool :=
  match regAt off with
  | some (f, _) => f.fields.any fun x => ks.contains x.kind && bitsAt (writeMask f.wide value) x.lo x.w != 0
  | none => false

/-! ### Reasons of one write (R58) -/

/-- HOLE, PROTECTED, DOMAIN_OFF, READ_ONLY and RESERVED_ENCODING of a write, `d` holding the writes before it; 0: none of them. -/
def Dev.writeReason (d : Dev) (w : TxnWrite) : Nat :=
  match regAt w.off with
  | none => 1
  | some (f, idx) =>
    let i := nth 0 idx 0
    let spareUnit := (upTo 10).find? fun u => jReg u 2 == w.off
    if firmwareRange w.off then 1
    else if protReg w.off || blockOf w.off == 2 || w.off == rTHM_UNLOCK || (f.guarded && !w.guarded) then 5
    else if !d.domOn (regDomain f.dom w.off i) then 2
    else if (match spareUnit with
        | some u => bitAt (w.value / 2 ^ 16) 4 && bitAt w.value 4 && !d.domRun (laneDom (unitSpare u))
        | none => false) then 2
    else if !reaches w.off w.value [.cfg, .ctl, .cnt, .cmd] then 6
    else if (groupValue (d.reg w.off) w.off w.value f).ignored then 3
    else 0

/-- Chains of a direct carrier context, as its registers stand. -/
def Dev.ccChains (d : Dev) (c : Nat) : List Nat := (upTo (min 64 (d.rf (DFE_CCc_PORTS_COUNT c)))).map (d.rf (DFE_CCc_PORTS_FIRST c) + ·)
/-- A chain's converter links wait for a remap (R256). -/
def Dev.chainRemaps (d : Dev) (t : Nat) : Bool := d.flag (jPending (t / 16 % 4)) || d.flag (jPending (4 + t / 16 % 4))
/-- The context number of a DFE_CCc register. -/
def ccReg (off : Nat) : Option Nat :=
  if rDFE_CCc_CTL 0 ≤ off ∧ off < rDFE_CCc_CTL 256 then some ((off - rDFE_CCc_CTL 0) / 0x40) else none
/-- The channel number of an NBB_CHn configuration register. -/
def nbReg (off : Nat) : Option Nat :=
  if rNBB_CHn_CTL 0 ≤ off ∧ off < rNBB_CHn_CTL 256 then some ((off - rNBB_CHn_CTL 0) / 0x40) else none

/-- BLOCK_BUSY (R47, R102, R230, R239, R256, R277, R285, R391): `d` before the group, `v` as it would leave the registers. -/
def Dev.blockBusy (d v : Dev) (w : TxnWrite) : Bool :=
  match regAt w.off with
  | none => false
  | some (f, idx) =>
    let i := nth 0 idx 0
    let j := nth 0 idx 1
    (f.blk == .tl && reaches w.off w.value [.cfg] && d.tlOn i) ||
    (f.name == "WDS_PODn_TOKc" && d.flag WDS_STS_RUNNING && decide (v.rf (WDS_PODn_TOKc_ALLOT i j) < d.rf (WDS_PODn_TOKc_ALLOT i j)) &&
      !(d.podMode i == 1 && d.rf (WDS_PODn_TOKc_HELD i j) == 0)) ||
    (match ccReg w.off with
      | some c => (d.ccChains c ++ v.ccChains c).any d.chainRemaps
      | none => false) ||
    ([RegBlk.jesdAll, .dpdBank, .iqcBank, .alnBank, .spcBank, .tmuInc, .lyrEpoch].contains f.blk && reaches w.off w.value [.cfg] && d.blkOn f.blk w.off idx) ||
    (match (upTo 10).find? fun u => jReg u 2 == w.off with
      | some u => d.flag (jPending u) || (v.flag (jUse u) && (upTo 10).any fun x => x != u && unitSpare x == unitSpare u &&
          (d.flag (jUse x) || (Tab.find d.dfe.spares x).isSome))
      | none => false) ||
    (match nbReg w.off with
      | some n => d.nbCarrier n && d.flag (NBB_CHn_MOD_SRC n) && w.off != rNBB_CHn_DET n && w.off != rNBB_CHn_QUAL n && w.off != rNBB_CHn_GSM n
      | none => false)

/-! ### CONSISTENCY: failing checks, each with the registers that take part -/

/-- Event entries (R251). -/
def Dev.gevFails (v : Dev) : List (List Nat) :=
  (upTo 256).filterMap fun e =>
    let l := v.rf (DFE_GEV_e_CFG_LINE e)
    let n := v.rf (DFE_GEV_e_CFG_TIMELINE e)
    let m := v.rf (DFE_GEV_e_REP_MOD e)
    let far := decide (nsT (m * v.rf (TMU_TLn_PERIOD n)) ≤ tickT ((toSigned 32 (v.rf (DFE_GEV_e_OFFSET e))).natAbs * v.rf (TMU_TLn_DEN n)))
    if v.flag (DFE_GEV_e_CTL_ENABLE e) && (v.rf (DFE_GPIO_l_CFG_MODE l) != 2 || decide (m ≤ v.rf (DFE_GEV_e_REP_PHASE e)) || far) then
      some [rDFE_GEV_e_CTL e, rDFE_GEV_e_CFG e, rDFE_GEV_e_OFFSET e, rDFE_GEV_e_REP e, rDFE_GPIO_l_CFG l]
    else none
/-- Two ORX_SEL lines of one receiver and bit (R250). -/
def Dev.orxFails (v : Dev) : List (List Nat) :=
  (upTo 64).flatMap fun a => (upTo a).filterMap fun b =>
    if v.rf (DFE_GPIO_l_CFG_MODE a) = 5 ∧ v.rf (DFE_GPIO_l_CFG_MODE b) = 5 ∧ v.rf (DFE_GPIO_l_CFG_ARG a) = v.rf (DFE_GPIO_l_CFG_ARG b) then
      some [rDFE_GPIO_l_CFG a, rDFE_GPIO_l_CFG b] else none
/-- Two VALID pairs in one place (R302). -/
def Dev.geoFails (v : Dev) : List (List Nat) :=
  (upTo 64).flatMap fun a => (upTo a).filterMap fun b =>
    if v.flag (DFE_GEO_c_VALID a) ∧ v.reg (rDFE_GEO_c a) = v.reg (rDFE_GEO_c b) then some [rDFE_GEO_c a, rDFE_GEO_c b] else none
/-- Narrowband channels that run (R262, R280, R283). -/
def Dev.nbFails (v : Dev) : List (List Nat) :=
  let on := (upTo 256).filter fun n => v.flag (NBB_CHn_CTL_RX_EN n) || v.flag (NBB_CHn_CTL_TX_EN n)
  (on.filter fun n => !v.nbGroupOk n).map fun n => (upTo 12).map fun i => rNBB_CHn_CTL n + 4 * i
/-- Spares without an entry at the unit's RATE (R371). -/
def Dev.spareFails (v : Dev) : List (List Nat) :=
  (upTo 10).filterMap fun u =>
    if v.flag (jUse u) && (v.entry (unitSpare u) (jCode (v.jRate u))).isNone then some [jReg u 1, jReg u 2] else none
/-- Firewall regions 16-63 (R343): LIMIT below BASE, or neither within DDR5 nor within the central buffer. -/
def Dev.fwFails (v : Dev) : List (List Nat) :=
  (upTo 48).filterMap fun i =>
    let r := 16 + i
    let b := v.rf (MEM_FWr_BASE r)
    let l := v.rf (MEM_FWr_LIMIT r)
    let cb := cbufBase / 4096
    if l < b ∨ !(decide (l < cb) || (decide (cb ≤ b) && decide (l < cb + 16384))) then
      some [rMEM_FWr_BASE r, rMEM_FWr_LIMIT r, rMEM_FWr_RD r, rMEM_FWr_WR r, rMEM_FWr_CTL r, rMEM_FW_CTL] else none
/-- Carriers (R230, R380). -/
def Dev.carFails (v : Dev) : List (List Nat) :=
  (upTo 256).flatMap fun c =>
    (if v.ccOn c then v.ccFails (v.ccSpec c) (v.ccOthers c) else []) ++
    (if v.ethCcOn c then v.ethFails (v.ethSpec c) (v.ethOthers c) false else []) ++
    (if v.ccOn c && v.ethCcOn c then [[rDFE_CCc_CTL c, rETH_CCc_CTL c]] else [])
/-- Every failing check of the state the group would leave. -/
def Dev.groupFails (v : Dev) : List (List Nat) :=
  v.carFails ++ v.nbFails ++ v.gevFails ++ v.orxFails ++ v.geoFails ++ v.spareFails ++ v.fwFails

/-- The last write of a group that takes part in a check. -/
def lastPart (ws : List (TxnWrite × Nat)) (part : List Nat) : Option Nat :=
  ws.foldl (fun b w => if part.contains w.1.off then some w.2 else b) none

/-- The refusal records of a group, in entry order. -/
def Dev.groupRefused (d : Dev) (ws : List TxnWrite) : List Refused :=
  let v := d.groupView ws
  let nums := ws.zip (upTo ws.length)
  let blamed := v.groupFails.filterMap (lastPart nums)
  let r := nums.foldl (fun (a : Dev × List Refused) w =>
    let early := a.1.writeReason w.1
    let why := if early ≠ 0 then early else if d.blockBusy v w.1 then 9 else if blamed.contains w.2 then 4 else 0
    (a.1.groupSet w.1.off w.1.value, if why = 0 then a.2 else a.2 ++ [⟨w.2, blockOf w.1.off, why, w.1.off⟩])) (d, [])
  r.2

/-! ### Commit (R59) -/

/-- The group's plain fields take effect; registers with an effect of their own take only their CFG fields here. -/
def Dev.commitPlain (d : Dev) (w : TxnWrite) : Dev :=
  match regAt w.off with
  | none => d
  | some (f, idx) =>
    if rowFamilies.contains f.name then d.groupSet w.off (splitCfg true w.value f)
    else (d.groupSet w.off w.value).regHook f.name (nth 0 idx 0)
/-- The effects of the registers that have one; what such a register would discard of a direct write it discards here too, with
IGNORED_WRITE (R475). -/
def Dev.commitRow (d : Dev) (w : TxnWrite) : Dev :=
  match regAt w.off with
  | none => d
  | some (f, idx) =>
    if rowFamilies.contains f.name then
      (d.rowWrite .group w.off (if f.wide then w.value else splitCfg false w.value f) f.name (nth 0 idx 0) (nth 0 idx 1)).getD d
    else d

/-- The chain a DFE_TX_t register belongs to: its control registers, or its predistortion terms. -/
def txReg (off : Nat) : Option Nat :=
  let a := rDFE_TX_t_DPD 0
  if a ≤ off ∧ off < rDFE_TX_t_DPD 64 then some ((off - a) / 0x20)
  else match regAt off with
    | some (f, idx) => if f.blk == .dpdBank || f.blk == .txChain then some (nth 0 idx 0) else none
    | none => none
/-- The TX chains a group touches (R242): their registers, and the chains on which a written context places a carrier. -/
def Dev.touches (d v : Dev) (ws : List TxnWrite) : List Nat :=
  (ws.flatMap fun w => (match txReg w.off with | some t => [t] | none => []) ++
    (match ccReg w.off with
      | some c => (if d.ccOn c then d.ccChains c else []) ++ (if v.ccOn c then v.ccChains c else [])
      | none => [])).eraseDups

/-- Registers whose change ends what a running narrowband receiver does (R280). -/
def nbEnds (n off : Nat) : Bool :=
  [rNBB_CHn_MOD n, rNBB_CHn_RATE n, rNBB_CHn_SHAPE n, rNBB_CHn_OFFSET n, rNBB_CHn_FMT n, rNBB_CHn_PLEN n].contains off

/-- STEP, signed. -/
def Dev.stepNs (d : Dev) : Int := toSigned 64 (d.rf64 ⟨rTMU_STEP_LO, 0, 32⟩ ⟨rTMU_STEP_HI, 0, 32⟩)
/-- A write of a group commands APPLY (R396). -/
def TxnWrite.applies (w : TxnWrite) : Bool := w.off == rTMU_STEP_CMD && bitAt (w.value / 2 ^ 16) 0 && bitAt w.value 0

/-- The bits of CTL fields at `off` that hardware updates in the commit cycle; `hw` lists offsets and bits. -/
def hwBits (hw : List (Nat × Nat)) (off : Nat) : Nat := ((hw.filter (·.1 == off)).foldl (fun a h => a ||| h.2) 0) &&& ctlBits off
/-- The write with the bits taken out in which hardware wins (R464, R465). -/
def Dev.yieldHw (d : Dev) (hw : List (Nat × Nat)) (w : TxnWrite) : TxnWrite :=
  let hit := hwBits hw w.off &&& writeMask (wideReg w.off) w.value
  if hit = 0 then w
  else
    let old := d.reg w.off
    { w with value := if wideReg w.off then w.value - (w.value &&& hit) + (old &&& hit) else w.value - hit * 2 ^ 16 }
/-- The fields of a group on which hardware wins, as register and lowest bit. -/
def hwFields (hw : List (Nat × Nat)) (ws : List TxnWrite) : List (Nat × Nat) :=
  (ws.flatMap fun w => match regAt w.off with
    | some (f, _) => (f.fields.filter fun x => bitsAt (hwBits hw w.off &&& writeMask f.wide w.value) x.lo x.w != 0).map fun x => (w.off, x.lo)
    | none => []).eraseDups

/-- The commit cycle of a group at boundary `k` of timeline `n`; `hw` are the CTL bits that hardware updates in it, which it keeps (R59). -/
def Dev.groupCommit (d : Dev) (n k : Nat) (given : List TxnWrite) (hw : List (Nat × Nat)) : Dev :=
  let ws := given.map (d.yieldHw hw)
  let d0 := (hwFields hw given).foldl (fun d x => d.regErr .collide x.1 .group) d
  let d1 := ws.foldl Dev.commitPlain d0
  let d2 := ws.foldl Dev.commitRow d1
  let chs := (upTo 256).filter fun x => d.flag (NBB_CHn_CTL_RX_EN x) && ws.any fun w => nbEnds x w.off && d.reg w.off != d2.reg w.off
  let d3 := chs.foldl (fun d x => d.nbChanged x) d2
  let us := (upTo 10).filter fun u => d.reg (jReg u 2) != d3.reg (jReg u 2)
  let d4 := us.foldl (fun d u => { d.setFlag (jPending u) true with dfe.remaps := d.dfe.remaps ++ [(u, n, k)] }) d3 |> fun d => if us.isEmpty then d else d.serviceSync
  { d4 with cal.touched := d4.cal.touched ++ (d.touches d4 ws).map fun t => (n, k, t),
            tmu.applyDue := d4.tmu.applyDue ++ if ws.any TxnWrite.applies then [d4.stepNs] else [] }

/-- A group named for boundary `k` of timeline `n` is validated and commits or aborts (R58-R62); `hw` as in its commit cycle. -/
def Dev.groupAct (d : Dev) (n k i : Nat) (hw : List (Nat × Nat)) : Dev :=
  let x := d.txn i
  match x.phase with
  | .armed _ _ _ late =>
    if late then d.txnAbort i rsnLate k
    else match d.groupRefused x.writes with
      | [] => (d.txnResolve i [] k (hwFields hw x.writes).length).groupCommit n k x.writes hw
      | r :: rs => d.txnResolve i (r :: rs) k 0
  | _ => d

/-! ### The commands (R57, R61, R63) -/

/-- A1's limit (R63). -/
abbrev txnLimit : Nat := 192

/-- TXN_OPEN: a target-period word above 65,535 is no period number: BAD_PARAM (DESIGN CHOICE, assumption log). -/
def Dev.txnOpen (d : Dev) (c : PqCmd) : Dev :=
  let n := pp c 0
  let free := (upTo 16).find? d.txnFree
  d.checks c [(decide (4 ≤ n) || decide (65536 ≤ pp c 1) || !d.flag (TMU_TLn_CTL_ENABLE n) || !d.future n (pp c 1), badParam),
      (free.isNone, busyS)] fun d =>
    let i := free.getD 0
    (d.setTxn i ⟨.opened, n, pp c 1, [], none⟩).finR c [i]
def execTxnOpen (c : PqCmd) (s : State) : Res := s.pq 0x0B01 c fun d => d.txnOpen c

/-- A write entry, and whether its format is right (R56). -/
def parseWrite (b : List Byte) : TxnWrite × Bool :=
  let x := leAt b 0 4
  (⟨x % 2 ^ 28, bitAt x 28, leAt b 4 4⟩, x % 4 == 0 && decide (x < 2 ^ 29))

/-- TXN_ADD: `data` holds the list in host memory. -/
def Dev.txnAdd (d : Dev) (c : PqCmd) (data : List Byte) : Dev :=
  let i := pp c 0
  let n := pp c 3
  let x := d.txn i
  let es := (upTo (min n 257)).map fun j => parseWrite ((upTo 8).map fun k => nth 0 data (8 * j + k))
  d.checks c [(decide (16 ≤ i) || x.phase != .opened || decide (txnLimit < x.writes.length + n) || (decide (0 < n) && !d.obOk (pAddr c 1) (8 * n)) ||
      es.any (fun e => !e.2), badParam)] fun d =>
    (d.setTxn i { x with writes := x.writes ++ es.map (·.1) }).finR c [x.writes.length + n]
def execTxnAdd (c : PqCmd) (data : List Byte) (s : State) : Res := s.pq 0x0B02 c fun d => d.txnAdd c data

/-- TXN_ARM: a group whose boundary has acted, or whose timeline is off, aborts at once; one armed after its seal point aborts at its
boundary. -/
def Dev.txnArm (d : Dev) (c : PqCmd) : Dev :=
  let i := pp c 0
  let x := d.txn i
  d.checks c [(decide (16 ≤ i) || x.phase != .opened, badParam)] fun d =>
    let d1 := d.inProgress c.queue.val c.tag.toNat
    let late := d1.sealed x.tl (d1.targetK x.tl x.target)
    let d2 := { d1.setTxn i { x with phase := .armed c.queue.val c.tag.toNat d1.txnOrd late } with txnOrd := d1.txnOrd + 1 }
    if !d2.flag (TMU_TLn_CTL_ENABLE x.tl) then d2.txnAbort i rsnTimelineOff x.target
    else if !d2.future x.tl x.target then d2.txnAbort i rsnLate x.target
    else d2
def execTxnArm (c : PqCmd) (s : State) : Res := s.pq 0x0B03 c fun d => d.txnArm c

/-- TXN_CANCEL: a cancelled group's slot is free at once (R55). -/
def Dev.txnCancel (d : Dev) (c : PqCmd) : Dev :=
  let i := pp c 0
  let x := d.txn i
  match x.phase with
  | .opened => if 16 ≤ i then d.fin c badParam else (d.setTxn i { x with phase := .free, writes := [] }).fin c okS
  | .armed _ _ _ _ =>
    if d.sealed x.tl (d.targetK x.tl x.target) then d.fin c busyS
    else
      let d1 := d.txnAbort i rsnCancelled x.target
      (d1.setTxn i { d1.txn i with phase := .free }).fin c okS
  | .free | .done _ _ => d.fin c badParam
def execTxnCancel (c : PqCmd) (s : State) : Res := s.pq 0x0B04 c fun d => d.txnCancel c

/-- The 8 bytes of a refusal record. -/
def Refused.bytes (r : Refused) : List Byte := leBytes 2 r.idx ++ leBytes 1 r.block ++ leBytes 1 r.reason ++ leBytes 4 r.off
/-- TXN_REPORT: of a slot that was reopened, nothing until its new group has resolved, and then that group (DESIGN CHOICE, assumption log:
the clause 'whether or not the new group has resolved' can be read otherwise). -/
def Dev.txnReport (d : Dev) (c : PqCmd) : Dev :=
  let len := pp c 3
  match (if pp c 0 < 16 then (d.txn (pp c 0)).report else none) with
  | none => d.fin c badParam
  | some rs =>
    d.checks c [(decide (8 ≤ len) && !d.obOk (pAddr c 1) (len / 8 * 8), badParam)] fun d =>
      let n := min rs.length (len / 8)
      (d.hostWrite (pAddr c 1) ((rs.take n).flatMap Refused.bytes)).finR c [n, rs.length]
def execTxnReport (c : PqCmd) (s : State) : Res := s.pq 0x0B05 c fun d => d.txnReport c

end Sys2Proof.Machine
end

