-- ==== Sys2Proof/Machine/Boundary.lean ====
section
/-! DEFINITION. The boundary event, time steps, the PTP servo, and the rows of the register bus (R21, R43-R46, R391, R396, R464-R473). -/

namespace Sys2Proof.Machine

/-! ### One boundary (R21) -/

/-- What is named for a boundary: a staged effect or an armed group, by its place among them. -/
inductive Named where
  | effect (e : Staged)
  | group (i ord : Nat)
def Named.ord : Named → Nat
  | .effect e => e.ord
  | .group _ o => o

/-- A staged effect acts (R78). A DPD_BANK_SELECT whose boundary is not one its switch can act at arms for the next. -/
def State.applyEffect (s : State) (n : Nat) (e : Staged) : State :=
  match e.eff with
  | .carrierAdd cc p m chs => s.onDev fun d => d.carAddNow cc n p m chs
  | .carrierModify cc p m => s.onDev fun d => d.carModifyNow cc n p m
  | .carrierRemove cc => s.onDev fun d => d.carRemoveNow cc
  | .nbAdd ch p => s.onDev fun d => d.nbAddNow ch p
  | .nbRemove ch => s.onDev fun d => d.nbRemoveNow ch
  | .dpdSelect t _ => s.onDev fun d => d.dpdArmFor t e.queue e.tag
  | .twinSwap => s.onDev fun d => d.swapNow e
  | .fwSwitch => (s.onDev fun d => d.fwTakeover e).nameSlot (s.dev.rf SEC_BOOT_STS_FW_SLOT)

/-- What is named acts; `hw` lists, by slot, the CTL bits hardware updates in a group's commit cycle. -/
def State.applyNamed (s : State) (n k : Nat) (hw : List (Nat × Nat × Nat)) (x : Named) : State :=
  match x with
  | .effect e => s.applyEffect n e
  | .group i _ => s.onDev fun d => d.groupAct n k i ((hw.filter (·.1 == i)).map (·.2))

/-- Firmware keeps a plan past boundary `k` of timeline `n`: an unbuilt one, one whose uplink work still runs, and on a STANDBY one whose air period
its partner may not have served (R490). -/
def Dev.keepsPlan (d : Dev) (n k : Nat) (p : Plan) : Bool :=
  p.tl != n || !p.built || decide (ahead k p.period ≤ 32767) || (p.period + 1) % 65536 == k % 65536 ||
    (d.rf MGT_TWIN_STS_ROLE == 2 && decide (d.twin.heardAt < d.boundaryT n (d.airK n p.period)))

/-- The boundary event of index `k` on timeline `n`: the fence; staged effects and groups in their order; bank switches; the front-end
configuration of the next air period (R228); and, if `release`, the release of POD0, the first of the pods (R21, R60, R78, R228, R99). A timeline with a boundary at the same instant that acted
before completes its releases first. -/
def State.boundary (s : State) (n k : Nat) (release : Bool) (hw : List (Nat × Nat × Nat)) : State :=
  let d00 := s.dev.txDrainAll.finishReleases (s.dev.boundaryT n k)
  let d0 := d00.cancelLate (d00.expires n k false)
  let t := d0.tl n
  let d1 := ((d0.setTl n { t with started := true, k := k, nextK := k + 1, released := [], enWait := [] }).setFlag
    (TMU_TLn_STS_RUNNING n) true).wf (TMU_TLn_PNUM n) (k % 65536)
  let d2 : Dev := { d1 with fw.carriers := Tab.mapV (fun _ c => if c.tl = n ∧ (c.state = 2 ∨ (c.state = 3 ∧ c.placed)) then { c with served := k } else c) d1.fw.carriers }
  let d3 := d2.runFence n k false
  let mine (e : Staged) : Bool := e.tl == n && e.target == k % 65536
  let groups := ((d3.armedOf n).filter fun p => (d3.txn p.1).target == k % 65536).map fun p => Named.group p.1 p.2
  let named := (((d3.fw.staged.filter mine).map Named.effect) ++ groups).mergeSort fun a b => decide (a.ord ≤ b.ord)
  let s4 := named.foldl (fun s x => s.applyNamed n k hw x) { s with dev := { d3 with fw.staged := d3.fw.staged.filter fun e => !mine e } }
  s4.onDev fun d =>
    let d5 := (((d.switchDue n k).dpdStagedArm n k).calFinish).latchDfe n k
    let d6 : Dev := { d5 with fw.plans := d5.fw.plans.filter (d5.keepsPlan n k) }
    let d7 := t.enWait.foldl (fun d p => d.complete p.1 p.2 okS [k % 65536]) d6
    if release && (d7.tl n).started then
      ((d7.setTl n { d7.tl n with released := [0] }).logPod 0x05 0xFF 0 (k % 65536) n).wdsSettle
    else d7

/-- The next boundary to perform: timeline, index, instant. The earliest, and of those at one instant the lowest timeline. -/
def Dev.nextBoundary (d : Dev) : Option (Nat × Nat × Nat) :=
  (upTo 4).foldl (fun (b : Option (Nat × Nat × Nat)) n =>
    if d.flag (TMU_TLn_CTL_ENABLE n) then
      let k := (d.tl n).nextK
      let t := d.boundaryT n k
      match b with
      | none => some (n, k, t)
      | some x => if t < x.2.2 then some (n, k, t) else b
    else b) none

/-- The events of every boundary whose instant has come, at most `fuel` of them. Which hardware updates meet their commit cycles is free (R59). -/
def State.runDue : Nat → State → State
  | 0, s => s
  | fuel + 1, s =>
    match s.dev.nextBoundary with
    | none => s
    | some (n, k, t) =>
      if t ≤ s.dev.now then ((s.onDev fun d => { d with free := d.free + 1 }).boundary n k true (Config.commitHw s.dev.free)).runDue fuel else s

/-! ### Steps of time (R45, R391) -/

/-- Boundaries of timeline `n` that TMU time has reached and not performed. -/
def Dev.crossed (d : Dev) (n : Nat) : Nat :=
  if d.flag (TMU_TLn_CTL_ENABLE n) && decide (d.boundaryT n (d.tl n).nextK ≤ d.now) then d.gridIndex n d.now + 1 - (d.tl n).nextK else 0

/-- The events of the boundaries a step crossed, in the order of their instants; jobs are released at the last of each timeline. -/
def State.runCrossed : Nat → State → State
  | 0, s => s
  | fuel + 1, s =>
    match s.dev.nextBoundary with
    | none => s
    | some (n, k, t) =>
      if t ≤ s.dev.now then
        ((s.onDev fun d => { d with free := d.free + 1 }).boundary n k (decide (s.dev.crossed n ≤ 1)) (Config.commitHw s.dev.free)).runCrossed fuel
      else s

/-- The modulus of a T128 time counted in units of 2^-32 ns. -/
def timeMod : Nat := 2 ^ 64 * 1000000000 * 2 ^ 32

/-- TMU time steps by a signed number of ns. Boundaries due before it are performed first; each timeline counts the boundaries it
crosses without an event of their own. The front end's ticks do not step (R226). -/
def State.stepOnce (s : State) (ns : Int) : State :=
  if ns = 0 then s
  else
    let due := sumNat ((upTo 4).map s.dev.crossed)
    let s1 := s.runDue due
    let t := (((s1.dev.now : Nat) : Int) + ns * 2 ^ 32) % (timeMod : Nat)
    let s2 : State := { s1 with dev := { s1.dev with now := t.toNat, dfe.epoch := s1.dev.dfe.epoch.map fun e => (e.1, (((e.2 : Nat) : Int) + ns * 2 ^ 32).toNat) } }
    let m (n : Nat) : Nat := if ns < 0 then 0 else s2.dev.crossed n
    let s3 := s2.onDev fun d => (upTo 4).foldl (fun d n => d.bumpBy (TMU_TLn_MISSED n) (m n - 1)) d
    s3.runCrossed (sumNat ((upTo 4).map m))

/-- One APPLY of a step of `ns` acts: a negative one is ignored while a timeline is enabled. -/
def State.applyOnce (s : State) (init : Initiator) (ns : Int) : State :=
  if ns < 0 ∧ s.dev.anyTl then s.onDev fun d => d.regErr .ignored rTMU_STEP_CMD init else s.stepOnce ns
/-- The APPLY commands of groups that committed at the boundaries just performed act after them, each with the STEP of its own commit cycle, at
most `fuel` (R59). -/
def State.runApplies : Nat → State → State
  | 0, s => s
  | fuel + 1, s =>
    match s.dev.tmu.applyDue with
    | [] => s
    | ns :: rest => (({ s with dev := { s.dev with tmu.applyDue := rest } } : State).applyOnce .group ns).runApplies fuel
/-- There are 16 slots for groups. -/
abbrev appliesMax : Nat := 16
/-- TMU time steps, and what the boundaries it crosses command follows. -/
def State.stepTime (s : State) (ns : Int) : State := (s.stepOnce ns).runApplies appliesMax
/-- APPLY. -/
def State.applyStep (s : State) (init : Initiator) : State := (s.applyOnce init s.dev.stepNs).runApplies appliesMax

/-- BOUNDARY_EVENT: TMU time reaches the next boundary's instant, and its event happens. A step that a group of that boundary commanded
follows it. Which hardware updates meet a commit cycle is free. -/
def State.boundaryEvent (s : State) : State :=
  match s.dev.nextBoundary with
  | none => s
  | some (n, k, t) => ((s.onDev fun d => { d.advanceTo t with free := d.free + 1 }).boundary n k true (Config.commitHw s.dev.free)).runApplies appliesMax
def execBoundaryEvent (s : State) : Res := .next s.boundaryEvent
/-- The same for every boundary that has come, at most `fuel` of them. -/
def State.eventsDue : Nat → State → State
  | 0, s => s
  | fuel + 1, s =>
    match s.dev.nextBoundary with
    | none => s
    | some x => if x.2.2 ≤ s.dev.now then s.boundaryEvent.eventsDue fuel else s

/-- The command is its queue's next, and this device may run it. -/
def Dev.pqReady (d : Dev) (op : Nat) (c : PqCmd) : Bool :=
  match d.pqNext c.queue with
  | some r => r.opcode == op && r.cmd == c && (d.rf MGT_TWIN_STS_ROLE != 2 || r.ghost)
  | none => false
/-- TIME_STEP. -/
def execTimeStep (c : PqCmd) (s : State) : Res :=
  let x := toSigned 64 (pAddr c 0)
  let neg := decide (x < 0) && s.dev.anyTl
  let s1 := if s.dev.pqReady 0x0503 c && !neg then s.stepTime x else s
  s1.pq 0x0503 c fun d => d.fin c (if neg then badParam else okS)

/-- A write of TMU_STEP_CMD. -/
def State.stepCmdWr (s : State) (init : Initiator) (value : Nat) : State :=
  let r := s.dev.busWr init rTMU_STEP_CMD value
  let s1 : State := { s with dev := r.1 }
  match r.2 with
  | .no => s1
  | .yes cmds =>
    if bitAt cmds 0 then s1.applyStep init else s1
def execTmuStepApply (init : Initiator) (value : Word) (s : State) : Res := .next (s.stepCmdWr init value.toNat)

/-- PTP_SERVO_UPDATE: TMU time is `behind` the master by so many ns (signed). More than 1 ms behind, it steps; otherwise the servo loads the
inactive increment bank within 1,000 ppm of the nominal and arms it. -/
def execPtpServoUpdate (behind : BitVec 64) (s : State) : Res :=
  .next <|
    if s.dev.tmu.source ≠ 0 ∨ s.dev.flag TMU_INC_CTL_SRC_RC then s
    else if 1000000 < behind.toInt then s.stepTime behind.toInt
    else if s.dev.flag TMU_INC_CTL_PENDING then s
    else s.onDev fun d =>
      let x := d.fresh (incTmu / 500)
      (x.1.loadBank (1 - d.rf TMU_INC_CTL_ACTIVE) (incTmu - incTmu / 1000 + x.2)).setFlag TMU_INC_CTL_PENDING true

/-- One CK_TMU tick: what an empty queue of commands lets happen (assumption log). The dispatcher's log goes on to the recorder. -/
def State.tick (s : State) : State := (s.onDev fun d => (d.ticks 1).drainLog).eventsDue 8

/-! ### The rows of the register bus -/

/-- A 32-bit aligned write by an initiator of the bus. -/
def State.regWriteAll (s : State) (init : Initiator) (off value : Nat) : State :=
  if off = rTMU_STEP_CMD then s.stepCmdWr init value else s.regWrite init off value

/-- A write of 4, 2 or 1 bytes (`size` 0, 1, 2); `hw` holds the bits of CTL fields that hardware updates in the same cycle: in those the
write is discarded (R464, R465, R470). -/
def State.busWrite (s : State) (init : Initiator) (off size value hw : Nat) : State :=
  if (size = 0 ∧ off % 4 ≠ 0) ∨ (size = 1 ∧ off % 2 ≠ 0) then s.onDev fun d => d.regErr .align off init
  else if size ≠ 0 then s.onDev fun d => d.regErr .narrow off init
  else if firmwareRange off ∧ init = .firmware then s
  else
    let m := writeMask (wideReg off) value
    let hit := hw &&& ctlBits off &&& m
    if hit = 0 then s.regWriteAll init off value
    else
      let old := s.dev.reg off
      let v := if wideReg off then value - (value &&& hit) + (old &&& hit) else value - hit * 2 ^ 16
      let s1 := s.regWriteAll init off v
      if s.dev.answers init off then s1.onDev fun d => d.regErr .collide off init else s1
def execRegisterWrite (init : Initiator) (off : BitVec 28) (size : Fin 3) (value hw : Word) (s : State) : Res :=
  .next (s.busWrite init off.toNat size.val value.toNat hw.toNat)

/-- GUARD_UNLOCK: THM_UNLOCK is the only one. -/
def execGuardUnlock (init : Initiator) (value : Word) (s : State) : Res := s.act fun d => d.busReg init rTHM_UNLOCK value.toNat

/-- REGBUS_TIMEOUT: the access is answered as for a domain that is off; a write may or may not have taken effect (`taken`). -/
def execRegbusTimeout (init : Initiator) (off : BitVec 28) (write : Option Word) (taken : Bool) (s : State) : Res :=
  .next <|
    let o := off.toNat
    if (regAt o).isNone || s.dev.holeFor init o then s.onDev fun d => d.regErr .hole o init
    else if !s.dev.answers init o then s.onDev fun d => d.regErr .domainOff o init
    else
      let s1 := match write with
        | some v => if taken then s.regWriteAll init o v.toNat else s
        | none => s
      s1.onDev fun d => (d.regErr .timeout o init).health 1 10 o

end Sys2Proof.Machine
end

