-- ==== Sys2Proof/Machine/DspScalar.lean ====
section
/-! DEFINITION. Scalar, pointer, branch and loop instructions of the DSP core (R117, R130, R138, R139). -/

namespace Sys2Proof.Machine

/-! ### SOP and the immediate forms (R138, R139) -/

/-- Redundant sign bits of a 32-bit value (R139 CLS). -/
def cls32 (v : Word) : Nat :=
  let n := v.toNat
  (if v.msb then leadingZeros 32 (2 ^ 32 - 1 - n) else leadingZeros 32 n) - 1

/-- The scalar operation FN on Sa and Sb (R139); none for an undefined FN. -/
def sopFn (fn : Nat) (a b : Word) : Option Word :=
  let sh := b.toNat % 32
  match fn with
  | 0x00 => some (a + b)
  | 0x01 => some (a - b)
  | 0x02 => some (a &&& b)
  | 0x03 => some (a ||| b)
  | 0x04 => some (a ^^^ b)
  | 0x05 => some (a <<< sh)
  | 0x06 => some (a >>> sh)
  | 0x07 => some (a.sshiftRight sh)
  | 0x08 => some (a * b)
  | 0x09 => some (if a.toInt < b.toInt then 1 else 0)
  | 0x0A => some (if a.toNat < b.toNat then 1 else 0)
  | 0x0B => some (if a.toInt ≤ b.toInt then a else b)
  | 0x0C => some (if a.toInt ≥ b.toInt then a else b)
  | 0x0D => some (BitVec.ofNat 32 (leadingZeros 32 a.toNat))
  | 0x0E => some (BitVec.ofNat 32 (cls32 a))
  | _ => none

/-- SOP: Sd ← Sa FN Sb; bits [10:5] are 0 (R136, R138, R139). -/
def insnSop (w : Nat) (k : Core) : InsnRes :=
  legalThen (bitsAt w 5 6 == 0) <|
    match sopFn (bitsAt w 0 5) (k.getS (fA w)) (k.getS (fB w)) with
    | some r => .done ((k.setS (fD w) r).adv)
    | none => illegal

/-- ADDI: Sd ← Sa + sext(IMM16) (R138). -/
def insnAddi (w : Nat) (k : Core) : InsnRes :=
  .done ((k.setS (fD w) (k.getS (fA w) + BitVec.ofInt 32 (fImmS w))).adv)
/-- ANDI zero-extends IMM16 (R138). -/
def insnAndi (w : Nat) (k : Core) : InsnRes :=
  .done ((k.setS (fD w) (k.getS (fA w) &&& BitVec.ofNat 32 (fImm w))).adv)
def insnOri (w : Nat) (k : Core) : InsnRes :=
  .done ((k.setS (fD w) (k.getS (fA w) ||| BitVec.ofNat 32 (fImm w))).adv)
def insnXori (w : Nat) (k : Core) : InsnRes :=
  .done ((k.setS (fD w) (k.getS (fA w) ^^^ BitVec.ofNat 32 (fImm w))).adv)
/-- LUI: Sd ← IMM16 << 16; SA field 0 (R138). -/
def insnLui (w : Nat) (k : Core) : InsnRes :=
  legalThen (fA w == 0) (.done ((k.setSN (fD w) (fImm w * 2 ^ 16)).adv))
/-- SLTI: signed compare with sext(IMM16) (R138). -/
def insnSlti (w : Nat) (k : Core) : InsnRes :=
  .done ((k.setS (fD w) (if (k.getS (fA w)).toInt < fImmS w then 1 else 0)).adv)

/-! ### Pointers and offsets (R136 PI and PS, R138) -/

/-- PADDI: Pd ← Pa + sext(IMM16), modulo 2^18. -/
def insnPaddi (w : Nat) (k : Core) : InsnRes :=
  legalThen (bitsAt w 16 2 == 0) <|
    .done ((k.setP (bitsAt w 22 4) ((k.getP (bitsAt w 18 4) : Int) + fImmS w)).adv)
/-- The P or M index of format PS. -/
def fPs (w : Nat) : Nat := bitsAt w 17 4
/-- PMOV: Pd ← Sa[17:0]. -/
def insnPmov (w : Nat) (k : Core) : InsnRes :=
  legalThen (bitsAt w 16 1 == 0 && fImm w == 0) <|
    .done ((k.setP (fPs w) ((k.getS (fD w)).toNat % 2 ^ 18 : Nat)).adv)
/-- PGET: Sd ← Pa. -/
def insnPget (w : Nat) (k : Core) : InsnRes :=
  legalThen (bitsAt w 16 1 == 0 && fImm w == 0) <|
    .done ((k.setSN (fD w) (k.getP (fPs w))).adv)
/-- MSET: Md ← Sa[17:0]. -/
def insnMset (w : Nat) (k : Core) : InsnRes :=
  legalThen (bitsAt w 16 1 == 0 && fImm w == 0) <|
    .done ((k.setM (fPs w) ((k.getS (fD w)).toNat % 2 ^ 18 : Nat)).adv)
/-- MSETI: Md ← sext(IMM16). -/
def insnMseti (w : Nat) (k : Core) : InsnRes :=
  legalThen (bitsAt w 16 1 == 0) (.done ((k.setM (fPs w) (fImmS w)).adv))

/-! ### Branches, jumps, loops (R117, R130, R138) -/

/-- A BR instruction (R136): SA in [25:21], SB in [20:16], OFF16 from the next instruction. -/
def insnBranch (taken : Word → Word → Bool) (w : Nat) (k : Core) : InsnRes :=
  if taken (k.getS (fD w)) (k.getS (fA w)) then
    .done (k.jump (ofSigned 21 ((k.pc : Int) + 1 + fImmS w)))
  else .done k.adv
def insnBeq (w : Nat) (k : Core) : InsnRes := insnBranch (fun a b => a == b) w k
def insnBne (w : Nat) (k : Core) : InsnRes := insnBranch (fun a b => a != b) w k
def insnBlt (w : Nat) (k : Core) : InsnRes := insnBranch (fun a b => decide (a.toInt < b.toInt)) w k
def insnBge (w : Nat) (k : Core) : InsnRes := insnBranch (fun a b => decide (a.toInt ≥ b.toInt)) w k

/-- JMP: PC ← TARGET21; [25:21] are 0 (R136, R138). -/
def insnJmp (w : Nat) (k : Core) : InsnRes :=
  legalThen (bitsAt w 21 5 == 0) (.done (k.jump (bitsAt w 0 21)))
/-- CALL: also S31 ← PC + 1; CALL ends no loop level (R130, R138). -/
def insnCall (w : Nat) (k : Core) : InsnRes :=
  legalThen (bitsAt w 21 5 == 0) <|
    .done { k.setSN 31 ((k.pc + 1) % 2 ^ 21) with pc := bitsAt w 0 21 }
/-- JR: PC ← Sa[20:0]; the rest of the word is 0 (R136). -/
def insnJr (w : Nat) (k : Core) : InsnRes :=
  legalThen (bitsAt w 0 21 == 0) (.done (k.jump ((k.getS (fD w)).toNat % 2 ^ 21)))

/-- Start a loop of `len` instructions `count` times (R130): a fourth level or LEN 0 is ILLEGAL; count 0 skips the body. A fault handler,
which must not use it (R145), starts no level: the body runs once (assumption log). -/
def startLoop (len count : Nat) (k : Core) : InsnRes :=
  legalThen (len != 0 && decide (k.loops.length < 3)) <|
    if count = 0 then .done (k.advTo (k.pc + 1 + len))
    else if k.inHandler then .done k.adv
    else .done { k with pc := (k.pc + 1) % 2 ^ 21,
                        loops := ⟨(k.pc + 1) % 2 ^ 21, (k.pc + 1 + len) % 2 ^ 21, count⟩ :: k.loops }
/-- LOOP: count Sa[23:0] (R130); [20:14] are 0. -/
def insnLoop (w : Nat) (k : Core) : InsnRes :=
  legalThen (bitsAt w 14 7 == 0) (startLoop (bitsAt w 0 14) ((k.getS (fD w)).toNat % 2 ^ 24) k)
/-- LOOPI: COUNT12 (R130). -/
def insnLoopi (w : Nat) (k : Core) : InsnRes := startLoop (bitsAt w 0 14) (bitsAt w 14 12) k

/-! ### The rows -/

def execSop (c : Fin 108) (w : Word) (s : State) : Res := s.dsp 0x00 c w insnSop
def execAddi (c : Fin 108) (w : Word) (s : State) : Res := s.dsp 0x01 c w insnAddi
def execAndi (c : Fin 108) (w : Word) (s : State) : Res := s.dsp 0x02 c w insnAndi
def execOri (c : Fin 108) (w : Word) (s : State) : Res := s.dsp 0x03 c w insnOri
def execXori (c : Fin 108) (w : Word) (s : State) : Res := s.dsp 0x04 c w insnXori
def execLui (c : Fin 108) (w : Word) (s : State) : Res := s.dsp 0x05 c w insnLui
def execSlti (c : Fin 108) (w : Word) (s : State) : Res := s.dsp 0x06 c w insnSlti
def execPaddi (c : Fin 108) (w : Word) (s : State) : Res := s.dsp 0x08 c w insnPaddi
def execPmov (c : Fin 108) (w : Word) (s : State) : Res := s.dsp 0x09 c w insnPmov
def execPget (c : Fin 108) (w : Word) (s : State) : Res := s.dsp 0x0A c w insnPget
def execMset (c : Fin 108) (w : Word) (s : State) : Res := s.dsp 0x0B c w insnMset
def execMseti (c : Fin 108) (w : Word) (s : State) : Res := s.dsp 0x0C c w insnMseti
def execBeq (c : Fin 108) (w : Word) (young : Nat) (s : State) : Res := s.dspBranch 0x10 c w young insnBeq
def execBne (c : Fin 108) (w : Word) (young : Nat) (s : State) : Res := s.dspBranch 0x11 c w young insnBne
def execBlt (c : Fin 108) (w : Word) (young : Nat) (s : State) : Res := s.dspBranch 0x12 c w young insnBlt
def execBge (c : Fin 108) (w : Word) (young : Nat) (s : State) : Res := s.dspBranch 0x13 c w young insnBge
def execJmp (c : Fin 108) (w : Word) (s : State) : Res := s.dsp 0x14 c w insnJmp
def execCall (c : Fin 108) (w : Word) (s : State) : Res := s.dsp 0x15 c w insnCall
def execJr (c : Fin 108) (w : Word) (young : Nat) (s : State) : Res := s.dspBranch 0x16 c w young insnJr
def execLoop (c : Fin 108) (w : Word) (s : State) : Res := s.dsp 0x17 c w insnLoop
def execLoopi (c : Fin 108) (w : Word) (s : State) : Res := s.dsp 0x18 c w insnLoopi

end Sys2Proof.Machine
end

