-- ==== Sys2Proof/Machine/DspVec.lean ====
section
/-! DEFINITION. Local-memory, vector and multiply-accumulate instructions of the DSP core
(R123-R135, R138-R140, R150-R158). -/

namespace Sys2Proof.Machine

/-! ### Scalar local-memory instructions (format MS, R129, R138) -/

def fPn (w : Nat) : Nat := bitsAt w 17 4
def fMode (w : Nat) : Nat := bitsAt w 15 2
/-- Reserved fields of format MS: MODE 3; MM used only in MODE 2, OFF11 only in MODE 0 and 1 (R136). -/
def msOk (w : Nat) : Bool :=
  fMode w != 3 && (fMode w == 2 || bitsAt w 11 4 == 0) && (fMode w != 2 || bitsAt w 0 11 == 0)
/-- The address of an MS instruction (R129). -/
def msAddr (w : Nat) (k : Core) : Nat :=
  if fMode w = 0 then ofSigned 18 ((k.getP (fPn w) : Int) + toSigned 11 (bitsAt w 0 11)) else k.getP (fPn w)
/-- The pointer update of an MS instruction (R129). -/
def msUpd (w : Nat) (k : Core) : Core :=
  match fMode w with
  | 1 => k.setP (fPn w) ((k.getP (fPn w) : Int) + toSigned 11 (bitsAt w 0 11))
  | 2 => k.setP (fPn w) ((k.getP (fPn w) : Int) + k.getM (bitsAt w 11 4))
  | _ => k

/-- LDW: Sd ← sign-extended word. -/
def insnLdw (w : Nat) (k : Core) : InsnRes :=
  legalThen (msOk w) <|
    let a := msAddr w k
    k.access [(a, false)] (.done (((msUpd w k).setSI (fD w) (k.wordS a)).adv))
/-- LDC: Sd[11:0] ← real, Sd[23:12] ← imaginary, Sd[31:24] ← 0. -/
def insnLdc (w : Nat) (k : Core) : InsnRes :=
  legalThen (msOk w) <|
    let a := msAddr w k
    alignedThen a <| k.access [(a, false), (a + 1, false)]
      (.done (((msUpd w k).setSN (fD w) (k.word a + 4096 * k.word (a + 1))).adv))
/-- STW: word ← Sd[11:0]. -/
def insnStw (w : Nat) (k : Core) : InsnRes :=
  legalThen (msOk w) <|
    let a := msAddr w k
    k.access [(a, true)] (.done (((msUpd w k).setWord a ((k.getS (fD w)).toNat)).adv))
/-- STC: two words ← Sd[11:0], Sd[23:12]. -/
def insnStc (w : Nat) (k : Core) : InsnRes :=
  legalThen (msOk w) <|
    let a := msAddr w k
    let v := (k.getS (fD w)).toNat
    alignedThen a <| k.access [(a, true), (a + 1, true)]
      (.done (((msUpd w k).setWords [(a, bitsAt v 0 12), (a + 1, bitsAt v 12 12)]).adv))

/-! ### Contiguous and split vector accesses (format MV, R123, R129, R153, R154) -/

def fG (w : Nat) : Nat := bitsAt w 19 2
def mvPn (w : Nat) : Nat := bitsAt w 15 4
def mvMode (w : Nat) : Nat := bitsAt w 13 2
/-- Reserved fields of format MV (R136); MM is not shown as 0 where MODE does not use it. -/
def mvOk (w : Nat) : Bool := gOk (fG w) && mvMode w != 3 && bitsAt w 0 6 == 0
/-- Pointer update of a vector form: by the words accessed, or by Mm (R129). -/
def mvUpd (w words : Nat) (k : Core) : Core :=
  match mvMode w with
  | 1 => k.setP (mvPn w) ((k.getP (mvPn w) + words : Nat) : Int)
  | 2 => k.setP (mvPn w) ((k.getP (mvPn w) : Int) + k.getM (bitsAt w 9 4))
  | _ => k

/-- VLD: the group's elements from consecutive words; K is ignored (R136). -/
def insnVld (w : Nat) (k : Core) : InsnRes :=
  legalThen (mvOk w && grpOk (fG w) (fD w)) <|
    let n := gSize (fG w)
    let as := wordsFrom (k.getP (mvPn w)) (32 * n)
    k.access (as.map fun a => (a, false))
      (.done (((mvUpd w (32 * n) k).setGroup (fD w) n (as.map k.wordS)).adv))
/-- VST: elements whose K bit is 1 are stored; the other words are unchanged (R136). -/
def insnVst (w : Nat) (k : Core) : InsnRes :=
  legalThen (mvOk w && grpOk (fG w) (fD w)) <|
    let n := gSize (fG w)
    let km := k.getK (bitsAt w 6 3)
    let es := (upTo (32 * n)).filter fun e => bitAt km e
    let base := k.getP (mvPn w)
    let g := k.getGroup (fD w) n
    k.access (es.map fun e => ((base + e) % 2 ^ 18, true))
      (.done (((mvUpd w (32 * n) k).setWords (es.map fun e => (base + e, ofSigned 12 (el g e)))).adv))
/-- Stream `s` of a split load of `j` streams from `base`: complex sample `i` is input sample `j·i + s` (R153). -/
def splitStream (k : Core) (base j s n : Nat) : List Int :=
  (upTo (16 * n)).flatMap fun i =>
    let a := base + 2 * (j * i + s)
    [k.wordS a, k.wordS (a + 1)]
/-- VSPLj: deal the complex samples to `j` groups (R153, R154). -/
def insnVspl (j : Nat) (w : Nat) (k : Core) : InsnRes :=
  let n := gSize (fG w)
  legalThen (mvOk w && grpOk (fG w) (fD w) && decide (fD w + j * n - 1 ≤ 31)) <|
    let base := k.getP (mvPn w)
    let words := j * 32 * n
    alignedThen base <| k.access ((wordsFrom base words).map fun a => (a, false))
      (.done (((upTo j).foldl (fun k' s => k'.setGroup (fD w + s * n) n (splitStream k base j s n)) (mvUpd w words k)).adv))
def insnVspl2 (w : Nat) (k : Core) : InsnRes := insnVspl 2 w k
def insnVspl3 (w : Nat) (k : Core) : InsnRes := insnVspl 3 w k
def insnVspl4 (w : Nat) (k : Core) : InsnRes := insnVspl 4 w k

/-! ### Gathers and scatters (format GT, R155-R157) -/

def gtSize (w : Nat) : Nat := bitsAt w 8 1
def gtCount (w : Nat) : Nat := bitsAt w 3 5
def gtOk (w : Nat) : Bool := decide (gtCount w ≤ 16) && bitsAt w 0 3 == 0
/-- The active elements (R155). -/
def gtActive (w : Nat) (k : Core) : List Nat :=
  let km := k.getK (bitsAt w 9 3)
  (upTo (gtCount w)).filter fun e => bitAt km (e * (1 + gtSize w))
/-- The unwrapped address of element `e` (R155). -/
def gtAddr (w : Nat) (k : Core) (e : Nat) : Int :=
  (k.getP (bitsAt w 12 4) : Int) + el (elemsOf (k.getV (fA w))) e * (1 + gtSize w : Nat)
/-- The fault of element `e`, in the precedence ALIGN, RANGE, PROTECTION, DMA_GUARD (R156). -/
def gtFault (w : Nat) (k : Core) (write : Bool) (e : Nat) : Option InsnRes :=
  let a := gtAddr w k e
  let ws := (upTo (1 + gtSize w)).map fun i => (a.toNat + i, write)
  if gtSize w = 1 ∧ a % 2 = 1 then some (.fault 0x02 a e)
  else if a < 0 ∨ a > 0x3FFFF then some (.fault 0x03 a e)
  else match k.accessFault ws with
    | some (.fault cause _ _) => some (.fault cause a e)
    | _ => none
/-- Every active element is checked before anything is written; the lowest faulting element is named (R156). -/
def gtChecked (w : Nat) (k : Core) (write : Bool) (r : InsnRes) : InsnRes :=
  legalThen (gtOk w) <|
    match (gtActive w k).filterMap (gtFault w k write) with
    | f :: _ => f
    | [] => r
/-- VGATH (R155). -/
def insnVgath (w : Nat) (k : Core) : InsnRes :=
  gtChecked w k false <|
    let put (l : List Int) (e : Nat) : List Int :=
      let a := (gtAddr w k e).toNat
      if gtSize w = 0 then setNth l e (k.wordS a)
      else setNth (setNth l (2 * e) (k.wordS a)) (2 * e + 1) (k.wordS (a + 1))
    .done ((k.setGroup (fD w) 1 ((gtActive w k).foldl put (elemsOf (k.getV (fD w))))).adv)
/-- VSCAT: a later element's value remains where two name one word (R157). -/
def insnVscat (w : Nat) (k : Core) : InsnRes :=
  gtChecked w k true <|
    let src := elemsOf (k.getV (fD w))
    let ws (e : Nat) : List (Nat × Nat) :=
      let a := (gtAddr w k e).toNat
      if gtSize w = 0 then [(a, ofSigned 12 (el src e))]
      else [(a, ofSigned 12 (el src (2 * e))), (a + 1, ofSigned 12 (el src (2 * e + 1)))]
    .done ((k.setWords ((gtActive w k).flatMap ws)).adv)

/-! ### VOP (format VA, R139, R151) -/

/-- Low 12 bits, signed. -/
def wrap12 (x : Int) : Int := toSigned 12 (ofSigned 12 x)
/-- Saturation to −2,048 … 2,047. -/
def sat12 (x : Int) : Int := satSigned 12 x
/-- A bitwise operation on 12-bit words. -/
def bit12 (f : Nat → Nat → Nat) (a b : Int) : Int := toSigned 12 (f (ofSigned 12 a) (ofSigned 12 b))

/-- The element operation FN (R139) on element `e`: own elements `a`, `b`, the whole first source `va`, scalar Sb. -/
def vopElem (fn : Nat) (sb : Word) (va : List Int) (kbit : Bool) (e : Nat) (a b : Int) : Option Int :=
  let sh := min (sb.toNat % 16) 11
  match fn with
  | 0x00 => some a
  | 0x01 => some (wrap12 (a + b))
  | 0x02 => some (wrap12 (a - b))
  | 0x03 => some (sat12 (a + b))
  | 0x04 => some (sat12 (a - b))
  | 0x05 => some (min a b)
  | 0x06 => some (max a b)
  | 0x07 => some (sat12 (if a < 0 then -a else a))
  | 0x08 => some (bit12 (· &&& ·) a b)
  | 0x09 => some (bit12 (· ||| ·) a b)
  | 0x0A => some (bit12 (· ^^^ ·) a b)
  | 0x0B => some (wrap12 (a * (2 ^ sh : Nat)))
  | 0x0C => some (asr a sh)
  | 0x0D => some (sat12 (a * (2 ^ sh : Nat)))
  | 0x0E => some (if e % 2 = 1 then sat12 (-a) else a)
  | 0x0F => some (if e % 2 = 1 then el va (e - 1) else el va (e + 1))
  | 0x10 => some (toSigned 12 (bitsAt sb.toNat (12 * (e % 2)) 12))
  | 0x11 => some (if kbit then a else b)
  | 0x15 => some (sat12 (-a))
  | _ => none

/-- Operations whose SB field names a scalar, or names nothing: VB is then no group (R139). -/
def vopNoVB (fn : Nat) : Bool :=
  fn == 0x00 || fn == 0x07 || (decide (0x0B ≤ fn) && decide (fn ≤ 0x10)) || fn == 0x15

/-- VCMPEQ and VCMPGT write every bit of the group in K[VD mod 8]; VD mod 8 = 0 is ILLEGAL (R139). -/
def insnVcmp (gt : Bool) (w : Nat) (k : Core) : InsnRes :=
  let g := bitsAt w 9 2
  legalThen (gOk g && grpOk g (fA w) && grpOk g (fB w) && fD w % 8 != 0) <|
    let n := gSize g
    let va := k.getGroup (fA w) n
    let vb := k.getGroup (fB w) n
    let km := (upTo (32 * n)).foldl (fun m e =>
      let t := if gt then decide (el va e > el vb e) else el va e == el vb e
      putBits m e 1 (b2n t)) (k.getK (fD w % 8))
    .done ((k.setK (fD w % 8) km).adv)

/-- VOP (R139): elements whose K bit is 0 keep their value in VD, but for VSEL, where K chooses. -/
def insnVop (w : Nat) (k : Core) : InsnRes :=
  let fn := bitsAt w 0 6
  let g := bitsAt w 9 2
  let n := gSize g
  if fn = 0x12 then insnVcmp false w k
  else if fn = 0x13 then insnVcmp true w k
  else
    legalThen (decide (fn ≤ 0x11) || fn == 0x15) <|
    legalThen (gOk g && grpOk g (fD w) && (fn == 0x10 || grpOk g (fA w)) && (vopNoVB fn || grpOk g (fB w))) <|
      let va := k.getGroup (fA w) n
      let vb := k.getGroup (fB w) n
      let vd := k.getGroup (fD w) n
      let km := k.getK (bitsAt w 6 3)
      let sb := k.getS (fB w)
      let out := (upTo (32 * n)).map fun e =>
        match vopElem fn sb va (bitAt km e) e (el va e) (el vb e) with
        | some r => if fn == 0x11 || bitAt km e then r else el vd e
        | none => el vd e
      .done ((k.setGroup (fD w) n out).adv)

/-! ### The multiply-accumulate datapath (R131-R135, R140) -/

/-- One addition to an accumulator part (R132): WRAP keeps the low 40 bits, SAT clamps; the flag says the exact result
left the range. -/
def accAdd (sat : Bool) (v t : Int) : Int × Bool :=
  let x := v + t
  let out := decide (x < -(2 ^ 39 : Nat)) || decide (x > (2 ^ 39 : Nat) - 1)
  (if sat then satSigned 40 x else toSigned 40 (ofSigned 40 x), out)

/-- Add a list of optional terms, part by part; the flag says some addition left the range (R132). -/
def accAddAll (sat : Bool) : List Int → List (Option Int) → List Int × Bool
  | v :: vs, t :: ts =>
    let r := accAddAll sat vs ts
    match t with
    | none => (v :: r.1, r.2)
    | some x => let y := accAdd sat v x; (y.1 :: r.1, y.2 || r.2)
  | vs, [] => (vs, false)
  | [], _ => ([], false)

/-- Store an accumulation: values, sticky GOV, GOVCNT when GOV goes from 0 to 1 (R132). The flag says it did. -/
def Core.accDone (k : Core) (a : Nat) (l : List Int) (ovf : Bool) : Core × Bool :=
  let k' := k.setAcc a l
  if ovf && !bitAt k.gov a then
    ({ k' with gov := setBit k.gov a }.setCr 0x0E ((k.getCr 0x0E + 1) % 2 ^ 32), true)
  else (k', false)

/-- The part terms of a VMAC at lane `i` (R131). -/
def macTerm (mode : Nat) (a b c : List Int) (i : Nat) : Int × Int :=
  let ar := el a (2 * i); let ai := el a (2 * i + 1)
  let br := el b (2 * i); let bi := el b (2 * i + 1)
  match mode with
  | 0 => (ar * br - ai * bi, ar * bi + ai * br)
  | 1 => (ar * br + ai * bi, ai * br - ar * bi)
  | 2 => (ar * br + ai * bi, ar * el c (2 * i) + ai * el c (2 * i + 1))
  | _ => (ar * br, ai * bi)

/-- The terms of all lanes of a group under mask and SUB (R131). -/
def macTerms (mode n : Nat) (sub : Bool) (km : Nat) (a b c : List Int) : List (Option Int) :=
  (upTo (16 * n)).flatMap fun i =>
    let t := macTerm mode a b c i
    let sg (x : Int) : Int := if sub then -x else x
    let reOn := bitAt km (2 * i)
    let imOn := if mode ≤ 1 then bitAt km (2 * i) else bitAt km (2 * i + 1)
    [if reOn then some (sg t.1) else none, if imOn then some (sg t.2) else none]

/-- The common part of VMAC and VMACS: CLR first, then the terms (R131). -/
def macRun (w : Nat) (k : Core) (b c : List Int) : Core × Bool :=
  let ac := bitsAt w 23 3
  let n := gSize (bitsAt w 11 2)
  let clr := bitAt w 5
  let k0 := if clr then { k.setAcc ac accZero with gov := clrBit k.gov ac, esat := clrBit k.esat ac } else k
  let r := accAddAll (bitAt k.satMode ac) (k0.getAcc ac)
    (macTerms (bitsAt w 6 2) n (bitAt w 4) (k.getK (bitsAt w 8 3)) (k.getGroup (bitsAt w 18 5) n) b c)
  k0.accDone ac r.1 r.2

/-- Format VX checks (R136, R137). -/
def vxOk (w : Nat) : Bool := gOk (bitsAt w 11 2) && grpOk (bitsAt w 11 2) (bitsAt w 18 5) && bitsAt w 0 4 == 0

/-- A GOV flag newly set with GOV_TRAP = 1 and no handler running traps after the instruction (R133). -/
def govTrap (k : Core) (newGov : Bool) : Bool := newGov && bitAt (k.getCr 0x06) 0 && !k.inHandler

/-- VMAC (R131): QUAD's third operand beyond V31 is ILLEGAL (R137). -/
def insnVmac (w : Nat) (k : Core) : MacRes :=
  let g := bitsAt w 11 2
  let n := gSize g
  let vb := bitsAt w 13 5
  let quad := bitsAt w 6 2 == 2
  if vxOk w && grpOk g vb && (!quad || decide (vb + 2 * n - 1 ≤ 31)) then
    let r := macRun w k (k.getGroup vb n) (if quad then k.getGroup (vb + n) n else [])
    .done r.1.adv (govTrap k r.2)
  else .fault illegal
/-- VMACS: b is the complex scalar Sb for every lane; QUAD is ILLEGAL (R131). -/
def insnVmacs (w : Nat) (k : Core) : MacRes :=
  let n := gSize (bitsAt w 11 2)
  let sb := (k.getS (bitsAt w 13 5)).toNat
  if vxOk w && bitsAt w 6 2 != 2 then
    let pair := [toSigned 12 (bitsAt sb 0 12), toSigned 12 (bitsAt sb 12 12)]
    let r := macRun w k ((upTo (16 * n)).flatMap fun _ => pair) []
    .done r.1.adv (govTrap k r.2)
  else .fault illegal
/-- FTAP (R140): taps with the delay line as it was, then shifts the sample in, then moves both pointers. -/
def insnFtap (w : Nat) (k : Core) : MacRes :=
  let g := bitsAt w 16 2
  let n := gSize g
  let ac := bitsAt w 23 3
  let vg := bitsAt w 18 5
  let pcI := bitsAt w 12 4; let pxI := bitsAt w 4 4
  let pc := k.getP pcI; let px := k.getP pxI
  if !(gOk g && grpOk g vg) then .fault illegal
  else if pc % 2 = 1 then .fault (.fault 0x02 (pc : Nat) 0xFF)
  else if px % 2 = 1 then .fault (.fault 0x02 (px : Nat) 0xFF)
  else match k.accessFault [(pc, false), (pc + 1, false), (px, false), (px + 1, false)] with
  | some f => .fault f
  | none =>
    let line := k.getGroup vg n
    let h := [k.wordS pc, k.wordS (pc + 1)]
    let r := accAddAll (bitAt k.satMode ac) (k.getAcc ac)
      (macTerms 0 n false (2 ^ 128 - 1) line ((upTo (16 * n)).flatMap fun _ => h) [])
    let q := k.accDone ac r.1 r.2
    let shifted := (k.wordS px :: k.wordS (px + 1) :: line).take (32 * n)
    let k1 := q.1.setGroup vg n shifted
    let k2 := k1.setP pcI ((pc : Int) + k.getM (bitsAt w 8 4))
    let k3 := k2.setP pxI ((if pcI = pxI then (k2.getP pxI : Int) else (px : Int)) + k.getM (bitsAt w 0 4))
    .done k3.adv (govTrap k q.2)

/-- Arithmetic right shift with R134's rounding: RND 0 to nearest, ties to even; RND 1 toward minus infinity. -/
def vextRound (v : Int) (s : Nat) (trunc : Bool) : Int :=
  let q := asr v s
  let r := v - q * (2 ^ s : Nat)
  if s = 0 || trunc then q
  else if 2 * r > (2 ^ s : Nat) || (2 * r == (2 ^ s : Nat) && q % 2 != 0) then q + 1 else q

/-- VEXT (R134). -/
def insnVext (w : Nat) (k : Core) : InsnRes :=
  let g := bitsAt w 16 2
  let n := gSize g
  let ac := bitsAt w 18 3
  let shs := bitAt w 8
  legalThen (gOk g && grpOk g (fD w) && bitsAt w 5 2 == 0 && (shs || decide (bitsAt w 10 6 ≤ 39))) <|
    let s := if shs then min ((k.getS (bitsAt w 0 5)).toNat % 64) 39 else bitsAt w 10 6
    let xs := ((k.getAcc ac).take (32 * n)).map fun v => vextRound v s (bitAt w 9)
    let sat := xs.any fun x => sat12 x != x
    let k1 := k.setGroup (fD w) n (xs.map sat12)
    let k2 := if sat then { k1 with esat := setBit k.esat ac }.setCr 0x0F ((k.getCr 0x0F + 1) % 2 ^ 32) else k1
    let k3 := if bitAt w 7 then { k2.setAcc ac accZero with gov := clrBit k2.gov ac, esat := clrBit k2.esat ac } else k2
    .done k3.adv

/-- Format AO checks (R136): FN of the row, [14:5] 0. -/
def aoOk (w fn : Nat) : Bool := bitsAt w 5 10 == 0 && bitsAt w 0 4 == fn
/-- ACCLR: the accumulator and its flags to 0 (R138). -/
def insnAcclr (w : Nat) (k : Core) : InsnRes :=
  legalThen (aoOk w 0) <|
    let a := bitsAt w 23 3
    .done ({ k.setAcc a accZero with gov := clrBit k.gov a, esat := clrBit k.esat a }.adv)
/-- ACMODE: WRAP or SAT; value and flags stay (R132). -/
def insnAcmode (w : Nat) (k : Core) : InsnRes :=
  legalThen (aoOk w 1) <|
    .done ({ k with satMode := putBits k.satMode (bitsAt w 23 3) 1 (bitsAt w 4 1) }.adv)
/-- ACMOV: values and flags, not mode (R138). A copied GOV that takes the flag from 0 to 1 counts and may trap (R132, R133). -/
def insnAcmov (w : Nat) (k : Core) : MacRes :=
  if aoOk w 2 then
    let d := bitsAt w 23 3; let a := bitsAt w 20 3
    let newGov := bitAt k.gov a && !bitAt k.gov d
    let k1 := { k.setAcc d (k.getAcc a) with gov := putBits k.gov d 1 (b2n (bitAt k.gov a)),
                                             esat := putBits k.esat d 1 (b2n (bitAt k.esat a)) }
    let k2 := if newGov then k1.setCr 0x0E ((k.getCr 0x0E + 1) % 2 ^ 32) else k1
    .done k2.adv (govTrap k newGov)
  else .fault illegal

/-- Redundant sign bits of `v` in `n` bits. -/
def redundant (n : Nat) (v : Int) : Nat :=
  let x := ofSigned n v
  (if v < 0 then leadingZeros n (2 ^ n - 1 - x) else leadingZeros n x) - 1
/-- The smallest measure over a list, at most `n - 1` (R135). -/
def minRedundant (n : Nat) (l : List Int) : Nat := l.foldl (fun m v => min m (redundant n v)) (n - 1)
/-- ACEXP: over all 128 parts, 0-39 (R135). -/
def insnAcexp (w : Nat) (k : Core) : InsnRes :=
  legalThen (aoOk w 3) <|
    .done ((k.setSN (bitsAt w 15 5) (minRedundant 40 (k.getAcc (bitsAt w 20 3)))).adv)
/-- NORM: over the elements of a group, 0-11 (R135). -/
def insnNorm (w : Nat) (k : Core) : InsnRes :=
  let g := bitsAt w 14 2
  legalThen (gOk g && grpOk g (fA w) && bitsAt w 0 14 == 0) <|
    .done ((k.setSN (fD w) (minRedundant 12 (k.getGroup (fA w) (gSize g)))).adv)

/-! ### The rows -/

def execLdw (c : Fin 108) (w : Word) (s : State) : Res := s.dsp 0x1A c w insnLdw
def execLdc (c : Fin 108) (w : Word) (s : State) : Res := s.dsp 0x1B c w insnLdc
def execStw (c : Fin 108) (w : Word) (s : State) : Res := s.dsp 0x1C c w insnStw
def execStc (c : Fin 108) (w : Word) (s : State) : Res := s.dsp 0x1D c w insnStc
def execVld (c : Fin 108) (w : Word) (s : State) : Res := s.dsp 0x20 c w insnVld
def execVst (c : Fin 108) (w : Word) (s : State) : Res := s.dsp 0x21 c w insnVst
def execVspl2 (c : Fin 108) (w : Word) (s : State) : Res := s.dsp 0x22 c w insnVspl2
def execVspl3 (c : Fin 108) (w : Word) (s : State) : Res := s.dsp 0x23 c w insnVspl3
def execVspl4 (c : Fin 108) (w : Word) (s : State) : Res := s.dsp 0x24 c w insnVspl4
def execVgath (c : Fin 108) (w : Word) (s : State) : Res := s.dsp 0x25 c w insnVgath
def execVscat (c : Fin 108) (w : Word) (s : State) : Res := s.dsp 0x26 c w insnVscat
def execVop (c : Fin 108) (w : Word) (s : State) : Res := s.dsp 0x28 c w insnVop
def execVmac (c : Fin 108) (w : Word) (s : State) : Res := s.dspMac 0x29 c w insnVmac
def execVmacs (c : Fin 108) (w : Word) (s : State) : Res := s.dspMac 0x2A c w insnVmacs
def execFtap (c : Fin 108) (w : Word) (s : State) : Res := s.dspMac 0x2B c w insnFtap
def execVext (c : Fin 108) (w : Word) (s : State) : Res := s.dsp 0x2C c w insnVext
def execAcclr (c : Fin 108) (w : Word) (s : State) : Res := s.dspAc 0 c w insnAcclr
def execAcmode (c : Fin 108) (w : Word) (s : State) : Res := s.dspAc 1 c w insnAcmode
def execAcmov (c : Fin 108) (w : Word) (s : State) : Res := s.dspMacAc 2 c w insnAcmov
def execAcexp (c : Fin 108) (w : Word) (s : State) : Res := s.dspAc 3 c w insnAcexp
def execNorm (c : Fin 108) (w : Word) (s : State) : Res := s.dsp 0x2E c w insnNorm

end Sys2Proof.Machine
end

