-- ==== Sys2Proof/Machine/Dispatch.lean ====
section
/-! DEFINITION. One arm per constructor of Instr, each a direct call of its meaning. -/

namespace Sys2Proof.Machine

def exec (i : Instr) (s : State) : Host.Outcome State Fault Refusal :=
  match i with
  | .boundaryEvent => Sys2Proof.Machine.execBoundaryEvent s
  | .podRelease p n => Sys2Proof.Machine.execPodRelease p n s
  | .timelineEnableWrite init n value => Sys2Proof.Machine.execTimelineEnableWrite init n value s
  | .timelineDisableWrite init n value => Sys2Proof.Machine.execTimelineDisableWrite init n value s
  | .hungCoreDeclare c => Sys2Proof.Machine.execHungCoreDeclare c s
  | .hungCoreRecovery c passed => Sys2Proof.Machine.execHungCoreRecovery c passed s
  | .sqDoorbell init pair value => Sys2Proof.Machine.execSqDoorbell init pair value s
  | .cqHeadDoorbell init pair value => Sys2Proof.Machine.execCqHeadDoorbell init pair value s
  | .commandFetch q entry => Sys2Proof.Machine.execCommandFetch q entry s
  | .queueEnable init pair value => Sys2Proof.Machine.execQueueEnable init pair value s
  | .queueDisable init pair value => Sys2Proof.Machine.execQueueDisable init pair value s
  | .msixCoalTimer pair => Sys2Proof.Machine.execMsixCoalTimer pair s
  | .eventBacklogPost => Sys2Proof.Machine.execEventBacklogPost s
  | .upCompletionRelease m => Sys2Proof.Machine.execUpCompletionRelease m s
  | .pcieReset => Sys2Proof.Machine.execPcieReset s
  | .deviceInfo c => Sys2Proof.Machine.execDeviceInfo c s
  | .deviceRestart c => Sys2Proof.Machine.execDeviceRestart c s
  | .healthRead c => Sys2Proof.Machine.execHealthRead c s
  | .upqBind c => Sys2Proof.Machine.execUpqBind c s
  | .eventMask c => Sys2Proof.Machine.execEventMask c s
  | .echo c => Sys2Proof.Machine.execEcho c s
  | .carrierAdd c => Sys2Proof.Machine.execCarrierAdd c s
  | .carrierModify c => Sys2Proof.Machine.execCarrierModify c s
  | .carrierRemove c => Sys2Proof.Machine.execCarrierRemove c s
  | .carrierStatus c => Sys2Proof.Machine.execCarrierStatus c s
  | .nbChannelAdd c => Sys2Proof.Machine.execNbChannelAdd c s
  | .nbChannelRemove c => Sys2Proof.Machine.execNbChannelRemove c s
  | .planPost c recs => Sys2Proof.Machine.execPlanPost c recs s
  | .planCancel c => Sys2Proof.Machine.execPlanCancel c s
  | .weightsLoad c data => Sys2Proof.Machine.execWeightsLoad c data s
  | .weightsFree c => Sys2Proof.Machine.execWeightsFree c s
  | .graphBuild n air graphs => Sys2Proof.Machine.execGraphBuild n air graphs s
  | .calRun c => Sys2Proof.Machine.execCalRun c s
  | .calStatisticDone kind target linkDown fig stat => Sys2Proof.Machine.execCalStatisticDone kind target linkDown fig stat s
  | .calTimeLimit kind target => Sys2Proof.Machine.execCalTimeLimit kind target s
  | .calVerifyDone kind target measured => Sys2Proof.Machine.execCalVerifyDone kind target measured s
  | .alignExcitation elt => Sys2Proof.Machine.execAlignExcitation elt s
  | .calStatus c => Sys2Proof.Machine.execCalStatus c s
  | .calAuto c => Sys2Proof.Machine.execCalAuto c s
  | .calAutoRun kind => Sys2Proof.Machine.execCalAutoRun kind s
  | .dpdBankSelect c => Sys2Proof.Machine.execDpdBankSelect c s
  | .timeGet c => Sys2Proof.Machine.execTimeGet c s
  | .timeSource c => Sys2Proof.Machine.execTimeSource c s
  | .timeStep c => Sys2Proof.Machine.execTimeStep c s
  | .timelineSet c => Sys2Proof.Machine.execTimelineSet c s
  | .timelineEnable c => Sys2Proof.Machine.execTimelineEnable c s
  | .synceSet c => Sys2Proof.Machine.execSynceSet c s
  | .powerSet c => Sys2Proof.Machine.execPowerSet c s
  | .powerStatus c => Sys2Proof.Machine.execPowerStatus c s
  | .park c wake => Sys2Proof.Machine.execPark c wake s
  | .parkWake src => Sys2Proof.Machine.execParkWake src s
  | .thermalStatus c => Sys2Proof.Machine.execThermalStatus c s
  | .powerCap c => Sys2Proof.Machine.execPowerCap c s
  | .twinAttach c => Sys2Proof.Machine.execTwinAttach c s
  | .twinAttachComplete same partnerTl partnerActive partnerId regs wins cars cmds => Sys2Proof.Machine.execTwinAttachComplete same partnerTl partnerActive partnerId regs wins cars cmds s
  | .twinDetach c => Sys2Proof.Machine.execTwinDetach c s
  | .twinStatus c => Sys2Proof.Machine.execTwinStatus c s
  | .twinSwap c => Sys2Proof.Machine.execTwinSwap c s
  | .recConfig c => Sys2Proof.Machine.execRecConfig c s
  | .recStart c => Sys2Proof.Machine.execRecStart c s
  | .recTrigger c => Sys2Proof.Machine.execRecTrigger c s
  | .recStatus c => Sys2Proof.Machine.execRecStatus c s
  | .recFreeze => Sys2Proof.Machine.execRecFreeze s
  | .recReplay c => Sys2Proof.Machine.execRecReplay c s
  | .replayPeriodRelease graphs order => Sys2Proof.Machine.execReplayPeriodRelease graphs order s
  | .replayComplete results digests => Sys2Proof.Machine.execReplayComplete results digests s
  | .bar4Write off data => Sys2Proof.Machine.execBar4Write off data s
  | .fwStage c image => Sys2Proof.Machine.execFwStage c image s
  | .fwStageComplete => Sys2Proof.Machine.execFwStageComplete s
  | .fwSwitch c => Sys2Proof.Machine.execFwSwitch c s
  | .podDrain c => Sys2Proof.Machine.execPodDrain c s
  | .podDrainComplete p => Sys2Proof.Machine.execPodDrainComplete p s
  | .podLoad c image => Sys2Proof.Machine.execPodLoad c image s
  | .podLoadComplete p => Sys2Proof.Machine.execPodLoadComplete p s
  | .podReturn c => Sys2Proof.Machine.execPodReturn c s
  | .coreSpare c => Sys2Proof.Machine.execCoreSpare c s
  | .laneLoopback c => Sys2Proof.Machine.execLaneLoopback c s
  | .lanePattern c => Sys2Proof.Machine.execLanePattern c s
  | .eyeScan c => Sys2Proof.Machine.execEyeScan c s
  | .eyeScanComplete lane pts => Sys2Proof.Machine.execEyeScanComplete lane pts s
  | .ledgerSnapshot c => Sys2Proof.Machine.execLedgerSnapshot c s
  | .statsRead c => Sys2Proof.Machine.execStatsRead c s
  | .txnOpen c => Sys2Proof.Machine.execTxnOpen c s
  | .txnAdd c data => Sys2Proof.Machine.execTxnAdd c data s
  | .txnArm c => Sys2Proof.Machine.execTxnArm c s
  | .txnCancel c => Sys2Proof.Machine.execTxnCancel c s
  | .txnReport c => Sys2Proof.Machine.execTxnReport c s
  | .dlTb m entry data dst => Sys2Proof.Machine.execDlTb m entry data dst s
  | .ulBuf m entry => Sys2Proof.Machine.execUlBuf m entry s
  | .nbTx m entry data => Sys2Proof.Machine.execNbTx m entry data s
  | .ulTbResult n air alloc crcOk iters cbs fails data => Sys2Proof.Machine.execUlTbResult n air alloc crcOk iters cbs fails data s
  | .hostDataLanded => Sys2Proof.Machine.execHostDataLanded s
  | .handout => Sys2Proof.Machine.execHandout s
  | .graceExpiry slot => Sys2Proof.Machine.execGraceExpiry slot s
  | .flowAffinityReset flow => Sys2Proof.Machine.execFlowAffinityReset flow s
  | .wdsEnableWrite init value => Sys2Proof.Machine.execWdsEnableWrite init value s
  | .podModeWrite init p value => Sys2Proof.Machine.execPodModeWrite init p value s
  | .coreMaskWrite init p value hw => Sys2Proof.Machine.execCoreMaskWrite init p value hw s
  | .sop c w => Sys2Proof.Machine.execSop c w s
  | .addi c w => Sys2Proof.Machine.execAddi c w s
  | .andi c w => Sys2Proof.Machine.execAndi c w s
  | .ori c w => Sys2Proof.Machine.execOri c w s
  | .xori c w => Sys2Proof.Machine.execXori c w s
  | .lui c w => Sys2Proof.Machine.execLui c w s
  | .slti c w => Sys2Proof.Machine.execSlti c w s
  | .paddi c w => Sys2Proof.Machine.execPaddi c w s
  | .pmov c w => Sys2Proof.Machine.execPmov c w s
  | .pget c w => Sys2Proof.Machine.execPget c w s
  | .mset c w => Sys2Proof.Machine.execMset c w s
  | .mseti c w => Sys2Proof.Machine.execMseti c w s
  | .beq c w young => Sys2Proof.Machine.execBeq c w young s
  | .bne c w young => Sys2Proof.Machine.execBne c w young s
  | .blt c w young => Sys2Proof.Machine.execBlt c w young s
  | .bge c w young => Sys2Proof.Machine.execBge c w young s
  | .jmp c w => Sys2Proof.Machine.execJmp c w s
  | .call c w => Sys2Proof.Machine.execCall c w s
  | .jr c w young => Sys2Proof.Machine.execJr c w young s
  | .loop c w => Sys2Proof.Machine.execLoop c w s
  | .loopi c w => Sys2Proof.Machine.execLoopi c w s
  | .rfe c w => Sys2Proof.Machine.execRfe c w s
  | .ldw c w => Sys2Proof.Machine.execLdw c w s
  | .ldc c w => Sys2Proof.Machine.execLdc c w s
  | .stw c w => Sys2Proof.Machine.execStw c w s
  | .stc c w => Sys2Proof.Machine.execStc c w s
  | .ldf c w => Sys2Proof.Machine.execLdf c w s
  | .stf c w => Sys2Proof.Machine.execStf c w s
  | .vld c w => Sys2Proof.Machine.execVld c w s
  | .vst c w => Sys2Proof.Machine.execVst c w s
  | .vspl2 c w => Sys2Proof.Machine.execVspl2 c w s
  | .vspl3 c w => Sys2Proof.Machine.execVspl3 c w s
  | .vspl4 c w => Sys2Proof.Machine.execVspl4 c w s
  | .vgath c w => Sys2Proof.Machine.execVgath c w s
  | .vscat c w => Sys2Proof.Machine.execVscat c w s
  | .vop c w => Sys2Proof.Machine.execVop c w s
  | .vmac c w => Sys2Proof.Machine.execVmac c w s
  | .vmacs c w => Sys2Proof.Machine.execVmacs c w s
  | .ftap c w => Sys2Proof.Machine.execFtap c w s
  | .vext c w => Sys2Proof.Machine.execVext c w s
  | .acclr c w => Sys2Proof.Machine.execAcclr c w s
  | .acmode c w => Sys2Proof.Machine.execAcmode c w s
  | .acmov c w => Sys2Proof.Machine.execAcmov c w s
  | .acexp c w => Sys2Proof.Machine.execAcexp c w s
  | .norm c w => Sys2Proof.Machine.execNorm c w s
  | .dma c w => Sys2Proof.Machine.execDma c w s
  | .dmaComplete c ticket => Sys2Proof.Machine.execDmaComplete c ticket s
  | .dmawait c w => Sys2Proof.Machine.execDmawait c w s
  | .waitjob c w => Sys2Proof.Machine.execWaitjob c w s
  | .jobchk c w => Sys2Proof.Machine.execJobchk c w s
  | .jobdone c w => Sys2Proof.Machine.execJobdone c w s
  | .wait c w => Sys2Proof.Machine.execWait c w s
  | .coreWake cause => Sys2Proof.Machine.execCoreWake cause s
  | .mfc c w => Sys2Proof.Machine.execMfc c w s
  | .mtc c w => Sys2Proof.Machine.execMtc c w s
  | .mbar c w => Sys2Proof.Machine.execMbar c w s
  | .cpxDec c w ahead => Sys2Proof.Machine.execCpxDec c w ahead s
  | .cpxXfm c w ahead => Sys2Proof.Machine.execCpxXfm c w ahead s
  | .cpxMat c w ahead => Sys2Proof.Machine.execCpxMat c w ahead s
  | .bkpt c w => Sys2Proof.Machine.execBkpt c w s
  | .coreRunWrite init c value => Sys2Proof.Machine.execCoreRunWrite init c value s
  | .coreReset init c value => Sys2Proof.Machine.execCoreReset init c value s
  | .coreDoorbell init c value => Sys2Proof.Machine.execCoreDoorbell init c value s
  | .ldpcDec p seq descErr => Sys2Proof.Machine.execLdpcDec p seq descErr s
  | .turboDec p seq descErr => Sys2Proof.Machine.execTurboDec p seq descErr s
  | .polarDec p seq descErr => Sys2Proof.Machine.execPolarDec p seq descErr s
  | .convDec p seq descErr => Sys2Proof.Machine.execConvDec p seq descErr s
  | .ldpcEnc p seq descErr => Sys2Proof.Machine.execLdpcEnc p seq descErr s
  | .turboEnc p seq descErr => Sys2Proof.Machine.execTurboEnc p seq descErr s
  | .polarEnc p seq descErr => Sys2Proof.Machine.execPolarEnc p seq descErr s
  | .convEnc p seq descErr => Sys2Proof.Machine.execConvEnc p seq descErr s
  | .dft p seq descErr => Sys2Proof.Machine.execDft p seq descErr s
  | .idft p seq descErr => Sys2Proof.Machine.execIdft p seq descErr s
  | .mmse p seq descErr => Sys2Proof.Machine.execMmse p seq descErr s
  | .chol p seq descErr => Sys2Proof.Machine.execChol p seq descErr s
  | .qr p seq descErr => Sys2Proof.Machine.execQr p seq descErr s
  | .cpxRecordWrite p seq lost => Sys2Proof.Machine.execCpxRecordWrite p seq lost s
  | .cpxCtlWrite init p value => Sys2Proof.Machine.execCpxCtlWrite init p value s
  | .harqSlotAlloc init p value proc => Sys2Proof.Machine.execHarqSlotAlloc init p value proc s
  | .harqSlotFree init p value => Sys2Proof.Machine.execHarqSlotFree init p value s
  | .txSymbolFetch c l air tl central off => Sys2Proof.Machine.execTxSymbolFetch c l air tl central off s
  | .rxSymbolComplete c l air slot inputs => Sys2Proof.Machine.execRxSymbolComplete c l air slot inputs s
  | .prachOccasion x => Sys2Proof.Machine.execPrachOccasion x s
  | .prachDone x inputs => Sys2Proof.Machine.execPrachDone x inputs s
  | .orxCapture chain start len dst => Sys2Proof.Machine.execOrxCapture chain start len dst s
  | .orxCaptureDone k seen => Sys2Proof.Machine.execOrxCaptureDone k seen s
  | .rfLineEdge l ns => Sys2Proof.Machine.execRfLineEdge l ns s
  | .gevAction e => Sys2Proof.Machine.execGevAction e s
  | .dpdArm init t value => Sys2Proof.Machine.execDpdArm init t value s
  | .dfeCarrierEnable init c value => Sys2Proof.Machine.execDfeCarrierEnable init c value s
  | .feTimeCheck seen => Sys2Proof.Machine.execFeTimeCheck seen s
  | .jesdEnable init u value => Sys2Proof.Machine.execJesdEnable init u value s
  | .sysrefEdge ticks => Sys2Proof.Machine.execSysrefEdge ticks s
  | .jesdLinkUp u link => Sys2Proof.Machine.execJesdLinkUp u link s
  | .jesdLinkDown u lane shErr crcErr => Sys2Proof.Machine.execJesdLinkDown u lane shErr crcErr s
  | .laneRemap u => Sys2Proof.Machine.execLaneRemap u s
  | .nbSymbolEnd n ins gains prim shad mag gain ferr quarter level => Sys2Proof.Machine.execNbSymbolEnd n ins gains prim shad mag gain ferr quarter level s
  | .nbFloorUpdate n p => Sys2Proof.Machine.execNbFloorUpdate n p s
  | .nbRxReport => Sys2Proof.Machine.execNbRxReport s
  | .nbTxStart n => Sys2Proof.Machine.execNbTxStart n s
  | .nbTxDone n tag => Sys2Proof.Machine.execNbTxDone n tag s
  | .gsmBurstRx n tsc pick level ferr up seen => Sys2Proof.Machine.execGsmBurstRx n tsc pick level ferr up seen s
  | .nbChannelCtlWrite init n value => Sys2Proof.Machine.execNbChannelCtlWrite init n value s
  | .ringInject control src dst cls type txid addr tag len data => Sys2Proof.Machine.execRingInject control src dst cls type txid addr tag len data s
  | .ringStarvation st => Sys2Proof.Machine.execRingStarvation st s
  | .ringPacketAccept ring src dst cls arrival latency => Sys2Proof.Machine.execRingPacketAccept ring src dst cls arrival latency s
  | .hopReplay st ring ccw hit => Sys2Proof.Machine.execHopReplay st ring ccw hit s
  | .ringRetry ring src dst cls => Sys2Proof.Machine.execRingRetry ring src dst cls s
  | .ringBounce st => Sys2Proof.Machine.execRingBounce st s
  | .epochFlip init value => Sys2Proof.Machine.execEpochFlip init value s
  | .epochDrained => Sys2Proof.Machine.execEpochDrained s
  | .stopDrained st => Sys2Proof.Machine.execStopDrained st s
  | .stopBypass init st value => Sys2Proof.Machine.execStopBypass init st value s
  | .stopBypassed st => Sys2Proof.Machine.execStopBypassed st s
  | .stopRejoin init st value => Sys2Proof.Machine.execStopRejoin init st value s
  | .ringStatsSample => Sys2Proof.Machine.execRingStatsSample s
  | .cbfBufferAlloc count bind => Sys2Proof.Machine.execCbfBufferAlloc count bind s
  | .cbfBufferFree first => Sys2Proof.Machine.execCbfBufferFree first s
  | .scrubRead addr err => Sys2Proof.Machine.execScrubRead addr err s
  | .ddrHot k => Sys2Proof.Machine.execDdrHot k s
  | .memEnableWrite init value => Sys2Proof.Machine.execMemEnableWrite init value s
  | .laneLost lane => Sys2Proof.Machine.execLaneLost lane s
  | .laneRestored lane => Sys2Proof.Machine.execLaneRestored lane s
  | .crxLock lane => Sys2Proof.Machine.execCrxLock lane s
  | .ethLinkBringup k step => Sys2Proof.Machine.execEthLinkBringup k step s
  | .ethTrainRequest lane tap up => Sys2Proof.Machine.execEthTrainRequest lane tap up s
  | .twinLinkTrain partner => Sys2Proof.Machine.execTwinLinkTrain partner s
  | .twinLinkFallback => Sys2Proof.Machine.execTwinLinkFallback s
  | .pcieLinkTrain gen w flit reversed ended => Sys2Proof.Machine.execPcieLinkTrain gen w flit reversed ended s
  | .pcieEqPresetRequest lane gen preset => Sys2Proof.Machine.execPcieEqPresetRequest lane gen preset s
  | .errorInject lane => Sys2Proof.Machine.execErrorInject lane s
  | .spcBankArm init lane value => Sys2Proof.Machine.execSpcBankArm init lane value s
  | .calBankArm init aln tgt value => Sys2Proof.Machine.execCalBankArm init aln tgt value s
  | .ethFrameRx k frame fcs plain slot => Sys2Proof.Machine.execEthFrameRx k frame fcs plain slot s
  | .ulWindowClose c air l slot => Sys2Proof.Machine.execUlWindowClose c air l slot s
  | .dlSymbolFetch c air l slot late => Sys2Proof.Machine.execDlSymbolFetch c air l slot late s
  | .msgTxTailWrite init p q value => Sys2Proof.Machine.execMsgTxTailWrite init p q value s
  | .msgTxLaunch p q late => Sys2Proof.Machine.execMsgTxLaunch p q late s
  | .tsqPop init p value => Sys2Proof.Machine.execTsqPop init p value s
  | .macsecSakInstall k tx sci an slot => Sys2Proof.Machine.execMacsecSakInstall k tx sci an slot s
  | .ethCarrierEnable init c value => Sys2Proof.Machine.execEthCarrierEnable init c value s
  | .tmuIncArm init value => Sys2Proof.Machine.execTmuIncArm init value s
  | .tmuStepApply init value => Sys2Proof.Machine.execTmuStepApply init value s
  | .tmuSnap init value => Sys2Proof.Machine.execTmuSnap init value s
  | .ptpServoUpdate behind => Sys2Proof.Machine.execPtpServoUpdate behind s
  | .qualityChange why => Sys2Proof.Machine.execQualityChange why s
  | .ppsInEdge => Sys2Proof.Machine.execPpsInEdge s
  | .todRxMessage format secs => Sys2Proof.Machine.execTodRxMessage format secs s
  | .ppsOutEdge => Sys2Proof.Machine.execPpsOutEdge s
  | .todTxSend => Sys2Proof.Machine.execTodTxSend s
  | .refLoss k => Sys2Proof.Machine.execRefLoss k s
  | .refReturn k => Sys2Proof.Machine.execRefReturn k s
  | .por supply => Sys2Proof.Machine.execPor supply s
  | .coldReset => Sys2Proof.Machine.execColdReset s
  | .warmReset => Sys2Proof.Machine.execWarmReset s
  | .tapReset => Sys2Proof.Machine.execTapReset s
  | .domainEntry => Sys2Proof.Machine.execDomainEntry s
  | .ringDrainTimeout st => Sys2Proof.Machine.execRingDrainTimeout st s
  | .domainSwitchOn => Sys2Proof.Machine.execDomainSwitchOn s
  | .domainOnDone dom => Sys2Proof.Machine.execDomainOnDone dom s
  | .thermalSample raw => Sys2Proof.Machine.execThermalSample raw s
  | .thermalRestart secs => Sys2Proof.Machine.execThermalRestart secs s
  | .throttleStep => Sys2Proof.Machine.execThrottleStep s
  | .powerTelemetryPoll rails => Sys2Proof.Machine.execPowerTelemetryPoll rails s
  | .avsLoop slack => Sys2Proof.Machine.execAvsLoop slack s
  | .lifetimeSecond => Sys2Proof.Machine.execLifetimeSecond s
  | .lifetimeSave => Sys2Proof.Machine.execLifetimeSave s
  | .supplyDeviation rail level => Sys2Proof.Machine.execSupplyDeviation rail level s
  | .boot parity => Sys2Proof.Machine.execBoot parity s
  | .recoveryGo init value bar2 => Sys2Proof.Machine.execRecoveryGo init value bar2 s
  | .securityAlarm fired => Sys2Proof.Machine.execSecurityAlarm fired s
  | .fuseResense bad => Sys2Proof.Machine.execFuseResense bad s
  | .integrityCheck differs => Sys2Proof.Machine.execIntegrityCheck differs s
  | .svnRaise => Sys2Proof.Machine.execSvnRaise s
  | .fuseProg slot value => Sys2Proof.Machine.execFuseProg slot value s
  | .secChallenge level => Sys2Proof.Machine.execSecChallenge level s
  | .secResponse key sig holds fired => Sys2Proof.Machine.execSecResponse key sig holds fired s
  | .debugLockoutExpiry => Sys2Proof.Machine.execDebugLockoutExpiry s
  | .guardUnlock init value => Sys2Proof.Machine.execGuardUnlock init value s
  | .ledgerSnapStrobe init value => Sys2Proof.Machine.execLedgerSnapStrobe init value s
  | .registerWrite init off size value hw => Sys2Proof.Machine.execRegisterWrite init off size value hw s
  | .regbusTimeout init off write taken => Sys2Proof.Machine.execRegbusTimeout init off write taken s
  | .twinHeartbeatSend sent heard => Sys2Proof.Machine.execTwinHeartbeatSend sent heard s
  | .twinHeartbeatMiss roleIn => Sys2Proof.Machine.execTwinHeartbeatMiss roleIn s
  | .twinTakeover => Sys2Proof.Machine.execTwinTakeover s
  | .twinLinkLostTimeout => Sys2Proof.Machine.execTwinLinkLostTimeout s
  | .twinMirrorAck q entry => Sys2Proof.Machine.execTwinMirrorAck q entry s
  | .twinOutcome q tag status res => Sys2Proof.Machine.execTwinOutcome q tag status res s
  | .twinSlotCopy p slot bside half header => Sys2Proof.Machine.execTwinSlotCopy p slot bside half header s
  | .sealPoint => Sys2Proof.Machine.execSealPoint s
  | .twinAttachTimeout => Sys2Proof.Machine.execTwinAttachTimeout s
  | .ledgerSnapshotPacked => Sys2Proof.Machine.execLedgerSnapshotPacked s
  | .checkerLock lane => Sys2Proof.Machine.execCheckerLock lane s
  | .checkerLockLost lane errs mbits => Sys2Proof.Machine.execCheckerLockLost lane errs mbits s
  | .ddrHotClear k => Sys2Proof.Machine.execDdrHotClear k s

end Sys2Proof.Machine
end

