-- ==== Sys2Proof/Machine/Step.lean ====
section
/-! DEFINITION. One step: the first waiting command; on an empty queue, one CK_TMU tick (assumption log). -/

namespace Sys2Proof.Machine

/-- Carry out the command at the front of the queue with the queue's rest; with none waiting, time moves on by one CK_TMU tick and the
boundaries then due act. -/
def step (s : State) : Host.Outcome State Fault Refusal :=
  match s.pending with
  | [] => .next s.tick
  | c :: rest => exec c { s with pending := rest }

/-- `s` with the command a table word spells at the front of its queue (unchanged where the word spells none). -/
def State.withFetchWord (s : State) (nbits w : Nat) : State :=
  match decodeTableWord nbits w with
  | some c => { s with pending := c :: s.pending }
  | none => s

end Sys2Proof.Machine
end

