-- ==== Sys2Proof/WellFormed.lean ====
section
/-! DEFINITION. Which terms of Instr are commands of the device: a DSP row carries its own opcode, or one no row has (R136-R138), an entry has the size
its queue gives it (R73, R85), lists have the length their source has. -/

namespace Sys2Proof

/-- OP of a DSP instruction word, bits [31:26] (R136). -/
def opField (w : Word) : Nat := w.toNat / 2 ^ 26

/-- FN of an ACOP word, bits [3:0] (R138). -/
def acField (w : Word) : Nat := w.toNat % 16

/-- OP values R138 leaves undefined: the instruction is ILLEGAL (R137), whichever row it is sent as. -/
def opUndefined (w : Word) : Bool := [0x07, 0x0D, 0x0E, 0x0F, 0x27, 0x2F, 0x32, 0x33, 0x3B].contains (opField w)
/-- A word of a row's instruction, or of none. -/
def rowWord (op : Nat) (w : Word) : Bool := opField w == op || opUndefined w
/-- A word of an ACOP row's instruction, or of none: FN 4-15 are undefined. -/
def acWord (fn : Nat) (w : Word) : Bool := (opField w == 0x2D && (acField w == fn || decide (4 ≤ acField w))) || opUndefined w

/-- At most 12 parameter words fit in a 64-byte entry (R73). -/
def PqCmd.wf (c : PqCmd) : Bool := decide (c.params.length ≤ 12)

/-- Targets 0-63 of kinds DPD, IQC and ALN, 0-111 of kind SPC (R284). -/
def calTargetOk (kind : Fin 4) (target : Fin 112) : Bool := kind == 3 || decide (target.val < 64)

/-- Lanes in service of the JESD units (R225): 12 of a TX group, 6 of an RX group, 3 of an observation link. -/
def unitLaneCount (u : Nat) : Nat := if u < 4 then 12 else if u < 8 then 6 else 3

/-- The term is a command of the device. -/
def Instr.wf : Instr → Bool
  | .boundaryEvent => true
  | .podRelease _ _ => true
  | .timelineEnableWrite _ _ _ => true
  | .timelineDisableWrite _ _ _ => true
  | .hungCoreDeclare _ => true
  | .hungCoreRecovery _ _ => true
  | .sqDoorbell _ _ _ => true
  | .cqHeadDoorbell _ _ _ => true
  | .commandFetch _ entry => entry.1.length == 64
  | .queueEnable _ _ _ => true
  | .queueDisable _ _ _ => true
  | .msixCoalTimer _ => true
  | .eventBacklogPost => true
  | .upCompletionRelease _ => true
  | .pcieReset => true
  | .deviceInfo c => c.wf
  | .deviceRestart c => c.wf
  | .healthRead c => c.wf
  | .upqBind c => c.wf
  | .eventMask c => c.wf
  | .echo c => c.wf
  | .carrierAdd c => c.wf
  | .carrierModify c => c.wf
  | .carrierRemove c => c.wf
  | .carrierStatus c => c.wf
  | .nbChannelAdd c => c.wf
  | .nbChannelRemove c => c.wf
  | .planPost c _ => c.wf
  | .planCancel c => c.wf
  | .weightsLoad c _ => c.wf
  | .weightsFree c => c.wf
  | .graphBuild _ _ _ => true
  | .calRun c => c.wf
  | .calStatisticDone kind target _ _ _ => calTargetOk kind target
  | .calTimeLimit kind target => calTargetOk kind target
  | .calVerifyDone kind target _ => calTargetOk kind target
  | .alignExcitation _ => true
  | .calStatus c => c.wf
  | .calAuto c => c.wf
  | .calAutoRun _ => true
  | .dpdBankSelect c => c.wf
  | .timeGet c => c.wf
  | .timeSource c => c.wf
  | .timeStep c => c.wf
  | .timelineSet c => c.wf
  | .timelineEnable c => c.wf
  | .synceSet c => c.wf
  | .powerSet c => c.wf
  | .powerStatus c => c.wf
  | .park c _ => c.wf
  | .parkWake _ => true
  | .thermalStatus c => c.wf
  | .powerCap c => c.wf
  | .twinAttach c => c.wf
  | .twinAttachComplete _ _ _ _ _ _ _ cmds => cmds.all fun e => e.2.length == 64
  | .twinDetach c => c.wf
  | .twinStatus c => c.wf
  | .twinSwap c => c.wf
  | .recConfig c => c.wf
  | .recStart c => c.wf
  | .recTrigger c => c.wf
  | .recStatus c => c.wf
  | .recFreeze => true
  | .recReplay c => c.wf
  | .replayPeriodRelease _ _ => true
  | .replayComplete _ _ => true
  | .bar4Write off data => decide (0 < data.length) && decide (off.toNat + data.length ≤ 2 ^ 24)
  | .fwStage c _ => c.wf
  | .fwStageComplete => true
  | .fwSwitch c => c.wf
  | .podDrain c => c.wf
  | .podDrainComplete _ => true
  | .podLoad c _ => c.wf
  | .podLoadComplete _ => true
  | .podReturn c => c.wf
  | .coreSpare c => c.wf
  | .laneLoopback c => c.wf
  | .lanePattern c => c.wf
  | .eyeScan c => c.wf
  | .eyeScanComplete _ _ => true
  | .ledgerSnapshot c => c.wf
  | .statsRead c => c.wf
  | .txnOpen c => c.wf
  | .txnAdd c _ => c.wf
  | .txnArm c => c.wf
  | .txnCancel c => c.wf
  | .txnReport c => c.wf
  | .dlTb _ entry _ _ => entry.length == 32
  | .ulBuf _ entry => entry.length == 32
  | .nbTx _ entry _ => entry.length == 32
  | .ulTbResult _ _ _ _ _ _ _ _ => true
  | .hostDataLanded => true
  | .handout => true
  | .graceExpiry _ => true
  | .flowAffinityReset _ => true
  | .wdsEnableWrite _ _ => true
  | .podModeWrite _ _ _ => true
  | .coreMaskWrite _ _ _ _ => true
  | .sop _ w => rowWord 0x00 w
  | .addi _ w => rowWord 0x01 w
  | .andi _ w => rowWord 0x02 w
  | .ori _ w => rowWord 0x03 w
  | .xori _ w => rowWord 0x04 w
  | .lui _ w => rowWord 0x05 w
  | .slti _ w => rowWord 0x06 w
  | .paddi _ w => rowWord 0x08 w
  | .pmov _ w => rowWord 0x09 w
  | .pget _ w => rowWord 0x0A w
  | .mset _ w => rowWord 0x0B w
  | .mseti _ w => rowWord 0x0C w
  | .beq _ w _ => rowWord 0x10 w
  | .bne _ w _ => rowWord 0x11 w
  | .blt _ w _ => rowWord 0x12 w
  | .bge _ w _ => rowWord 0x13 w
  | .jmp _ w => rowWord 0x14 w
  | .call _ w => rowWord 0x15 w
  | .jr _ w _ => rowWord 0x16 w
  | .loop _ w => rowWord 0x17 w
  | .loopi _ w => rowWord 0x18 w
  | .rfe _ w => rowWord 0x19 w
  | .ldw _ w => rowWord 0x1A w
  | .ldc _ w => rowWord 0x1B w
  | .stw _ w => rowWord 0x1C w
  | .stc _ w => rowWord 0x1D w
  | .ldf _ w => rowWord 0x1E w
  | .stf _ w => rowWord 0x1F w
  | .vld _ w => rowWord 0x20 w
  | .vst _ w => rowWord 0x21 w
  | .vspl2 _ w => rowWord 0x22 w
  | .vspl3 _ w => rowWord 0x23 w
  | .vspl4 _ w => rowWord 0x24 w
  | .vgath _ w => rowWord 0x25 w
  | .vscat _ w => rowWord 0x26 w
  | .vop _ w => rowWord 0x28 w
  | .vmac _ w => rowWord 0x29 w
  | .vmacs _ w => rowWord 0x2A w
  | .ftap _ w => rowWord 0x2B w
  | .vext _ w => rowWord 0x2C w
  | .acclr _ w => acWord 0 w
  | .acmode _ w => acWord 1 w
  | .acmov _ w => acWord 2 w
  | .acexp _ w => acWord 3 w
  | .norm _ w => rowWord 0x2E w
  | .dma _ w => rowWord 0x30 w
  | .dmaComplete _ _ => true
  | .dmawait _ w => rowWord 0x31 w
  | .waitjob _ w => rowWord 0x34 w
  | .jobchk _ w => rowWord 0x35 w
  | .jobdone _ w => rowWord 0x36 w
  | .wait _ w => rowWord 0x37 w
  | .coreWake _ => true
  | .mfc _ w => rowWord 0x38 w
  | .mtc _ w => rowWord 0x39 w
  | .mbar _ w => rowWord 0x3A w
  | .cpxDec _ w _ => rowWord 0x3C w
  | .cpxXfm _ w _ => rowWord 0x3D w
  | .cpxMat _ w _ => rowWord 0x3E w
  | .bkpt _ w => rowWord 0x3F w
  | .coreRunWrite _ _ _ => true
  | .coreReset _ _ _ => true
  | .coreDoorbell _ _ _ => true
  | .ldpcDec _ _ _ => true
  | .turboDec _ _ _ => true
  | .polarDec _ _ _ => true
  | .convDec _ _ _ => true
  | .ldpcEnc _ _ _ => true
  | .turboEnc _ _ _ => true
  | .polarEnc _ _ _ => true
  | .convEnc _ _ _ => true
  | .dft _ _ _ => true
  | .idft _ _ _ => true
  | .mmse _ _ _ => true
  | .chol _ _ _ => true
  | .qr _ _ _ => true
  | .cpxRecordWrite _ _ _ => true
  | .cpxCtlWrite _ _ _ => true
  | .harqSlotAlloc _ _ _ _ => true
  | .harqSlotFree _ _ _ => true
  | .txSymbolFetch _ _ _ _ _ _ => true
  | .rxSymbolComplete _ _ _ _ _ => true
  | .prachOccasion _ => true
  | .prachDone _ _ => true
  | .orxCapture _ _ _ _ => true
  | .orxCaptureDone _ _ => true
  | .rfLineEdge _ _ => true
  | .gevAction _ => true
  | .dpdArm _ _ _ => true
  | .dfeCarrierEnable _ _ _ => true
  | .feTimeCheck _ => true
  | .jesdEnable _ _ _ => true
  | .sysrefEdge _ => true
  | .jesdLinkUp u link => decide (link.val < unitLaneCount u.val)
  | .jesdLinkDown u lane _ _ => decide (lane.1.val < unitLaneCount u.val)
  | .laneRemap _ => true
  | .nbSymbolEnd _ _ gains _ _ _ _ _ _ _ => gains.length == 3
  | .nbFloorUpdate _ _ => true
  | .nbRxReport => true
  | .nbTxStart _ => true
  | .nbTxDone _ _ => true
  | .gsmBurstRx _ _ _ _ _ _ seen => seen.2.2.length == 116
  | .nbChannelCtlWrite _ _ _ => true
  | .ringInject _ src dst _ _ _ _ _ len data => src != dst && (data.length == 0 || data.length == len.val)
  | .ringStarvation _ => true
  | .ringPacketAccept _ _ _ _ _ _ => true
  | .hopReplay _ _ _ _ => true
  | .ringRetry _ _ _ _ => true
  | .ringBounce _ => true
  | .epochFlip _ _ => true
  | .epochDrained => true
  | .stopDrained _ => true
  | .stopBypass _ _ _ => true
  | .stopBypassed _ => true
  | .stopRejoin _ _ _ => true
  | .ringStatsSample => true
  | .cbfBufferAlloc count _ => decide (0 < count.val)
  | .cbfBufferFree _ => true
  | .scrubRead addr _ => addr.toNat % 64 == 0
  | .ddrHot _ => true
  | .memEnableWrite _ _ => true
  | .laneLost _ => true
  | .laneRestored _ => true
  | .crxLock _ => true
  | .ethLinkBringup _ _ => true
  | .ethTrainRequest _ _ _ => true
  | .twinLinkTrain _ => true
  | .twinLinkFallback => true
  | .pcieLinkTrain _ _ _ _ _ => true
  | .pcieEqPresetRequest _ _ _ => true
  | .errorInject _ => true
  | .spcBankArm _ _ _ => true
  | .calBankArm _ _ _ _ => true
  | .ethFrameRx _ _ _ _ _ => true
  | .ulWindowClose _ _ _ _ => true
  | .dlSymbolFetch _ _ _ _ _ => true
  | .msgTxTailWrite _ _ _ _ => true
  | .msgTxLaunch _ _ _ => true
  | .tsqPop _ _ _ => true
  | .macsecSakInstall _ _ _ _ _ => true
  | .ethCarrierEnable _ _ _ => true
  | .tmuIncArm _ _ => true
  | .tmuStepApply _ _ => true
  | .tmuSnap _ _ => true
  | .ptpServoUpdate _ => true
  | .qualityChange _ => true
  | .ppsInEdge => true
  | .todRxMessage _ _ => true
  | .ppsOutEdge => true
  | .todTxSend => true
  | .refLoss _ => true
  | .refReturn _ => true
  | .por _ => true
  | .coldReset => true
  | .warmReset => true
  | .tapReset => true
  | .domainEntry => true
  | .ringDrainTimeout _ => true
  | .domainSwitchOn => true
  | .domainOnDone _ => true
  | .thermalSample raw => raw.length == 60
  | .thermalRestart _ => true
  | .throttleStep => true
  | .powerTelemetryPoll rails => rails.length == 8
  | .avsLoop slack => slack.length == 24
  | .lifetimeSecond => true
  | .lifetimeSave => true
  | .supplyDeviation _ _ => true
  | .boot _ => true
  | .recoveryGo _ _ _ => true
  | .securityAlarm _ => true
  | .fuseResense _ => true
  | .integrityCheck _ => true
  | .svnRaise => true
  | .fuseProg _ _ => true
  | .secChallenge _ => true
  | .secResponse key sig _ _ => key.length == 96 && sig.length == 96
  | .debugLockoutExpiry => true
  | .guardUnlock _ _ => true
  | .ledgerSnapStrobe _ _ => true
  | .registerWrite _ _ _ _ _ => true
  | .regbusTimeout _ _ _ _ => true
  | .twinHeartbeatSend _ _ => true
  | .twinHeartbeatMiss _ => true
  | .twinTakeover => true
  | .twinLinkLostTimeout => true
  | .twinMirrorAck _ entry => entry.length == 64
  | .twinOutcome _ _ _ _ => true
  | .twinSlotCopy _ _ _ half header => half.length == 25344 && header.length == 64
  | .sealPoint => true
  | .twinAttachTimeout => true
  | .ledgerSnapshotPacked => true
  | .checkerLock _ => true
  | .checkerLockLost _ _ _ => true
  | .ddrHotClear _ => true

end Sys2Proof
end

