-- ==== Sys2Proof/Safety.lean ====
section
/-! DEFINITION. The terms claims use: when a command's row finds its command in front, when a core takes an instruction, what a commit is,
what a run that never stops is. -/

namespace Sys2Proof.Machine

/-- `c` is the next command of its queue to take effect (R30), with opcode `op`, and check 5 of R74 passes (no STANDBY, or marked S, or
mirrored from the ACTIVE): its row carries it out. -/
def State.ready (s : State) (op : Nat) (c : PqCmd) : Bool :=
  (match s.dev.pqNext c.queue.val with
   | some r => r.opcode == op && r.cmd == c &&
      (s.dev.rf MGT_TWIN_STS_ROLE != 2 || standbyTakes op r.ghost)
   | none => false)

/-- The device with command `c` begun. -/
def State.began (s : State) (c : PqCmd) : Dev := s.dev.inProgress c.queue.val c.tag.toNat

/-- The state with the device `d`. -/
def State.on (s : State) (d : Dev) : State := { s with dev := d }

/-- Core `c` takes the instruction at its program counter (R114, R121, R148). -/
def State.coreReady (s : State) (c : Nat) : Bool := s.dev.coreRuns c && fetchOk (s.dev.core c)

/-- The state after core `c` committed an instruction that left it as `k`; its tentative CPX instructions come one nearer (R120). -/
def State.commit (s : State) (c : Nat) (k : Core) : State := s.onDev fun d => (d.setCore c k).cpxTick c

/-- The answer is a next state that satisfies `P`. -/
def nextAnd (r : Res) (P : State → Prop) : Prop := ∃ t, r = .next t ∧ P t

/-- Every byte memory of the device is in canonical form. -/
def Dev.memoryWf (d : Dev) : Bool := Memory.wf d.mem.cells && Memory.wf d.pods.mem && Tab.rising none d.hif.mem

/-- Every fuse bit blown in `a` is blown in `b` (R447). -/
def fuseKept (a b : Nat) : Prop := ∀ i, a.testBit i = true → b.testBit i = true

/-- No fuse slot of `b` has lost a blown bit of `a`. -/
def Sec.fusesKept (a b : Sec) : Prop :=
  fuseKept a.f0 b.f0 ∧ fuseKept a.f1 b.f1 ∧ fuseKept a.f2 b.f2 ∧ fuseKept a.f3 b.f3 ∧ fuseKept a.f4 b.f4 ∧ fuseKept a.f5 b.f5 ∧
    fuseKept a.f6 b.f6

/-- A run is safe when no step of it faults or refuses. -/
def SafeRun (n : Nat) (s : State) : Prop := ∃ t, Host.Core.run { State := State, Fault := Fault, Refusal := Refusal, step := step, reset := State.reset } n s = .next t

end Sys2Proof.Machine
end

