-- ==== Sys2Proof/Certificates/Slice0/Obligations.lean ====
section
/-! DEFINITION. The statements for the provers: what each command of the ZN512 does, what it leaves, and what holds of every step. -/

open Sys2Proof Sys2Proof.Machine

/-! ### The step, and the whole machine -/

/-- A step carries out the command at the front of the queue with the queue's rest; on an empty queue time moves on by one CK_TMU tick
(the model's choice, assumption log 1). -/
def Obligations.StepRunsFront : Prop :=
  (∀ (c : Instr) (s : State), step { s with pending := c :: s.pending } = exec c s) ∧
  (∀ s : State, s.pending = [] → step s = .next s.tick)

/-- Every command answers a next state, and none touches the waiting commands. -/
def Obligations.EveryCommandCompletes : Prop :=
  ∀ (c : Instr) (s : State), ∃ t, exec c s = .next t ∧ t.pending = s.pending

/-- A DSP row acts on its own instruction alone: for the word of another defined instruction nothing happens (the model's choice, assumption
log 4); an undefined OP, or an ACOP word with FN 4-15, takes the ILLEGAL fault. -/
def Obligations.WordsOfAnotherRow : Prop :=
  ∀ (c : Fin 108) (w : Word) (s : State),
    (opDefined (opField w) = true → opField w ≠ 0x01 → exec (.addi c w) s = .next s) ∧
    (opDefined (opField w) = true → opField w ≠ 0x29 → exec (.vmac c w) s = .next s) ∧
    (opDefined (opField w) = true → (opField w ≠ 0x2D ∨ acField w = 0 ∨ acField w = 1 ∨ acField w = 3) → exec (.acmov c w) s = .next s) ∧
    (∀ n, opDefined (opField w) = true → opField w ≠ 0x10 → exec (.beq c w n) s = .next s) ∧
    (∀ l v, opDefined (opField w) = true → opField w ≠ 0x3E → exec (.cpxMat c w (l, v)) s = .next s) ∧
    (opDefined (opField w) = true → opField w ≠ 0x37 → exec (.wait c w) s = .next s) ∧
    (s.coreReady c = true → opDefined (opField w) = false →
      let t := s.onDev fun d => d.coreFault c (d.core c).pc 0x01 0 0xFF
      exec (.addi c w) s = .next t ∧ exec (.vmac c w) s = .next t ∧ exec (.acmov c w) s = .next t ∧ (∀ n, exec (.beq c w n) s = .next t) ∧
      (∀ l v, exec (.cpxMat c w (l, v)) s = .next t) ∧ exec (.wait c w) s = .next t) ∧
    (s.coreReady c = true → opField w = 0x2D → 4 ≤ acField w →
      let t := s.onDev fun d => d.coreFault c (d.core c).pc 0x01 0 0xFF
      exec (.acclr c w) s = .next t ∧ exec (.acmov c w) s = .next t ∧ exec (.acexp c w) s = .next t)

/-- A blown fuse bit stays blown over every step. -/
def Obligations.FusesStayBlown : Prop :=
  ∀ s t : State, step s = .next t → s.sec.fusesKept t.sec

/-- Reset is canonical: nothing waits, every memory and the register table are in canonical form, only PD_AON answers, time is 0. -/
def Obligations.ResetState : Prop :=
  State.reset.pending = [] ∧ State.reset.dev.memoryWf = true ∧ Tab.wf regReset State.reset.dev.regs = true ∧
  State.reset.dev.now = 0 ∧ State.reset.dev.dom 79 = 0 ∧ (∀ i : Fin 79, State.reset.dev.dom i = 3)

/-! ### DSP cores -/

/-- Scalar rows: the result the opcode table gives, written to the destination, the program counter moved on. Pointer and offset rows: 18-bit registers that wrap. -/
def Obligations.ScalarResults : Prop :=
  (∀ (c : Fin 108) (w : Word) (s : State), s.coreReady c = true →
    let x := w.toNat
    let k := s.dev.core c
    let a := k.getS (fA x)
    let b := k.getS (fB x)
    let put (v : Word) : Res := .next (s.commit c (k.setS (fD x) v).adv)
    (opField w = 0x00 → bitsAt x 5 6 = 0 →
      let sh := b.toNat % 32
      (bitsAt x 0 5 = 0x00 → exec (.sop c w) s = put (a + b)) ∧
      (bitsAt x 0 5 = 0x01 → exec (.sop c w) s = put (a - b)) ∧
      (bitsAt x 0 5 = 0x02 → exec (.sop c w) s = put (a &&& b)) ∧
      (bitsAt x 0 5 = 0x03 → exec (.sop c w) s = put (a ||| b)) ∧
      (bitsAt x 0 5 = 0x04 → exec (.sop c w) s = put (a ^^^ b)) ∧
      (bitsAt x 0 5 = 0x05 → exec (.sop c w) s = put (a <<< sh)) ∧
      (bitsAt x 0 5 = 0x06 → exec (.sop c w) s = put (a >>> sh)) ∧
      (bitsAt x 0 5 = 0x07 → exec (.sop c w) s = put (a.sshiftRight sh)) ∧
      (bitsAt x 0 5 = 0x08 → exec (.sop c w) s = put (a * b)) ∧
      (bitsAt x 0 5 = 0x09 → exec (.sop c w) s = put (if a.toInt < b.toInt then 1 else 0)) ∧
      (bitsAt x 0 5 = 0x0A → exec (.sop c w) s = put (if a.toNat < b.toNat then 1 else 0)) ∧
      (bitsAt x 0 5 = 0x0B → exec (.sop c w) s = put (if a.toInt ≤ b.toInt then a else b)) ∧
      (bitsAt x 0 5 = 0x0C → exec (.sop c w) s = put (if a.toInt ≥ b.toInt then a else b)) ∧
      (bitsAt x 0 5 = 0x0D → exec (.sop c w) s = put (BitVec.ofNat 32 (leadingZeros 32 a.toNat))) ∧
      (bitsAt x 0 5 = 0x0E → exec (.sop c w) s = put (BitVec.ofNat 32 (cls32 a)))) ∧
    (opField w = 0x01 → exec (.addi c w) s = put (a + BitVec.ofInt 32 (fImmS x))) ∧
    (opField w = 0x02 → exec (.andi c w) s = put (a &&& BitVec.ofNat 32 (fImm x))) ∧
    (opField w = 0x03 → exec (.ori c w) s = put (a ||| BitVec.ofNat 32 (fImm x))) ∧
    (opField w = 0x04 → exec (.xori c w) s = put (a ^^^ BitVec.ofNat 32 (fImm x))) ∧
    (opField w = 0x05 → fA x = 0 → exec (.lui c w) s = put (BitVec.ofNat 32 (fImm x * 2 ^ 16))) ∧
    (opField w = 0x06 → exec (.slti c w) s = put (if a.toInt < fImmS x then 1 else 0))) ∧
  (∀ (c : Fin 108) (w : Word) (s : State), s.coreReady c = true →
    let x := w.toNat
    let k := s.dev.core c
    (opField w = 0x08 → bitsAt x 16 2 = 0 →
      exec (.paddi c w) s = .next (s.commit c (k.setP (bitsAt x 22 4) ((k.getP (bitsAt x 18 4) : Int) + fImmS x)).adv)) ∧
    (opField w = 0x09 → bitsAt x 0 17 = 0 →
      exec (.pmov c w) s = .next (s.commit c (k.setP (fPs x) ((k.getS (fD x)).toNat % 2 ^ 18 : Nat)).adv)) ∧
    (opField w = 0x0A → bitsAt x 0 17 = 0 →
      exec (.pget c w) s = .next (s.commit c (k.setSN (fD x) (k.getP (fPs x))).adv)) ∧
    (opField w = 0x0B → bitsAt x 0 17 = 0 →
      exec (.mset c w) s = .next (s.commit c (k.setM (fPs x) ((k.getS (fD x)).toNat % 2 ^ 18 : Nat)).adv)) ∧
    (opField w = 0x0C → bitsAt x 16 1 = 0 → exec (.mseti c w) s = .next (s.commit c (k.setM (fPs x) (fImmS x)).adv)))

/-- Branches and jumps, rightly predicted: where the program counter goes. A mispredicted branch squashes what is younger: the core's tentative coprocessor work is cancelled and SQUASHED counts, then the
branch acts as a rightly predicted one does. -/
def Obligations.BranchResults : Prop :=
  (∀ (c : Fin 108) (w : Word) (s : State), s.coreReady c = true →
    let x := w.toNat
    let k := s.dev.core c
    let a := k.getS (fD x)
    let b := k.getS (fA x)
    let go (taken : Prop) [Decidable taken] : Res :=
      .next (s.commit c (if taken then k.jump (ofSigned 21 ((k.pc : Int) + 1 + fImmS x)) else k.adv))
    (opField w = 0x10 → exec (.beq c w 0) s = go (a = b)) ∧
    (opField w = 0x11 → exec (.bne c w 0) s = go (a ≠ b)) ∧
    (opField w = 0x12 → exec (.blt c w 0) s = go (a.toInt < b.toInt)) ∧
    (opField w = 0x13 → exec (.bge c w 0) s = go (a.toInt ≥ b.toInt)) ∧
    (opField w = 0x14 → bitsAt x 21 5 = 0 → exec (.jmp c w) s = .next (s.commit c (k.jump (bitsAt x 0 21)))) ∧
    (opField w = 0x15 → bitsAt x 21 5 = 0 →
      exec (.call c w) s = .next (s.commit c { k.setSN 31 ((k.pc + 1) % 2 ^ 21) with pc := bitsAt x 0 21 })) ∧
    (opField w = 0x16 → bitsAt x 0 21 = 0 → exec (.jr c w 0) s = .next (s.commit c (k.jump (a.toNat % 2 ^ 21)))) ∧
    (opField w = 0x17 → bitsAt x 14 7 = 0 → bitsAt x 0 14 ≠ 0 → k.loops.length < 3 → 0 < a.toNat % 2 ^ 24 → k.inHandler = false →
      exec (.loop c w) s = .next (s.commit c { k with
        pc := (k.pc + 1) % 2 ^ 21,
        loops := ⟨(k.pc + 1) % 2 ^ 21, (k.pc + 1 + bitsAt x 0 14) % 2 ^ 21, a.toNat % 2 ^ 24⟩ :: k.loops })) ∧
    (opField w = 0x18 → bitsAt x 0 14 ≠ 0 → k.loops.length < 3 → 0 < bitsAt x 14 12 → k.inHandler = false →
      exec (.loopi c w) s = .next (s.commit c { k with
        pc := (k.pc + 1) % 2 ^ 21,
        loops := ⟨(k.pc + 1) % 2 ^ 21, (k.pc + 1 + bitsAt x 0 14) % 2 ^ 21, bitsAt x 14 12⟩ :: k.loops }))) ∧
  (∀ (c : Fin 108) (w : Word) (young : Nat) (s : State), s.coreReady c = true → 0 < young →
    let sq := s.onDev fun d => (d.cpxCancelAll c).bumpBy (POD_CORE_c_SQUASHED (c / 9) (c % 9)) young
    (opField w = 0x10 → exec (.beq c w young) s = exec (.beq c w 0) sq) ∧
    (opField w = 0x11 → exec (.bne c w young) s = exec (.bne c w 0) sq) ∧
    (opField w = 0x12 → exec (.blt c w young) s = exec (.blt c w 0) sq) ∧
    (opField w = 0x13 → exec (.bge c w young) s = exec (.bge c w 0) sq) ∧
    (opField w = 0x16 → exec (.jr c w young) s = exec (.jr c w 0) sq))

/-- Scalar loads and stores of local memory: the word at the address the mode gives, the pointer the mode leaves. -/
def Obligations.LocalMemoryResults : Prop :=
  ∀ (c : Fin 108) (w : Word) (s : State), s.coreReady c = true →
    let x := w.toNat
    let k := s.dev.core c
    let a := msAddr x k
    msOk x = true →
    (opField w = 0x1A → k.accessFault [(a, false)] = none →
      exec (.ldw c w) s = .next (s.commit c ((msUpd x k).setSI (fD x) (k.wordS a)).adv)) ∧
    (opField w = 0x1B → a % 2 = 0 → k.accessFault [(a, false), (a + 1, false)] = none →
      exec (.ldc c w) s = .next (s.commit c ((msUpd x k).setSN (fD x) (k.word a + 4096 * k.word (a + 1))).adv)) ∧
    (opField w = 0x1C → k.accessFault [(a, true)] = none →
      exec (.stw c w) s = .next (s.commit c ((msUpd x k).setWord a (k.getS (fD x)).toNat).adv)) ∧
    (opField w = 0x1D → a % 2 = 0 → k.accessFault [(a, true), (a + 1, true)] = none →
      exec (.stc c w) s = .next (s.commit c ((msUpd x k).setWords
        [(a, bitsAt (k.getS (fD x)).toNat 0 12), (a + 1, bitsAt (k.getS (fD x)).toNat 12 12)]).adv))

/-- Vector loads, stores, gathers and scatters complete where their checks pass. So do the element operations: each element the K bit selects takes
the operation's value, every other keeps its own (VSEL chooses by K between two sources); a compare writes the K register the destination number
names; VEXT rounds, saturates and counts. -/
def Obligations.VectorResults : Prop :=
  ∀ (c : Fin 108) (w : Word) (s : State), s.coreReady c = true →
    let x := w.toNat
    let k := s.dev.core c
    let n := gSize (fG x)
    let base := k.getP (mvPn x)
    let split (j : Nat) (i : Instr) : Prop := mvOk x = true → grpOk (fG x) (fD x) = true → fD x + j * n - 1 ≤ 31 → base % 2 = 0 →
      k.accessFault ((wordsFrom base (j * 32 * n)).map fun a => (a, false)) = none →
      exec i s = .next (s.commit c (((upTo j).foldl (fun k' st => k'.setGroup (fD x + st * n) n (splitStream k base j st n))
        (mvUpd x (j * 32 * n) k)).adv))
    (opField w = 0x20 → mvOk x = true → grpOk (fG x) (fD x) = true →
      k.accessFault ((wordsFrom base (32 * n)).map fun a => (a, false)) = none →
      exec (.vld c w) s = .next (s.commit c ((mvUpd x (32 * n) k).setGroup (fD x) n ((wordsFrom base (32 * n)).map k.wordS)).adv)) ∧
    (opField w = 0x21 → mvOk x = true → grpOk (fG x) (fD x) = true →
      let es := (upTo (32 * n)).filter fun e => bitAt (k.getK (bitsAt x 6 3)) e
      k.accessFault (es.map fun e => ((base + e) % 2 ^ 18, true)) = none →
      exec (.vst c w) s = .next (s.commit c
        ((mvUpd x (32 * n) k).setWords (es.map fun e => (base + e, ofSigned 12 (el (k.getGroup (fD x) n) e)))).adv)) ∧
    (opField w = 0x22 → split 2 (.vspl2 c w)) ∧ (opField w = 0x23 → split 3 (.vspl3 c w)) ∧ (opField w = 0x24 → split 4 (.vspl4 c w)) ∧
    (opField w = 0x25 → gtOk x = true → (gtActive x k).filterMap (gtFault x k false) = [] →
      exec (.vgath c w) s = .next (s.commit c (k.setGroup (fD x) 1 ((gtActive x k).foldl (fun l e =>
        if gtSize x = 0 then setNth l e (k.wordS (gtAddr x k e).toNat)
        else setNth (setNth l (2 * e) (k.wordS (gtAddr x k e).toNat)) (2 * e + 1) (k.wordS ((gtAddr x k e).toNat + 1)))
        (elemsOf (k.getV (fD x))))).adv)) ∧
    (opField w = 0x26 → gtOk x = true → (gtActive x k).filterMap (gtFault x k true) = [] →
      exec (.vscat c w) s = .next (s.commit c (k.setWords ((gtActive x k).flatMap fun e =>
        if gtSize x = 0 then [((gtAddr x k e).toNat, ofSigned 12 (el (elemsOf (k.getV (fD x))) e))]
        else [((gtAddr x k e).toNat, ofSigned 12 (el (elemsOf (k.getV (fD x))) (2 * e))),
          ((gtAddr x k e).toNat + 1, ofSigned 12 (el (elemsOf (k.getV (fD x))) (2 * e + 1)))])).adv)) ∧
    (opField w = 0x2E → gOk (bitsAt x 14 2) = true → grpOk (bitsAt x 14 2) (fA x) = true → bitsAt x 0 14 = 0 →
      exec (.norm c w) s = .next (s.commit c (k.setSN (fD x) (minRedundant 12 (k.getGroup (fA x) (gSize (bitsAt x 14 2))))).adv)) ∧
    let fn := bitsAt x 0 6
    let g := bitsAt x 9 2
    let ge := gSize g
    let km := k.getK (bitsAt x 6 3)
    let cmp (gt : Bool) : Prop := gOk g = true → grpOk g (fA x) = true → grpOk g (fB x) = true → fD x % 8 ≠ 0 →
      nextAnd (exec (.vop c w) s) fun t => ∃ k' : Core, t = s.commit c k'.adv ∧ k'.v = k.v ∧ k'.s = k.s ∧ ∀ e, e < 32 * ge →
        bitAt (k'.getK (fD x % 8)) e = if gt then decide (el (k.getGroup (fA x) ge) e > el (k.getGroup (fB x) ge) e)
          else decide (el (k.getGroup (fA x) ge) e = el (k.getGroup (fB x) ge) e)
    (opField w = 0x28 → fn = 0x12 → cmp false) ∧ (opField w = 0x28 → fn = 0x13 → cmp true) ∧
    (opField w = 0x28 → fn ≤ 0x11 ∨ fn = 0x15 → gOk g = true → grpOk g (fD x) = true → (fn = 0x10 ∨ grpOk g (fA x) = true) →
      (vopNoVB fn = true ∨ grpOk g (fB x) = true) →
      exec (.vop c w) s = .next (s.commit c (k.setGroup (fD x) ge ((upTo (32 * ge)).map fun e =>
        if fn = 0x11 ∨ bitAt km e = true then
          (vopElem fn (k.getS (fB x)) (k.getGroup (fA x) ge) (bitAt km e) e (el (k.getGroup (fA x) ge) e) (el (k.getGroup (fB x) ge) e)).getD
            (el (k.getGroup (fD x) ge) e)
        else el (k.getGroup (fD x) ge) e)).adv)) ∧
    (opField w = 0x2C → gOk (bitsAt x 16 2) = true → grpOk (bitsAt x 16 2) (fD x) = true → bitsAt x 5 2 = 0 →
      (bitAt x 8 = true ∨ bitsAt x 10 6 ≤ 39) →
      nextAnd (exec (.vext c w) s) fun t => ∃ k' : Core, t = s.commit c k'.adv ∧
        let m := gSize (bitsAt x 16 2)
        let sh := if bitAt x 8 then min ((k.getS (bitsAt x 0 5)).toNat % 64) 39 else bitsAt x 10 6
        let xs := ((k.getAcc (bitsAt x 18 3)).take (32 * m)).map fun v => vextRound v sh (bitAt x 9)
        k'.v = (k.setGroup (fD x) m (xs.map sat12)).v ∧ k'.s = k.s ∧
        (k'.getCr 0x0F = if xs.any (fun v => sat12 v != v) then (k.getCr 0x0F + 1) % 2 ^ 32 else k.getCr 0x0F) ∧
        (bitAt x 7 = true → k'.getAcc (bitsAt x 18 3) = accZero))

/-- The accumulator rows other than the multiplies: ACCLR, ACMODE, ACMOV where it takes no GOV flag from 0 to 1, ACEXP. -/
def Obligations.AccumulatorResults : Prop :=
  ∀ (c : Fin 108) (w : Word) (s : State), s.coreReady c = true → opField w = 0x2D → bitsAt w.toNat 5 10 = 0 →
    let x := w.toNat
    let k := s.dev.core c
    let a := bitsAt x 23 3
    let b := bitsAt x 20 3
    (acField w = 0 → exec (.acclr c w) s = .next (s.commit c ({ k.setAcc a accZero with gov := clrBit k.gov a, esat := clrBit k.esat a }.adv))) ∧
    (acField w = 1 → exec (.acmode c w) s = .next (s.commit c ({ k with satMode := putBits k.satMode a 1 (bitsAt x 4 1) }.adv))) ∧
    (acField w = 2 → (bitAt k.gov b = false ∨ bitAt k.gov a = true) → exec (.acmov c w) s = .next (s.commit c ({ k.setAcc a (k.getAcc b) with
      gov := putBits k.gov a 1 (b2n (bitAt k.gov b)), esat := putBits k.esat a 1 (b2n (bitAt k.esat b)) }.adv))) ∧
    (acField w = 3 → exec (.acexp c w) s = .next (s.commit c (k.setSN (bitsAt x 15 5) (minRedundant 40 (k.getAcc b))).adv))

/-- A legal multiply-accumulate leaves what its datapath gives (macRun: the sum of the terms of the selected lanes, GOV and GOVCNT); then, exactly
when it took its accumulator's GOV flag from 0 (a CLR of the same instruction counts as 0) to 1 with GOV_TRAP = 1, outside the fault handler,
the GOV_TRAP trap directly follows, FPC naming the next instruction. ACMOV takes the copied GOV flag by the same rule. -/
def Obligations.MultiplyAccumulateTraps : Prop :=
  ∀ (c : Fin 108) (w : Word) (s : State), s.coreReady c = true →
    let x := w.toNat
    let k := s.dev.core c
    let ac := bitsAt x 23 3
    let n := gSize (bitsAt x 11 2)
    let vb := bitsAt x 13 5
    let quad : Prop := bitsAt x 6 2 = 2
    let armed : Prop := bitAt (k.getCr 0x06) 0 = true ∧ k.inHandler = false
    let does (i : Instr) (k' : Core) (gov0 : Nat) : Prop :=
      (bitAt gov0 ac = false ∧ bitAt k'.gov ac = true ∧ armed → exec i s = .next (s.onDev fun d => (d.setCore c k').coreFault c k'.pc 0x08 0 0xFF)) ∧
      (¬(bitAt gov0 ac = false ∧ bitAt k'.gov ac = true ∧ armed) → exec i s = .next (s.commit c k'))
    let cleared := if bitAt x 5 then clrBit k.gov ac else k.gov
    (opField w = 0x29 → vxOk x = true → grpOk (bitsAt x 11 2) vb = true → (quad → vb + 2 * n - 1 ≤ 31) →
      ∀ third, (quad → third = k.getGroup (vb + n) n) → (¬quad → third = []) →
      does (.vmac c w) (macRun x k (k.getGroup vb n) third).1.adv cleared) ∧
    (opField w = 0x2A → vxOk x = true → ¬quad →
      let sb := (k.getS vb).toNat
      does (.vmacs c w) (macRun x k ((upTo (16 * n)).flatMap fun _ => [toSigned 12 (bitsAt sb 0 12), toSigned 12 (bitsAt sb 12 12)]) []).1.adv
        cleared) ∧
    (opField w = 0x2B → gOk (bitsAt x 16 2) = true → grpOk (bitsAt x 16 2) (bitsAt x 18 5) = true → k.getP (bitsAt x 12 4) % 2 = 0 →
      k.getP (bitsAt x 4 4) % 2 = 0 →
      k.accessFault [(k.getP (bitsAt x 12 4), false), (k.getP (bitsAt x 12 4) + 1, false), (k.getP (bitsAt x 4 4), false),
        (k.getP (bitsAt x 4 4) + 1, false)] = none →
      ∃ k' : Core, does (.ftap c w) k' k.gov ∧ k'.s = k.s ∧ k'.mem = k.mem ∧ k'.pc = k.adv.pc ∧
        k'.getGroup (bitsAt x 18 5) (gSize (bitsAt x 16 2)) = (k.setGroup (bitsAt x 18 5) (gSize (bitsAt x 16 2))
          ((k.wordS (k.getP (bitsAt x 4 4)) :: k.wordS (k.getP (bitsAt x 4 4) + 1) ::
            k.getGroup (bitsAt x 18 5) (gSize (bitsAt x 16 2))).take (32 * gSize (bitsAt x 16 2)))).getGroup (bitsAt x 18 5)
          (gSize (bitsAt x 16 2))) ∧
    (opField w = 0x2D → bitsAt x 5 10 = 0 → acField w = 2 → ∃ k' : Core, does (.acmov c w) k' k.gov ∧ k'.s = k.s ∧ k'.pc = k.adv.pc ∧
      k'.getAcc ac = k.getAcc (bitsAt x 20 3) ∧ bitAt k'.gov ac = bitAt k.gov (bitsAt x 20 3))

/-- A row that acts on its core alone: whatever it does, every other core, local memories included, the device's memories, the security
state, the timelines, the jobs, time and the queue stay; and while a fault of its core has a handler to go to, and no coprocessor instruction sent
ahead waits to fault with it, the host interface does too. -/
def Obligations.ScalarFrame : Prop :=
  ∀ (c : Fin 108) (w : Word) (s t : State) (i : Instr),
    i ∈ [Instr.sop c w, .addi c w, .andi c w, .ori c w, .xori c w, .lui c w, .slti c w, .paddi c w, .pmov c w, .pget c w, .mset c w,
      .mseti c w, .jmp c w, .call c w, .loop c w, .loopi c w, .norm c w, .acclr c w, .acmode c w, .acmov c w, .acexp c w, .vext c w,
      .vop c w, .ldw c w, .ldc c w, .stw c w, .stc c w, .vld c w, .vst c w, .vgath c w, .vscat c w, .mtc c w, .mbar c w] →
    exec i s = .next t →
      (∀ j, j ≠ c.val → t.dev.core j = s.dev.core j) ∧ t.dev.mem = s.dev.mem ∧ t.sec = s.sec ∧ t.pending = s.pending ∧
      t.dev.tls = s.dev.tls ∧ { t.dev.wds with log := [] } = { s.dev.wds with log := [] } ∧ t.dev.now = s.dev.now ∧ t.dev.guardOpen = s.dev.guardOpen ∧
      ((s.dev.core c).inHandler = false → (s.dev.core c).getCr 0x01 ≠ 0 → (∀ u ∈ (s.dev.core c).tent, u.mark = none) → t.dev.hif = s.dev.hif)

/-- On a core that does not run, or whose domain is not in RUN, an instruction row has no effect at all. -/
def Obligations.StoppedCoreDoesNothing : Prop :=
  ∀ (c : Fin 108) (w : Word) (s : State), s.dev.coreRuns c = false →
    (opField w = 0x00 → exec (.sop c w) s = .next s) ∧ (opField w = 0x1C → exec (.stw c w) s = .next s) ∧
    (opField w = 0x1F → exec (.stf c w) s = .next s) ∧ (opField w = 0x30 → exec (.dma c w) s = .next s) ∧
    (opField w = 0x36 → exec (.jobdone c w) s = .next s) ∧ (opField w = 0x3C → ∀ l v, exec (.cpxDec c w (l, v)) s = .next s)

/-- What a fault leaves (R145): FPC, FCAUSE with ELEMENT and the handler mark, FADDR; then the handler at FVEC, or HALTED. -/
def Obligations.CoreFaultRecord : Prop :=
  ∀ (d : Dev) (c : Fin 108) (fpc cause : Nat) (addr : Int) (elem : Nat), fpc < 2 ^ 21 → cause < 2 ^ 8 → elem < 2 ^ 8 →
    let k := d.core c
    let t := d.coreFault c fpc cause addr elem
    (t.core c).getCr 0x02 = fpc ∧ bitsAt ((t.core c).getCr 0x03) 0 8 = cause ∧ bitsAt ((t.core c).getCr 0x03) 8 8 = elem ∧
    (t.core c).getCr 0x04 = ofSigned 32 addr ∧ (t.core c).tent = [] ∧
    (k.inHandler = false → k.getCr 0x01 ≠ 0 →
      (t.core c).pc = k.getCr 0x01 % 2 ^ 21 ∧ (t.core c).inHandler = true ∧ t.coreState c = d.coreState c) ∧
    (k.inHandler = true ∨ k.getCr 0x01 = 0 → (t.core c).pc = k.pc ∧
      t = ((((d.squash c).faultRecord c fpc cause addr elem).setCoreState c 4).health (0x10 + c / 9) 2 (c + 2 ^ 8 * cause)).recSource 3)

/-- BKPT takes the BREAKPOINT fault at its own address; RFE in the handler leaves it, at FPC or the instruction after. -/
def Obligations.BreakpointAndReturn : Prop :=
  ∀ (c : Fin 108) (w : Word) (s : State), s.coreReady c = true →
    let k := s.dev.core c
    (opField w = 0x3F → bitsAt w.toNat 0 26 = 0 → exec (.bkpt c w) s = .next (s.onDev fun d => d.coreFault c k.pc 0x09 0 0xFF)) ∧
    (opField w = 0x19 → bitsAt w.toNat 1 25 = 0 → k.inHandler = true →
      exec (.rfe c w) s = .next ((s.commit c { k.setInHandler false with pc := (k.getCr 0x02 + w.toNat % 2) % 2 ^ 21 }).onDev fun d =>
        d.setFlag (POD_CORE_c_STS_IN_HANDLER (c / 9) (c % 9)) false))

/-- Control registers: MFC reads, CYCLES_LO settling a free number of cycles; MTC writes; MBAR only goes on. -/
def Obligations.ControlRegisterResults : Prop :=
  ∀ (c : Fin 108) (w : Word) (s : State), s.coreReady c = true →
    let x := w.toNat
    let k := s.dev.core c
    let n := bitsAt x 8 8
    let cy := (k.cycles + Config.coreCycles s.dev.free) % 2 ^ 64
    (opField w = 0x38 → bitsAt x 0 8 = 0 → n ≠ 0x0B →
      exec (.mfc c w) s = .next (s.commit c (k.setSN (fD x) (k.readCr c n)).adv)) ∧
    (opField w = 0x38 → bitsAt x 0 8 = 0 → n = 0x0B →
      exec (.mfc c w) s = .next ((s.onDev fun d => { d with free := d.free + 1 }).commit c
        ({ k with cycles := cy, cyclesHi := cy / 2 ^ 32 }.setSN (fD x) (cy % 2 ^ 32)).adv)) ∧
    (opField w = 0x39 → bitsAt x 0 8 = 0 →
      exec (.mtc c w) s = .next (s.commit c (k.writeCr n (k.getS (fA x)).toNat).adv)) ∧
    (opField w = 0x3A → bitsAt x 0 26 = 0 → exec (.mbar c w) s = .next (s.commit c k.adv))

/-- Dispatcher calls: WAITJOB of a core without a job waits; JOBCHK reports; JOBDONE with the job's own handle ends it. -/
def Obligations.DispatcherCallResults : Prop :=
  ∀ (c : Fin 108) (w : Word) (s : State), s.coreReady c = true → bitsAt w.toNat 0 26 = 0 →
    let k := s.dev.core c
    (opField w = 0x34 → k.job = none → nextAnd (exec (.waitjob c w) s) fun t =>
      t.dev.coreState c = 2 ∧ Tab.find t.dev.wds.waiting c = some s.dev.wds.stamp ∧ t.dev.wds.jobs = s.dev.wds.jobs) ∧
    (opField w = 0x35 → k.job = none → exec (.jobchk c w) s = .next (s.commit c (k.setSN 0 (2 ^ 15)).adv)) ∧
    (opField w = 0x35 → ∀ sl j, k.job = some sl → s.dev.job sl = some j →
      exec (.jobchk c w) s = .next (s.commit c (k.setSN 0 (b2n (j.state == .stop))).adv)) ∧
    (opField w = 0x36 → ∀ sl j, k.job = some sl → s.dev.job sl = some j → (k.getS 0).toNat = sl + 2 ^ 14 * j.desc.tl →
      exec (.jobdone c w) s = .next (s.onDev fun d => ((d.jobEnd c sl j).1.setCore c
        (((d.jobEnd c sl j).1.core c).setSN 0 (b2n (d.jobEnd c sl j).2)).adv).cpxTick c))

/-- WAIT with no wake enabled goes on with status ABORTED; with one enabled and none set the core waits. A set latch wakes it. -/
def Obligations.WaitAndWake : Prop :=
  ∀ (c : Fin 108) (w : Word) (s : State), 
    let k := s.dev.core c
    (s.coreReady c = true → opField w = 0x37 → bitsAt w.toNat 0 26 = 0 → k.getCr 0x09 = 0 →
      exec (.wait c w) s = .next (s.commit c (k.waitEnd 2 0).adv)) ∧
    (s.coreReady c = true → opField w = 0x37 → bitsAt w.toNat 0 26 = 0 → k.getCr 0x09 ≠ 0 → k.wakeSource = none →
      exec (.wait c w) s = .next (s.onDev fun d => (d.setCoreState c 3).retainVote c)) ∧
    (∀ src, s.dev.coreState c = 3 → k.wakeSource = some src → s.dev.domRun (coreDom c) = true →
      exec (.coreWake (c, false)) s = .next (s.onDev fun d =>
        ((((d.setCoreState c 1).setCore c (k.waitEnd 1 src).adv).cpxTick c).showVote (coreDom c)).voteWithdraw (coreDom c))) ∧
    (2 ≤ s.dev.rf SEC_DEBUG_STS_LEVEL → s.dev.coreState c ≠ 3 → exec (.coreWake (c, true)) s = .next (s.onDev fun d => d.setLatch c 4))

/-- Far accesses of a register of the core's own pod, and of memory. -/
def Obligations.FarAccessResults : Prop :=
  ∀ (c : Fin 108) (w : Word) (s : State) (a : Nat), s.coreReady c = true → fImm w.toNat = 0 → farAddr w.toNat (s.dev.core c) = a →
    let k := s.dev.core c
    a % 4 = 0 → farPermitted (c / 9) a = true →
    (∀ off, opField w = 0x1E → placeOf a = .reg off → s.dev.regOn off = true →
      exec (.ldf c w) s = .next (s.onDev fun d =>
        ((d.busRd (.pod ⟨c / 9, podLt c⟩) off).1.setCore c
          (k.setSN (fD w.toNat) (d.busRd (.pod ⟨c / 9, podLt c⟩) off).2).adv).cpxTick c)) ∧
    (∀ bs, opField w = 0x1E → (∀ off, placeOf a ≠ .reg off) → (s.dev.busRead (c / 9) a 4).2 = some bs →
      exec (.ldf c w) s = .next (s.onDev fun d =>
        ((d.busRead (c / 9) a 4).1.setCore c (k.setSN (fD w.toNat) (ofLeBytes bs)).adv).cpxTick c)) ∧
    (opField w = 0x1F → (∀ off, placeOf a ≠ .reg off) →
      (s.dev.busWrite (c / 9) (s.dev.jobTag c) a (leBytes 4 (k.getS (fD w.toNat)).toNat)).2 = true →
      exec (.stf c w) s = .next (s.onDev fun d =>
        let t := (d.busWrite (c / 9) (d.jobTag c) a (leBytes 4 (k.getS (fD w.toNat)).toNat)).1
        (t.setCore c (t.core c).adv).cpxTick c))

/-- DMA: a good descriptor starts a transfer under the next ticket; DMAWAIT goes on once the ticket is free; the completion frees it. -/
def Obligations.DmaResults : Prop :=
  ∀ (c : Fin 108) (w : Word) (s : State),
    let x := w.toNat
    let k := s.dev.core c
    let a : Nat := (k.getS (fA x)).toNat % 2 ^ 18
    let q := k.dmaDesc a
    (s.coreReady c = true → opField w = 0x30 → fImm x = 0 → a % 2 = 0 → k.accessFault ((wordsFrom a 16).map fun x => (x, false)) = none →
      Tab.find k.dma k.nextTicket = none → q.bad c a = false → q.len ≠ 0 → q.rows ≠ 0 →
      exec (.dma c w) s = .next ((s.commit c (k.setSN (fD x) k.nextTicket).adv).onDev fun d => d.dmaStart c ⟨a, q.dir, q.format, q.cls, q.far,
        q.loc, q.len, q.rows, q.fstride, q.lstride, q.span.1.toNat, q.span.2.toNat, true, (s.dev.jobTag c).map (·.2),
        ((s.dev.jobTag c).map (·.1)).getD 0, []⟩)) ∧
    (s.coreReady c = true → opField w = 0x31 → fD x = 0 → fImm x = 0 → Tab.find k.dma ((k.getS (fA x)).toNat % 16) = none →
      exec (.dmawait c w) s = .next (s.commit c k.adv)) ∧
    (∀ (n : Fin 16) (t : Dma), s.dev.domRun (coreDom c) = true → Tab.find k.dma n = some t →
      nextAnd (exec (.dmaComplete c n) s) fun t' => Tab.find (t'.dev.core c).dma n = none ∧ t'.sec = s.sec)

/-- A core reset ends the core's transfers (R166): none is in flight, every ticket is free and the next is 0; nothing of the transfers reaches the
local memory, where their records would stand, or any other memory; and a completion that would have followed does nothing. -/
def Obligations.CoreResetEndsTransfers : Prop :=
  ∀ (d : Dev) (c : Fin 108),
    let t := d.coreReset c
    (t.core c).dma = [] ∧ (t.core c).nextTicket = 0 ∧ t.rf (POD_DMA_c_STS_INFLIGHT (c / 9) (c % 9)) = 0 ∧
    (t.core c).mem = (d.core c).mem ∧ t.mem = d.mem ∧ (∀ j, j ≠ c.val → t.core j = d.core j) ∧
    (∀ (n : Fin 16) (s : State), s.dev = t → exec (.dmaComplete c n) s = .next s)

/-- A CPX instruction that passes its checks is accepted by its unit, and with nothing older to commit is committed at once. -/
def Obligations.CpxIssueResults : Prop :=
  ∀ (c : Fin 108) (w : Word) (v : Word) (s : State), s.coreReady c = true → fD w.toNat = 0 → fImm w.toNat = 0 →
    let k := s.dev.core c
    let sa := (k.getS (fA w.toNat)).toNat
    let row (u : Nat) (i : Instr) : Prop :=
      sa < 0x7FF000 → sa % 64 = 0 → s.dev.cpxEnabled (c / 9) u = true →
      (s.dev.pods.cpx.filter fun i => i.core == c.val).length < 8 → s.dev.cpxHeld (c / 9) u < 32 →
      exec i s = .next (s.onDev fun d => (((d.cpxAccept c u sa).cpxCommit c d.pods.seq).setCore c k.adv).cpxTick c)
    (opField w = 0x3C → row 0 (.cpxDec c w ([], v))) ∧ (opField w = 0x3D → row 1 (.cpxXfm c w ([], v))) ∧ (opField w = 0x3E → row 2 (.cpxMat c w ([], v)))

/-- The core's CTL register (R148, R121, R142): a write that reaches it and selects one bit sets RUN and the core runs from PC 0; with RUN 0 stops a core
without a job; resets the core, which keeps its local memory and runs on from PC 0 where RUN is 1; sets its doorbell latch. No other core, and nothing of
the device's memory, is touched. A write of several bits does each of these in that order. -/
def Obligations.CoreControlWrites : Prop :=
  (∀ (init : Initiator) (c : Fin 108) (value : Word) (s : State),
    let off := rPOD_CORE_c_CTL (c / 9) (c % 9)
    let f := POD_CORE_c_CTL_RUN (c / 9) (c % 9)
    s.dev.holeFor init off = false → s.dev.hostDown init = false → s.dev.domOn (coreDom c) = true →
      (s.dev.flag f = false → value.toNat / 2 ^ 16 = 1 → bitAt value.toNat 0 = true → nextAnd (exec (.coreRunWrite init c value) s) fun t =>
        t.dev.flag f = true ∧ t.dev.coreState c = 1 ∧ t.dev.core c = { s.dev.core c with pc := 0 } ∧ (∀ b, b ≠ c.val → t.dev.core b = s.dev.core b) ∧
        t.dev.mem = s.dev.mem ∧ t.sec = s.sec) ∧
      (s.dev.flag f = true → value.toNat / 2 ^ 16 = 1 → bitAt value.toNat 0 = false → (s.dev.core c).job = none → nextAnd (exec (.coreRunWrite init c value) s) fun t =>
        t.dev.flag f = false ∧ t.dev.coreState c = 0 ∧ (∀ b, b ≠ c.val → t.dev.core b = s.dev.core b) ∧ t.dev.mem = s.dev.mem ∧ t.sec = s.sec) ∧
      (value.toNat / 2 ^ 16 = 2 → bitAt value.toNat 1 = true → nextAnd (exec (.coreReset init c value) s) fun t =>
        t.dev.core c = { Core.resetWith (s.dev.core c).mem with job := (s.dev.core c).job } ∧ t.dev.coreState c = s.dev.rf f ∧
        (∀ b, b ≠ c.val → t.dev.core b = s.dev.core b) ∧ t.dev.mem = s.dev.mem ∧ t.sec = s.sec) ∧
      (value.toNat / 2 ^ 16 = 4 → bitAt value.toNat 2 = true → nextAnd (exec (.coreDoorbell init c value) s) fun t =>
        t.dev.core c = { s.dev.core c with latches := setBit (s.dev.core c).latches 2 } ∧ t.dev.coreState c = s.dev.coreState c ∧
        (∀ b, b ≠ c.val → t.dev.core b = s.dev.core b) ∧ t.dev.mem = s.dev.mem ∧ t.sec = s.sec)) ∧
  (∀ (init : Initiator) (c : Fin 108) (value : Word) (s : State),
    let f := POD_CORE_c_CTL_RUN (c / 9) (c % 9)
    let r := s.dev.busWr init (rPOD_CORE_c_CTL (c / 9) (c % 9)) value.toNat
    ∀ cmds, r.2 = .yes cmds →
      (s.dev.flag f = false → r.1.flag f = true → bitAt cmds 1 = false → bitAt cmds 2 = false →
        exec (.coreRunWrite init c value) s = .next (s.on <| r.1.coreStart c)) ∧
      (s.dev.flag f = r.1.flag f → bitAt cmds 1 = true → bitAt cmds 2 = false →
        exec (.coreReset init c value) s = .next (s.on <| r.1.coreReset c)) ∧
      (s.dev.flag f = r.1.flag f → bitAt cmds 1 = false → bitAt cmds 2 = true →
        exec (.coreDoorbell init c value) s = .next (s.on <| r.1.setLatch c 2)))

/-! ### Pod coprocessors -/

/-- A committed instruction whose turn in its engine it is and whose descriptor passes its checks runs: its outputs are written and its record, BUS_ERR where an access failed, is held for writing. A descriptor that fails a check reads and writes nothing else: only the record of the first failing field is held (R176). -/
def Obligations.UnitRules : Prop :=
  (∀ (p : Fin 12) (seq : Nat) (s : State) (i : CpxInst),
    let ds := s.dev.podRead p i.desc 128
    let row (unit op : Nat) (checks : Nat → Nat → List Byte → List CpxCheck) (body : List Byte → Io → Io × CpxRec) (c : Instr) : Prop :=
      s.dev.pods.cpx.find? (fun i => i.seq == seq && i.core / 9 == p.val && i.unit == unit && i.committed && i.ran.isNone) = some i →
      s.dev.cpxBefore i = false → leAt ds 1 1 = op → firstBad (checks p i.desc ds) = none →
      let r := body ds ⟨s.dev, i, none, none⟩
      exec c s = .next (s.on <| (r.1.d.stageStall p unit).cpxUpd seq fun x =>
        { x with ran := some (match r.1.err with | some f => busErrRec f | none => r.2) })
    row 0 0x01 (ldpcChecks false) (fun ds io => (ldpcPar ds).run io) (.ldpcDec p seq false) ∧
    row 0 0x02 (turboChecks false) (fun ds io => (turboPar ds).run io) (.turboDec p seq false) ∧
    row 0 0x03 (polarChecks false) polarDecBody (.polarDec p seq false) ∧
    row 0 0x04 (convChecks false) convDecBody (.convDec p seq false) ∧
    row 0 0x11 (ldpcChecks true) (fun ds io => (ldpcPar ds).encode io) (.ldpcEnc p seq false) ∧
    row 0 0x12 (turboChecks true) (fun ds io => (turboPar ds).encode io) (.turboEnc p seq false) ∧
    row 0 0x13 (polarChecks true) polarEncBody (.polarEnc p seq false) ∧
    row 0 0x14 (convChecks true) convEncBody (.convEnc p seq false) ∧
    row 1 1 xfmChecks xfmBody (.dft p seq false) ∧ row 1 2 xfmChecks xfmBody (.idft p seq false) ∧
    row 2 1 matChecks matBody (.mmse p seq false) ∧ row 2 2 matChecks matBody (.chol p seq false) ∧ row 2 3 matChecks matBody (.qr p seq false)) ∧
  (∀ (p : Fin 12) (seq : Nat) (s : State) (i : CpxInst) (st off : Nat),
    s.dev.pods.cpx.find? (fun i => i.seq == seq && i.core / 9 == p.val && i.unit == 1 && i.committed && i.ran.isNone) = some i →
    let ds := s.dev.podRead p i.desc 128
    s.dev.cpxBefore i = false → leAt ds 1 1 = 1 → firstBad (xfmChecks p i.desc ds) = some (st, off) →
    nextAnd (exec (.dft p seq false) s) fun t =>
      t = (s.on <| (s.dev.stageStall p 1).cpxUpd seq fun x => { x with ran := some ⟨st, 1, off⟩ }) ∧
      t.dev.mem = s.dev.mem ∧ t.dev.pods.mem = s.dev.pods.mem ∧ t.dev.cores = s.dev.cores ∧ ∀ o, o ≠ rCPX_u_STAGE_STALL p 1 → t.dev.reg o = s.dev.reg o)

/-- A record is written once the instruction has run, as 8 bytes of pod memory; the instruction is then held no longer. CPX_CTL is MASKED: a taken write changes only the enable bits its upper half selects. -/
def Obligations.CpxRecordAndControl : Prop :=
  (∀ (p : Fin 12) (seq : Nat) (s : State) (i : CpxInst) (r : CpxRec),
    s.dev.pods.cpx.find? (fun i => i.seq == seq && i.core / 9 == p.val) = some i → i.ran = some r → s.dev.cpxOrderHolds i = false →
    exec (.cpxRecordWrite p seq false) s = .next (s.on <| (s.dev.cpxRecord i r false).slotsShow)) ∧
  (∀ (init : Initiator) (p : Fin 12) (value : Word) (s : State),
    s.dev.holeFor init (rCPX_CTL p) = false → s.dev.hostDown init = false → s.dev.domOn (3 * p.val + 2) = true →
    nextAnd (exec (.cpxCtlWrite init p value) s) fun t =>
      (∀ u : Fin 3, t.dev.cpxEnabled p u = if value.toNat.testBit (16 + u) then value.toNat.testBit u else s.dev.cpxEnabled p u) ∧
      t.dev.mem = s.dev.mem ∧ t.dev.cores = s.dev.cores ∧ t.sec = s.sec)

/-- A convolutional encoder gives one bit per input bit and generator, and a message in two parts is the first part's output, then the second's
from the state the first leaves: its last CL − 1 inputs. The record of CONV_ENC counts the coded bits: as many as NPOLY gives for the BITS
input bits, the CL − 1 tail bits included where the code is not tail-biting. -/
def Obligations.ConvolutionalEncoderLength : Prop :=
  (∀ (cl : Nat) (gens : List Nat) (st : Nat) (u : List Bool), (convEnc cl gens st u).length = u.length * gens.length) ∧
  (∀ (cl : Nat) (gens : List Nat) (u v : List Bool), 0 < cl →
    convEnc cl gens 0 (u ++ v) = convEnc cl gens 0 u ++ convEnc cl gens (convTail cl u) v) ∧
  (∀ (ds : List Byte) (io : Io),
    let bits := leAt ds 20 2
    let u := unpackBits bits (io.read 32 (addrAt ds 32) (ceilDiv bits 8)).2
    let steps := if bitAt (leAt ds 16 1) 0 then u.length else u.length + (leAt ds 17 1 - 1)
    (convEncBody ds io).2 = ⟨0, 1, steps * leAt ds 18 1 % 2 ^ 32⟩)

/-! ### Host interface -/

/-- Doorbells: an index below the depth is taken; one at or beyond it leaves the index as it was and counts in BADDB (R67). A head doorbell releases the slots up to it and lets the vector be raised anew. -/
def Obligations.DoorbellRules : Prop :=
  (∀ (init : Initiator) (pair : Fin 80) (value : Word) (s : State),
    let q := pairIx pair
    let r := s.dev.busWr init (rHIF_CQn_SQ_TAIL q) value.toNat
    ∀ cmds, r.2 = .yes cmds →
      (r.1.rf (HIF_CQn_SQ_TAIL q) < s.dev.sqDepth q → exec (.sqDoorbell init pair value) s = .next (s.on <| r.1)) ∧
      (s.dev.sqDepth q ≤ r.1.rf (HIF_CQn_SQ_TAIL q) → nextAnd (exec (.sqDoorbell init pair value) s) fun t =>
        t.dev.rf (HIF_CQn_SQ_TAIL q) = s.dev.rf (HIF_CQn_SQ_TAIL q) ∧
        t.dev.rf (HIF_CQn_BADDB q) = (r.1.rf (HIF_CQn_BADDB q) + 1) % 2 ^ 32)) ∧
  (∀ (init : Initiator) (pair : Fin 80) (value : Word) (s : State),
    let q := pairIx pair
    let r := s.dev.busWr init (rHIF_CQn_CQ_HEAD q) value.toNat
    let n := (r.1.rf (HIF_CQn_CQ_HEAD q) + r.1.cqDepth q - s.dev.rf (HIF_CQn_CQ_HEAD q)) % r.1.cqDepth q
    ∀ cmds, r.2 = .yes cmds → r.1.rf (HIF_CQn_CQ_HEAD q) < s.dev.cqDepth q →
      exec (.cqHeadDoorbell init pair value) s = .next (s.on <| (((r.1.updQp q fun x => { x with raised := false, posted := x.posted.drop n }).showFull q).countTrigger q).flush q))

/-- A fetched entry that fails a check of R74 is owed a completion with that check's status and has no other effect; a good one waits to
run and enters the tag window; SQ_HEAD moves past it either way. Enabling a pair whose rings lie in the window starts it; rings outside leave it disabled, with IGNORED_WRITE; clearing ENABLE
stops it. A pair enabled again while it is still stopping starts when it has stopped. -/
def Obligations.FetchAndEnableRules : Prop :=
  (∀ (q : Fin 16) (entry : List Byte) (single : BitVec 16) (s : State), s.dev.hasEntry q = true → s.dev.mirrors = false →
    (match opInfo (leAt entry 0 2) with | some o => if o.two then 2 else 1 | none => 1) ≤ s.dev.cqRoom q →
    s.dev.adoptNext = none → myTurn 16 s.dev.hif.rrCmd q (s.dev.mayFetch single) = true →
    exec (.commandFetch q (entry, single)) s = .next (s.on <| ({ (s.dev.pastEntry q).takeEntry q entry with hif.rrCmd := (q.val + 1) % 16 }.recAdd 1 (leAt entry 7 1 % 4) 0 none).flush q) ∧
    (∀ st, entryRefusal entry = some st → (s.dev.pastEntry q).takeEntry q entry =
      (s.dev.pastEntry q).updQp q fun x => { x with running := x.running ++ [⟨(parseCmd q entry).1, opRefused, true, 0, false, 0, false, false, some ⟨st, []⟩, false⟩] })) ∧
  (∀ (init : Initiator) (pair : Fin 80) (value : Word) (s : State),
    let q := pairIx pair
    let f := HIF_CQn_CTL_ENABLE q
    let r := s.dev.busWr init (rHIF_CQn_CTL q) value.toNat
    ∀ cmds, r.2 = .yes cmds →
      (s.dev.flag f = false → r.1.flag f = true → r.1.ringsOk q = true →
        exec (.queueEnable init pair value) s = .next (s.on <| if (r.1.qp q).stopping then r.1 else (r.1.pairStart q).flush q)) ∧
      (s.dev.flag f = false → r.1.flag f = true → r.1.ringsOk q = false →
        exec (.queueEnable init pair value) s = .next (s.on <| (r.1.setFlag f false).regErr .ignored (rHIF_CQn_CTL q) init)) ∧
      (s.dev.flag f = true → r.1.flag f = false →
        exec (.queueDisable init pair value) s = .next (s.on <| r.1.pairStop q)))

/-- Interrupt timer, event backlog, held results and the PCIe reset. After a PCIe reset nothing is written to host memory until a pair is enabled again. -/
def Obligations.HostInterfaceEvents : Prop :=
  (∀ s : State,
    (∀ (pair : Fin 80) (t0 : Nat) (b : Bool) (l : List (Nat × Bool)), (s.dev.qp (pairIx pair)).posted = (t0, b) :: l →
      s.dev.rf (HIF_CQn_COAL_TIME (pairIx pair)) ≠ 0 → (s.dev.qp (pairIx pair)).raised = false →
      exec (.msixCoalTimer pair) s = .next (s.on <| (s.dev.advanceTo (t0 + usT (s.dev.rf (HIF_CQn_COAL_TIME (pairIx pair))))).raiseVector (pairIx pair))) ∧
    (∀ (e : Event) (l : List Event), s.dev.hif.backlog = e :: l → s.dev.pairServes 0 = true → s.dev.evOut < 8 →
      0 < s.dev.cqFree 0 → s.dev.domOn 76 = true →
      exec .eventBacklogPost s = .next (s.on <| { s.dev with hif.backlog := l }.postEvent e)) ∧
    (∀ (m : Fin 64) (c : UpCmpl) (l : List UpCmpl), (s.dev.qp (64 + m.val)).held = c :: l → 0 < s.dev.cqFree (64 + m.val) →
      exec (.upCompletionRelease m) s = .next (s.on <| (s.dev.updQp (64 + m.val) fun x => { x with held := l }).postUp m c)) ∧
    (s.dev.domOn 76 = true → nextAnd (exec .pcieReset s) fun t => t.dev.hif.closed = true ∧ t.dev.hif.msix = [] ∧ t.sec = s.sec ∧
      t.dev.mem = s.dev.mem)) ∧
  (∀ (d : Dev) (a q tag : Nat) (bs : List Byte) (c : Cmpl) (dup : Bool), d.hif.closed = true →
    d.hostWrite a bs = d ∧ (d.postCmpl q tag c dup).hif.mem = d.hif.mem)

/-- A command of the device: what each device, plan and weight command does once its own checks pass. -/
def Obligations.DeviceCommands : Prop :=
  ∀ (c : PqCmd) (s : State),
    let d := s.began c
    (s.ready 0x0101 c = true → exec (.deviceInfo c) s = .next (s.on <| d.finR c
      [d.reg rMGT_CHIP_ID, d.fw.version, d.rf SEC_BOOT_STS_FW_SLOT, d.rf MGT_TWIN_STS_ROLE, d.coresInService])) ∧
    (s.ready 0x0102 c = true → pp c 0 ≤ 1 → d.fw.restart = none →
      exec (.deviceRestart c) s = .next (s.on <| { d with fw.restart := some (pp c 0, d.now + msT 1) }.fin c okS)) ∧
    (∀ r, s.ready 0x0102 c = true → pp c 0 ≤ 1 → d.fw.restart = some r →
      exec (.deviceRestart c) s = .next (s.on (d.fin c okS))) ∧
    (s.ready 0x0103 c = true → pp c 2 / 32 = 0 ∨ d.obOk (pAddr c 0) (32 * (pp c 2 / 32)) = true →
      let n := min (pp c 2 / 32) d.fw.health.length
      exec (.healthRead c) s = .next (s.on <| (d.hostWrite (pAddr c 0) ((d.fw.health.drop (d.fw.health.length - n)).flatMap HealthRec.bytes)).finR c [n, d.fw.health.length])) ∧
    (s.ready 0x0104 c = true → pp c 0 ≤ 63 → pp c 1 ≤ 1 → pp c 2 + pp c 3 ≤ 256 → 0 < pp c 3 →
      exec (.upqBind c) s = .next (s.on <| { d with
        fw.bind := (upTo (pp c 3)).foldl (fun t i => Tab.put t (256 * pp c 1 + pp c 2 + i) (pp c 0)) d.fw.bind }.fin c okS)) ∧
    (s.ready 0x0104 c = true → pp c 3 = 0 → exec (.upqBind c) s = .next (s.on (d.fin c okS))) ∧
    (s.ready 0x0105 c = true → pp c 0 < 128 →
      exec (.eventMask c) s = .next (s.on <| { d with hif.evMask := pp c 0 }.finR c [d.hif.evMask])) ∧
    (s.ready 0x0106 c = true → exec (.echo c) s = .next (s.on <| d.finR c ((c.params.take 6).map (·.toNat))))

/-- A command row acts only on the next command of its queue; a STANDBY answers a command neither marked S nor mirrored to it
with TWIN_NOT_READY. -/
def Obligations.CommandRowsActInOrder : Prop :=
  ∀ (c : PqCmd) (s : State) (op : Nat) (f : Dev → Dev),
    ((∀ r, s.dev.pqNext c.queue.val = some r → ¬ (r.opcode = op ∧ r.cmd = c)) → s.pq op c f = .next s) ∧
    (∀ r, s.dev.pqNext c.queue.val = some r → r.opcode = op → r.cmd = c → s.dev.rf MGT_TWIN_STS_ROLE = 2 →
      standbyTakes op r.ghost = false → s.pq op c f = .next (s.on <| s.dev.complete c.queue.val c.tag.toNat twinNotReady []))

/-- Plans: records are taken or refused one by one, and the post waits for its graph; a cancelled plan loses its records. Weights: a set that fits is copied into new central-buffer handles; a handle no live plan names is freed.
At the seal firmware takes the HARQ slots of the plan's records, notes which get none, and places its graphs: each is admitted whole or refused whole, and every waiting
PLAN_POST is answered; a STANDBY places none. -/
def Obligations.PlanAndWeightCommands : Prop :=
  (∀ (c : PqCmd) (recs : List Byte) (s : State),
    let d := s.began c
    let n := c.timeline.toNat
    let air := c.target.toNat
    let p := (d.plan n air).getD ⟨n, air, [], [], false, []⟩
    let x := d.takeRecs n recs (upTo (pp c 2)) p.recs 0 0 (2 ^ 32 - 1)
    (s.ready 0x0301 c = true → d.badTarget c = false → 0 < pp c 2 → d.obOk (pAddr c 0) (32 * pp c 2) = true →
      d.fetchedLate c = false → d.hif.closed = false →
      exec (.planPost c recs) s = .next (s.on <| d.setPlan { p with recs := x.1, posts := p.posts ++ [⟨c.queue.val, c.tag.toNat, x.2.1, x.2.2.1, x.2.2.2⟩] })) ∧
    (s.ready 0x0301 c = true → d.badTarget c = false → 0 < pp c 2 → d.obOk (pAddr c 0) (32 * pp c 2) = true →
      d.fetchedLate c = true → exec (.planPost c recs) s = .next (s.on <| d.fin c deadlineDropped)) ∧
    (s.ready 0x0301 c = true → d.badTarget c = false → pp c 2 = 0 → d.fetchedLate c = false →
      exec (.planPost c recs) s = .next (s.on <| d.finR c [0, 0, 2 ^ 32 - 1, 0])) ∧
    (s.ready 0x0301 c = true → d.badTarget c = true → exec (.planPost c recs) s = .next (s.on <| d.fin c badParam)) ∧
    (s.ready 0x0302 c = true → d.badTarget c = true → exec (.planCancel c) s = .next (s.on <| d.fin c badParam)) ∧
    (s.ready 0x0302 c = true → d.badTarget c = false →
      (d.plan n air = none → exec (.planCancel c) s = .next (s.on <| d.finR c [0])) ∧
      (∀ q, d.plan n air = some q →
        (q.built = true → exec (.planCancel c) s = .next (s.on <| d.fin c busyS)) ∧
        (q.built = false → exec (.planCancel c) s = .next (s.on <| (d.setPlan { q with recs := [] }).finR c [q.recs.length]))))) ∧
  (∀ (c : PqCmd) (data : List Byte) (s : State),
    let d := s.began c
    let len := pp c 2
    (∀ d1 f, s.ready 0x0303 c = true → pp c 3 < 1024 → 0 < len → len ≤ 2 ^ 26 → d.obOk (pAddr c 0) len = true →
      (upTo 8).all (fun b => !d.domOn (67 + b)) = false → Tab.find d.fw.weights (pp c 3) = none → d.weightNamed (pp c 3) = false → d.hif.closed = false →
      d.cbfAlloc (ceilDiv len 4096) none = (d1, some f) →
      let a := cbufBase + 4096 * f
      let w := d1.busWrite 17 none a ((upTo len).map fun i => nth 0 data i)
      w.2 = true → exec (.weightsLoad c data) s = .next (s.on <| { w.1 with fw.weights := Tab.put w.1.fw.weights (pp c 3) f }.finR c [a % 2 ^ 32, a / 2 ^ 32])) ∧
    (∀ f, s.ready 0x0304 c = true → Tab.find d.fw.weights (pp c 0) = some f → d.weightNamed (pp c 0) = false →
      exec (.weightsFree c) s = .next (s.on <| ({ d with fw.weights := Tab.del d.fw.weights (pp c 0) }.cbfFree f).fin c okS))) ∧
  (∀ (n : Fin 4) (air : BitVec 16) (s : State) (p : Plan), s.dev.plan n air.toNat = some p → p.built = false →
    ahead (s.dev.refK n) air.toNat ≤ 2 → s.dev.postWaits n air.toNat = false →
    let d0 := s.dev.setPlan { p with built := true, posts := [] }
    let ds0 := p.recs.foldl Dev.softFor d0
    let ds := ds0.setPlan { p with built := true, posts := [], bare := (p.recs.filter ds0.noSoft).map (·.alloc) }
    (s.dev.flag WDS_CTL_ENABLE = false → ∀ graphs, exec (.graphBuild n air graphs) s =
      .next (s.on <| p.posts.foldl (fun d x => d.complete x.queue x.tag busyS [0, x.refused, x.first, 0]) d0)) ∧
    (s.dev.flag WDS_CTL_ENABLE = true → exec (.graphBuild n air []) s =
      .next (s.on <| p.posts.foldl (fun d x => d.complete x.queue x.tag okS [x.accepted, x.refused, x.first, 0]) ds)) ∧
    (s.dev.rf MGT_TWIN_STS_ROLE = 2 → ∀ graphs, exec (.graphBuild n air graphs) s = exec (.graphBuild n air []) s) ∧
    (s.dev.flag WDS_CTL_ENABLE = true → s.dev.rf MGT_TWIN_STS_ROLE ≠ 2 → ∀ g, graphFor n.val air.toNat g = true →
      let y := ds.admitGraph false (ds.fillGraph (ds.grants p) g)
      (y.2 = true → exec (.graphBuild n air [g]) s = .next (s.on <| p.posts.foldl (fun d x =>
        d.complete x.queue x.tag okS [x.accepted, x.refused, x.first, leAt (ds.fillGraph (ds.grants p) g) 0 2]) y.1)) ∧
      (y.2 = false → exec (.graphBuild n air [g]) s = .next (s.on <|
        (p.posts.foldl (fun d x => d.complete x.queue x.tag internalS []) y.1).health 4 7 (n.val + 256 * air.toNat)))))

/-- The records a PLAN_POST takes are at most 2,048, each allocation once, and every record is taken or refused. -/
def Obligations.PlanRecordsAreCounted : Prop :=
  ∀ (d : Dev) (n : Nat) (b : List Byte) (is : List Nat) (l : List PlanRec) (a r f : Nat),
    l.length ≤ 2048 → (l.map (·.alloc)).Nodup →
    let x := d.takeRecs n b is l a r f
    x.1.length ≤ 2048 ∧ (x.1.map (·.alloc)).Nodup ∧ x.2.1 + x.2.2.1 = a + r + is.length ∧ x.1.length = l.length + (x.2.1 - a) ∧ l <+: x.1

/-- User-plane entries: a good buffer waits for results; a good block is moved and its event owed; the first block landed raises it. A decoded block goes to the oldest buffer that holds it, or is counted in OVERFLOW and reported without one; NO_SOFT_BUFFER is set where its jobs were built without one. -/
def Obligations.UserPlaneRules : Prop :=
  (∀ (m : Fin 64) (entry data : List Byte) (dst : BitVec 40) (s : State),
    let d1 : Dev := { s.dev.pastEntry (64 + m) with hif.rrUp := (m + 1) % 64 }
    (s.dev.hasUpEntry m = true → myTurn 64 s.dev.hif.rrUp m s.dev.hasUpEntry = true →
      (leAt entry 0 1 = 2 → upBad entry = false → leAt entry 1 1 = 0 → leAt entry 4 2 = 0xFFFF → leAt entry 6 2 = 0 → leAt entry 16 4 ≠ 0 →
        d1.obOk (leAt entry 8 8) (leAt entry 16 4) = true →
        exec (.ulBuf m entry) s = .next (s.on <| d1.updQp (64 + m) fun x =>
          { x with ulbufs := x.ulbufs ++ [⟨leAt entry 2 2, leAt entry 8 8, leAt entry 16 4⟩] })) ∧
      (leAt entry 0 1 = 2 → upBad entry = false → leAt entry 1 1 = 0 → leAt entry 4 2 = 0xFFFF → leAt entry 6 2 = 0 → leAt entry 16 4 = 0 →
        exec (.ulBuf m entry) s = .next (s.on <| d1.up m (leAt entry 2 2) okS 0x85 0 (upBody [(8, 4, 0)]))) ∧
      (leAt entry 0 1 = 0 ∨ 3 < leAt entry 0 1 → exec (.dlTb m entry data dst) s = .next (s.on <| d1.up m (leAt entry 2 2) badParam 0x87 0 (upBody [(8, 1, leAt entry 0 1)]))) ∧
      (∀ r, leAt entry 0 1 = 1 → d1.planRec (leAt entry 20 1 % 4) (leAt entry 6 2) (leAt entry 4 2) = some r → upBad entry = false →
        r.cc = leAt entry 1 1 → r.dir = 0 → leAt entry 16 4 = ceilDiv r.tbs 8 → d1.obOk (leAt entry 8 8) (leAt entry 16 4) = true →
        d1.marrow.cfg.mask = 0 →
        nextAnd (exec (.dlTb m entry data dst) s) fun t => ∃ w,
          w = (d1.busWrite 17 (some (leAt entry 20 1 % 4, (leAt entry 6 2 + 65535) % 65536)) dst.toNat
            ((upTo (leAt entry 16 4)).map fun i => nth 0 data i)).1 ∧
          t = (s.on <| { w with hif.landing := w.hif.landing ++
            [(leAt entry 20 1 % 4, (leAt entry 6 2 + 65535) % 65536, leAt entry 4 2)] }.up m (leAt entry 2 2) okS 0x81 0
              (upBody [(8, 2, leAt entry 4 2), (10, 2, leAt entry 6 2), (12, 1, leAt entry 1 1)])))) ∧
    (∀ n job alloc l, s.dev.hif.landing = (n, job, alloc) :: l →
      exec .hostDataLanded s = .next (s.on <| { s.dev with hif.landing := l }.raiseEvent n job alloc))) ∧
  (∀ (n : Fin 4) (air : BitVec 16) (alloc : Fin 2048) (crcOk : Bool) (iters : Byte) (cbs fails : BitVec 16) (data : List Byte) (s : State)
    (r : PlanRec), s.dev.planRec n air.toNat alloc = some r → r.dir = 1 →
    s.dev.wds.reported.contains ⟨n.val, (air.toNat + 1) % 65536, 1, r.cc, alloc.val⟩ = false →
    let len := ceilDiv r.tbs 8
    let fl := 2 * b2n crcOk + 8 * b2n (s.dev.bareAlloc n air.toNat alloc)
    let body (k : Nat) := upBody [(8, 2, alloc.val), (10, 2, air.toNat), (12, 1, r.cc), (13, 1, n.val), (14, 1, r.harq), (15, 1, iters.toNat),
      (16, 4, k), (20, 2, cbs.toNat), (22, 2, fails.toNat)]
    (∀ b rest, takeBuf (s.dev.qp (64 + r.upq)).ulbufs len = some (b, rest) →
      (s.dev.upRoom r.upq = true → exec (.ulTbResult n air alloc crcOk iters cbs fails data) s = .next (s.on <|
        ((s.dev.updQp (64 + r.upq) fun x => { x with ulbufs := rest }).hostWrite b.addr ((upTo len).map fun i => nth 0 data i)).up r.upq b.tag
          okS 0x82 fl (body len) ((upTo len).map fun i => nth 0 data i))) ∧
      (s.dev.upRoom r.upq = false → exec (.ulTbResult n air alloc crcOk iters cbs fails data) s = .next (s.on <| s.dev.up r.upq b.tag okS 0x82 fl (body 0)))) ∧
    (takeBuf (s.dev.qp (64 + r.upq)).ulbufs len = none →
      (s.dev.upRoom r.upq = true → exec (.ulTbResult n air alloc crcOk iters cbs fails data) s =
        .next (s.on <| (s.dev.bump (HIF_UPQm_OVERFLOW r.upq)).up r.upq 0xFFFF okS 0x82 (fl + 4) (body 0))) ∧
      (s.dev.upRoom r.upq = false → exec (.ulTbResult n air alloc crcOk iters cbs fails data) s =
        .next (s.on <| s.dev.up r.upq 0xFFFF okS 0x82 (fl + 4) (body 0)))))

/-- HARQ slots (R217). A write of OP = 1 that reaches the register takes the slot MEM_HARQ_p_SLOT names, free and below COUNT, and with it shows one free slot
less; OP = 2 frees a used one. A HARQ slot taken by a write of OP is marked used and its header zeroed; a used one is freed. Taking a slot: used afterwards, its 64 header bytes zero, unless the slot number is beyond COUNT or used, which REFUSED counts. -/
def Obligations.HarqRules : Prop :=
  (∀ (init : Initiator) (p : Fin 2) (value : Word) (s : State),
    let r := s.dev.busWr init (rMEM_HARQ_p_OP p) value.toNat
    let i := s.dev.rf (MEM_HARQ_p_SLOT p)
    (s.dev.holeFor init (rMEM_HARQ_p_OP p) = false → s.dev.hostDown init = false → s.dev.domOn 78 = true → s.dev.mem.harq.length = 2 → i < s.dev.rf (MEM_HARQ_p_COUNT p) → value.toNat / 2 ^ 16 % 4 = 3 →
      let l := nth [] s.dev.mem.harq p
      (bitsAt value.toNat 0 2 = 1 → i ∉ l → ∀ proc, nextAnd (exec (.harqSlotAlloc init p value proc) s) fun t =>
        nth [] t.dev.mem.harq p = i :: l ∧ nth [] t.dev.mem.harq (1 - p.val) = nth [] s.dev.mem.harq (1 - p.val) ∧
        t.dev.rf (MEM_HARQ_p_REFUSED p) = s.dev.rf (MEM_HARQ_p_REFUSED p) ∧ t.dev.cores = s.dev.cores ∧ t.sec = s.sec) ∧
      (bitsAt value.toNat 0 2 = 2 → i ∈ l → nextAnd (exec (.harqSlotFree init p value) s) fun t =>
        nth [] t.dev.mem.harq p = l.filter (· != i) ∧ nth [] t.dev.mem.harq (1 - p.val) = nth [] s.dev.mem.harq (1 - p.val) ∧
        t.dev.rf (MEM_HARQ_p_REFUSED p) = s.dev.rf (MEM_HARQ_p_REFUSED p) ∧ t.dev.mem.cells = s.dev.mem.cells ∧ t.dev.cores = s.dev.cores ∧ t.sec = s.sec)) ∧
    ∀ cmds, r.2 = .yes cmds →
      (bitsAt cmds 0 2 = 1 → exec (.harqSlotAlloc init p value none) s = .next (s.on <| (r.1.harqAlloc p i).1)) ∧
      (bitsAt cmds 0 2 = 2 → nextAnd (exec (.harqSlotFree init p value) s) fun t => t.dev.mem = (r.1.harqFree p i).1.mem ∧
        ∀ k l, (k, l) ∈ t.dev.fw.soft → (p.val, i) ∉ l)) ∧
  (∀ (d : Dev) (p : Fin 2) (i : Nat), d.mem.harq.length = 2 →
    (i < d.rf (MEM_HARQ_p_COUNT p) → i ∉ nth [] d.mem.harq p →
      (d.harqAlloc p i).2 = true ∧ nth [] (d.harqAlloc p i).1.mem.harq p = i :: nth [] d.mem.harq p) ∧
    (d.rf (MEM_HARQ_p_COUNT p) ≤ i ∨ i ∈ nth [] d.mem.harq p →
      d.harqAlloc p i = (d.bump (MEM_HARQ_p_REFUSED p), false)))


/-- A completion of a command pair, and an event, change rings, the pair's registers, host memory and health records alone: cores, dispatcher,
memory, timelines, staged effects and groups, power and twins stand, and so does every register outside the host interface. -/
def Obligations.AnswersLeaveTheDevice : Prop :=
  ∀ (d : Dev) (q : Fin 16) (tag st : Nat) (res : List Nat) (cls code a b c : Nat),
    (let t := d.complete q tag st res
     t.cores = d.cores ∧ t.wds = d.wds ∧ t.mem = d.mem ∧ t.tls = d.tls ∧ t.txns = d.txns ∧ t.fw.staged = d.fw.staged ∧ t.pmu = d.pmu ∧ t.twin.attach = d.twin.attach ∧
     t.now = d.now ∧ t.lyr = d.lyr ∧ ∀ off, 0x400000 ≤ off → t.reg off = d.reg off) ∧
    (let t := d.event cls code a b c
     t.cores = d.cores ∧ t.wds = d.wds ∧ t.mem = d.mem ∧ t.tls = d.tls ∧ t.txns = d.txns ∧ t.fw.staged = d.fw.staged ∧ t.pmu = d.pmu ∧ t.twin.attach = d.twin.attach ∧
     t.now = d.now ∧ t.lyr = d.lyr ∧ ∀ off, 0x400000 ≤ off → t.reg off = d.reg off)

/-! ### Work dispatcher -/

/-- A hand-out takes the job and core the decision chose: the job runs there, S0 and S1 name it, and the core waits no longer. (A core
that waits has sent no coprocessor instruction ahead: WAITJOB is serialising.) -/
def Obligations.HandoutRule : Prop :=
  ∀ (s : State) (slot c : Nat) (j : Job), s.dev.choose = some (slot, c) → s.dev.job slot = some j →
    (s.dev.core c).tent = [] → c < 108 → slot < 2 ^ 14 → j.desc.tl < 4 → j.desc.period < 2 ^ 16 →
    exec .handout s = .next (s.on <| s.dev.handTo slot c) ∧
    ((s.dev.handTo slot c).core c).job = some slot ∧
    (((s.dev.handTo slot c).core c).getS 0).toNat = slot + 2 ^ 14 * j.desc.tl ∧
    (((s.dev.handTo slot c).core c).getS 1).toNat = j.desc.period ∧
    (s.dev.handTo slot c).coreState c = 1 ∧
    (∀ b, b ≠ c → (s.dev.handTo slot c).core b = s.dev.core b)

/-- The dispatcher's other events: a grace expiry widens the affinity step; a flow without admitted jobs for a full period loses its last
core; pods are released in order; a job that has not ended four periods after its period expired makes its core hung, and the recovery
resets it and, passed, unmasks it. Register writes of the dispatcher: WDS_CTL = 0 is discarded while a timeline is enabled; a pod's mode and a pod's core mask act at
once and are logged; in the mask a hung declaration of the same cycle wins. -/
def Obligations.DispatcherRowRules : Prop :=
  (∀ s : State,
    (∀ (slot : Fin 16384) (j : Job), s.dev.job slot = some j → j.state = .ready → j.eligAt.isSome = true → j.step < 2 →
      exec (.graceExpiry slot) s = .next (s.on <|
        (s.dev.ticks (ceilDiv (j.eligCyc + (j.step + 1) * s.dev.rf WDS_GRACE - s.dev.wdsCycle) 3)).setJob slot { j with step := j.step + 1 })) ∧
    (∀ (flow : Fin 65536) (n k : Nat), (s.dev.flow flow).idle = some (n, k) → (s.dev.tl n).started = true → k + 2 ≤ (s.dev.tl n).k →
      s.dev.wds.jobs.vals.all (fun j => j.desc.flow != flow.val) = true →
      nextAnd (exec (.flowAffinityReset flow) s) fun t => (t.dev.flow flow).last = none ∧ t.dev.cores = s.dev.cores ∧ t.dev.mem = s.dev.mem) ∧
    (∀ (p : Fin 12) (n : Fin 4), (s.dev.tl n).started = true → (s.dev.tl n).released.contains p.val = false →
      (upTo p.val).all (s.dev.tl n).released.contains = true →
      nextAnd (exec (.podRelease p n) s) fun t => (t.dev.tl n).released = (s.dev.tl n).released ++ [p.val] ∧
        (∀ m, m ≠ n.val → t.dev.tl m = s.dev.tl m) ∧ t.dev.cores = s.dev.cores) ∧
    (∀ (c : Fin 108) (sl : Nat) (j : Job), (s.dev.core c).job = some sl → s.dev.job sl = some j → j.state = .stop →
      j.stopK + 4 ≤ s.dev.gridIndex j.desc.tl s.dev.now →
      exec (.hungCoreDeclare c) s = .next (s.on <| s.dev.declareHung c sl j)) ∧
    (∀ (c : Fin 108) (n k : Nat), s.dev.wds.hung.contains c.val = true → Tab.find s.dev.wds.hungAt c.val = some (n, k, false) →
      exec (.hungCoreRecovery c true) s = .next (s.on <| (s.dev.coreReset c).setMask c false) ∧
      exec (.hungCoreRecovery c false) s = .next (s.on <| s.dev.coreReset c))) ∧
  (∀ (init : Initiator) (p : Fin 12) (value : Word) (s : State) (cmds : Nat),
    (let r := s.dev.busWr init rWDS_CTL value.toNat
     r.2 = .yes cmds →
      (r.1.flag WDS_CTL_ENABLE = true ∨ s.dev.anyTl = false → exec (.wdsEnableWrite init value) s = .next (s.on <| r.1.wdsSettle)) ∧
      (s.dev.anyTl = true → nextAnd (exec (.wdsEnableWrite init value) s) fun t =>
        t.dev.flag WDS_CTL_ENABLE = true ∨ s.dev.flag WDS_CTL_ENABLE = false)) ∧
    (let r := s.dev.busWr init (rWDS_PODn_CTL p) value.toNat
     r.2 = .yes cmds → r.1.podMode p ≠ s.dev.podMode p →
      exec (.podModeWrite init p value) s = .next (s.on <| (r.1.logPod 0x06 0xFF 0 0 0).wdsSettle)) ∧
    (∀ hw : BitVec 9, let f := WDS_PODn_CORES_CORE_MASK p
     let r := s.dev.busWr init (rWDS_PODn_CORES p) value.toNat
     r.2 = .yes cmds →
      nextAnd (exec (.coreMaskWrite init p value hw) s) fun t =>
        t.dev.rf f = r.1.rf f ||| hw.toNat ∧ t.dev.cores = s.dev.cores ∧ t.dev.mem = s.dev.mem ∧ t.sec = s.sec))

/-! ### Timelines and time -/

/-- Timelines: a rising ENABLE over a valid grid starts one, over any other is discarded with IGNORED_WRITE; a falling one stops it; the
commands that set and enable one act once their own checks pass; a boundary's event happens when TMU time reaches its instant. -/
def Obligations.TimelineRules : Prop :=
  ∀ s : State,
    (∀ (init : Initiator) (n : Fin 4) (value : Word) (cmds : Nat),
      let f := TMU_TLn_CTL_ENABLE n
      let r := s.dev.busWr init (rTMU_TLn_CTL n) value.toNat
      r.2 = .yes cmds →
        (s.dev.flag f = false → r.1.flag f = true → s.dev.gridValid n = true →
          exec (.timelineEnableWrite init n value) s = .next (s.on <| r.1.timelineStart n)) ∧
        (s.dev.flag f = false → r.1.flag f = true → s.dev.gridValid n = false →
          exec (.timelineEnableWrite init n value) s = .next (s.on <| (r.1.setFlag f false).regErr .ignored (rTMU_TLn_CTL n) init)) ∧
        (s.dev.flag f = true → r.1.flag f = false →
          exec (.timelineDisableWrite init n value) s = .next (s.on <| r.1.timelineStop n))) ∧
    (∀ c : PqCmd, let d := s.began c; let n := pp c 0
      (s.ready 0x0504 c = true → n < 4 → d.tlOn n = false → gridOk (pp c 1) (pp c 2) (pp c 3) (pp c 4) = true →
        exec (.timelineSet c) s = .next (s.on <| ((((d.wf (TMU_TLn_CFG_KIND n) (pp c 1)).wf (TMU_TLn_PERIOD n) (pp c 2)).wf
          (TMU_TLn_DEN n) (pp c 3)).wf (TMU_TLn_OFFSET n) (pp c 4)).fin c okS)) ∧
      (s.ready 0x0505 c = true → n < 4 → pp c 1 = 1 → d.flag (TMU_TLn_CTL_ENABLE n) = false → d.gridValid n = true →
        nextAnd (exec (.timelineEnable c) s) fun t => t.dev.flag (TMU_TLn_CTL_ENABLE n) = true ∧
          (t.dev.tl n).enWait = (d.tl n).enWait ++ [(c.queue.val, c.tag.toNat)] ∧ t.dev.cores = s.dev.cores ∧ t.dev.mem = s.dev.mem)) ∧
    (∀ (n k t : Nat), s.dev.nextBoundary = some (n, k, t) →
      ((s.dev.armedOf n).any fun p => (s.dev.txn p.1).writes.any TxnWrite.applies) = false → s.dev.tmu.applyDue = [] →
      exec .boundaryEvent s = .next ((s.onDev fun d => { d.advanceTo t with free := d.free + 1 }).boundary n k true (Config.commitHw s.dev.free)))

/-- The boundary event makes its period the timeline's current one: the timeline has started, PNUM shows k, pod 0 is released, the enable
commands that waited wait no longer. -/
def Obligations.BoundaryMakesPeriodCurrent : Prop :=
  ∀ (s : State) (n : Fin 4) (k : Nat) (hw : List (Nat × Nat × Nat)), s.dev.fw.staged = [] → s.dev.txns = [] → s.dev.cal.arms = [] → s.dev.cal.runs = [] →
    let t := s.boundary n k true hw
    (t.dev.tl n).started = true ∧ (t.dev.tl n).k = k ∧ (t.dev.tl n).nextK = k + 1 ∧ (t.dev.tl n).released = [0] ∧
    (t.dev.tl n).enWait = [] ∧ t.dev.now = s.dev.now ∧ t.pending = s.pending ∧ t.sec = s.sec

/-- The registers and commands of the time unit: snapshots, increments, sources, SyncE, steps. Events of the time unit: the quality state, 1PPS in and out, time of day, the servo. -/
def Obligations.TimeUnitRules : Prop :=
  (∀ s : State,
    (∀ (init : Initiator) (value : Word) (cmds : Nat),
      (let r := s.dev.busWr init rTMU_SNAP_CTL value.toNat
       r.2 = .yes cmds → bitAt cmds 0 = true → exec (.tmuSnap init value) s = .next (s.on <| r.1.snap)) ∧
      (let r := s.dev.busWr init rTMU_INC_CTL value.toNat
       r.2 = .yes cmds → bitAt cmds 2 = true →
        (s.dev.flag TMU_INC_CTL_PENDING = false → s.dev.bankNear (1 - s.dev.rf TMU_INC_CTL_ACTIVE) = true →
          exec (.tmuIncArm init value) s = .next (s.on <| r.1.setFlag TMU_INC_CTL_PENDING true)) ∧
        (s.dev.flag TMU_INC_CTL_PENDING = true ∨ s.dev.bankNear (1 - s.dev.rf TMU_INC_CTL_ACTIVE) = false →
          exec (.tmuIncArm init value) s = .next (s.on <| r.1.regErr .ignored rTMU_INC_CTL init))) ∧
      (let r := s.dev.busWr init rTMU_STEP_CMD value.toNat
       let u := s.on r.1
       r.2 = .yes cmds → bitAt cmds 0 = true →
        (0 ≤ r.1.stepNs ∨ r.1.anyTl = false → exec (.tmuStepApply init value) s = .next (u.stepTime r.1.stepNs)) ∧
        (r.1.stepNs < 0 → r.1.anyTl = true → s.dev.tmu.applyDue = [] → exec (.tmuStepApply init value) s = .next (u.on <| r.1.regErr .ignored rTMU_STEP_CMD init)))) ∧
    (∀ c : PqCmd, let d := s.began c
      (s.ready 0x0501 c = true → exec (.timeGet c) s = .next (s.on <| d.snap.finR c (t128 d.now ++ [d.snap.rf TMU_QUALITY_STATE]))) ∧
      (s.ready 0x0502 c = true → pp c 0 = 2 → pp c 1 ≤ 1 → pp c 2 ≤ 3 → pp c 3 ≤ 2 →
        let d1 : Dev := { d with tmu.source := 2, tmu.profile := pp c 1, tmu.port := pp c 2, tmu.transport := pp c 3, tmu.missed := 0 }
        exec (.timeSource c) s = .next (s.on <| (d1.setQuality 0 4).fin c okS)) ∧
      (s.ready 0x0506 c = true → pp c 0 ≤ 3 → pp c 1 ≤ 1 →
        exec (.synceSet c) s = .next (s.on <| ((d.wf TMU_SYNCE_PORT (pp c 0)).wf TMU_SYNCE_EN (pp c 1)).synceCheck.fin c okS)) ∧
      (s.ready 0x0503 c = true → (toSigned 64 (pAddr c 0) < 0 ∧ s.dev.anyTl = true) →
        exec (.timeStep c) s = .next (s.on <| d.fin c badParam)) ∧
      (s.ready 0x0503 c = true → pAddr c 0 = 0 → s.dev.tmu.applyDue = [] → exec (.timeStep c) s = .next (s.on <| d.fin c okS)) ∧
      (s.ready 0x0503 c = true → pAddr c 0 ≠ 0 → s.dev.anyTl = false → s.dev.tmu.applyDue = [] →
        let by_ : Int := toSigned 64 (pAddr c 0) * 2 ^ 32
        let e : Dev := { s.dev with now := (((s.dev.now : Nat) : Int) + by_).toNat % timeMod,
                                    dfe.epoch := s.dev.dfe.epoch.map fun x => (x.1, (((x.2 : Nat) : Int) + by_).toNat) }
        0 ≤ ((s.dev.now : Nat) : Int) + by_ →
        exec (.timeStep c) s = .next (s.on <| ((s.on e).began c).fin c okS)))) ∧
  (∀ s : State,
    (∀ st reason, st < 5 → (s.dev.setQuality st reason).rf TMU_QUALITY_STATE = st ∧ (s.dev.setQuality st reason).now = s.dev.now) ∧
    (s.dev.rf TMU_QUALITY_STATE = 1 ∨ s.dev.rf TMU_QUALITY_STATE = 4 → s.dev.tmu.source ≠ 2 →
      exec (.qualityChange 1) s = .next (s.on <| s.dev.setQuality 2 1)) ∧
    (s.dev.rf TMU_QUALITY_STATE = 2 → s.dev.tmu.source ≠ 1 → (s.dev.holdInc.setQuality 3 0).rf TMU_HOLD_LIMIT ≠ 0 →
      exec (.qualityChange 0) s = .next (s.on <| s.dev.holdInc.setQuality 3 0)) ∧
    (s.dev.rf TMU_QUALITY_STATE = 1 → s.dev.tmu.source ≠ 1 → exec (.qualityChange 0) s = .next (s.on <| s.dev.setQuality 0 0)) ∧
    (∀ t0, s.dev.rf TMU_QUALITY_STATE = 3 → s.dev.tmu.holdSince = some t0 → exec (.qualityChange 2) s =
      .next (s.on <| (s.dev.advanceTo (t0 + nsT (1000000000 * s.dev.rf TMU_HOLD_LIMIT))).setQuality 0 2)) ∧
    (nextAnd (exec .ppsInEdge s) fun t => t.dev.tmu.edge = some s.dev.now ∧ t.dev.tmu.missed = 0 ∧
      t.dev.rf TMU_PPS_IN_CNT = (s.dev.rf TMU_PPS_IN_CNT + 1) % 2 ^ 32 ∧ t.dev.mem = s.dev.mem) ∧
    (∀ (format : Bool) (secs : BitVec 48) (e : Nat), s.dev.tmu.edge = some e → s.dev.flag TMU_TOD_CFG_FORMAT = format →
      e + msT 100 ≤ s.dev.now → s.dev.now ≤ e + msT 900 →
      exec (.todRxMessage format secs) s =
        .next (s.on <| { s.dev with tmu.named := some (e, secs.toNat + if format then s.dev.rf TMU_UTC_OFS else 0) })) ∧
    (s.dev.tmu.ppsFall = none → s.dev.flag TMU_PPS_OUT_EN = true → nextAnd (exec .ppsOutEdge s) fun t =>
      t.dev.tmu.ppsEdge = some t.dev.now ∧ t.dev.tmu.ppsFall = some (t.dev.now + msT (t.dev.rf TMU_PPS_OUT_WIDTH))) ∧
    (∀ f, s.dev.tmu.ppsFall = some f → exec .ppsOutEdge s = .next (s.on <| { s.dev.advanceTo f with tmu.ppsFall := none })) ∧
    (∀ e, s.dev.tmu.ppsEdge = some e → s.dev.flag TMU_TOD_CFG_TX_EN = true → nextAnd (exec .todTxSend s) fun t =>
      t.dev.tmu.ppsEdge = none ∧ t.dev.tmu.todSent = s.dev.tmu.todSent ++
        [e / nsT 1000000000 - if s.dev.flag TMU_TOD_CFG_FORMAT then s.dev.rf TMU_UTC_OFS else 0]) ∧
    (∀ behind : BitVec 64, s.dev.tmu.source = 0 → s.dev.flag TMU_INC_CTL_SRC_RC = false →
      (1000000 < behind.toInt → exec (.ptpServoUpdate behind) s = .next (s.stepTime behind.toInt)) ∧
      (behind.toInt ≤ 1000000 → s.dev.flag TMU_INC_CTL_PENDING = false → nextAnd (exec (.ptpServoUpdate behind) s) fun t =>
        t.dev.flag TMU_INC_CTL_PENDING = true ∧ t.dev.now = s.dev.now)))

/-! ### Central buffer and DDR5 -/

/-- Handles: firmware's allocation takes the lowest run that fits and marks it held; only an unbound buffer is freed. Patrol reads find
errors: one wrong bit of a word of the central buffer is corrected, two are uncorrectable; one device of an x4 channel is corrected, whatever its
beats; on an x8 channel one device is corrected within a pair of beats and detected beyond it (R339). A hot device is shown; a write of 1 to
MEM_CTL.ENABLE is taken only over ready channels. -/
def Obligations.MemoryRules : Prop :=
  ∀ s : State,
    (∀ (count : Fin 16385) (h : Nat), count.val ≠ 0 → s.dev.mem.bufs.length < 1024 → s.dev.lowestRun count = some h →
      nextAnd (exec (.cbfBufferAlloc count none) s) fun t => Tab.find t.dev.mem.bufs h = some ⟨count, none⟩ ∧
        (∀ a, a ≠ h → Tab.find t.dev.mem.bufs a = Tab.find s.dev.mem.bufs a) ∧ t.dev.mem.cells = s.dev.mem.cells ∧ t.dev.cores = s.dev.cores) ∧
    (∀ (count : Fin 16385) (n : Fin 4) (p : BitVec 16) (hold : Fin 4) (h : Nat), count.val ≠ 0 → s.dev.mem.bufs.length < 1024 →
      s.dev.lowestRun count = some h → nextAnd (exec (.cbfBufferAlloc count (some (n, p, hold))) s) fun t =>
        Tab.find t.dev.mem.bufs h = some ⟨count, some (n.val, p.toNat, hold.val)⟩) ∧
    (∀ (first : Fin 16384) (n : Nat), Tab.find s.dev.mem.bufs first = some ⟨n, none⟩ →
      nextAnd (exec (.cbfBufferFree first) s) fun t => Tab.find t.dev.mem.bufs first = none ∧
        (∀ a, a ≠ first.val → Tab.find t.dev.mem.bufs a = Tab.find s.dev.mem.bufs a) ∧ t.dev.mem.cells = s.dev.mem.cells) ∧
    (∀ (first : Fin 16384) (n : Nat) (b : Nat × Nat × Nat), Tab.find s.dev.mem.bufs first = some ⟨n, some b⟩ →
      exec (.cbfBufferFree first) s = .next s) ∧
    (∀ (addr : BitVec 40) (flaw : List (Fin 10 × Fin 72)), let l := addr.toNat / 64 * 64; let f := flaw.map fun e => (e.1.val, e.2.val)
      Tab.find s.dev.mem.flaws l = none → s.dev.poisoned addr.toNat 1 = false →
      let d1 : Dev := { s.dev with mem.flaws := Tab.del (Tab.put s.dev.mem.flaws l f) l }
      (∀ off w b, placeOf addr.toNat = .cbuf off → s.dev.domRun (67 + off / 4096 / 2048) = true → f = [(w, b)] → w < 8 →
        exec (.scrubRead addr flaw) s = .next (s.on <| d1.memError l w false)) ∧
      (∀ off w b b', placeOf addr.toNat = .cbuf off → s.dev.domRun (67 + off / 4096 / 2048) = true → f = [(w, b), (w, b')] → b ≠ b' → w < 8 →
        exec (.scrubRead addr flaw) s = .next (s.on <| d1.memError l w true)) ∧
      (∀ x k v, placeOf addr.toNat = .ddr x → s.dev.ddrChannel x = some k → s.dev.rf MEM_SCRUB_HOURS ≠ 0 → s.dev.domRun (63 + k) = true →
        x / 64 * 64 + 64 ≠ (if s.dev.rf MEM_CTL_MODE = 0 then 4 * s.dev.chSize 0 - 4096 * (3 - k) else 0x0800000000 * k + s.dev.chSize k) →
        placeOf l = .ddr (x / 64 * 64) → s.dev.ddrChannel (x / 64 * 64) = some k →
        (f ≠ [] → (∀ e ∈ f, e.1 = v) → s.dev.rf (MEM_CHk_CFG_WIDTH k) = 1 →
          exec (.scrubRead addr flaw) s = .next (s.on <| d1.memError l v false)) ∧
        (∀ b, f = [(v, b)] → exec (.scrubRead addr flaw) s = .next (s.on <| d1.memError l v false)) ∧
        (∀ b b', f = [(v, b), (v, b')] → b ≠ b' → s.dev.rf (MEM_CHk_CFG_WIDTH k) = 0 →
          exec (.scrubRead addr flaw) s = .next (s.on <| d1.memError l v true)))) ∧
    (∀ k : Fin 4, s.dev.chHere k = true → s.dev.domOn (63 + k) = true →
      exec (.ddrHot k) s = .next (s.on <| s.dev.setFlag (MEM_CHk_STS_HOT k) true)) ∧
    (∀ k : Fin 4, s.dev.domOn (63 + k) = true → exec (.ddrHotClear k) s = .next (s.on <| s.dev.setFlag (MEM_CHk_STS_HOT k) false)) ∧
    (∀ (init : Initiator) (value : Word) (cmds : Nat),
      let r := s.dev.busWr init rMEM_CTL value.toNat
      r.2 = .yes cmds →
        (bitAt (value.toNat / 2 ^ 16) 0 = false ∨ bitAt value.toNat 0 = false ∨ r.1.memReady = true →
          exec (.memEnableWrite init value) s = .next (s.on <| r.1.trainSync)) ∧
        (bitAt (value.toNat / 2 ^ 16) 0 = true → bitAt value.toNat 0 = true → r.1.memReady = false →
          exec (.memEnableWrite init value) s = .next (s.on <| ((r.1.setFlag MEM_CTL_ENABLE (s.dev.flag MEM_CTL_ENABLE)).regErr .ignored rMEM_CTL init).trainSync)))

/-! ### Power -/

/-- Requests: a power state a domain may take is queued, RUN and IDLE change at once; the first entry drains its ring stop, or is refused
with its reason; a switch-on begins its ramp; its end puts the domain in RUN. -/
def Obligations.PowerRules : Prop :=
  ∀ s : State,
    (∀ c : PqCmd, let d := s.began c; let dom := pp c 0; let st := pp c 1
      (s.ready 0x0601 c = true → 76 ≤ dom → dom < 80 → st < 4 → mayTake dom st = true → d.pmuBusy dom = false → d.dom dom ≠ st →
        (d.domOn dom = true → st ≤ 1 → exec (.powerSet c) s = .next (s.on <| (d.enterState dom st).fin c okS)) ∧
        (d.domOn dom = false ∨ 2 ≤ st → exec (.powerSet c) s = .next (s.on <| d.pmuPush dom st (.cmd c.queue.val c.tag.toNat)))) ∧
      (s.ready 0x0602 c = true → dom < 80 →
        exec (.powerStatus c) s = .next (s.on <| d.finR c [d.dom dom, d.rf (PMU_PDd_REFUSED dom),
          d.rf (PMU_PDd_LAST_REFUSER dom) * 256 + d.rf (PMU_PDd_LAST_SOURCE dom)]))) ∧
    (∀ r : PmuReq, s.dev.pmuFirst = some r → s.dev.isSwitchOn r = false → s.dev.dom r.dom ≠ r.target → 2 ≤ r.target →
      (r.src = .vote → s.dev.domOn r.dom = true → s.dev.allVote r.dom = false → exec .domainEntry s = .next (s.on <| s.dev.pmuDrop r.dom)) ∧
      ((r.src ≠ .vote ∨ s.dev.domOn r.dom = false ∨ s.dev.allVote r.dom = true) →
        (∀ x src, s.dev.entryRefusal r.dom = some (x, src) →
          exec .domainEntry s = .next (s.on <| s.dev.entryRefuse r (s.dev.dom r.dom) x src)) ∧
        (s.dev.entryRefusal r.dom = none → (s.dev.lastOfStop r.dom = none ∨ s.dev.domOn r.dom = false) →
          exec .domainEntry s = .next (s.on <| s.dev.entryEnd r)) ∧
        (∀ st, s.dev.entryRefusal r.dom = none → s.dev.domOn r.dom = true → s.dev.lastOfStop r.dom = some st → exec .domainEntry s =
          .next (s.on <| ((s.dev.fenceStop st).setDom r.dom 4).pmuUpd r.dom fun r => { r with phase := .draining s.dev.now })))) ∧
    (∀ (st : Fin 28) (r : PmuReq) (t : Nat), s.dev.drainingOf st = some (r, t) →
      (let e := s.dev.returnsHome
       e.stopQuiet st = true → exec (.stopDrained st) s = .next (s.on <| (e.setFlag (LYR_STOP_s_STS_DRAINED st) true).entryEnd r)) ∧
      exec (.ringDrainTimeout st) s = .next (s.on <|
        ((s.dev.advanceTo (t + usT 100)).liftFence st).entryRefuse r 0 0x02 st)) ∧
    (∀ r : PmuReq, s.dev.pmuFirst = some r → s.dev.isSwitchOn r = true → 36 ≤ r.dom → s.dev.pmu.lastW1 = none → s.dev.dom r.dom = 3 →
      nextAnd (exec .domainSwitchOn s) fun t => t.dev.pmu.lastW1 = some s.dev.now ∧ t.dev.now = s.dev.now ∧ t.dev.cores = s.dev.cores) ∧
    (∀ r : PmuReq, s.dev.pmuFirst = some r → s.dev.isSwitchOn r = true → r.dom < 36 → s.dev.rf THM_STS_STATE = 2 →
      exec .domainSwitchOn s = .next (s.on <| s.dev.entryRefuse r (s.dev.dom r.dom) 0x08 (s.dev.rf THM_STS_HOTTEST_TS))) ∧
    (∀ (dom : Fin 80) (src : PmuSrc) (w1 : Nat) (off : Bool), s.dev.pmuReq dom = some ⟨dom, 0, src, .waking w1 off⟩ → s.dev.logicReady dom = true →
      dom.val ≠ 75 → exec (.domainOnDone dom) s = .next (s.on <|
        ((((((s.dev.advanceTo (w1 + w1Time dom + usT 2 + if off then zeroFill dom else 0)).enterState dom 0).unfence dom).serviceSync.trainSync).pmuDrop
          dom).pmuAnswer src okS))) ∧
    (∀ (c : PqCmd), let d := s.began c
      s.ready 0x0603 c = true → d.paired = false → pp c 0 ≠ 0 → d.parkBusy = false → d.parkRefusal = none → s.dev.parkWaits c = false → nextAnd (exec (.park c none) s) fun t =>
        t.dev.flag (LYR_STOP_s_STS_FENCED 17) = true ∧ t.dev.flag (LYR_STOP_s_STS_DRAINED 17) = true ∧
        t.dev.hif.fetchStopped = true ∧ (t.dev.pmu.park.map fun p => (p.queue, p.tag, p.since, p.wakeAt)) =
          some (c.queue.val, c.tag.toNat, s.dev.now, some (s.dev.now + msT (pp c 0)))) ∧
    (∀ (p : Park), s.dev.pmu.park = some p →
      (∀ src : BitVec 8, s.dev.wakesPark p src.toNat = false → exec (.parkWake src) s = .next s) ∧
      (nextAnd (exec (.parkWake 0x22) s) fun t => t.dev.pmu.park = none ∧ t.dev.flag (LYR_STOP_s_STS_FENCED 17) = false ∧ t.dev.hif.fetchStopped = false ∧ t.dev.now = s.dev.now ∧
        t.dev.mem.cells = s.dev.mem.cells))

/-! ### Resets, references and supplies -/

/-- POR clears all but fuses, flash and the host's memory; COLD all but PD_AON and shows its cause; a restart firmware asked for happens at
its instant; TAP_RESET takes the unlock; a reference that is lost is counted and its PLL holds over or unlocks; a supply beyond its limits
resets the part, is a voltage warning, or is a health event. -/
def Obligations.ResetRules : Prop :=
  ∀ s : State,
    (∀ supply : Bool, nextAnd (exec (.por supply) s) fun t => t.sec.f0 = s.sec.f0 ∧ t.sec.f1 = s.sec.f1 ∧ t.sec.f2 = s.sec.f2 ∧ t.sec.f3 = s.sec.f3 ∧
      t.sec.f4 = s.sec.f4 ∧ t.sec.f5 = s.sec.f5 ∧ t.sec.f6 = s.sec.f6 ∧ t.sec.flash = s.sec.flash ∧ t.sec.keys = [] ∧ t.dev.hif.mem = s.dev.hif.mem ∧
      t.dev.rf CKR_RESET_CAUSE_KIND = 0 ∧ t.dev.rf CKR_RESET_CAUSE_TRIGGER = (if supply then 1 else 0) ∧ t.dev.now = 0 ∧ t.dev.txns = [] ∧ t.dev.cores = [] ∧
      t.dev.mem.cells = [] ∧ t.pending = s.pending) ∧
    (∀ t0, s.dev.fw.restart = some (1, t0) → nextAnd (exec .coldReset s) fun t => t = State.cold { s with dev := s.dev.advanceTo t0 } 2 ∧
      t.dev.rf CKR_RESET_CAUSE_KIND = 1 ∧ t.dev.rf CKR_RESET_CAUSE_TRIGGER = 2 ∧ t.sec.keys = [] ∧ t.sec.challenge = none ∧ t.sec.flash = s.sec.flash ∧
      t.sec.f1 = s.sec.f1 ∧ t.dev.hif.mem = s.dev.hif.mem ∧ t.pending = s.pending) ∧
    (∀ t0, s.dev.fw.restart = some (0, t0) → nextAnd (exec .warmReset s) fun t => t.dev = (s.dev.advanceTo t0).warmReset ∧
      t.dev.rf CKR_RESET_CAUSE_KIND = 2 ∧ t.dev.rf CKR_RESET_CAUSE_TRIGGER = 2 ∧ t.dev.rf MGT_TWIN_STS_ROLE = 0 ∧ t.dev.txns = [] ∧ t.dev.mem.bufs = [] ∧
      t.dev.marrow.replay = none ∧ t.sec = s.sec ∧ t.pending = s.pending) ∧
    (exec .tapReset s = .next { s with dev := { s.dev.wf SEC_DEBUG_STS_LEVEL 0 with pmu.debugHold := [] }, sec.challenge := none }) ∧
    (∀ k : Fin 5, bitAt (s.dev.rf CKR_REF_STS_PRESENT) k = true →
      let lost := (((s.dev.setFlag ⟨rCKR_REF_STS, k, 1⟩ false).bump (CKR_REF_LOSS_k_LOSS k)).health 0x0C 1 k)
      (k = 0 → exec (.refLoss k) s = .next (s.on <| lost.setFlag CKR_PLL_STS_ROOT_HOLDOVER true)) ∧
      (k = 1 → exec (.refLoss k) s = .next (s.on <| (lost.setFlag CKR_PLL_STS_JESD_LOCK false).jesdDown)) ∧
      (k = 4 → exec (.refLoss k) s = .next (s.on <| lost.setFlag CKR_PLL_STS_DDR_HOLDOVER true))) ∧
    (∀ k : Fin 5, bitAt (s.dev.rf CKR_REF_STS_PRESENT) k = false → nextAnd (exec (.refReturn k) s) fun t =>
      bitAt (t.dev.rf CKR_REF_STS_PRESENT) k = true ∧ (k = 0 → t.dev.flag CKR_PLL_STS_ROOT_LOCK = true ∧ t.dev.flag CKR_PLL_STS_ROOT_HOLDOVER = false) ∧
      t.dev.now = s.dev.now ∧ t.dev.mem = s.dev.mem ∧ t.dev.cores = s.dev.cores) ∧
    (∀ r : Fin 8, exec (.supplyDeviation r 0) s = .next s ∧ exec (.supplyDeviation r 1) s = .next (s.onDev fun d => d.health 0x0E 9 r) ∧
      (r = 0 ∨ r = 2 → exec (.supplyDeviation r 2) s = .next (s.alarm [1])) ∧
      (r = 0 ∨ r = 2 ∨ r = 7 → exec (.supplyDeviation r 3) s = .next (s.por true)))

/-! ### Temperature, power cap, voltage, lifetime -/

/-- A sample moves the state by the hottest value, two over 125 °C on one sensor shut the part down, a restart needs 10 s and every reading
below 95 °C; THROTTLE lowers its cap while the part does not cool; POWER_CAP and THERMAL_STATUS answer; a second counts into its band. -/
def Obligations.ThermalRules : Prop :=
  ∀ s : State,
    (∀ (d : Dev) (h : Int × Nat),
      (d.rf THM_STS_STATE = 0 → h.1 < 420 → d.thmState h = d) ∧
      (d.rf THM_STS_STATE = 0 → 420 ≤ h.1 → h.1 < 452 → (d.thmState h).rf THM_STS_STATE = 1 ∧
        (d.thmState h).rf THM_WARNINGS = (d.rf THM_WARNINGS + 1) % 2 ^ 32) ∧
      (d.rf THM_STS_STATE = 1 → h.1 < 408 → (d.thmState h).rf THM_STS_STATE = 0) ∧
      (d.rf THM_STS_STATE = 1 → 408 ≤ h.1 → h.1 < 452 → d.thmState h = d) ∧
      (d.rf THM_STS_STATE ≤ 1 → 452 ≤ h.1 → (d.thmState h).thm.stepHot = h.1) ∧
      (d.rf THM_STS_STATE = 2 → 432 ≤ h.1 → d.thmState h = d) ∧
      (d.rf THM_STS_STATE = 2 → h.1 < 432 → d.thmState h = (d.setCap 8).toClear 1 h)) ∧
    (∀ raw : List (BitVec 12),
      let past125 := (upTo 60).filter fun i => overTrip (s.dev.reading raw i)
      let d0 := (upTo 60).foldl (fun d i => d.wf (THM_RAW_i_RAW i) (nth 0 raw i).toNat) s.dev
      let peak := ((upTo 60).map (s.dev.reading raw)).foldl (fun m r => if inRange r && decide (m < r) then r else m) (toSigned 12 (s.dev.rf THM_PEAK))
      s.dev.thm.trip = none →
        (∀ i, past125.find? s.dev.thm.past125.contains = some i →
          exec (.thermalSample raw) s = .next (s.on <| (d0.wf THM_PEAK (ofSigned 12 peak)).shutdown i)) ∧
        (past125.find? s.dev.thm.past125.contains = none →
          let d2 := ({ d0.wf THM_PEAK (ofSigned 12 peak) with thm.past125 := past125 }.judgeSensors (s.dev.reading raw)).valuesInUse (s.dev.reading raw)
          exec (.thermalSample raw) s = .next (s.on <|
            ((d2.wf THM_HOTTEST_TEMP (ofSigned 12 d2.hottest.1)).wf THM_STS_HOTTEST_TS d2.hottest.2).thmState d2.hottest))) ∧
    (∀ secs : BitVec 32,
      (s.dev.thm.trip = none → exec (.thermalRestart secs) s = .next s) ∧
      (secs.toNat < 10 → exec (.thermalRestart secs) s = .next s) ∧
      (∀ x, s.dev.thm.trip = some x → 10 ≤ secs.toNat →
        ((upTo 60).all fun i => decide (s.dev.reading ((upTo 60).map fun i => BitVec.ofNat 12 (s.dev.rf (THM_RAW_i_RAW i))) i < 380)) = true →
        nextAnd (exec (.thermalRestart secs) s) fun t => t.dev.rf CKR_RESET_CAUSE_KIND = 1 ∧ t.dev.rf CKR_RESET_CAUSE_TRIGGER = 3 ∧
          t.dev.thm.recovered = some (s.dev.rf THM_PEAK, x.1, secs.toNat) ∧ t.dev.thm.trip = none ∧ t.sec.keys = [])) ∧
    (let hot := toSigned 12 (s.dev.rf THM_HOTTEST_TEMP); let cap := s.dev.rf THM_THROTTLE_CAP
      (s.dev.rf THM_STS_STATE ≠ 2 → exec .throttleStep s = .next s) ∧
      (s.dev.rf THM_STS_STATE = 2 → s.dev.thm.stepHot ≤ hot → s.dev.rf THM_THROTTLE_CAP_MIN < cap →
        exec .throttleStep s = .next (s.on <| { s.dev.setCap (cap - 1) with thm.stepHot := hot })) ∧
      (s.dev.rf THM_STS_STATE = 2 → hot < s.dev.thm.stepHot ∨ cap ≤ s.dev.rf THM_THROTTLE_CAP_MIN →
        exec .throttleStep s = .next (s.on <| { s.dev with thm.stepHot := hot }))) ∧
    (∀ c : PqCmd, let d := s.began c
      (s.ready 0x0605 c = true → 60 ≤ pp c 0 → pp c 0 ≤ 185 →
        exec (.powerCap c) s = .next (s.on <| { d with fw.powerCap := pp c 0 }.finR c [d.fw.powerCap])) ∧
      (s.ready 0x0604 c = true → exec (.thermalStatus c) s = .next (s.on <|
        d.finR c [ofSigned 32 (toSigned 12 (d.rf THM_HOTTEST_TEMP)), d.rf THM_STS_HOTTEST_TS, d.rf THM_STS_STATE,
          popcount 32 (d.rf THM_BROKEN_LO_BROKEN) + popcount 28 (d.rf THM_BROKEN_HI_BROKEN)]))) ∧
    (∀ rails : List (Option (BitVec 16 × BitVec 32)), s.dev.domOn 78 = true → nextAnd (exec (.powerTelemetryPoll rails) s) fun t =>
      t.dev.thm.power.length ≤ 10 ∧ t.dev.thm.power ≠ [] ∧ t.dev.now = s.dev.now ∧ t.sec = s.sec) ∧
    (∀ slack : List (BitVec 10), s.dev.pmu.park = none → 700 ≤ s.dev.rf THM_AVS_MV → s.dev.rf THM_AVS_MV ≤ 850 → nextAnd (exec (.avsLoop slack) s) fun t =>
      700 ≤ t.dev.rf THM_AVS_MV ∧ t.dev.rf THM_AVS_MV ≤ 850 ∧ s.dev.rf THM_AVS_MV - 5 ≤ t.dev.rf THM_AVS_MV ∧ t.dev.rf THM_AVS_MV ≤ s.dev.rf THM_AVS_MV + 5 ∧ t.dev.cores = s.dev.cores ∧ t.dev.mem = s.dev.mem) ∧
    (s.dev.domOn 78 = false → ∀ b, b < 4 → nextAnd (exec .lifetimeSecond s) fun t => t.dev.rf (THM_HIST_b_SECONDS b) =
      if b = histBand (toSigned 12 (s.dev.rf THM_HOTTEST_TEMP)) then (s.dev.rf (THM_HIST_b_SECONDS b) + 1) % 2 ^ 32 else s.dev.rf (THM_HIST_b_SECONDS b)) ∧
    (s.dev.domOn 78 = true → nextAnd (exec .lifetimeSave s) fun t => t.dev = s.dev ∧
      t.sec.flash.life = [s.dev.rf (THM_HIST_b_SECONDS 0), s.dev.rf (THM_HIST_b_SECONDS 1), s.dev.rf (THM_HIST_b_SECONDS 2),
        s.dev.rf (THM_HIST_b_SECONDS 3), s.dev.rf THM_DEGSEC_LO, s.dev.rf THM_DEGSEC_HI])

/-! ### Lanes and links -/

/-- Links come up with their lanes locked, go down with them; a lost lane is reported and counted; training that fails is reported; the
twin link runs at the lower rate advertised; tests run on lanes no user holds; a scan's answer waits for its end. -/
def Obligations.LinkRules : Prop :=
  ∀ s : State,
    (∀ (k : Fin 16) (lanes : List Nat), s.dev.ethLanes k = some lanes → s.dev.domRun (57 + k.val / 4) = true → s.dev.flag CKR_PLL_STS_ETH_LOCK = true →
      s.dev.flag (ETH_Pp_CTL_ENABLE (k.val / 4)) = true → s.dev.ethUp k = false → (s.dev.startAll lanes 0x12).2 = true →
        (nextAnd (exec (.ethLinkBringup k 0) s) fun t => t.dev.ethUp k = true ∧ (t.dev.zth.failed.contains k.val) = false ∧ t.dev.now = s.dev.now) ∧
        (∀ step : Fin 5, 0 < step.val → (s.dev.flag (ZTH_ETH_p_CFG_AN (k.val / 4)) = true ∨ (step.val ≠ 2 ∧ step.val ≠ 3)) →
          exec (.ethLinkBringup k step) s = .next (s.on <| (lanes.foldl Dev.tapsBoard (s.dev.startAll lanes 0x12).1).trainFailed k (84 + k) step))) ∧
    (∀ (k : Fin 16) (step : Fin 5), s.dev.flag (ZTH_ETH_p_CFG_AN (k.val / 4)) = false → step.val = 2 ∨ step.val = 3 → exec (.ethLinkBringup k step) s = .next s) ∧
    (∀ (k : Fin 16) (lanes : List Nat), s.dev.ethUp k = true → s.dev.ethLanes k = some lanes → s.dev.ethDown k =
      (lanes.foldl (fun d i => (d.loseLock i).tapsBoard i) (s.dev.setFlag (ethUpF k) false)).synceCheck) ∧
    (∀ k : Fin 16, s.dev.ethLanes k = none → ∀ step, exec (.ethLinkBringup k step) s = .next s) ∧
    (∀ (lane : Fin 16) (tap : Fin 4) (e : LaneEntry), s.dev.entry (84 + lane.val) 0x12 = some e → s.dev.flag (ETH_Pp_CTL_ENABLE (lane.val / 4)) = true →
      s.dev.flag (ZTH_ETH_p_CFG_AN (lane.val / 4)) = true → s.dev.domRun (57 + lane.val / 4) = true → s.dev.lanePll (84 + lane.val) = true →
      ∀ k, s.dev.linkOf (84 + lane.val) = some k →
        let v := Tab.getD (fun _ => (0 : Int)) s.dev.zth.taps (4 * (84 + lane.val) + tap.val) + 1
        (s.dev.ethUp k = true → ∀ up, exec (.ethTrainRequest lane tap up) s = .next s) ∧
        (s.dev.ethUp k = false → v.natAbs ≤ e.window → exec (.ethTrainRequest lane tap true) s =
          .next (s.on <| { s.dev with zth.taps := Tab.setD (fun _ => (0 : Int)) s.dev.zth.taps (4 * (84 + lane.val) + tap.val) v })) ∧
        (s.dev.ethUp k = false → e.window < v.natAbs → exec (.ethTrainRequest lane tap true) s = .next s)) ∧
    (∀ partner : Fin 3, s.dev.twinWanted = true → s.dev.domRun 61 = true → s.dev.flag CKR_PLL_STS_ETH_LOCK = true → s.dev.twinUp = false →
      (s.dev.startAll twinLanes 0x10).2 = true →
        let r := min (min (s.dev.twinBest.getD 0) partner) s.dev.zth.twinCap
        let y := (s.dev.startAll twinLanes 0x10).1.startAll twinLanes (0x10 + r)
        (y.2 = true → nextAnd (exec (.twinLinkTrain partner) s) fun t => t.dev.twinUp = true ∧
          t.dev.rf ZTH_TWIN_STS_RATE = r + 1 ∧ (t.dev.zth.failed.contains 16) = false) ∧
        (y.2 = false → exec (.twinLinkTrain partner) s = .next (s.on { y.1 with zth.twinPeer := some partner.val }))) ∧
    (s.dev.twinWanted = true → s.dev.domRun 61 = true → s.dev.twinUp = false →
      let fell (d : Dev) (c : Nat) : Dev := ({ d with zth.twinCap := min (min d.zth.twinCap (d.twinBest.getD 0)) c - 1, zth.twinPeer := some c }.bump ZTH_TWIN_FALLBACKS).trainFailed 16 100 4
      (∀ c, s.dev.zth.twinPeer = some c → exec .twinLinkFallback s = .next (s.on (fell s.dev c))) ∧
      (s.dev.zth.twinPeer = none → ∃ c < 3, exec .twinLinkFallback s = .next (s.on (fell (s.dev.fresh 3).1 c)))) ∧
    (∀ (gen : Fin 7) (w : Fin 4) (flit reversed aspm : Bool), s.dev.domRun 62 = true → s.dev.flag CKR_PLL_STS_PCIE_LOCK = true → gen.val ≠ 0 →
      gen.val ≤ s.dev.rf ZTH_PCIE_STS_MAXGEN → (gen.val = 6 → flit = true) → nextAnd (exec (.pcieLinkTrain gen w flit reversed (0, aspm)) s) fun t =>
        t.dev.rf ZTH_PCIE_STS_GEN = gen ∧ t.dev.rf ZTH_PCIE_STS_WIDTH = 2 ^ w.val ∧ t.dev.flag ZTH_PCIE_STS_FLIT = flit ∧
        t.dev.flag ZTH_PCIE_STS_REVERSED = reversed ∧ t.dev.pmu.aspm = aspm ∧ (t.dev.zth.failed.contains 17) = false ∧ t.dev.zth.eqGen = none) ∧
    (∀ (lane : Fin 8) (gen : Fin 7) (preset : Fin 11) (e : LaneEntry), s.dev.entry (104 + lane.val) (0x1F + gen.val) = some e → 3 ≤ gen.val →
      s.dev.domRun 62 = true →
        let d1 := s.dev.eqBegin gen.val
        (bitAt e.tx preset.val = true → exec (.pcieEqPresetRequest lane gen preset) s =
          .next (s.on <| { d1 with zth.presets := Tab.put d1.zth.presets (8 * (104 + lane.val) + gen.val) preset.val })) ∧
        (bitAt e.tx preset.val = false → exec (.pcieEqPresetRequest lane gen preset) s = .next (s.on d1)) ∧
        (s.dev.zth.eqGen ≠ some gen.val → d1.preset (104 + lane.val) gen.val = some (bitsAt e.tx 11 4) ∧ Tab.find d1.zth.asked (104 + lane.val) = some e.req) ∧
        (s.dev.zth.eqGen = some gen.val → d1 = s.dev)) ∧
    (∀ lane : Fin 112, s.dev.inService lane = true → isCtx lane = false → s.dev.flag (ZTH_Li_STS_CDR_LOCK lane) = true →
      let d2 := s.dev.loseLock lane
      (s.dev.held lane = true → s.dev.domOn (laneDom lane) = true →
        let d1 := ((s.dev.setLock lane false).laneEvent 1 lane (s.dev.laneRate lane) 0).bump (ZTH_Li_LOCK_LOSS lane)
        d2 = { d1 with zth.lostAt := Tab.put d1.zth.lostAt lane d1.now }) ∧
      (isEl lane = false → exec (.laneLost lane) s = .next (s.on d2)) ∧
      (100 ≤ lane.val → lane.val < 104 → exec (.laneLost lane) s = .next (s.on d2.twinDown)) ∧
      (∀ k, 84 ≤ lane.val → lane.val < 100 → d2.linkOf lane = some k → exec (.laneLost lane) s = .next (s.on (d2.ethDown k)))) ∧
    (∀ (lane : Fin 112) (t0 : Nat), Tab.find s.dev.zth.lostAt lane = some t0 → s.dev.inService lane = true →
      let d1 := s.dev.setLock lane true
      let d2 : Dev := { d1 with zth.lostAt := Tab.del d1.zth.lostAt lane }
      (s.dev.laneReady lane = true → exec (.laneRestored lane) s = .next (s.on <| d2.laneEvent 2 lane (s.dev.laneRate lane) ((s.dev.now - t0) / msT 1))) ∧
      (s.dev.laneReady lane = false → exec (.laneRestored lane) s = .next s)) ∧
    (∀ lane : Fin 32, s.dev.rf (ZTH_Li_STS_RATE (52 + lane.val)) ≠ 0 →
      (s.dev.laneReady (52 + lane.val) = true → Tab.find s.dev.zth.lostAt (52 + lane.val) = none →
        exec (.crxLock lane) s = .next (s.on <| (s.dev.setFlag (ZTH_Li_STS_SIGNAL (52 + lane.val)) true).setFlag (ZTH_Li_STS_CDR_LOCK (52 + lane.val)) true)) ∧
      (s.dev.laneReady (52 + lane.val) = false → exec (.crxLock lane) s = .next s)) ∧
    (∀ c : PqCmd, let d := s.began c; let i := pp c 0
      (s.ready 0x0A01 c = true → i < 104 → pp c 1 ≤ 3 → (i < 32 ∨ 52 ≤ i) → d.testOff i = false →
        (d.testBusy i = true → exec (.laneLoopback c) s = .next (s.on <| d.fin c busyS)) ∧
        (d.testBusy i = false → exec (.laneLoopback c) s =
          .next (s.on <| ((d.wf (ZTH_Li_CTL_LOOPBACK i) (pp c 1)).wf (ZTH_Li_CTL_LOOPBACK (loopPartner i)) (pp c 1)).fin c okS))) ∧
      (s.ready 0x0A02 c = true → i < 104 → pp c 1 ≤ 3 → pp c 2 ≤ 1000000 → d.domOn (laneDom i) = true → d.testBusy i = false →
        (isCtx i = true → exec (.lanePattern c) s = .next (s.on <| (d.setGen i (pp c 1) (pp c 2)).fin c okS)) ∧
        (isCrx i = true → exec (.lanePattern c) s = .next (s.on <| (d.setChk i (pp c 1)).fin c okS)) ∧
        (84 ≤ i → exec (.lanePattern c) s = .next (s.on <| ((d.setGen i (pp c 1) (pp c 2)).setChk i (pp c 1)).fin c okS))) ∧
      (s.ready 0x0A03 c = true → isCrx i = true → d.domOn (laneDom i) = true → d.flag (ZTH_Li_STS_SCANNING i) = false →
        exec (.eyeScan c) s = .next (s.on <| (d.accepted c.queue.val c.tag.toNat).scanStart i (some (c.queue.val, c.tag.toNat))))) ∧
    (∀ lane : Fin 112, isCtx lane = false → s.dev.rf (ZTH_Li_CTL_CHK lane) ≠ 0 → s.dev.domRun (laneDom lane) = true →
      exec (.checkerLock lane) s = .next (s.on <| s.dev.setFlag (ZTH_Li_STS_CHK_LOCK lane) true)) ∧
    (∀ (lane : Fin 112) (still : Bool) (errs mbits : BitVec 32), isCtx lane = false → s.dev.flag (ZTH_Li_STS_CHK_LOCK lane) = true →
      exec (.checkerLockLost (lane, still) errs mbits) s = .next (s.on <|
        ((s.dev.bumpBy (ZTH_Li_CHK_ERR lane) errs.toNat).bumpBy (ZTH_Li_CHK_MBITS lane) mbits.toNat).setFlag (ZTH_Li_STS_CHK_LOCK lane) still)) ∧
    (∀ lane : Fin 112, isCrx lane = false → s.dev.rf (ZTH_Li_CTL_GEN lane) ≠ 0 → s.dev.rf (ZTH_Li_INJ_RATE lane) ≠ 0 → s.dev.domRun (laneDom lane) = true →
      s.dev.rf (ZTH_Li_CTL_LOOPBACK lane) = 0 → exec (.errorInject lane) s = .next (s.on <| s.dev.bump (ZTH_Li_INJECTED lane))) ∧
    (∀ (lane : Fin 112) (pts : BitVec 128) (x : Scan), s.dev.zth.scans.find? (·.lane == lane.val) = some x →
      let r := s.dev.scanEnd x pts
      (x.lock = false → r.2 = (0, 0)) ∧
      (x.cmd = none → exec (.eyeScanComplete lane pts) s = .next (s.on r.1)) ∧
      (∀ q tag, x.cmd = some (q, tag) → exec (.eyeScanComplete lane pts) s = .next (s.on <| r.1.complete q tag okS [r.2.1, r.2.2])))

/-! ### Two-bank controls and calibration from the signal -/

/-- A SEL write arms the inactive bank or is ignored; the switch flips ACTIVE. CAL_RUN's targets gather, are solved, armed, verified;
a switch restarts the windows it disturbs; a target whose figure got worse goes back; status and intervals. -/
def Obligations.CalibrationRules : Prop :=
  ∀ s : State,
    (∀ (init : Initiator) (kind i value cmds : Nat), let r := s.dev.busWr init (bkSel kind i) value
      r.2 = .yes cmds → bitAt cmds 0 = true →
        (s.dev.armBad kind i = false → s.dev.selWr init kind i value = r.1.armNow kind i .sel) ∧
        (s.dev.armBad kind i = true → s.dev.selWr init kind i value = r.1.regErr .ignored (bkSel kind i) init)) ∧
    (∀ (init : Initiator) (t : Fin 64) (lane : Fin 112) (value : Word),
      exec (.dpdArm init t value) s = .next (s.on <| s.dev.selWr init 0 t value.toNat) ∧
      exec (.calBankArm init false t value) s = .next (s.on <| s.dev.selWr init 1 t value.toNat) ∧
      exec (.calBankArm init true t value) s = .next (s.on <| s.dev.selWr init 2 t value.toNat) ∧
      exec (.spcBankArm init lane value) s = .next (s.on <| s.dev.selWr init 3 lane value.toNat)) ∧
    (∀ (d : Dev) (a : Arm) (k : Nat), a.kind < 4 → a.target < 112 → a.src = .sel →
      (d.switchBank a k).rf (bkActive a.kind a.target) = (1 - d.rf (bkActive a.kind a.target)) % 2 ∧ (d.switchBank a k).now = d.now) ∧
    (∀ c : PqCmd, let d := s.began c; let n := c.timeline.toNat
      (s.ready 0x0404 c = true → pp c 0 < 64 → pp c 1 < 2 → d.badTarget c = false → n = d.rf (DFE_TX_t_DPD_TIMELINE (pp c 0)) →
        d.flag (bkPending 0 (pp c 0)) = false → d.flag (bkHeld 0 (pp c 0)) = false →
        (d.rf (DFE_TX_t_DPD_ACTIVE (pp c 0)) = pp c 1 → exec (.dpdBankSelect c) s = .next (s.on <| d.finR c [d.refK n % 65536])) ∧
        (d.rf (DFE_TX_t_DPD_ACTIVE (pp c 0)) ≠ pp c 1 → (d.tl n).started = false →
          exec (.dpdBankSelect c) s = .next (s.on <| d.stage c 0x0404 true (.dpdSelect (pp c 0) (pp c 1))))) ∧
      (let ts := (upTo (min 112 (pp c 2))).map (pp c 1 + ·)
       s.ready 0x0401 c = true → pp c 0 ≤ 3 → pp c 1 + pp c 2 ≤ calCount (pp c 0) → pp c 3 ≤ 1 → (ts.any (d.calRunning (pp c 0))) = false →
        exec (.calRun c) s = .next (s.on <| (d.accepted c.queue.val c.tag.toNat).calStart (pp c 0) (some (c.queue.val, c.tag.toNat)) n
          (ts.map fun i => (i, (d.calRefuse (pp c 0) i (some n) (pp c 3)))))) ∧
      (∀ fig per t0, s.ready 0x0402 c = true → pp c 0 ≤ 3 → pp c 1 < calCount (pp c 0) → (pp c 0 < 3 ∨ isCrx (pp c 1) = true ∨ isEl (pp c 1) = true) →
        Tab.find d.cal.last (128 * pp c 0 + pp c 1) = some (fig, per, t0) →
        exec (.calStatus c) s = .next (s.on <| d.finR c [d.rf (bkActive (pp c 0) (pp c 1)), fig, per, (d.now - t0) / msT 1])) ∧
      (s.ready 0x0403 c = true → pp c 0 ≤ 3 → exec (.calAuto c) s = .next (s.on <|
        { d with cal.auto := Tab.setD (fun _ => 0) d.cal.auto (pp c 0) (pp c 1),
                 cal.autoAt := if pp c 1 = 0 then Tab.del d.cal.autoAt (pp c 0) else Tab.put d.cal.autoAt (pp c 0) (d.now + msT (pp c 1)) }.finR c
          [Tab.getD (fun _ => 0) d.cal.auto (pp c 0)]))) ∧
    (∀ (d : Dev) (a : Arm) (k : Nat), a.src = .sel → ∀ r ∈ (d.switchBank a k).cal.runs, ∀ t ∈ r.targets,
      t.phase = .gathering ∨ t.phase = .verifying → r.measures t a.kind a.target = true → t.win = d.boundaryT a.tl k) ∧
    (∀ (kind : Fin 4) (i : Fin 112) (r : CalRun) (t : CalTgt) (fig : Word) (stat : List Word), s.dev.calFind kind i .gathering = some (r, t) →
      (kind.val = 3 → s.dev.flag (ZTH_Li_STS_SCANNING i) = false) →
        exec (.calStatisticDone kind i true fig stat) s = .next (s.on <| (s.dev.calFail r i 0x0A 0).calSettle r.id) ∧
        (∀ full, s.dev.calFull kind i t.win = some full → s.dev.now ≤ r.since + calLimit kind →
          (kind.val = 2 → r.targets.length = 1 → full ≤ r.since + calLimit kind →
            exec (.calStatisticDone kind i false fig stat) s = .next (s.on <| ((s.dev.advanceTo full).calFail r i 1 0).calSettle r.id)) ∧
          ((kind.val = 2 → r.targets.length ≠ 1) → (s.dev.txStep r = true → (r.excited.contains i.val) = true) →
            let ready := if s.dev.txStep r = true then max full ((s.dev.cal.excite.map fun e => s.dev.feTime e.till).foldl max 0) else full
            let d1 := s.dev.advanceTo ready
            let out := d1.calSolve kind i t.win fig.toNat (stat.map (·.toNat))
            ready ≤ r.since + calLimit kind →
              (out = .discarded → kind.val = 0 → exec (.calStatisticDone kind i false fig stat) s = .next (s.on d1)) ∧
              (out = .discarded → kind.val ≠ 0 → exec (.calStatisticDone kind i false fig stat) s = .next (s.on <| d1.calUpd r.id i fun t => { t with win := d1.now })) ∧
              (∀ reason f, out = .fails reason f → exec (.calStatisticDone kind i false fig stat) s = .next (s.on <| (d1.calFail r i reason f).calSettle r.id)) ∧
              (∀ f sol, out = .solves f sol → exec (.calStatisticDone kind i false fig stat) s = .next (s.on <| (d1.calSolved r i f sol).calSettle r.id)))) ∧
        (r.since + calLimit kind < s.dev.now → exec (.calStatisticDone kind i false fig stat) s = .next s)) ∧
    (∀ (kind : Fin 4) (i : Fin 112) (r : CalRun) (t : CalTgt), s.dev.calFind kind i .gathering = some (r, t) →
      exec (.calTimeLimit kind i) s = .next (s.on <| ((r.targets.filter (·.phase == .gathering)).foldl (fun d t =>
        d.calFail r t.idx (if s.dev.txStep r = true ∧ r.targets.length ≠ 1 ∧ (r.excited.contains t.idx) = false then 2 else 1) 0)
        (s.dev.advanceTo (r.since + calLimit kind))).calSettle r.id)) ∧
    (∀ (kind : Fin 4) (i : Fin 112) (r : CalRun) (x : CalTgt) (fig : Word) (stat : List Word) (full : Nat), s.dev.calFind kind i .verifying = some (r, x) →
      s.dev.calFull kind i x.win = some full →
      let d1 := s.dev.advanceTo full
      let out := d1.calSolve kind i x.win fig.toNat (stat.map (·.toNat))
      (out = .discarded → kind.val = 0 → exec (.calVerifyDone kind i (fig, stat)) s = .next (s.on d1)) ∧
      (out = .discarded → kind.val ≠ 0 → exec (.calVerifyDone kind i (fig, stat)) s = .next (s.on <| d1.calUpd r.id i fun t => { t with win := d1.now })) ∧
      (∀ f, ((∃ reason, out = .fails reason f) ∨ ∃ sol, out = .solves f sol) →
        (worseBy kind 4 f x.fig0 = true → d1.flag (bkPending kind i) = true →
          exec (.calVerifyDone kind i (fig, stat)) s = .next (s.on <| (d1.calFail r i 8 f).calFinish)) ∧
        (worseBy kind 4 f x.fig0 = true → d1.flag (bkPending kind i) = false →
          exec (.calVerifyDone kind i (fig, stat)) s = .next (s.on <| ((d1.armNow kind i .sel).calFail r i 8 f).calFinish)) ∧
        (worseBy kind 4 f x.fig0 = false → exec (.calVerifyDone kind i (fig, stat)) s =
          .next (s.on <| (d1.calUpd r.id i fun t => { t with phase := .committed, fig := f }).calFinish)))) ∧
    (∀ (i : Fin 64) (r : CalRun) (x : CalTgt) (p n g : Nat), s.dev.calFind 2 i .gathering = some (r, x) → s.dev.txStep r = true →
      (r.excited.contains i.val) = false → s.dev.tddOf i = some (p, n) →
      s.dev.nextGRun p ((s.dev.cal.excite.map (·.till)).foldl max s.dev.feNow) = some g →
        exec (.alignExcitation i) s = .next (s.on <|
          { s.dev with cal.runs := s.dev.cal.runs.map fun (y : CalRun) => if y.id = r.id then { y with excited := y.excited ++ [i.val] } else y,
                       cal.excite := (s.dev.cal.excite.filter fun y => decide (s.dev.feNow < y.till + msT 1)) ++
                         [⟨i, p, s.dev.txAt (s.dev.lastDRun p g), g + usT 8, g + usT 8 + txT 4096⟩] })) ∧
    (∀ (kind : Fin 4), Tab.find s.dev.cal.autoAt kind = none → exec (.calAutoRun kind) s = .next s) ∧
    (∀ (kind : Fin 4) (t0 : Nat), Tab.find s.dev.cal.autoAt kind = some t0 → s.dev.now ≤ t0 →
      let d1 := s.dev.advanceTo t0
      let d2 : Dev := { d1 with cal.autoAt := Tab.put d1.cal.autoAt kind (t0 + msT (Tab.getD (fun _ => 0) d1.cal.auto kind)) }
      (((upTo (calCount kind)).filter (d2.autoTakes kind)).isEmpty = true → exec (.calAutoRun kind) s = .next (s.on d2)) ∧
      (((upTo (calCount kind)).filter (d2.autoTakes kind)).isEmpty = false → exec (.calAutoRun kind) s = .next (s.on <|
        d2.calStart kind none 0 (((upTo (calCount kind)).filter (d2.autoTakes kind)).map fun i => (i, d2.calRefuse kind i none 0)))))

/-! ### The digital front end -/

/-- Symbols, PRACH and observation captures of the front end, control lines, converter links and remaps. -/
def Obligations.FrontEndRules : Prop :=
  ∀ s : State,
    (∀ (init : Initiator) (c : Fin 256) (value : Word) (cmds : Nat), let f := DFE_CCc_CTL_ENABLE c; let r := s.dev.busWr init (rDFE_CCc_CTL c) value.toNat
      r.2 = .yes cmds →
        (s.dev.flag f = false → r.1.flag f = true → (r.1.ethCcOn c = true ∨ r.1.ccFails (r.1.ccSpec c) (r.1.ccOthers c) ≠ []) →
          exec (.dfeCarrierEnable init c value) s = .next (s.on <| (r.1.setFlag f false).regErr .ignored (rDFE_CCc_CTL c) init)) ∧
        ((s.dev.flag f = r.1.flag f ∨ r.1.flag f = false ∨ (r.1.ethCcOn c = false ∧ r.1.ccFails (r.1.ccSpec c) (r.1.ccOthers c) = [])) →
          exec (.dfeCarrierEnable init c value) s = .next (s.on r.1))) ∧
    (∀ (c : Fin 256) (l : Fin 14) (air : BitVec 16) (tl : Fin 4) (central : Bool) (off : BitVec 40), let d := s.dev; let slot := txInput central off.toNat
      let n := d.rf (DFE_CCc_CFG_TIMELINE c); let e := d.asOf n (d.airK n air.toNat); let x := e.ccSym c air.toNat l
      let r := ((d.advanceTo (d.feTime (e.symAir x - (tickT (d.rf DFE_TX_ADV) + usT 6)))).txDrainAll).busRead 12 (slot + 4 * l.val) 4
      d.dfe.epoch.isSome = true → n = tl → e.ccOn c = true → e.rf (DFE_CCc_CFG_STD c) < 2 → e.symOk x = true →
      e.symIs x (e.flag (DFE_CCc_CFG_TDD c)) (e.rf (DFE_CCc_CFG_PAT c)) 1 = true →
      (∃ p < e.rf (DFE_CCc_PORTS_COUNT c), d.domRun (36 + (e.rf (DFE_CCc_PORTS_FIRST c) + p) / 16) = true) →
        (readyOk r.2 air.toNat l = true → exec (.txSymbolFetch c l air tl central off) s = .next (s.on <| r.1.txSend e c air.toNat slot x)) ∧
        (readyOk r.2 air.toNat l = false → e.rf (DFE_CCc_GAIN c) ≠ 0 → exec (.txSymbolFetch c l air tl central off) s =
          .next (s.on <| r.1.bump (DFE_CCc_ZERO_SYM c))) ∧
        (readyOk r.2 air.toNat l = false → e.rf (DFE_CCc_GAIN c) = 0 → exec (.txSymbolFetch c l air tl central off) s = .next (s.on r.1))) ∧
    (∀ (c : Fin 256) (l : Fin 14) (air : BitVec 16) (tl : Fin 4) (central : Bool) (off : BitVec 40),
      s.dev.dfe.epoch = none ∨ s.dev.rf (DFE_CCc_CFG_TIMELINE c) ≠ tl → exec (.txSymbolFetch c l air tl central off) s = .next s) ∧
    (∀ (c : Fin 256) (l : Fin 14) (air : BitVec 16) (slot : BitVec 40) (inputs : List (List (BitVec 24))), let d := s.dev
      let n := d.rf (DFE_CCc_CFG_TIMELINE c); let e := d.asOf n (d.airK n air.toNat); let x := e.ccSym c air.toNat l
      e.ccOn c = true → e.rf (DFE_CCc_CFG_STD c) < 2 → e.symOk x = true → e.symIs x (e.flag (DFE_CCc_CFG_TDD c)) (e.rf (DFE_CCc_CFG_PAT c)) 2 = true →
      (∀ p < e.rf (DFE_CCc_PORTS_COUNT c), d.domRun (40 + (e.rf (DFE_CCc_PORTS_FIRST c) + p) / 16) = true) →
      nextAnd (exec (.rxSymbolComplete c l air slot inputs) s) fun t => t.sec = s.sec ∧
        ∀ p, p < e.rf (DFE_CCc_PORTS_COUNT c) → p < 64 → (Tab.find t.dev.dfe.exps (64 * c.val + p)).map (·.1) = some x.k) ∧
    (∀ x : Fin 32, let c := s.dev.rf (DFE_PRACH_x_CFG_CC x); let n := s.dev.rf (DFE_CCc_CFG_TIMELINE c); let m := s.dev.rf (DFE_PRACH_x_REP_MOD x)
      let ph := s.dev.rf (DFE_PRACH_x_REP_PHASE x); let ofs : Int := s.dev.reg (rDFE_PRACH_x_START x)
      let k := s.dev.nextPhase n m ph ofs; let e := s.dev.prachConf x k
      s.dev.flag (DFE_PRACH_x_CTL_ENABLE x) = true → s.dev.ccOn c = true → s.dev.flag (TMU_TLn_CTL_ENABLE n) = true → s.dev.domRun (40 + x.val / 8) = true →
      ph < m → e.flag (DFE_PRACH_x_CTL_ENABLE x) = true → e.ccOn (e.rf (DFE_PRACH_x_CFG_CC x)) = true →
      k % max 1 (e.rf (DFE_PRACH_x_REP_MOD x)) = e.rf (DFE_PRACH_x_REP_PHASE x) →
      exec (.prachOccasion x) s = .next (s.on { s.dev.advanceTo (s.dev.feTime (s.dev.phaseTime n k (e.reg (rDFE_PRACH_x_START x)))) with
        dfe.prach := s.dev.dfe.prach ++ [(x.val, k)] })) ∧
    (∀ (x : Fin 32) (k : Nat) (inputs : List (List (BitVec 24))), s.dev.dfe.prach.find? (·.1 == x.val) = some (x.val, k) →
      (nextAnd (exec (.prachDone x inputs) s) fun t => t.dev.dfe.prach = s.dev.dfe.prach.erase (x.val, k)) ∧
      ((s.dev.flag (DFE_PRACH_x_CTL_ENABLE x) = false ∨ s.dev.domRun (40 + x.val / 8) = false) →
        exec (.prachDone x inputs) s = .next (s.on <| { s.dev with dfe.prach := s.dev.dfe.prach.erase (x.val, k) }))) ∧
    (∀ (chain : Fin 64) (start : Nat) (len : Fin 65537) (dst : BitVec 40), let k := chain.val / 8
      (s.dev.domRun (36 + chain.val / 16) = false ∨ 4 ≤ (s.dev.orxCaps k).length →
        exec (.orxCapture chain start len dst) s = .next (s.on <| s.dev.bump (DFE_ORX_k_REFUSED k))) ∧
      (s.dev.domRun (36 + chain.val / 16) = true → (s.dev.orxCaps k).length < 4 →
        (len.val = 0 → exec (.orxCapture chain start len dst) s = .next (s.on <| s.dev.bump (DFE_ORX_k_CAPS k))) ∧
        (len.val ≠ 0 → (s.dev.orxCaps k = [] → exec (.orxCapture chain start len dst) s =
          .next (s.on <| s.dev.setOrxCaps k [⟨chain, nsT start, len, dst.toNat⟩])) ∧
          ∀ x, (s.dev.orxCaps k).getLast? = some x → exec (.orxCapture chain start len dst) s =
            .next (s.on <| s.dev.setOrxCaps k (s.dev.orxCaps k ++ [⟨chain, max (nsT start) (x.start + txT x.len), len, dst.toNat⟩]))))) ∧
    (∀ (k : Fin 8) (seen : List (BitVec 24)) (x : OrxCap) (rest : List OrxCap), s.dev.orxCaps k = x :: rest →
      let lat := s.dev.rf (DFE_ORX_k_LAT k)
      let d0 := ((s.dev.advanceTo (s.dev.feTime (x.start + txT (x.len + lat)))).txDrainAll).setOrxCaps k rest
      let d1 : Dev := { d0 with dfe.orxSel := Tab.setD (fun _ => 0) d0.dfe.orxSel k x.chain }
      (d1.domRun (36 + x.chain / 16) = false → exec (.orxCaptureDone k seen) s = .next (s.on <| d1.bump (DFE_ORX_k_REFUSED k))) ∧
      (d1.domRun (36 + x.chain / 16) = true →
        let xy (j : Nat) : Smp × Smp := Tab.getD (fun _ => ((0, 0), (0, 0))) (d1.txChan x.chain).hist (d1.txAt x.start + j)
        let obs (j : Nat) : Smp := if d1.linkLive (8 + k.val / 4) 0 (x.start + txT (j + lat)) = true then unpackSmp (nth 0 seen (j + lat)).toNat else (0, 0)
        let l := upTo x.len
        let keep := d1.cal.got.filter fun c => d1.calRunning 0 c.chain
        let d2 : Dev := { d1 with cal.got := if x.len = 16384 ∧ d1.calRunning 0 x.chain = true then
          keep ++ [⟨x.chain, x.start, l.map fun j => (xy j).1, l.map obs⟩] else keep }
        exec (.orxCaptureDone k seen) s = .next (s.on <| (d2.busWrite 12 none x.dst (l.flatMap (fun j => packSmp (obs j)) ++
          l.flatMap (fun j => packSmp (xy j).1) ++ l.flatMap fun j => packSmp (xy j).2)).1.bump (DFE_ORX_k_CAPS k)))) ∧
    (∀ (l : Fin 64) (ns : Nat), 3 ≤ s.dev.rf (DFE_GPIO_l_CFG_MODE l) → s.dev.rf (DFE_GPIO_l_CFG_MODE l) ≤ 6 → s.dev.domOn 78 = true → s.dev.pmu.park = none →
      nextAnd (exec (.rfLineEdge l ns) s) fun t => Tab.getD (fun _ => false) t.dev.dfe.lines l = (t.dev.lineActive l != t.dev.flag (DFE_GPIO_l_CFG_INVERT l)) ∧
        ∀ k, k ≠ l.val → Tab.getD (fun _ => false) t.dev.dfe.lines k = Tab.getD (fun _ => false) s.dev.dfe.lines k) ∧
    (∀ e : Fin 256, let d := s.dev; let n := d.rf (DFE_GEV_e_CFG_TIMELINE e)
      let k := d.nextPhase n (d.rf (DFE_GEV_e_REP_MOD e)) (d.rf (DFE_GEV_e_REP_PHASE e)) (toSigned 32 (d.reg (rDFE_GEV_e_OFFSET e)))
      let c := d.asOf n k; let line := c.rf (DFE_GEV_e_CFG_LINE e); let t := d.phaseTime n k (toSigned 32 (c.reg (rDFE_GEV_e_OFFSET e)))
      d.flag (TMU_TLn_CTL_ENABLE n) = true → d.domOn 78 = true → c.flag (DFE_GEV_e_CTL_ENABLE e) = true → c.rf (DFE_GPIO_l_CFG_MODE line) = 2 →
      c.rf (DFE_GEV_e_REP_PHASE e) < c.rf (DFE_GEV_e_REP_MOD e) → k % c.rf (DFE_GEV_e_REP_MOD e) = c.rf (DFE_GEV_e_REP_PHASE e) → d.feNow ≤ t →
      d.pmu.park = none → Tab.find d.dfe.gev line = none → exec (.gevAction e) s = .next (s.on <|
        let d1 := d.advanceTo (d.feTime t)
        { d1.setLine line (c.flag (DFE_GEV_e_CFG_LEVEL e)) with dfe.gev := Tab.put d1.dfe.gev line (t, e.val) })) ∧
    (∀ (drift : BitVec 16) (rx : List (Fin 64 × List (BitVec 24))), s.dev.dfe.epoch = none → exec (.feTimeCheck (drift, rx)) s = .next s) ∧
    (∀ (drift : BitVec 16) (a e0 : Nat), s.dev.dfe.epoch = some (a, e0) →
      let d0 := s.dev.advanceTo (s.dev.dfe.checkAt + msT 1)
      let e := if 0 ≤ drift.toInt then e0 - tickT drift.toInt.toNat else e0 + tickT (-drift.toInt).toNat
      let d1 : Dev := { d0 with dfe.epoch := some (a, e), dfe.checkAt := d0.now }
      let diff := roundDiv (((a : Int) - e) * 1536) (3125 * 2 ^ 32)
      diff ≤ 32767 → -32768 ≤ diff →
        (diff.natAbs ≤ 2 → exec (.feTimeCheck (drift, [])) s = .next (s.on <| d1.wf DFE_TIME_ERR (ofSigned 16 diff))) ∧
        (2 < diff.natAbs → exec (.feTimeCheck (drift, [])) s = .next (s.on <| (d1.wf DFE_TIME_ERR (ofSigned 16 diff)).event 2 2 (ofSigned 32 diff) 0 0))) ∧
    (∀ (init : Initiator) (u : Fin 10) (value : Word) (cmds : Nat), let r := s.dev.busWr init (jReg u 0) value.toNat
      r.2 = .yes cmds →
        (s.dev.flag (jesdEnable u) = r.1.flag (jesdEnable u) → exec (.jesdEnable init u value) s = .next (s.on r.1)) ∧
        (s.dev.flag (jesdEnable u) ≠ r.1.flag (jesdEnable u) → exec (.jesdEnable init u value) s = .next (s.on <| r.1.unitSwitch u))) ∧
    (∀ ticks : Nat, let t := s.dev.now + tickT ticks; let d1 := s.dev.advanceTo t
      (d1.anyUnit = false → exec (.sysrefEdge ticks) s = .next (s.on d1)) ∧
      (d1.anyUnit = true → nextAnd (exec (.sysrefEdge ticks) s) fun r =>
        (d1.dfe.epoch = none → r.dev.dfe.epoch = some (t, t)) ∧ (∀ x, d1.dfe.epoch = some x → r.dev.dfe.epoch = some x) ∧
        (∀ u < 10, s.dev.flag (jesdEnable u) = true → (Tab.find r.dev.dfe.lemc u).isSome = true) ∧
        (∀ u < 10, ∀ x, Tab.find s.dev.dfe.lemc u = some x → Tab.find r.dev.dfe.lemc u = some x))) ∧
    (∀ (u : Fin 10) (i : Fin 12) (a : Nat), let rate := s.dev.jRate u
      let lanes := (upTo (linkLanes rate)).map fun j => s.dev.unitLane u (i.val * linkLanes rate + j)
      4 ≤ u.val → s.dev.unitRuns u = true → Tab.find s.dev.dfe.lemc u = some a → i.val < unitLinks u rate → s.dev.flag (linkUpF u i) = false →
      (lanes.all fun x => s.dev.domRun (laneDom x) && s.dev.flag (ZTH_Li_STS_CDR_LOCK x)) = true →
      nextAnd (exec (.jesdLinkUp u i) s) fun t => t.dev.flag (linkUpF u i) = true ∧ (t.dev.dfe.lost.contains (u.val, i.val)) = false) ∧
    (∀ (u : Fin 10) (lane : Fin 12) (sh crc : Word) (locked : Bool), let i := lane.val / linkLanes (s.dev.jRate u)
      4 ≤ u.val → s.dev.flag (jesdEnable u) = true → lane.val < (unitLanes u).length →
      let d1 := (s.dev.bumpBy (jCount u 6) sh.toNat).bumpBy (jCount u 7) crc.toNat
      ((locked = true ∨ s.dev.flag (linkUpF u i) = false) → exec (.jesdLinkDown u (lane, locked) sh crc) s = .next (s.on d1)) ∧
      (locked = false → s.dev.flag (linkUpF u i) = true → exec (.jesdLinkDown u (lane, locked) sh crc) s = .next (s.on <|
        let d2 := (d1.linkEnds u i).setFlag (linkUpF u i) false
        { d2 with dfe.lost := (u.val, i) :: d2.dfe.lost }.laneLost (d2.unitLane u lane)))) ∧
    (∀ (u : Fin 10) (v n k : Nat), s.dev.dfe.remaps.find? (·.1 == u.val) = some (v, n, k) → nextAnd (exec (.laneRemap u) s) fun t =>
      (t.dev.dfe.remaps.any (·.1 == u.val)) = false ∧ (u.val < 4 → t.dev.flag (jPending u) = false) ∧
      (s.dev.flag (jUse u) = false → Tab.find t.dev.dfe.spares u = none))

/-! ### The narrowband bank -/

/-- Roles, transmission, floor, detection and reports of narrowband channels. -/
def Obligations.NarrowbandRules : Prop :=
  ∀ s : State,
    (∀ c : PqCmd, let d := s.began c; let n := pp c 0
      let p : NbPar := ⟨pp c 1, pp c 2, pp c 3, pp c 4, pp c 5, pp c 6, pSigned c 7, pp c 8, pp c 9, pp c 10, c.timeline.toNat⟩
      (s.ready 0x0205 c = true → d.badTarget c = false → n < 256 → p.dir < 2 → nbLegal false p.mod (3 * p.baud) p.sps p.bt p.h p.offsetHz = true →
        (p.dir = 0 → p.capMode < 2 ∧ 6 ≤ p.capTh ∧ p.capTh ≤ 30) → (p.dir = 1 → p.capMode = 0 ∧ p.capTh = 0) → p.upq ≤ 63 →
        d.rf (TMU_TLn_CFG_KIND p.tl) = 2 → d.nbCarrier n = false → d.nbTaken n = false → d.nbOther n (1 - p.dir) = none →
        d.domRun (44 + p.dir) = true → d.nbHas n p.dir = false → d.nbCount p.dir < (if p.dir = 0 then 256 else 64) →
        exec (.nbChannelAdd c) s = .next (s.on <| (d.stage c 0x0205 false (.nbAdd n p)).fin c okS)) ∧
      (∀ q : NbShared, s.ready 0x0206 c = true → d.badTarget c = false → n < 256 → d.nbCarrier n = false → d.nbTaken n = false → d.nbHas n 0 = true →
        d.nbOther n 0 = some q → q.tl = c.timeline.toNat →
        exec (.nbChannelRemove c) s = .next (s.on <| (d.stage c 0x0206 false (.nbRemove n)).fin c okS))) ∧
    (∀ (m : Fin 64) (e data : List Byte), s.dev.hasUpEntry m = true → myTurn 64 s.dev.hif.rrUp m s.dev.hasUpEntry = true → leAt e 0 1 = 3 →
      let d : Dev := { s.dev.pastEntry (64 + m) with hif.rrUp := (m + 1) % 64 }
      let n := leAt e 1 1; let tl := leAt e 20 1 % 4; let start := leAt data 0 4; let nb := leAt data 4 2
      let t := d.nbSample (d.boundaryT tl (d.airK tl (leAt e 6 2)) + nsT start)
      let p : NbPkt := ⟨leAt e 2 2, (d.nbPair n).getD m, tl, leAt e 6 2, start, nb, (upTo ((nb + 7) / 8)).map fun i => nth 0 data (8 + i), t, none, none⟩
      let mo := d.nbModOf n
      let meets (q : NbPkt) : Bool := let mq := d.pktMod n q; decide (q.rise mq < p.gone mo) && decide (p.rise mo < q.gone mq)
      upBad e = false → leAt e 4 2 = 0xFFFF → 8 ≤ leAt e 16 4 → d.obOk (leAt e 8 8) (leAt e 16 4) = true → start < d.periodNs tl →
      nb ≤ 8 * (leAt e 16 4 - 8) → (d.nbLog2M n = 2 → nb % 2 = 0) → leAt data 6 2 = 0 → (d.nbCarrier n = true → start = 0 ∧ nb = 148) →
        (d.flag (NBB_CHn_CTL_TX_EN n) = false → exec (.nbTx m e data) s = .next (s.on <| d.nbDone n p 32 0)) ∧
        (d.flag (NBB_CHn_CTL_TX_EN n) = true → (d.flag (TMU_TLn_CTL_ENABLE tl) = false ∨ d.future tl (leAt e 6 2) = false ∨ p.rise mo < d.feNow + usT 200) →
          exec (.nbTx m e data) s = .next (s.on <| d.nbDone n p 4 0)) ∧
        (d.flag (NBB_CHn_CTL_TX_EN n) = true → d.flag (TMU_TLn_CTL_ENABLE tl) = true → d.future tl (leAt e 6 2) = true →
          ahead (d.refK tl) (leAt e 6 2) ≤ 256 → d.feNow + usT 200 ≤ p.rise mo →
            (((d.nbHeld n).any meets) = true → exec (.nbTx m e data) s = .next (s.on <| d.nbDone n p 8 0)) ∧
            (((d.nbHeld n).any meets) = false →
              (8 ≤ (d.nbHeld n).length → exec (.nbTx m e data) s = .next (s.on <| d.nbDone n p 16 0)) ∧
              ((d.nbHeld n).length < 8 → d.marrow.cfg.mask = 0 →
                exec (.nbTx m e data) s = .next (s.on <| d.setHeld n ((d.nbHeld n ++ [p]).mergeSort fun a b => decide (a.t ≤ b.t))))))) ∧
    (∀ (n : Fin 256) (p : NbPkt) (q : List NbPkt), s.dev.nbHeld n = p :: q →
      (p.onAir = none → let d1 := (s.dev.advanceTo (s.dev.feTime (p.rise (s.dev.nbModOf n)))).txDrainAll
        (d1.nbTxOn n = true → exec (.nbTxStart n) s = .next (s.on <| d1.setHeld n ({ p with onAir := some (s.dev.nbModOf n) } :: q))) ∧
        (d1.nbTxOn n = false → exec (.nbTxStart n) s = .next (s.on <| (d1.setHeld n q).nbDone n p 32 0))) ∧
      (p.onAir.isSome = true → ∀ tag : BitVec 16, p.tag = tag.toNat → let d1 := ((s.dev.advanceTo (s.dev.feTime (p.gone (s.dev.pktMod n p)))).txDrainAll).setHeld n q
        (p.cut = none → exec (.nbTxDone n tag) s = .next (s.on <| d1.nbDone n p 0 p.bits)) ∧
        ∀ sent, p.cut = some sent → exec (.nbTxDone n tag) s = .next (s.on <| d1.nbDone n p 32 sent.1))) ∧
    (∀ (n : Fin 256) (p : BitVec 16) (x : NbChan), Tab.find s.dev.nbb.chans n = some x → s.dev.nbRxOn n = true →
      let d1 := s.dev.advanceTo (x.msAt + msT 1)
      let y : NbChan := { x with msAt := x.msAt + msT 1, idle := 0, idleFrom := x.idleFrom.map fun _ => d1.now }
      (x.idleNow d1.now < usT 500 → exec (.nbFloorUpdate n p) s = .next (s.on <| d1.nbSet n y (d1.rf (NBB_CHn_STS_STATE n)))) ∧
      (usT 500 ≤ x.idleNow d1.now → d1.rf (NBB_CHn_STS_STATE n) = 1 →
        exec (.nbFloorUpdate n p) s = .next (s.on <| (d1.wf (NBB_CHn_FLOOR_NF n) (ofSigned 16 p.toInt)).nbSet n y 2)) ∧
      (usT 500 ≤ x.idleNow d1.now → d1.rf (NBB_CHn_STS_STATE n) = 2 → let nf := toSigned 16 (d1.rf (NBB_CHn_FLOOR_NF n))
        (p.toInt - nf) % 8 = 0 → exec (.nbFloorUpdate n p) s =
          .next (s.on <| (d1.wf (NBB_CHn_FLOOR_NF n) (ofSigned 16 (nf + (p.toInt - nf) / 8))).nbSet n y 2))) ∧
    (∀ (n : Fin 256) (ins : List (BitVec 24)) (gains : List Word) (prim shad : BitVec 16) (mag : Byte) (gain : Word) (ferr quarter level : BitVec 16)
      (x0 : NbChan), Tab.find s.dev.nbb.chans n = some x0 → s.dev.nbRxOn n = true →
      let i : Instr := .nbSymbolEnd n ins gains prim shad mag gain ferr quarter level
      let r := s.dev.nbMeasure n x0 ⟨ins, gains.map (·.toNat), prim.toNat, shad.toNat, mag.toNat, gain.toNat, ferr.toNat, quarter.toInt, level.toInt⟩
      let x := r.2.1; let m := r.2.2
      let d1 := r.1.wf (NBB_CHn_RSSI n) (ofSigned 16 m.rssi)
      let th := toSigned 16 (d1.rf (NBB_CHn_FLOOR_NF n)) + 2 * (d1.rf (NBB_CHn_DET_MARGIN n) : Int)
      (x.syms = x0.syms + 1 ∧ x.rssi = (m.rssi :: x0.rssi).take 41 ∧ (x0.lock.isSome = true → x.gain = x0.gain) ∧ x.lock = x0.lock) ∧
      (d1.nbCarrier n = false →
        (d1.rf (NBB_CHn_STS_STATE n) < 2 → exec i s = .next (s.on <| d1.nbSet n x (d1.rf (NBB_CHn_STS_STATE n)))) ∧
        (d1.rf (NBB_CHn_STS_STATE n) = 2 →
          (th ≤ m.rssi → exec i s = .next (s.on <| d1.nbSet n (candidate x) 3)) ∧
          (m.rssi < th → exec i s = .next (s.on <| d1.nbSet n x 2))) ∧
        (d1.rf (NBB_CHn_STS_STATE n) = 3 → exec i s = .next (s.on <| d1.nbQualify n false x m false)) ∧
        (∀ k, d1.rf (NBB_CHn_STS_STATE n) = 4 → x0.lock = some k → exec i s = .next (s.on <| d1.nbLocked n x k m)))) ∧
    (∀ (n : Fin 256) (x : NbChan) (c : NbCtx) (m : NbMeas) (dist : Nat), (s.dev.nbLockNow n false x c m dist).rf (NBB_CHn_STS_AGC_FROZEN n) =
      if (s.dev.nbLockNow n false x c m dist).rf (NBB_CHn_STS_STATE n) = 4 then 1 else 0) ∧
    (∀ (n : Fin 256) (tsc : Fin 8) (pick level ferr : BitVec 16) (up : Bool) (seen : List (BitVec 24) × Word × List Byte),
      s.dev.nbCarrier n = true → s.dev.flag (NBB_CHn_CTL_RX_EN n) = true → s.dev.nbRxOn n = true →
      ((s.dev.gsmSlot n).1 = 1 → seen.2.2.length = 116 → nextAnd (exec (.gsmBurstRx n tsc pick level ferr up seen) s) fun t =>
        ∃ r : NbReport, t.dev.nbb.reports = s.dev.nbb.reports ++ [r] ∧ r.ch = n ∧ r.reason = 0 ∧ r.lock.maxb = 116 ∧ r.data.length = 116 ∧
          r.pair = t.dev.nbPair n ∧ r.lock.k = (s.dev.gsmSlot n).2.1) ∧
      ((s.dev.gsmSlot n).1 ≠ 1 → exec (.gsmBurstRx n tsc pick level ferr up seen) s = .next s)) ∧
    (s.dev.nbb.reports = [] → exec .nbRxReport s = .next s) ∧
    (∀ (r : NbReport) (rest : List NbReport), s.dev.nbb.reports = r :: rest →
      let d0 : Dev := { s.dev with nbb.reports := rest }
      (r.pair = none → exec .nbRxReport s = .next (s.on d0)) ∧
      (∀ m b q, r.pair = some m → r.reason = 0 → takeBuf (d0.qp (64 + m)).ulbufs r.lock.maxb = some (b, q) →
        nextAnd (exec .nbRxReport s) fun t => ∃ fl body,
          (d0.upRoom m = true → t = s.on ((((d0.updQp (64 + m) fun x => { x with ulbufs := q }).hostWrite b.addr r.data)).up m b.tag okS 0x83 fl body r.data)) ∧
          (d0.upRoom m = false → t = s.on (d0.up m b.tag okS 0x83 fl body))) ∧
      (∀ m, r.pair = some m → takeBuf (d0.qp (64 + m)).ulbufs r.lock.maxb = none → r.reason = 0 →
        nextAnd (exec .nbRxReport s) fun t => ∃ fl body, t = s.on ((d0.bump (NBB_CHn_NOBUF r.ch)).up m 0xFFFF okS 0x83 fl body))) ∧
    (∀ (init : Initiator) (n : Fin 256) (value : Word) (cmds : Nat), let r := s.dev.busWr init (rNBB_CHn_CTL n) value.toNat
      let rx0 := s.dev.flag (NBB_CHn_CTL_RX_EN n); let tx0 := s.dev.flag (NBB_CHn_CTL_TX_EN n)
      r.2 = .yes cmds → (rx0 = true ∨ r.1.flag (NBB_CHn_CTL_RX_EN n) = false ∨ s.dev.nbRxOk n = true) →
        ((tx0 = true ∨ r.1.flag (NBB_CHn_CTL_TX_EN n) = false ∨ (s.dev.nbStaged n 1).isSome = true ∨ s.dev.nbCount 1 < 64) →
          exec (.nbChannelCtlWrite init n value) s = .next (s.on <| r.1.nbRoles n rx0 tx0)) ∧
        (tx0 = false → r.1.flag (NBB_CHn_CTL_TX_EN n) = true → s.dev.nbStaged n 1 = none → 64 ≤ s.dev.nbCount 1 → exec (.nbChannelCtlWrite init n value) s =
          .next (s.on <| ((r.1.setFlag (NBB_CHn_CTL_TX_EN n) false).regErr .ignored (rNBB_CHn_CTL n) init).nbRoles n rx0 tx0)))

/-! ### Carriers -/

/-- The carrier commands are staged and answered at once, each context told; status reads it back. Their boundary writes or clears the
context. -/
def Obligations.CarrierRules : Prop :=
  ∀ s : State,
    (∀ c : PqCmd, let d := s.began c; let cc := pp c 0; let n := c.timeline.toNat; let p := carPar c
      (s.ready 0x0201 c = true → (d.badTarget c = true ∨ d.carBad cc n c.target.toNat p = true) →
        exec (.carrierAdd c) s = .next (s.on <| d.fin c badParam)) ∧
      (s.ready 0x0201 c = true → d.badTarget c = false → d.carBad cc n c.target.toNat p = false →
        ((Tab.find d.fw.carriers cc).isSome = true ∨ d.ccOn cc = true ∨ d.ethCcOn cc = true ∨ (p.std = 2 ∧ d.gsmChannels p.portCount = none) →
          exec (.carrierAdd c) s = .next (s.on <| d.fin c busyS)) ∧
        (∀ chs, Tab.find d.fw.carriers cc = none → d.ccOn cc = false → d.ethCcOn cc = false →
          (p.std = 2 → d.gsmChannels p.portCount = some chs) → (p.std ≠ 2 → chs = []) →
            let d1 := d.stage c 0x0201 false (.carrierAdd cc p (hasMirror c) chs)
            exec (.carrierAdd c) s = .next (s.on <| { d1 with fw.carriers := Tab.put d1.fw.carriers cc ⟨p, n, 1, 0, 0, hasMirror c, false⟩ }.fin c okS))) ∧
      (∀ x : Carrier, Tab.find d.fw.carriers cc = some x → x.tl = n → d.badTarget c = false → d.addLater cc n c.target.toNat = false →
        (s.ready 0x0202 c = true → x.state ≠ 3 → d.carBad cc n c.target.toNat p = false →
          ((p.std ≠ 2 ∨ (x.par.std = 2 ∧ x.par.portCount = p.portCount) ∨ (d.gsmChannels p.portCount).isSome = true) →
            exec (.carrierModify c) s = .next (s.on <| (d.stage c 0x0202 false (.carrierModify cc p (hasMirror c))).fin c okS)) ∧
          (p.std = 2 → (x.par.std ≠ 2 ∨ x.par.portCount ≠ p.portCount) → d.gsmChannels p.portCount = none →
            exec (.carrierModify c) s = .next (s.on <| d.fin c busyS))) ∧
        (s.ready 0x0203 c = true →
          (x.state = 3 → exec (.carrierRemove c) s = .next (s.on <| d.fin c busyS)) ∧
          (x.state ≠ 3 → let d1 := d.stage c 0x0203 false (.carrierRemove cc)
            exec (.carrierRemove c) s = .next (s.on <| { d1 with fw.carriers := Tab.upd d1.fw.carriers cc fun x => { x with state := 3 } }.fin c okS)))) ∧
      (Tab.find d.fw.carriers cc = none →
        (s.ready 0x0202 c = true → exec (.carrierModify c) s = .next (s.on <| d.fin c badParam)) ∧
        (s.ready 0x0203 c = true → exec (.carrierRemove c) s = .next (s.on <| d.fin c badParam)) ∧
        (s.ready 0x0204 c = true → cc < 256 → exec (.carrierStatus c) s = .next (s.on <| d.finR c [0, 0, 0, 0, 0]))) ∧
      (∀ x : Carrier, s.ready 0x0204 c = true → cc < 256 → Tab.find d.fw.carriers cc = some x → exec (.carrierStatus c) s = .next (s.on <|
        d.finR c [x.state, x.tl, x.served % 65536, x.drops, b2n (x.mirror && d.paired)]))) ∧
    (∀ (d : Dev) (cc n : Nat) (p : CarrierPar) (mirror : Bool) (chs : List Nat), cc < 256 → (∀ x ∈ chs, x < 256) →
      let t := d.carAddNow cc n p mirror chs
      Tab.find t.fw.bind cc = some p.upq ∧ ((Tab.find t.fw.carriers cc).map (·.placed)) = some true ∧ t.flag (if p.remote then ETH_CCc_CTL_ENABLE cc else DFE_CCc_CTL_ENABLE cc) = true ∧
      (p.remote = false → t.rf (DFE_CCc_NRB cc) = p.nrb % 2 ^ (DFE_CCc_NRB cc).w) ∧ t.now = d.now ∧ t.cores = d.cores) ∧
    (∀ (init : Initiator) (c : Fin 256) (value : Word) (cmds : Nat), let f := ETH_CCc_CTL_ENABLE c; let r := s.dev.busWr init (rETH_CCc_CTL c) value.toNat
      r.2 = .yes cmds →
        (s.dev.flag f = false → r.1.flag f = true → (r.1.ccOn c = true ∨ r.1.ethFails (r.1.ethSpec c) (r.1.ethOthers c) false ≠ []) →
          exec (.ethCarrierEnable init c value) s = .next (s.on <| (r.1.setFlag f false).regErr .ignored (rETH_CCc_CTL c) init)) ∧
        ((s.dev.flag f = r.1.flag f ∨ r.1.flag f = false ∨ (r.1.ccOn c = false ∧ r.1.ethFails (r.1.ethSpec c) (r.1.ethOthers c) false = [])) →
          exec (.ethCarrierEnable init c value) s = .next (s.on r.1)))

/-! ### The Ethernet engine -/

/-- Frames are counted and go where they belong; windows close; downlink symbols are sent or counted; the message path, timestamps and
associations. -/
def Obligations.EthernetRules : Prop :=
  ∀ s : State,
    (∀ (k : Fin 16) (frame : List Byte) (fcs : Bool) (plain : Option (List Byte)) (slot : BitVec 40),
      let gap := Tab.getD (fun _ => 0) s.dev.zth.gaps (k.val / 4)
      (s.dev.ethUp k = false ∨ s.dev.now < gap → exec (.ethFrameRx k frame fcs plain slot) s = .next s) ∧
      (s.dev.ethUp k = true → s.dev.flag (ETH_Pp_CTL_ENABLE (k.val / 4)) = true → gap ≤ s.dev.now →
        let d1 := s.dev.bump (ETH_Lk_RX_FRAMES k)
        (fcs = false → exec (.ethFrameRx k frame fcs plain slot) s = .next (s.on <| s.dev.bump (ETH_Lk_RX_FCS k))) ∧
        (fcs = true → d1.msecRx k frame plain = none → exec (.ethFrameRx k frame fcs plain slot) s = .next (s.on <| d1.bump (ETH_Lk_MSEC_BAD k))) ∧
        (∀ f secure x, fcs = true → d1.msecRx k frame plain = some (f, secure) → d1.upStream k f = some x →
          exec (.ethFrameRx k frame fcs plain slot) s = .next (s.on <| d1.uplaneRx k x f (s.dev.rxStamp k) slot.toNat)) ∧
        (∀ f secure, fcs = true → d1.msecRx k frame plain = some (f, secure) → d1.upStream k f = none →
          (d1.msgDest k f = true → exec (.ethFrameRx k frame fcs plain slot) s = .next (s.on <| d1.msgRx k f secure (s.dev.rxStamp k))) ∧
          (d1.msgDest k f = false → exec (.ethFrameRx k frame fcs plain slot) s = .next (s.on <| d1.bump (ETH_Lk_RX_OTHER k)))))) ∧
    (∀ (c : Fin 256) (air : BitVec 16) (l : Fin 14) (slot : BitVec 40), let d := s.dev; let n := d.rf (ETH_CCc_CFG_TIMELINE c)
      let x := d.ethSym c (d.airK n air.toNat) l
      d.ethCcOn c = true → d.symOk x = true →
        (d.symIs x (d.flag (ETH_CCc_CFG_TDD c)) (d.rf (ETH_CCc_CFG_PAT c)) 2 = true → nextAnd (exec (.ulWindowClose c air l slot) s) fun t =>
          (t.dev.eth.syms.any fun z => z.cc == c.val && z.k == x.k && z.sym == l.val) = false ∧ t.sec = s.sec) ∧
        (let r := (d.advanceTo (d.symAir x - (d.ccRadio c ETH_RAD_r_DLADV + usT 2))).busRead
           (ethStop ((d.advanceTo (d.symAir x - (d.ccRadio c ETH_RAD_r_DLADV + usT 2))).rf (ETH_ST_s_CFG_LINK (d.rf (ETH_CCc_PORTS_FIRST c))) / 4)) (slot.toNat + 4 * l.val) 4
         d.symIs x (d.flag (ETH_CCc_CFG_TDD c)) (d.rf (ETH_CCc_CFG_PAT c)) 1 = true →
          (readyOk r.2 air.toNat l = false → ∀ late, exec (.dlSymbolFetch c air l slot late) s = .next (s.on <| r.1.bump (ETH_CCc_ZERO_SYM c))) ∧
          (readyOk r.2 air.toNat l = true → exec (.dlSymbolFetch c air l slot []) s = .next (s.on <|
            (upTo (d.rf (ETH_CCc_PORTS_COUNT c))).foldl (fun e p => e.dlPort c (d.rf (ETH_CCc_PORTS_FIRST c) + p)
              (slot.toNat + 64 + (l.val * d.rf (ETH_CCc_PORTS_COUNT c) + p) * 36 * d.rf (ETH_CCc_NRB c)) x) r.1.wireGone)))) ∧
    (∀ (d : Dev) (k : Nat) (clear : Bool) (f : List Byte), d.ethUp k = true →
      (d.flag (ETH_Lk_MSEC_ENABLE k) = false ∨ clear = true → d.sendFrame k clear f = ((d.leaves ⟨k, f, none⟩).bump (ETH_Lk_TX_FRAMES k), true)) ∧
      (∀ x, d.flag (ETH_Lk_MSEC_ENABLE k) = true → clear = false → d.txSak k = some x → x.pn < 0xFFFFFFFF →
        (d.sendFrame k clear f).2 = true ∧ (d.sendFrame k clear f).1.eth.wire = d.eth.wire ++ [⟨k, f, some (x.sci, x.an, x.pn + 1, d.flag (ETH_Lk_MSEC_CONF k))⟩]) ∧
      (∀ x, d.flag (ETH_Lk_MSEC_ENABLE k) = true → clear = false → d.txSak k = some x → 0xFFFFFFFF ≤ x.pn → d.sendFrame k clear f = (d.bump (ETH_Lk_PN_STOP k), false))) ∧
    (∀ (init : Initiator) (p q : Fin 4) (value : Word) (cmds : Nat), let f := ETH_MQ_p_TXq_TAIL p q; let r := s.dev.busWr init (rETH_MQ_p_TXq_TAIL p q) value.toNat
      r.2 = .yes cmds →
        (r.1.rf f < s.dev.mqSize p q → exec (.msgTxTailWrite init p q value) s = .next (s.on r.1)) ∧
        (s.dev.mqSize p q ≤ r.1.rf f → exec (.msgTxTailWrite init p q value) s = .next (s.on <| (r.1.wf f (s.dev.rf f)).regErr .ignored (rETH_MQ_p_TXq_TAIL p q) init))) ∧
    (∀ (p q : Fin 4) (late : Nat), let h := s.dev.rf (ETH_MQ_p_TXq_HEAD p q)
      let r := s.dev.busRead (ethStop p) (s.dev.mqBase p q + 32 * h) 32
      s.dev.flag (ETH_Pp_CTL_ENABLE p) = true → s.dev.flag (ETH_MQ_p_TXq_CTL_ENABLE p q) = true → h ≠ s.dev.rf (ETH_MQ_p_TXq_TAIL p q) → s.dev.domRun (57 + p.val) = true →
        (r.2 = none → let e := r.1.health 8 5 (p.val + 4 * q.val)
          exec (.msgTxLaunch p q late) s = .next (s.on <| e.wf (ETH_MQ_p_TXq_HEAD p q) ((h + 1) % e.mqSize p q))) ∧
        (∀ e b, r.2 = some e → leAt e 0 8 = 0 → 60 ≤ leAt e 16 2 → leAt e 16 2 ≤ r.1.rf (ETH_Pp_FRAME_MAX p) →
          let x := r.1.busRead (ethStop p) (leAt e 8 8) (leAt e 16 2); let k := 4 * p.val + leAt e 20 1 % 4
          x.2 = some b → x.1.ethUp k = true → x.1.flag (ETH_Lk_MSEC_ENABLE k) = false → bitAt (leAt e 20 1) 2 = false →
            let w := (((x.1.wireGone.leaves ⟨k, b, none⟩).bump (ETH_Lk_TX_FRAMES k)).busWrite (ethStop p) none (s.dev.mqBase p q + 32 * h + 21) [1]).1
            exec (.msgTxLaunch p q late) s = .next (s.on <| w.wf (ETH_MQ_p_TXq_HEAD p q) ((h + 1) % w.mqSize p q))) ∧
        (∀ e, r.2 = some e → leAt e 16 2 < 60 → leAt e 0 8 = 0 → let w := (r.1.busWrite (ethStop p) none (s.dev.mqBase p q + 32 * h + 21) [5]).1
          exec (.msgTxLaunch p q late) s = .next (s.on <| w.wf (ETH_MQ_p_TXq_HEAD p q) ((h + 1) % w.mqSize p q)))) ∧
    (∀ (init : Initiator) (p : Fin 4) (value : Word) (cmds : Nat), let r := s.dev.busWr init (rETH_TSQ_p_CTL p) value.toNat
      r.2 = .yes cmds →
        (bitAt cmds 0 = true → r.1.tsq p ≠ [] → exec (.tsqPop init p value) s = .next (s.on <| (r.1.setTsq p ((r.1.tsq p).drop 1)).bump (ETH_TSQ_p_POPPED p))) ∧
        (bitAt cmds 0 = false ∨ r.1.tsq p = [] → exec (.tsqPop init p value) s = .next (s.on r.1))) ∧
    (∀ (d : Dev) (p : Nat) (x : TsEntry), p < 4 →
      ((d.tsq p).length < 32 → (d.tsPush p x).tsq p = d.tsq p ++ [x]) ∧ (32 ≤ (d.tsq p).length → (d.tsPush p x).tsq p = d.tsq p)) ∧
    (∀ (k : Fin 16) (tx : Bool) (sci : BitVec 64) (an : Fin 4) (slot : Fin 16), s.mkaKey k slot = false → exec (.macsecSakInstall k tx sci an slot) s = .next s) ∧
    (∀ (k : Fin 16) (sci : BitVec 64) (an : Fin 4) (slot : Fin 16), s.mkaKey k slot = true → s.dev.flag (ETH_Lk_MSEC_ENABLE k) = true → s.dev.domOn (57 + k.val / 4) = true →
      nextAnd (exec (.macsecSakInstall k true sci an slot) s) fun t => t.dev.txSak k = some ⟨k, true, sci.toNat, an, slot, 0⟩ ∧
        t.dev.flag (ETH_Lk_MSEC_SAK_READY k) = true ∧ t.dev.now = s.dev.now ∧ t.dev.mem = s.dev.mem)

/-! ### Boot, fuses, the alarm, debug unlock -/

/-- BOOT acts only on a controller that is off, under ROOT_LOCK and without a thermal trip; with no valid firmware image it ends in
RECOVERY, SEALED as before. RECOVERY_GO takes the image or counts an alarm. An alarm source is logged and its action taken: action 2 drops
the keys and the debug session, action 5 blows KEK_DEAD; re-sense, integrity check. A fuse command changes its own slot alone, and no
blown slot of F2 to F4. SVN_RAISE a day after the image started. Challenge and response, failures, lock-out. -/
def Obligations.SecurityRules : Prop :=
  ∀ s : State,
    (∀ parity : Bool,
      (s.dev.dom 78 ≠ 3 ∨ s.dev.flag CKR_PLL_STS_ROOT_LOCK = false ∨ s.dev.thm.trip.isSome = true → exec (.boot parity) s = .next s) ∧
      (s.dev.dom 78 = 3 → s.dev.flag CKR_PLL_STS_ROOT_LOCK = true → s.dev.thm.trip = none → exec (.boot parity) s = .next (s.boot parity))) ∧
    ((s.sec.valid 1 s.sec.flash.fwA) = false → (s.sec.valid 1 s.sec.flash.fwB) = false → (s.boot false).dev.flag SEC_BOOT_STS_RECOVERY = true ∧
      (s.boot false).dev.flag SEC_BOOT_STS_SEALED = s.dev.flag SEC_BOOT_STS_SEALED) ∧
    (∀ (init : Initiator) (value : Word) (bar2 : List Byte) (cmds : Nat), let r := (s.dev.bar2In bar2).busWr init rSEC_RECOVERY_CTL value.toNat; let u := s.on r.1
      r.2 = .yes cmds →
        (bitAt cmds 0 = false → exec (.recoveryGo init value bar2) s = .next u) ∧
        (bitAt cmds 0 = true → s.sec.flash.inForce.2.1 + 1 < 2 ^ 32 → nextAnd (exec (.recoveryGo init value bar2) s) fun t => t.pending = s.pending ∧ t.sec.f1 = s.sec.f1 ∧
          if s.sec.valid 1 r.1.recoveryImage = true then
            t.sec.flash.fwA = r.1.recoveryImage ∧ t.sec.flash.fwSlot = 0 ∧ t.sec.flash.btSlot = s.sec.flash.btSlot ∧ t.sec.keys = []
          else t = u.on (r.1.bump SEC_ALARMS))) ∧
    (∀ fired : BitVec 7, exec (.securityAlarm fired) s = .next (s.alarm (alarmSources fired))) ∧
    (s.alarm [] = s) ∧
    (∀ i, s.alarm [i] = (s.alarmLog i).alarmDo [i] (s.dev.alarmAct i)) ∧
    (∀ (srcs : List Nat), nextAnd (.next (s.alarmDo srcs 2)) fun t => t.sec.keys = [] ∧ t.sec.challenge = none ∧ t.dev.eth.saks = [] ∧
      t.dev.rf SEC_KEY_STS_LOADED = 0 ∧ t.dev.rf SEC_DEBUG_STS_LEVEL = 0 ∧ t.sec.f3 = s.sec.f3) ∧
    (∀ (srcs : List Nat), bitAt (s.alarmDo srcs 5).sec.f6 3 = true) ∧
    (exec (.fuseResense true) s = .next (s.alarm [3])) ∧ (exec (.fuseResense false) s = .next s) ∧
    (s.dev.flag SEC_BOOT_STS_SEALED = true → exec (.integrityCheck true) s = .next (s.alarm [6])) ∧ (exec (.integrityCheck false) s = .next s) ∧
    (∀ (slot : Fin 7) (value : BitVec 384), nextAnd (exec (.fuseProg slot value) s) fun t => t.dev = s.dev ∧ t.sec.f0 = s.sec.f0 ∧ t.sec.f1 = s.sec.f1 ∧
      t.sec.f5 = s.sec.f5 ∧ (bitAt s.sec.f6 4 = true → t.sec = s.sec) ∧ (s.sec.f2 ≠ 0 → t.sec.f2 = s.sec.f2) ∧ (s.sec.f3 ≠ 0 → t.sec.f3 = s.sec.f3) ∧
      (s.sec.f4 ≠ 0 → t.sec.f4 = s.sec.f4) ∧ (slot = 2 → bitAt s.sec.f6 4 = false → s.sec.f2 = 0 → t.sec.f2 = value.toNat) ∧
      (slot = 6 → bitAt s.sec.f6 4 = false → t.sec.f6 = s.sec.f6 ||| value.toNat % 32)) ∧
    (s.dev.domOn 78 = true → s.dev.flag SEC_BOOT_STS_RECOVERY = false → s.dev.fw.since + nsT (86400 * 1000000000) ≤ s.dev.now →
      nextAnd (exec .svnRaise s) fun t => t.sec.f1 = s.sec.f1 ||| (2 ^ s.sec.lowerSvn - 1) ∧ t.sec.f0 = s.sec.f0 ∧ t.sec.flash = s.sec.flash ∧ t.dev.now = s.dev.now) ∧
    (s.dev.domOn 78 = false ∨ s.dev.flag SEC_BOOT_STS_RECOVERY = true ∨ s.dev.now < s.dev.fw.since + nsT (86400 * 1000000000) → exec .svnRaise s = .next s) ∧
    (∀ level : Fin 4, (level = 0 ∨ s.sec.lockout.isSome = true → exec (.secChallenge level) s = .next s) ∧
      (level ≠ 0 → s.sec.lockout = none → nextAnd (exec (.secChallenge level) s) fun t => ∃ nonce, t.sec.challenge = some (level.val, nonce) ∧
        t.dev.regs = s.dev.regs ∧ t.dev.now = s.dev.now)) ∧
    (∀ (key sig : List Byte) (holds : List (Fin 80)),
      (exec (.secResponse key sig holds 0) s = .next (match s.responseOk key sig with
        | some lvl => s.openSession lvl holds
        | none => s.failResponse)) ∧
      (s.sec.challenge = none → s.responseOk key sig = none) ∧
      (s.responseOk key sig = none → s.dev.rf SEC_DEBUG_STS_FAILS ≠ 2 → nextAnd (exec (.secResponse key sig holds 0) s) fun t =>
        t.dev.rf SEC_DEBUG_STS_FAILS = min 3 (s.dev.rf SEC_DEBUG_STS_FAILS + 1) ∧ t.sec.challenge = none ∧ t.sec.lockout = s.sec.lockout)) ∧
    (s.sec.lockout = none → exec .debugLockoutExpiry s = .next s) ∧
    (∀ t0, s.sec.lockout = some t0 → nextAnd (exec .debugLockoutExpiry s) fun t => t.sec.lockout = none ∧ t.dev.rf SEC_DEBUG_STS_FAILS = 0 ∧
      t.sec.keys = s.sec.keys ∧ t.pending = s.pending)

/-! ### The Lyre -/

/-- A ready packet, its slots and its turn; acceptance, what goes back in the sideband and on ring M, answers, retry, bounces, epochs, bypass and samples;
a stop whose faults come too fast is drained or bypassed. -/
def Obligations.RingRules : Prop :=
  ∀ s : State,
    let d := s.dev.returnsHome
    let go (e : Dev) : State := s.on (Dev.ringPump (e.lyr.waiting.length + e.lyr.starving.length) [] e)
    (∀ (control : Bool) (src dst : Fin 28) (cls : Fin 4) (type : Fin 8) (txid : BitVec 16) (addr : BitVec 40) (tag : Option (Fin 16)) (len : Fin 257) (data : List Byte),
      let ok := pktFits (d.ringOf control src dst cls) cls type len data
      (src ≠ dst → d.flag (LYR_STOP_s_CTL_BYPASS src) = false → d.flag (LYR_STOP_s_STS_FENCED src) = false → ok = true →
        exec (.ringInject control src dst cls type txid addr tag len data) s = .next (go
          { d with lyr.waiting := d.lyr.waiting ++ [⟨control, src, dst, cls, { newPkt type txid.toNat addr.toNat (tag.map (·.val)) len (if type.val = 1 then [] else data) with
            ready := 6 * d.cyc % 2 ^ 24 }⟩] })) ∧
      (src = dst ∨ d.flag (LYR_STOP_s_CTL_BYPASS src) = true ∨ d.flag (LYR_STOP_s_STS_FENCED src) = true ∨ ok = false →
        exec (.ringInject control src dst cls type txid addr tag len data) s = .next (go d))) ∧
    (∀ (d : Dev) (w : RingWait), w.src < 28 → w.dst < 28 → w.cls < 4 → d.flag (LYR_STOP_s_CTL_BYPASS w.src) = false →
      (isRequest w.pkt.type = true → d.flag (LYR_STOP_s_STS_FENCED w.src) = false) →
      let k := streamKey (d.ringOf w.control w.src w.dst w.cls) w.src w.dst w.cls
      let nib := d.route w.src (d.rf LYR_EPOCH_ACTIVE) w.dst w.cls
      let p0 : RingPkt := { w.pkt with dir := nib / 2 % 2, seq := (d.stream k).nextSeq, epoch := d.rf LYR_EPOCH_ACTIVE }
      let p : RingPkt := { p0 with slots := d.slotsFor k p0 }
      let d1 : Dev := { d with lyr.waiting := d.lyr.waiting.erase w }
      (d.flag (LYR_STOP_s_CTL_BYPASS w.dst) = true ∨ nib / 4 = 2 → d.ringTry w = .gone ((d1.bump (LYR_STOP_s_UNREACHABLE w.src)).ringError w.src k p 4)) ∧
      (d.flag (LYR_STOP_s_CTL_BYPASS w.dst) = false → nib / 4 ≠ 2 →
        (d.ringMay k p = true → d.otherRing (keyRing k) w.src w.dst w.cls = false → d.lyr.starving = [] → d.ringTry w = .gone (d1.ringPut k p)) ∧
        (d.ringMay k p = false ∨ d.otherRing (keyRing k) w.src w.dst w.cls = true → d.ringTry w = .waits))) ∧
    (∀ (d : Dev) (fuel : Nat) (first : List Nat), let l := (first ++ (d.lyr.waiting.map (·.src)).eraseDups).flatMap d.ringPicks
      ((∀ w ∈ l, d.ringTry w = .waits) → Dev.ringPump fuel first d = d) ∧
      (∀ w ws e, l = w :: ws → d.ringTry w = .gone e → Dev.ringPump (fuel + 1) first d = Dev.ringPump fuel [] e)) ∧
    (∀ (d : Dev) (st : Nat) (w : RingWait), (d.ringPicks st).head? = some w →
      (Tab.getD (fun _ => 0) d.lyr.turns st = 15 → (d.lyr.waiting.filter (·.src == st)).head? = some w) ∧
      (Tab.getD (fun _ => 0) d.lyr.turns st ≠ 15 → ∀ v ∈ d.lyr.waiting, v.src = st → v.cls < 4 → w.cls ≤ v.cls)) ∧
    (∀ (d : Dev) (k : Nat) (p : RingPkt), ∀ j ∈ d.slotsFor k p, j < 56 ∧ ((d.slotsUsed (keyRing k) p.dir).contains j) = false ∧
      (keyRing k ≠ 2 → j % 8 = 0 → keyCls k = 0 ∧ let i := 7 * (2 * keyRing k + p.dir) + j / 8
        d.flag (LYR_RSV_e_q_j_VALID (d.rf LYR_EPOCH_ACTIVE) i) = true ∧ d.rf (LYR_RSV_e_q_j_OWNER (d.rf LYR_EPOCH_ACTIVE) i) = keySrc k)) ∧
    (∀ d : Dev, d.returnsHome.lyr.returns = [] ∧ d.returnsHome.lyr.mring = [] ∧ d.returnsHome.mem = d.mem ∧
      ∀ o st, st < 28 → d.lyr.mring = [(o, st)] → d.lyr.returns = [] →
        (d.flag (LYR_STOP_s_STS_BYPASSED st) = true → d.returnsHome = { d with lyr.mring := [] }.bump (LYR_STOP_s_UNREACHABLE st)) ∧
        (d.flag (LYR_STOP_s_STS_BYPASSED st) = false → d.returnsHome = { d with lyr.mring := [] })) ∧
    (∀ (d : Dev) (st k : Nat) (p : RingPkt) (status : Nat), let me := st = keySrc k
      let w (q : RingPkt) : Dev := { d with lyr.waiting := d.lyr.waiting ++ [⟨keyRing k == 2, st, keySrc k, keyCls k, { q with ready := 6 * d.cyc % 2 ^ 24, tries := 0, replays := 0, slots := [] }⟩] }
      (me → isPosted p.type = true → d.ringError st k p status = { d with lyr.bounces := d.lyr.bounces ++ [(st, keyDst k, p.addr, status)] }) ∧
      (me → isPosted p.type = false → d.ringError st k p status = d) ∧
      (¬me → isPosted p.type = true → d.ringError st k p status = w { p with type := 6, status := status, data := [], len := 0, tag := none, orig := keyDst k }) ∧
      (¬me → p.type = 1 → d.ringError st k p status = w { p with type := 2, status := status, data := [], len := 0, tag := none }) ∧
      (¬me → p.type = 4 → d.ringError st k p status = w { p with type := 5, status := status, data := [], len := 0, tag := none })) ∧
    (∀ (d : Dev) (k : Nat) (p : RingPkt), ((d.ringPut k p).stream k).nextSeq = ((d.stream k).nextSeq + 1) % 65536 ∧
      ((d.ringPut k p).stream k).window = (d.stream k).window ++ [p] ∧ ((d.ringPut k p).stream k).flight = (d.stream k).flight ++ [p.seq] ∧
      (∀ j, j ≠ k → (d.ringPut k p).stream j = d.stream j) ∧ (d.ringPut k p).regs = d.regs ∧ (d.ringPut k p).mem = d.mem) ∧
    (∀ st : Fin 28, s.dev.lyr.starving.contains st.val = false →
      exec (.ringStarvation st) s = .next (s.on <| { s.dev with lyr.starving := s.dev.lyr.starving ++ [st.val] })) ∧
    (∀ (ring : Fin 3) (src dst : Fin 28) (cls : Fin 4) (flips : List (Fin 288 × Byte)) (corr : List (Fin 28)) (latency : BitVec 32),
      let k := streamKey ring src dst cls; let x := d.stream k
      (x.flight = [] → exec (.ringPacketAccept ring src dst cls (flips, corr) latency) s = .next (go d)) ∧
      (∀ q rest p, x.flight = q :: rest → x.window.find? (·.seq == q) = some p →
        exec (.ringPacketAccept ring src dst cls (flips, corr) latency) s =
          .next (go ((((corr.map (·.val)).filter (arrivals (keySrc k) (keyDst k) p.dir).contains).foldl (fun d st => d.bump (LYR_STOP_s_HOP_CORR st))
            (d.setStream k { x with flight := rest })).ringArrive k p (flips.map fun f => (f.1.val, f.2)) latency.toNat).showOld))) ∧
    (∀ (ring : Fin 3) (src dst : Fin 28) (cls : Fin 4) (p : RingPkt) (d : Dev) (latency : Nat), let k := streamKey ring src dst cls
      let back (ack : Bool) (v : Nat) : RingRet := ⟨ack, k, v⟩
      (∀ st flips, d.refuser src dst cls p.epoch p.dir = some st → d.ringArrive k p flips latency = ((d.ringTaken k p).bump (LYR_STOP_s_UNREACHABLE st)).ringError st k p 4) ∧
      (d.ringTaken k p).lyr.returns = d.lyr.returns ++ [back false (p.flits ring), back true p.seq] ∧
      (d.refuser src dst cls p.epoch p.dir = none →
        ((d.stream k).refused = false → p.seq ≠ (d.stream k).expSeq → ((d.ringArrive k p [] latency).stream k).retry = some (d.stream k).expSeq) ∧
        (∀ flips, flips ≠ [] → ringCrcOk (flipBytes (p.image k) flips) = false →
          (d.ringArrive k p flips latency).mem = d.mem ∧ (d.ringArrive k p flips latency).lyr.returns = d.lyr.returns ++ [back false (p.flits ring)]) ∧
        (p.seq = (d.stream k).expSeq → let d1 := (d.ringTaken k p).ringCount k p.carried p.replays latency
          (isRequest p.type = true → d1.flag (LYR_STOP_s_STS_FENCED dst) = true → d.ringArrive k p [] latency = (d1.bump (LYR_STOP_s_DOMAIN_OFF dst)).ringError dst k p 1) ∧
          (isRequest p.type = false ∨ d1.flag (LYR_STOP_s_STS_FENCED dst) = false → d.ringArrive k p [] latency = d1.ringAct k p)))) ∧
    (∀ (st : Fin 28) (ring : Fin 3) (ccw : Bool), let hop := (ring.val * 2 + b2n ccw) * 28 + st.val
      let old := (Tab.getD (fun _ => []) s.dev.lyr.hops hop).filter fun t => decide (s.dev.now < t + msT 1)
      (old.length < 7 → exec (.hopReplay st ring ccw []) s = .next (s.on <|
        { s.dev.bump (LYR_STOP_s_HOP_REPLAY st) with lyr.hops := Tab.setD (fun _ => ([] : List Nat)) s.dev.lyr.hops hop (s.dev.now :: old) })) ∧
      (7 ≤ old.length → exec (.hopReplay st ring ccw []) s = .next (s.on <|
        ({ s.dev.bump (LYR_STOP_s_HOP_REPLAY st) with lyr.hops := Tab.setD (fun _ => ([] : List Nat)) s.dev.lyr.hops hop [] }.health 3 1
          (st.val + 2 ^ 8 * ring.val + 2 ^ 16 * b2n ccw)).noteFault st st 3))) ∧
    (∀ (d : Dev) (st key n : Nat), let l := d.now :: (Tab.getD (fun _ => []) d.lyr.faults key).filter fun t => decide (d.now < t + nsT 1000000000)
      (n ≤ l.length → 12 ≤ st → st < 28 → st ≠ 25 → d.flag (LYR_STOP_s_CTL_BYPASS st) = false →
        (d.noteFault st key n).flag (LYR_STOP_s_CTL_BYPASS st) = true) ∧
      (n ≤ l.length → st < 12 → d.podMode st ≠ 1 → d.lyr.failing.contains st = false → (d.noteFault st key n).fw.drains.any (·.1 == st) = true) ∧
      (l.length < n → (d.noteFault st key n).regs = d.regs ∧ (d.noteFault st key n).fw = d.fw)) ∧
    (∀ (ring : Fin 3) (src dst : Fin 28) (cls : Fin 4), let k := streamKey ring src dst cls; let x := d.stream k; let e := d.ringRetry k
      exec (.ringRetry ring src dst cls) s = .next (go e) ∧ (x.retry = none → e = d) ∧
      (∀ q, x.retry = some q → let again := x.window.dropWhile (·.seq != q)
        ((again.any fun p => decide (4 ≤ p.tries)) = true →
          e = (((((d.endStream k).bump (LYR_STOP_s_E2E_FAIL (keySrc k))).health 3 2 k).recSource 4).noteFault (keyDst k) (32 + keyDst k) 2).showOld) ∧
        ((again.any fun p => decide (4 ≤ p.tries)) = false → (e.stream k).retry = none ∧ (e.stream k).flight = again.map (·.seq) ∧
          (e.stream k).window.map (fun p => (p.seq, p.tries)) =
            (x.window.takeWhile (·.seq != q)).map (fun p => (p.seq, p.tries)) ++ again.map (fun p => (p.seq, p.tries + 1)) ∧ e.mem = d.mem))) ∧
    (∀ (st : Fin 28), let own := d.lyr.bounces.find? fun b => b.1 == st.val
      let first := d.lyr.streams.find? fun x => keyDst x.1 == st.val && x.2.window.any fun p => p.type == 6 && x.2.flight.head? == some p.seq
      (own = none → first = none → exec (.ringBounce st) s = .next (go d)) ∧
      (∀ b, own = some b → exec (.ringBounce st) s = .next (go ({ d with lyr.bounces := d.lyr.bounces.erase b }.bounceAt st b.2.1 b.2.2.1 b.2.2.2))) ∧
      (∀ x, own = none → first = some x → ∃ latency, exec (.ringBounce st) s = .next (go ({ d with free := d.free + 1 }.ringAccept x.1 [] [] latency)))) ∧
    (∀ (d : Dev) (i dst addr status : Nat), i < 28 → let e := d.bounceAt i dst addr status
      e.rf (LYR_STOP_s_BOUNCE_ADDR i) = addr % 2 ^ 32 ∧ e.rf (LYR_STOP_s_BOUNCED i) = (d.rf (LYR_STOP_s_BOUNCED i) + 1) % 2 ^ 32 ∧
      e.rf (LYR_STOP_s_BOUNCE_INFO_DST i) = dst % 2 ^ (LYR_STOP_s_BOUNCE_INFO_DST i).w ∧ e.mem = d.mem ∧ e.lyr = d.lyr) ∧
    (∀ (init : Initiator) (value : Word) (cmds : Nat), let r := s.dev.busWr init rLYR_EPOCH value.toNat
      r.2 = .yes cmds → bitAt cmds 0 = true →
        (r.1.flag LYR_EPOCH_DRAINING = true → exec (.epochFlip init value) s = .next (s.on <| r.1.regErr .ignored rLYR_EPOCH init)) ∧
        (r.1.flag LYR_EPOCH_DRAINING = false → exec (.epochFlip init value) s =
          .next (s.on <| (((r.1.wf LYR_EPOCH_ACTIVE (1 - r.1.rf LYR_EPOCH_ACTIVE)).setFlag LYR_EPOCH_DRAINING true).mSend 25 63).showOld))) ∧
    (d.flag LYR_EPOCH_DRAINING = true → d.showOld.rf LYR_OLD_INFLIGHT_COUNT = 0 → exec .epochDrained s =
      .next (go (((d.showOld.setFlag LYR_EPOCH_DRAINING false).bump LYR_EPOCH_FLIPS).mSend 25 63))) ∧
    (d.flag LYR_EPOCH_DRAINING = false ∨ d.showOld.rf LYR_OLD_INFLIGHT_COUNT ≠ 0 → exec .epochDrained s = .next (go d.showOld)) ∧
    (∀ (init : Initiator) (st : Fin 28) (value : Word) (cmds : Nat), let f := LYR_STOP_s_CTL_BYPASS st; let r := s.dev.busWr init (rLYR_STOP_s_CTL st) value.toNat
      r.2 = .yes cmds →
        (s.dev.flag f = false → r.1.flag f = true → st.val ≠ 25 → exec (.stopBypass init st value) s = .next (s.on <| (r.1.bypassEnd st).mSend 25 63)) ∧
        (s.dev.flag f = false → r.1.flag f = true → st.val = 25 → exec (.stopBypass init st value) s =
          .next (s.on <| (r.1.setFlag f false).regErr .ignored (rLYR_STOP_s_CTL st) init)) ∧
        (s.dev.flag f = true → r.1.flag f = false → s.dev.flag (LYR_STOP_s_STS_FENCED st) = true → exec (.stopRejoin init st value) s =
          .next (s.on <| (r.1.setFlag (LYR_STOP_s_STS_BYPASSED st) false).mSend 25 63)) ∧
        (s.dev.flag f = true → r.1.flag f = false → s.dev.flag (LYR_STOP_s_STS_FENCED st) = false → exec (.stopRejoin init st value) s =
          .next (s.on <| (r.1.setFlag f true).regErr .ignored (rLYR_STOP_s_CTL st) init))) ∧
    (∀ st : Fin 28, s.dev.flag (LYR_STOP_s_CTL_BYPASS st) = true → exec (.stopBypassed st) s = .next (s.on <| s.dev.setFlag (LYR_STOP_s_STS_BYPASSED st) true)) ∧
    (s.dev.tlOn 0 = true → (s.dev.tl 0).started = true → s.dev.lyr.sampledAt ≠ s.dev.boundaryT 0 (s.dev.tl 0).k → nextAnd (exec .ringStatsSample s) fun t =>
      t.dev.lyr.stats = [] ∧ t.dev.lyr.sampledAt = s.dev.boundaryT 0 (s.dev.tl 0).k ∧
      (t.dev.lyr.sample.map fun x => (x.clock, x.period, x.stats)) = some (false, ((s.dev.tl 0).k + 65535) % 65536, s.dev.lyr.stats) ∧ t.dev.regs = s.dev.regs) ∧
    (∀ c : PqCmd, let d := s.began c
      (s.ready 0x0A05 c = true → (1 ≤ pp c 2 / 96 → d.obOk (pAddr c 0) (96 * (pp c 2 / 96)) = true) →
        (d.lyr.sample = none → exec (.statsRead c) s = .next (s.on <| d.finR c [0, 0])) ∧
        (∀ x, d.lyr.sample = some x → let n := min 336 (pp c 2 / 96)
          exec (.statsRead c) s = .next (s.on <| (d.hostWrite (pAddr c 0) ((x.records.take n).flatten)).finR c [n, 336]))) ∧
      (s.ready 0x0A05 c = true → 1 ≤ pp c 2 / 96 → d.obOk (pAddr c 0) (96 * (pp c 2 / 96)) = false →
        exec (.statsRead c) s = .next (s.on <| d.fin c badParam)))

/-! ### Service: sparing, pods, firmware -/

/-- CORE_SPARE, the drain, load and return of a pod, the self-test of a hung core, staging and switching of firmware. -/
def Obligations.ServiceRules : Prop :=
  ∀ s : State,
    (∀ c : PqCmd, let d := s.began c; let i := pp c 0
      s.ready 0x0906 c = true → s.dev.pqWaits 0x0906 c = false → i < 108 → i % 9 ≠ 8 → d.domOn 75 = true → d.domOn (coreDom i) = true →
      d.domOn (coreDom (9 * (i / 9) + 8)) = true →
        (d.coreMasked (9 * (i / 9) + 8) = false → exec (.coreSpare c) s = .next (s.on <| d.fin c busyS)) ∧
        (d.coreMasked (9 * (i / 9) + 8) = true → exec (.coreSpare c) s = .next (s.on <| (d.setMask i true).coreSpareGo c))) ∧
    (∀ c : PqCmd, s.dev.pqWaits 0x0906 c = true → exec (.coreSpare c) s = .next (s.on <| s.dev.coreSpareGo c)) ∧
    (∀ c : PqCmd, let d := s.began c; let p := pp c 0; let d1 := d.accepted c.queue.val c.tag.toNat
      (s.ready 0x0903 c = true → p < 12 → d.domOn 75 = true → d.podMode p ≠ 2 → Tab.find d.fw.drains p = none →
        (d1.podMode p = 1 → exec (.podDrain c) s = .next (s.on <| d1.fin c okS)) ∧
        (d1.podMode p ≠ 1 → exec (.podDrain c) s = .next (s.on <|
          { d1 with fw.drains := Tab.put d1.fw.drains p (c.queue.val, c.tag.toNat, ((upTo 4).filter d1.tlOn).map fun n => (n, (d1.tl n).k)),
                    fw.leftOut := d1.fw.leftOut ++ [p] }))) ∧
      (∀ image : List Byte, let b := image.take (pp c 3)
        s.ready 0x0904 c = true → p < 12 → d.obOk (pAddr c 1) (pp c 3) = true → d.hif.closed = false →
          (podImageOk b = false → exec (.podLoad c image) s = .next (s.on <| d.fin c badParam)) ∧
          (podImageOk b = true → d.domOn 75 = true → d.domOn (3 * p + 2) = true → d.podIdle p = true → Tab.find d.fw.loads p = none →
            exec (.podLoad c image) s = .next (s.on <| { d1 with fw.loads := Tab.put d1.fw.loads p (c.queue.val, c.tag.toNat, b) }))) ∧
      (s.ready 0x0905 c = true → p < 12 → d.domOn 75 = true → d.podIdle p = true → Tab.find d.fw.loads p = none →
        let e := ((upTo 9).filter fun i => !d.coreMasked (9 * p + i)).foldl (fun d i => d.runCore (9 * p + i)) d
        let e2 := ((e.wf (WDS_PODn_CTL_MODE p) 0).logPod 0x06 0xFF 0 0 0).wdsSettle
        exec (.podReturn c) s = .next (s.on <| { e2 with fw.leftOut := e2.fw.leftOut.filter (· != p) }.fin c okS))) ∧
    (∀ p : Fin 12, Tab.find s.dev.fw.drains p.val = none → exec (.podDrainComplete p) s = .next s) ∧
    (∀ (p : Fin 12) (q tag : Nat) (marks : List (Nat × Nat)), Tab.find s.dev.fw.drains p.val = some (q, tag, marks) →
      (s.dev.builtSince marks = false → exec (.podDrainComplete p) s = .next s) ∧
      (s.dev.builtSince marks = true →
        let d1 := if s.dev.podMode p.val = 1 then s.dev else ((s.dev.wf (WDS_PODn_CTL_MODE p.val) 1).logPod 0x06 0xFF 0 0 0).wdsSettle
        (d1.rf (WDS_PODn_BUSY p.val) = 0 → d1.rf (CPX_STS_BUSY p.val) = 0 → exec (.podDrainComplete p) s = .next (s.on <| d1.drained p q tag)) ∧
        (d1.rf (WDS_PODn_BUSY p.val) ≠ 0 ∨ d1.rf (CPX_STS_BUSY p.val) ≠ 0 → exec (.podDrainComplete p) s = .next (s.on d1)))) ∧
    (∀ (d : Dev) (p q tag : Nat),
      let d1 : Dev := { d with fw.drains := Tab.del d.fw.drains p, lyr.failing := d.lyr.failing.filter (· != p) }
      (q ≠ ownDrain → d.lyr.failing.contains p = false → d.drained p q tag = d1.complete q tag okS []) ∧
      (q = ownDrain → d.lyr.failing.contains p = true → d.drained p q tag = d1.bypassNow p)) ∧
    (∀ (p : Fin 12) (q tag : Nat) (b : List Byte), Tab.find s.dev.fw.loads p.val = some (q, tag, b) →
      (s.dev.rf (CPX_STS_BUSY p.val) ≠ 0 ∨ s.dev.podIdle p.val = false → exec (.podLoadComplete p) s = .next s) ∧
      (s.dev.rf (CPX_STS_BUSY p.val) = 0 → s.dev.podIdle p.val = true → nextAnd (exec (.podLoadComplete p) s) fun t =>
        Tab.find t.dev.pods.images p.val = some (podImageOf b) ∧ Tab.find t.dev.fw.loads p.val = none ∧ t.sec = s.sec)) ∧
    (∀ (c : PqCmd) (image : List Byte), let d := s.began c
      s.ready 0x0901 c = true → pp c 2 ≠ 0 → d.obOk (pAddr c 0) (pp c 2) = true → d.fw.stage = none → d.hif.closed = false →
      exec (.fwStage c image) s = .next (s.on <| { d.accepted c.queue.val c.tag.toNat with fw.stage := some (c.queue.val, c.tag.toNat, image.take (pp c 2)) })) ∧
    (∀ (q tag : Nat) (b : List Byte), s.dev.fw.stage = some (q, tag, b) → leAt b 6 1 = 1 → let slot := 1 - s.dev.rf SEC_BOOT_STS_FW_SLOT
      nextAnd (exec .fwStageComplete s) fun t =>
        if s.sec.valid 1 b = true then t.sec.flash.fw slot = b ∧ t.sec.flash.hdr0 = s.sec.flash.hdr0 ∧ t.sec.flash.hdr1 = s.sec.flash.hdr1 ∧
          t.dev = { s.dev with fw.stage := none, fw.next := some (slot, versionOf b, svnOf b) }.complete q tag okS [versionOf b]
        else t.sec.flash.fw slot = [] ∧ t.dev = { s.dev with fw.stage := none, fw.next := none }.complete q tag protectionS []) ∧
    (∀ c : PqCmd, let d := s.began c
      s.ready 0x0902 c = true → d.badTarget c = false →
        (d.fw.next = none → exec (.fwSwitch c) s = .next (s.on <| d.fin c busyS)) ∧
        (d.fw.next.isSome = true → (d.fw.staged.any fun e => e.eff == .fwSwitch) = false → exec (.fwSwitch c) s = .next (s.on <| d.stage c 0x0902 true .fwSwitch))) ∧
    (s.dev.nextSeal.1 = [] → exec .sealPoint s = .next s) ∧
    (∀ es t0, s.dev.nextSeal = (es, t0) → es ≠ [] → let d1 := s.dev.advanceTo (t0 - usT 8)
      let refuse (d : Dev) (e : Staged) : Dev := { d with fw.staged := d.fw.staged.filter (· != e) }.complete e.queue e.tag busyS []
      (d1.openTwoStage = false → exec .sealPoint s = .next (s.on <| { d1 with hif.fetchStopped := true })) ∧
      (d1.openTwoStage = true → let d2 := (es.filter (·.eff == .fwSwitch)).foldl refuse d1
        ((es.all (·.eff == .fwSwitch)) = true → exec .sealPoint s = .next (s.on d2)) ∧
        ((es.all (·.eff == .fwSwitch)) = false → exec .sealPoint s = .next (s.on <| { d2 with hif.fetchStopped := true })))) ∧
    (∀ (d : Dev) (e : Staged) (t : Nat) (es : List Staged), d.nextSeal = (es, t) → e ∈ es → e ∈ d.fw.staged ∧ (e.eff = .fwSwitch ∨ e.eff = .twinSwap) ∧
      d.boundaryT e.tl (d.targetK e.tl e.target) = t ∧
      ∀ x ∈ d.fw.staged, x.eff = .fwSwitch ∨ x.eff = .twinSwap → t ≤ d.boundaryT x.tl (d.targetK x.tl x.target)) ∧
    (∀ (d : Dev) (e : Staged), d.openTwoStage = true → d.fwTakeover e = { d with hif.fetchStopped := false }.complete e.queue e.tag busyS [])

/-! ### Twins -/

/-- Attach, detach, swap, heartbeats, mirroring, takeover. -/
def Obligations.TwinRules : Prop :=
  ∀ s : State,
    (∀ c : PqCmd, let d := s.began c
      (s.ready 0x0701 c = true → pp c 0 = 1 ∨ pp c 0 = 2 → d.paired = false → d.twin.attach = none → d.domOn 61 = true →
        let d1 := d.accepted c.queue.val c.tag.toNat
        exec (.twinAttach c) s = .next (s.on <| { d1.wf MGT_TWIN_STS_PARTNER 1 with twin.attach := some ⟨c.queue.val, c.tag.toNat, pp c 0, d1.now⟩ }.serviceSync)) ∧
      (s.ready 0x0701 c = true → pp c 0 = 1 ∨ pp c 0 = 2 → d.domOn 61 = true → d.paired = true ∨ d.twin.attach.isSome = true →
        exec (.twinAttach c) s = .next (s.on <| d.fin c busyS)) ∧
      (s.ready 0x0701 c = true → pp c 0 = 1 ∨ pp c 0 = 2 → d.domOn 61 = false → exec (.twinAttach c) s = .next (s.on <| d.fin c domainOffS)) ∧
      (s.ready 0x0702 c = true → d.role = 1 → d.partner = 2 → exec (.twinDetach c) s = .next (s.on <| (d.leaveActive 0 2).fin c okS)) ∧
      (s.ready 0x0702 c = true → d.role = 0 → exec (.twinDetach c) s = .next (s.on <| d.fin c twinNotReady)) ∧
      (s.ready 0x0703 c = true → exec (.twinStatus c) s = .next (s.on <| d.finR c [d.role, d.partner, d.rf MGT_TWIN_MISSED, d.rf MGT_TWIN_UNACK])) ∧
      (s.ready 0x0704 c = true → d.badTarget c = true → exec (.twinSwap c) s = .next (s.on <| d.fin c badParam)) ∧
      (s.ready 0x0704 c = true → d.badTarget c = false → d.flag MGT_TWIN_STS_SWAP_PENDING = true → exec (.twinSwap c) s = .next (s.on <| d.fin c busyS)) ∧
      (s.ready 0x0704 c = true → d.badTarget c = false → d.flag MGT_TWIN_STS_SWAP_PENDING = false → d.role ≠ 1 ∨ d.partner ≠ 2 →
        exec (.twinSwap c) s = .next (s.on <| d.fin c twinNotReady)) ∧
      (s.ready 0x0704 c = true → d.role = 1 → d.partner = 2 → d.badTarget c = false → d.flag MGT_TWIN_STS_SWAP_PENDING = false →
        exec (.twinSwap c) s = .next (s.on <| (d.setFlag MGT_TWIN_STS_SWAP_PENDING true).stage c 0x0704 true .twinSwap))) ∧
    (∀ (pref : Nat) (partnerTl : Bool) (partnerPref partnerId : Nat) (d : Dev),
      (d.anyTl = true → partnerTl = true → d.chooseRole pref partnerTl partnerPref partnerId = none) ∧
      (d.anyTl = true → partnerTl = false → d.chooseRole pref partnerTl partnerPref partnerId = some 1) ∧
      (d.anyTl = false → partnerTl = true → d.chooseRole pref partnerTl partnerPref partnerId = some 2) ∧
      (d.anyTl = false → partnerTl = false → pref ≠ partnerPref → d.chooseRole pref partnerTl partnerPref partnerId = some pref)) ∧
    (∀ (a : Attach) (same ptl pact : Bool) (id : BitVec 64), s.dev.twin.attach = some a →
      (s.dev.flag ZTH_TWIN_STS_UP = false → exec (.twinAttachComplete same ptl pact id [] [] [] []) s = .next s) ∧
      (s.dev.flag ZTH_TWIN_STS_UP = true → same = false → exec (.twinAttachComplete same ptl pact id [] [] [] []) s = .next (s.on <| s.dev.attachFail a twinNotReady)) ∧
      (s.dev.flag ZTH_TWIN_STS_UP = true → same = true → s.dev.chooseRole a.pref ptl (if pact then 1 else 2) id.toNat = none →
        exec (.twinAttachComplete same ptl pact id [] [] [] []) s = .next (s.on <| s.dev.attachFail a busyS)) ∧
      (s.dev.flag ZTH_TWIN_STS_UP = true → same = true → s.dev.chooseRole a.pref ptl (if pact then 1 else 2) id.toNat = some 1 →
        nextAnd (exec (.twinAttachComplete same ptl pact id [] [] [] []) s) fun t => t.dev.twin.attach = none ∧ t.dev.twin.gens = [] ∧
          t.dev.role = 1 ∧ t.dev.partner = 2 ∧ t.sec = s.sec) ∧
      (∀ regs wins cars cmds, s.dev.flag ZTH_TWIN_STS_UP = true → same = true → s.dev.chooseRole a.pref ptl (if pact then 1 else 2) id.toNat = some 2 →
        nextAnd (exec (.twinAttachComplete same ptl pact id regs wins cars cmds) s) fun t => t.dev.twin.attach = none ∧ t.dev.twin.gens = [] ∧
          t.dev.role = 2 ∧ t.dev.partner = 2 ∧ t.sec = s.sec) ∧
      (s.dev.flag ZTH_TWIN_STS_UP = false → exec .twinAttachTimeout s = .next (s.on <| (s.dev.advanceTo (a.since + nsT 10000000000)).attachFail a twinNotReady))) ∧
    (∀ sent heard : Bool, (s.dev.role = 0 → exec (.twinHeartbeatSend sent heard) s = .next s) ∧
      (s.dev.role ≠ 0 → let d1 := { s.dev with twin.silent := if sent then 0 else s.dev.twin.silent + 1 }.roleOut
        (heard = false ∨ s.dev.now < s.dev.twin.gapEnd → exec (.twinHeartbeatSend sent heard) s = .next (s.on d1)) ∧
        (heard = true → s.dev.twin.gapEnd ≤ s.dev.now → d1.partner = 2 ∨ d1.partner = 3 → exec (.twinHeartbeatSend sent heard) s = .next (s.on <|
          { (d1.wf MGT_TWIN_STS_MISSED_RUN 0).wf MGT_TWIN_STS_PARTNER 2 with twin.lostAt := none, twin.takeover := false, twin.heardAt := s.dev.now })))) ∧
    (∀ roleIn : Bool, let n := s.dev.rf MGT_TWIN_STS_MISSED_RUN
      let d1 := ((s.dev.bump MGT_TWIN_MISSED).wf MGT_TWIN_STS_MISSED_RUN (min 3 (n + 1))).setFlag MGT_TWIN_STS_ROLE_IN roleIn
      (s.dev.paired = false ∨ s.dev.now < s.dev.twin.gapEnd → exec (.twinHeartbeatMiss roleIn) s = .next s) ∧
      (s.dev.paired = true → s.dev.twin.gapEnd ≤ s.dev.now → n < 2 → exec (.twinHeartbeatMiss roleIn) s = .next (s.on d1)) ∧
      (s.dev.paired = true → s.dev.twin.gapEnd ≤ s.dev.now → n = 2 → exec (.twinHeartbeatMiss roleIn) s = .next (s.on <| d1.missedThree roleIn)) ∧
      (∀ d : Dev, d.role = 1 → d.missedThree roleIn = ((d.partnerLost 0).wf MGT_TWIN_STS_PARTNER 4).unwait) ∧
      (∀ d : Dev, d.role ≠ 1 → d.missedThree false = { d with twin.takeover := true })) ∧
    (∀ t0, s.dev.role = 2 → s.dev.partner = 3 → s.dev.twin.lostAt = some t0 →
      exec .twinLinkLostTimeout s = .next (s.on <| (s.dev.advanceTo (t0 + nsT 10000000000)).leaveStandby 3)) ∧
    (∀ (q : Fin 16) (entry : List Byte), (s.dev.now < s.dev.twin.gapEnd → exec (.twinMirrorAck q entry) s = .next s) ∧ (s.dev.twin.gapEnd ≤ s.dev.now →
      (s.dev.role = 2 → exec (.twinMirrorAck q entry) s = .next (s.on <| s.dev.mirrorIn q entry)) ∧
      (s.dev.role = 1 → ((s.dev.qp q).running.any fun r => r.mirror == 1) = true → exec (.twinMirrorAck q entry) s = .next (s.on <|
        ((s.dev.updQp q fun x => { x with running := ackFirst x.running }).wf MGT_TWIN_UNACK (s.dev.rf MGT_TWIN_UNACK - 1)).flush q)))) ∧
    (∀ (q : Fin 16) (tag status : BitVec 16) (r : RunCmd) (x : Cmpl), s.dev.role = 1 → s.dev.twin.gapEnd ≤ s.dev.now →
      ((s.dev.qp q).running.find? fun r => r.outcome && r.cmd.tag.toNat == tag.toNat) = some r → r.own = some x →
        (x.status = status.toNat → exec (.twinOutcome q tag status ([], [])) s = .next (s.on <|
          (s.dev.updQp q fun y => { y with running := y.running.map fun (z : RunCmd) => if z = r then { z with outcome := false } else z }).flush q)) ∧
        (x.status ≠ status.toNat → exec (.twinOutcome q tag status ([], [])) s = .next (s.on <| s.dev.diverged r x.status status.toNat))) ∧
    (∀ (q : Fin 16) (tag status : BitVec 16) (res : List Word) (off : BitVec 28) (v : Word), s.dev.role = 2 → s.dev.twin.gapEnd ≤ s.dev.now →
      nextAnd (exec (.twinOutcome q tag status (res, [(off, v)])) s) fun t =>
        (∀ x, bankSpot off.toNat = some x → Tab.find t.dev.twin.banks x.2.1 = some v.toNat) ∧ (bankSpot off.toNat = none → t.dev.twin.banks = s.dev.twin.banks) ∧ (t.dev.twin.log.any fun m => m.queue == q.val && m.run.cmd.tag.toNat == tag.toNat) = false ∧
          t.dev.mem = s.dev.mem ∧ t.sec = s.sec) ∧
    (∀ (d : Dev) (c : PqCmd), (d.badTarget c = false → d.flag MGT_TWIN_STS_SWAP_PENDING = false → d.mirrorNote 0x0704 c =
        (d.setFlag MGT_TWIN_STS_SWAP_PENDING true).stage c 0x0704 false .twinSwap) ∧
      (badSource c = false → d.mirrorNote 0x0502 c = { d with twin.source := some (pp c 0, pp c 1, pp c 2, pp c 3) })) ∧
    (∀ (p : Fin 2) (i : Fin 65536) (bside : Bool) (half header : List Byte), s.dev.twin.gapEnd ≤ s.dev.now →
      (s.dev.role = 2 → exec (.twinSlotCopy p i bside half header) s = .next (s.on <|
        (s.dev.poke (s.dev.slotAddr p i + if bside then 25408 else 64) (half.take 25344)).poke (s.dev.slotAddr p i) (header.take 64))) ∧
      (s.dev.role = 1 → (s.dev.slotsPending.contains (p.val, i.val)) = true → exec (.twinSlotCopy p i bside half header) s = .next (s.on <|
        { s.dev with twin.gens := Tab.setD (fun _ => 0) s.dev.twin.gens (2 ^ 16 * p.val + i.val) (s.dev.slotGen p i) }.slotsShow))) ∧
    (s.dev.role ≠ 2 ∨ s.dev.twin.takeover = false → exec .twinTakeover s = .next s) ∧
    (∀ (d : Dev), ∀ p ∈ d.replan.fw.plans, (d.tl p.tl).started = true → ahead (d.tl p.tl).k p.period ≤ 32767 → p.built = false) ∧
    (∀ d : Dev, (∀ p ∈ d.fw.plans, 32768 ≤ ahead (d.tl p.tl).k p.period) → d.reportUnserved false = d) ∧
    (∀ (d : Dev) (n k : Nat) (p : Plan), d.keepsPlan n k p = true ↔ (p.tl ≠ n ∨ p.built = false ∨ ahead k p.period ≤ 32767 ∨ (p.period + 1) % 65536 = k % 65536 ∨
      (d.role = 2 ∧ d.twin.heardAt < d.boundaryT n (d.airK n p.period)))) ∧
    (s.dev.role = 2 → s.dev.twin.takeover = true → s.dev.fw.plans = [] → nextAnd (exec .twinTakeover s) fun t => t.dev.role = 1 ∧ t.dev.partner = 4 ∧
      t.dev.twin.takeover = false ∧ t.dev.twin.log = [] ∧ t.dev.twin.banks = [] ∧ t.dev.rf MGT_TWIN_TAKEOVERS = (s.dev.rf MGT_TWIN_TAKEOVERS + 1) % 2 ^ 32 ∧ t.sec = s.sec)

/-! ### The Marrow and the ledgers -/

/-- Recorder states, replay and BAR4. -/
def Obligations.RecorderRules : Prop :=
  ∀ s : State,
    (∀ c : PqCmd, let d := s.began c; let size := pp c 0; let st := d.rf OBS_REC_STS_STATE
      (∀ area, s.ready 0x0801 c = true → size ≠ 0 → size ≤ 16384 → 2 * size * 2 ^ 20 ≤ d.ddrSize → d.captureArea size (pp c 1) (pp c 2) (pp c 3) = some area →
        area + 256 * 2 ^ 20 ≤ size * 2 ^ 20 → d.domOn 77 = true → d.noDdr = false →
          (d.recording = true → exec (.recConfig c) s = .next (s.on <| d.fin c busyS)) ∧
          (d.recording = false → nextAnd (exec (.recConfig c) s) fun t => t.dev.rf OBS_REC_STS_STATE = 0 ∧ t.dev.rf MEM_REC_SIZE = size % 2 ^ (MEM_REC_SIZE).w ∧
            t.dev.marrow.cfg = ⟨size, pp c 1, pp c 2, pp c 3, area⟩ ∧ t.dev.now = s.dev.now ∧ t.dev.mem = s.dev.mem)) ∧
      (s.ready 0x0802 c = true → d.domOn 77 = false ∨ d.recMem = false → exec (.recStart c) s = .next (s.on <| d.fin c domainOffS)) ∧
      (s.ready 0x0802 c = true → d.domOn 77 = true → d.recMem = true →
        let d1 := (d.wf OBS_REC_STS_STATE 1).setFlag OBS_REC_STS_WRAPPED false
        let d2 : Dev := { d1 with marrow.log := [], marrow.captures := [], marrow.bytes := 0, marrow.lost := false, marrow.images := Tab.mapV (fun _ i => i.crc) d1.pods.images }
        exec (.recStart c) s = .next (s.on <| (d2.recAdd 0x0B d2.marrow.tl (d2.recK % 65536) none).fin c okS)) ∧
      (s.ready 0x0803 c = true → d.domOn 77 = true →
        (st = 3 → exec (.recTrigger c) s = .next (s.on <| (d.recTrigger 6).finR c [d.marrow.frozenP])) ∧
        (st ≠ 3 → let d1 := d.inProgress c.queue.val c.tag.toNat
          exec (.recTrigger c) s = .next (s.on <| { d1 with marrow.waiting := d1.marrow.waiting ++ [(c.queue.val, c.tag.toNat)] }.recTrigger 6))) ∧
      (s.ready 0x0804 c = true → d.domOn 77 = true → d.marrow.log = [] → exec (.recStatus c) s = .next (s.on <|
        d.finR c [st, d.marrow.bytes % 2 ^ 32, d.marrow.bytes / 2 ^ 32 % 2 ^ 32, 0])) ∧
      (∀ e l, s.ready 0x0804 c = true → d.domOn 77 = true → d.marrow.log = e :: l → exec (.recStatus c) s = .next (s.on <|
        d.finR c [st, d.marrow.bytes % 2 ^ 32, d.marrow.bytes / 2 ^ 32 % 2 ^ 32, e.period]))) ∧
    (s.dev.rf OBS_REC_STS_STATE ≠ 2 → exec .recFreeze s = .next s) ∧
    (s.dev.rf OBS_REC_STS_STATE = 2 →
      (s.dev.tlOn s.dev.marrow.tl = true → s.dev.marrow.trigK + s.dev.rf OBS_REC_POST_POST ≤ s.dev.recK → exec .recFreeze s = .next (s.on s.dev.recFreeze)) ∧
      (s.dev.tlOn s.dev.marrow.tl = false → exec .recFreeze s = .next (s.on (s.dev.advanceTo (s.dev.marrow.trigT + msT (s.dev.rf OBS_REC_POST_POST))).recFreeze))) ∧
    (∀ c : PqCmd, let d := s.began c; let q := pp c 0; let tl := pp c 1; let first := pp c 2
      s.ready 0x0805 c = true → q < 12 → tl < 4 → first < 65536 → d.rf OBS_REC_STS_STATE = 3 → d.podIdle q = true → pp c 3 = 0 →
      spanHeld d.marrow.log tl first 0 = true → (spanPods d.marrow.log tl first 0) = [] → d.domOn 77 = true → d.domOn 75 = true → d.marrow.replay = none →
      exec (.recReplay c) s = .next (s.on <| (d.accepted c.queue.val c.tag.toNat).finR c [0, 0])) ∧
    (∀ c : PqCmd, let d := s.began c; let q := pp c 0; let tl := pp c 1; let first := pp c 2; let count := pp c 3; let image := (Tab.find d.pods.images q).map (·.crc)
      s.ready 0x0805 c = true → q < 12 → tl < 4 → first < 65536 → (d.rf OBS_REC_STS_STATE = 3 ∨ (d.rf OBS_REC_STS_STATE = 0 ∧ d.marrow.log ≠ [])) →
      d.podIdle q = true → 0 < count → count ≤ 32768 → spanHeld d.marrow.log tl first count = true →
      (∀ p ∈ spanPods d.marrow.log tl first count, Tab.find d.marrow.images p = image ∧ image.isSome = true) → d.domOn 77 = true → d.domOn 75 = true →
        (d.marrow.replay.isSome = true → exec (.recReplay c) s = .next (s.on <| d.fin c busyS)) ∧
        (d.marrow.replay = none → let d1 := (d.accepted c.queue.val c.tag.toNat).wf (WDS_PODn_CTL_MODE q) 2
          exec (.recReplay c) s = .next (s.on <| ({ d1 with marrow.replay := some ⟨q, tl, first, count, 0, 0, c.queue.val, c.tag.toNat, 0, 0, [], [],
            spanCpx (spanOf d.marrow.log tl first count)⟩ }.logPod 0x06 0xFF 0 0 0).wdsSettle))) ∧
    (∀ (graphs : List (List Byte)) (order : List (Nat × Fin 108)), s.dev.marrow.replay = none → exec (.replayPeriodRelease graphs order) s = .next s) ∧
    (∀ r : Replay, s.dev.marrow.replay = some r → r.released < r.count → s.dev.replayDone = true →
      let d1 := if r.released = 0 then s.dev else s.dev.advanceTo (r.last + nsT (8 * s.dev.periodNs r.tl))
      let d2 := d1.updReplay fun x => { x with released := r.released + 1, last := d1.now }
      exec (.replayPeriodRelease [] []) s = .next (s.on (d2.updReplay fun x => { x with order := [] }).wdsSettle) ∧
      ∀ (g : List Byte) (order : List (Nat × Fin 108)), leAt g 2 1 = r.tl → leAt g 4 2 = (r.first + r.released) % 65536 →
        let x := d2.admitGraph true g
        (x.2 = false → exec (.replayPeriodRelease [g] order) s = .next (s.on <| x.1.replayRefused r)) ∧
        (x.2 = true → let slots := (x.1.wds.jobs.filter (·.2.replay)).map Prod.fst
          exec (.replayPeriodRelease [g] order) s = .next (s.on <|
            (x.1.updReplay fun y => { y with order := order.filterMap fun o => (slots[o.1]?).map fun i => (i, o.2.val) }).wdsSettle))) ∧
    (∀ (r : Replay) (results digests : List (Option Word)), s.dev.marrow.replay = some r → r.released = r.count → s.dev.replayDone = true →
      let pairs (type : Nat) (l : List (Option Word)) := ((replayRecs s.dev.marrow.log type r).zip l).filter (·.2.isSome)
      let all := pairs 6 results ++ pairs 7 digests
      let diff := all.filter fun x => x.2.map (·.toNat) != some (leAt x.1.body 0 4)
      let d1 := diff.foldl (fun (d : Dev) x => d.event 4 3 x.1.period (leAt x.1.body 4 2 + 2 ^ 16 * x.1.type) 0) { s.dev with marrow.replay := none }
      exec (.replayComplete results digests) s = .next (s.on <|
        ((d1.wf (WDS_PODn_CTL_MODE r.pod) 1).logPod 0x06 0xFF 0 0 0).wdsSettle.complete r.queue r.tag okS [all.length, diff.length])) ∧
    (∀ (log : List RecEntry) (type : Nat) (r : Replay) (e : RecEntry), e ∈ replayRecs log type r → e ∈ log ∧ e.type = type ∧ e.tl = r.tl ∧
      ahead r.first (if type = 6 then (e.period + 1) % 65536 else (e.period + 65535) % 65536) < r.count) ∧
    (∀ (d : Dev) (type tl period : Nat) (b : List Byte), d.recording = true →
      (d.recMem = true → d.marrow.lost = false → (∀ x ∈ d.marrow.log, x.len ≤ 64) → d.marrow.log.length < 2 ^ 20 → 256 * 2 ^ 20 + d.marrow.cfg.area ≤ d.marrow.cfg.size * 2 ^ 20 →
        b.length ≤ 64 → (d.recAdd type tl period (some b)).marrow.log =
          d.marrow.log ++ [⟨type, tl, period, 16 + 16 * ceilDiv b.length 16, d.ns, d.secs % 2 ^ 32, b⟩] ∧
          (d.recAdd type tl period (some b)).marrow.bytes = d.marrow.bytes + (16 + 16 * ceilDiv b.length 16)) ∧
      (d.recMem = false → (d.recAdd type tl period (some b)).marrow.log = d.marrow.log ∧ (d.recAdd type tl period (some b)).marrow.lost = true)) ∧
    (∀ (d : Dev) (type tl period : Nat) (b : Option (List Byte)), d.recording = false → d.recAdd type tl period b = d) ∧
    (∀ (off : BitVec 24) (data : List Byte), let rel := s.dev.rf OBS_REC_WIN * 2 ^ 24 + off.toNat
      (s.dev.rf OBS_REC_STS_STATE ≠ 0 ∨ s.dev.rf MEM_REC_SIZE * 2 ^ 20 < rel + data.length → exec (.bar4Write off data) s = .next s) ∧
      (s.dev.domOn 76 = true → s.dev.domOn 77 = true → s.dev.rf OBS_REC_STS_STATE = 0 → off.toNat + data.length ≤ 2 ^ 24 →
        rel + data.length ≤ s.dev.rf MEM_REC_SIZE * 2 ^ 20 →
        exec (.bar4Write off data) s = .next (s.on (s.dev.wrBytes 26 none (s.dev.rf MEM_REC_BASE * 2 ^ 20 + rel) data).1)))

/-- A strobe loads every shadow at once and numbers the snapshot; the command path packs it; the register path is refused while it packs. -/
def Obligations.LedgerRules : Prop :=
  ∀ s : State,
    (∀ d : Dev, d.ledgerStrobe.rf OBS_SNAP_SEQ = (d.rf OBS_SNAP_SEQ + 1) % 2 ^ 32 ∧ d.ledgerStrobe.ledger.time = d.now ∧ d.ledgerStrobe.ledger.paired = d.paired ∧
      d.ledgerStrobe.ledger.entries.length = d.ledgerNow.length ∧ d.ledgerStrobe.ledger.packing = d.ledger.packing ∧
      d.ledgerStrobe.flag OBS_SNAP_STS_VALID = true ∧ d.ledgerStrobe.mem = d.mem ∧ d.ledgerStrobe.now = d.now) ∧
    (∀ (d : Dev) (e : LedgerEntry), e ∈ d.ledgerNow → e.captured = true → e ∈ d.ledgerStrobe.ledger.entries) ∧
    (∀ c : PqCmd, let d := s.began c; let len := pp c 2
      s.ready 0x0A04 c = true → (32 ≤ len → d.obOk (pAddr c 0) (len / 32 * 32) = true) → d.domRun 77 = true →
        (d.ledger.packing.isSome = true → exec (.ledgerSnapshot c) s = .next (s.on <| d.fin c busyS)) ∧
        (d.ledger.packing = none → exec (.ledgerSnapshot c) s = .next (s.on <|
          { (d.ledgerStrobe.setFlag OBS_SNAP_STS_BUSY true).inProgress c.queue.val c.tag.toNat with
            ledger.packing := some (c.queue.val, c.tag.toNat, pAddr c 0, len) }))) ∧
    (s.dev.ledger.packing = none → exec .ledgerSnapshotPacked s = .next s) ∧
    (∀ (q tag a len : Nat), s.dev.ledger.packing = some (q, tag, a, len) → 32 ≤ len →
      let all := s.dev.ledger.entries.length; let n := min all (len / 32 - 1)
      let d1 := s.dev.hostWrite a (s.dev.ledger.header n ++ (s.dev.ledger.entries.take n).flatMap LedgerEntry.bytes)
      exec .ledgerSnapshotPacked s = .next (s.on <| { d1.setFlag OBS_SNAP_STS_BUSY false with ledger.packing := none }.complete q tag okS [s.dev.ledger.seq, n, all])) ∧
    (∀ (q tag a len : Nat), s.dev.ledger.packing = some (q, tag, a, len) → len < 32 →
      exec .ledgerSnapshotPacked s = .next (s.on <| { s.dev.setFlag OBS_SNAP_STS_BUSY false with ledger.packing := none }.complete q tag okS
        [s.dev.ledger.seq, 0, s.dev.ledger.entries.length])) ∧
    (∀ (init : Initiator) (value : Word) (cmds : Nat), let r := s.dev.busWr init rOBS_SNAP_CTL value.toNat
      r.2 = .yes cmds → bitAt cmds 0 = true →
        (r.1.flag OBS_SNAP_STS_BUSY = true → exec (.ledgerSnapStrobe init value) s = .next (s.on <| r.1.bump OBS_SNAP_REFUSED)) ∧
        (r.1.flag OBS_SNAP_STS_BUSY = false → exec (.ledgerSnapStrobe init value) s = .next (s.on r.1.ledgerStrobe)))

/-! ### Transaction groups and the register bus -/

/-- On A1 a group holds at most 192 writes: a TXN_ADD that would take it past them completes with BAD_PARAM and adds nothing; one that is
taken leaves at most 192; there are 16 slots, the lowest free one is opened (the model's choice, assumption 74), none free is BUSY, no other number names one. -/
def Obligations.GroupLimit : Prop :=
  ∀ s : State,
    (∀ (c : PqCmd) (data : List Byte), s.ready 0x0B02 c = true → 192 < ((s.began c).txn (pp c 0)).writes.length + pp c 3 →
      exec (.txnAdd c data) s = .next (s.on <| (s.began c).fin c badParam) ∧
      nextAnd (exec (.txnAdd c data) s) fun t => t.dev.txns = s.dev.txns) ∧
    (∀ (c : PqCmd) (data : List Byte), (∀ i, (s.dev.txn i).writes.length ≤ 192) →
      nextAnd (exec (.txnAdd c data) s) fun t => ∀ i, (t.dev.txn i).writes.length ≤ 192) ∧
    (∀ (c : PqCmd) (data : List Byte), s.ready 0x0B02 c = true → 16 ≤ pp c 0 → exec (.txnAdd c data) s = .next (s.on <| (s.began c).fin c badParam)) ∧
    (∀ c : PqCmd, let d := s.began c
      s.ready 0x0B01 c = true → pp c 0 < 4 → pp c 1 < 65536 → d.flag (TMU_TLn_CTL_ENABLE (pp c 0)) = true → d.future (pp c 0) (pp c 1) = true →
        (∀ i, i < 16 → d.txnFree i = true → (∀ j, j < i → d.txnFree j = false) →
          exec (.txnOpen c) s = .next (s.on <| (d.setTxn i ⟨.opened, pp c 0, pp c 1, [], none⟩).finR c [i])) ∧
        ((∀ i, i < 16 → d.txnFree i = false) → exec (.txnOpen c) s = .next (s.on <| d.fin c busyS)))

/-- An entry is added to an open group, an open or armed group is armed or cancelled, its report read back; a refused group commits nothing; a resolved
group's slot is free once its TXN_ARM's completion is posted;
one without a write is a barrier and commits nothing either. -/
def Obligations.GroupRules : Prop :=
  ∀ s : State,
    (∀ c : PqCmd, let d := s.began c; let i := pp c 0; let x := d.txn i
      (∀ data : List Byte, let es := (upTo (pp c 3)).map fun j => parseWrite ((upTo 8).map fun k => nth 0 data (8 * j + k))
        s.ready 0x0B02 c = true → i < 16 → x.phase = .opened → x.writes.length + pp c 3 ≤ 192 → d.obOk (pAddr c 1) (8 * pp c 3) = true →
        (∀ e ∈ es, e.2 = true) →
        exec (.txnAdd c data) s = .next (s.on <| (d.setTxn i { x with writes := x.writes ++ es.map (·.1) }).finR c [x.writes.length + pp c 3])) ∧
      (s.ready 0x0B03 c = true → i < 16 → x.phase = .opened →
        let d1 := d.inProgress c.queue.val c.tag.toNat
        let d2 := { d1.setTxn i { x with phase := .armed c.queue.val c.tag.toNat d1.txnOrd (d1.sealed x.tl (d1.targetK x.tl x.target)) } with txnOrd := d1.txnOrd + 1 }
        (d2.flag (TMU_TLn_CTL_ENABLE x.tl) = true → d2.future x.tl x.target = true → exec (.txnArm c) s = .next (s.on d2)) ∧
        (d2.flag (TMU_TLn_CTL_ENABLE x.tl) = true → d2.future x.tl x.target = false → exec (.txnArm c) s = .next (s.on <| d2.txnAbort i rsnLate x.target)) ∧
        (d2.flag (TMU_TLn_CTL_ENABLE x.tl) = false → exec (.txnArm c) s = .next (s.on <| d2.txnAbort i rsnTimelineOff x.target))) ∧
      (s.ready 0x0B04 c = true → i < 16 → x.phase = .opened →
        exec (.txnCancel c) s = .next (s.on <| (d.setTxn i { x with phase := .free, writes := [] }).fin c okS)) ∧
      (s.ready 0x0B04 c = true → x.phase = .free → exec (.txnCancel c) s = .next (s.on <| d.fin c badParam)) ∧
      (∀ q tag, s.ready 0x0B04 c = true → x.phase = .done q tag → exec (.txnCancel c) s = .next (s.on <| d.fin c badParam)) ∧
      (∀ q tag ord late, s.ready 0x0B04 c = true → x.phase = .armed q tag ord late →
        (d.sealed x.tl (d.targetK x.tl x.target) = true → exec (.txnCancel c) s = .next (s.on <| d.fin c busyS)) ∧
        (d.sealed x.tl (d.targetK x.tl x.target) = false → let d1 := d.txnAbort i rsnCancelled x.target
          exec (.txnCancel c) s = .next (s.on <| (d1.setTxn i { d1.txn i with phase := .free }).fin c okS))) ∧
      (∀ rs, s.ready 0x0B05 c = true → i < 16 → x.report = some rs → (8 ≤ pp c 3 → d.obOk (pAddr c 1) (pp c 3 / 8 * 8) = true) →
        let n := min rs.length (pp c 3 / 8)
        exec (.txnReport c) s = .next (s.on <| (d.hostWrite (pAddr c 1) ((rs.take n).flatMap Refused.bytes)).finR c [n, rs.length])) ∧
      (s.ready 0x0B05 c = true → i < 16 → x.report = none → exec (.txnReport c) s = .next (s.on <| d.fin c badParam))) ∧
    (∀ (d : Dev) (n k i q tag ord : Nat) (hw : List (Nat × Nat)), (d.txn i).phase = .armed q tag ord false →
      (∀ r rs, d.groupRefused (d.txn i).writes = r :: rs → d.groupAct n k i hw = d.txnResolve i (r :: rs) k 0) ∧
      (d.groupRefused (d.txn i).writes = [] → d.groupAct n k i hw =
        (d.txnResolve i [] k (hwFields hw (d.txn i).writes).length).groupCommit n k (d.txn i).writes hw) ∧
      ((d.txn i).writes = [] → d.groupAct n k i hw = d.txnResolve i [] k 0) ∧
      (∀ refs wins, ((d.txnResolve i refs k wins).txn i).phase = .done q tag ∧ ((d.txnResolve i refs k wins).txn i).writes = [])) ∧
    (∀ (d : Dev) (hw : List (Nat × Nat)) (w : TxnWrite), hwBits hw w.off = 0 → d.yieldHw hw w = w) ∧
    (∀ (d : Dev) (i q tag : Nat), (d.txn i).phase = .done q tag → (d.txnFree i = true ↔
      ∀ r ∈ (d.qp q).running, r.opcode = 0x0B03 → r.cmd.tag.toNat = tag → pp r.cmd 0 = i → r.dup = false → r.own = none)) ∧
    (∀ (d : Dev) (n k i q tag ord : Nat), (d.txn i).phase = .armed q tag ord true → ∀ hw, d.groupAct n k i hw = d.txnAbort i rsnLate k)

/-- A write of the register bus: misaligned or narrow (2 or 1 bytes), it does nothing but record the error; one to the protection set-up is counted, and
after the seal an alarm; where hardware updates the same CTL field, the write of that field is discarded; a target that does not answer in time
is recorded; the guard opens on its key alone, and a write of a guarded register closes it, or is ignored while it is closed. While PD_HIF is down the
host's accesses are answered as for a domain that is off: the write is ignored, the read gives all ones. -/
def Obligations.RegisterBusRules : Prop :=
  ∀ s : State,
    (∀ (init : Initiator) (off : BitVec 28) (value hw : Word),
      (off.toNat % 4 ≠ 0 → exec (.registerWrite init off 0 value hw) s = .next (s.onDev fun d => d.regErr .align off.toNat init)) ∧
      (off.toNat % 2 ≠ 0 → exec (.registerWrite init off 1 value hw) s = .next (s.onDev fun d => d.regErr .align off.toNat init)) ∧
      (off.toNat % 2 = 0 → exec (.registerWrite init off 1 value hw) s = .next (s.onDev fun d => d.regErr .narrow off.toNat init)) ∧
      (exec (.registerWrite init off 2 value hw) s = .next (s.onDev fun d => d.regErr .narrow off.toNat init)) ∧
      (off.toNat % 4 = 0 → firmwareRange off.toNat = true → init = .firmware → exec (.registerWrite init off 0 value hw) s = .next s) ∧
      (off.toNat % 4 = 0 → firmwareRange off.toNat = false → hw = 0 → exec (.registerWrite init off 0 value hw) s = .next (s.regWriteAll init off.toNat value.toNat)) ∧
      (off.toNat % 4 = 0 → firmwareRange off.toNat = false → wideReg off.toNat = false → s.dev.answers init off.toNat = true →
        let hit := hw.toNat &&& ctlBits off.toNat &&& writeMask false value.toNat
        hit ≠ 0 → exec (.registerWrite init off 0 value hw) s =
          .next ((s.regWriteAll init off.toNat (value.toNat - hit * 2 ^ 16)).onDev fun d => d.regErr .collide off.toNat init))) ∧
    (∀ (init : Initiator) (off value cmds : Nat), off ≠ rSEC_RECOVERY_CTL → off ≠ rTMU_STEP_CMD → protReg off = true → (s.dev.busWr init off value).2 = .yes cmds →
      reachesCfg off value = true → let s1 : State := s.on <| (s.dev.busWr init off value).1.bump SEC_SEAL_VIOL
        (s.dev.flag SEC_BOOT_STS_SEALED = true → s.regWriteAll init off value = s1.alarm [5]) ∧
        (s.dev.flag SEC_BOOT_STS_SEALED = false → s.regWriteAll init off value = s1)) ∧
    (∀ (init : Initiator) (off value : Nat), off ≠ rSEC_RECOVERY_CTL → off ≠ rTMU_STEP_CMD → protReg off = false →
      s.regWriteAll init off value = s.onDev fun d => d.regWrite init off value) ∧
    (∀ (init : Initiator) (value : Word), s.dev.answers init rTHM_UNLOCK = true → nextAnd (exec (.guardUnlock init value) s) fun t =>
      t.dev.guardOpen = (value == 0xFFFF5AC3) ∧ t.dev.flag (regErrGuard 0x0E) = (value == 0xFFFF5AC3) ∧ t.dev.mem = s.dev.mem ∧ t.dev.now = s.dev.now) ∧
    (∀ (init : Initiator) (i : Fin 60) (value : Word), init ≠ .group → s.dev.answers init (rTHM_TRIM_i i) = true →
      nextAnd (exec (.registerWrite init (BitVec.ofNat 28 (rTHM_TRIM_i i)) 0 value 0) s) fun t => t.dev.guardOpen = false ∧
        (s.dev.guardOpen = false → t.dev.reg (rTHM_TRIM_i i) = s.dev.reg (rTHM_TRIM_i i))) ∧
    (∀ (off value : Nat), (regAt off).isSome = true → s.dev.holeFor .host off = false → s.dev.domOn 76 = false →
      s.dev.busWr .host off value = (s.dev.regErr .domainOff off .host, .no) ∧
      s.dev.busRd .host off = (s.dev.regErr .domainOff off .host, 2 ^ 32 - 1)) ∧
    (∀ (init : Initiator) (off : BitVec 28) (w : Option Word) (taken : Bool), let o := off.toNat
      ((regAt o).isNone = true ∨ s.dev.holeFor init o = true → exec (.regbusTimeout init off w taken) s = .next (s.onDev fun d => d.regErr .hole o init)) ∧
      ((regAt o).isSome = true → s.dev.holeFor init o = false → s.dev.answers init o = false →
        exec (.regbusTimeout init off w taken) s = .next (s.onDev fun d => d.regErr .domainOff o init)) ∧
      (s.dev.answers init o = true → w = none ∨ taken = false →
        exec (.regbusTimeout init off w taken) s = .next (s.onDev fun d => (d.regErr .timeout o init).health 1 10 o)) ∧
      (∀ v, s.dev.answers init o = true → w = some v → taken = true →
        exec (.regbusTimeout init off w taken) s = .next ((s.regWriteAll init o v.toNat).onDev fun d => (d.regErr .timeout o init).health 1 10 o)))
end

