-- ==== Sys2Proof/Laws/Tab.lean ====
section
/-! SUPPORT. Laws of sparse tables: what was written at a key is read there, other keys stay, the canonical form is kept. -/

namespace Sys2Proof.Machine

variable {β : Type}

theorem Tab.find_put (t : Tab β) (k : Nat) (v : β) (j : Nat) : Tab.find (Tab.put t k v) j = if j = k then some v else Tab.find t j := by
  induction t with
  | nil =>
    by_cases h : j = k
    · simp [Tab.put, Tab.find, h]
    · simp [Tab.put, Tab.find, h, Ne.symm h]
  | cons p t ih =>
    obtain ⟨i, u⟩ := p
    simp only [Tab.put]
    by_cases h : j = k
    · subst h
      split
      · simp [Tab.find]
      · split
        · simp [Tab.find]
        · rename_i hk; simp only [Tab.find, hk, ih, if_true]; simp
    · split
      · simp [Tab.find, Ne.symm h]
      · split
        · rename_i hk
          have hk : i = k := by simpa using hk
          subst hk
          simp [Tab.find, Ne.symm h]
        · simp [Tab.find, ih, h]

theorem Tab.find_del (t : Tab β) (k j : Nat) : Tab.find (Tab.del t k) j = if j = k then none else Tab.find t j := by
  induction t with
  | nil => simp [Tab.del, Tab.find]
  | cons p t ih =>
    obtain ⟨i, u⟩ := p
    simp only [Tab.del]
    by_cases h : i = k
    · subst h
      simp only [beq_self_eq_true, if_true, ih, Tab.find, beq_iff_eq]
      by_cases h2 : j = i
      · simp [h2]
      · simp [h2, Ne.symm h2]
    · simp only [beq_iff_eq, h, if_false, Tab.find, ih]
      by_cases h2 : i = j
      · subst h2; simp [h]
      · simp [h2]

/-- Read after write, on any table. -/
@[simp] theorem Tab.getD_setD [DecidableEq β] (d : Nat → β) (t : Tab β) (k : Nat) (v : β) (j : Nat) :
    Tab.getD d (Tab.setD d t k v) j = if j = k then v else Tab.getD d t j := by
  unfold Tab.getD Tab.setD
  by_cases hv : v = d k
  · rw [if_pos hv, Tab.find_del]
    by_cases h : j = k <;> simp [h, hv]
  · rw [if_neg hv, Tab.find_put]
    by_cases h : j = k <;> simp [h]

theorem Tab.getD_setD_self [DecidableEq β] (d : Nat → β) (t : Tab β) (k : Nat) (v : β) : Tab.getD d (Tab.setD d t k v) k = v := by
  simp

/-! ### The canonical form -/

theorem Tab.above_weaken {lo : Option Nat} {i k : Nat} (h : Tab.above lo i = true) (hk : i ≤ k) : Tab.above lo k = true := by
  cases lo with
  | none => rfl
  | some l => simp only [Tab.above, decide_eq_true_eq] at h ⊢; omega

theorem Tab.rising_above {lo : Option Nat} {i : Nat} (h : Tab.above lo i = true) : ∀ {t : Tab β}, Tab.rising (some i) t = true →
    Tab.rising lo t = true
  | [], _ => rfl
  | (k, v) :: t, ht => by
    simp only [Tab.rising, Bool.and_eq_true] at ht ⊢
    refine ⟨Tab.above_weaken h ?_, ht.2⟩
    have := ht.1
    simp only [Tab.above, decide_eq_true_eq] at this
    omega

theorem Tab.rising_put : ∀ (t : Tab β) (lo : Option Nat) (k : Nat) (v : β), Tab.rising lo t = true → Tab.above lo k = true →
    Tab.rising lo (Tab.put t k v) = true
  | [], lo, k, v, _, hl => by simp [Tab.put, Tab.rising, hl]
  | (i, u) :: t, lo, k, v, ht, hl => by
    simp only [Tab.rising, Bool.and_eq_true] at ht
    simp only [Tab.put]
    split
    · rename_i h
      simp only [Tab.rising, Bool.and_eq_true]
      exact ⟨hl, by simpa [Tab.above] using h, ht.2⟩
    · split
      · rename_i h
        have h : i = k := by simpa using h
        subst h
        simp only [Tab.rising, Bool.and_eq_true]
        exact ⟨hl, ht.2⟩
      · rename_i h1 h2
        simp only [Tab.rising, Bool.and_eq_true]
        refine ⟨ht.1, Tab.rising_put t (some i) k v ht.2 ?_⟩
        have h2 : i ≠ k := by simpa using h2
        simp only [Tab.above, decide_eq_true_eq]; omega

theorem Tab.rising_del : ∀ (t : Tab β) (lo : Option Nat) (k : Nat), Tab.rising lo t = true → Tab.rising lo (Tab.del t k) = true
  | [], _, _, _ => rfl
  | (i, u) :: t, lo, k, ht => by
    simp only [Tab.rising, Bool.and_eq_true] at ht
    simp only [Tab.del]
    split
    · exact Tab.rising_above ht.1 (Tab.rising_del t (some i) k ht.2)
    · simp only [Tab.rising, Bool.and_eq_true]
      exact ⟨ht.1, Tab.rising_del t (some i) k ht.2⟩

theorem Tab.noDefault_put [DecidableEq β] (d : Nat → β) : ∀ (t : Tab β) (k : Nat) (v : β), v ≠ d k → Tab.noDefault d t = true →
    Tab.noDefault d (Tab.put t k v) = true
  | [], k, v, hv, _ => by simp [Tab.put, Tab.noDefault, hv]
  | (i, u) :: t, k, v, hv, ht => by
    have ht' := ht
    simp only [Tab.noDefault, Bool.and_eq_true] at ht
    simp only [Tab.put]
    split
    · simp only [Tab.noDefault, Bool.and_eq_true, decide_eq_true_eq]; exact ⟨hv, by simpa using ht.1, ht.2⟩
    · split
      · simp only [Tab.noDefault, Bool.and_eq_true, decide_eq_true_eq]; exact ⟨hv, ht.2⟩
      · simp only [Tab.noDefault, Bool.and_eq_true]; exact ⟨ht.1, Tab.noDefault_put d t k v hv ht.2⟩

theorem Tab.noDefault_del [DecidableEq β] (d : Nat → β) : ∀ (t : Tab β) (k : Nat), Tab.noDefault d t = true → Tab.noDefault d (Tab.del t k) = true
  | [], _, _ => rfl
  | (i, u) :: t, k, ht => by
    simp only [Tab.noDefault, Bool.and_eq_true] at ht
    simp only [Tab.del]
    split
    · exact Tab.noDefault_del d t k ht.2
    · simp only [Tab.noDefault, Bool.and_eq_true]; exact ⟨ht.1, Tab.noDefault_del d t k ht.2⟩

/-- Writing keeps the canonical form. -/
theorem Tab.wf_setD [DecidableEq β] (d : Nat → β) (t : Tab β) (k : Nat) (v : β) (h : Tab.wf d t = true) : Tab.wf d (Tab.setD d t k v) = true := by
  simp only [Tab.wf, Bool.and_eq_true] at h ⊢
  unfold Tab.setD
  split
  · exact ⟨Tab.rising_del t none k h.1, Tab.noDefault_del d t k h.2⟩
  · rename_i hv
    exact ⟨Tab.rising_put t none k v h.1 rfl, Tab.noDefault_put d t k v hv h.2⟩

/-- Dropping entries keeps the canonical form. -/
theorem Tab.rising_filter (f : Nat × β → Bool) : ∀ (t : Tab β) (lo : Option Nat), Tab.rising lo t = true → Tab.rising lo (t.filter f) = true
  | [], _, _ => rfl
  | (i, u) :: t, lo, ht => by
    simp only [Tab.rising, Bool.and_eq_true] at ht
    have h := Tab.rising_filter f t (some i) ht.2
    simp only [List.filter]
    split
    · simp only [Tab.rising, Bool.and_eq_true]; exact ⟨ht.1, h⟩
    · exact Tab.rising_above ht.1 h

theorem Tab.noDefault_filter [DecidableEq β] (d : Nat → β) (f : Nat × β → Bool) : ∀ t : Tab β, Tab.noDefault d t = true →
    Tab.noDefault d (t.filter f) = true
  | [], _ => rfl
  | (i, u) :: t, ht => by
    simp only [Tab.noDefault, Bool.and_eq_true] at ht
    simp only [List.filter]
    split
    · simp only [Tab.noDefault, Bool.and_eq_true]; exact ⟨ht.1, Tab.noDefault_filter d f t ht.2⟩
    · exact Tab.noDefault_filter d f t ht.2

theorem Tab.wf_filter [DecidableEq β] (d : Nat → β) (t : Tab β) (f : Nat × β → Bool) (h : Tab.wf d t = true) : Tab.wf d (t.filter f) = true := by
  simp only [Tab.wf, Bool.and_eq_true] at h ⊢
  exact ⟨Tab.rising_filter f t none h.1, Tab.noDefault_filter d f t h.2⟩

end Sys2Proof.Machine
end

