-- ==== Sys2Proof/Laws/State.lean ====
section
/-! SUPPORT. What an update leaves: one lemma per field per update, true by rfl. -/

namespace Sys2Proof.Machine

/-! ### State -/

@[simp] theorem State.onDev_dev (s : State) (f : Dev → Dev) : (s.onDev f).dev = f s.dev := rfl
@[simp] theorem State.onDev_sec (s : State) (f : Dev → Dev) : (s.onDev f).sec = s.sec := rfl
@[simp] theorem State.onDev_pending (s : State) (f : Dev → Dev) : (s.onDev f).pending = s.pending := rfl
@[simp] theorem State.on_dev (s : State) (d : Dev) : (s.on d).dev = d := rfl
@[simp] theorem State.on_sec (s : State) (d : Dev) : (s.on d).sec = s.sec := rfl
@[simp] theorem State.on_pending (s : State) (d : Dev) : (s.on d).pending = s.pending := rfl
theorem State.act_eq (s : State) (f : Dev → Dev) : s.act f = .next (s.on (f s.dev)) := rfl


/-! ### setReg -/

@[simp] theorem Dev.setReg_now (d : Dev) (off v : Nat) : (d.setReg off v).now = d.now := rfl
@[simp] theorem Dev.setReg_cyc (d : Dev) (off v : Nat) : (d.setReg off v).cyc = d.cyc := rfl
@[simp] theorem Dev.setReg_guardOpen (d : Dev) (off v : Nat) : (d.setReg off v).guardOpen = d.guardOpen := rfl
@[simp] theorem Dev.setReg_free (d : Dev) (off v : Nat) : (d.setReg off v).free = d.free := rfl
@[simp] theorem Dev.setReg_hif (d : Dev) (off v : Nat) : (d.setReg off v).hif = d.hif := rfl
@[simp] theorem Dev.setReg_tls (d : Dev) (off v : Nat) : (d.setReg off v).tls = d.tls := rfl
@[simp] theorem Dev.setReg_txns (d : Dev) (off v : Nat) : (d.setReg off v).txns = d.txns := rfl
@[simp] theorem Dev.setReg_txnOrd (d : Dev) (off v : Nat) : (d.setReg off v).txnOrd = d.txnOrd := rfl
@[simp] theorem Dev.setReg_fw (d : Dev) (off v : Nat) : (d.setReg off v).fw = d.fw := rfl
@[simp] theorem Dev.setReg_wds (d : Dev) (off v : Nat) : (d.setReg off v).wds = d.wds := rfl
@[simp] theorem Dev.setReg_cores (d : Dev) (off v : Nat) : (d.setReg off v).cores = d.cores := rfl
@[simp] theorem Dev.setReg_pods (d : Dev) (off v : Nat) : (d.setReg off v).pods = d.pods := rfl
@[simp] theorem Dev.setReg_mem (d : Dev) (off v : Nat) : (d.setReg off v).mem = d.mem := rfl
@[simp] theorem Dev.setReg_lyr (d : Dev) (off v : Nat) : (d.setReg off v).lyr = d.lyr := rfl
@[simp] theorem Dev.setReg_pmu (d : Dev) (off v : Nat) : (d.setReg off v).pmu = d.pmu := rfl
@[simp] theorem Dev.setReg_twin (d : Dev) (off v : Nat) : (d.setReg off v).twin = d.twin := rfl
@[simp] theorem Dev.setReg_marrow (d : Dev) (off v : Nat) : (d.setReg off v).marrow = d.marrow := rfl
@[simp] theorem Dev.setReg_ledger (d : Dev) (off v : Nat) : (d.setReg off v).ledger = d.ledger := rfl
@[simp] theorem Dev.setReg_thm (d : Dev) (off v : Nat) : (d.setReg off v).thm = d.thm := rfl
@[simp] theorem Dev.setReg_tmu (d : Dev) (off v : Nat) : (d.setReg off v).tmu = d.tmu := rfl
@[simp] theorem Dev.setReg_eth (d : Dev) (off v : Nat) : (d.setReg off v).eth = d.eth := rfl
@[simp] theorem Dev.setReg_zth (d : Dev) (off v : Nat) : (d.setReg off v).zth = d.zth := rfl
@[simp] theorem Dev.setReg_cal (d : Dev) (off v : Nat) : (d.setReg off v).cal = d.cal := rfl
@[simp] theorem Dev.setReg_dfe (d : Dev) (off v : Nat) : (d.setReg off v).dfe = d.dfe := rfl
@[simp] theorem Dev.setReg_nbb (d : Dev) (off v : Nat) : (d.setReg off v).nbb = d.nbb := rfl

/-! ### wf -/

@[simp] theorem Dev.wf_now (d : Dev) (f : Fld) (v : Nat) : (d.wf f v).now = d.now := rfl
@[simp] theorem Dev.wf_cyc (d : Dev) (f : Fld) (v : Nat) : (d.wf f v).cyc = d.cyc := rfl
@[simp] theorem Dev.wf_guardOpen (d : Dev) (f : Fld) (v : Nat) : (d.wf f v).guardOpen = d.guardOpen := rfl
@[simp] theorem Dev.wf_free (d : Dev) (f : Fld) (v : Nat) : (d.wf f v).free = d.free := rfl
@[simp] theorem Dev.wf_hif (d : Dev) (f : Fld) (v : Nat) : (d.wf f v).hif = d.hif := rfl
@[simp] theorem Dev.wf_tls (d : Dev) (f : Fld) (v : Nat) : (d.wf f v).tls = d.tls := rfl
@[simp] theorem Dev.wf_txns (d : Dev) (f : Fld) (v : Nat) : (d.wf f v).txns = d.txns := rfl
@[simp] theorem Dev.wf_txnOrd (d : Dev) (f : Fld) (v : Nat) : (d.wf f v).txnOrd = d.txnOrd := rfl
@[simp] theorem Dev.wf_fw (d : Dev) (f : Fld) (v : Nat) : (d.wf f v).fw = d.fw := rfl
@[simp] theorem Dev.wf_wds (d : Dev) (f : Fld) (v : Nat) : (d.wf f v).wds = d.wds := rfl
@[simp] theorem Dev.wf_cores (d : Dev) (f : Fld) (v : Nat) : (d.wf f v).cores = d.cores := rfl
@[simp] theorem Dev.wf_pods (d : Dev) (f : Fld) (v : Nat) : (d.wf f v).pods = d.pods := rfl
@[simp] theorem Dev.wf_mem (d : Dev) (f : Fld) (v : Nat) : (d.wf f v).mem = d.mem := rfl
@[simp] theorem Dev.wf_lyr (d : Dev) (f : Fld) (v : Nat) : (d.wf f v).lyr = d.lyr := rfl
@[simp] theorem Dev.wf_pmu (d : Dev) (f : Fld) (v : Nat) : (d.wf f v).pmu = d.pmu := rfl
@[simp] theorem Dev.wf_twin (d : Dev) (f : Fld) (v : Nat) : (d.wf f v).twin = d.twin := rfl
@[simp] theorem Dev.wf_marrow (d : Dev) (f : Fld) (v : Nat) : (d.wf f v).marrow = d.marrow := rfl
@[simp] theorem Dev.wf_ledger (d : Dev) (f : Fld) (v : Nat) : (d.wf f v).ledger = d.ledger := rfl
@[simp] theorem Dev.wf_thm (d : Dev) (f : Fld) (v : Nat) : (d.wf f v).thm = d.thm := rfl
@[simp] theorem Dev.wf_tmu (d : Dev) (f : Fld) (v : Nat) : (d.wf f v).tmu = d.tmu := rfl
@[simp] theorem Dev.wf_eth (d : Dev) (f : Fld) (v : Nat) : (d.wf f v).eth = d.eth := rfl
@[simp] theorem Dev.wf_zth (d : Dev) (f : Fld) (v : Nat) : (d.wf f v).zth = d.zth := rfl
@[simp] theorem Dev.wf_cal (d : Dev) (f : Fld) (v : Nat) : (d.wf f v).cal = d.cal := rfl
@[simp] theorem Dev.wf_dfe (d : Dev) (f : Fld) (v : Nat) : (d.wf f v).dfe = d.dfe := rfl
@[simp] theorem Dev.wf_nbb (d : Dev) (f : Fld) (v : Nat) : (d.wf f v).nbb = d.nbb := rfl

/-! ### setFlag -/

@[simp] theorem Dev.setFlag_now (d : Dev) (f : Fld) (b : Bool) : (d.setFlag f b).now = d.now := rfl
@[simp] theorem Dev.setFlag_cyc (d : Dev) (f : Fld) (b : Bool) : (d.setFlag f b).cyc = d.cyc := rfl
@[simp] theorem Dev.setFlag_guardOpen (d : Dev) (f : Fld) (b : Bool) : (d.setFlag f b).guardOpen = d.guardOpen := rfl
@[simp] theorem Dev.setFlag_free (d : Dev) (f : Fld) (b : Bool) : (d.setFlag f b).free = d.free := rfl
@[simp] theorem Dev.setFlag_hif (d : Dev) (f : Fld) (b : Bool) : (d.setFlag f b).hif = d.hif := rfl
@[simp] theorem Dev.setFlag_tls (d : Dev) (f : Fld) (b : Bool) : (d.setFlag f b).tls = d.tls := rfl
@[simp] theorem Dev.setFlag_txns (d : Dev) (f : Fld) (b : Bool) : (d.setFlag f b).txns = d.txns := rfl
@[simp] theorem Dev.setFlag_txnOrd (d : Dev) (f : Fld) (b : Bool) : (d.setFlag f b).txnOrd = d.txnOrd := rfl
@[simp] theorem Dev.setFlag_fw (d : Dev) (f : Fld) (b : Bool) : (d.setFlag f b).fw = d.fw := rfl
@[simp] theorem Dev.setFlag_wds (d : Dev) (f : Fld) (b : Bool) : (d.setFlag f b).wds = d.wds := rfl
@[simp] theorem Dev.setFlag_cores (d : Dev) (f : Fld) (b : Bool) : (d.setFlag f b).cores = d.cores := rfl
@[simp] theorem Dev.setFlag_pods (d : Dev) (f : Fld) (b : Bool) : (d.setFlag f b).pods = d.pods := rfl
@[simp] theorem Dev.setFlag_mem (d : Dev) (f : Fld) (b : Bool) : (d.setFlag f b).mem = d.mem := rfl
@[simp] theorem Dev.setFlag_lyr (d : Dev) (f : Fld) (b : Bool) : (d.setFlag f b).lyr = d.lyr := rfl
@[simp] theorem Dev.setFlag_pmu (d : Dev) (f : Fld) (b : Bool) : (d.setFlag f b).pmu = d.pmu := rfl
@[simp] theorem Dev.setFlag_twin (d : Dev) (f : Fld) (b : Bool) : (d.setFlag f b).twin = d.twin := rfl
@[simp] theorem Dev.setFlag_marrow (d : Dev) (f : Fld) (b : Bool) : (d.setFlag f b).marrow = d.marrow := rfl
@[simp] theorem Dev.setFlag_ledger (d : Dev) (f : Fld) (b : Bool) : (d.setFlag f b).ledger = d.ledger := rfl
@[simp] theorem Dev.setFlag_thm (d : Dev) (f : Fld) (b : Bool) : (d.setFlag f b).thm = d.thm := rfl
@[simp] theorem Dev.setFlag_tmu (d : Dev) (f : Fld) (b : Bool) : (d.setFlag f b).tmu = d.tmu := rfl
@[simp] theorem Dev.setFlag_eth (d : Dev) (f : Fld) (b : Bool) : (d.setFlag f b).eth = d.eth := rfl
@[simp] theorem Dev.setFlag_zth (d : Dev) (f : Fld) (b : Bool) : (d.setFlag f b).zth = d.zth := rfl
@[simp] theorem Dev.setFlag_cal (d : Dev) (f : Fld) (b : Bool) : (d.setFlag f b).cal = d.cal := rfl
@[simp] theorem Dev.setFlag_dfe (d : Dev) (f : Fld) (b : Bool) : (d.setFlag f b).dfe = d.dfe := rfl
@[simp] theorem Dev.setFlag_nbb (d : Dev) (f : Fld) (b : Bool) : (d.setFlag f b).nbb = d.nbb := rfl

/-! ### bumpBy -/

@[simp] theorem Dev.bumpBy_now (d : Dev) (f : Fld) (n : Nat) : (d.bumpBy f n).now = d.now := rfl
@[simp] theorem Dev.bumpBy_cyc (d : Dev) (f : Fld) (n : Nat) : (d.bumpBy f n).cyc = d.cyc := rfl
@[simp] theorem Dev.bumpBy_guardOpen (d : Dev) (f : Fld) (n : Nat) : (d.bumpBy f n).guardOpen = d.guardOpen := rfl
@[simp] theorem Dev.bumpBy_free (d : Dev) (f : Fld) (n : Nat) : (d.bumpBy f n).free = d.free := rfl
@[simp] theorem Dev.bumpBy_hif (d : Dev) (f : Fld) (n : Nat) : (d.bumpBy f n).hif = d.hif := rfl
@[simp] theorem Dev.bumpBy_tls (d : Dev) (f : Fld) (n : Nat) : (d.bumpBy f n).tls = d.tls := rfl
@[simp] theorem Dev.bumpBy_txns (d : Dev) (f : Fld) (n : Nat) : (d.bumpBy f n).txns = d.txns := rfl
@[simp] theorem Dev.bumpBy_txnOrd (d : Dev) (f : Fld) (n : Nat) : (d.bumpBy f n).txnOrd = d.txnOrd := rfl
@[simp] theorem Dev.bumpBy_fw (d : Dev) (f : Fld) (n : Nat) : (d.bumpBy f n).fw = d.fw := rfl
@[simp] theorem Dev.bumpBy_wds (d : Dev) (f : Fld) (n : Nat) : (d.bumpBy f n).wds = d.wds := rfl
@[simp] theorem Dev.bumpBy_cores (d : Dev) (f : Fld) (n : Nat) : (d.bumpBy f n).cores = d.cores := rfl
@[simp] theorem Dev.bumpBy_pods (d : Dev) (f : Fld) (n : Nat) : (d.bumpBy f n).pods = d.pods := rfl
@[simp] theorem Dev.bumpBy_mem (d : Dev) (f : Fld) (n : Nat) : (d.bumpBy f n).mem = d.mem := rfl
@[simp] theorem Dev.bumpBy_lyr (d : Dev) (f : Fld) (n : Nat) : (d.bumpBy f n).lyr = d.lyr := rfl
@[simp] theorem Dev.bumpBy_pmu (d : Dev) (f : Fld) (n : Nat) : (d.bumpBy f n).pmu = d.pmu := rfl
@[simp] theorem Dev.bumpBy_twin (d : Dev) (f : Fld) (n : Nat) : (d.bumpBy f n).twin = d.twin := rfl
@[simp] theorem Dev.bumpBy_marrow (d : Dev) (f : Fld) (n : Nat) : (d.bumpBy f n).marrow = d.marrow := rfl
@[simp] theorem Dev.bumpBy_ledger (d : Dev) (f : Fld) (n : Nat) : (d.bumpBy f n).ledger = d.ledger := rfl
@[simp] theorem Dev.bumpBy_thm (d : Dev) (f : Fld) (n : Nat) : (d.bumpBy f n).thm = d.thm := rfl
@[simp] theorem Dev.bumpBy_tmu (d : Dev) (f : Fld) (n : Nat) : (d.bumpBy f n).tmu = d.tmu := rfl
@[simp] theorem Dev.bumpBy_eth (d : Dev) (f : Fld) (n : Nat) : (d.bumpBy f n).eth = d.eth := rfl
@[simp] theorem Dev.bumpBy_zth (d : Dev) (f : Fld) (n : Nat) : (d.bumpBy f n).zth = d.zth := rfl
@[simp] theorem Dev.bumpBy_cal (d : Dev) (f : Fld) (n : Nat) : (d.bumpBy f n).cal = d.cal := rfl
@[simp] theorem Dev.bumpBy_dfe (d : Dev) (f : Fld) (n : Nat) : (d.bumpBy f n).dfe = d.dfe := rfl
@[simp] theorem Dev.bumpBy_nbb (d : Dev) (f : Fld) (n : Nat) : (d.bumpBy f n).nbb = d.nbb := rfl

/-! ### bump -/

@[simp] theorem Dev.bump_now (d : Dev) (f : Fld) : (d.bump f).now = d.now := rfl
@[simp] theorem Dev.bump_cyc (d : Dev) (f : Fld) : (d.bump f).cyc = d.cyc := rfl
@[simp] theorem Dev.bump_guardOpen (d : Dev) (f : Fld) : (d.bump f).guardOpen = d.guardOpen := rfl
@[simp] theorem Dev.bump_free (d : Dev) (f : Fld) : (d.bump f).free = d.free := rfl
@[simp] theorem Dev.bump_hif (d : Dev) (f : Fld) : (d.bump f).hif = d.hif := rfl
@[simp] theorem Dev.bump_tls (d : Dev) (f : Fld) : (d.bump f).tls = d.tls := rfl
@[simp] theorem Dev.bump_txns (d : Dev) (f : Fld) : (d.bump f).txns = d.txns := rfl
@[simp] theorem Dev.bump_txnOrd (d : Dev) (f : Fld) : (d.bump f).txnOrd = d.txnOrd := rfl
@[simp] theorem Dev.bump_fw (d : Dev) (f : Fld) : (d.bump f).fw = d.fw := rfl
@[simp] theorem Dev.bump_wds (d : Dev) (f : Fld) : (d.bump f).wds = d.wds := rfl
@[simp] theorem Dev.bump_cores (d : Dev) (f : Fld) : (d.bump f).cores = d.cores := rfl
@[simp] theorem Dev.bump_pods (d : Dev) (f : Fld) : (d.bump f).pods = d.pods := rfl
@[simp] theorem Dev.bump_mem (d : Dev) (f : Fld) : (d.bump f).mem = d.mem := rfl
@[simp] theorem Dev.bump_lyr (d : Dev) (f : Fld) : (d.bump f).lyr = d.lyr := rfl
@[simp] theorem Dev.bump_pmu (d : Dev) (f : Fld) : (d.bump f).pmu = d.pmu := rfl
@[simp] theorem Dev.bump_twin (d : Dev) (f : Fld) : (d.bump f).twin = d.twin := rfl
@[simp] theorem Dev.bump_marrow (d : Dev) (f : Fld) : (d.bump f).marrow = d.marrow := rfl
@[simp] theorem Dev.bump_ledger (d : Dev) (f : Fld) : (d.bump f).ledger = d.ledger := rfl
@[simp] theorem Dev.bump_thm (d : Dev) (f : Fld) : (d.bump f).thm = d.thm := rfl
@[simp] theorem Dev.bump_tmu (d : Dev) (f : Fld) : (d.bump f).tmu = d.tmu := rfl
@[simp] theorem Dev.bump_eth (d : Dev) (f : Fld) : (d.bump f).eth = d.eth := rfl
@[simp] theorem Dev.bump_zth (d : Dev) (f : Fld) : (d.bump f).zth = d.zth := rfl
@[simp] theorem Dev.bump_cal (d : Dev) (f : Fld) : (d.bump f).cal = d.cal := rfl
@[simp] theorem Dev.bump_dfe (d : Dev) (f : Fld) : (d.bump f).dfe = d.dfe := rfl
@[simp] theorem Dev.bump_nbb (d : Dev) (f : Fld) : (d.bump f).nbb = d.nbb := rfl

/-! ### wf64 -/

@[simp] theorem Dev.wf64_now (d : Dev) (lo hi : Fld) (v : Nat) : (d.wf64 lo hi v).now = d.now := rfl
@[simp] theorem Dev.wf64_cyc (d : Dev) (lo hi : Fld) (v : Nat) : (d.wf64 lo hi v).cyc = d.cyc := rfl
@[simp] theorem Dev.wf64_guardOpen (d : Dev) (lo hi : Fld) (v : Nat) : (d.wf64 lo hi v).guardOpen = d.guardOpen := rfl
@[simp] theorem Dev.wf64_free (d : Dev) (lo hi : Fld) (v : Nat) : (d.wf64 lo hi v).free = d.free := rfl
@[simp] theorem Dev.wf64_hif (d : Dev) (lo hi : Fld) (v : Nat) : (d.wf64 lo hi v).hif = d.hif := rfl
@[simp] theorem Dev.wf64_tls (d : Dev) (lo hi : Fld) (v : Nat) : (d.wf64 lo hi v).tls = d.tls := rfl
@[simp] theorem Dev.wf64_txns (d : Dev) (lo hi : Fld) (v : Nat) : (d.wf64 lo hi v).txns = d.txns := rfl
@[simp] theorem Dev.wf64_txnOrd (d : Dev) (lo hi : Fld) (v : Nat) : (d.wf64 lo hi v).txnOrd = d.txnOrd := rfl
@[simp] theorem Dev.wf64_fw (d : Dev) (lo hi : Fld) (v : Nat) : (d.wf64 lo hi v).fw = d.fw := rfl
@[simp] theorem Dev.wf64_wds (d : Dev) (lo hi : Fld) (v : Nat) : (d.wf64 lo hi v).wds = d.wds := rfl
@[simp] theorem Dev.wf64_cores (d : Dev) (lo hi : Fld) (v : Nat) : (d.wf64 lo hi v).cores = d.cores := rfl
@[simp] theorem Dev.wf64_pods (d : Dev) (lo hi : Fld) (v : Nat) : (d.wf64 lo hi v).pods = d.pods := rfl
@[simp] theorem Dev.wf64_mem (d : Dev) (lo hi : Fld) (v : Nat) : (d.wf64 lo hi v).mem = d.mem := rfl
@[simp] theorem Dev.wf64_lyr (d : Dev) (lo hi : Fld) (v : Nat) : (d.wf64 lo hi v).lyr = d.lyr := rfl
@[simp] theorem Dev.wf64_pmu (d : Dev) (lo hi : Fld) (v : Nat) : (d.wf64 lo hi v).pmu = d.pmu := rfl
@[simp] theorem Dev.wf64_twin (d : Dev) (lo hi : Fld) (v : Nat) : (d.wf64 lo hi v).twin = d.twin := rfl
@[simp] theorem Dev.wf64_marrow (d : Dev) (lo hi : Fld) (v : Nat) : (d.wf64 lo hi v).marrow = d.marrow := rfl
@[simp] theorem Dev.wf64_ledger (d : Dev) (lo hi : Fld) (v : Nat) : (d.wf64 lo hi v).ledger = d.ledger := rfl
@[simp] theorem Dev.wf64_thm (d : Dev) (lo hi : Fld) (v : Nat) : (d.wf64 lo hi v).thm = d.thm := rfl
@[simp] theorem Dev.wf64_tmu (d : Dev) (lo hi : Fld) (v : Nat) : (d.wf64 lo hi v).tmu = d.tmu := rfl
@[simp] theorem Dev.wf64_eth (d : Dev) (lo hi : Fld) (v : Nat) : (d.wf64 lo hi v).eth = d.eth := rfl
@[simp] theorem Dev.wf64_zth (d : Dev) (lo hi : Fld) (v : Nat) : (d.wf64 lo hi v).zth = d.zth := rfl
@[simp] theorem Dev.wf64_cal (d : Dev) (lo hi : Fld) (v : Nat) : (d.wf64 lo hi v).cal = d.cal := rfl
@[simp] theorem Dev.wf64_dfe (d : Dev) (lo hi : Fld) (v : Nat) : (d.wf64 lo hi v).dfe = d.dfe := rfl
@[simp] theorem Dev.wf64_nbb (d : Dev) (lo hi : Fld) (v : Nat) : (d.wf64 lo hi v).nbb = d.nbb := rfl

/-! ### setQp -/

@[simp] theorem Dev.setQp_now (d : Dev) (q : Nat) (x : QPair) : (d.setQp q x).now = d.now := rfl
@[simp] theorem Dev.setQp_cyc (d : Dev) (q : Nat) (x : QPair) : (d.setQp q x).cyc = d.cyc := rfl
@[simp] theorem Dev.setQp_regs (d : Dev) (q : Nat) (x : QPair) : (d.setQp q x).regs = d.regs := rfl
@[simp] theorem Dev.setQp_guardOpen (d : Dev) (q : Nat) (x : QPair) : (d.setQp q x).guardOpen = d.guardOpen := rfl
@[simp] theorem Dev.setQp_free (d : Dev) (q : Nat) (x : QPair) : (d.setQp q x).free = d.free := rfl
@[simp] theorem Dev.setQp_tls (d : Dev) (q : Nat) (x : QPair) : (d.setQp q x).tls = d.tls := rfl
@[simp] theorem Dev.setQp_txns (d : Dev) (q : Nat) (x : QPair) : (d.setQp q x).txns = d.txns := rfl
@[simp] theorem Dev.setQp_txnOrd (d : Dev) (q : Nat) (x : QPair) : (d.setQp q x).txnOrd = d.txnOrd := rfl
@[simp] theorem Dev.setQp_fw (d : Dev) (q : Nat) (x : QPair) : (d.setQp q x).fw = d.fw := rfl
@[simp] theorem Dev.setQp_wds (d : Dev) (q : Nat) (x : QPair) : (d.setQp q x).wds = d.wds := rfl
@[simp] theorem Dev.setQp_cores (d : Dev) (q : Nat) (x : QPair) : (d.setQp q x).cores = d.cores := rfl
@[simp] theorem Dev.setQp_pods (d : Dev) (q : Nat) (x : QPair) : (d.setQp q x).pods = d.pods := rfl
@[simp] theorem Dev.setQp_mem (d : Dev) (q : Nat) (x : QPair) : (d.setQp q x).mem = d.mem := rfl
@[simp] theorem Dev.setQp_lyr (d : Dev) (q : Nat) (x : QPair) : (d.setQp q x).lyr = d.lyr := rfl
@[simp] theorem Dev.setQp_pmu (d : Dev) (q : Nat) (x : QPair) : (d.setQp q x).pmu = d.pmu := rfl
@[simp] theorem Dev.setQp_twin (d : Dev) (q : Nat) (x : QPair) : (d.setQp q x).twin = d.twin := rfl
@[simp] theorem Dev.setQp_marrow (d : Dev) (q : Nat) (x : QPair) : (d.setQp q x).marrow = d.marrow := rfl
@[simp] theorem Dev.setQp_ledger (d : Dev) (q : Nat) (x : QPair) : (d.setQp q x).ledger = d.ledger := rfl
@[simp] theorem Dev.setQp_thm (d : Dev) (q : Nat) (x : QPair) : (d.setQp q x).thm = d.thm := rfl
@[simp] theorem Dev.setQp_tmu (d : Dev) (q : Nat) (x : QPair) : (d.setQp q x).tmu = d.tmu := rfl
@[simp] theorem Dev.setQp_eth (d : Dev) (q : Nat) (x : QPair) : (d.setQp q x).eth = d.eth := rfl
@[simp] theorem Dev.setQp_zth (d : Dev) (q : Nat) (x : QPair) : (d.setQp q x).zth = d.zth := rfl
@[simp] theorem Dev.setQp_cal (d : Dev) (q : Nat) (x : QPair) : (d.setQp q x).cal = d.cal := rfl
@[simp] theorem Dev.setQp_dfe (d : Dev) (q : Nat) (x : QPair) : (d.setQp q x).dfe = d.dfe := rfl
@[simp] theorem Dev.setQp_nbb (d : Dev) (q : Nat) (x : QPair) : (d.setQp q x).nbb = d.nbb := rfl

/-! ### updQp -/

@[simp] theorem Dev.updQp_now (d : Dev) (q : Nat) (f : QPair → QPair) : (d.updQp q f).now = d.now := rfl
@[simp] theorem Dev.updQp_cyc (d : Dev) (q : Nat) (f : QPair → QPair) : (d.updQp q f).cyc = d.cyc := rfl
@[simp] theorem Dev.updQp_regs (d : Dev) (q : Nat) (f : QPair → QPair) : (d.updQp q f).regs = d.regs := rfl
@[simp] theorem Dev.updQp_guardOpen (d : Dev) (q : Nat) (f : QPair → QPair) : (d.updQp q f).guardOpen = d.guardOpen := rfl
@[simp] theorem Dev.updQp_free (d : Dev) (q : Nat) (f : QPair → QPair) : (d.updQp q f).free = d.free := rfl
@[simp] theorem Dev.updQp_tls (d : Dev) (q : Nat) (f : QPair → QPair) : (d.updQp q f).tls = d.tls := rfl
@[simp] theorem Dev.updQp_txns (d : Dev) (q : Nat) (f : QPair → QPair) : (d.updQp q f).txns = d.txns := rfl
@[simp] theorem Dev.updQp_txnOrd (d : Dev) (q : Nat) (f : QPair → QPair) : (d.updQp q f).txnOrd = d.txnOrd := rfl
@[simp] theorem Dev.updQp_fw (d : Dev) (q : Nat) (f : QPair → QPair) : (d.updQp q f).fw = d.fw := rfl
@[simp] theorem Dev.updQp_wds (d : Dev) (q : Nat) (f : QPair → QPair) : (d.updQp q f).wds = d.wds := rfl
@[simp] theorem Dev.updQp_cores (d : Dev) (q : Nat) (f : QPair → QPair) : (d.updQp q f).cores = d.cores := rfl
@[simp] theorem Dev.updQp_pods (d : Dev) (q : Nat) (f : QPair → QPair) : (d.updQp q f).pods = d.pods := rfl
@[simp] theorem Dev.updQp_mem (d : Dev) (q : Nat) (f : QPair → QPair) : (d.updQp q f).mem = d.mem := rfl
@[simp] theorem Dev.updQp_lyr (d : Dev) (q : Nat) (f : QPair → QPair) : (d.updQp q f).lyr = d.lyr := rfl
@[simp] theorem Dev.updQp_pmu (d : Dev) (q : Nat) (f : QPair → QPair) : (d.updQp q f).pmu = d.pmu := rfl
@[simp] theorem Dev.updQp_twin (d : Dev) (q : Nat) (f : QPair → QPair) : (d.updQp q f).twin = d.twin := rfl
@[simp] theorem Dev.updQp_marrow (d : Dev) (q : Nat) (f : QPair → QPair) : (d.updQp q f).marrow = d.marrow := rfl
@[simp] theorem Dev.updQp_ledger (d : Dev) (q : Nat) (f : QPair → QPair) : (d.updQp q f).ledger = d.ledger := rfl
@[simp] theorem Dev.updQp_thm (d : Dev) (q : Nat) (f : QPair → QPair) : (d.updQp q f).thm = d.thm := rfl
@[simp] theorem Dev.updQp_tmu (d : Dev) (q : Nat) (f : QPair → QPair) : (d.updQp q f).tmu = d.tmu := rfl
@[simp] theorem Dev.updQp_eth (d : Dev) (q : Nat) (f : QPair → QPair) : (d.updQp q f).eth = d.eth := rfl
@[simp] theorem Dev.updQp_zth (d : Dev) (q : Nat) (f : QPair → QPair) : (d.updQp q f).zth = d.zth := rfl
@[simp] theorem Dev.updQp_cal (d : Dev) (q : Nat) (f : QPair → QPair) : (d.updQp q f).cal = d.cal := rfl
@[simp] theorem Dev.updQp_dfe (d : Dev) (q : Nat) (f : QPair → QPair) : (d.updQp q f).dfe = d.dfe := rfl
@[simp] theorem Dev.updQp_nbb (d : Dev) (q : Nat) (f : QPair → QPair) : (d.updQp q f).nbb = d.nbb := rfl

/-! ### setCore -/

@[simp] theorem Dev.setCore_now (d : Dev) (c : Nat) (k : Core) : (d.setCore c k).now = d.now := rfl
@[simp] theorem Dev.setCore_cyc (d : Dev) (c : Nat) (k : Core) : (d.setCore c k).cyc = d.cyc := rfl
@[simp] theorem Dev.setCore_regs (d : Dev) (c : Nat) (k : Core) : (d.setCore c k).regs = d.regs := rfl
@[simp] theorem Dev.setCore_guardOpen (d : Dev) (c : Nat) (k : Core) : (d.setCore c k).guardOpen = d.guardOpen := rfl
@[simp] theorem Dev.setCore_free (d : Dev) (c : Nat) (k : Core) : (d.setCore c k).free = d.free := rfl
@[simp] theorem Dev.setCore_hif (d : Dev) (c : Nat) (k : Core) : (d.setCore c k).hif = d.hif := rfl
@[simp] theorem Dev.setCore_tls (d : Dev) (c : Nat) (k : Core) : (d.setCore c k).tls = d.tls := rfl
@[simp] theorem Dev.setCore_txns (d : Dev) (c : Nat) (k : Core) : (d.setCore c k).txns = d.txns := rfl
@[simp] theorem Dev.setCore_txnOrd (d : Dev) (c : Nat) (k : Core) : (d.setCore c k).txnOrd = d.txnOrd := rfl
@[simp] theorem Dev.setCore_fw (d : Dev) (c : Nat) (k : Core) : (d.setCore c k).fw = d.fw := rfl
@[simp] theorem Dev.setCore_wds (d : Dev) (c : Nat) (k : Core) : (d.setCore c k).wds = d.wds := rfl
@[simp] theorem Dev.setCore_pods (d : Dev) (c : Nat) (k : Core) : (d.setCore c k).pods = d.pods := rfl
@[simp] theorem Dev.setCore_mem (d : Dev) (c : Nat) (k : Core) : (d.setCore c k).mem = d.mem := rfl
@[simp] theorem Dev.setCore_lyr (d : Dev) (c : Nat) (k : Core) : (d.setCore c k).lyr = d.lyr := rfl
@[simp] theorem Dev.setCore_pmu (d : Dev) (c : Nat) (k : Core) : (d.setCore c k).pmu = d.pmu := rfl
@[simp] theorem Dev.setCore_twin (d : Dev) (c : Nat) (k : Core) : (d.setCore c k).twin = d.twin := rfl
@[simp] theorem Dev.setCore_marrow (d : Dev) (c : Nat) (k : Core) : (d.setCore c k).marrow = d.marrow := rfl
@[simp] theorem Dev.setCore_ledger (d : Dev) (c : Nat) (k : Core) : (d.setCore c k).ledger = d.ledger := rfl
@[simp] theorem Dev.setCore_thm (d : Dev) (c : Nat) (k : Core) : (d.setCore c k).thm = d.thm := rfl
@[simp] theorem Dev.setCore_tmu (d : Dev) (c : Nat) (k : Core) : (d.setCore c k).tmu = d.tmu := rfl
@[simp] theorem Dev.setCore_eth (d : Dev) (c : Nat) (k : Core) : (d.setCore c k).eth = d.eth := rfl
@[simp] theorem Dev.setCore_zth (d : Dev) (c : Nat) (k : Core) : (d.setCore c k).zth = d.zth := rfl
@[simp] theorem Dev.setCore_cal (d : Dev) (c : Nat) (k : Core) : (d.setCore c k).cal = d.cal := rfl
@[simp] theorem Dev.setCore_dfe (d : Dev) (c : Nat) (k : Core) : (d.setCore c k).dfe = d.dfe := rfl
@[simp] theorem Dev.setCore_nbb (d : Dev) (c : Nat) (k : Core) : (d.setCore c k).nbb = d.nbb := rfl

/-! ### updCore -/

@[simp] theorem Dev.updCore_now (d : Dev) (c : Nat) (f : Core → Core) : (d.updCore c f).now = d.now := rfl
@[simp] theorem Dev.updCore_cyc (d : Dev) (c : Nat) (f : Core → Core) : (d.updCore c f).cyc = d.cyc := rfl
@[simp] theorem Dev.updCore_regs (d : Dev) (c : Nat) (f : Core → Core) : (d.updCore c f).regs = d.regs := rfl
@[simp] theorem Dev.updCore_guardOpen (d : Dev) (c : Nat) (f : Core → Core) : (d.updCore c f).guardOpen = d.guardOpen := rfl
@[simp] theorem Dev.updCore_free (d : Dev) (c : Nat) (f : Core → Core) : (d.updCore c f).free = d.free := rfl
@[simp] theorem Dev.updCore_hif (d : Dev) (c : Nat) (f : Core → Core) : (d.updCore c f).hif = d.hif := rfl
@[simp] theorem Dev.updCore_tls (d : Dev) (c : Nat) (f : Core → Core) : (d.updCore c f).tls = d.tls := rfl
@[simp] theorem Dev.updCore_txns (d : Dev) (c : Nat) (f : Core → Core) : (d.updCore c f).txns = d.txns := rfl
@[simp] theorem Dev.updCore_txnOrd (d : Dev) (c : Nat) (f : Core → Core) : (d.updCore c f).txnOrd = d.txnOrd := rfl
@[simp] theorem Dev.updCore_fw (d : Dev) (c : Nat) (f : Core → Core) : (d.updCore c f).fw = d.fw := rfl
@[simp] theorem Dev.updCore_wds (d : Dev) (c : Nat) (f : Core → Core) : (d.updCore c f).wds = d.wds := rfl
@[simp] theorem Dev.updCore_pods (d : Dev) (c : Nat) (f : Core → Core) : (d.updCore c f).pods = d.pods := rfl
@[simp] theorem Dev.updCore_mem (d : Dev) (c : Nat) (f : Core → Core) : (d.updCore c f).mem = d.mem := rfl
@[simp] theorem Dev.updCore_lyr (d : Dev) (c : Nat) (f : Core → Core) : (d.updCore c f).lyr = d.lyr := rfl
@[simp] theorem Dev.updCore_pmu (d : Dev) (c : Nat) (f : Core → Core) : (d.updCore c f).pmu = d.pmu := rfl
@[simp] theorem Dev.updCore_twin (d : Dev) (c : Nat) (f : Core → Core) : (d.updCore c f).twin = d.twin := rfl
@[simp] theorem Dev.updCore_marrow (d : Dev) (c : Nat) (f : Core → Core) : (d.updCore c f).marrow = d.marrow := rfl
@[simp] theorem Dev.updCore_ledger (d : Dev) (c : Nat) (f : Core → Core) : (d.updCore c f).ledger = d.ledger := rfl
@[simp] theorem Dev.updCore_thm (d : Dev) (c : Nat) (f : Core → Core) : (d.updCore c f).thm = d.thm := rfl
@[simp] theorem Dev.updCore_tmu (d : Dev) (c : Nat) (f : Core → Core) : (d.updCore c f).tmu = d.tmu := rfl
@[simp] theorem Dev.updCore_eth (d : Dev) (c : Nat) (f : Core → Core) : (d.updCore c f).eth = d.eth := rfl
@[simp] theorem Dev.updCore_zth (d : Dev) (c : Nat) (f : Core → Core) : (d.updCore c f).zth = d.zth := rfl
@[simp] theorem Dev.updCore_cal (d : Dev) (c : Nat) (f : Core → Core) : (d.updCore c f).cal = d.cal := rfl
@[simp] theorem Dev.updCore_dfe (d : Dev) (c : Nat) (f : Core → Core) : (d.updCore c f).dfe = d.dfe := rfl
@[simp] theorem Dev.updCore_nbb (d : Dev) (c : Nat) (f : Core → Core) : (d.updCore c f).nbb = d.nbb := rfl

/-! ### setTl -/

@[simp] theorem Dev.setTl_now (d : Dev) (n : Nat) (t : Timeline) : (d.setTl n t).now = d.now := rfl
@[simp] theorem Dev.setTl_cyc (d : Dev) (n : Nat) (t : Timeline) : (d.setTl n t).cyc = d.cyc := rfl
@[simp] theorem Dev.setTl_regs (d : Dev) (n : Nat) (t : Timeline) : (d.setTl n t).regs = d.regs := rfl
@[simp] theorem Dev.setTl_guardOpen (d : Dev) (n : Nat) (t : Timeline) : (d.setTl n t).guardOpen = d.guardOpen := rfl
@[simp] theorem Dev.setTl_free (d : Dev) (n : Nat) (t : Timeline) : (d.setTl n t).free = d.free := rfl
@[simp] theorem Dev.setTl_hif (d : Dev) (n : Nat) (t : Timeline) : (d.setTl n t).hif = d.hif := rfl
@[simp] theorem Dev.setTl_txns (d : Dev) (n : Nat) (t : Timeline) : (d.setTl n t).txns = d.txns := rfl
@[simp] theorem Dev.setTl_txnOrd (d : Dev) (n : Nat) (t : Timeline) : (d.setTl n t).txnOrd = d.txnOrd := rfl
@[simp] theorem Dev.setTl_fw (d : Dev) (n : Nat) (t : Timeline) : (d.setTl n t).fw = d.fw := rfl
@[simp] theorem Dev.setTl_wds (d : Dev) (n : Nat) (t : Timeline) : (d.setTl n t).wds = d.wds := rfl
@[simp] theorem Dev.setTl_cores (d : Dev) (n : Nat) (t : Timeline) : (d.setTl n t).cores = d.cores := rfl
@[simp] theorem Dev.setTl_pods (d : Dev) (n : Nat) (t : Timeline) : (d.setTl n t).pods = d.pods := rfl
@[simp] theorem Dev.setTl_mem (d : Dev) (n : Nat) (t : Timeline) : (d.setTl n t).mem = d.mem := rfl
@[simp] theorem Dev.setTl_lyr (d : Dev) (n : Nat) (t : Timeline) : (d.setTl n t).lyr = d.lyr := rfl
@[simp] theorem Dev.setTl_pmu (d : Dev) (n : Nat) (t : Timeline) : (d.setTl n t).pmu = d.pmu := rfl
@[simp] theorem Dev.setTl_twin (d : Dev) (n : Nat) (t : Timeline) : (d.setTl n t).twin = d.twin := rfl
@[simp] theorem Dev.setTl_marrow (d : Dev) (n : Nat) (t : Timeline) : (d.setTl n t).marrow = d.marrow := rfl
@[simp] theorem Dev.setTl_ledger (d : Dev) (n : Nat) (t : Timeline) : (d.setTl n t).ledger = d.ledger := rfl
@[simp] theorem Dev.setTl_thm (d : Dev) (n : Nat) (t : Timeline) : (d.setTl n t).thm = d.thm := rfl
@[simp] theorem Dev.setTl_tmu (d : Dev) (n : Nat) (t : Timeline) : (d.setTl n t).tmu = d.tmu := rfl
@[simp] theorem Dev.setTl_eth (d : Dev) (n : Nat) (t : Timeline) : (d.setTl n t).eth = d.eth := rfl
@[simp] theorem Dev.setTl_zth (d : Dev) (n : Nat) (t : Timeline) : (d.setTl n t).zth = d.zth := rfl
@[simp] theorem Dev.setTl_cal (d : Dev) (n : Nat) (t : Timeline) : (d.setTl n t).cal = d.cal := rfl
@[simp] theorem Dev.setTl_dfe (d : Dev) (n : Nat) (t : Timeline) : (d.setTl n t).dfe = d.dfe := rfl
@[simp] theorem Dev.setTl_nbb (d : Dev) (n : Nat) (t : Timeline) : (d.setTl n t).nbb = d.nbb := rfl

/-! ### setJob -/

@[simp] theorem Dev.setJob_now (d : Dev) (i : Nat) (j : Job) : (d.setJob i j).now = d.now := rfl
@[simp] theorem Dev.setJob_cyc (d : Dev) (i : Nat) (j : Job) : (d.setJob i j).cyc = d.cyc := rfl
@[simp] theorem Dev.setJob_regs (d : Dev) (i : Nat) (j : Job) : (d.setJob i j).regs = d.regs := rfl
@[simp] theorem Dev.setJob_guardOpen (d : Dev) (i : Nat) (j : Job) : (d.setJob i j).guardOpen = d.guardOpen := rfl
@[simp] theorem Dev.setJob_free (d : Dev) (i : Nat) (j : Job) : (d.setJob i j).free = d.free := rfl
@[simp] theorem Dev.setJob_hif (d : Dev) (i : Nat) (j : Job) : (d.setJob i j).hif = d.hif := rfl
@[simp] theorem Dev.setJob_tls (d : Dev) (i : Nat) (j : Job) : (d.setJob i j).tls = d.tls := rfl
@[simp] theorem Dev.setJob_txns (d : Dev) (i : Nat) (j : Job) : (d.setJob i j).txns = d.txns := rfl
@[simp] theorem Dev.setJob_txnOrd (d : Dev) (i : Nat) (j : Job) : (d.setJob i j).txnOrd = d.txnOrd := rfl
@[simp] theorem Dev.setJob_fw (d : Dev) (i : Nat) (j : Job) : (d.setJob i j).fw = d.fw := rfl
@[simp] theorem Dev.setJob_cores (d : Dev) (i : Nat) (j : Job) : (d.setJob i j).cores = d.cores := rfl
@[simp] theorem Dev.setJob_pods (d : Dev) (i : Nat) (j : Job) : (d.setJob i j).pods = d.pods := rfl
@[simp] theorem Dev.setJob_mem (d : Dev) (i : Nat) (j : Job) : (d.setJob i j).mem = d.mem := rfl
@[simp] theorem Dev.setJob_lyr (d : Dev) (i : Nat) (j : Job) : (d.setJob i j).lyr = d.lyr := rfl
@[simp] theorem Dev.setJob_pmu (d : Dev) (i : Nat) (j : Job) : (d.setJob i j).pmu = d.pmu := rfl
@[simp] theorem Dev.setJob_twin (d : Dev) (i : Nat) (j : Job) : (d.setJob i j).twin = d.twin := rfl
@[simp] theorem Dev.setJob_marrow (d : Dev) (i : Nat) (j : Job) : (d.setJob i j).marrow = d.marrow := rfl
@[simp] theorem Dev.setJob_ledger (d : Dev) (i : Nat) (j : Job) : (d.setJob i j).ledger = d.ledger := rfl
@[simp] theorem Dev.setJob_thm (d : Dev) (i : Nat) (j : Job) : (d.setJob i j).thm = d.thm := rfl
@[simp] theorem Dev.setJob_tmu (d : Dev) (i : Nat) (j : Job) : (d.setJob i j).tmu = d.tmu := rfl
@[simp] theorem Dev.setJob_eth (d : Dev) (i : Nat) (j : Job) : (d.setJob i j).eth = d.eth := rfl
@[simp] theorem Dev.setJob_zth (d : Dev) (i : Nat) (j : Job) : (d.setJob i j).zth = d.zth := rfl
@[simp] theorem Dev.setJob_cal (d : Dev) (i : Nat) (j : Job) : (d.setJob i j).cal = d.cal := rfl
@[simp] theorem Dev.setJob_dfe (d : Dev) (i : Nat) (j : Job) : (d.setJob i j).dfe = d.dfe := rfl
@[simp] theorem Dev.setJob_nbb (d : Dev) (i : Nat) (j : Job) : (d.setJob i j).nbb = d.nbb := rfl

/-! ### setFlow -/

@[simp] theorem Dev.setFlow_now (d : Dev) (i : Nat) (x : Flow) : (d.setFlow i x).now = d.now := rfl
@[simp] theorem Dev.setFlow_cyc (d : Dev) (i : Nat) (x : Flow) : (d.setFlow i x).cyc = d.cyc := rfl
@[simp] theorem Dev.setFlow_regs (d : Dev) (i : Nat) (x : Flow) : (d.setFlow i x).regs = d.regs := rfl
@[simp] theorem Dev.setFlow_guardOpen (d : Dev) (i : Nat) (x : Flow) : (d.setFlow i x).guardOpen = d.guardOpen := rfl
@[simp] theorem Dev.setFlow_free (d : Dev) (i : Nat) (x : Flow) : (d.setFlow i x).free = d.free := rfl
@[simp] theorem Dev.setFlow_hif (d : Dev) (i : Nat) (x : Flow) : (d.setFlow i x).hif = d.hif := rfl
@[simp] theorem Dev.setFlow_tls (d : Dev) (i : Nat) (x : Flow) : (d.setFlow i x).tls = d.tls := rfl
@[simp] theorem Dev.setFlow_txns (d : Dev) (i : Nat) (x : Flow) : (d.setFlow i x).txns = d.txns := rfl
@[simp] theorem Dev.setFlow_txnOrd (d : Dev) (i : Nat) (x : Flow) : (d.setFlow i x).txnOrd = d.txnOrd := rfl
@[simp] theorem Dev.setFlow_fw (d : Dev) (i : Nat) (x : Flow) : (d.setFlow i x).fw = d.fw := rfl
@[simp] theorem Dev.setFlow_cores (d : Dev) (i : Nat) (x : Flow) : (d.setFlow i x).cores = d.cores := rfl
@[simp] theorem Dev.setFlow_pods (d : Dev) (i : Nat) (x : Flow) : (d.setFlow i x).pods = d.pods := rfl
@[simp] theorem Dev.setFlow_mem (d : Dev) (i : Nat) (x : Flow) : (d.setFlow i x).mem = d.mem := rfl
@[simp] theorem Dev.setFlow_lyr (d : Dev) (i : Nat) (x : Flow) : (d.setFlow i x).lyr = d.lyr := rfl
@[simp] theorem Dev.setFlow_pmu (d : Dev) (i : Nat) (x : Flow) : (d.setFlow i x).pmu = d.pmu := rfl
@[simp] theorem Dev.setFlow_twin (d : Dev) (i : Nat) (x : Flow) : (d.setFlow i x).twin = d.twin := rfl
@[simp] theorem Dev.setFlow_marrow (d : Dev) (i : Nat) (x : Flow) : (d.setFlow i x).marrow = d.marrow := rfl
@[simp] theorem Dev.setFlow_ledger (d : Dev) (i : Nat) (x : Flow) : (d.setFlow i x).ledger = d.ledger := rfl
@[simp] theorem Dev.setFlow_thm (d : Dev) (i : Nat) (x : Flow) : (d.setFlow i x).thm = d.thm := rfl
@[simp] theorem Dev.setFlow_tmu (d : Dev) (i : Nat) (x : Flow) : (d.setFlow i x).tmu = d.tmu := rfl
@[simp] theorem Dev.setFlow_eth (d : Dev) (i : Nat) (x : Flow) : (d.setFlow i x).eth = d.eth := rfl
@[simp] theorem Dev.setFlow_zth (d : Dev) (i : Nat) (x : Flow) : (d.setFlow i x).zth = d.zth := rfl
@[simp] theorem Dev.setFlow_cal (d : Dev) (i : Nat) (x : Flow) : (d.setFlow i x).cal = d.cal := rfl
@[simp] theorem Dev.setFlow_dfe (d : Dev) (i : Nat) (x : Flow) : (d.setFlow i x).dfe = d.dfe := rfl
@[simp] theorem Dev.setFlow_nbb (d : Dev) (i : Nat) (x : Flow) : (d.setFlow i x).nbb = d.nbb := rfl

/-! ### setPlan -/

@[simp] theorem Dev.setPlan_now (d : Dev) (p : Plan) : (d.setPlan p).now = d.now := rfl
@[simp] theorem Dev.setPlan_cyc (d : Dev) (p : Plan) : (d.setPlan p).cyc = d.cyc := rfl
@[simp] theorem Dev.setPlan_regs (d : Dev) (p : Plan) : (d.setPlan p).regs = d.regs := rfl
@[simp] theorem Dev.setPlan_guardOpen (d : Dev) (p : Plan) : (d.setPlan p).guardOpen = d.guardOpen := rfl
@[simp] theorem Dev.setPlan_free (d : Dev) (p : Plan) : (d.setPlan p).free = d.free := rfl
@[simp] theorem Dev.setPlan_hif (d : Dev) (p : Plan) : (d.setPlan p).hif = d.hif := rfl
@[simp] theorem Dev.setPlan_tls (d : Dev) (p : Plan) : (d.setPlan p).tls = d.tls := rfl
@[simp] theorem Dev.setPlan_txns (d : Dev) (p : Plan) : (d.setPlan p).txns = d.txns := rfl
@[simp] theorem Dev.setPlan_txnOrd (d : Dev) (p : Plan) : (d.setPlan p).txnOrd = d.txnOrd := rfl
@[simp] theorem Dev.setPlan_wds (d : Dev) (p : Plan) : (d.setPlan p).wds = d.wds := rfl
@[simp] theorem Dev.setPlan_cores (d : Dev) (p : Plan) : (d.setPlan p).cores = d.cores := rfl
@[simp] theorem Dev.setPlan_pods (d : Dev) (p : Plan) : (d.setPlan p).pods = d.pods := rfl
@[simp] theorem Dev.setPlan_mem (d : Dev) (p : Plan) : (d.setPlan p).mem = d.mem := rfl
@[simp] theorem Dev.setPlan_lyr (d : Dev) (p : Plan) : (d.setPlan p).lyr = d.lyr := rfl
@[simp] theorem Dev.setPlan_pmu (d : Dev) (p : Plan) : (d.setPlan p).pmu = d.pmu := rfl
@[simp] theorem Dev.setPlan_twin (d : Dev) (p : Plan) : (d.setPlan p).twin = d.twin := rfl
@[simp] theorem Dev.setPlan_marrow (d : Dev) (p : Plan) : (d.setPlan p).marrow = d.marrow := rfl
@[simp] theorem Dev.setPlan_ledger (d : Dev) (p : Plan) : (d.setPlan p).ledger = d.ledger := rfl
@[simp] theorem Dev.setPlan_thm (d : Dev) (p : Plan) : (d.setPlan p).thm = d.thm := rfl
@[simp] theorem Dev.setPlan_tmu (d : Dev) (p : Plan) : (d.setPlan p).tmu = d.tmu := rfl
@[simp] theorem Dev.setPlan_eth (d : Dev) (p : Plan) : (d.setPlan p).eth = d.eth := rfl
@[simp] theorem Dev.setPlan_zth (d : Dev) (p : Plan) : (d.setPlan p).zth = d.zth := rfl
@[simp] theorem Dev.setPlan_cal (d : Dev) (p : Plan) : (d.setPlan p).cal = d.cal := rfl
@[simp] theorem Dev.setPlan_dfe (d : Dev) (p : Plan) : (d.setPlan p).dfe = d.dfe := rfl
@[simp] theorem Dev.setPlan_nbb (d : Dev) (p : Plan) : (d.setPlan p).nbb = d.nbb := rfl

/-! ### setTxn -/

@[simp] theorem Dev.setTxn_now (d : Dev) (i : Nat) (x : TxnSlot) : (d.setTxn i x).now = d.now := rfl
@[simp] theorem Dev.setTxn_cyc (d : Dev) (i : Nat) (x : TxnSlot) : (d.setTxn i x).cyc = d.cyc := rfl
@[simp] theorem Dev.setTxn_regs (d : Dev) (i : Nat) (x : TxnSlot) : (d.setTxn i x).regs = d.regs := rfl
@[simp] theorem Dev.setTxn_guardOpen (d : Dev) (i : Nat) (x : TxnSlot) : (d.setTxn i x).guardOpen = d.guardOpen := rfl
@[simp] theorem Dev.setTxn_free (d : Dev) (i : Nat) (x : TxnSlot) : (d.setTxn i x).free = d.free := rfl
@[simp] theorem Dev.setTxn_hif (d : Dev) (i : Nat) (x : TxnSlot) : (d.setTxn i x).hif = d.hif := rfl
@[simp] theorem Dev.setTxn_tls (d : Dev) (i : Nat) (x : TxnSlot) : (d.setTxn i x).tls = d.tls := rfl
@[simp] theorem Dev.setTxn_txnOrd (d : Dev) (i : Nat) (x : TxnSlot) : (d.setTxn i x).txnOrd = d.txnOrd := rfl
@[simp] theorem Dev.setTxn_fw (d : Dev) (i : Nat) (x : TxnSlot) : (d.setTxn i x).fw = d.fw := rfl
@[simp] theorem Dev.setTxn_wds (d : Dev) (i : Nat) (x : TxnSlot) : (d.setTxn i x).wds = d.wds := rfl
@[simp] theorem Dev.setTxn_cores (d : Dev) (i : Nat) (x : TxnSlot) : (d.setTxn i x).cores = d.cores := rfl
@[simp] theorem Dev.setTxn_pods (d : Dev) (i : Nat) (x : TxnSlot) : (d.setTxn i x).pods = d.pods := rfl
@[simp] theorem Dev.setTxn_mem (d : Dev) (i : Nat) (x : TxnSlot) : (d.setTxn i x).mem = d.mem := rfl
@[simp] theorem Dev.setTxn_lyr (d : Dev) (i : Nat) (x : TxnSlot) : (d.setTxn i x).lyr = d.lyr := rfl
@[simp] theorem Dev.setTxn_pmu (d : Dev) (i : Nat) (x : TxnSlot) : (d.setTxn i x).pmu = d.pmu := rfl
@[simp] theorem Dev.setTxn_twin (d : Dev) (i : Nat) (x : TxnSlot) : (d.setTxn i x).twin = d.twin := rfl
@[simp] theorem Dev.setTxn_marrow (d : Dev) (i : Nat) (x : TxnSlot) : (d.setTxn i x).marrow = d.marrow := rfl
@[simp] theorem Dev.setTxn_ledger (d : Dev) (i : Nat) (x : TxnSlot) : (d.setTxn i x).ledger = d.ledger := rfl
@[simp] theorem Dev.setTxn_thm (d : Dev) (i : Nat) (x : TxnSlot) : (d.setTxn i x).thm = d.thm := rfl
@[simp] theorem Dev.setTxn_tmu (d : Dev) (i : Nat) (x : TxnSlot) : (d.setTxn i x).tmu = d.tmu := rfl
@[simp] theorem Dev.setTxn_eth (d : Dev) (i : Nat) (x : TxnSlot) : (d.setTxn i x).eth = d.eth := rfl
@[simp] theorem Dev.setTxn_zth (d : Dev) (i : Nat) (x : TxnSlot) : (d.setTxn i x).zth = d.zth := rfl
@[simp] theorem Dev.setTxn_cal (d : Dev) (i : Nat) (x : TxnSlot) : (d.setTxn i x).cal = d.cal := rfl
@[simp] theorem Dev.setTxn_dfe (d : Dev) (i : Nat) (x : TxnSlot) : (d.setTxn i x).dfe = d.dfe := rfl
@[simp] theorem Dev.setTxn_nbb (d : Dev) (i : Nat) (x : TxnSlot) : (d.setTxn i x).nbb = d.nbb := rfl

/-! ### setStream -/

@[simp] theorem Dev.setStream_now (d : Dev) (k : Nat) (x : Stream) : (d.setStream k x).now = d.now := rfl
@[simp] theorem Dev.setStream_cyc (d : Dev) (k : Nat) (x : Stream) : (d.setStream k x).cyc = d.cyc := rfl
@[simp] theorem Dev.setStream_regs (d : Dev) (k : Nat) (x : Stream) : (d.setStream k x).regs = d.regs := rfl
@[simp] theorem Dev.setStream_guardOpen (d : Dev) (k : Nat) (x : Stream) : (d.setStream k x).guardOpen = d.guardOpen := rfl
@[simp] theorem Dev.setStream_free (d : Dev) (k : Nat) (x : Stream) : (d.setStream k x).free = d.free := rfl
@[simp] theorem Dev.setStream_hif (d : Dev) (k : Nat) (x : Stream) : (d.setStream k x).hif = d.hif := rfl
@[simp] theorem Dev.setStream_tls (d : Dev) (k : Nat) (x : Stream) : (d.setStream k x).tls = d.tls := rfl
@[simp] theorem Dev.setStream_txns (d : Dev) (k : Nat) (x : Stream) : (d.setStream k x).txns = d.txns := rfl
@[simp] theorem Dev.setStream_txnOrd (d : Dev) (k : Nat) (x : Stream) : (d.setStream k x).txnOrd = d.txnOrd := rfl
@[simp] theorem Dev.setStream_fw (d : Dev) (k : Nat) (x : Stream) : (d.setStream k x).fw = d.fw := rfl
@[simp] theorem Dev.setStream_wds (d : Dev) (k : Nat) (x : Stream) : (d.setStream k x).wds = d.wds := rfl
@[simp] theorem Dev.setStream_cores (d : Dev) (k : Nat) (x : Stream) : (d.setStream k x).cores = d.cores := rfl
@[simp] theorem Dev.setStream_pods (d : Dev) (k : Nat) (x : Stream) : (d.setStream k x).pods = d.pods := rfl
@[simp] theorem Dev.setStream_mem (d : Dev) (k : Nat) (x : Stream) : (d.setStream k x).mem = d.mem := rfl
@[simp] theorem Dev.setStream_pmu (d : Dev) (k : Nat) (x : Stream) : (d.setStream k x).pmu = d.pmu := rfl
@[simp] theorem Dev.setStream_twin (d : Dev) (k : Nat) (x : Stream) : (d.setStream k x).twin = d.twin := rfl
@[simp] theorem Dev.setStream_marrow (d : Dev) (k : Nat) (x : Stream) : (d.setStream k x).marrow = d.marrow := rfl
@[simp] theorem Dev.setStream_ledger (d : Dev) (k : Nat) (x : Stream) : (d.setStream k x).ledger = d.ledger := rfl
@[simp] theorem Dev.setStream_thm (d : Dev) (k : Nat) (x : Stream) : (d.setStream k x).thm = d.thm := rfl
@[simp] theorem Dev.setStream_tmu (d : Dev) (k : Nat) (x : Stream) : (d.setStream k x).tmu = d.tmu := rfl
@[simp] theorem Dev.setStream_eth (d : Dev) (k : Nat) (x : Stream) : (d.setStream k x).eth = d.eth := rfl
@[simp] theorem Dev.setStream_zth (d : Dev) (k : Nat) (x : Stream) : (d.setStream k x).zth = d.zth := rfl
@[simp] theorem Dev.setStream_cal (d : Dev) (k : Nat) (x : Stream) : (d.setStream k x).cal = d.cal := rfl
@[simp] theorem Dev.setStream_dfe (d : Dev) (k : Nat) (x : Stream) : (d.setStream k x).dfe = d.dfe := rfl
@[simp] theorem Dev.setStream_nbb (d : Dev) (k : Nat) (x : Stream) : (d.setStream k x).nbb = d.nbb := rfl

/-! ### What was stored is read -/

@[simp] theorem Dev.qp_setQp (d : Dev) (q : Nat) (x : QPair) (j : Nat) : (d.setQp q x).qp j = if j = q then x else d.qp j :=
  Tab.getD_setD _ _ _ _ _
@[simp] theorem Dev.qp_updQp (d : Dev) (q : Nat) (f : QPair → QPair) (j : Nat) : (d.updQp q f).qp j = if j = q then f (d.qp q) else d.qp j :=
  Tab.getD_setD _ _ _ _ _
@[simp] theorem Dev.core_setCore (d : Dev) (c : Nat) (k : Core) (j : Nat) : (d.setCore c k).core j = if j = c then k else d.core j :=
  Tab.getD_setD _ _ _ _ _
@[simp] theorem Dev.core_updCore (d : Dev) (c : Nat) (f : Core → Core) (j : Nat) :
    (d.updCore c f).core j = if j = c then f (d.core c) else d.core j :=
  Tab.getD_setD _ _ _ _ _
@[simp] theorem Dev.tl_setTl (d : Dev) (n : Nat) (t : Timeline) (j : Nat) : (d.setTl n t).tl j = if j = n then t else d.tl j :=
  Tab.getD_setD _ _ _ _ _
@[simp] theorem Dev.word_setReg (d : Dev) (off v o : Nat) : (d.setReg off v).word o = if o = off then BitVec.ofNat 32 v else d.word o :=
  Tab.getD_setD _ _ _ _ _
@[simp] theorem Dev.job_setJob (d : Dev) (i : Nat) (j : Job) (n : Nat) : (d.setJob i j).job n = if n = i then some j else d.job n :=
  Tab.find_put _ _ _ _

end Sys2Proof.Machine
end

