-- ==== Sys2Proof/Laws/Regs.lean ====
section
/-! SUPPORT. Fields of registers: what a field write leaves in its own field, in the register's other fields, in other registers. -/

namespace Sys2Proof.Machine

theorem bitsAt_lt (v lo w : Nat) : bitsAt v lo w < 2 ^ w := Nat.mod_lt _ (Nat.two_pow_pos w)

/-- `putBits` bit by bit. -/
theorem testBit_putBits (v lo w x i : Nat) :
    (putBits v lo w x).testBit i = if lo ≤ i ∧ i < lo + w then x.testBit (i - lo) else v.testBit i := by
  have h1 : v % 2 ^ lo < 2 ^ lo := Nat.mod_lt _ (Nat.two_pow_pos lo)
  have h2 : x % 2 ^ w < 2 ^ w := Nat.mod_lt _ (Nat.two_pow_pos w)
  have h3 : v % 2 ^ lo + x % 2 ^ w * 2 ^ lo < 2 ^ (lo + w) := by
    rw [Nat.pow_add]
    have : x % 2 ^ w * 2 ^ lo ≤ (2 ^ w - 1) * 2 ^ lo := Nat.mul_le_mul_right _ (by omega)
    rw [Nat.sub_mul, Nat.one_mul, Nat.mul_comm (2 ^ w)] at this
    have : 2 ^ lo ≤ 2 ^ lo * 2 ^ w := Nat.le_mul_of_pos_right _ (Nat.two_pow_pos w)
    omega
  unfold putBits
  rw [Nat.mul_comm (v / 2 ^ (lo + w)), Nat.add_comm, Nat.testBit_two_pow_mul_add _ h3]
  rw [Nat.add_comm (v % 2 ^ lo), Nat.mul_comm (x % 2 ^ w), Nat.testBit_two_pow_mul_add _ h1]
  by_cases c1 : i < lo
  · have : i < lo + w := by omega
    simp [this, c1, Nat.testBit_mod_two_pow, show ¬ lo ≤ i by omega]
  · by_cases c2 : i < lo + w
    · simp [c1, c2, Nat.testBit_mod_two_pow, show lo ≤ i by omega, show i - lo < w by omega]
    · simp [c2, Nat.testBit_div_two_pow, show i - (lo + w) + (lo + w) = i by omega]

theorem testBit_bitsAt (v lo w i : Nat) : (bitsAt v lo w).testBit i = (decide (i < w) && v.testBit (lo + i)) := by
  unfold bitsAt
  rw [Nat.testBit_mod_two_pow, Nat.testBit_div_two_pow, Nat.add_comm]

theorem bitsAt_putBits_same (v lo w x : Nat) : bitsAt (putBits v lo w x) lo w = x % 2 ^ w := by
  apply Nat.eq_of_testBit_eq
  intro i
  rw [testBit_bitsAt, testBit_putBits, Nat.testBit_mod_two_pow]
  by_cases h : i < w <;> simp [h]

theorem bitsAt_putBits_other (v lo w x lo' w' : Nat) (h : lo + w ≤ lo' ∨ lo' + w' ≤ lo) :
    bitsAt (putBits v lo w x) lo' w' = bitsAt v lo' w' := by
  apply Nat.eq_of_testBit_eq
  intro i
  rw [testBit_bitsAt, testBit_bitsAt, testBit_putBits]
  by_cases hi : i < w'
  · rw [if_neg (by omega)]
  · simp [hi]

theorem putBits_lt {v lo w x n : Nat} (hv : v < 2 ^ n) (h : lo + w ≤ n) : putBits v lo w x < 2 ^ n := by
  apply Nat.lt_pow_two_of_testBit
  intro i hi
  rw [testBit_putBits, if_neg (by omega)]
  exact Nat.testBit_lt_two_pow (Nat.lt_of_lt_of_le hv (Nat.pow_le_pow_right (by omega) hi))

/-- A bit of a register, as a field of width 1. -/
theorem bitAt_eq (v n : Nat) : bitAt v n = v.testBit n := by
  simp [bitAt, Nat.testBit, Nat.shiftRight_eq_div_pow, Bool.beq_eq_decide_eq]

theorem Dev.reg_lt (d : Dev) (off : Nat) : d.reg off < 2 ^ 32 := (d.word off).isLt

theorem Dev.reg_setReg (d : Dev) (off v o : Nat) : (d.setReg off v).reg o = if o = off then v % 2 ^ 32 else d.reg o := by
  unfold Dev.reg
  rw [Dev.word_setReg]
  split <;> simp [BitVec.toNat_ofNat]

theorem Dev.reg_wf (d : Dev) (f : Fld) (v o : Nat) (h : f.lo + f.w ≤ 32) :
    (d.wf f v).reg o = if o = f.off then putBits (d.reg f.off) f.lo f.w v else d.reg o := by
  unfold Dev.wf
  rw [Dev.reg_setReg]
  split
  · exact Nat.mod_eq_of_lt (putBits_lt (d.reg_lt _) h)
  · rfl

/-- A field reads what was written to it. -/
theorem Dev.rf_wf_same (d : Dev) (f : Fld) (v : Nat) (h : f.lo + f.w ≤ 32) : (d.wf f v).rf f = v % 2 ^ f.w := by
  unfold Dev.rf
  rw [Dev.reg_wf _ _ _ _ h, if_pos rfl, bitsAt_putBits_same]

/-- Another field of the same register keeps its value. -/
theorem Dev.rf_wf_field (d : Dev) (f g : Fld) (v : Nat) (h : f.lo + f.w ≤ 32) (hd : f.lo + f.w ≤ g.lo ∨ g.lo + g.w ≤ f.lo) :
    (d.wf f v).rf g = d.rf g := by
  unfold Dev.rf
  rw [Dev.reg_wf _ _ _ _ h]
  split
  · rename_i e; rw [bitsAt_putBits_other _ _ _ _ _ _ hd, e]
  · rfl

/-- Another register keeps its value. -/
theorem Dev.rf_wf_other (d : Dev) (f g : Fld) (v : Nat) (h : g.off ≠ f.off) : (d.wf f v).rf g = d.rf g := by
  unfold Dev.rf Dev.wf
  rw [Dev.reg_setReg, if_neg h]

theorem Dev.rf_bump_same (d : Dev) (f : Fld) (h : f.lo + f.w ≤ 32) : (d.bump f).rf f = (d.rf f + 1) % 2 ^ f.w := by
  unfold Dev.bump Dev.bumpBy
  rw [Dev.rf_wf_same _ _ _ h, Nat.mod_mod]

theorem Dev.rf_bump_other (d : Dev) (f g : Fld) (h : g.off ≠ f.off) : (d.bump f).rf g = d.rf g := d.rf_wf_other f g _ h

/-- A register read depends on the register table alone. -/
theorem Dev.rf_congr {d e : Dev} (h : d.regs = e.regs) (f : Fld) : d.rf f = e.rf f := by
  unfold Dev.rf Dev.reg Dev.word; rw [h]

end Sys2Proof.Machine
end

