-- ==== Sys2Proof/Laws/Post.lean ====
section
/-! SUPPORT. What the shared operations of posting leave: completions, events, health records, recorder entries, user-plane results touch
the rings, host memory, the health store, the recorder and the registers that show them, and nothing else. -/

namespace Sys2Proof.Machine

/-- The device less what posting touches. -/
def Dev.rest (d : Dev) : Dev :=
  { d with regs := [], free := 0, fw.health := [], twin.acked := 0, wds.log := [],
           marrow := { d.marrow with log := [], bytes := 0, waiting := [], frozenP := 0, trigK := 0, trigT := 0, lost := false },
           hif := { d.hif with qs := [], mem := [], msix := [], backlog := [], evLost := false, closed := false, boot := [] } }

/-- Two devices that differ in what posting touches alone agree in every other field. -/
theorem Dev.rest_fields {d e : Dev} (h : e.rest = d.rest) :
    e.now = d.now ∧ e.cyc = d.cyc ∧ e.guardOpen = d.guardOpen ∧ e.tls = d.tls ∧ e.txns = d.txns ∧ e.txnOrd = d.txnOrd ∧ { e.wds with log := [] } = { d.wds with log := [] } ∧
    e.cores = d.cores ∧ e.pods = d.pods ∧ e.mem = d.mem ∧ e.lyr = d.lyr ∧ e.pmu = d.pmu ∧ e.ledger = d.ledger ∧ e.thm = d.thm ∧
    e.tmu = d.tmu ∧ e.eth = d.eth ∧ e.zth = d.zth ∧ e.cal = d.cal ∧ e.dfe = d.dfe ∧ e.nbb = d.nbb ∧ e.hif.fetchStopped = d.hif.fetchStopped ∧
    e.fw.staged = d.fw.staged ∧ e.fw.carriers = d.fw.carriers ∧ e.fw.plans = d.fw.plans := by
  refine ⟨congrArg (·.now) h, congrArg (·.cyc) h, congrArg (·.guardOpen) h, congrArg (·.tls) h, congrArg (·.txns) h, congrArg (·.txnOrd) h,
    congrArg (·.wds) h, congrArg (·.cores) h, congrArg (·.pods) h, congrArg (·.mem) h, congrArg (·.lyr) h, congrArg (·.pmu) h,
    congrArg (·.ledger) h, congrArg (·.thm) h, congrArg (·.tmu) h, congrArg (·.eth) h, congrArg (·.zth) h, congrArg (·.cal) h,
    congrArg (·.dfe) h, congrArg (·.nbb) h, congrArg (·.hif.fetchStopped) h, congrArg (·.fw.staged) h, congrArg (·.fw.carriers) h,
    congrArg (·.fw.plans) h⟩

@[simp] theorem Dev.rest_setReg (d : Dev) (off v : Nat) : (d.setReg off v).rest = d.rest := rfl
@[simp] theorem Dev.rest_wf (d : Dev) (f : Fld) (v : Nat) : (d.wf f v).rest = d.rest := rfl
@[simp] theorem Dev.rest_setFlag (d : Dev) (f : Fld) (b : Bool) : (d.setFlag f b).rest = d.rest := rfl
@[simp] theorem Dev.rest_bump (d : Dev) (f : Fld) : (d.bump f).rest = d.rest := rfl
@[simp] theorem Dev.rest_bumpBy (d : Dev) (f : Fld) (n : Nat) : (d.bumpBy f n).rest = d.rest := rfl
@[simp] theorem Dev.rest_bumpSat (d : Dev) (f : Fld) : (d.bumpSat f).rest = d.rest := by unfold Dev.bumpSat; split <;> rfl
@[simp] theorem Dev.rest_updQp (d : Dev) (q : Nat) (f : QPair → QPair) : (d.updQp q f).rest = d.rest := rfl
@[simp] theorem Dev.rest_hostWrite (d : Dev) (a : Nat) (b : List Byte) : (d.hostWrite a b).rest = d.rest := by
  unfold Dev.hostWrite; split <;> rfl
@[simp] theorem Dev.rest_showFull (d : Dev) (q : Nat) : (d.showFull q).rest = d.rest := rfl
@[simp] theorem Dev.rest_raiseVector (d : Dev) (q : Nat) : (d.raiseVector q).rest = d.rest := by unfold Dev.raiseVector; split <;> rfl
@[simp] theorem Dev.rest_countTrigger (d : Dev) (q : Nat) : (d.countTrigger q).rest = d.rest := by
  unfold Dev.countTrigger; dsimp only; split <;> simp
@[simp] theorem Dev.rest_postEntry (d : Dev) (q tag status b6 flags : Nat) (body : List Nat) (ev : Bool) :
    (d.postEntry q tag status b6 flags body ev).rest = d.rest := by
  unfold Dev.postEntry; dsimp only; split <;> simp
@[simp] theorem Dev.rest_postCmpl (d : Dev) (q tag : Nat) (c : Cmpl) (dup : Bool) : (d.postCmpl q tag c dup).rest = d.rest := by
  simp [Dev.postCmpl]
theorem Dev.rest_store (d : Dev) (l : List HealthRec) : { d with fw.health := l }.rest = d.rest := rfl
theorem Dev.rest_log (d : Dev) (l : List RecEntry) (n : Nat) : { d with marrow.log := l, marrow.bytes := n }.rest = d.rest := rfl
theorem Dev.rest_trig (d : Dev) (k t : Nat) : { d with marrow.trigK := k, marrow.trigT := t }.rest = d.rest := rfl
theorem Dev.rest_frozen (d : Dev) (l : List (Nat × Nat)) (k : Nat) : { d with marrow.waiting := l, marrow.frozenP := k }.rest = d.rest := rfl
theorem Dev.rest_free (d : Dev) (n : Nat) : { d with free := n }.rest = d.rest := rfl
theorem Dev.rest_acked (d : Dev) (n : Nat) : { d with twin.acked := n }.rest = d.rest := rfl
theorem Dev.rest_flushFrom (q : Nat) : ∀ (l : List RunCmd) (b : Bool) (d : Dev), (Dev.flushFrom q l b d).1.rest = d.rest
  | [], _, _ => rfl
  | r :: rs, clear, d => by
    unfold Dev.flushFrom
    dsimp only
    repeat' split
    all_goals simp [Dev.rest_flushFrom q rs, Dev.rest_acked]
@[simp] theorem Dev.rest_flushOnce (d : Dev) (q : Nat) : (d.flushOnce q).rest = d.rest := by simp [Dev.flushOnce, Dev.rest_flushFrom]
@[simp] theorem Dev.rest_foldl {α : Type} (f : Dev → α → Dev) (h : ∀ d a, (f d a).rest = d.rest) :
    ∀ (l : List α) (d : Dev), (l.foldl f d).rest = d.rest
  | [], _ => rfl
  | a :: l, d => by rw [List.foldl_cons, Dev.rest_foldl f h l, h]
@[simp] theorem Dev.rest_postEvent (d : Dev) (e : Event) : (d.postEvent e).rest = d.rest := by
  unfold Dev.postEvent; dsimp only
  exact (show _ = _ from rfl).trans (Dev.rest_postEntry d 0 0xFFFF 0 6 (8 + 16 * b2n d.hif.evLost) _ true)
@[simp] theorem Dev.rest_event (d : Dev) (a b c e f : Nat) : (d.event a b c e f).rest = d.rest := by
  unfold Dev.event; dsimp only
  repeat' split
  all_goals first | rfl | simp
theorem Dev.rest_opened (d : Dev) (l : List (Nat × Nat × Nat × Nat × Nat)) : { d with hif.closed := false, hif.boot := l }.rest = d.rest := rfl
@[simp] theorem Dev.rest_pairStart (d : Dev) (q : Nat) : (d.pairStart q).rest = d.rest := by
  unfold Dev.pairStart; dsimp only
  split
  · rw [Dev.rest_foldl _ (fun d e => Dev.rest_event d _ _ _ _ _)]; rfl
  · rfl
@[simp] theorem Dev.rest_settleStop (d : Dev) (q : Nat) : (d.settleStop q).rest = d.rest := by
  unfold Dev.settleStop; dsimp only
  repeat' split
  all_goals simp
@[simp] theorem Dev.rest_flush (d : Dev) (q : Nat) : (d.flush q).rest = d.rest := by simp [Dev.flush]
@[simp] theorem Dev.rest_complete (d : Dev) (q tag st : Nat) (r : List Nat) : (d.complete q tag st r).rest = d.rest := by
  simp [Dev.complete, Dev.updRun]
@[simp] theorem Dev.rest_accepted (d : Dev) (q tag : Nat) : (d.accepted q tag).rest = d.rest := by simp [Dev.accepted, Dev.updRun]
@[simp] theorem Dev.rest_inProgress (d : Dev) (q tag : Nat) : (d.inProgress q tag).rest = d.rest := rfl
theorem Dev.rest_putLog (d : Dev) (l : List RecEntry) (n : Nat) (b : Bool) : (d.putLog l n b).rest = d.rest := rfl
@[simp] theorem Dev.rest_recStore (d : Dev) (a b c n : Nat) (x : List Byte) : (d.recStore a b c n x).rest = d.rest := by
  unfold Dev.recStore; extract_lets mark l kept; rw [Dev.rest_putLog]; split <;> simp
@[simp] theorem Dev.rest_recDrop (d : Dev) (n : Nat) : (d.recDrop n).rest = d.rest := by unfold Dev.recDrop; rw [Dev.rest_putLog, Dev.rest_bumpBy]
@[simp] theorem Dev.rest_recAdd (d : Dev) (a b c : Nat) (x : Option (List Byte)) : (d.recAdd a b c x).rest = d.rest := by
  unfold Dev.recAdd
  split
  · rfl
  · cases x <;> (dsimp only; split <;> simp [Dev.rest_free])
@[simp] theorem Dev.rest_drainLog (d : Dev) : d.drainLog.rest = d.rest := by
  unfold Dev.drainLog
  split
  · rfl
  · exact (Dev.rest_recAdd _ _ _ _ _).trans (Dev.rest_setFlag { d with wds.log := [] } _ _)
@[simp] theorem Dev.rest_recFreeze (d : Dev) : d.recFreeze.rest = d.rest := by
  unfold Dev.recFreeze; dsimp only
  rw [Dev.rest_frozen, Dev.rest_foldl _ (fun d (p : Nat × Nat) => by simp)]
  simp
theorem Dev.rest_triggered (d e : Dev) (b n : Nat) (h : e.rest = d.rest) :
    (if (e.event 4 1 b n 0).rf OBS_REC_POST_POST = 0 then (e.event 4 1 b n 0).recFreeze else e.event 4 1 b n 0).rest = d.rest := by
  split
  · rw [Dev.rest_recFreeze, Dev.rest_event, h]
  · rw [Dev.rest_event, h]
theorem Dev.rest_trigFrom (d x : Dev) (b : Nat) (h : x.rest = d.rest) :
    (if x.rf OBS_REC_STS_STATE = 1 then
      (let d2 : Dev := { x.wf OBS_REC_STS_STATE 2 with marrow.trigK := x.recK, marrow.trigT := x.now }
       let d3 := d2.event 4 1 b (d2.recK % 65536) 0
       if d3.rf OBS_REC_POST_POST = 0 then d3.recFreeze else d3) else x).rest = d.rest := by
  split
  · exact Dev.rest_triggered d _ b _ ((Dev.rest_trig (x.wf OBS_REC_STS_STATE 2) x.recK x.now).trans h)
  · exact h
@[simp] theorem Dev.rest_recTrigger (d : Dev) (b : Nat) : (d.recTrigger b).rest = d.rest :=
  Dev.rest_trigFrom d (d.bump OBS_REC_TRIGGERS) b (Dev.rest_bump d _)
@[simp] theorem Dev.rest_recSource (d : Dev) (b : Nat) : (d.recSource b).rest = d.rest := by unfold Dev.recSource; split <;> simp
@[simp] theorem Dev.rest_record (d : Dev) (a b c : Nat) : (d.record a b c).rest = d.rest := Dev.rest_store d _
@[simp] theorem Dev.rest_healthCode (d : Dev) (a b c : Nat) : (d.healthCode a b c).rest = d.rest := by simp [Dev.healthCode]
@[simp] theorem Dev.rest_health (d : Dev) (a b c : Nat) : (d.health a b c).rest = d.rest := by simp [Dev.health]
@[simp] theorem Dev.rest_postUp (d : Dev) (m : Nat) (c : UpCmpl) : (d.postUp m c).rest = d.rest :=
  (Dev.rest_recAdd _ _ _ _ _).trans (Dev.rest_postEntry _ _ _ _ _ _ _ _)
@[simp] theorem Dev.rest_up (d : Dev) (m tag st k fl : Nat) (b : List Nat) : (d.up m tag st k fl b).rest = d.rest := by
  unfold Dev.up
  extract_lets q c
  split
  · exact Dev.rest_bump _ _
  · split
    · exact Dev.rest_postUp _ _ _
    · split
      · exact Dev.rest_updQp _ _ _
      · rw [Dev.rest_health, Dev.rest_bump]

/-! ### Registers: completions and events write the registers of their own rings alone -/

/-- The registers of a pair below 128 lie in block 0. -/
theorem cq_block {q : Nat} (h : q < 128) :
    (HIF_CQn_CQ_TAIL q).off < 0x400000 ∧ (HIF_CQn_SQ_HEAD q).off < 0x400000 ∧ (HIF_CQn_SQ_TAIL q).off < 0x400000 ∧
    (HIF_CQn_CQ_HEAD q).off < 0x400000 ∧ (HIF_CQn_STS_CQ_FULL q).off < 0x400000 ∧ (HIF_CQn_STS_RUNNING q).off < 0x400000 := by
  unfold HIF_CQn_CQ_TAIL HIF_CQn_SQ_HEAD HIF_CQn_SQ_TAIL HIF_CQn_CQ_HEAD HIF_CQn_STS_CQ_FULL HIF_CQn_STS_RUNNING rHIF_CQn_CQ_TAIL
    rHIF_CQn_SQ_HEAD rHIF_CQn_SQ_TAIL rHIF_CQn_CQ_HEAD rHIF_CQn_STS
  dsimp only
  omega

theorem Dev.reg_wf_other (d : Dev) (f : Fld) (v o : Nat) (h : o ≠ f.off) : (d.wf f v).reg o = d.reg o := by
  unfold Dev.wf; rw [Dev.reg_setReg, if_neg h]
theorem Dev.reg_eq_of_regs {d e : Dev} (h : e.regs = d.regs) (o : Nat) : e.reg o = d.reg o := by unfold Dev.reg Dev.word; rw [h]
theorem Dev.regs_hostWrite (d : Dev) (a : Nat) (b : List Byte) : (d.hostWrite a b).regs = d.regs := by unfold Dev.hostWrite; split <;> rfl
theorem Dev.regs_raiseVector (d : Dev) (q : Nat) : (d.raiseVector q).regs = d.regs := by unfold Dev.raiseVector; split <;> rfl
theorem Dev.regs_countTrigger (d : Dev) (q : Nat) : (d.countTrigger q).regs = d.regs := by
  unfold Dev.countTrigger; dsimp only; split
  · exact Dev.regs_raiseVector _ _
  · rfl

theorem Dev.reg_postEntry (d : Dev) {q : Nat} (hq : q < 128) {o : Nat} (ho : 0x400000 ≤ o) (tag st b6 fl : Nat) (body : List Nat) (ev : Bool) :
    (d.postEntry q tag st b6 fl body ev).reg o = d.reg o := by
  obtain ⟨h1, _, _, _, h5, _⟩ := cq_block hq
  unfold Dev.postEntry; dsimp only; split
  · rfl
  · rw [Dev.reg_eq_of_regs (Dev.regs_countTrigger _ _)]
    rw [show ∀ e : Dev, (e.showFull q).reg o = e.reg o from fun e => Dev.reg_wf_other _ _ _ _ (by omega)]
    rw [show ∀ (e : Dev) f, (e.updQp q f).reg o = e.reg o from fun e f => rfl]
    rw [Dev.reg_wf_other _ _ _ _ (by omega), Dev.reg_eq_of_regs (Dev.regs_hostWrite _ _ _)]
theorem Dev.reg_flushFrom {q : Nat} (hq : q < 128) {o : Nat} (ho : 0x400000 ≤ o) :
    ∀ (l : List RunCmd) (b : Bool) (d : Dev), (Dev.flushFrom q l b d).1.reg o = d.reg o
  | [], _, _ => rfl
  | r :: rs, clear, d => by
    have hp : ∀ (d : Dev) t c b, (d.postCmpl q t c b).reg o = d.reg o := fun d t c b => Dev.reg_postEntry d hq ho _ _ _ _ _ _
    have ha : ∀ (d : Dev) n, ({ d with twin.acked := n } : Dev).reg o = d.reg o := fun d n => rfl
    unfold Dev.flushFrom
    dsimp only
    repeat' split
    all_goals simp [Dev.reg_flushFrom hq ho rs, hp, ha]
theorem Dev.reg_foldl {α : Type} {o : Nat} (f : Dev → α → Dev) (h : ∀ d a, (f d a).reg o = d.reg o) :
    ∀ (l : List α) (d : Dev), (l.foldl f d).reg o = d.reg o
  | [], _ => rfl
  | a :: l, d => by rw [List.foldl_cons, Dev.reg_foldl f h l, h]
/-- An event changes no register outside block 0. -/
theorem Dev.reg_event (d : Dev) {o : Nat} (ho : 0x400000 ≤ o) (a b c e f : Nat) : (d.event a b c e f).reg o = d.reg o := by
  unfold Dev.event; dsimp only
  repeat' split
  all_goals first | rfl | exact Dev.reg_postEntry d (by omega) ho _ _ _ _ _ _
theorem Dev.reg_pairStart (d : Dev) {q : Nat} (hq : q < 128) {o : Nat} (ho : 0x400000 ≤ o) : (d.pairStart q).reg o = d.reg o := by
  obtain ⟨_, _, _, _, _, h6⟩ := cq_block hq
  have hr : (HIF_CQn_STS_RUNNING q).off = rHIF_CQn_STS q := rfl
  have h : ∀ (x : QPair) (b : List _) (e : Dev), e = { (d.setFlag (HIF_CQn_STS_RUNNING q) true).setQp q x with hif.closed := false, hif.boot := b } →
      e.reg o = d.reg o := by
    intro x b e he; subst he
    exact (Dev.reg_eq_of_regs (d := d.setFlag (HIF_CQn_STS_RUNNING q) true) rfl o).trans (Dev.reg_wf_other _ _ _ _ (by omega))
  unfold Dev.pairStart; dsimp only
  split
  · rw [Dev.reg_foldl _ (fun d e => Dev.reg_event d ho _ _ _ _ _)]; exact h _ [] _ rfl
  · exact h _ d.hif.boot _ rfl
theorem Dev.reg_flush (d : Dev) {q : Nat} (hq : q < 128) {o : Nat} (ho : 0x400000 ≤ o) : (d.flush q).reg o = d.reg o := by
  obtain ⟨h1, h2, h3, h4, h5, h6⟩ := cq_block hq
  have hf : ∀ d : Dev, (d.flushOnce q).reg o = d.reg o := fun d => Dev.reg_flushFrom hq ho _ _ _
  have hs : ∀ d : Dev, (d.settleStop q).reg o = d.reg o := by
    intro d; unfold Dev.settleStop; dsimp only
    have h : ∀ f, ((((((((d.wf (HIF_CQn_SQ_TAIL q) 0).wf (HIF_CQn_SQ_HEAD q) 0).wf (HIF_CQn_CQ_HEAD q) 0).wf (HIF_CQn_CQ_TAIL q) 0).updQp q f).wf
        (HIF_CQn_STS_RUNNING q) 0).wf (HIF_CQn_STS_CQ_FULL q) 0)).reg o = d.reg o := by
      intro f
      rw [Dev.reg_wf_other _ _ _ _ (by omega), Dev.reg_wf_other _ _ _ _ (by omega)]
      rw [show ∀ (e : Dev) f, (e.updQp q f).reg o = e.reg o from fun e f => rfl]
      rw [Dev.reg_wf_other _ _ _ _ (by omega), Dev.reg_wf_other _ _ _ _ (by omega), Dev.reg_wf_other _ _ _ _ (by omega),
        Dev.reg_wf_other _ _ _ _ (by omega)]
    split
    · split
      · rw [Dev.reg_pairStart _ hq ho]; exact h _
      · exact h _
    · rfl
  rw [Dev.flush, hs, hf, hf]
/-- A completion on a pair below 128 changes no register outside block 0. -/
theorem Dev.reg_complete (d : Dev) {q : Nat} (hq : q < 128) {o : Nat} (ho : 0x400000 ≤ o) (tag st : Nat) (r : List Nat) :
    (d.complete q tag st r).reg o = d.reg o := by rw [Dev.complete, Dev.reg_flush _ hq ho]; rfl
theorem Dev.reg_accepted (d : Dev) {q : Nat} (hq : q < 128) {o : Nat} (ho : 0x400000 ≤ o) (tag : Nat) :
    (d.accepted q tag).reg o = d.reg o := by rw [Dev.accepted, Dev.reg_flush _ hq ho]; rfl
theorem Dev.rf_complete (d : Dev) {q : Nat} (hq : q < 128) {f : Fld} (ho : 0x400000 ≤ f.off) (tag st : Nat) (r : List Nat) :
    (d.complete q tag st r).rf f = d.rf f := by unfold Dev.rf; rw [Dev.reg_complete _ hq ho]
theorem Dev.rf_event (d : Dev) {g : Fld} (ho : 0x400000 ≤ g.off) (a b c e f : Nat) : (d.event a b c e f).rf g = d.rf g := by
  unfold Dev.rf; rw [Dev.reg_event _ ho]
theorem Dev.rf_putLog (d : Dev) (l : List RecEntry) (n : Nat) (b : Bool) (g : Fld) : (d.putLog l n b).rf g = d.rf g := rfl
theorem Dev.rf_recStore (d : Dev) {g : Fld} (ho : g.off ≠ rOBS_REC_STS) (a b c n : Nat) (x : List Byte) : (d.recStore a b c n x).rf g = d.rf g := by
  unfold Dev.recStore; extract_lets mark l kept; rw [Dev.rf_putLog]; split
  · exact Dev.rf_wf_other d OBS_REC_STS_WRAPPED g _ ho
  · rfl
theorem Dev.rf_recDrop (d : Dev) {g : Fld} (ho : g.off ≠ rOBS_REC_LOST) (n : Nat) : (d.recDrop n).rf g = d.rf g :=
  (Dev.rf_putLog _ _ _ _ g).trans <| Dev.rf_wf_other d OBS_REC_LOST g _ ho
/-- A recorder entry changes no register but OBS_REC_STS and OBS_REC_LOST. -/
theorem Dev.rf_recAdd (d : Dev) {g : Fld} (ho : g.off ≠ rOBS_REC_STS) (hl : g.off ≠ rOBS_REC_LOST) (a b c : Nat) (x : Option (List Byte)) :
    (d.recAdd a b c x).rf g = d.rf g := by
  unfold Dev.recAdd
  split
  · rfl
  · cases x <;> (dsimp only; split)
    · exact Dev.rf_recStore { d with free := d.free + 1 } ho _ _ _ _ _
    · exact Dev.rf_recDrop { d with free := d.free + 1 } hl _
    · exact Dev.rf_recStore d ho _ _ _ _ _
    · exact Dev.rf_recDrop d hl _

end Sys2Proof.Machine
end

