-- ==== Sys2Proof/Laws/Ops.lean ====
section
/-! SUPPORT. What the shared rows do when their conditions hold: a DSP row on a core that takes it, a far access that is permitted, a
command's row on its queue's next command, a list of checks that all pass. -/

namespace Sys2Proof.Machine

/-! ### DSP rows -/

theorem op_eq (w : Word) : fOp w.toNat = opField w := by
  simp only [fOp, opField, bitsAt]
  have := w.isLt; omega
theorem ac_eq (w : Word) : bitsAt w.toNat 0 4 = acField w := by simp [bitsAt, acField]
/-- A core that is ready runs the instruction. -/
theorem ready_do {s : State} {c : Fin 108} (h : s.coreReady c = true) (f : Dev → Dev) : s.dev.dspDo c f = f s.dev := by
  simp only [State.coreReady, Bool.and_eq_true] at h
  simp [Dev.dspDo, h.1, h.2]
/-- The row of the word's own instruction. -/
theorem word_do {s : State} {c : Fin 108} {bad : Bool} {f : Dev → Dev} (h : s.coreReady c = true) :
    State.dspWord true bad c s f = .next (s.onDev f) := by
  simp only [State.dspWord, if_true, State.act, State.onDev, ready_do h]
/-- Another instruction's word is no event of a row. -/
theorem word_other (c : Fin 108) (s : State) (f : Dev → Dev) : State.dspWord false false c s f = .next s := rfl
/-- A core that does not run takes no instruction. -/
theorem word_stopped {s : State} {c : Fin 108} (h : s.dev.coreRuns c = false) (m b : Bool) (f : Dev → Dev) :
    State.dspWord m b c s f = .next s := by
  have hd : ∀ f, s.dev.dspDo c f = s.dev := fun f => by simp [Dev.dspDo, h]
  unfold State.dspWord State.act State.onDev
  cases m <;> cases b <;> simp [hd]
theorem row_do {s : State} {c : Fin 108} {w : Word} {op : Nat} {f : Dev → Dev} (h : s.coreReady c = true) (ho : opField w = op) :
    s.dspRow op c w f = .next (s.onDev f) := by
  simp only [State.dspRow, op_eq, ho, beq_self_eq_true]; exact word_do h
theorem dsp_row {s : State} {c : Fin 108} {w : Word} {op : Nat} {f : Nat → Core → InsnRes} (h : s.coreReady c = true) (ho : opField w = op) :
    s.dsp op c w f = .next { s with dev := s.dev.dspFinish c (f w.toNat (s.dev.core c)) } := row_do h ho
/-- An instruction that is done commits. -/
theorem dsp_done {s : State} {c : Fin 108} {w : Word} {op : Nat} {f : Nat → Core → InsnRes} {k : Core} (h : s.coreReady c = true)
    (ho : opField w = op) (hk : f w.toNat (s.dev.core c) = .done k) : s.dsp op c w f = .next (s.commit c k) := by
  rw [dsp_row h ho, hk]; rfl
theorem branch_row {s : State} {c : Fin 108} {w : Word} {op : Nat} {f : Nat → Core → InsnRes} {k : Core} (h : s.coreReady c = true)
    (ho : opField w = op) (hk : f w.toNat (s.dev.core c) = .done k) : s.dspBranch op c w 0 f = .next (s.commit c k) := by
  unfold State.dspBranch
  rw [row_do h ho]
  simp only [State.onDev, if_true, hk]; rfl
theorem ac_row {s : State} {c : Fin 108} {w : Word} {fn : Nat} {f : Dev → Dev} (h : s.coreReady c = true)
    (ho : opField w = 0x2D) (ha : acField w = fn) : s.dspAcRow fn c w f = .next (s.onDev f) := by
  simp only [State.dspAcRow, op_eq, ac_eq, ho, ha, beq_self_eq_true, Bool.and_self]; exact word_do h
theorem ac_done {s : State} {c : Fin 108} {w : Word} {fn : Nat} {f : Nat → Core → InsnRes} {k : Core} (h : s.coreReady c = true)
    (ho : opField w = 0x2D) (ha : acField w = fn) (hk : f w.toNat (s.dev.core c) = .done k) : s.dspAc fn c w f = .next (s.commit c k) := by
  unfold State.dspAc
  rw [ac_row h ho ha]
  simp only [State.onDev, hk]; rfl
/-- A multiply-accumulate that does not trap commits like any other instruction. -/
theorem mac_done {s : State} {c : Fin 108} {w : Word} {op : Nat} {f : Nat → Core → MacRes} {k : Core} (h : s.coreReady c = true)
    (ho : opField w = op) (hk : f w.toNat (s.dev.core c) = .done k false) : s.dspMac op c w f = .next (s.commit c k) := by
  unfold State.dspMac
  rw [row_do h ho]
  simp only [State.onDev, hk]; rfl
theorem macAc_done {s : State} {c : Fin 108} {w : Word} {fn : Nat} {f : Nat → Core → MacRes} {k : Core} (h : s.coreReady c = true)
    (ho : opField w = 0x2D) (ha : acField w = fn) (hk : f w.toNat (s.dev.core c) = .done k false) : s.dspMacAc fn c w f = .next (s.commit c k) := by
  unfold State.dspMacAc
  rw [ac_row h ho ha]
  simp only [State.onDev, hk]; rfl
/-- A far access that passes its checks acts at its address. -/
theorem far_ok (d : Dev) (c : Fin 108) (w : Nat) (f : Nat → Dev × Option InsnRes) (a : Nat) (ha : farAddr w (d.core c) = a) (h0 : fImm w = 0)
    (h1 : a % 4 = 0) (h2 : farPermitted (c / 9) a = true) : d.far c w f = (f a).1.dspFinish c ((f a).2.getD (.fault 0x06 a 0xFF)) := by
  unfold Dev.far
  simp only [ha, h0, h1, h2, bne_self_eq_false, Bool.not_true, Bool.false_eq_true, if_false]

/-! ### Commands -/

/-- The row of the queue's next command carries it out. -/
theorem pq_ready {s : State} {op : Nat} {c : PqCmd} (h : s.ready op c = true) (f : Dev → Dev) : s.pq op c f = .next (s.on (f (s.began c))) := by
  unfold State.ready at h
  split at h
  · rename_i r hr
    simp only [Bool.and_eq_true, beq_iff_eq] at h
    have h2 : (s.dev.rf MGT_TWIN_STS_ROLE == 2 && !standbyTakes op r.ghost) = false := by
      have := h.2
      cases hb : standbyTakes op r.ghost <;> simp_all [bne]
    simp only [State.pq, State.act, State.onDev, State.on, Dev.pqDo, hr, h.1, and_self, if_true, h2, State.began]
    simp
  · simp at h
/-- A check that fails completes the command with its status; one that passes goes on. -/
theorem checks_nil (d : Dev) (c : PqCmd) (f : Dev → Dev) : d.checks c [] f = f d := rfl
theorem checks_pass (d : Dev) (c : PqCmd) (b : Bool) (st : Nat) (l : List (Bool × Nat)) (f : Dev → Dev) (h : b = false) :
    d.checks c ((b, st) :: l) f = d.checks c l f := by simp [Dev.checks, h]
theorem checks_fail (d : Dev) (c : PqCmd) (b : Bool) (st : Nat) (l : List (Bool × Nat)) (f : Dev → Dev) (h : b = true) :
    d.checks c ((b, st) :: l) f = d.fin c st := by simp [Dev.checks, h]
/-- Beginning a command changes its queue's record of it alone. -/
theorem began_regs (s : State) (c : PqCmd) : (s.began c).regs = s.dev.regs := rfl
theorem began_rest (s : State) (c : PqCmd) : (s.began c).rest = s.dev.rest := rfl
/-- The answer of a row that acts on the device alone. -/
theorem nextAnd_act {s : State} {f : Dev → Dev} {P : State → Prop} (h : P (s.on (f s.dev))) : nextAnd (s.act f) P := ⟨_, rfl, h⟩

end Sys2Proof.Machine
end

