-- ==== Sys2Proof/Laws/Wds.lean ====
section
/-! SUPPORT. What the dispatcher's own bookkeeping leaves: its log, its shown registers and the eligibility stamps touch the dispatcher and
the registers, and nothing else. -/

namespace Sys2Proof.Machine

/-- The device less the dispatcher's state and the registers. -/
def Dev.offWds (d : Dev) : Dev := { d with regs := [], wds := Wds.reset }

/-- Two devices that differ in those alone agree in every other field. -/
theorem Dev.offWds_fields {d e : Dev} (h : e.offWds = d.offWds) :
    e.now = d.now ∧ e.cyc = d.cyc ∧ e.hif = d.hif ∧ e.tls = d.tls ∧ e.txns = d.txns ∧ e.fw = d.fw ∧ e.cores = d.cores ∧ e.pods = d.pods ∧
    e.mem = d.mem ∧ e.lyr = d.lyr ∧ e.pmu = d.pmu ∧ e.twin = d.twin ∧ e.marrow = d.marrow ∧ e.cal = d.cal :=
  ⟨congrArg (·.now) h, congrArg (·.cyc) h, congrArg (·.hif) h, congrArg (·.tls) h, congrArg (·.txns) h, congrArg (·.fw) h,
    congrArg (·.cores) h, congrArg (·.pods) h, congrArg (·.mem) h, congrArg (·.lyr) h, congrArg (·.pmu) h, congrArg (·.twin) h,
    congrArg (·.marrow) h, congrArg (·.cal) h⟩

@[simp] theorem Dev.offWds_wf (d : Dev) (f : Fld) (v : Nat) : (d.wf f v).offWds = d.offWds := rfl
@[simp] theorem Dev.offWds_setFlag (d : Dev) (f : Fld) (b : Bool) : (d.setFlag f b).offWds = d.offWds := rfl
@[simp] theorem Dev.offWds_bump (d : Dev) (f : Fld) : (d.bump f).offWds = d.offWds := rfl
@[simp] theorem Dev.offWds_setJob (d : Dev) (s : Nat) (j : Job) : (d.setJob s j).offWds = d.offWds := rfl
@[simp] theorem Dev.offWds_setFlow (d : Dev) (f : Nat) (x : Flow) : (d.setFlow f x).offWds = d.offWds := rfl
@[simp] theorem Dev.offWds_wds (d : Dev) (x : Wds) : { d with wds := x }.offWds = d.offWds := rfl
@[simp] theorem Dev.offWds_wdsShow (d : Dev) : d.wdsShow.offWds = d.offWds := rfl
@[simp] theorem Dev.offWds_refreshElig (d : Dev) : d.refreshElig.offWds = d.offWds := rfl
@[simp] theorem Dev.offWds_wdsSettle (d : Dev) : d.wdsSettle.offWds = d.offWds := rfl
@[simp] theorem Dev.offWds_satisfy (d : Dev) (f : Job → Nat → Bool) : (d.satisfy f).offWds = d.offWds := rfl
theorem Dev.offWds_wlogAdd (d e : Dev) (n : Nat) (l : List LogRec) (h : e.offWds = d.offWds) (b : Bool) :
    ({ e with wds.log := l, wds.lost := n }.setFlag WDS_STS_LOG_FULL b).offWds = d.offWds := h
@[simp] theorem Dev.offWds_wlog (d : Dev) (r : LogRec) : (d.wlog r).offWds = d.offWds := by
  unfold Dev.wlog
  extract_lets st r' add
  split
  · rfl
  · split
    · exact (Dev.offWds_wds (d.bump WDS_LOG_LOST) _).trans (Dev.offWds_bump d _)
    · exact Dev.offWds_wlogAdd d d _ _ rfl _
@[simp] theorem Dev.offWds_logJob (d : Dev) (a b c : Nat) (x : JobDesc) (e : Nat) : (d.logJob a b c x e).offWds = d.offWds := Dev.offWds_wlog _ _
@[simp] theorem Dev.offWds_logPod (d : Dev) (a b c e f : Nat) : (d.logPod a b c e f).offWds = d.offWds := Dev.offWds_wlog _ _
@[simp] theorem Dev.offWds_raiseEvent (d : Dev) (a b c : Nat) : (d.raiseEvent a b c).offWds = d.offWds := by
  unfold Dev.raiseEvent
  extract_lets d1
  split
  · exact Dev.offWds_bump d _
  · exact (Dev.offWds_wdsSettle _).trans ((Dev.offWds_satisfy _ _).trans (Dev.offWds_wds d _))

end Sys2Proof.Machine
end

