-- ==== Sys2Proof/Laws/Core.lean ====
section
/-! SUPPORT. What an instruction of a core may touch: its commit, its fault, the coprocessor instructions it holds. -/

namespace Sys2Proof.Machine

/-- The device less what one core's instruction may touch. -/
def Dev.offCore (d : Dev) : Dev :=
  { d.rest with cores := [], pods := { d.pods with mem := [], cpx := [], seq := 0 }, marrow := { d.rest.marrow with replay := none } }

theorem Dev.offCore_of_rest {d e : Dev} (h : e.rest = d.rest) : e.offCore = d.offCore := by
  have hp : e.pods = d.pods := congrArg (·.pods) h
  unfold Dev.offCore
  rw [h, hp]
/-- Two devices that differ in that alone agree in every other field. -/
theorem Dev.offCore_fields {d e : Dev} (h : e.offCore = d.offCore) :
    e.now = d.now ∧ e.guardOpen = d.guardOpen ∧ e.tls = d.tls ∧ e.txns = d.txns ∧ { e.wds with log := [] } = { d.wds with log := [] } ∧ e.mem = d.mem ∧ e.lyr = d.lyr ∧ e.pmu = d.pmu ∧
    e.thm = d.thm ∧ e.tmu = d.tmu ∧ e.eth = d.eth ∧ e.zth = d.zth ∧ e.cal = d.cal ∧ e.dfe = d.dfe ∧ e.nbb = d.nbb :=
  ⟨congrArg (·.now) h, congrArg (·.guardOpen) h, congrArg (·.tls) h, congrArg (·.txns) h, congrArg (·.wds) h, congrArg (·.mem) h,
    congrArg (·.lyr) h, congrArg (·.pmu) h, congrArg (·.thm) h, congrArg (·.tmu) h, congrArg (·.eth) h, congrArg (·.zth) h,
    congrArg (·.cal) h, congrArg (·.dfe) h, congrArg (·.nbb) h⟩

theorem Dev.offCore_cores (d : Dev) (x : Tab Core) : { d with cores := x }.offCore = d.offCore := rfl
theorem Dev.offCore_cpx (d : Dev) (x : List CpxInst) : { d with pods.cpx := x }.offCore = d.offCore := rfl
theorem Dev.offCore_replay (d : Dev) (x : Option Replay) : { d with marrow.replay := x }.offCore = d.offCore := rfl
theorem Dev.offCore_regs (d : Dev) (x : Tab Word) : { d with regs := x }.offCore = d.offCore := rfl
@[simp] theorem Dev.offCore_setCore (d : Dev) (c : Nat) (k : Core) : (d.setCore c k).offCore = d.offCore := rfl
@[simp] theorem Dev.offCore_updCore (d : Dev) (c : Nat) (f : Core → Core) : (d.updCore c f).offCore = d.offCore := rfl
@[simp] theorem Dev.offCore_wf (d : Dev) (f : Fld) (v : Nat) : (d.wf f v).offCore = d.offCore := rfl
@[simp] theorem Dev.offCore_setFlag (d : Dev) (f : Fld) (b : Bool) : (d.setFlag f b).offCore = d.offCore := rfl
@[simp] theorem Dev.offCore_bump (d : Dev) (f : Fld) : (d.bump f).offCore = d.offCore := rfl
@[simp] theorem Dev.offCore_bumpBy (d : Dev) (f : Fld) (n : Nat) : (d.bumpBy f n).offCore = d.offCore := rfl
@[simp] theorem Dev.offCore_podWrite (d : Dev) (p o : Nat) (b : List Byte) : (d.podWrite p o b).offCore = d.offCore := rfl
@[simp] theorem Dev.offCore_recAdd (d : Dev) (a b c : Nat) (x : Option (List Byte)) : (d.recAdd a b c x).offCore = d.offCore :=
  Dev.offCore_of_rest (Dev.rest_recAdd _ _ _ _ _)
@[simp] theorem Dev.offCore_health (d : Dev) (a b c : Nat) : (d.health a b c).offCore = d.offCore := Dev.offCore_of_rest (Dev.rest_health _ _ _ _)
@[simp] theorem Dev.offCore_recSource (d : Dev) (b : Nat) : (d.recSource b).offCore = d.offCore := Dev.offCore_of_rest (Dev.rest_recSource _ _)

/-! ### Host interface and cores under the small updates -/

theorem hif_podWrite (d : Dev) (p o : Nat) (b : List Byte) : (d.podWrite p o b).hif = d.hif := rfl
theorem cores_podWrite (d : Dev) (p o : Nat) (b : List Byte) : (d.podWrite p o b).cores = d.cores := rfl
theorem hif_cpx (d : Dev) (x : List CpxInst) : ({ d with pods.cpx := x } : Dev).hif = d.hif := rfl
theorem cores_cpx (d : Dev) (x : List CpxInst) : ({ d with pods.cpx := x } : Dev).cores = d.cores := rfl
theorem hif_regs (d : Dev) (x : Tab Word) : ({ d with regs := x } : Dev).hif = d.hif := rfl
theorem cores_regs (d : Dev) (x : Tab Word) : ({ d with regs := x } : Dev).cores = d.cores := rfl
theorem hif_replay (d : Dev) (x : Option Replay) : ({ d with marrow.replay := x } : Dev).hif = d.hif := rfl
theorem cores_replay (d : Dev) (x : Option Replay) : ({ d with marrow.replay := x } : Dev).cores = d.cores := rfl

/-! ### Cores -/

theorem core_setCore (d : Dev) (c b : Nat) (k : Core) : (d.setCore c k).core b = if b = c then k else d.core b := by
  simp only [Dev.setCore, Dev.core]; rw [Tab.getD_setD]
theorem core_updCore (d : Dev) (c b : Nat) (f : Core → Core) : (d.updCore c f).core b = if b = c then f (d.core c) else d.core b := by
  rw [Dev.updCore, core_setCore]
theorem core_congr {d e : Dev} (h : e.cores = d.cores) (b : Nat) : e.core b = d.core b := by unfold Dev.core; rw [h]

/-! ### Coprocessor instructions of a core -/

theorem Dev.hif_putLog (d : Dev) (l : List RecEntry) (n : Nat) (b : Bool) : (d.putLog l n b).hif = d.hif := rfl
theorem Dev.hif_recStore (d : Dev) (a b c n : Nat) (x : List Byte) : (d.recStore a b c n x).hif = d.hif := by
  unfold Dev.recStore; extract_lets mark l kept; rw [Dev.hif_putLog]; split <;> rfl
theorem Dev.hif_recDrop (d : Dev) (n : Nat) : (d.recDrop n).hif = d.hif := (Dev.hif_putLog _ _ _ _).trans (Dev.bumpBy_hif _ _ _)
theorem Dev.hif_recAdd (d : Dev) (a b c : Nat) (x : Option (List Byte)) : (d.recAdd a b c x).hif = d.hif := by
  unfold Dev.recAdd
  split
  · rfl
  · cases x <;> (dsimp only; split)
    · exact Dev.hif_recStore { d with free := d.free + 1 } _ _ _ _ _
    · exact Dev.hif_recDrop { d with free := d.free + 1 } _
    · exact Dev.hif_recStore d _ _ _ _ _
    · exact Dev.hif_recDrop d _
theorem upTo_foldl_wf (g : Nat → Fld) (v : Nat → Nat) : ∀ (l : List Nat) (d : Dev), ∃ r, l.foldl (fun d u => d.wf (g u) (v u)) d = { d with regs := r }
  | [], d => ⟨d.regs, rfl⟩
  | a :: l, d => by
    obtain ⟨r, hr⟩ := upTo_foldl_wf g v l (d.wf (g a) (v a))
    exact ⟨r, by rw [List.foldl_cons, hr]; rfl⟩
theorem cpxShow_eq (d : Dev) (p c : Nat) : ∃ r, d.cpxShow p c = { d with regs := r } := by
  unfold Dev.cpxShow
  extract_lets dep out d1
  obtain ⟨r, hr⟩ := upTo_foldl_wf (fun u => CPX_u_QUEUE_DEPTH p u) dep (upTo 3) d
  have h1 : d1 = { d with regs := r } := hr
  rw [h1]
  exact ⟨_, rfl⟩

/-- What writing a record may touch, one that is not lost: not the host interface, and of the cores only the latch of its own. -/
theorem cpxRecord_keeps (d : Dev) (i : CpxInst) (r : CpxRec) :
    (d.cpxRecord i r false).offCore = d.offCore ∧ (d.cpxRecord i r false).hif = d.hif ∧
    (∀ b, (d.cpxRecord i r false).core b = if i.wakes = true ∧ b = i.core then { d.core b with latches := setBit (d.core b).latches 1 } else d.core b) := by
  have h2 : ∀ (e : Dev), e.offCore = d.offCore → e.hif = d.hif → e.cores = d.cores →
      let d3 : Dev := { e with pods.cpx := e.pods.cpx.filter fun j => j.seq != i.seq }
      let x := (if i.wakes then d3.setLatch i.core 1 else d3).cpxShow (i.core / 9) i.core |>.cpxOrderDone i
      x.offCore = d.offCore ∧ x.hif = d.hif ∧
      (∀ b, x.core b = if i.wakes = true ∧ b = i.core then { d.core b with latches := setBit (d.core b).latches 1 } else d.core b) := by
    intro e he hh hc
    dsimp only
    generalize hd3 : ({ e with pods.cpx := e.pods.cpx.filter fun j => j.seq != i.seq } : Dev) = d3
    have a1 : d3.offCore = d.offCore := by rw [← hd3, Dev.offCore_cpx, he]
    have a2 : d3.hif = d.hif := by rw [← hd3, hif_cpx]; exact hh
    have a3 : ∀ b, d3.core b = d.core b := fun b => by rw [← hd3]; exact core_congr ((cores_cpx _ _).trans hc) b
    clear hd3
    generalize hd4 : (if i.wakes then d3.setLatch i.core 1 else d3) = d4
    have b1 : d4.offCore = d.offCore := by rw [← hd4]; split; exact (Dev.offCore_updCore _ _ _).trans a1; exact a1
    have b2 : d4.hif = d.hif := by rw [← hd4]; split <;> exact a2
    have b3 : ∀ b, d4.core b = if i.wakes = true ∧ b = i.core then { d.core b with latches := setBit (d.core b).latches 1 } else d.core b := by
      intro b
      rw [← hd4]
      by_cases hw : i.wakes = true
      · rw [if_pos hw, Dev.setLatch, core_updCore]
        by_cases hb : b = i.core
        · subst hb; simp [hw, a3]
        · simp [hb, a3]
      · rw [if_neg hw]; simp [hw, a3]
    obtain ⟨g, hg⟩ := cpxShow_eq d4 (i.core / 9) i.core
    have c1 := (Dev.offCore_regs d4 g).trans b1
    have c2 : ({ d4 with regs := g } : Dev).hif = d.hif := (hif_regs _ _).trans b2
    have c3 : ∀ b, ({ d4 with regs := g } : Dev).core b = _ := fun b => (core_congr (cores_regs d4 g) b).trans (b3 b)
    rw [hg]
    generalize ({ d4 with regs := g } : Dev) = d5 at c1 c2 c3
    unfold Dev.cpxOrderDone
    split
    · exact ⟨(Dev.offCore_replay _ _).trans c1, (hif_replay _ _).trans c2, fun b => (core_congr (cores_replay _ _) b).trans (c3 b)⟩
    · refine ⟨(Dev.offCore_recAdd _ _ _ _ _).trans c1, (Dev.hif_recAdd _ _ _ _ _).trans c2, fun b => ?_⟩
      rw [core_congr (Dev.rest_fields (Dev.rest_recAdd _ _ _ _ _)).2.2.2.2.2.2.2.1]
      exact c3 b
  unfold Dev.cpxRecord
  extract_lets p d1 d2 d3
  have hd1 : d1.offCore = d.offCore ∧ d1.hif = d.hif ∧ d1.cores = d.cores := by
    dsimp only [d1]
    rw [if_neg (by decide)]
    exact ⟨(Dev.offCore_bump _ _).trans (Dev.offCore_podWrite _ _ _ _), (Dev.bump_hif _ _).trans (hif_podWrite _ _ _ _),
      (Dev.bump_cores _ _).trans (cores_podWrite _ _ _ _)⟩
  have hd2 : d2.offCore = d.offCore ∧ d2.hif = d.hif ∧ d2.cores = d.cores := by
    dsimp only [d2]
    clear_value d1
    split
    · exact ⟨(Dev.offCore_bump _ _).trans hd1.1, (Dev.bump_hif _ _).trans hd1.2.1, (Dev.bump_cores _ _).trans hd1.2.2⟩
    · split
      · exact ⟨(Dev.offCore_bump _ _).trans hd1.1, (Dev.bump_hif _ _).trans hd1.2.1, (Dev.bump_cores _ _).trans hd1.2.2⟩
      · exact hd1
  clear_value d2
  exact h2 d2 hd2.1 hd2.2.1 hd2.2.2

/-- What the commit of a coprocessor instruction may touch. -/
theorem cpxCommit_keeps (d : Dev) (c seq : Nat) :
    (d.cpxCommit c seq).offCore = d.offCore ∧ (d.cpxCommit c seq).hif = d.hif ∧ (∀ b, b ≠ c → (d.cpxCommit c seq).core b = d.core b) ∧
    (∀ b, ((d.cpxCommit c seq).core b).s = (d.core b).s ∧ ((d.cpxCommit c seq).core b).job = (d.core b).job) := by
  unfold Dev.cpxCommit
  split
  · exact ⟨rfl, rfl, fun _ _ => rfl, fun _ => ⟨rfl, rfl⟩⟩
  · rename_i i hi
    have hc : i.core = c := by
      have := List.find?_some hi
      simp only [Bool.and_eq_true, beq_iff_eq] at this
      exact this.2
    split
    · obtain ⟨h1, h2, h3⟩ := cpxRecord_keeps d i expiredRec
      refine ⟨h1, h2, fun b hb => ?_, fun b => ?_⟩
      · rw [h3, if_neg (by rw [hc]; exact fun x => hb x.2)]
      · rw [h3]; split <;> exact ⟨rfl, rfl⟩
    · exact ⟨rfl, rfl, fun _ _ => rfl, fun _ => ⟨rfl, rfl⟩⟩

/-! ### Faults -/

theorem Dev.offCore_free (d : Dev) (n : Nat) : { d with free := n }.offCore = d.offCore := rfl
theorem hif_free (d : Dev) (n : Nat) : ({ d with free := n } : Dev).hif = d.hif := rfl
theorem cores_free (d : Dev) (n : Nat) : ({ d with free := n } : Dev).cores = d.cores := rfl
theorem stageStall_keeps (e : Dev) (p u : Nat) :
    (e.stageStall p u).offCore = e.offCore ∧ (e.stageStall p u).hif = e.hif ∧ (e.stageStall p u).cores = e.cores := by
  unfold Dev.stageStall
  extract_lets f
  exact ⟨(Dev.offCore_bumpBy _ _ _).trans (Dev.offCore_free _ _), (Dev.bumpBy_hif _ _ _).trans (hif_free _ _),
    (Dev.bumpBy_cores _ _ _).trans (cores_free _ _)⟩
theorem cpxDrop_keeps (e : Dev) (i : CpxInst) :
    (e.cpxDrop i).offCore = e.offCore ∧ (e.cpxDrop i).hif = e.hif ∧ (e.cpxDrop i).cores = e.cores := by
  unfold Dev.cpxDrop
  obtain ⟨g, hg⟩ := cpxShow_eq ({ e with pods.cpx := e.pods.cpx.filter fun j => j.seq != i.seq }.bump (CPX_u_SQUASHED (i.core / 9) i.unit)) (i.core / 9) i.core
  rw [hg]
  exact ⟨(Dev.offCore_regs _ _).trans ((Dev.offCore_bump _ _).trans (Dev.offCore_cpx _ _)),
    (hif_regs _ _).trans ((Dev.bump_hif _ _).trans (hif_cpx _ _)), (cores_regs _ _).trans ((Dev.bump_cores _ _).trans (cores_cpx _ _))⟩
/-- Cancelling a core's tentative coprocessor work touches that core, and no other. -/
theorem cpxCancelAll_keeps (d : Dev) (c : Nat) :
    (d.cpxCancelAll c).offCore = d.offCore ∧ (d.cpxCancelAll c).hif = d.hif ∧
    (∀ b, (d.cpxCancelAll c).core b = if b = c then { d.core c with tent := [] } else d.core b) := by
  have one : ∀ (e : Dev) (s : Nat), (e.cpxCancel s).offCore = e.offCore ∧ (e.cpxCancel s).hif = e.hif ∧ (e.cpxCancel s).cores = e.cores := by
    intro e s
    unfold Dev.cpxCancel
    split
    · exact ⟨rfl, rfl, rfl⟩
    · rename_i i _
      obtain ⟨a1, a2, a3⟩ := cpxDrop_keeps (e.stageStall (i.core / 9) i.unit) i
      obtain ⟨b1, b2, b3⟩ := stageStall_keeps e (i.core / 9) i.unit
      exact ⟨a1.trans b1, a2.trans b2, a3.trans b3⟩
  have all : ∀ (l : List Nat) (e : Dev), (l.foldl Dev.cpxCancel e).offCore = e.offCore ∧ (l.foldl Dev.cpxCancel e).hif = e.hif ∧
      (l.foldl Dev.cpxCancel e).cores = e.cores := by
    intro l
    induction l with
    | nil => intro e; exact ⟨rfl, rfl, rfl⟩
    | cons s l ih =>
      intro e
      obtain ⟨a1, a2, a3⟩ := ih (e.cpxCancel s)
      obtain ⟨b1, b2, b3⟩ := one e s
      exact ⟨a1.trans b1, a2.trans b2, a3.trans b3⟩
  unfold Dev.cpxCancelAll
  extract_lets seqs
  obtain ⟨a1, a2, a3⟩ := all seqs d
  refine ⟨a1, a2, fun b => ?_⟩
  rw [core_updCore, core_congr a3, core_congr a3]

/-- What recording a fault touches. -/
theorem faultRecord_keeps (d : Dev) (c fpc cause : Nat) (addr : Int) (elem : Nat) :
    (d.faultRecord c fpc cause addr elem).offCore = d.offCore ∧ (d.faultRecord c fpc cause addr elem).hif = d.hif ∧
    (∀ b, b ≠ c → (d.faultRecord c fpc cause addr elem).core b = d.core b) := by
  unfold Dev.faultRecord
  extract_lets p i lo hi d1
  have h1 : d1.offCore = d.offCore := Dev.offCore_updCore _ _ _
  have h2 : d1.hif = d.hif := Dev.updCore_hif _ _ _
  have h3 : ∀ b, b ≠ c → d1.core b = d.core b := fun b hb => (core_updCore _ _ _ _).trans (if_neg hb)
  clear_value d1
  refine ⟨?_, ?_, fun b hb => ?_⟩
  · rw [Dev.offCore_bump, Dev.offCore_wf, Dev.offCore_wf, Dev.offCore_wf, Dev.offCore_wf, h1]
  · rw [Dev.bump_hif, Dev.wf_hif, Dev.wf_hif, Dev.wf_hif, Dev.wf_hif, h2]
  · rw [core_congr (Dev.bump_cores _ _), core_congr (Dev.wf_cores _ _ _), core_congr (Dev.wf_cores _ _ _), core_congr (Dev.wf_cores _ _ _),
      core_congr (Dev.wf_cores _ _ _), h3 b hb]

/-- The two ends of a fault: HALTED, and the handler. -/
theorem halt_keeps (d : Dev) (c v blk kind det bit : Nat) :
    (((d.setCoreState c v).health blk kind det).recSource bit).offCore = d.offCore ∧
    (∀ b, (((d.setCoreState c v).health blk kind det).recSource bit).core b = d.core b) := by
  refine ⟨?_, fun b => ?_⟩
  · rw [Dev.offCore_recSource, Dev.offCore_health]; exact Dev.offCore_wf _ _ _
  · rw [core_congr (Dev.rest_fields (Dev.rest_recSource _ _)).2.2.2.2.2.2.2.1, core_congr (Dev.rest_fields (Dev.rest_health _ _ _ _)).2.2.2.2.2.2.2.1]
    exact core_congr (Dev.wf_cores _ _ _) b
theorem handler_keeps (d : Dev) (c : Nat) (f : Core → Core) (g : Fld) (x : Bool) :
    ((d.updCore c f).setFlag g x).offCore = d.offCore ∧ ((d.updCore c f).setFlag g x).hif = d.hif ∧
    (∀ b, b ≠ c → ((d.updCore c f).setFlag g x).core b = d.core b) := by
  refine ⟨(Dev.offCore_setFlag _ _ _).trans (Dev.offCore_updCore _ _ _), (Dev.setFlag_hif _ _ _).trans (Dev.updCore_hif _ _ _), fun b hb => ?_⟩
  exact (core_congr (Dev.setFlag_cores _ _ _) b).trans ((core_updCore _ _ _ _).trans (if_neg hb))

/-- Numbers for squashed work: counted, and the core's tentative instructions gone. -/
theorem squash_keeps (d : Dev) (c : Nat) :
    (d.squash c).offCore = d.offCore ∧ (d.squash c).hif = d.hif ∧
    (∀ b, (d.squash c).core b = if b = c then { d.core c with tent := [] } else d.core b) := by
  have key : ∀ (e : Dev) (g : Fld) (n : Nat), e.offCore = d.offCore → e.hif = d.hif → e.cores = d.cores →
      ((e.cpxCancelAll c).bumpBy g n).offCore = d.offCore ∧ ((e.cpxCancelAll c).bumpBy g n).hif = d.hif ∧
      (∀ b, ((e.cpxCancelAll c).bumpBy g n).core b = if b = c then { d.core c with tent := [] } else d.core b) := by
    intro e g n h1 h2 h3
    obtain ⟨a1, a2, a3⟩ := cpxCancelAll_keeps e c
    refine ⟨(Dev.offCore_bumpBy _ _ _).trans (a1.trans h1), (Dev.bumpBy_hif _ _ _).trans (a2.trans h2), fun b => ?_⟩
    rw [core_congr (Dev.bumpBy_cores _ _ _), a3, core_congr h3, core_congr h3]
  exact key (d.fresh 12).1 _ _ (Dev.offCore_of_rest (Dev.rest_free d _)) rfl rfl

@[simp] theorem Core.setCr_s (k : Core) (n v : Nat) : (k.setCr n v).s = k.s := rfl
@[simp] theorem Core.setCr_job (k : Core) (n v : Nat) : (k.setCr n v).job = k.job := rfl
@[simp] theorem Core.setInHandler_s (k : Core) (b : Bool) : (k.setInHandler b).s = k.s := Core.setCr_s k _ _
@[simp] theorem Core.setInHandler_job (k : Core) (b : Bool) : (k.setInHandler b).job = k.job := Core.setCr_job k _ _

/-- What recording a fault leaves of the core itself. -/
theorem faultRecord_core (d : Dev) (c fpc cause : Nat) (addr : Int) (elem b : Nat) :
    ((d.faultRecord c fpc cause addr elem).core b).s = (d.core b).s ∧ ((d.faultRecord c fpc cause addr elem).core b).job = (d.core b).job := by
  have key : ∀ (e : Dev) (f : Core → Core) (g1 g2 g3 g4 g5 : Fld) (v1 v2 v3 v4 : Nat), (∀ k, (f k).s = k.s ∧ (f k).job = k.job) →
      let r := (((((e.updCore c f).wf g1 v1).wf g2 v2).wf g3 v3).wf g4 v4).bump g5
      (r.core b).s = (e.core b).s ∧ (r.core b).job = (e.core b).job := by
    intro e f g1 g2 g3 g4 g5 v1 v2 v3 v4 hf
    dsimp only
    rw [core_congr (Dev.bump_cores _ _), core_congr (Dev.wf_cores _ _ _), core_congr (Dev.wf_cores _ _ _), core_congr (Dev.wf_cores _ _ _),
      core_congr (Dev.wf_cores _ _ _), core_updCore]
    split
    · rename_i h; subst h; exact hf _
    · exact ⟨rfl, rfl⟩
  unfold Dev.faultRecord
  extract_lets p i lo hi d1
  exact key d _ _ _ _ _ _ _ _ _ _ (fun k => by simp)

/-- What a fault of core `c` may touch; a core that does not halt leaves the host interface alone. -/
theorem coreFault_keeps (d : Dev) (c fpc cause : Nat) (addr : Int) (elem : Nat) :
    (d.coreFault c fpc cause addr elem).offCore = d.offCore ∧ (∀ b, b ≠ c → (d.coreFault c fpc cause addr elem).core b = d.core b) ∧
    (∀ b, ((d.coreFault c fpc cause addr elem).core b).s = (d.core b).s ∧ ((d.coreFault c fpc cause addr elem).core b).job = (d.core b).job) ∧
    ((d.core c).inHandler = false → (d.core c).getCr 0x01 ≠ 0 → (d.coreFault c fpc cause addr elem).hif = d.hif) := by
  obtain ⟨a1, a2, a3⟩ := squash_keeps d c
  obtain ⟨b1, b2, b3⟩ := faultRecord_keeps (d.squash c) c fpc cause addr elem
  have e3 : ∀ b, b ≠ c → ((d.squash c).faultRecord c fpc cause addr elem).core b = d.core b :=
    fun b hb => (b3 b hb).trans ((a3 b).trans (if_neg hb))
  have e4 : ∀ b, (((d.squash c).faultRecord c fpc cause addr elem).core b).s = (d.core b).s ∧
      (((d.squash c).faultRecord c fpc cause addr elem).core b).job = (d.core b).job := by
    intro b
    obtain ⟨r1, r2⟩ := faultRecord_core (d.squash c) c fpc cause addr elem b
    rw [r1, r2, a3]
    split
    · rename_i h; subst h; exact ⟨rfl, rfl⟩
    · exact ⟨rfl, rfl⟩
  by_cases hh : ((d.core c).inHandler || (d.core c).getCr 0x01 == 0) = true
  · obtain ⟨h1, h2⟩ := halt_keeps ((d.squash c).faultRecord c fpc cause addr elem) c 4 (0x10 + c / 9) 2 (c + 2 ^ 8 * cause) 3
    have he : d.coreFault c fpc cause addr elem = _ := if_pos hh
    rw [he]
    refine ⟨h1.trans (b1.trans a1), fun b hb => (h2 b).trans (e3 b hb), fun b => by rw [h2]; exact e4 b, fun x y => ?_⟩
    simp [x, y] at hh
  · obtain ⟨h1, h2, h3⟩ := handler_keeps ((d.squash c).faultRecord c fpc cause addr elem) c
      (fun k => { k.setInHandler true with pc := k.getCr 0x01 % 2 ^ 21 }) (POD_CORE_c_STS_IN_HANDLER (c / 9) (c % 9)) true
    have he : d.coreFault c fpc cause addr elem = _ := if_neg hh
    rw [he]
    refine ⟨h1.trans (b1.trans a1), fun b hb => (h3 b hb).trans (e3 b hb), fun b => ?_, fun _ _ => h2.trans (b2.trans a2)⟩
    have key : ∀ (e : Dev) (f : Core → Core) (g : Fld) (x : Bool), (∀ k, (f k).s = k.s ∧ (f k).job = k.job) →
        (((e.updCore c f).setFlag g x).core b).s = (e.core b).s ∧ (((e.updCore c f).setFlag g x).core b).job = (e.core b).job := by
      intro e f g x hf
      rw [core_congr (Dev.setFlag_cores _ _ _), core_updCore]
      split
      · rename_i h; subst h; exact hf _
      · exact ⟨rfl, rfl⟩
    generalize (d.squash c).faultRecord c fpc cause addr elem = e at e4
    obtain ⟨k1, k2⟩ := key e (fun k => { k.setInHandler true with pc := k.getCr 0x01 % 2 ^ 21 })
      (POD_CORE_c_STS_IN_HANDLER (c / 9) (c % 9)) true (fun k => ⟨Core.setInHandler_s k true, Core.setInHandler_job k true⟩)
    exact ⟨k1.trans (e4 b).1, k2.trans (e4 b).2⟩

/-! ### Tentative instructions -/

/-- A core's own bookkeeping touches that core alone. -/
theorem own_keeps (d : Dev) (c : Nat) (f : Core → Core) (hf : ∀ k, (f k).s = k.s ∧ (f k).job = k.job) :
    (d.updCore c f).offCore = d.offCore ∧ (∀ b, b ≠ c → (d.updCore c f).core b = d.core b) ∧
    (∀ b, ((d.updCore c f).core b).s = (d.core b).s ∧ ((d.updCore c f).core b).job = (d.core b).job) ∧ (d.updCore c f).hif = d.hif := by
  refine ⟨rfl, fun b hb => by rw [core_updCore, if_neg hb], fun b => ?_, rfl⟩
  rw [core_updCore]
  split
  · rename_i h; subst h; exact hf _
  · exact ⟨rfl, rfl⟩

/-- What the commit of a coprocessor instruction leaves of the core's tentative ones. -/
theorem cpxCommit_tent (d : Dev) (c seq : Nat) : ((d.cpxCommit c seq).core c).tent = (d.core c).tent := by
  unfold Dev.cpxCommit
  split
  · rfl
  · split
    · rw [(cpxRecord_keeps d _ expiredRec).2.2]; split <;> rfl
    · rfl

/-- What the approach of tentative instructions to CM may touch; the host interface only where one takes a fault marked at AG. -/
theorem cpxTicks_keeps : ∀ (n : Nat) (d : Dev) (c : Nat),
    (Dev.cpxTicks n d c).offCore = d.offCore ∧ (∀ b, b ≠ c → (Dev.cpxTicks n d c).core b = d.core b) ∧
    (∀ b, ((Dev.cpxTicks n d c).core b).s = (d.core b).s ∧ ((Dev.cpxTicks n d c).core b).job = (d.core b).job) ∧
    ((∀ t ∈ (d.core c).tent, t.mark = none) → (Dev.cpxTicks n d c).hif = d.hif)
  | 0, d, c => ⟨rfl, fun _ _ => rfl, fun _ => ⟨rfl, rfl⟩, fun _ => rfl⟩
  | n + 1, d, c => by
    unfold Dev.cpxTicks
    split
    · exact ⟨rfl, fun _ _ => rfl, fun _ => ⟨rfl, rfl⟩, fun _ => rfl⟩
    · rename_i t ts ht
      have hm : (∀ t ∈ (d.core c).tent, t.mark = none) → t.mark = none ∧ ∀ u ∈ ts, u.mark = none := by
        intro h
        have hall : ∀ u ∈ t :: ts, u.mark = none := by
          intro u hu
          rw [← ht] at hu
          obtain ⟨v, hv, rfl⟩ := List.mem_map.1 hu
          exact h v hv
        exact ⟨hall t (by simp), fun u hu => hall u (by simp [hu])⟩
      split
      · obtain ⟨o1, o2, o3, o4⟩ := own_keeps d c (fun k => { k with tent := t :: ts }) (fun _ => ⟨rfl, rfl⟩)
        exact ⟨o1, o2, o3, fun _ => o4⟩
      · extract_lets d1
        obtain ⟨o1, o2, o3, o4⟩ := own_keeps d c (fun k => { k with tent := ts }) (fun _ => ⟨rfl, rfl⟩)
        split
        · rename_i cause hc
          obtain ⟨f1, f2, f3, _⟩ := coreFault_keeps d1 c (d1.core c).pc cause (if cause = 0x01 then 0 else (t.desc : Nat)) 0xFF
          refine ⟨f1.trans o1, fun b hb => (f2 b hb).trans (o2 b hb), fun b => ⟨(f3 b).1.trans (o3 b).1, (f3 b).2.trans (o3 b).2⟩, fun h => ?_⟩
          rw [(hm h).1] at hc; cases hc
        · obtain ⟨c1, c2, c3, c4⟩ := cpxCommit_keeps d1 c t.seq
          obtain ⟨u1, u2, u3, u4⟩ := own_keeps (d1.cpxCommit c t.seq) c Core.adv (fun _ => by
            unfold Core.adv Core.advTo; split <;> exact ⟨rfl, rfl⟩)
          obtain ⟨i1, i2, i3, i4⟩ := cpxTicks_keeps n ((d1.cpxCommit c t.seq).updCore c Core.adv) c
          refine ⟨i1.trans (u1.trans (c1.trans o1)), fun b hb => (i2 b hb).trans ((u2 b hb).trans ((c3 b hb).trans (o2 b hb))),
            fun b => ⟨(i3 b).1.trans ((u3 b).1.trans ((c4 b).1.trans (o3 b).1)), (i3 b).2.trans ((u3 b).2.trans ((c4 b).2.trans (o3 b).2))⟩,
            fun h => ?_⟩
          refine (i4 ?_).trans (u4.trans (c2.trans o4))
          have ht2 : (((d1.cpxCommit c t.seq).updCore c Core.adv).core c).tent = ts := by
            rw [core_updCore, if_pos rfl]
            have : ∀ k : Core, k.adv.tent = k.tent := fun k => by unfold Core.adv Core.advTo; split <;> rfl
            rw [this, cpxCommit_tent]
            exact congrArg (·.tent) ((core_updCore d c c _).trans (if_pos rfl))
          rw [ht2]
          exact (hm h).2
/-- An instruction of core `c` has committed: what that may touch. -/
theorem cpxTick_keeps (d : Dev) (c : Nat) :
    (d.cpxTick c).offCore = d.offCore ∧ (∀ b, b ≠ c → (d.cpxTick c).core b = d.core b) ∧
    (∀ b, ((d.cpxTick c).core b).s = (d.core b).s ∧ ((d.cpxTick c).core b).job = (d.core b).job) ∧
    ((∀ t ∈ (d.core c).tent, t.mark = none) → (d.cpxTick c).hif = d.hif) := cpxTicks_keeps _ d c

/-! ### Hand-out -/

theorem cores_takeJob (d : Dev) (s c : Nat) (j : Job) : (d.takeJob s c j).cores = d.cores := by
  unfold Dev.takeJob
  extract_lets d1 f d2
  have h1 : d1.cores = d.cores := Dev.setJob_cores _ _ _
  have h2 : d2.cores = d.cores := by
    dsimp only [d2]; unfold Dev.setBusy
    rw [Dev.wf_cores, Dev.bump_cores, Dev.setFlow_cores, h1]
  exact (Dev.offWds_fields (Dev.offWds_logJob d2 0x01 c s j.desc 0)).2.2.2.2.2.2.1.trans h2
/-- A hand-out in two parts: what the dispatcher books, which leaves every core alone, and what the core takes. -/
theorem handTo_eq (d : Dev) (slot c : Nat) (j : Job) (h : d.job slot = some j) : ∃ d5 : Dev, d5.cores = d.cores ∧ d.handTo slot c = (((d5.updCore c fun k =>
      { ((k.setSN 0 (slot + 2 ^ 14 * j.desc.tl)).setSN 1 j.desc.period).adv with job := some slot }).setCoreState c 1).cpxTick c).wdsSettle := by
    unfold Dev.handTo
    rw [h]
    exact ⟨((d.takeJob slot c j).bump WDS_HANDOUTS).podWrite (c / 9) (0x7FF000 + c % 9 * 0x40) j.desc.bytes,
      (cores_podWrite _ _ _ _).trans ((Dev.bump_cores _ _).trans (cores_takeJob _ _ _ _)), rfl⟩

end Sys2Proof.Machine
end

