-- ==== Sys2Proof/Laws/Memory.lean ====
section
/-! SUPPORT. Byte memories: read after write, and every memory operation keeps the canonical form. -/

namespace Sys2Proof.Machine

/-- What stands at address `x` after the bytes were stored from `a` on. -/
theorem getByte_setBytes (m : List Host.Cell) : ∀ (bs : List Byte) (a x : Nat),
    getByte (setBytes m a bs) x = if a ≤ x ∧ x < a + bs.length then nth 0 bs (x - a) else getByte m x := by
  intro bs
  induction bs generalizing m with
  | nil => intro a x; simp only [setBytes, List.length_nil]; rw [if_neg (by omega)]
  | cons b bs ih =>
    intro a x
    simp only [setBytes, List.length_cons]
    rw [ih (Tab.setD (fun _ => 0) m a b) (a + 1) x]
    by_cases h1 : a + 1 ≤ x ∧ x < a + 1 + bs.length
    · rw [if_pos h1, if_pos (by omega), show x - a = (x - (a + 1)) + 1 by omega]; rfl
    · unfold getByte; rw [if_neg h1, Tab.getD_setD]
      by_cases h2 : x = a
      · subst h2; rw [if_pos rfl, if_pos (by omega)]; simp [nth]
      · rw [if_neg h2, if_neg (by omega)]

theorem Memory.wf_nil : Memory.wf [] = true := rfl

/-- Storing bytes keeps the canonical form. -/
theorem Memory.wf_setBytes : ∀ (bs : List Byte) (m : List Host.Cell) (a : Nat), Memory.wf m = true → Memory.wf (setBytes m a bs) = true
  | [], _, _, h => h
  | b :: bs, m, a, h => Memory.wf_setBytes bs _ (a + 1) (Tab.wf_setD _ m a b h)

/-- Losing bytes keeps the canonical form. -/
theorem Memory.wf_filter (m : List Host.Cell) (f : Host.Cell → Bool) (h : Memory.wf m = true) : Memory.wf (m.filter f) = true :=
  Tab.wf_filter _ m f h

theorem rising_putBytes : ∀ (bs : List Byte) (m : List Host.Cell) (a : Nat), Tab.rising none m = true → Tab.rising none (putBytes m a bs) = true
  | [], _, _, h => h
  | b :: bs, m, a, h => rising_putBytes bs _ (a + 1) (Tab.rising_put m none a b h rfl)

theorem Dev.memoryWf_iff (d : Dev) :
    d.memoryWf = true ↔ Memory.wf d.mem.cells = true ∧ Memory.wf d.pods.mem = true ∧ Tab.rising none d.hif.mem = true := by
  simp [Dev.memoryWf, and_assoc]

theorem Dev.memoryWf_hostWrite (d : Dev) (a : Nat) (bs : List Byte) (h : d.memoryWf = true) : (d.hostWrite a bs).memoryWf = true := by
  rw [Dev.memoryWf_iff] at h ⊢
  unfold Dev.hostWrite
  split
  · exact h
  · exact ⟨h.1, h.2.1, rising_putBytes _ _ _ h.2.2⟩

/-- The one operation that stores bytes of central buffer, DDR5, pod and local memory keeps the form. -/
theorem Dev.memoryWf_poke (d : Dev) (a : Nat) (bs : List Byte) (hw : d.memoryWf = true) : (d.poke a bs).memoryWf = true := by
  have hh := fun off => (Dev.memoryWf_iff _).1 (Dev.memoryWf_hostWrite d (d.obBase + off) bs hw)
  have h := (Dev.memoryWf_iff d).1 hw
  rw [Dev.memoryWf_iff]
  unfold Dev.poke
  split
  · exact ⟨Memory.wf_setBytes _ _ _ h.1, h.2⟩
  · exact ⟨Memory.wf_setBytes _ _ _ h.1, h.2⟩
  · exact ⟨h.1, Memory.wf_setBytes _ _ _ h.2.1, h.2.2⟩
  · exact h
  · exact h
  · exact hh _
  · exact h

theorem Dev.memoryWf_podWrite (d : Dev) (p off : Nat) (bs : List Byte) (h : d.memoryWf = true) : (d.podWrite p off bs).memoryWf = true := by
  rw [Dev.memoryWf_iff] at h ⊢
  exact ⟨h.1, Memory.wf_setBytes _ _ _ h.2.1, h.2.2⟩

theorem Dev.memoryWf_wipeCells (d : Dev) (gone : Nat → Bool) (h : d.memoryWf = true) : (d.wipeCells gone).memoryWf = true := by
  rw [Dev.memoryWf_iff] at h ⊢
  exact ⟨Memory.wf_filter _ _ h.1, h.2⟩

theorem Dev.memoryWf_wipePod (d : Dev) (p : Nat) (h : d.memoryWf = true) : (d.wipePod p).memoryWf = true := by
  rw [Dev.memoryWf_iff] at h ⊢
  exact ⟨h.1, Memory.wf_filter _ _ h.2.1, h.2.2⟩

theorem Dev.memoryWf_reset : Dev.reset.memoryWf = true := rfl

end Sys2Proof.Machine
end

