-- ==== Sys2Proof/Laws/PerInstr.lean ====
section
/-! SUPPORT. Facts about every command as syntax. Family Entry: a Pequel command of the table carries at most the 12 parameters its 64-byte
entry has room for (R73). -/

namespace Sys2Proof.Laws

/-- The submission-queue entry a row names. -/
def Entry.command : Instr → Option PqCmd
  | .deviceInfo c => some c
  | .deviceRestart c => some c
  | .healthRead c => some c
  | .upqBind c => some c
  | .eventMask c => some c
  | .echo c => some c
  | .carrierAdd c => some c
  | .carrierModify c => some c
  | .carrierRemove c => some c
  | .carrierStatus c => some c
  | .nbChannelAdd c => some c
  | .nbChannelRemove c => some c
  | .planPost c _ => some c
  | .planCancel c => some c
  | .weightsLoad c _ => some c
  | .weightsFree c => some c
  | .calRun c => some c
  | .calStatus c => some c
  | .calAuto c => some c
  | .dpdBankSelect c => some c
  | .timeGet c => some c
  | .timeSource c => some c
  | .timeStep c => some c
  | .timelineSet c => some c
  | .timelineEnable c => some c
  | .synceSet c => some c
  | .powerSet c => some c
  | .powerStatus c => some c
  | .park c _ => some c
  | .thermalStatus c => some c
  | .powerCap c => some c
  | .twinAttach c => some c
  | .twinDetach c => some c
  | .twinStatus c => some c
  | .twinSwap c => some c
  | .recConfig c => some c
  | .recStart c => some c
  | .recTrigger c => some c
  | .recStatus c => some c
  | .recReplay c => some c
  | .fwStage c _ => some c
  | .fwSwitch c => some c
  | .podDrain c => some c
  | .podLoad c _ => some c
  | .podReturn c => some c
  | .coreSpare c => some c
  | .laneLoopback c => some c
  | .lanePattern c => some c
  | .eyeScan c => some c
  | .ledgerSnapshot c => some c
  | .statsRead c => some c
  | .txnOpen c => some c
  | .txnAdd c _ => some c
  | .txnArm c => some c
  | .txnCancel c => some c
  | .txnReport c => some c
  | _ => none

/-- The command a well-formed row names has at most 12 parameters. -/
def Entry.Statement (i : Instr) : Prop := ∀ c, Entry.command i = some c → i.wf = true → c.params.length ≤ 12

theorem Entry.of_none {i : Instr} (h : Entry.command i = none) : Entry.Statement i := fun c hc => by simp [h] at hc
theorem Entry.of_command {i : Instr} {c : PqCmd} (h : Entry.command i = some c) (hw : i.wf = true → c.wf = true) : Entry.Statement i := by
  intro d hd w
  rw [h] at hd
  cases hd
  simpa [PqCmd.wf] using hw w

theorem Entry.boundaryEvent : Entry.Statement (.boundaryEvent) := Entry.of_none rfl
theorem Entry.podRelease (p : Fin 12) (n : Fin 4) : Entry.Statement (.podRelease p n) := Entry.of_none rfl
theorem Entry.timelineEnableWrite (init : Initiator) (n : Fin 4) (value : Word) : Entry.Statement (.timelineEnableWrite init n value) := Entry.of_none rfl
theorem Entry.timelineDisableWrite (init : Initiator) (n : Fin 4) (value : Word) : Entry.Statement (.timelineDisableWrite init n value) := Entry.of_none rfl
theorem Entry.hungCoreDeclare (c : Fin 108) : Entry.Statement (.hungCoreDeclare c) := Entry.of_none rfl
theorem Entry.hungCoreRecovery (c : Fin 108) (passed : Bool) : Entry.Statement (.hungCoreRecovery c passed) := Entry.of_none rfl
theorem Entry.sqDoorbell (init : Initiator) (pair : Fin 80) (value : Word) : Entry.Statement (.sqDoorbell init pair value) := Entry.of_none rfl
theorem Entry.cqHeadDoorbell (init : Initiator) (pair : Fin 80) (value : Word) : Entry.Statement (.cqHeadDoorbell init pair value) := Entry.of_none rfl
theorem Entry.commandFetch (q : Fin 16) (entry : List Byte × BitVec 16) : Entry.Statement (.commandFetch q entry) := Entry.of_none rfl
theorem Entry.queueEnable (init : Initiator) (pair : Fin 80) (value : Word) : Entry.Statement (.queueEnable init pair value) := Entry.of_none rfl
theorem Entry.queueDisable (init : Initiator) (pair : Fin 80) (value : Word) : Entry.Statement (.queueDisable init pair value) := Entry.of_none rfl
theorem Entry.msixCoalTimer (pair : Fin 80) : Entry.Statement (.msixCoalTimer pair) := Entry.of_none rfl
theorem Entry.eventBacklogPost : Entry.Statement (.eventBacklogPost) := Entry.of_none rfl
theorem Entry.upCompletionRelease (m : Fin 64) : Entry.Statement (.upCompletionRelease m) := Entry.of_none rfl
theorem Entry.pcieReset : Entry.Statement (.pcieReset) := Entry.of_none rfl
theorem Entry.deviceInfo (c : PqCmd) : Entry.Statement (.deviceInfo c) := Entry.of_command rfl (fun h => h)
theorem Entry.deviceRestart (c : PqCmd) : Entry.Statement (.deviceRestart c) := Entry.of_command rfl (fun h => h)
theorem Entry.healthRead (c : PqCmd) : Entry.Statement (.healthRead c) := Entry.of_command rfl (fun h => h)
theorem Entry.upqBind (c : PqCmd) : Entry.Statement (.upqBind c) := Entry.of_command rfl (fun h => h)
theorem Entry.eventMask (c : PqCmd) : Entry.Statement (.eventMask c) := Entry.of_command rfl (fun h => h)
theorem Entry.echo (c : PqCmd) : Entry.Statement (.echo c) := Entry.of_command rfl (fun h => h)
theorem Entry.carrierAdd (c : PqCmd) : Entry.Statement (.carrierAdd c) := Entry.of_command rfl (fun h => h)
theorem Entry.carrierModify (c : PqCmd) : Entry.Statement (.carrierModify c) := Entry.of_command rfl (fun h => h)
theorem Entry.carrierRemove (c : PqCmd) : Entry.Statement (.carrierRemove c) := Entry.of_command rfl (fun h => h)
theorem Entry.carrierStatus (c : PqCmd) : Entry.Statement (.carrierStatus c) := Entry.of_command rfl (fun h => h)
theorem Entry.nbChannelAdd (c : PqCmd) : Entry.Statement (.nbChannelAdd c) := Entry.of_command rfl (fun h => h)
theorem Entry.nbChannelRemove (c : PqCmd) : Entry.Statement (.nbChannelRemove c) := Entry.of_command rfl (fun h => h)
theorem Entry.planPost (c : PqCmd) (recs : List Byte) : Entry.Statement (.planPost c recs) := Entry.of_command rfl (fun h => h)
theorem Entry.planCancel (c : PqCmd) : Entry.Statement (.planCancel c) := Entry.of_command rfl (fun h => h)
theorem Entry.weightsLoad (c : PqCmd) (data : List Byte) : Entry.Statement (.weightsLoad c data) := Entry.of_command rfl (fun h => h)
theorem Entry.weightsFree (c : PqCmd) : Entry.Statement (.weightsFree c) := Entry.of_command rfl (fun h => h)
theorem Entry.graphBuild (n : Fin 4) (air : BitVec 16) (graphs : List (List Byte)) : Entry.Statement (.graphBuild n air graphs) := Entry.of_none rfl
theorem Entry.calRun (c : PqCmd) : Entry.Statement (.calRun c) := Entry.of_command rfl (fun h => h)
theorem Entry.calStatisticDone (kind : Fin 4) (target : Fin 112) (linkDown : Bool) (fig : Word) (stat : List Word) : Entry.Statement (.calStatisticDone kind target linkDown fig stat) := Entry.of_none rfl
theorem Entry.calTimeLimit (kind : Fin 4) (target : Fin 112) : Entry.Statement (.calTimeLimit kind target) := Entry.of_none rfl
theorem Entry.calVerifyDone (kind : Fin 4) (target : Fin 112) (measured : Word × List Word) : Entry.Statement (.calVerifyDone kind target measured) := Entry.of_none rfl
theorem Entry.alignExcitation (elt : Fin 64) : Entry.Statement (.alignExcitation elt) := Entry.of_none rfl
theorem Entry.calStatus (c : PqCmd) : Entry.Statement (.calStatus c) := Entry.of_command rfl (fun h => h)
theorem Entry.calAuto (c : PqCmd) : Entry.Statement (.calAuto c) := Entry.of_command rfl (fun h => h)
theorem Entry.calAutoRun (kind : Fin 4) : Entry.Statement (.calAutoRun kind) := Entry.of_none rfl
theorem Entry.dpdBankSelect (c : PqCmd) : Entry.Statement (.dpdBankSelect c) := Entry.of_command rfl (fun h => h)
theorem Entry.timeGet (c : PqCmd) : Entry.Statement (.timeGet c) := Entry.of_command rfl (fun h => h)
theorem Entry.timeSource (c : PqCmd) : Entry.Statement (.timeSource c) := Entry.of_command rfl (fun h => h)
theorem Entry.timeStep (c : PqCmd) : Entry.Statement (.timeStep c) := Entry.of_command rfl (fun h => h)
theorem Entry.timelineSet (c : PqCmd) : Entry.Statement (.timelineSet c) := Entry.of_command rfl (fun h => h)
theorem Entry.timelineEnable (c : PqCmd) : Entry.Statement (.timelineEnable c) := Entry.of_command rfl (fun h => h)
theorem Entry.synceSet (c : PqCmd) : Entry.Statement (.synceSet c) := Entry.of_command rfl (fun h => h)
theorem Entry.powerSet (c : PqCmd) : Entry.Statement (.powerSet c) := Entry.of_command rfl (fun h => h)
theorem Entry.powerStatus (c : PqCmd) : Entry.Statement (.powerStatus c) := Entry.of_command rfl (fun h => h)
theorem Entry.park (c : PqCmd) (wake : Option (BitVec 8)) : Entry.Statement (.park c wake) := Entry.of_command rfl (fun h => h)
theorem Entry.parkWake (src : BitVec 8) : Entry.Statement (.parkWake src) := Entry.of_none rfl
theorem Entry.thermalStatus (c : PqCmd) : Entry.Statement (.thermalStatus c) := Entry.of_command rfl (fun h => h)
theorem Entry.powerCap (c : PqCmd) : Entry.Statement (.powerCap c) := Entry.of_command rfl (fun h => h)
theorem Entry.twinAttach (c : PqCmd) : Entry.Statement (.twinAttach c) := Entry.of_command rfl (fun h => h)
theorem Entry.twinAttachComplete (same partnerTl : Bool) (partnerActive : Bool) (partnerId : BitVec 64) (regs : List (BitVec 28 × Word)) (wins : List (Fin 16 × List WindowTag)) (cars : List (Fin 256 × Fin 4 × Bool × List Word)) (cmds : List (Fin 16 × List Byte)) : Entry.Statement (.twinAttachComplete same partnerTl partnerActive partnerId regs wins cars cmds) := Entry.of_none rfl
theorem Entry.twinDetach (c : PqCmd) : Entry.Statement (.twinDetach c) := Entry.of_command rfl (fun h => h)
theorem Entry.twinStatus (c : PqCmd) : Entry.Statement (.twinStatus c) := Entry.of_command rfl (fun h => h)
theorem Entry.twinSwap (c : PqCmd) : Entry.Statement (.twinSwap c) := Entry.of_command rfl (fun h => h)
theorem Entry.recConfig (c : PqCmd) : Entry.Statement (.recConfig c) := Entry.of_command rfl (fun h => h)
theorem Entry.recStart (c : PqCmd) : Entry.Statement (.recStart c) := Entry.of_command rfl (fun h => h)
theorem Entry.recTrigger (c : PqCmd) : Entry.Statement (.recTrigger c) := Entry.of_command rfl (fun h => h)
theorem Entry.recStatus (c : PqCmd) : Entry.Statement (.recStatus c) := Entry.of_command rfl (fun h => h)
theorem Entry.recFreeze : Entry.Statement (.recFreeze) := Entry.of_none rfl
theorem Entry.recReplay (c : PqCmd) : Entry.Statement (.recReplay c) := Entry.of_command rfl (fun h => h)
theorem Entry.replayPeriodRelease (graphs : List (List Byte)) (order : List (Nat × Fin 108)) : Entry.Statement (.replayPeriodRelease graphs order) := Entry.of_none rfl
theorem Entry.replayComplete (results digests : List (Option Word)) : Entry.Statement (.replayComplete results digests) := Entry.of_none rfl
theorem Entry.bar4Write (off : BitVec 24) (data : List Byte) : Entry.Statement (.bar4Write off data) := Entry.of_none rfl
theorem Entry.fwStage (c : PqCmd) (image : List Byte) : Entry.Statement (.fwStage c image) := Entry.of_command rfl (fun h => h)
theorem Entry.fwStageComplete : Entry.Statement (.fwStageComplete) := Entry.of_none rfl
theorem Entry.fwSwitch (c : PqCmd) : Entry.Statement (.fwSwitch c) := Entry.of_command rfl (fun h => h)
theorem Entry.podDrain (c : PqCmd) : Entry.Statement (.podDrain c) := Entry.of_command rfl (fun h => h)
theorem Entry.podDrainComplete (p : Fin 12) : Entry.Statement (.podDrainComplete p) := Entry.of_none rfl
theorem Entry.podLoad (c : PqCmd) (image : List Byte) : Entry.Statement (.podLoad c image) := Entry.of_command rfl (fun h => h)
theorem Entry.podLoadComplete (p : Fin 12) : Entry.Statement (.podLoadComplete p) := Entry.of_none rfl
theorem Entry.podReturn (c : PqCmd) : Entry.Statement (.podReturn c) := Entry.of_command rfl (fun h => h)
theorem Entry.coreSpare (c : PqCmd) : Entry.Statement (.coreSpare c) := Entry.of_command rfl (fun h => h)
theorem Entry.laneLoopback (c : PqCmd) : Entry.Statement (.laneLoopback c) := Entry.of_command rfl (fun h => h)
theorem Entry.lanePattern (c : PqCmd) : Entry.Statement (.lanePattern c) := Entry.of_command rfl (fun h => h)
theorem Entry.eyeScan (c : PqCmd) : Entry.Statement (.eyeScan c) := Entry.of_command rfl (fun h => h)
theorem Entry.eyeScanComplete (lane : Fin 112) (pts : BitVec 128) : Entry.Statement (.eyeScanComplete lane pts) := Entry.of_none rfl
theorem Entry.ledgerSnapshot (c : PqCmd) : Entry.Statement (.ledgerSnapshot c) := Entry.of_command rfl (fun h => h)
theorem Entry.statsRead (c : PqCmd) : Entry.Statement (.statsRead c) := Entry.of_command rfl (fun h => h)
theorem Entry.txnOpen (c : PqCmd) : Entry.Statement (.txnOpen c) := Entry.of_command rfl (fun h => h)
theorem Entry.txnAdd (c : PqCmd) (data : List Byte) : Entry.Statement (.txnAdd c data) := Entry.of_command rfl (fun h => h)
theorem Entry.txnArm (c : PqCmd) : Entry.Statement (.txnArm c) := Entry.of_command rfl (fun h => h)
theorem Entry.txnCancel (c : PqCmd) : Entry.Statement (.txnCancel c) := Entry.of_command rfl (fun h => h)
theorem Entry.txnReport (c : PqCmd) : Entry.Statement (.txnReport c) := Entry.of_command rfl (fun h => h)
theorem Entry.dlTb (m : Fin 64) (entry data : List Byte) (dst : BitVec 40) : Entry.Statement (.dlTb m entry data dst) := Entry.of_none rfl
theorem Entry.ulBuf (m : Fin 64) (entry : List Byte) : Entry.Statement (.ulBuf m entry) := Entry.of_none rfl
theorem Entry.nbTx (m : Fin 64) (entry data : List Byte) : Entry.Statement (.nbTx m entry data) := Entry.of_none rfl
theorem Entry.ulTbResult (n : Fin 4) (air : BitVec 16) (alloc : Fin 2048) (crcOk : Bool) (iters : Byte) (cbs fails : BitVec 16) (data : List Byte) : Entry.Statement (.ulTbResult n air alloc crcOk iters cbs fails data) := Entry.of_none rfl
theorem Entry.hostDataLanded : Entry.Statement (.hostDataLanded) := Entry.of_none rfl
theorem Entry.handout : Entry.Statement (.handout) := Entry.of_none rfl
theorem Entry.graceExpiry (slot : Fin 16384) : Entry.Statement (.graceExpiry slot) := Entry.of_none rfl
theorem Entry.flowAffinityReset (flow : Fin 65536) : Entry.Statement (.flowAffinityReset flow) := Entry.of_none rfl
theorem Entry.wdsEnableWrite (init : Initiator) (value : Word) : Entry.Statement (.wdsEnableWrite init value) := Entry.of_none rfl
theorem Entry.podModeWrite (init : Initiator) (p : Fin 12) (value : Word) : Entry.Statement (.podModeWrite init p value) := Entry.of_none rfl
theorem Entry.coreMaskWrite (init : Initiator) (p : Fin 12) (value : Word) (hw : BitVec 9) : Entry.Statement (.coreMaskWrite init p value hw) := Entry.of_none rfl
theorem Entry.sop (c : Fin 108) (w : Word) : Entry.Statement (.sop c w) := Entry.of_none rfl
theorem Entry.addi (c : Fin 108) (w : Word) : Entry.Statement (.addi c w) := Entry.of_none rfl
theorem Entry.andi (c : Fin 108) (w : Word) : Entry.Statement (.andi c w) := Entry.of_none rfl
theorem Entry.ori (c : Fin 108) (w : Word) : Entry.Statement (.ori c w) := Entry.of_none rfl
theorem Entry.xori (c : Fin 108) (w : Word) : Entry.Statement (.xori c w) := Entry.of_none rfl
theorem Entry.lui (c : Fin 108) (w : Word) : Entry.Statement (.lui c w) := Entry.of_none rfl
theorem Entry.slti (c : Fin 108) (w : Word) : Entry.Statement (.slti c w) := Entry.of_none rfl
theorem Entry.paddi (c : Fin 108) (w : Word) : Entry.Statement (.paddi c w) := Entry.of_none rfl
theorem Entry.pmov (c : Fin 108) (w : Word) : Entry.Statement (.pmov c w) := Entry.of_none rfl
theorem Entry.pget (c : Fin 108) (w : Word) : Entry.Statement (.pget c w) := Entry.of_none rfl
theorem Entry.mset (c : Fin 108) (w : Word) : Entry.Statement (.mset c w) := Entry.of_none rfl
theorem Entry.mseti (c : Fin 108) (w : Word) : Entry.Statement (.mseti c w) := Entry.of_none rfl
theorem Entry.beq (c : Fin 108) (w : Word) (young : Nat) : Entry.Statement (.beq c w young) := Entry.of_none rfl
theorem Entry.bne (c : Fin 108) (w : Word) (young : Nat) : Entry.Statement (.bne c w young) := Entry.of_none rfl
theorem Entry.blt (c : Fin 108) (w : Word) (young : Nat) : Entry.Statement (.blt c w young) := Entry.of_none rfl
theorem Entry.bge (c : Fin 108) (w : Word) (young : Nat) : Entry.Statement (.bge c w young) := Entry.of_none rfl
theorem Entry.jmp (c : Fin 108) (w : Word) : Entry.Statement (.jmp c w) := Entry.of_none rfl
theorem Entry.call (c : Fin 108) (w : Word) : Entry.Statement (.call c w) := Entry.of_none rfl
theorem Entry.jr (c : Fin 108) (w : Word) (young : Nat) : Entry.Statement (.jr c w young) := Entry.of_none rfl
theorem Entry.loop (c : Fin 108) (w : Word) : Entry.Statement (.loop c w) := Entry.of_none rfl
theorem Entry.loopi (c : Fin 108) (w : Word) : Entry.Statement (.loopi c w) := Entry.of_none rfl
theorem Entry.rfe (c : Fin 108) (w : Word) : Entry.Statement (.rfe c w) := Entry.of_none rfl
theorem Entry.ldw (c : Fin 108) (w : Word) : Entry.Statement (.ldw c w) := Entry.of_none rfl
theorem Entry.ldc (c : Fin 108) (w : Word) : Entry.Statement (.ldc c w) := Entry.of_none rfl
theorem Entry.stw (c : Fin 108) (w : Word) : Entry.Statement (.stw c w) := Entry.of_none rfl
theorem Entry.stc (c : Fin 108) (w : Word) : Entry.Statement (.stc c w) := Entry.of_none rfl
theorem Entry.ldf (c : Fin 108) (w : Word) : Entry.Statement (.ldf c w) := Entry.of_none rfl
theorem Entry.stf (c : Fin 108) (w : Word) : Entry.Statement (.stf c w) := Entry.of_none rfl
theorem Entry.vld (c : Fin 108) (w : Word) : Entry.Statement (.vld c w) := Entry.of_none rfl
theorem Entry.vst (c : Fin 108) (w : Word) : Entry.Statement (.vst c w) := Entry.of_none rfl
theorem Entry.vspl2 (c : Fin 108) (w : Word) : Entry.Statement (.vspl2 c w) := Entry.of_none rfl
theorem Entry.vspl3 (c : Fin 108) (w : Word) : Entry.Statement (.vspl3 c w) := Entry.of_none rfl
theorem Entry.vspl4 (c : Fin 108) (w : Word) : Entry.Statement (.vspl4 c w) := Entry.of_none rfl
theorem Entry.vgath (c : Fin 108) (w : Word) : Entry.Statement (.vgath c w) := Entry.of_none rfl
theorem Entry.vscat (c : Fin 108) (w : Word) : Entry.Statement (.vscat c w) := Entry.of_none rfl
theorem Entry.vop (c : Fin 108) (w : Word) : Entry.Statement (.vop c w) := Entry.of_none rfl
theorem Entry.vmac (c : Fin 108) (w : Word) : Entry.Statement (.vmac c w) := Entry.of_none rfl
theorem Entry.vmacs (c : Fin 108) (w : Word) : Entry.Statement (.vmacs c w) := Entry.of_none rfl
theorem Entry.ftap (c : Fin 108) (w : Word) : Entry.Statement (.ftap c w) := Entry.of_none rfl
theorem Entry.vext (c : Fin 108) (w : Word) : Entry.Statement (.vext c w) := Entry.of_none rfl
theorem Entry.acclr (c : Fin 108) (w : Word) : Entry.Statement (.acclr c w) := Entry.of_none rfl
theorem Entry.acmode (c : Fin 108) (w : Word) : Entry.Statement (.acmode c w) := Entry.of_none rfl
theorem Entry.acmov (c : Fin 108) (w : Word) : Entry.Statement (.acmov c w) := Entry.of_none rfl
theorem Entry.acexp (c : Fin 108) (w : Word) : Entry.Statement (.acexp c w) := Entry.of_none rfl
theorem Entry.norm (c : Fin 108) (w : Word) : Entry.Statement (.norm c w) := Entry.of_none rfl
theorem Entry.dma (c : Fin 108) (w : Word) : Entry.Statement (.dma c w) := Entry.of_none rfl
theorem Entry.dmaComplete (c : Fin 108) (ticket : Fin 16) : Entry.Statement (.dmaComplete c ticket) := Entry.of_none rfl
theorem Entry.dmawait (c : Fin 108) (w : Word) : Entry.Statement (.dmawait c w) := Entry.of_none rfl
theorem Entry.waitjob (c : Fin 108) (w : Word) : Entry.Statement (.waitjob c w) := Entry.of_none rfl
theorem Entry.jobchk (c : Fin 108) (w : Word) : Entry.Statement (.jobchk c w) := Entry.of_none rfl
theorem Entry.jobdone (c : Fin 108) (w : Word) : Entry.Statement (.jobdone c w) := Entry.of_none rfl
theorem Entry.wait (c : Fin 108) (w : Word) : Entry.Statement (.wait c w) := Entry.of_none rfl
theorem Entry.coreWake (cause : Fin 108 × Bool) : Entry.Statement (.coreWake cause) := Entry.of_none rfl
theorem Entry.mfc (c : Fin 108) (w : Word) : Entry.Statement (.mfc c w) := Entry.of_none rfl
theorem Entry.mtc (c : Fin 108) (w : Word) : Entry.Statement (.mtc c w) := Entry.of_none rfl
theorem Entry.mbar (c : Fin 108) (w : Word) : Entry.Statement (.mbar c w) := Entry.of_none rfl
theorem Entry.cpxDec (c : Fin 108) (w : Word) (ahead : List Word × Word) : Entry.Statement (.cpxDec c w ahead) := Entry.of_none rfl
theorem Entry.cpxXfm (c : Fin 108) (w : Word) (ahead : List Word × Word) : Entry.Statement (.cpxXfm c w ahead) := Entry.of_none rfl
theorem Entry.cpxMat (c : Fin 108) (w : Word) (ahead : List Word × Word) : Entry.Statement (.cpxMat c w ahead) := Entry.of_none rfl
theorem Entry.bkpt (c : Fin 108) (w : Word) : Entry.Statement (.bkpt c w) := Entry.of_none rfl
theorem Entry.coreRunWrite (init : Initiator) (c : Fin 108) (value : Word) : Entry.Statement (.coreRunWrite init c value) := Entry.of_none rfl
theorem Entry.coreReset (init : Initiator) (c : Fin 108) (value : Word) : Entry.Statement (.coreReset init c value) := Entry.of_none rfl
theorem Entry.coreDoorbell (init : Initiator) (c : Fin 108) (value : Word) : Entry.Statement (.coreDoorbell init c value) := Entry.of_none rfl
theorem Entry.ldpcDec (p : Fin 12) (seq : Nat) (descErr : Bool) : Entry.Statement (.ldpcDec p seq descErr) := Entry.of_none rfl
theorem Entry.turboDec (p : Fin 12) (seq : Nat) (descErr : Bool) : Entry.Statement (.turboDec p seq descErr) := Entry.of_none rfl
theorem Entry.polarDec (p : Fin 12) (seq : Nat) (descErr : Bool) : Entry.Statement (.polarDec p seq descErr) := Entry.of_none rfl
theorem Entry.convDec (p : Fin 12) (seq : Nat) (descErr : Bool) : Entry.Statement (.convDec p seq descErr) := Entry.of_none rfl
theorem Entry.ldpcEnc (p : Fin 12) (seq : Nat) (descErr : Bool) : Entry.Statement (.ldpcEnc p seq descErr) := Entry.of_none rfl
theorem Entry.turboEnc (p : Fin 12) (seq : Nat) (descErr : Bool) : Entry.Statement (.turboEnc p seq descErr) := Entry.of_none rfl
theorem Entry.polarEnc (p : Fin 12) (seq : Nat) (descErr : Bool) : Entry.Statement (.polarEnc p seq descErr) := Entry.of_none rfl
theorem Entry.convEnc (p : Fin 12) (seq : Nat) (descErr : Bool) : Entry.Statement (.convEnc p seq descErr) := Entry.of_none rfl
theorem Entry.dft (p : Fin 12) (seq : Nat) (descErr : Bool) : Entry.Statement (.dft p seq descErr) := Entry.of_none rfl
theorem Entry.idft (p : Fin 12) (seq : Nat) (descErr : Bool) : Entry.Statement (.idft p seq descErr) := Entry.of_none rfl
theorem Entry.mmse (p : Fin 12) (seq : Nat) (descErr : Bool) : Entry.Statement (.mmse p seq descErr) := Entry.of_none rfl
theorem Entry.chol (p : Fin 12) (seq : Nat) (descErr : Bool) : Entry.Statement (.chol p seq descErr) := Entry.of_none rfl
theorem Entry.qr (p : Fin 12) (seq : Nat) (descErr : Bool) : Entry.Statement (.qr p seq descErr) := Entry.of_none rfl
theorem Entry.cpxRecordWrite (p : Fin 12) (seq : Nat) (lost : Bool) : Entry.Statement (.cpxRecordWrite p seq lost) := Entry.of_none rfl
theorem Entry.cpxCtlWrite (init : Initiator) (p : Fin 12) (value : Word) : Entry.Statement (.cpxCtlWrite init p value) := Entry.of_none rfl
theorem Entry.harqSlotAlloc (init : Initiator) (p : Fin 2) (value : Word) (proc : Option (Fin 256 × Fin 32)) : Entry.Statement (.harqSlotAlloc init p value proc) := Entry.of_none rfl
theorem Entry.harqSlotFree (init : Initiator) (p : Fin 2) (value : Word) : Entry.Statement (.harqSlotFree init p value) := Entry.of_none rfl
theorem Entry.txSymbolFetch (c : Fin 256) (l : Fin 14) (air : BitVec 16) (tl : Fin 4) (central : Bool) (off : BitVec 40) : Entry.Statement (.txSymbolFetch c l air tl central off) := Entry.of_none rfl
theorem Entry.rxSymbolComplete (c : Fin 256) (l : Fin 14) (air : BitVec 16) (slot : BitVec 40) (inputs : List (List (BitVec 24))) : Entry.Statement (.rxSymbolComplete c l air slot inputs) := Entry.of_none rfl
theorem Entry.prachOccasion (x : Fin 32) : Entry.Statement (.prachOccasion x) := Entry.of_none rfl
theorem Entry.prachDone (x : Fin 32) (inputs : List (List (BitVec 24))) : Entry.Statement (.prachDone x inputs) := Entry.of_none rfl
theorem Entry.orxCapture (chain : Fin 64) (start : Nat) (len : Fin 65537) (dst : BitVec 40) : Entry.Statement (.orxCapture chain start len dst) := Entry.of_none rfl
theorem Entry.orxCaptureDone (k : Fin 8) (seen : List (BitVec 24)) : Entry.Statement (.orxCaptureDone k seen) := Entry.of_none rfl
theorem Entry.rfLineEdge (l : Fin 64) (ns : Nat) : Entry.Statement (.rfLineEdge l ns) := Entry.of_none rfl
theorem Entry.gevAction (e : Fin 256) : Entry.Statement (.gevAction e) := Entry.of_none rfl
theorem Entry.dpdArm (init : Initiator) (t : Fin 64) (value : Word) : Entry.Statement (.dpdArm init t value) := Entry.of_none rfl
theorem Entry.dfeCarrierEnable (init : Initiator) (c : Fin 256) (value : Word) : Entry.Statement (.dfeCarrierEnable init c value) := Entry.of_none rfl
theorem Entry.feTimeCheck (seen : BitVec 16 × List (Fin 64 × List (BitVec 24))) : Entry.Statement (.feTimeCheck seen) := Entry.of_none rfl
theorem Entry.jesdEnable (init : Initiator) (u : Fin 10) (value : Word) : Entry.Statement (.jesdEnable init u value) := Entry.of_none rfl
theorem Entry.sysrefEdge (ticks : Nat) : Entry.Statement (.sysrefEdge ticks) := Entry.of_none rfl
theorem Entry.jesdLinkUp (u : Fin 10) (link : Fin 12) : Entry.Statement (.jesdLinkUp u link) := Entry.of_none rfl
theorem Entry.jesdLinkDown (u : Fin 10) (lane : Fin 12 × Bool) (shErr crcErr : Word) : Entry.Statement (.jesdLinkDown u lane shErr crcErr) := Entry.of_none rfl
theorem Entry.laneRemap (u : Fin 10) : Entry.Statement (.laneRemap u) := Entry.of_none rfl
theorem Entry.nbSymbolEnd (n : Fin 256) (ins : List (BitVec 24)) (gains : List Word) (prim shad : BitVec 16) (mag : Byte) (gain : Word) (ferr quarter level : BitVec 16) : Entry.Statement (.nbSymbolEnd n ins gains prim shad mag gain ferr quarter level) := Entry.of_none rfl
theorem Entry.nbFloorUpdate (n : Fin 256) (p : BitVec 16) : Entry.Statement (.nbFloorUpdate n p) := Entry.of_none rfl
theorem Entry.nbRxReport : Entry.Statement (.nbRxReport) := Entry.of_none rfl
theorem Entry.nbTxStart (n : Fin 256) : Entry.Statement (.nbTxStart n) := Entry.of_none rfl
theorem Entry.nbTxDone (n : Fin 256) (tag : BitVec 16) : Entry.Statement (.nbTxDone n tag) := Entry.of_none rfl
theorem Entry.gsmBurstRx (n : Fin 256) (tsc : Fin 8) (pick level ferr : BitVec 16) (up : Bool) (seen : List (BitVec 24) × Word × List Byte) : Entry.Statement (.gsmBurstRx n tsc pick level ferr up seen) := Entry.of_none rfl
theorem Entry.nbChannelCtlWrite (init : Initiator) (n : Fin 256) (value : Word) : Entry.Statement (.nbChannelCtlWrite init n value) := Entry.of_none rfl
theorem Entry.ringInject (control : Bool) (src dst : Fin 28) (cls : Fin 4) (type : Fin 8) (txid : BitVec 16) (addr : BitVec 40) (tag : Option (Fin 16)) (len : Fin 257) (data : List Byte) : Entry.Statement (.ringInject control src dst cls type txid addr tag len data) := Entry.of_none rfl
theorem Entry.ringStarvation (st : Fin 28) : Entry.Statement (.ringStarvation st) := Entry.of_none rfl
theorem Entry.ringPacketAccept (ring : Fin 3) (src dst : Fin 28) (cls : Fin 4) (arrival : List (Fin 288 × Byte) × List (Fin 28)) (latency : BitVec 32) : Entry.Statement (.ringPacketAccept ring src dst cls arrival latency) := Entry.of_none rfl
theorem Entry.hopReplay (st : Fin 28) (ring : Fin 3) (ccw : Bool) (hit : List (Fin 28 × Fin 28 × Fin 4 × BitVec 16)) : Entry.Statement (.hopReplay st ring ccw hit) := Entry.of_none rfl
theorem Entry.ringRetry (ring : Fin 3) (src dst : Fin 28) (cls : Fin 4) : Entry.Statement (.ringRetry ring src dst cls) := Entry.of_none rfl
theorem Entry.ringBounce (st : Fin 28) : Entry.Statement (.ringBounce st) := Entry.of_none rfl
theorem Entry.epochFlip (init : Initiator) (value : Word) : Entry.Statement (.epochFlip init value) := Entry.of_none rfl
theorem Entry.epochDrained : Entry.Statement (.epochDrained) := Entry.of_none rfl
theorem Entry.stopDrained (st : Fin 28) : Entry.Statement (.stopDrained st) := Entry.of_none rfl
theorem Entry.stopBypass (init : Initiator) (st : Fin 28) (value : Word) : Entry.Statement (.stopBypass init st value) := Entry.of_none rfl
theorem Entry.stopBypassed (st : Fin 28) : Entry.Statement (.stopBypassed st) := Entry.of_none rfl
theorem Entry.stopRejoin (init : Initiator) (st : Fin 28) (value : Word) : Entry.Statement (.stopRejoin init st value) := Entry.of_none rfl
theorem Entry.ringStatsSample : Entry.Statement (.ringStatsSample) := Entry.of_none rfl
theorem Entry.cbfBufferAlloc (count : Fin 16385) (bind : Option (Fin 4 × BitVec 16 × Fin 4)) : Entry.Statement (.cbfBufferAlloc count bind) := Entry.of_none rfl
theorem Entry.cbfBufferFree (first : Fin 16384) : Entry.Statement (.cbfBufferFree first) := Entry.of_none rfl
theorem Entry.scrubRead (addr : BitVec 40) (arisen : List (Fin 10 × Fin 72)) : Entry.Statement (.scrubRead addr arisen) := Entry.of_none rfl
theorem Entry.ddrHot (k : Fin 4) : Entry.Statement (.ddrHot k) := Entry.of_none rfl
theorem Entry.memEnableWrite (init : Initiator) (value : Word) : Entry.Statement (.memEnableWrite init value) := Entry.of_none rfl
theorem Entry.laneLost (lane : Fin 112) : Entry.Statement (.laneLost lane) := Entry.of_none rfl
theorem Entry.laneRestored (lane : Fin 112) : Entry.Statement (.laneRestored lane) := Entry.of_none rfl
theorem Entry.crxLock (lane : Fin 32) : Entry.Statement (.crxLock lane) := Entry.of_none rfl
theorem Entry.ethLinkBringup (k : Fin 16) (step : Fin 5) : Entry.Statement (.ethLinkBringup k step) := Entry.of_none rfl
theorem Entry.ethTrainRequest (lane : Fin 16) (tap : Fin 4) (up : Bool) : Entry.Statement (.ethTrainRequest lane tap up) := Entry.of_none rfl
theorem Entry.twinLinkTrain (partner : Fin 3) : Entry.Statement (.twinLinkTrain partner) := Entry.of_none rfl
theorem Entry.twinLinkFallback : Entry.Statement (.twinLinkFallback) := Entry.of_none rfl
theorem Entry.pcieLinkTrain (gen : Fin 7) (w : Fin 4) (flit reversed : Bool) (ended : Fin 4 × Bool) : Entry.Statement (.pcieLinkTrain gen w flit reversed ended) := Entry.of_none rfl
theorem Entry.pcieEqPresetRequest (lane : Fin 8) (gen : Fin 7) (preset : Fin 11) : Entry.Statement (.pcieEqPresetRequest lane gen preset) := Entry.of_none rfl
theorem Entry.errorInject (lane : Fin 112) : Entry.Statement (.errorInject lane) := Entry.of_none rfl
theorem Entry.spcBankArm (init : Initiator) (lane : Fin 112) (value : Word) : Entry.Statement (.spcBankArm init lane value) := Entry.of_none rfl
theorem Entry.calBankArm (init : Initiator) (aln : Bool) (tgt : Fin 64) (value : Word) : Entry.Statement (.calBankArm init aln tgt value) := Entry.of_none rfl
theorem Entry.ethFrameRx (k : Fin 16) (frame : List Byte) (fcs : Bool) (plain : Option (List Byte)) (slot : BitVec 40) : Entry.Statement (.ethFrameRx k frame fcs plain slot) := Entry.of_none rfl
theorem Entry.ulWindowClose (c : Fin 256) (air : BitVec 16) (l : Fin 14) (slot : BitVec 40) : Entry.Statement (.ulWindowClose c air l slot) := Entry.of_none rfl
theorem Entry.dlSymbolFetch (c : Fin 256) (air : BitVec 16) (l : Fin 14) (slot : BitVec 40) (late : List (Fin 16 × Word)) : Entry.Statement (.dlSymbolFetch c air l slot late) := Entry.of_none rfl
theorem Entry.msgTxTailWrite (init : Initiator) (p : Fin 4) (q : Fin 4) (value : Word) : Entry.Statement (.msgTxTailWrite init p q value) := Entry.of_none rfl
theorem Entry.msgTxLaunch (p : Fin 4) (q : Fin 4) (late : Nat) : Entry.Statement (.msgTxLaunch p q late) := Entry.of_none rfl
theorem Entry.tsqPop (init : Initiator) (p : Fin 4) (value : Word) : Entry.Statement (.tsqPop init p value) := Entry.of_none rfl
theorem Entry.macsecSakInstall (k : Fin 16) (tx : Bool) (sci : BitVec 64) (an : Fin 4) (slot : Fin 16) : Entry.Statement (.macsecSakInstall k tx sci an slot) := Entry.of_none rfl
theorem Entry.ethCarrierEnable (init : Initiator) (c : Fin 256) (value : Word) : Entry.Statement (.ethCarrierEnable init c value) := Entry.of_none rfl
theorem Entry.tmuIncArm (init : Initiator) (value : Word) : Entry.Statement (.tmuIncArm init value) := Entry.of_none rfl
theorem Entry.tmuStepApply (init : Initiator) (value : Word) : Entry.Statement (.tmuStepApply init value) := Entry.of_none rfl
theorem Entry.tmuSnap (init : Initiator) (value : Word) : Entry.Statement (.tmuSnap init value) := Entry.of_none rfl
theorem Entry.ptpServoUpdate (behind : BitVec 64) : Entry.Statement (.ptpServoUpdate behind) := Entry.of_none rfl
theorem Entry.qualityChange (why : Fin 4) : Entry.Statement (.qualityChange why) := Entry.of_none rfl
theorem Entry.ppsInEdge : Entry.Statement (.ppsInEdge) := Entry.of_none rfl
theorem Entry.todRxMessage (format : Bool) (secs : BitVec 48) : Entry.Statement (.todRxMessage format secs) := Entry.of_none rfl
theorem Entry.ppsOutEdge : Entry.Statement (.ppsOutEdge) := Entry.of_none rfl
theorem Entry.todTxSend : Entry.Statement (.todTxSend) := Entry.of_none rfl
theorem Entry.refLoss (k : Fin 5) : Entry.Statement (.refLoss k) := Entry.of_none rfl
theorem Entry.refReturn (k : Fin 5) : Entry.Statement (.refReturn k) := Entry.of_none rfl
theorem Entry.por (supply : Bool) : Entry.Statement (.por supply) := Entry.of_none rfl
theorem Entry.coldReset : Entry.Statement (.coldReset) := Entry.of_none rfl
theorem Entry.warmReset : Entry.Statement (.warmReset) := Entry.of_none rfl
theorem Entry.tapReset : Entry.Statement (.tapReset) := Entry.of_none rfl
theorem Entry.domainEntry : Entry.Statement (.domainEntry) := Entry.of_none rfl
theorem Entry.ringDrainTimeout (st : Fin 28) : Entry.Statement (.ringDrainTimeout st) := Entry.of_none rfl
theorem Entry.domainSwitchOn : Entry.Statement (.domainSwitchOn) := Entry.of_none rfl
theorem Entry.domainOnDone (dom : Fin 80) : Entry.Statement (.domainOnDone dom) := Entry.of_none rfl
theorem Entry.thermalSample (raw : List (BitVec 12)) : Entry.Statement (.thermalSample raw) := Entry.of_none rfl
theorem Entry.thermalRestart (secs : BitVec 32) : Entry.Statement (.thermalRestart secs) := Entry.of_none rfl
theorem Entry.throttleStep : Entry.Statement (.throttleStep) := Entry.of_none rfl
theorem Entry.powerTelemetryPoll (rails : List (Option (BitVec 16 × BitVec 32))) : Entry.Statement (.powerTelemetryPoll rails) := Entry.of_none rfl
theorem Entry.avsLoop (slack : List (BitVec 10)) : Entry.Statement (.avsLoop slack) := Entry.of_none rfl
theorem Entry.lifetimeSecond : Entry.Statement (.lifetimeSecond) := Entry.of_none rfl
theorem Entry.lifetimeSave : Entry.Statement (.lifetimeSave) := Entry.of_none rfl
theorem Entry.supplyDeviation (rail : Fin 8) (level : Fin 4) : Entry.Statement (.supplyDeviation rail level) := Entry.of_none rfl
theorem Entry.boot (parity : Bool) : Entry.Statement (.boot parity) := Entry.of_none rfl
theorem Entry.recoveryGo (init : Initiator) (value : Word) (bar2 : List Byte) : Entry.Statement (.recoveryGo init value bar2) := Entry.of_none rfl
theorem Entry.securityAlarm (fired : BitVec 7) : Entry.Statement (.securityAlarm fired) := Entry.of_none rfl
theorem Entry.fuseResense (bad : Bool) : Entry.Statement (.fuseResense bad) := Entry.of_none rfl
theorem Entry.integrityCheck (differs : Bool) : Entry.Statement (.integrityCheck differs) := Entry.of_none rfl
theorem Entry.svnRaise : Entry.Statement (.svnRaise) := Entry.of_none rfl
theorem Entry.fuseProg (slot : Fin 7) (value : BitVec 384) : Entry.Statement (.fuseProg slot value) := Entry.of_none rfl
theorem Entry.secChallenge (level : Fin 4) : Entry.Statement (.secChallenge level) := Entry.of_none rfl
theorem Entry.secResponse (key sig : List Byte) (holds : List (Fin 80)) (fired : BitVec 7) : Entry.Statement (.secResponse key sig holds fired) := Entry.of_none rfl
theorem Entry.debugLockoutExpiry : Entry.Statement (.debugLockoutExpiry) := Entry.of_none rfl
theorem Entry.guardUnlock (init : Initiator) (value : Word) : Entry.Statement (.guardUnlock init value) := Entry.of_none rfl
theorem Entry.ledgerSnapStrobe (init : Initiator) (value : Word) : Entry.Statement (.ledgerSnapStrobe init value) := Entry.of_none rfl
theorem Entry.registerWrite (init : Initiator) (off : BitVec 28) (size : Fin 3) (value hw : Word) : Entry.Statement (.registerWrite init off size value hw) := Entry.of_none rfl
theorem Entry.regbusTimeout (init : Initiator) (off : BitVec 28) (write : Option Word) (taken : Bool) : Entry.Statement (.regbusTimeout init off write taken) := Entry.of_none rfl
theorem Entry.twinHeartbeatSend (sent heard : Bool) : Entry.Statement (.twinHeartbeatSend sent heard) := Entry.of_none rfl
theorem Entry.twinHeartbeatMiss (roleIn : Bool) : Entry.Statement (.twinHeartbeatMiss roleIn) := Entry.of_none rfl
theorem Entry.twinTakeover : Entry.Statement (.twinTakeover) := Entry.of_none rfl
theorem Entry.twinLinkLostTimeout : Entry.Statement (.twinLinkLostTimeout) := Entry.of_none rfl
theorem Entry.twinMirrorAck (q : Fin 16) (entry : List Byte) : Entry.Statement (.twinMirrorAck q entry) := Entry.of_none rfl
theorem Entry.twinOutcome (q : Fin 16) (tag status : BitVec 16) (res : List Word × List (BitVec 28 × Word)) : Entry.Statement (.twinOutcome q tag status res) := Entry.of_none rfl
theorem Entry.twinSlotCopy (p : Fin 2) (slot : Fin 65536) (bside : Bool) (half header : List Byte) : Entry.Statement (.twinSlotCopy p slot bside half header) := Entry.of_none rfl
theorem Entry.sealPoint : Entry.Statement (.sealPoint) := Entry.of_none rfl
theorem Entry.twinAttachTimeout : Entry.Statement (.twinAttachTimeout) := Entry.of_none rfl
theorem Entry.ledgerSnapshotPacked : Entry.Statement (.ledgerSnapshotPacked) := Entry.of_none rfl
theorem Entry.checkerLock (lane : Fin 112) : Entry.Statement (.checkerLock lane) := Entry.of_none rfl
theorem Entry.checkerLockLost (lane : Fin 112 × Bool) (errs mbits : BitVec 32) : Entry.Statement (.checkerLockLost lane errs mbits) := Entry.of_none rfl
theorem Entry.ddrHotClear (k : Fin 4) : Entry.Statement (.ddrHotClear k) := Entry.of_none rfl

end Sys2Proof.Laws
end

