-- ==== Sys2Proof/Tests/Slice0.lean ====
section
/-! SUPPORT. The model's own checks: what WellFormed refuses, single steps whose results the spec gives or hand calculation gives, and for
every statement concrete states and operands that meet its hypotheses, clause by clause (`witness_<Statement>`). -/

namespace Sys2Proof.Tests

open Sys2Proof.Machine

set_option Elab.async false

/-! ### Small states -/

/-- A device after reset in which the domains `ds` are in RUN and the fields `fs` hold the given values. -/
def tDev (ds : List Nat) (fs : List (Fld × Nat)) : Dev :=
  (ds.map (fun n => (PMU_PDd_STS_STATE n, 0)) ++ fs).foldl (fun d (x : Fld × Nat) => d.wf x.1 x.2) Dev.reset
/-- The state with that device. -/
def tSt (d : Dev) : State := { State.reset with dev := d }
/-- A command of queue 0 with these parameters. -/
def tCmd (ps : List Word) (flags : BitVec 16 := 0) (target : BitVec 16 := 0) : PqCmd := ⟨0, 7, flags, 0, target, ps⟩
/-- A command fetched and waiting to run. -/
def tRun (op : Nat) (c : PqCmd) : RunCmd := ⟨c, op, false, 0, false, 0, false, false, none, false⟩
/-- The state in which `c` is queue 0's next command. -/
def tWith (d : Dev) (op : Nat) (c : PqCmd) : State := tSt (d.updQp 0 fun q => { q with running := [tRun op c] })
/-- `c` is ready to run and the device that has begun it has property `p`. -/
def tReady (d : Dev) (op : Nat) (c : PqCmd) (p : Dev → Bool) : Bool := (tWith d op c).ready op c && p ((tWith d op c).began c)
/-- The register write was taken. -/
def tYes (r : Dev × Wrote) : Bool := match r.2 with | .yes _ => true | .no => false
/-- The strobes of a taken write. -/
def tCmds (r : Dev × Wrote) : Nat := match r.2 with | .yes n => n | .no => 0
/-- The answer is a next state with property `p`. -/
def tNext (r : Res) (p : State → Bool) : Bool := match r with | .next s => p s | _ => false
/-- Zero bytes. -/
def tZeros (n : Nat) : List Byte := List.replicate n 0

/-! ### WellFormed refuses what is no command of the device -/

theorem test_wf_opcode : (Instr.sop 0 0x04000000).wf = false := by decide +kernel
theorem test_wf_opcode_ok : (Instr.sop 0 0x00000000).wf = true := by decide +kernel
theorem test_wf_ac_fn : (Instr.acmov 0 0xB4000001).wf = false := by decide +kernel
theorem test_wf_entry : (Instr.commandFetch 0 (tZeros 63, 0)).wf = false := by decide +kernel
theorem test_wf_params : (Instr.echo (tCmd (List.replicate 13 0))).wf = false := by decide +kernel
theorem test_wf_target : (Instr.calTimeLimit 0 64).wf = false ∧ (Instr.calStatisticDone 1 64 false 0 []).wf = false ∧
    (Instr.calVerifyDone 2 64 (0, [])).wf = false ∧ (Instr.calTimeLimit 3 111).wf = true := by decide +kernel
theorem test_wf_attach : (Instr.twinAttachComplete true false false 0 [] [] [] [(0, tZeros 60)]).wf = false := by decide +kernel
theorem test_wf_bar4 : (Instr.bar4Write 0 []).wf = false ∧ (Instr.bar4Write 0xFFFFFF [0, 0]).wf = false := by decide +kernel
theorem test_wf_up : (Instr.dlTb 0 (tZeros 31) [] 0).wf = false ∧ (Instr.ulBuf 0 (tZeros 33)).wf = false ∧ (Instr.nbTx 0 [] []).wf = false := by decide +kernel
theorem test_wf_jesd : (Instr.jesdLinkUp 4 6).wf = false ∧ (Instr.jesdLinkDown 8 (3, false) 0 0).wf = false := by decide +kernel
theorem test_wf_burst : (Instr.gsmBurstRx 0 0 0 0 0 false ([], 0, tZeros 115)).wf = false := by decide +kernel
theorem test_wf_ring : (Instr.ringInject false 3 3 0 0 0 0 none 0 []).wf = false ∧ (Instr.ringInject false 3 4 0 0 0 0 none 8 [0]).wf = false := by decide +kernel
theorem test_wf_buffer : (Instr.cbfBufferAlloc 0 none).wf = false ∧ (Instr.scrubRead 32 []).wf = false := by decide +kernel
theorem test_wf_sensors : (Instr.thermalSample (List.replicate 59 0)).wf = false ∧ (Instr.powerTelemetryPoll []).wf = false ∧ (Instr.avsLoop []).wf = false := by
  decide +kernel
theorem test_wf_response : (Instr.secResponse (tZeros 96) (tZeros 95) [] 0).wf = false := by decide +kernel
theorem test_wf_twin : (Instr.twinMirrorAck 0 []).wf = false ∧ (Instr.twinSlotCopy 0 0 false [] (tZeros 64)).wf = false := by decide +kernel

/-! ### The step -/

theorem test_step_front : step { State.reset with pending := [.tapReset] } = exec .tapReset State.reset := rfl
theorem witness_WordsOfAnotherRow : (let w := (0x00000000 : Word); opDefined (opField w) = true ∧ opField w ≠ 0x01 ∧ opField w ≠ 0x29 ∧ opField w ≠ 0x2D ∧ opField w ≠ 0x10 ∧ opField w ≠ 0x3E ∧
    opField w ≠ 0x37) ∧ (opField 0xB4000003 = 0x2D ∧ acField 0xB4000003 = 3 ∧ opDefined 0x2D = true) ∧ opDefined (opField 0x1C000000) = false ∧
    (opField 0xB4000004 = 0x2D ∧ 4 ≤ acField 0xB4000004) ∧ acField 0xB4000000 = 0 := by decide +kernel
theorem witness_FusesStayBlown : ∃ t, step State.reset = .next t := ⟨_, rfl⟩

/-! ### DSP cores -/

/-- Core 0 of pod 0 runs, with the given scalar registers. -/
def tCore (rs : List (Nat × Word)) : State :=
  tSt ((tDev [0, 1, 2] [(POD_CORE_c_STS_STATE 0 0, 1)]).updCore 0 fun k => rs.foldl (fun k (r : Nat × Word) => k.setS r.1 r.2) k)
/-- Its scalar register `i` after a row. -/
def tS (r : Res) (i : Nat) (v : Word) : Bool := tNext r fun s => (s.dev.core 0).getS i == v
/-- A word from OP and the fields D [25:21], A [20:16], immediate [15:0]. -/
def tW (op d a imm : Nat) : Word := BitVec.ofNat 32 (op * 2 ^ 26 + d * 2 ^ 21 + a * 2 ^ 16 + imm)

theorem witness_coreReady : (tCore []).coreReady 0 = true := by decide +kernel
theorem test_add_wraps : tS (exec (.sop 0 (tW 0 1 2 (3 * 2 ^ 11))) (tCore [(2, 0xFFFFFFFF), (3, 2)])) 1 1 = true := by decide +kernel
theorem test_sub_same : tS (exec (.sop 0 (tW 0 2 2 (3 * 2 ^ 11 + 1))) (tCore [(2, 1), (3, 2)])) 2 0xFFFFFFFF = true := by decide +kernel
theorem test_addi_signed : tS (exec (.addi 0 (tW 1 1 2 0xFFFF)) (tCore [(2, 5)])) 1 4 = true := by decide +kernel
theorem test_lui : tS (exec (.lui 0 (tW 5 1 0 0x1234)) (tCore [])) 1 0x12340000 = true := by decide +kernel
theorem test_slti_signed : tS (exec (.slti 0 (tW 6 1 2 0)) (tCore [(2, 0x80000000)])) 1 1 = true := by decide +kernel
theorem test_beq_taken : tNext (exec (.beq 0 (tW 0x10 1 2 0xFFFF) 0) (tCore [])) (fun s => (s.dev.core 0).pc == 0) = true := by decide +kernel
theorem test_fault_handler : tNext (exec (.sop 0 (tW 0 1 2 0x1F)) (tSt ((tCore []).dev.updCore 0 fun k => { k.setCr 1 64 with pc := 9 })))
    (fun s => (s.dev.core 0).pc == 64 && (s.dev.core 0).getCr 2 == 9 && (s.dev.core 0).getCr 3 % 256 == 1) = true := by decide +kernel
theorem test_bkpt_handler : tNext (exec (.bkpt 0 0xFC000000) (tSt ((tCore []).dev.updCore 0 fun k => { k.setCr 1 64 with pc := 9 })))
    (fun s => (s.dev.core 0).pc == 64 && (s.dev.core 0).getCr 2 == 9 && (s.dev.core 0).inHandler) = true := by decide +kernel
theorem test_stopped_core : exec (.addi 0 (tW 1 1 2 5)) State.reset = .next State.reset := rfl

theorem witness_ScalarResults : opField (tW 0 1 2 0x0E) = 0 ∧ bitsAt (tW 0 1 2 0x0E).toNat 5 6 = 0 ∧ bitsAt (tW 0 1 2 0x0E).toNat 0 5 = 0x0E ∧
    opField (tW 5 1 0 7) = 5 ∧ fA (tW 5 1 0 7).toNat = 0 ∧ opField (tW 8 0 0 7) = 8 ∧ bitsAt (tW 8 0 0 7).toNat 16 2 = 0 ∧
    opField (tW 0x0B 1 0 0) = 0x0B ∧ bitsAt (tW 0x0B 1 0 0).toNat 0 17 = 0 ∧ bitsAt (tW 0x0C 0 0 0xFFFF).toNat 16 1 = 0 := by decide +kernel
theorem witness_BranchResults : bitsAt (tW 0x14 0 0 5).toNat 21 5 = 0 ∧ bitsAt (tW 0x16 3 0 0).toNat 0 21 = 0 ∧
    (let w := (tW 0x17 2 0 3).toNat; bitsAt w 14 7 = 0 ∧ bitsAt w 0 14 ≠ 0 ∧ 0 < (((tCore [(2, 1)]).dev.core 0).getS (fD w)).toNat % 2 ^ 24 ∧
      (tCore [(2, 1)]).coreReady 0 = true ∧ ((tCore [(2, 1)]).dev.core 0).loops.length < 3) ∧
    bitsAt (tW 0x18 0 0 0x4003).toNat 0 14 ≠ 0 ∧ 0 < bitsAt (tW 0x18 0 0 0x4003).toNat 14 12 := by decide +kernel
theorem witness_BranchResults_squash : (tCore []).coreReady 0 = true ∧ ((tCore []).dev.core 0).inHandler = false ∧ (0 : Nat) < 1 := by decide +kernel
theorem witness_LocalMemoryResults : msOk (tW 0x1A 1 0 0).toNat = true ∧ ((tCore []).dev.core 0).accessFault [(msAddr (tW 0x1A 1 0 0).toNat ((tCore []).dev.core 0), false)] = none ∧
    ((tCore []).dev.core 0).accessFault [(0, true), (1, true)] = none := by decide +kernel
theorem witness_VectorResults : (let k := (tCore []).dev.core 0
    mvOk (tW 0x20 0 0 0).toNat = true ∧ grpOk (fG (tW 0x20 0 0 0).toNat) (fD (tW 0x20 0 0 0).toNat) = true ∧
    k.accessFault ((wordsFrom (k.getP (mvPn (tW 0x20 0 0 0).toNat)) (4 * 32)).map fun a => (a, false)) = none ∧
    gOk (bitsAt (tW 0x2E 0 0 0).toNat 14 2) = true ∧ grpOk (bitsAt (tW 0x2E 0 0 0).toNat 14 2) (fA (tW 0x2E 0 0 0).toNat) = true) := by decide +kernel
/-- The row's core goes on. -/
def tDone (r : InsnRes) : Bool := match r with | .done _ => true | _ => false
set_option exponentiation.threshold 300 in
theorem witness_VectorResults_done : (let k := (tCore []).dev.core 0
    tDone (insnVst (tW 0x21 0 0 0).toNat k) = true ∧ tDone (insnVgath (tW 0x25 0 0 0).toNat k) = true ∧ tDone (insnVscat (tW 0x26 0 0 0).toNat k) = true ∧
    tDone (insnVop (tW 0x28 0 0 0).toNat k) = true ∧ tDone (insnVext (tW 0x2C 0 0 0).toNat k) = true) := by decide +kernel
theorem witness_AccumulatorResults : opField 0xB4000003 = 0x2D ∧ bitsAt (0xB4000003 : Word).toNat 5 10 = 0 ∧ acField 0xB4000003 = 3 := by decide +kernel
/-- The multiply row goes on, trapping or not. -/
def tMac (r : MacRes) (trap : Bool) : Bool := match r with | .done _ t => t == trap | _ => false
theorem witness_MultiplyAccumulateTraps : (let k := (tCore []).dev.core 0
    tMac (insnVmac (tW 0x29 0 0 0).toNat k) false = true ∧ tMac (insnVmacs (tW 0x2A 0 0 0).toNat k) false = true) := by decide +kernel
theorem witness_MultiplyAccumulateTraps_sets : (let k : Core := { (tCore []).dev.core 0 with gov := 2 }.setCr 0x06 1; let w : Word := 0xB4100002
    opField w = 0x2D ∧ bitsAt w.toNat 5 10 = 0 ∧ acField w = 2 ∧ bitAt k.gov (bitsAt w.toNat 23 3) = false ∧ bitAt k.gov (bitsAt w.toNat 20 3) = true ∧
    bitAt (k.getCr 0x06) 0 = true ∧ k.inHandler = false ∧ vxOk (tW 0x29 0 0 0).toNat = true ∧ grpOk 0 0 = true ∧ bitsAt (tW 0x29 0 0 0).toNat 6 2 ≠ 2 ∧
    bitsAt (tW 0x29 0 0 0x80).toNat 6 2 = 2 ∧ gOk (bitsAt (tW 0x2B 0 0 0).toNat 16 2) = true ∧ k.getP 0 % 2 = 0 ∧
    k.accessFault [(k.getP 0, false), (k.getP 0 + 1, false), (k.getP 0, false), (k.getP 0 + 1, false)] = none) := by decide +kernel

theorem witness_ScalarFrame : ∃ t, exec (.sop 0 (tW 0 1 2 0)) (tCore []) = .next t := ⟨_, rfl⟩
theorem witness_ScalarFrame_handler : (((tCore []).dev.updCore 0 fun k => k.setCr 1 64).core 0).inHandler = false ∧
    (((tCore []).dev.updCore 0 fun k => k.setCr 1 64).core 0).getCr 1 ≠ 0 := by decide +kernel
theorem witness_StoppedCoreDoesNothing : State.reset.dev.coreRuns 107 = false := by decide +kernel
theorem witness_CoreFaultRecord : ((tCore []).dev.core 0).getCr 1 = 0 ∧ ((((tCore []).dev.updCore 0 fun k => k.setCr 1 64).core 0).getCr 1 ≠ 0) ∧
    ((((tCore []).dev.updCore 0 fun k => k.setInHandler true).core 0).inHandler = true) := by decide +kernel
theorem witness_BreakpointAndReturn : opField 0xFC000000 = 0x3F ∧ bitsAt (0xFC000000 : Word).toNat 0 26 = 0 ∧ opField 0x64000001 = 0x19 ∧
    bitsAt (0x64000001 : Word).toNat 1 25 = 0 ∧ ((((tCore []).dev.updCore 0 fun k => k.setInHandler true).core 0).inHandler = true) := by decide +kernel
theorem witness_ControlRegisterResults : opField (tW 0x38 1 0 0x1A00) = 0x38 ∧ fA (tW 0x38 1 0 0x1A00).toNat = 0 ∧ bitsAt (tW 0x38 1 0 0x1A00).toNat 0 8 = 0 ∧
    bitsAt (tW 0x38 1 0 0x1A00).toNat 8 8 ≠ 0x0B ∧ bitsAt (tW 0x38 1 0 0x0B00).toNat 8 8 = 0x0B ∧ fD (tW 0x39 0 31 0x0100).toNat = 0 ∧
    bitsAt (0xE8000000 : Word).toNat 0 26 = 0 := by decide +kernel
/-- A job of slot 3. -/
def tJob (state : JobState) : Job := ⟨⟨0, 0, 0, 2, 1, 0, 0, 0, 0, 0, 0, 4095, [], []⟩, state, [], 2, 0, none, 0, 0, 0, false⟩
/-- Core 0 of a running device holds the job of slot 3. -/
def tHeld (state : JobState) : State :=
  tSt { (tCore [(0, 3 + 2 ^ 14)]).dev.updCore 0 fun k => { k with job := some 3 } with wds.jobs := [(3, tJob state)] }
theorem witness_DispatcherCallResults : (tHeld .running).coreReady 0 = true ∧ bitsAt (tW 0x36 0 0 0).toNat 0 26 = 0 ∧
    ((tHeld .running).dev.core 0).job = some 3 ∧ ((tHeld .running).dev.job 3).isSome = true ∧
    (((tHeld .running).dev.core 0).getS 0).toNat = 3 + 2 ^ 14 * (tJob .running).desc.tl ∧ ((tCore []).dev.core 0).job = none := by decide +kernel
theorem test_jobchk_stop : tS (exec (.jobchk 0 (tW 0x35 0 0 0)) (tHeld .stop)) 0 1 = true := by decide +kernel
theorem test_jobchk_none : tS (exec (.jobchk 0 (tW 0x35 0 0 0)) (tCore [])) 0 0x8000 = true := by decide +kernel
theorem witness_WaitAndWake : (let k := (tCore []).dev.core 0
    k.getCr 9 = 0 ∧ ((k.setCr 9 4).getCr 9 ≠ 0 ∧ (k.setCr 9 4).wakeSource = none) ∧ ({ k.setCr 9 4 with latches := 4 }.wakeSource = some 0x12) ∧
    ((tCore []).dev.setCoreState 0 3).coreState 0 = 3 ∧ ((tCore []).dev.setCoreState 0 3).domRun (coreDom 0) = true) := by decide +kernel
theorem witness_WaitAndWake_debug : 2 ≤ ((tCore []).dev.wf SEC_DEBUG_STS_LEVEL 2).rf SEC_DEBUG_STS_LEVEL ∧ (tCore []).dev.coreState 0 ≠ 3 := by decide +kernel
/-- Core 0 with the far-address byte 0x30 and registers; its own pod's CORE_0 status register lies at the address. -/
def tFar : State := tSt ((tCore [(2, 0x04000200)]).dev.updCore 0 fun k => k.setCr 0x0D 0x30)
theorem witness_FarAccessResults_register : farAddr (tW 0x1E 1 2 0).toNat (tFar.dev.core 0) = 0x3004000200 ∧ 0x3004000200 % 4 = 0 ∧ tFar.coreReady 0 = true ∧
    farPermitted 0 0x3004000200 = true ∧ placeOf 0x3004000200 = .reg 0x4000200 ∧ tFar.dev.regOn 0x4000200 = true := by decide +kernel
/-- A central buffer of four blocks, its domain and the firewalls as after reset, in RUN. -/
def tBuf (d : Dev) : Dev := (d.cbfAlloc 4 none).1
theorem witness_FarAccessResults_memory : (let d := tBuf (tDev [0, 1, 2, 67, 68, 69, 70, 71, 72, 73, 74] [])
    farPermitted 0 0x2000000000 = true ∧ placeOf 0x2000000000 = .cbuf 0 ∧ (d.busRead 0 0x2000000000 4).2.isSome = true ∧
    (d.busWrite 0 none 0x2000000000 [1, 2, 3, 4]).2 = true) := by decide +kernel
/-- Core 0 with a DMA descriptor for one row of four words from the central buffer at local word 64. -/
def tDma : State := tSt ((tCore [(2, 64)]).dev.updCore 0 fun k => k.setWords [(64, 0x010), (66, 0), (67, 0), (68, 2), (69, 128), (71, 4), (73, 1)])
theorem witness_DmaResults : (let k := tDma.dev.core 0; let q := k.dmaDesc 64
    tDma.coreReady 0 = true ∧ k.accessFault ((wordsFrom 64 16).map fun x => (x, false)) = none ∧ Tab.find k.dma k.nextTicket = none ∧
    q.bad 0 64 = false ∧ q.len = 4 ∧ q.rows = 1) := by decide +kernel
theorem witness_DmaResults_complete : tNext (exec (.dma 0 (tW 0x30 1 2 0)) tDma) (fun t =>
    (Tab.find (t.dev.core 0).dma 0).isSome && t.dev.domRun (coreDom 0) && (t.dev.core 0).nextTicket == 1) = true := by decide +kernel
theorem witness_CoreResetEndsTransfers : tNext (exec (.dma 0 (tW 0x30 1 2 0)) tDma) (fun t =>
    !(t.dev.core 0).dma.isEmpty && ((t.dev.coreReset 0).core 0).dma.isEmpty && (t.dev.coreReset 0).rf (POD_DMA_c_STS_INFLIGHT 0 0) == 0 &&
    t.dev.rf (POD_DMA_c_STS_INFLIGHT 0 0) == 1) = true := by decide +kernel
theorem witness_CpxIssueResults : ((tCore []).dev.setReg (rCPX_CTL 0) 7).cpxEnabled 0 2 = true ∧ ((tCore []).dev.pods.cpx.filter fun i => i.core == 0).length < 8 ∧
    (tCore []).dev.cpxHeld 0 2 < 32 ∧ fD (tW 0x3E 0 2 0).toNat = 0 := by decide +kernel
theorem witness_CoreControlWrites : (let d := tDev [0, 1, 2] []; let r (v : Nat) := d.busWr (.pod 0) (rPOD_CORE_c_CTL 0 0) v
    tYes (r 0x10001) = true ∧ (r 0x10001).1.flag (POD_CORE_c_CTL_RUN 0 0) = true ∧ d.flag (POD_CORE_c_CTL_RUN 0 0) = false ∧ tCmds (r 0x10001) = 0 ∧
    tCmds (r 0x20002) = 2 ∧ tCmds (r 0x40004) = 4) ∧
    (let d := tDev [0, 1, 2] []; let on := d.setFlag (POD_CORE_c_CTL_RUN 0 0) true
     d.holeFor (.pod 0) (rPOD_CORE_c_CTL 0 0) = false ∧ d.hostDown (.pod 0) = false ∧ on.hostDown (.pod 0) = false ∧ d.domOn (coreDom 0) = true ∧ on.holeFor (.pod 0) (rPOD_CORE_c_CTL 0 0) = false ∧ on.domOn (coreDom 0) = true ∧
       on.flag (POD_CORE_c_CTL_RUN 0 0) = true ∧ (on.core 0).job = none ∧ 0x10000 / 2 ^ 16 = 1 ∧ bitAt 0x10000 0 = false ∧ bitAt 0x20002 1 = true ∧ bitAt 0x40004 2 = true) := by
  decide +kernel

/-! ### Pod coprocessors -/

/-- A descriptor: 128 bytes, the given ones not zero. -/
def tDesc (l : List (Nat × Nat)) : List Byte := (upTo 128).map fun i => BitVec.ofNat 8 (Tab.getD (fun _ => 0) l i)
/-- A device whose pod 0 holds a committed instruction of unit `u` with that descriptor. -/
def tUnit (u : Nat) (l : List (Nat × Nat)) : Dev :=
  let d := (tBuf (tDev [0, 1, 2, 67, 68, 69, 70, 71, 72, 73, 74] [])).podWrite 0 0x100 (tDesc l)
  { d with pods.cpx := [⟨5, 0, u, 0x100, true, none, none, none, true, false⟩] }
/-- The hypotheses of a row: the instruction is found, it is its turn, its descriptor passes. -/
def tRow (u op : Nat) (l : List (Nat × Nat)) (checks : Nat → Nat → List Byte → List CpxCheck) : Bool :=
  let d := tUnit u l
  let ds := d.podRead 0 0x100 128
  match d.pods.cpx.find? (fun i => i.seq == 5 && i.core / 9 == 0 && i.unit == u && i.committed && i.ran.isNone) with
  | none => false
  | some i => leAt ds 1 1 == op && (firstBad (checks 0 i.desc ds)).isNone && !d.cpxBefore i
def tXfm (op : Nat) : List (Nat × Nat) := [(0, 2), (1, op), (2, 1), (16, 12)]
def tMat (op : Nat) : List (Nat × Nat) := [(0, 3), (1, op), (2, 2), (16, 1), (17, 1), (18, 1), (22, 1)]
def tLdpc (op it : Nat) : List (Nat × Nat) := [(0, 1), (1, op), (2, 2), (16, 1), (18, 2), (20, 44), (22, 1), (28, 100), (32, 2), (33, 1), (35, it)]
def tTurbo (op it : Nat) : List (Nat × Nat) := [(0, 1), (1, op), (2, 2), (17, it), (18, 40), (22, 1), (32, 120), (36, 2), (37, 1)]
def tPolar (op l : Nat) : List (Nat × Nat) := [(0, 1), (1, op), (2, 1), (17, l), (18, 12), (20, 32), (28, 0x20), (33, 1), (36, 0x20)]
def tConv (op : Nat) : List (Nat × Nat) := [(0, 1), (1, op), (2, 1), (17, 3), (18, 2), (20, 8), (24, 7), (26, 5), (36, 0x20), (41, 1), (44, 0x20)]
theorem witness_UnitRules_transforms : tRow 1 1 (tXfm 1) xfmChecks = true ∧ tRow 1 2 (tXfm 2) xfmChecks = true ∧
    tRow 2 1 (tMat 1) matChecks = true ∧ tRow 2 2 (tMat 2) matChecks = true ∧ tRow 2 3 (tMat 3) matChecks = true := by decide +kernel
theorem witness_UnitRules_blocks : tRow 0 0x01 (tLdpc 0x01 8) (ldpcChecks false) = true ∧
    tRow 0 0x11 (tLdpc 0x11 0) (ldpcChecks true) = true ∧
    tRow 0 0x02 (tTurbo 0x02 8) (turboChecks false) = true ∧
    tRow 0 0x12 (tTurbo 0x12 0) (turboChecks true) = true := by decide +kernel
theorem witness_UnitRules_polar : tRow 0 0x03 (tPolar 0x03 8) (polarChecks false) = true ∧
    tRow 0 0x13 (tPolar 0x13 0) (polarChecks true) = true := by decide +kernel
theorem witness_UnitRules_conv : tRow 0 0x14 (tConv 0x14) (convChecks true) = true ∧
    tRow 0 0x04 (tConv 0x04) (convChecks false) = true := by decide +kernel
theorem witness_UnitRules_refused : tRow 1 1 [(0, 2), (1, 1), (2, 1), (16, 11)] (fun _ _ _ => []) = true ∧ firstBad (xfmChecks 0 0x100 (tDesc [(0, 2), (1, 1), (2, 1), (16, 11)])) = some (2, 16) := by decide +kernel
/-- 1 then 0s through the constraint-length-3 code with generators 7 and 5: 11 10 11 00. -/
theorem test_conv_encoder : convEnc 3 [7, 5] 0 [true, false, false, false] = [true, true, true, false, true, true, false, false] := by decide +kernel
theorem witness_CpxRecordAndControl : (let d := tUnit 1 []; let i : CpxInst := ⟨5, 0, 1, 0x100, true, none, none, some ⟨0, 1, 0⟩, true, false⟩
    ({ d with pods.cpx := [i] }.pods.cpx.find? (fun i => i.seq == 5 && i.core / 9 == 0)) = some i ∧ d.cpxOrderHolds i = false ∧
    d.holeFor (.pod 0) (rCPX_CTL 0) = false ∧ d.hostDown (.pod 0) = false ∧ d.domOn 2 = true) := by decide +kernel


/-! ### Host interface -/

/-- Pair `q` enabled, its rings of 16 entries at the start of the outbound window, its submission tail at `tail`. -/
def tPair (q tail : Nat) : List (Fld × Nat) :=
  [(HIF_CQn_CTL_ENABLE q, 1), (HIF_CQn_CFG_SQ_LOG2 q, 4), (HIF_CQn_CFG_CQ_LOG2 q, 4), (HIF_CQn_SQ_TAIL q, tail)]
/-- The management floor with command pair 0 and user-plane pair 0 enabled, one entry waiting on each. -/
def tHost : Dev := tDev [76, 78] (tPair 0 1 ++ tPair 64 1)

theorem witness_DoorbellRules : (let r (v : Nat) := tHost.busWr .host (rHIF_CQn_SQ_TAIL 0) (0xFFFF0000 + v)
    tYes (r 3) = true ∧ (r 3).1.rf (HIF_CQn_SQ_TAIL 0) < tHost.sqDepth 0 ∧ tYes (r 16) = true ∧ tHost.sqDepth 0 ≤ (r 16).1.rf (HIF_CQn_SQ_TAIL 0)) ∧
    (let r := tHost.busWr .host (rHIF_CQn_CQ_HEAD 0) 0xFFFF000F
     tYes r = true ∧ r.1.rf (HIF_CQn_CQ_HEAD 0) < tHost.cqDepth 0) := by decide +kernel
theorem test_bad_doorbell : tNext (exec (.sqDoorbell .host 0 0xFFFF0010) (tSt tHost)) (fun t =>
    t.dev.rf (HIF_CQn_SQ_TAIL 0) == 1 && t.dev.rf (HIF_CQn_BADDB 0) == 1) = true := by decide +kernel
theorem witness_FetchAndEnableRules : tHost.hasEntry 0 = true ∧ tHost.mirrors = false ∧ 2 ≤ tHost.cqRoom 0 ∧
    myTurn 16 tHost.hif.rrCmd 0 (fun j => tHost.hasEntry j && decide (2 ≤ tHost.cqRoom j)) = true ∧ (entryRefusal (tZeros 64)).isSome = true := by decide +kernel
theorem witness_FetchAndEnableRules_enable : (let d := tDev [76] [(HIF_CQn_CFG_SQ_LOG2 0, 4), (HIF_CQn_CFG_CQ_LOG2 0, 4), (HIF_OB_BASE, 1)]; let f := HIF_CQn_CTL_ENABLE 0
    let e := d.wf HIF_OB_BASE 0; let r (d : Dev) := d.busWr .host (rHIF_CQn_CTL 0) 0x10001
    tYes (r e) = true ∧ e.flag f = false ∧ (r e).1.flag f = true ∧ (r e).1.ringsOk 0 = true ∧ (r d).1.ringsOk 0 = false) ∧
    (let r := tHost.busWr .host (rHIF_CQn_CTL 0) 0x10000
     tYes r = true ∧ tHost.flag (HIF_CQn_CTL_ENABLE 0) = true ∧ r.1.flag (HIF_CQn_CTL_ENABLE 0) = false) := by decide +kernel
theorem witness_HostInterfaceEvents : (let d := (tHost.updQp 0 fun x => { x with posted := [(5, false)] }).wf (HIF_CQn_COAL_TIME 0) 3
    (d.qp 0).posted = [(5, false)] ∧ d.rf (HIF_CQn_COAL_TIME 0) ≠ 0 ∧ (d.qp 0).raised = false) ∧
    (let d := { tHost with hif.backlog := [⟨1, 1, 0, 0, 0, 0, 0⟩] }
     d.hif.backlog ≠ [] ∧ d.flag (HIF_CQn_CTL_ENABLE 0) = true ∧ d.evOut < 8 ∧ 0 < d.cqFree 0 ∧ d.domOn 76 = true) ∧
    0 < tHost.cqFree 64 ∧ ({ tHost with hif.closed := true } : Dev).hif.closed = true := by decide +kernel
theorem witness_DeviceCommands : tReady tHost 0x0101 (tCmd []) (fun _ => true) = true ∧ tReady tHost 0x0102 (tCmd [1]) (fun d => d.fw.restart.isNone) = true ∧
    tReady tHost 0x0103 (tCmd [0, 1, 64]) (fun d => d.obOk (pAddr (tCmd [0, 1, 64]) 0) 64) = true ∧ tReady tHost 0x0104 (tCmd [63, 1, 255, 1]) (fun _ => true) = true ∧
    tReady tHost 0x0105 (tCmd [127]) (fun _ => true) = true ∧ tReady tHost 0x0106 (tCmd [1, 2, 3]) (fun _ => true) = true := by decide +kernel
theorem witness_DeviceCommands_again : tReady { tHost with fw.restart := some (1, 4) } 0x0102 (tCmd [0]) (fun d => d.fw.restart == some (1, 4)) = true ∧
    tReady tHost 0x0103 (tCmd [0, 0, 31]) (fun _ => true) = true ∧ tReady tHost 0x0104 (tCmd [64, 2, 300, 0]) (fun _ => true) = true := by decide +kernel
theorem witness_CommandRowsActInOrder : State.reset.dev.pqNext 0 = none ∧ (let s := tWith (tHost.wf MGT_TWIN_STS_ROLE 2) 0x0303 (tCmd [])
    (s.dev.pqNext 0) = some (tRun 0x0303 (tCmd [])) ∧ s.dev.rf MGT_TWIN_STS_ROLE = 2 ∧ standbyTakes 0x0303 (tRun 0x0303 (tCmd [])).ghost = false) := by decide +kernel
/-- The host device with timeline 0 running: 500 µs periods, period 10 current. -/
def tTl (d : Dev) : Dev :=
  { (((d.wf (TMU_TLn_PERIOD 0) 500000).wf (TMU_TLn_DEN 0) 1).wf (TMU_TLn_CTL_ENABLE 0) 1) with tls := [(0, ⟨true, 10, 11, [], []⟩)], now := 5000000 * 2 ^ 32 }
theorem witness_PlanAndWeightCommands : (let c := tCmd [0, 1, 1] 12 13
    tReady (tTl tHost) 0x0301 c (fun d => !d.badTarget c && d.obOk (pAddr c 0) 32 && decide (2 < ahead (d.refK 0) 13) && !d.hif.closed) = true) ∧
    (let c := tCmd [0, 1, 1] 12 12; tReady (tTl tHost) 0x0301 c (fun d => !d.badTarget c && decide (ahead (d.refK 0) 12 ≤ 2)) = true) ∧
    (let c := tCmd [] 12 13; tReady { tTl tHost with fw.plans := [⟨0, 13, [], [], false, []⟩] } 0x0302 c (fun d =>
      !d.badTarget c && match d.plan 0 13 with | some q => !q.built | none => false) = true) := by decide +kernel
theorem witness_PlanAndWeightCommands_other : (let c := tCmd [0, 1, 1] 12 12; let s := tSt ((tTl tHost).updQp 0 fun q => { q with running := [{ tRun 0x0301 c with late := true }] })
    s.ready 0x0301 c = true ∧ (s.began c).badTarget c = false ∧ (s.began c).fetchedLate c = true ∧ (s.began c).obOk (pAddr c 0) 32 = true) ∧
    (let c := tCmd [0, 1, 0] 12 13; tReady (tTl tHost) 0x0301 c (fun d => !d.badTarget c && !d.fetchedLate c && !d.hif.closed) = true) ∧
    (let c := tCmd [0, 1, 1] 12 900; tReady (tTl tHost) 0x0301 c (fun d => d.badTarget c) = true ∧ tReady (tTl tHost) 0x0302 c (fun d => d.badTarget c) = true) ∧
    (let c := tCmd [] 12 13; tReady (tTl tHost) 0x0302 c (fun d => !d.badTarget c && (d.plan 0 13).isNone) = true ∧
      tReady { tTl tHost with fw.plans := [⟨0, 13, [], [], true, []⟩] } 0x0302 c (fun d => !d.badTarget c && ((d.plan 0 13).map (·.built)) == some true) = true) := by decide +kernel
theorem witness_PlanAndWeightCommands_weights : (let c := tCmd [0, 1, 4096, 5]; let h := tTl (tDev [67, 68, 69, 70, 71, 72, 73, 74, 76, 78] (tPair 0 1))
    tReady h 0x0303 c (fun d => d.obOk (pAddr c 0) 4096 && (Tab.find d.fw.weights 5).isNone && !((upTo 8).all fun b => !d.domOn (67 + b)) &&
      match d.cbfAlloc 1 none with
      | (d1, some f) => (d1.busWrite 17 none (cbufBase + 4096 * f) (tZeros 4096)).2
      | _ => false) = true ∧
    tReady { h with fw.weights := [(5, 0)] } 0x0304 (tCmd [5]) (fun d => !d.weightNamed 5) = true) := by decide +kernel
theorem witness_PlanAndWeightCommands_build : (let d := { tTl tHost with fw.plans := [⟨0, 12, [], [], false, []⟩] }
    (d.plan 0 12).isSome = true ∧ ahead (d.refK 0) 12 ≤ 2 ∧ d.flag WDS_CTL_ENABLE = false ∧ (d.wf WDS_CTL_ENABLE 1).flag WDS_CTL_ENABLE = true) := by decide +kernel
theorem witness_PlanAndWeightCommands_graph : (tTl tHost).postWaits 0 12 = false ∧ (tTl tHost).rf MGT_TWIN_STS_ROLE = 0 ∧ ((tTl tHost).wf MGT_TWIN_STS_ROLE 2).rf MGT_TWIN_STS_ROLE = 2 ∧ graphFor 0 12 [0, 0, 0, 0, 13, 0] = true := by decide +kernel
theorem witness_PlanRecordsAreCounted : ([] : List PlanRec).length ≤ 2048 ∧ (([] : List PlanRec).map (·.alloc)).Nodup := by decide +kernel
/-- A 32-byte user-plane entry. -/
def tUp (l : List (Nat × Nat)) : List Byte := (upTo 32).map fun i => BitVec.ofNat 8 (Tab.getD (fun _ => 0) l i)
/-- A plan record for allocation 7 of timeline 0, air period 13: carrier 1, 64 payload bits. -/
def tPlanned (dir : Nat) (d : Dev) : Dev :=
  { tTl d with fw.plans := [⟨0, 13, [⟨7, 1, dir, 0, 1, 0, 14, 1, 2, 0, 0, 0, 64, 0, 0, 3, 0⟩], [], false, []⟩] }

theorem witness_UserPlaneRules : (let d := tHost.pastEntry 64; let e := tUp [(0, 2), (4, 255), (5, 255), (17, 1)]
    tHost.hasUpEntry 0 = true ∧ myTurn 64 tHost.hif.rrUp 0 tHost.hasUpEntry = true ∧ leAt e 0 1 = 2 ∧ upBad e = false ∧ leAt e 1 1 = 0 ∧ leAt e 4 2 = 0xFFFF ∧
    leAt e 6 2 = 0 ∧ leAt e 16 4 ≠ 0 ∧ d.obOk (leAt e 8 8) (leAt e 16 4) = true) := by decide +kernel
theorem witness_UserPlaneRules_tb : (let d := (tPlanned 0 tHost).pastEntry 64; let e := tUp [(0, 1), (1, 1), (4, 7), (6, 13), (16, 8)]
    (d.planRec (leAt e 20 1 % 4) (leAt e 6 2) (leAt e 4 2)).isSome = true ∧ upBad e = false ∧ leAt e 16 4 = ceilDiv 64 8 ∧ d.obOk (leAt e 8 8) (leAt e 16 4) = true ∧
    d.marrow.cfg.mask = 0 ∧ leAt (tUp []) 0 1 = 0 ∧ 3 < leAt (tUp [(0, 4)]) 0 1) := by decide +kernel
theorem witness_UserPlaneRules_result : (let d := tPlanned 1 tHost; let e := d.updQp 64 fun x => { x with ulbufs := [⟨9, 64, 8⟩] }
    (d.planRec 0 13 7).isSome = true ∧ d.flag (HIF_CQn_CTL_ENABLE 64) = true ∧ (d.qp 64).held.length < 64 ∧
    (takeBuf (e.qp 64).ulbufs 8).isSome = true ∧ takeBuf (d.qp 64).ulbufs 8 = none) := by decide +kernel
theorem witness_UserPlaneRules_room : (let d := tPlanned 1 tHost; let full := d.updQp 64 fun x => { x with held := List.replicate 64 ⟨1, 0, 0, 0, [], []⟩ }
    (d.planRec 0 13 7).map (fun r => (r.dir, r.upq, d.wds.reported.contains ⟨0, 14, 1, r.cc, 7⟩)) = some (1, 0, false) ∧ d.upRoom 0 = true ∧ full.upRoom 0 = false ∧
    leAt (tUp [(0, 2), (4, 255), (5, 255)]) 16 4 = 0 ∧ upBad (tUp [(0, 2), (4, 255), (5, 255)]) = false ∧
    { d with hif.landing := [(0, 12, 7)] }.hif.landing = [(0, 12, 7)]) := by decide +kernel
theorem witness_HarqRules : (let d := tDev [63, 76, 78] [(MEM_HARQ_p_COUNT 0, 4), (MEM_HARQ_p_SLOT 0, 3)]; let r (v : Nat) := d.busWr .firmware (rMEM_HARQ_p_OP 0) v
    tYes (r 0x30001) = true ∧ bitsAt (tCmds (r 0x30001)) 0 2 = 1 ∧ bitsAt (tCmds (r 0x30002)) 0 2 = 2 ∧ d.mem.harq.length = 2 ∧ 3 < d.rf (MEM_HARQ_p_COUNT 0) ∧
    3 ∉ nth [] d.mem.harq 0 ∧ d.holeFor .firmware (rMEM_HARQ_p_OP 0) = false ∧ d.hostDown .firmware = false ∧ d.domOn 78 = true ∧ 0x30001 / 2 ^ 16 % 4 = 3 ∧
    (let e : Dev := { d with mem.harq := [[3], []] }; 3 ∈ nth [] e.mem.harq 0 ∧ e.mem.harq.length = 2 ∧ e.holeFor .firmware (rMEM_HARQ_p_OP 0) = false ∧ e.hostDown .firmware = false)) := by decide +kernel

/-! ### Work dispatcher -/

/-- A ready job in slot 3, an unmasked core 0 waiting for it, its timeline in the job's period, every pod released. -/
def tJobs : State :=
  let j : Job := { tJob .ready with desc := { (tJob .ready).desc with tl := 0, period := 11 }, k := 10, eligAt := some 0 }
  let d := tTl (tDev [0, 1, 2, 75, 76, 78] [(POD_CORE_c_STS_STATE 0 0, 2), (WDS_CTL_ENABLE, 1)])
  tSt { d with tls := [(0, ⟨true, 10, 11, [], upTo 12⟩)], wds.jobs := [(3, j)], wds.waiting := [(0, 0)] }

theorem witness_HandoutRule : tJobs.dev.choose = some (3, 0) ∧ (tJobs.dev.job 3).isSome = true ∧ (3 : Nat) < 2 ^ 14 := by decide +kernel
theorem test_handout : tNext (exec .handout tJobs) (fun t => t.dev.coreState 0 == 1 && (t.dev.core 0).getS 0 == 3 && (t.dev.core 0).getS 1 == 11) = true := by
  decide +kernel
theorem witness_DispatcherRowRules_grace : (tJobs.dev.job 3).map (fun j => (j.state, j.eligAt.isSome, decide (j.step < 2))) = some (.ready, true, true) := by decide +kernel
theorem witness_DispatcherRowRules_flow : (let d := { tJobs.dev with wds.flows := [(5, ⟨false, some 0, 0, some (0, 8)⟩)] }
    (d.flow 5).idle = some (0, 8) ∧ (d.tl 0).started = true ∧ 8 + 2 ≤ (d.tl 0).k ∧ d.wds.jobs.vals.all (fun j => j.desc.flow != 5) = true) := by decide +kernel
theorem witness_DispatcherRowRules_release : (let d := tTl tHost
    (d.tl 0).started = true ∧ (d.tl 0).released.contains 0 = false ∧ (upTo 0).all (d.tl 0).released.contains = true) := by decide +kernel
theorem witness_DispatcherRowRules_hung : (let d := { tTl ((tHeld .stop).dev) with wds.jobs := [(3, { tJob .stop with desc := { (tJob .stop).desc with tl := 0 }, stopK := 6 })] }
    (d.core 0).job = some 3 ∧ (d.job 3).isSome = true ∧ 6 + 4 ≤ d.gridIndex 0 d.now) ∧
    (let d := { tJobs.dev with wds.hung := [0], wds.hungAt := [(0, 0, 10, false)] }
     d.wds.hung.contains 0 = true ∧ Tab.find d.wds.hungAt 0 = some (0, 10, false)) := by decide +kernel
theorem witness_DispatcherRowRules_registers : (let d := tDev [75, 76, 78] [(WDS_CTL_ENABLE, 1)]; let r (v : Nat) := d.busWr .host rWDS_CTL v
    tYes (r 0x10000) = true ∧ d.anyTl = false ∧ (tTl d).anyTl = true ∧ tYes ((tTl d).busWr .host rWDS_CTL 0x10000) = true) ∧
    (let d := tDev [75, 76, 78] []; let r := d.busWr .host (rWDS_PODn_CTL 2) 0x30001
     tYes r = true ∧ r.1.podMode 2 ≠ d.podMode 2 ∧ tYes (d.busWr .host (rWDS_PODn_CORES 2) 0x00030001) = true) := by decide +kernel

/-! ### Timelines and time -/

theorem witness_TimelineRules : (let d := tDev [76, 78] [(TMU_TLn_PERIOD 1, 500000), (TMU_TLn_DEN 1, 1)]; let r (d : Dev) := d.busWr .host (rTMU_TLn_CTL 1) 0x10001
    tYes (r d) = true ∧ d.flag (TMU_TLn_CTL_ENABLE 1) = false ∧ (r d).1.flag (TMU_TLn_CTL_ENABLE 1) = true ∧ d.gridValid 1 = true ∧
    (d.wf (TMU_TLn_OFFSET 1) 500000).gridValid 1 = false ∧ tYes (r (d.wf (TMU_TLn_OFFSET 1) 500000)) = true) ∧
    (let d := tTl tHost; let r := d.busWr .host (rTMU_TLn_CTL 0) 0x10000
     tYes r = true ∧ d.flag (TMU_TLn_CTL_ENABLE 0) = true ∧ r.1.flag (TMU_TLn_CTL_ENABLE 0) = false) := by decide +kernel
theorem witness_TimelineRules_commands : gridOk 1 120000000 208 119999999 = true ∧ gridOk 1 120000000 208 120000000 = false ∧
    tReady tHost 0x0504 (tCmd [0, 0, 500000, 1, 0]) (fun d => !d.tlOn 0) = true ∧
    tReady (tDev [76, 78] (tPair 0 1 ++ [(TMU_TLn_PERIOD 3, 500000), (TMU_TLn_DEN 3, 1)])) 0x0505 (tCmd [3, 1]) (fun d =>
      !d.flag (TMU_TLn_CTL_ENABLE 3) && d.gridValid 3) = true := by decide +kernel
theorem witness_TimelineRules_boundary : (tTl tHost).nextBoundary = some (0, 11, 5500000 * 2 ^ 32) ∧ (tTl tHost).armedOf 0 = [] := by decide +kernel
theorem witness_BoundaryMakesPeriodCurrent : (tTl tHost).fw.staged = [] ∧ (tTl tHost).txns = [] ∧ (tTl tHost).cal.arms = [] ∧ (tTl tHost).cal.runs = [] := by
  decide +kernel
theorem test_boundary : tNext (exec (.boundaryEvent) (tSt (tTl tHost))) (fun t => (t.dev.tl 0).k == 11 && t.dev.rf (TMU_TLn_PNUM 0) == 11 &&
    (t.dev.tl 0).released == [0] && decide (5500000 * 2 ^ 32 ≤ t.dev.now) && decide (t.dev.now < 5500002 * 2 ^ 32)) = true := by decide +kernel
theorem test_unsized_period : (tTl tHost).boundaryNs 0 11 = 5500000 := by decide +kernel
theorem witness_TimeUnitRules_registers : (let d := tDev [76, 78] []; let a := d.busWr .host rTMU_SNAP_CTL 1; let b := d.busWr .host rTMU_STEP_CMD 0x10001
    let c := d.busWr .host rTMU_INC_CTL 0x40004
    bitAt (tCmds b) 0 = true ∧ bitAt (tCmds c) 2 = true ∧ d.flag TMU_INC_CTL_PENDING = false ∧ 0 ≤ b.1.stepNs ∧ b.1.anyTl = false ∧
    (bitAt (tCmds a) 0 = true ∨ bitAt (tCmds (d.busWr .host rTMU_SNAP_CTL 0x10001)) 0 = true)) := by decide +kernel
theorem witness_TimeUnitRules_commands : tReady tHost 0x0501 (tCmd []) (fun _ => true) = true ∧ tReady tHost 0x0502 (tCmd [2, 1, 3, 2]) (fun _ => true) = true ∧
    tReady tHost 0x0506 (tCmd [3, 1]) (fun _ => true) = true ∧
    tReady (tTl tHost) 0x0503 (tCmd [0xFFFFFFFF, 0xFFFFFFFF]) (fun d => d.anyTl && decide (toSigned 64 (pAddr (tCmd [0xFFFFFFFF, 0xFFFFFFFF]) 0) < 0)) = true ∧
    tReady tHost 0x0503 (tCmd [0, 0]) (fun _ => true) = true := by decide +kernel
/-- A change of quality and the load of a bank leave HOLD_LIMIT alone. -/
theorem hold_limit_setQuality (d : Dev) (st r : Nat) : (d.setQuality st r).rf TMU_HOLD_LIMIT = d.rf TMU_HOLD_LIMIT := by
  unfold Dev.setQuality
  dsimp only
  split
  · rfl
  · refine (Dev.rf_congr (e := ((d.wf TMU_QUALITY_STATE st).event 2 1 (st + 2 ^ 8 * d.rf TMU_QUALITY_STATE) r 0)) rfl _).trans ?_
    rw [Dev.rf_event _ (by decide), Dev.rf_wf_other _ _ _ _ (by decide)]
theorem hold_limit_holdInc (d : Dev) : d.holdInc.rf TMU_HOLD_LIMIT = d.rf TMU_HOLD_LIMIT := by
  unfold Dev.holdInc Dev.loadBank Dev.fresh
  dsimp only
  rw [Dev.rf_wf_other _ _ _ _ (by decide), Dev.rf_wf_other _ _ _ _ (by show (0x240007c : Nat) ≠ 0x240001c + 0x8 * (1 - _); omega),
    Dev.rf_wf_other _ _ _ _ (by show (0x240007c : Nat) ≠ 0x2400018 + 0x8 * (1 - _); omega)]
  rfl
theorem witness_TimeUnitRules_holdover : ((tHost.wf TMU_HOLD_LIMIT 9).holdInc.setQuality 3 0).rf TMU_HOLD_LIMIT ≠ 0 := by
  rw [hold_limit_setQuality, hold_limit_holdInc]; decide +kernel
theorem witness_TimeUnitRules_events : (let d := tHost.wf TMU_QUALITY_STATE 1; let e := tHost.wf TMU_QUALITY_STATE 2
    d.rf TMU_QUALITY_STATE = 1 ∧ { d with tmu.source := 0 }.tmu.source ≠ 2 ∧ e.rf TMU_QUALITY_STATE = 2 ∧
    (tHost.wf TMU_QUALITY_STATE 3).rf TMU_QUALITY_STATE = 3 ∧ (tHost.wf TMU_PPS_OUT_EN 1).flag TMU_PPS_OUT_EN = true ∧ tHost.tmu.ppsFall = none ∧
    (tHost.wf TMU_TOD_CFG_TX_EN 1).flag TMU_TOD_CFG_TX_EN = true ∧ tHost.flag TMU_INC_CTL_SRC_RC = false ∧ (1000000 : Int) < (BitVec.ofNat 64 1000001).toInt) := by
  decide +kernel


/-! ### Central buffer, DDR5, power -/

/-- All eight banks on. -/
def tBanks : Dev := tDev [63, 64, 65, 66, 67, 68, 69, 70, 71, 72, 73, 74, 76, 78] []
theorem witness_MemoryRules : tBanks.lowestRun 2048 = some 0 ∧ tBanks.mem.bufs.length < 1024 ∧ Tab.find (tBuf tBanks).mem.bufs 0 = some ⟨4, none⟩ ∧
    Tab.find (tBanks.cbfAlloc 2 (some (0, 5, 1))).1.mem.bufs 0 = some ⟨2, some (0, 5, 1)⟩ ∧ placeOf 0x2000000040 = .cbuf 0x40 ∧
    tBanks.domRun (67 + 0x40 / 4096 / 2048) = true ∧ tBanks.poisoned 0x2000000040 1 = false ∧ Tab.find tBanks.mem.flaws 0x2000000040 = none := by decide +kernel
theorem witness_MemoryRules_ddr : (let d := [(MEM_CTL_POPULATED, 3), (MEM_CTL_MODE, 1), (MEM_SCRUB_HOURS, 24), (MEM_CHk_CFG_WIDTH 1, 1)].foldl (fun (d : Dev) x => d.wf x.1 x.2) tBanks
    let ok (a k : Nat) : Bool := placeOf a == .ddr a && d.ddrChannel a == some k && d.domRun (63 + k) && decide (a + 64 ≠ 0x0800000000 * k + d.chSize k) && (Tab.find d.mem.flaws a).isNone &&
      !d.poisoned a 1 && decide (a / 64 * 64 = a)
    d.rf MEM_SCRUB_HOURS ≠ 0 ∧ d.rf MEM_CTL_MODE = 1 ∧ ok 0x40 0 = true ∧ ok 0x800000040 1 = true ∧ d.rf (MEM_CHk_CFG_WIDTH 0) = 0 ∧ d.rf (MEM_CHk_CFG_WIDTH 1) = 1) := by decide +kernel
theorem witness_MemoryRules_enable : (let d := tBanks.wf MEM_CTL_POPULATED 1; let e := (d.wf MEM_CTL_MODE 1).setFlag (MEM_CHk_STS_TRAINED 0) true
    let r (d : Dev) := d.busWr .firmware rMEM_CTL 0x10001
    d.chHere 0 = true ∧ d.domOn 63 = true ∧ tYes (r e) = true ∧ (r e).1.memReady = true ∧ tYes (r d) = true ∧ (r d).1.flag MEM_CTL_ENABLE = true ∧
    d.flag MEM_CTL_ENABLE = false ∧ (r d).1.memReady = false) := by decide +kernel
theorem test_free_bound : tNext (exec (.cbfBufferFree 0) (tSt (tBanks.cbfAlloc 2 (some (0, 5, 1))).1)) (fun t => t.dev.mem.bufs == [(0, ⟨2, some (0, 5, 1)⟩)]) = true := by
  decide +kernel
theorem witness_PowerRules_set : (let d := tDev [76, 77, 78] (tPair 0 1)
    tReady d 0x0601 (tCmd [77, 3]) (fun d => mayTake 77 3 && !d.pmuBusy 77 && d.dom 77 != 3) = true ∧
    tReady d 0x0601 (tCmd [77, 1]) (fun d => mayTake 77 1 && !d.pmuBusy 77 && d.dom 77 != 1 && d.domOn 77) = true ∧
    tReady d 0x0602 (tCmd [79]) (fun _ => true) = true ∧
    tReady { d.wf (PMU_PDd_STS_STATE 77) 3 with pmu.aspm := true } 0x0603 (tCmd [5, 0, 0]) (fun d => !d.paired && !d.parkBusy && !d.parkWaits (tCmd [5, 0, 0]) && d.parkRefusal.isNone) = true) := by decide +kernel
/-- A device with one power request. -/
def tReq (r : PmuReq) (d : Dev) : Dev := { d with pmu.queue := [r] }
theorem witness_PowerRules_entry : (let r : PmuReq := ⟨75, 2, .firmware, .queued⟩; let d := tReq r (tDev [75, 76, 78] []); let e := { d with pmu.debugHold := [75] }
    d.pmuFirst = some r ∧ d.isSwitchOn r = false ∧ d.dom 75 ≠ 2 ∧ e.entryRefusal 75 = some (4, 0) ∧ d.entryRefusal 75 = none ∧ d.lastOfStop 75 = some 24) ∧
    (let r : PmuReq := ⟨0, 2, .firmware, .queued⟩; let d := tReq r (tDev [0, 2, 76, 78] [])
     d.pmuFirst = some r ∧ d.isSwitchOn r = false ∧ d.entryRefusal 0 = none ∧ d.lastOfStop 0 = none) := by decide +kernel
theorem witness_PowerRules_vote : (let r : PmuReq := ⟨0, 2, .vote, .queued⟩; let d := tReq r (tDev [0, 2, 76, 78] [(POD_CORE_c_STS_STATE 0 0, 3)])
    let wake := d.updCore 0 fun k => (k.setCr 0x09 31).setCr 0x08 1
    d.pmuFirst = some r ∧ d.isSwitchOn r = false ∧ d.dom 0 ≠ 2 ∧ d.domOn 0 = true ∧ d.allVote 0 = false ∧ wake.allVote 0 = true ∧ wake.entryRefusal 0 = none ∧
    (wake.updCore 0 fun k => { k with latches := 4 }).entryRefusal 0 = some (0x01, 0x12)) := by decide +kernel
theorem witness_PowerRules_drain : (let r : PmuReq := ⟨75, 2, .firmware, .draining 0⟩; let d := tReq r (tDev [75, 76, 78] [])
    d.drainingOf 24 = some (r, 0) ∧ d.returnsHome.stopQuiet 24 = true) := by decide +kernel
theorem witness_PowerRules_on : (let r : PmuReq := ⟨75, 0, .firmware, .queued⟩; let d := tReq r (tDev [76, 78] [])
    d.pmuFirst = some r ∧ d.isSwitchOn r = true ∧ d.pmu.lastW1 = none ∧ d.dom 75 = 3) ∧
    (let r : PmuReq := ⟨2, 0, .firmware, .queued⟩; let d := (tReq r (tDev [76, 78] [])).wf THM_STS_STATE 2
     d.pmuFirst = some r ∧ d.isSwitchOn r = true ∧ d.rf THM_STS_STATE = 2) ∧
    (let d := tReq ⟨44, 0, .firmware, .waking 0 true⟩ (tDev [76, 78] [])
     d.pmuReq 44 = some ⟨44, 0, .firmware, .waking 0 true⟩ ∧ d.logicReady 44 = true) := by decide +kernel
theorem witness_PowerRules_park : (let d := { tDev [78] [] with pmu.park := some ⟨0, 7, 0, 0, none⟩ }
    d.pmu.park = some ⟨0, 7, 0, 0, none⟩ ∧ d.wakesPark ⟨0, 7, 0, 0, none⟩ 0 = false) := by decide +kernel

/-! ### Resets, references, temperature -/

theorem witness_ResetRules : (let d := { tHost with fw.restart := some (1, 4) }
    d.fw.restart = some (1, 4) ∧ { tHost with fw.restart := some (0, 4) }.fw.restart = some (0, 4)) ∧
    bitAt ((tHost.wf CKR_REF_STS_PRESENT 31).rf CKR_REF_STS_PRESENT) 4 = true ∧ bitAt (tHost.rf CKR_REF_STS_PRESENT) 0 = false := by decide +kernel
theorem test_por_keeps_fuses : tNext (exec (.por true) { State.reset with sec.f1 := 5 }) (fun t => t.sec.f1 == 5 && t.dev.rf CKR_RESET_CAUSE_TRIGGER == 1) = true := by
  decide +kernel
/-- The thermal state and the hottest value: CLEAR is 420 steps of 0.25 °C, the step to THROTTLE 452. -/
theorem test_warning_edge : ((Dev.reset.wf THM_STS_STATE 0).thmState (420, 3)).rf THM_STS_STATE = 1 ∧ ((Dev.reset.wf THM_STS_STATE 0).thmState (419, 3)).rf THM_STS_STATE = 0 ∧
    ((Dev.reset.wf THM_STS_STATE 1).thmState (452, 3)).rf THM_STS_STATE = 2 ∧ ((Dev.reset.wf THM_STS_STATE 2).thmState (431, 3)).rf THM_STS_STATE = 1 := by decide +kernel
theorem witness_ThermalRules : (let d := tHost.wf THM_STS_STATE 2
    d.rf THM_STS_STATE = 2 ∧ d.thm.stepHot ≤ toSigned 12 (d.rf THM_HOTTEST_TEMP) ∧ d.rf THM_THROTTLE_CAP_MIN < (d.wf THM_THROTTLE_CAP 8).rf THM_THROTTLE_CAP ∧
    { d with thm.stepHot := 9 }.thm.stepHot > toSigned 12 (d.rf THM_HOTTEST_TEMP) ∧ d.domOn 78 = true ∧ tHost.rf THM_STS_STATE ≠ 2) ∧
    tReady tHost 0x0605 (tCmd [60]) (fun _ => true) = true ∧ tReady tHost 0x0604 (tCmd []) (fun _ => true) = true ∧
    tHost.pmu.park = none ∧ 700 ≤ (tHost.wf THM_AVS_MV 700).rf THM_AVS_MV ∧ (tHost.wf THM_AVS_MV 850).rf THM_AVS_MV ≤ 850 ∧ State.reset.dev.domOn 78 = false := by decide +kernel
theorem witness_ThermalRules_trip : (let raw : List (BitVec 12) := 501 :: List.replicate 59 0
    let past125 := (upTo 60).filter fun i => overTrip (tHost.reading raw i)
    past125 = [0] ∧ past125.find? { tHost with thm.past125 := [0] }.thm.past125.contains = some 0 ∧ past125.find? tHost.thm.past125.contains = none ∧ tHost.thm.trip = none ∧
    ((upTo 60).all fun i => decide (tHost.reading ((upTo 60).map fun i => BitVec.ofNat 12 (tHost.rf (THM_RAW_i_RAW i))) i < 380)) = true) := by decide +kernel


/-! ### Lanes, links, banks, calibration -/

/-- A board-table entry for every lane of link 0, the twin link and a PL lane. -/
def tEntries : List LaneEntry :=
  ((upTo 4).map fun j => ⟨84 + j, 0x12, 0, 0, 0, 0, 1⟩) ++ ((upTo 4).map fun j => ⟨100 + j, 0x10, 0, 0, 0, 0, 1⟩) ++ [⟨104, 0x22, 0, 0, 16, 0, 0⟩]
/-- The lane complex powered, its PLLs locked, port 0 enabled. -/
def tLanes : Dev :=
  { tDev ([52, 53, 54, 55, 56, 57, 61, 62, 76, 78] ++ (upTo 6).map (46 + ·)) (tPair 0 1 ++ [(CKR_PLL_STS_ETH_LOCK, 1), (CKR_PLL_STS_PCIE_LOCK, 1), (CKR_PLL_STS_JESD_LOCK, 1),
      (ETH_Pp_CTL_ENABLE 0, 1), (ZTH_ETH_p_CFG_AN 0, 1), (ZTH_PCIE_STS_MAXGEN, 6)]) with zth.entries := tEntries }
theorem witness_LinkRules_eth : tLanes.ethLanes 0 = some [84, 85, 86, 87] ∧ tLanes.domRun 57 = true ∧ tLanes.flag CKR_PLL_STS_ETH_LOCK = true ∧
    tLanes.flag (ETH_Pp_CTL_ENABLE 0) = true ∧ tLanes.ethUp 0 = false ∧ (tLanes.startAll [84, 85, 86, 87] 0x12).2 = true ∧ tLanes.ethLanes 1 = none ∧
    tLanes.flag (ZTH_ETH_p_CFG_AN 0) = true ∧ (tLanes.wf (ZTH_ETH_p_CFG_AN 0) 0).flag (ZTH_ETH_p_CFG_AN 0) = false ∧
    (let d := tLanes.setFlag (ethUpF 0) true; d.ethUp 0 = true ∧ d.ethLanes 0 = some [84, 85, 86, 87]) := by decide +kernel
theorem witness_LinkRules_train : (let d := tLanes; let e : LaneEntry := ⟨84, 0x12, 0, 0, 0, 0, 1⟩
    d.entry 84 0x12 = some e ∧ d.flag (ETH_Pp_CTL_ENABLE 0) = true ∧ d.flag (ZTH_ETH_p_CFG_AN 0) = true ∧ d.domRun 57 = true ∧ d.lanePll 84 = true ∧
      d.linkOf 84 = some 0 ∧ d.ethUp 0 = false ∧ (Tab.getD (fun _ => (0 : Int)) d.zth.taps (4 * 84 + 3) + 1).natAbs ≤ e.window) ∧
    (let d : Dev := { tLanes with zth.taps := [(339, 1)] }
     1 < (Tab.getD (fun _ => (0 : Int)) d.zth.taps (4 * 84 + 3) + 1).natAbs ∧ d.linkOf 84 = some 0 ∧ d.ethUp 0 = false) ∧
    (let d := tLanes.setFlag (ethUpF 0) true; d.linkOf 84 = some 0 ∧ d.ethUp 0 = true ∧ d.lanePll 84 = true) := by decide +kernel
theorem witness_LinkRules_twin_pcie : (let d := tLanes.wf MGT_TWIN_STS_ROLE 1
    let slow : Dev := { d with zth.entries := d.zth.entries ++ [⟨100, 0x11, 0, 0, 0, 0, 1⟩] }
    d.twinWanted = true ∧ d.domRun 61 = true ∧ d.twinUp = false ∧ (d.startAll twinLanes 0x10).2 = true ∧ d.flag CKR_PLL_STS_ETH_LOCK = true ∧
      min (min (d.twinBest.getD 0) 0) d.zth.twinCap = 0 ∧ ((d.startAll twinLanes 0x10).1.startAll twinLanes 0x10).2 = true ∧ d.zth.twinPeer = none ∧
      { d with zth.twinPeer := some 2 }.zth.twinPeer = some 2 ∧ (slow.startAll twinLanes 0x10).2 = true) ∧ tLanes.domRun 62 = true ∧
    tLanes.flag CKR_PLL_STS_PCIE_LOCK = true ∧ 6 ≤ tLanes.rf ZTH_PCIE_STS_MAXGEN ∧ (tLanes.entry 104 (0x1F + 3)).map (fun e => (bitAt e.tx 4, bitAt e.tx 3)) =
      some (true, false) ∧ tLanes.zth.eqGen = none ∧ { tLanes with zth.eqGen := some 3 }.zth.eqGen = some 3 := by decide +kernel
theorem witness_LinkRules_lanes : (let d := ((tLanes.setFlag (ZTH_Li_STS_IN_SERVICE 52) true).setFlag (ZTH_Li_STS_CDR_LOCK 52) true)
    d.inService 52 = true ∧ isCtx 52 = false ∧ d.flag (ZTH_Li_STS_CDR_LOCK 52) = true ∧ isEl 52 = false ∧ d.held 52 = false ∧ d.domOn (laneDom 52) = true ∧ d.laneReady 52 = true ∧
    Tab.find { d with zth.lostAt := [(52, 1)] }.zth.lostAt 52 = some 1 ∧ (d.setFlag (ZTH_Li_STS_NO_ENTRY 52) true).laneReady 52 = false ∧
    (d.wf (ZTH_Li_STS_RATE 52) 1).rf (ZTH_Li_STS_RATE 52) ≠ 0 ∧ Tab.find d.zth.lostAt 52 = none) ∧
    (let d := (tLanes.setFlag (ZTH_Li_STS_IN_SERVICE 84) true).setFlag (ZTH_Li_STS_CDR_LOCK 84) true
     d.inService 84 = true ∧ isCtx 84 = false ∧ d.flag (ZTH_Li_STS_CDR_LOCK 84) = true ∧ isEl 84 = true ∧ d.held 84 = true ∧ d.domOn (laneDom 84) = true ∧
      (d.loseLock 84).linkOf 84 = some 0) ∧
    (let d := (tLanes.setFlag (ZTH_Li_STS_IN_SERVICE 100) true).setFlag (ZTH_Li_STS_CDR_LOCK 100) true
     d.inService 100 = true ∧ isCtx 100 = false ∧ d.flag (ZTH_Li_STS_CDR_LOCK 100) = true) := by decide +kernel
theorem witness_LinkRules_tests : tReady tLanes 0x0A01 (tCmd [0, 3]) (fun d => !d.testOff 0 && !d.testBusy 0) = true ∧
    tReady (tLanes.setFlag (ZTH_Li_STS_IN_SERVICE 0) true) 0x0A01 (tCmd [0, 1]) (fun d => !d.testOff 0 && d.testBusy 0) = true ∧
    tReady tLanes 0x0A02 (tCmd [0, 3, 1000000]) (fun d => d.domOn (laneDom 0) && !d.testBusy 0 && isCtx 0) = true ∧
    tReady tLanes 0x0A02 (tCmd [84, 1, 0]) (fun d => d.domOn (laneDom 84) && !d.testBusy 84) = true ∧
    tReady tLanes 0x0A03 (tCmd [52]) (fun d => isCrx 52 && d.domOn (laneDom 52) && !d.flag (ZTH_Li_STS_SCANNING 52)) = true ∧
    (tLanes.wf (ZTH_Li_CTL_CHK 52) 1).rf (ZTH_Li_CTL_CHK 52) ≠ 0 ∧ (tLanes.setFlag (ZTH_Li_STS_CHK_LOCK 52) true).flag (ZTH_Li_STS_CHK_LOCK 52) = true ∧
    ((tLanes.wf (ZTH_Li_CTL_GEN 0) 1).wf (ZTH_Li_INJ_RATE 0) 5).rf (ZTH_Li_INJ_RATE 0) ≠ 0 := by decide +kernel
theorem witness_CalibrationRules_banks : (let d := tDev [36, 37, 38, 39, 40, 41, 42, 43, 46, 52, 76, 78] (tPair 0 1); let r := d.busWr .host (bkSel 0 63) 0x10001
    tYes r = true ∧ bitAt (tCmds r) 0 = true ∧ d.armBad 1 0 = false ∧ (d.setFlag (bkPending 0 63) true).armBad 0 63 = true) ∧
    tReady (tTl tHost) 0x0404 (tCmd [0, 0] 12 11) (fun d => !d.badTarget (tCmd [0, 0] 12 11) && d.rf (DFE_TX_t_DPD_TIMELINE 0) == 0 && !d.flag (bkPending 0 0) &&
      !d.flag (bkHeld 0 0) && d.rf (DFE_TX_t_DPD_ACTIVE 0) == 0) = true ∧
    tReady { (tTl tHost) with tls := [] } 0x0404 (tCmd [0, 1] 12 11) (fun d => !(d.tl 0).started && d.rf (DFE_TX_t_DPD_ACTIVE 0) != 1) = true := by decide +kernel
theorem witness_CalibrationRules_runs : tReady tHost 0x0401 (tCmd [0, 62, 2, 1] 4) (fun d => decide (62 + 2 ≤ calCount 0) && !([62, 63].any (d.calRunning 0))) = true ∧
    tReady { tHost with cal.last := [(63, 9, 8, 7)] } 0x0402 (tCmd [0, 63]) (fun d => Tab.find d.cal.last 63 == some (9, 8, 7)) = true ∧
    tReady tHost 0x0403 (tCmd [3, 10]) (fun _ => true) = true := by decide +kernel
/-- A run of kind 0 on chain 5 with that target at a phase. -/
def tRunning (kind : Nat) (ph : CalPhase) : Dev := { tTl tHost with cal.runs := [⟨1, kind, none, 0, [⟨5, ph, 100, 100, 0, 0, []⟩], 0, none, [], 0⟩] }
theorem witness_CalibrationRules_steps : ((tRunning 1 .gathering).calFind 1 5 .gathering).isSome = true ∧ (tRunning 1 .gathering).calSolve 1 5 0 0 [] = .discarded ∧
    ((tRunning 3 .gathering).calFind 3 5 .gathering).isSome = true ∧ (tRunning 3 .gathering).flag (ZTH_Li_STS_SCANNING 5) = false ∧
    (tRunning 3 .gathering).calSolve 3 5 0 0 [] = .fails 1 0 ∧ (tRunning 0 .gathering).calSolve 0 5 0 0 [] = .discarded ∧ ((tRunning 2 .gathering).calFind 2 5 .gathering).map (fun r => (r.1.targets.length, (tRunning 2 .gathering).txStep r.1)) =
      some (1, false) ∧ (upTo 4).all (fun k => ((tRunning k .gathering).calFull k 5 0).any fun full =>
      decide ((tRunning k .gathering).now ≤ 0 + calLimit k) && decide (full ≤ 0 + calLimit k)) = true ∧ calLimit 1 < { tRunning 1 .gathering with now := calLimit 1 + 1 }.now ∧
    (let d : Dev := { tTl tHost with cal.runs := [⟨1, 2, none, 0, [⟨5, .gathering, 0, 0, 0, 0, []⟩, ⟨6, .gathering, 0, 0, 0, 0, []⟩], 0, none, [], 0⟩] }
     (d.calFind 2 5 .gathering).map (fun r => (r.1.targets.length, d.txStep r.1)) = some (2, false) ∧ d.calSolve 2 5 0 7 [1, 2, 3, 4] = .solves 7 [1, 2, 3, 4]) := by decide +kernel
theorem witness_CalibrationRules_verify : ((tRunning 2 .verifying).calFind 2 5 .verifying).map (fun r => r.2.fig0) = some 100 ∧
    (tRunning 2 .verifying).calSolve 2 5 0 105 [] = .solves 105 [] ∧ worseBy 2 4 105 100 = true ∧ worseBy 2 4 104 100 = false ∧
    (tRunning 2 .verifying).flag (bkPending 2 5) = false ∧ ((tRunning 2 .verifying).setFlag (bkPending 2 5) true).flag (bkPending 2 5) = true ∧
    ((tRunning 1 .verifying).calFind 1 5 .verifying).isSome = true ∧ (tRunning 1 .verifying).calSolve 1 5 0 0 [] = .discarded := by decide +kernel
theorem witness_CalibrationRules_window : (let d := tRunning 1 .gathering; let a : Arm := ⟨1, 5, 0, 11, 0, false, .sel⟩
    a.src = .sel ∧ a.kind < 4 ∧ a.target < 112 ∧ ((d.switchBank a 11).cal.runs.any fun r => r.targets.any fun t => t.phase == .gathering && r.measures t 1 5) = true) := by
  decide +kernel
theorem witness_CalibrationRules_excitation : (let d := (tTl (tDev [36, 37, 38, 39, 40, 41, 42, 43, 44, 45, 76, 78]
      (tPair 0 1 ++ [(DFE_CCc_CTL_ENABLE 3, 1), (DFE_CCc_CFG_TDD 3, 1), (DFE_CCc_CFG_SCS 3, 1), (DFE_CCc_PORTS_COUNT 3, 1), (DFE_TDDn_CFG_SCS 0, 1)])))
    let e : Dev := { d with cal.runs := [⟨1, 2, none, 0, [⟨0, .gathering, 0, 0, 0, 0, []⟩], 0, none, [], 0⟩] }
    (e.calFind 2 0 .gathering).map (fun r => (e.txStep r.1, r.1.excited.contains 0)) = some (true, false) ∧ e.tddOf 0 = some (0, 0) ∧
      (e.nextGRun 0 ((e.cal.excite.map (·.till)).foldl max e.feNow)).isSome = true) := by decide +kernel
theorem witness_CalibrationRules_auto : (let d := { tHost with cal.autoAt := [(1, 50)], cal.auto := [(1, 10)] }
    Tab.find d.cal.autoAt 1 = some 50 ∧ d.now ≤ 50 ∧ Tab.find d.cal.autoAt 0 = none ∧
    ((upTo (calCount 1)).filter ({ d.advanceTo 50 with cal.autoAt := [(1, 60)] }.autoTakes 1)).isEmpty = true) := by decide +kernel


/-! ### Digital front end, narrowband bank, carriers, Ethernet -/

/-- An enabled downlink and uplink carrier in context 3 on chain 0: 30 kHz, no pattern, no resource blocks. -/
def tCarrier : Dev :=
  tTl (tDev [0, 1, 2, 36, 37, 38, 39, 40, 41, 42, 43, 44, 45, 67, 68, 69, 70, 71, 72, 73, 74, 76, 78]
    (tPair 0 1 ++ tPair 64 1 ++ [(DFE_CCc_CTL_ENABLE 3, 1), (DFE_CCc_CFG_SCS 3, 1), (DFE_CCc_PORTS_COUNT 3, 1), (DFE_CCc_GAIN 3, 5)]))
theorem witness_FrontEndRules_enable : (let d := tCarrier.wf (DFE_CCc_CTL_ENABLE 3) 0; let r (d : Dev) := d.busWr .host (rDFE_CCc_CTL 3) 0x10001
    tYes (r d) = true ∧ d.flag (DFE_CCc_CTL_ENABLE 3) = false ∧ (r d).1.flag (DFE_CCc_CTL_ENABLE 3) = true ∧ (r d).1.ccFails ((r d).1.ccSpec 3) ((r d).1.ccOthers 3) ≠ [] ∧
    tYes (r tCarrier) = true ∧ tCarrier.flag (DFE_CCc_CTL_ENABLE 3) = (r tCarrier).1.flag (DFE_CCc_CTL_ENABLE 3)) := by decide +kernel
theorem witness_FrontEndRules_symbols : (let d := { tCarrier with dfe.epoch := some (5, 5) }; let e := d.asOf 0 (d.airK 0 12); let x := e.ccSym 3 12 13
    d.dfe.epoch.isSome = true ∧ e.ccOn 3 = true ∧ e.rf (DFE_CCc_CFG_STD 3) < 2 ∧ e.symOk x = true ∧ e.symIs x (e.flag (DFE_CCc_CFG_TDD 3)) (e.rf (DFE_CCc_CFG_PAT 3)) 1 = true ∧
    e.symIs x (e.flag (DFE_CCc_CFG_TDD 3)) (e.rf (DFE_CCc_CFG_PAT 3)) 2 = true ∧ 0 < e.rf (DFE_CCc_PORTS_COUNT 3) ∧ d.domRun (36 + (e.rf (DFE_CCc_PORTS_FIRST 3) + 0) / 16) = true ∧
    readyOk (some [12, 0, 13, 1]) 12 13 = true ∧ readyOk none 12 13 = false ∧ e.rf (DFE_CCc_GAIN 3) ≠ 0 ∧ ((tCarrier.wf (DFE_CCc_GAIN 3) 0).asOf 0 12).rf (DFE_CCc_GAIN 3) = 0 ∧
    ((upTo (e.rf (DFE_CCc_PORTS_COUNT 3))).all fun p => d.domRun (40 + (e.rf (DFE_CCc_PORTS_FIRST 3) + p) / 16)) = true ∧ tCarrier.dfe.epoch = none) := by decide +kernel
theorem witness_FrontEndRules_prach : (let d := ((tCarrier.wf (DFE_PRACH_x_CTL_ENABLE 31) 1).wf (DFE_PRACH_x_CFG_CC 31) 3).wf (DFE_PRACH_x_REP_MOD 31) 20
    d.flag (DFE_PRACH_x_CTL_ENABLE 31) = true ∧ d.ccOn 3 = true ∧ d.flag (TMU_TLn_CTL_ENABLE 0) = true ∧ d.domRun (40 + 31 / 8) = true ∧
    d.rf (DFE_PRACH_x_REP_PHASE 31) < d.rf (DFE_PRACH_x_REP_MOD 31) ∧ ({ d with dfe.prach := [(31, 7)] }.dfe.prach.find? (·.1 == 31)) = some (31, 7) ∧
    tHost.flag (DFE_PRACH_x_CTL_ENABLE 31) = false ∧ (let k := d.nextPhase 0 20 0 (d.reg (rDFE_PRACH_x_START 31)); let e := d.prachConf 31 k
     e.flag (DFE_PRACH_x_CTL_ENABLE 31) = true ∧ e.ccOn (e.rf (DFE_PRACH_x_CFG_CC 31)) = true ∧ k % max 1 (e.rf (DFE_PRACH_x_REP_MOD 31)) = e.rf (DFE_PRACH_x_REP_PHASE 31))) := by decide +kernel
theorem witness_FrontEndRules_capture : tCarrier.domRun (36 + 63 / 16) = true ∧ (tCarrier.orxCaps 7).length < 4 ∧ tHost.domRun 36 = false ∧
    (tCarrier.setOrxCaps 7 [⟨63, 5, 6, 0x2000000000⟩]).orxCaps 7 = [⟨63, 5, 6, 0x2000000000⟩] := by decide +kernel
theorem witness_FrontEndRules_lines : (let d := tTl (tDev [76, 78] [(DFE_GPIO_l_CFG_MODE 63, 3), (DFE_GPIO_l_CFG_MODE 0, 2), (DFE_GEV_e_CTL_ENABLE 255, 1), (DFE_GEV_e_REP_MOD 255, 1)])
    let k := d.nextPhase 0 1 0 0; let c := d.asOf 0 k
    3 ≤ d.rf (DFE_GPIO_l_CFG_MODE 63) ∧ d.rf (DFE_GPIO_l_CFG_MODE 63) ≤ 6 ∧ d.rf (DFE_GEV_e_CFG_TIMELINE 255) = 0 ∧ d.flag (TMU_TLn_CTL_ENABLE 0) = true ∧ d.domOn 78 = true ∧
    c.flag (DFE_GEV_e_CTL_ENABLE 255) = true ∧ c.rf (DFE_GPIO_l_CFG_MODE (c.rf (DFE_GEV_e_CFG_LINE 255))) = 2 ∧ c.rf (DFE_GEV_e_REP_PHASE 255) < c.rf (DFE_GEV_e_REP_MOD 255) ∧
    k % c.rf (DFE_GEV_e_REP_MOD 255) = c.rf (DFE_GEV_e_REP_PHASE 255) ∧ d.feNow ≤ d.phaseTime 0 k (toSigned 32 (c.reg (rDFE_GEV_e_OFFSET 255))) ∧ d.pmu.park = none ∧
    Tab.find d.dfe.gev 0 = none) := by decide +kernel
/-- The difference of a time check at these two instants, in DEVCLK ticks. -/
def tDiff (a e : Nat) : Int := roundDiv (((a : Int) - e) * 1536) (3125 * 2 ^ 32)
theorem witness_FrontEndRules_time : { tHost with dfe.epoch := some (7, 7) }.dfe.epoch = some (7, 7) ∧ tHost.dfe.epoch = none ∧ (tDiff 7 7).natAbs ≤ 2 ∧
    2 < (tDiff (100 * 2 ^ 32) 0).natAbs ∧ tDiff (100 * 2 ^ 32) 0 ≤ 32767 ∧ -32768 ≤ tDiff 0 (100 * 2 ^ 32) := by decide +kernel
theorem witness_FrontEndRules_jesd : (let d : Dev := { (((tLanes.wf (jesdEnable 4) 1).wf ⟨jReg 4 1, 0, 2⟩ 1).setFlag (ZTH_Li_STS_CDR_LOCK 57) true) with dfe.lemc := [(4, 9)] }
    d.unitRuns 4 = true ∧ Tab.find d.dfe.lemc 4 = some 9 ∧ 5 < unitLinks 4 (d.jRate 4) ∧ d.flag (linkUpF 4 5) = false ∧
    ((upTo (linkLanes (d.jRate 4))).map fun j => d.unitLane 4 (5 * linkLanes (d.jRate 4) + j)) = [57] ∧ d.domRun (laneDom 57) = true ∧
    d.flag (ZTH_Li_STS_CDR_LOCK 57) = true ∧ d.flag (jesdEnable 4) = true ∧ (5 : Nat) < (unitLanes 4).length ∧ (d.setFlag (linkUpF 4 5) true).flag (linkUpF 4 (5 / linkLanes (d.jRate 4))) = true ∧
    ({ d with dfe.remaps := [(4, 0, 9)] }.dfe.remaps.find? (·.1 == 4)) = some (4, 0, 9)) ∧
    (let d := tLanes.wf (jesdEnable 4) 1; (d.advanceTo (d.now + tickT 3)).anyUnit = true ∧ (d.advanceTo (d.now + tickT 3)).dfe.epoch = none ∧
      (tLanes.advanceTo (tLanes.now + tickT 3)).anyUnit = false ∧ d.flag (jesdEnable 4) = true) ∧
    (let r (v : Nat) := tCarrier.busWr .host (jReg 4 0) v
     tYes (r 0x10001) = true ∧ (r 0x10001).1.flag (jesdEnable 4) ≠ tCarrier.flag (jesdEnable 4) ∧ tYes (r 0x10000) = true ∧ (r 0x10000).1.flag (jesdEnable 4) = tCarrier.flag (jesdEnable 4)) := by
  decide +kernel
/-- Timeline 0 of the narrowband kind. -/
def tNb : Dev := (tCarrier.wf (TMU_TLn_CFG_KIND 0) 2).wf (TMU_TLn_PERIOD 0) 1000000
/-- A packet of 8 bits whose first symbol starts at `t`. -/
def tPk (t : Nat) : NbPkt := ⟨1, 0, 0, 13, 0, 8, [5], t, none, none⟩
def tNbAdd : PqCmd := tCmd [5, 0, 0, 1200, 4, 50, 50, 0, 0, 6, 63] 12 6
theorem witness_NarrowbandRules_add : nbLegal false 0 3600 4 50 50 0 = true ∧ tReady { tNb with tls := [(0, ⟨true, 5, 6, [], []⟩)] } 0x0205 tNbAdd (fun d =>
    !d.badTarget tNbAdd && d.rf (TMU_TLn_CFG_KIND 0) == 2 && !d.nbCarrier 5 && !d.nbTaken 5 && (d.nbOther 5 1).isNone && d.domRun 44 && !d.nbHas 5 0 && decide (d.nbCount 0 < 256)) = true ∧
    tReady { tNb.wf (NBB_CHn_CTL_RX_EN 5) 1 with tls := [(0, ⟨true, 5, 6, [], []⟩)], fw.nb := [(5, ⟨0, 0, 1200, 4, 50, 50, 0, 0, 6, 63, 0⟩)] } 0x0206 (tCmd [5] 12 6) (fun d =>
      !d.badTarget (tCmd [5] 12 6) && !d.nbTaken 5 && d.nbHas 5 0 && (d.nbOther 5 0).isSome) = true := by decide +kernel
theorem witness_NarrowbandRules_tx : (let e := tUp [(0, 3), (1, 5), (4, 255), (5, 255), (6, 13), (16, 16)]; let d := tTl ((tNb.wf (NBB_CHn_CTL_TX_EN 5) 1).wf (NBB_CHn_RATE_RATE3 5) 900000)
    d.hasUpEntry 0 = true ∧ leAt e 0 1 = 3 ∧ upBad e = false ∧ leAt e 4 2 = 0xFFFF ∧ 8 ≤ leAt e 16 4 ∧ d.obOk (leAt e 8 8) (leAt e 16 4) = true ∧
    0 < d.periodNs 0 ∧ d.nbCarrier 5 = false ∧ d.flag (NBB_CHn_CTL_TX_EN 5) = true ∧ tNb.flag (NBB_CHn_CTL_TX_EN 5) = false ∧ d.flag (TMU_TLn_CTL_ENABLE 0) = true ∧
    ahead (d.refK 0) 13 ≤ 256 ∧ d.future 0 13 = true ∧ (tPk (d.nbSample (d.boundaryT 0 (d.airK 0 13)))).rise (d.nbModOf 5) ≥ d.feNow + usT 200 ∧
    (tPk 0).rise (d.nbModOf 5) < d.feNow + usT 200 ∧ d.nbHeld 5 = [] ∧ d.marrow.cfg.mask = 0) := by decide +kernel
theorem witness_NarrowbandRules_air : (let p := tPk 5; let q : NbPkt := { p with onAir := some ⟨0, 3600, 50, 50, 0, 1, none⟩ }; let d := (tNb.wf (NBB_CHn_RATE_RATE3 5) 3600).setHeld 5 [p]
    d.nbHeld 5 = [p] ∧ p.onAir = none ∧ q.onAir.isSome = true ∧ ((d.advanceTo (d.feTime (p.rise (d.nbModOf 5)))).txDrainAll).nbTxOn 5 = true ∧
    (((tHost.setHeld 5 [p]).advanceTo (tHost.feTime (p.rise (tHost.nbModOf 5)))).txDrainAll).nbTxOn 5 = false ∧ (tNb.setHeld 5 [q]).nbHeld 5 = [q] ∧ q.cut = none ∧
    { q with cut := some (3, 9) }.cut = some (3, 9) ∧ q.tag = (1 : BitVec 16).toNat) := by
  decide +kernel
theorem witness_NarrowbandRules_full : (let d := tNb.wf (NBB_CHn_RATE_RATE3 5) 3600; let p := tPk (msT 10); let mo := d.nbModOf 5
    let meets (d : Dev) : Bool := (d.nbHeld 5).any fun q => let mq := d.pktMod 5 q; decide (q.rise mq < p.gone mo) && decide (p.rise mo < q.gone mq)
    meets (d.setHeld 5 [tPk (msT 10 + 1)]) = true ∧ meets (d.setHeld 5 (List.replicate 8 (tPk (msT 30)))) = false ∧
    8 ≤ ((d.setHeld 5 (List.replicate 8 (tPk (msT 30)))).nbHeld 5).length) := by decide +kernel
/-- Channel 5 receiving in SEARCH. -/
def tNbRx : Dev := ({ tNb with nbb.chans := [(5, NbChan.fresh 0)] }.wf (NBB_CHn_STS_STATE 5) 2).wf (NBB_CHn_CTL_RX_EN 5) 1
theorem witness_NarrowbandRules_rx : tNbRx.nbRxOn 5 = true ∧ (Tab.find tNbRx.nbb.chans 5).isSome = true ∧ tNbRx.nbCarrier 5 = false ∧ tNbRx.rf (NBB_CHn_STS_STATE 5) = 2 ∧
    (NbChan.fresh 0).idleNow (usT 499) < usT 500 ∧ usT 500 ≤ (NbChan.fresh 0).idleNow (tNbRx.advanceTo (msT 1)).now ∧ (tNbRx.wf (NBB_CHn_STS_STATE 5) 1).rf (NBB_CHn_STS_STATE 5) = 1 ∧
    (tNbRx.wf (NBB_CHn_STS_STATE 5) 3).rf (NBB_CHn_STS_STATE 5) = 3 ∧ (tNbRx.wf (NBB_CHn_STS_STATE 5) 4).rf (NBB_CHn_STS_STATE 5) = 4 ∧
    ((16 : BitVec 16).toInt - toSigned 16 ((tNbRx.wf (NBB_CHn_FLOOR_NF 5) 8).rf (NBB_CHn_FLOOR_NF 5))) % 8 = 0 := by decide +kernel
theorem witness_NarrowbandRules_search : (let m : NbMeas := ⟨[], 0, false, 0, 0, 0, 0, 0, 0⟩; let th (d : Dev) : Int := toSigned 16 (d.rf (NBB_CHn_FLOOR_NF 5)) + 2 * (d.rf (NBB_CHn_DET_MARGIN 5) : Int)
    th ((tNbRx.wf (NBB_CHn_FLOOR_NF 5) 0x8000).wf (NBB_CHn_DET_MARGIN 5) 0) ≤ m.rssi ∧ m.rssi < th (tNbRx.wf (NBB_CHn_FLOOR_NF 5) 5)) ∧
    (let d := { tNbRx with nbb.chans := [(5, { NbChan.fresh 0 with lock := some ⟨0, 0, 0, 0, 0, 0, 0, false, false, false, false, 8, [], 0, 0, 0, false⟩ })] }
     (Tab.find d.nbb.chans 5).map (fun x => x.lock.isSome) = some true ∧ d.nbCarrier 5 = false ∧ (d.wf (NBB_CHn_STS_STATE 5) 4).rf (NBB_CHn_STS_STATE 5) = 4) ∧
    (let d := (tNbRx.wf (NBB_CHn_MOD_SRC 5) 1).wf (NBB_CHn_GSM_TN_MODE 5) 0x5555
     d.nbCarrier 5 = true ∧ d.flag (NBB_CHn_CTL_RX_EN 5) = true ∧ d.nbRxOn 5 = true ∧ (d.gsmSlot 5).1 = 1 ∧ ((d.wf (NBB_CHn_GSM_TN_MODE 5) 0xAAAA).gsmSlot 5).1 ≠ 1 ∧ (tZeros 116).length = 116) := by decide +kernel
theorem witness_NarrowbandRules_ctl : (let d := tNb.wf (NBB_CHn_CTL_TX_EN 5) 0; let r := d.busWr .host (rNBB_CHn_CTL 5) 0x20002
    tYes r = true ∧ r.1.flag (NBB_CHn_CTL_RX_EN 5) = false ∧ r.1.flag (NBB_CHn_CTL_TX_EN 5) = true ∧ d.nbStaged 5 1 = none ∧ d.nbCount 1 < 64) ∧
    (let d := (upTo 64).foldl (fun d n => d.wf (NBB_CHn_CTL_TX_EN (100 + n)) 1) tNb; let r := d.busWr .host (rNBB_CHn_CTL 5) 0x20002
     tYes r = true ∧ d.flag (NBB_CHn_CTL_TX_EN 5) = false ∧ r.1.flag (NBB_CHn_CTL_TX_EN 5) = true ∧ r.1.flag (NBB_CHn_CTL_RX_EN 5) = false ∧ d.nbStaged 5 1 = none ∧
       64 ≤ d.nbCount 1) ∧ ([(NBB_CHn_RATE_RATE3 5, 3600), (NBB_CHn_SHAPE_BT 5, 50), (NBB_CHn_SHAPE_H 5, 50), (NBB_CHn_DET_CAP_TH 5, 6), (NBB_CHn_FMT_PRE_LEN 5, 8),
      (NBB_CHn_FMT_SYNC_LEN 5, 16)].foldl (fun (d : Dev) x => d.wf x.1 x.2) tNb).nbRxOk 5 = true := by decide +kernel
/-- CARRIER_ADD of an NR carrier, 20 MHz at 30 kHz, chain 0, pair 1, for period 11. -/
def tAdd (cc : Word) : PqCmd := tCmd [cc, 0, 20000, 30, 0, 0, 1, 0, 0, 1] 12 11
def tFree : Dev := tTl (tDev [36, 40, 76, 78] (tPair 0 1))
theorem witness_CarrierRules : tReady tFree 0x0201 (tAdd 255) (fun d => !d.badTarget (tAdd 255) && !d.carBad 255 0 11 (carPar (tAdd 255)) &&
      (Tab.find d.fw.carriers 255).isNone && !d.ccOn 255 && !d.ethCcOn 255) = true ∧
    tReady tFree 0x0201 (tAdd 256) (fun d => !d.badTarget (tAdd 256) && d.carBad 256 0 11 (carPar (tAdd 256))) = true ∧
    tReady { tFree with fw.carriers := [(4, ⟨carPar (tAdd 4), 0, 2, 0, 0, false, true⟩)] } 0x0201 (tAdd 4) (fun d => !d.carBad 4 0 11 (carPar (tAdd 4)) &&
      (Tab.find d.fw.carriers 4).isSome && !d.addLater 4 0 11) = true ∧ tReady tFree 0x0204 (tCmd [255]) (fun d => (Tab.find d.fw.carriers 255).isNone) = true ∧
    nrbOf 0 30 20000 = 51 := by decide +kernel
theorem witness_CarrierRules_later : (let d (st : Nat) : Dev := { tFree with fw.carriers := [(4, ⟨carPar (tAdd 4), 0, st, 0, 0, false, true⟩)] }
    let ok (c : PqCmd) (d : Dev) (st : Nat) : Bool := !d.badTarget c && !d.addLater 4 0 11 && (Tab.find d.fw.carriers 4).map (fun x => (x.tl, x.state)) == some (0, st)
    tReady (d 2) 0x0202 (tAdd 4) (fun d => ok (tAdd 4) d 2 && !d.carBad 4 0 11 (carPar (tAdd 4))) = true ∧ tReady (d 2) 0x0203 (tCmd [4] 12 11) (fun d => ok (tCmd [4] 12 11) d 2) = true ∧
    tReady (d 3) 0x0203 (tCmd [4] 12 11) (fun d => ok (tCmd [4] 12 11) d 3) = true ∧ tReady (d 2) 0x0204 (tCmd [4]) (fun d => (Tab.find d.fw.carriers 4).isSome) = true ∧
    tReady tFree 0x0202 (tAdd 4) (fun d => (Tab.find d.fw.carriers 4).isNone) = true ∧ tReady tFree 0x0203 (tCmd [4] 12 11) (fun d => (Tab.find d.fw.carriers 4).isNone) = true) ∧
    (let c : PqCmd := tCmd [4, 2, 200, 15, 0, 0, 1, 0, 0, 1] 12 11; (carPar c).std = 2 ∧ (tFree.gsmChannels (carPar c).portCount).isSome = true ∧
      (((upTo 256).foldl (fun d n => d.wf (NBB_CHn_CTL_RX_EN n) 1) tFree).gsmChannels 1) = none) := by decide +kernel
theorem witness_CarrierRules_enable : (let d := [62].foldl (fun d n => d.wf (PMU_PDd_STS_STATE n) 0) tCarrier; let r (c v : Nat) := d.busWr .host (rETH_CCc_CTL c) v
    tYes (r 3 0x10001) = true ∧ d.flag (ETH_CCc_CTL_ENABLE 3) = false ∧ (r 3 0x10001).1.flag (ETH_CCc_CTL_ENABLE 3) = true ∧ (r 3 0x10001).1.ccOn 3 = true ∧
    tYes (r 4 0x10000) = true ∧ (r 4 0x10000).1.flag (ETH_CCc_CTL_ENABLE 4) = false) := by decide +kernel
theorem test_carrier_add : tNext (exec (.carrierAdd (tAdd 4)) (tWith tFree 0x0201 (tAdd 4))) (fun t => (Tab.find t.dev.fw.carriers 4).isSome && t.dev.fw.staged.length == 1) = true := by
  decide +kernel
theorem witness_NarrowbandRules_report : (let r : NbReport := ⟨5, some 0, 0, ⟨0, 0, 0, 0, 0, 0, 0, false, false, false, false, 2, [], 0, 0, 0, false⟩, [1, 2], 0⟩
    let d : Dev := { tNb.updQp 64 fun x => { x with ulbufs := [⟨1, 0, 2⟩] } with nbb.reports := [r] }
    d.nbb.reports = [r] ∧ r.pair = some 0 ∧ r.reason = 0 ∧ (takeBuf (d.qp 64).ulbufs r.lock.maxb).isSome = true ∧ d.upRoom 0 = true ∧
    (d.updQp 64 fun x => { x with held := List.replicate 64 ⟨1, 0, 0, 0, [], []⟩ }).upRoom 0 = false ∧ takeBuf (tNb.qp 64).ulbufs r.lock.maxb = none ∧ { r with pair := none }.pair = none ∧
    tNb.nbb.reports = []) := by decide +kernel
/-- Link 0 up. -/
def tEth : Dev := ((tLanes.setFlag (ethUpF 0) true).wf (ETH_Lk_MSEC_ENABLE 1) 1)
theorem witness_EthernetRules_frames : tEth.ethUp 0 = true ∧ tEth.ethUp 1 = false ∧ Tab.getD (fun _ => 0) tEth.zth.gaps 0 ≤ tEth.now ∧
    tEth.now < Tab.getD (fun _ => 0) { tEth with zth.gaps := [(0, 5000001 * 2 ^ 32)] }.zth.gaps 0 ∧ tEth.flag (ETH_Pp_CTL_ENABLE 0) = true ∧
    ((tEth.bump (ETH_Lk_RX_FRAMES 0)).msecRx 0 (tZeros 60) none) = some (tZeros 60, false) ∧ ((tEth.bump (ETH_Lk_RX_FRAMES 0)).upStream 0 (tZeros 60)).isNone = true := by decide +kernel
theorem witness_EthernetRules_symbols : (let d := tTl (tDev [57, 76, 78] [(ETH_CCc_CTL_ENABLE 9, 1), (ETH_CCc_CFG_SCS 9, 1), (ETH_CCc_PORTS_COUNT 9, 1)])
    let x := d.ethSym 9 (d.airK 0 12) 13
    d.ethCcOn 9 = true ∧ d.symOk x = true ∧ d.symIs x (d.flag (ETH_CCc_CFG_TDD 9)) (d.rf (ETH_CCc_CFG_PAT 9)) 2 = true ∧
    d.symIs x (d.flag (ETH_CCc_CFG_TDD 9)) (d.rf (ETH_CCc_CFG_PAT 9)) 1 = true) := by decide +kernel
theorem witness_EthernetRules_queues : (let d := ((tLanes.wf (ETH_MQ_p_TXq_CTL_ENABLE 0 3) 1).wf (ETH_MQ_p_TXq_TAIL 0 3) 1); let r (v : Nat) := d.busWr .firmware (rETH_MQ_p_TXq_TAIL 0 3) v
    tYes (r 0xFFFF0001) = true ∧ (r 0xFFFF0001).1.rf (ETH_MQ_p_TXq_TAIL 0 3) < d.mqSize 0 3 ∧ d.mqSize 0 3 ≤ (r 0xFFFFFFFF).1.rf (ETH_MQ_p_TXq_TAIL 0 3) ∧
    d.flag (ETH_MQ_p_TXq_CTL_ENABLE 0 3) = true ∧ d.rf (ETH_MQ_p_TXq_HEAD 0 3) ≠ d.rf (ETH_MQ_p_TXq_TAIL 0 3) ∧ d.domRun 57 = true ∧
    (d.busRead (ethStop 0) (d.mqBase 0 3) 32).2 = none) := by decide +kernel
/-- Queue 3 of port 0 with one entry, a frame of `n` bytes; link 0 up. -/
def tMq (n : Nat) : Dev :=
  let d := tBuf (tDev [57, 67, 68, 69, 70, 71, 72, 73, 74, 76, 78] [(ETH_Pp_CTL_ENABLE 0, 1), (ETH_MQ_p_TXq_CTL_ENABLE 0 3, 1), (ETH_MQ_p_TXq_CTL_BASE_HI 0 3, 0x20),
    (ETH_MQ_p_TXq_TAIL 0 3, 1), (ETH_Pp_FRAME_MAX 0, 1522), (ethUpF 0, 1)])
  (d.busWrite (ethStop 0) none (d.mqBase 0 3) (tZeros 8 ++ leBytes 8 (cbufBase + 256) ++ leBytes 2 n ++ tZeros 14)).1
theorem witness_EthernetRules_launch : (let d := tMq 60; let r := d.busRead (ethStop 0) (d.mqBase 0 3 + 32 * d.rf (ETH_MQ_p_TXq_HEAD 0 3)) 32; let e := r.2.getD []
    r.2.isSome = true ∧ leAt e 0 8 = 0 ∧ leAt e 16 2 = 60 ∧ 60 ≤ r.1.rf (ETH_Pp_FRAME_MAX 0) ∧ leAt e 20 1 = 0 ∧
    (let x := r.1.busRead (ethStop 0) (leAt e 8 8) 60; x.2.isSome = true ∧ x.1.ethUp 0 = true ∧ x.1.flag (ETH_Lk_MSEC_ENABLE 0) = false)) ∧
    (let d := tMq 59; (d.busRead (ethStop 0) (d.mqBase 0 3) 32).2.map (fun e => (leAt e 16 2, leAt e 0 8)) = some (59, 0) ∧ d.flag (ETH_Pp_CTL_ENABLE 0) = true ∧
      d.flag (ETH_MQ_p_TXq_CTL_ENABLE 0 3) = true ∧ d.rf (ETH_MQ_p_TXq_HEAD 0 3) ≠ d.rf (ETH_MQ_p_TXq_TAIL 0 3) ∧ d.domRun 57 = true) := by decide +kernel
theorem witness_EthernetRules_stamps : (let x : TsEntry := ⟨0, 0, 0, 0⟩; let d := (tDev [60, 76, 78] []).setTsq 3 [x]; let r := d.busWr .firmware (rETH_TSQ_p_CTL 3) 0x10001
    d.tsq 3 = [x] ∧ tYes r = true ∧ bitAt (tCmds r) 0 = true ∧ (d.tsq 3).length < 32 ∧ 32 ≤ ((tHost.setTsq 3 (List.replicate 32 x)).tsq 3).length) := by decide +kernel
/-- R383: 2047 with DL_SHIFT 4 and 9 bits is 255.875 at exponent 4, which rounds out of range, and 128 at exponent 5. -/
theorem test_dl_prb : parsePrb (prbBytes 9 4 (2047 :: List.replicate 23 (-32))) 9 = (5, 128 :: List.replicate 23 (-2)) := by decide +kernel
theorem test_dl_frame : (let f := tEth.uFrame 0 7 1 5 ⟨0, 1, false, 0, 3⟩ [List.replicate 28 1, List.replicate 28 2]
    f.length = 36 + 56 ∧ ecpriAt f = some 18 ∧ beAt f 24 2 = 0x0780 ∧ beAt f 30 4 = 0x100000 + 5 * 256 + 2) := by decide +kernel
theorem witness_EthernetRules_macsec : { tSt tEth with sec.keys := [(3, 7)], sec.ckns := [(3, 1, 9)] }.mkaKey 1 3 = true ∧ (tSt tEth).mkaKey 1 3 = false ∧
    tEth.flag (ETH_Lk_MSEC_ENABLE 1) = true ∧ tEth.domOn 57 = true ∧
    { tEth with eth.saks := [⟨1, true, 5, 0, 2, 0xFFFFFFFF⟩] }.txSak 1 = some ⟨1, true, 5, 0, 2, 0xFFFFFFFF⟩ ∧
    { tEth.setFlag (ethUpF 1) true with eth.saks := [⟨1, true, 5, 0, 2, 9⟩] }.txSak 1 = some ⟨1, true, 5, 0, 2, 9⟩ := by decide +kernel


/-! ### Boot, keys, alarms -/

/-- The controller powered with the root reference locked. -/
def tBoot : Dev := tDev [76, 78, 79] [(CKR_PLL_STS_ROOT_LOCK, 1)]
theorem witness_SecurityRules_boot : tBoot.dom 78 = 0 ∧ (Dev.reset.dom 78 = 3 ∧ (Dev.reset.wf CKR_PLL_STS_ROOT_LOCK 1).flag CKR_PLL_STS_ROOT_LOCK = true ∧ Dev.reset.thm.trip = none) ∧
    State.reset.sec.valid 1 State.reset.sec.flash.fwA = false ∧ State.reset.sec.valid 1 State.reset.sec.flash.fwB = false ∧
    Dev.reset.flag CKR_PLL_STS_ROOT_LOCK = false := by decide +kernel
theorem witness_SecurityRules_recovery : (let r (v : Nat) := ((tBoot.setFlag SEC_BOOT_STS_RECOVERY true).bar2In [7]).busWr .host rSEC_RECOVERY_CTL v
    tYes (r 0x10001) = true ∧ bitAt (tCmds (r 0x10001)) 0 = true ∧ tYes (r 0x10000) = true ∧ bitAt (tCmds (r 0x10000)) 0 = false ∧
    State.reset.sec.flash.inForce.2.1 + 1 < 2 ^ 32) := by decide +kernel
theorem witness_SecurityRules_seal : (tBoot.setFlag SEC_BOOT_STS_SEALED true).flag SEC_BOOT_STS_SEALED = true ∧ bitAt State.reset.sec.f6 4 = false ∧ State.reset.sec.f2 = 0 ∧
    bitAt { State.reset.sec with f6 := 16 }.f6 4 = true ∧ ({ State.reset.sec with f3 := 7 } : Sec).f3 ≠ 0 ∧
    (let d := { tBoot with now := nsT (86400 * 1000000000) }; d.domOn 78 = true ∧ d.flag SEC_BOOT_STS_RECOVERY = false ∧ d.fw.since + nsT (86400 * 1000000000) ≤ d.now) ∧
    (tBoot.setFlag SEC_BOOT_STS_RECOVERY true).flag SEC_BOOT_STS_RECOVERY = true := by decide +kernel
theorem witness_SecurityRules_debug : State.reset.sec.lockout = none ∧ State.reset.sec.challenge = none ∧ State.reset.responseOk [] [] = none ∧
    State.reset.dev.rf SEC_DEBUG_STS_FAILS ≠ 2 ∧ ({ State.reset.sec with lockout := some 3 } : Sec).lockout = some 3 := by decide +kernel
theorem test_recovery_bad_image : tNext (exec (.recoveryGo .host 0x10001 [1]) (tSt (tBoot.setFlag SEC_BOOT_STS_RECOVERY true))) (fun t => t.dev.rf SEC_ALARMS == 1) = true := by decide +kernel
theorem test_fuse_f3 : tNext (exec (.fuseProg 3 9) State.reset) (fun t => t.sec.f3 == 9) = true := by decide +kernel

/-! ### The Lyre -/

def tPkt (seq : Nat) : RingPkt := ⟨3, 0, none, seq, 1, 0x2000000000, 0, 8, tZeros 8, 0, 0, 0, 0, [], 0⟩
/-- Stream `k` with packet `seq` sent and not yet acknowledged. -/
def tSent (k seq : Nat) : Dev := tHost.setStream k ⟨seq + 1, seq, false, none, [tPkt seq], [seq]⟩
/-- Packet 0 of class 1 from stop 16 to 18, waiting at its source. -/
def tRw : RingWait := ⟨false, 16, 18, 1, tPkt 0⟩
/-- Its stop unfenced, with that packet waiting. -/
def tRing : Dev := { tHost.setFlag (LYR_STOP_s_STS_FENCED 16) false with lyr.waiting := [tRw] }
theorem witness_RingRules_inject : (let d := tRing.returnsHome
    d.flag (LYR_STOP_s_CTL_BYPASS 16) = false ∧ d.flag (LYR_STOP_s_STS_FENCED 16) = false ∧ pktFits (d.ringOf false 16 18 1) 1 3 8 (tZeros 8) = true ∧
    pktFits (d.ringOf true 16 18 1) 1 3 256 (tZeros 256) = false ∧ tHost.flag (LYR_STOP_s_STS_FENCED 15) = true ∧ d.lyr.starving.contains 27 = false) := by decide +kernel
theorem witness_RingRules_try : (let d := tRing; let k := streamKey (d.ringOf false 16 18 1) 16 18 1; let nib := d.route 16 (d.rf LYR_EPOCH_ACTIVE) 18 1
    let p0 : RingPkt := { tRw.pkt with dir := nib / 2 % 2, seq := (d.stream k).nextSeq, epoch := d.rf LYR_EPOCH_ACTIVE }
    let p (e : Dev) : RingPkt := { p0 with slots := e.slotsFor k p0 }
    let owed := d.setStream k ⟨0, 0, false, some 0, [], []⟩
    d.flag (LYR_STOP_s_CTL_BYPASS 16) = false ∧ (isRequest tRw.pkt.type = true → d.flag (LYR_STOP_s_STS_FENCED 16) = false) ∧
    d.flag (LYR_STOP_s_CTL_BYPASS 18) = false ∧ nib / 4 ≠ 2 ∧ d.ringMay k (p d) = true ∧ d.otherRing (keyRing k) 16 18 1 = false ∧ d.lyr.starving = [] ∧
    (d.setFlag (LYR_STOP_s_CTL_BYPASS 18) true).flag (LYR_STOP_s_CTL_BYPASS 18) = true ∧ owed.ringMay k (p owed) = false ∧ (p d).slots = [1]) := by decide +kernel
theorem witness_RingRules_pump : (let d := tRing; let owed := d.setStream (streamKey 0 16 18 1) ⟨0, 0, false, some 0, [], []⟩
    let l (e : Dev) := ((e.lyr.waiting.map (·.src)).eraseDups).flatMap e.ringPicks
    l owed = [tRw] ∧ (match owed.ringTry tRw with | .waits => true | _ => false) = true ∧ l d = tRw :: [] ∧ (match d.ringTry tRw with | .gone _ => true | _ => false) = true ∧
    (d.ringPicks 16).head? = some tRw ∧ Tab.getD (fun _ => 0) d.lyr.turns 16 ≠ 15 ∧
    (let e : Dev := { d with lyr.turns := [(16, 15)] }; (e.ringPicks 16).head? = some tRw ∧ Tab.getD (fun _ => 0) e.lyr.turns 16 = 15)) := by decide +kernel
theorem witness_RingRules_slots : (let d := (tHost.setFlag (LYR_RSV_e_q_j_VALID 0 0) true).wf (LYR_RSV_e_q_j_OWNER 0 0) 16
    (d.slotsFor (streamKey 0 16 18 0) (tPkt 0)).contains 0 = true ∧ keyRing (streamKey 0 16 18 0) ≠ 2) := by decide +kernel
theorem witness_RingRules_home : (let d : Dev := { tHost with lyr.mring := [(25, 12)] }
    d.lyr.mring = [(25, 12)] ∧ d.lyr.returns = [] ∧ d.flag (LYR_STOP_s_STS_BYPASSED 12) = false ∧ (d.setFlag (LYR_STOP_s_STS_BYPASSED 12) true).flag (LYR_STOP_s_STS_BYPASSED 12) = true) := by
  decide +kernel
theorem witness_RingRules_answer : (let k := streamKey 1 16 18 1
    16 = keySrc k ∧ 18 ≠ keySrc k ∧ isPosted (tPkt 0).type = true ∧ isPosted { tPkt 0 with type := 1 }.type = false ∧ { tPkt 0 with type := 4 }.type = 4) := by decide +kernel
theorem witness_RingRules_faults : (let l (d : Dev) (key : Nat) := d.now :: (Tab.getD (fun _ => []) d.lyr.faults key).filter fun t => decide (d.now < t + nsT 1000000000)
    let d : Dev := { tHost with lyr.faults := [(14, []), (48, [0])] }
    2 ≤ (l d 48).length ∧ (l d 14).length < 3 ∧ d.flag (LYR_STOP_s_CTL_BYPASS 16) = false ∧ d.podMode 3 ≠ 1 ∧ d.lyr.failing.contains 3 = false) := by decide +kernel
theorem witness_RingRules_stats_short : tReady tHost 0x0A05 (tCmd [0, 1, 95]) (fun d => d.lyr.sample == none) = true ∧
    tReady (tHost.wf HIF_OB_BASE 1) 0x0A05 (tCmd [0, 0, 96]) (fun d => !d.obOk (pAddr (tCmd [0, 0, 96]) 0) 96) = true := by decide +kernel
theorem witness_RingRules_accept : (let k := streamKey 1 27 0 3; let d := (tSent k 65535).returnsHome; let x := d.stream k
    x.flight = 65535 :: [] ∧ x.window.find? (·.seq == 65535) = some (tPkt 65535) ∧ tHost.returnsHome.stream k = Stream.reset ∧ x.refused = false ∧
    d.refuser 27 0 3 0 0 = none ∧ (d.setFlag (LYR_STOP_s_CTL_BYPASS 0) true).refuser 27 0 3 0 0 = some 27 ∧ (tPkt 65535).seq = x.expSeq ∧ (tPkt 4).seq ≠ x.expSeq ∧
    isRequest (tPkt 4).type = true ∧ isRequest { tPkt 4 with type := 2 }.type = false ∧
    (let d1 := (d.ringTaken k (tPkt 65535)).ringCount k (tPkt 65535).carried 0 9
     d1.flag (LYR_STOP_s_STS_FENCED 0) = true ∧ (d1.setFlag (LYR_STOP_s_STS_FENCED 0) false).flag (LYR_STOP_s_STS_FENCED 0) = false)) := by decide +kernel
theorem witness_RingRules_retry : (let k := streamKey 1 27 0 3; let x := (tSent k 65535).returnsHome.stream k; let again (n : Nat) := (x.window.map fun p => { p with tries := n }).dropWhile (·.seq != 65535)
    x.retry = none ∧ ((tSent k 5).setStream k { x with retry := some 65535 } |>.returnsHome.stream k).retry = some 65535 ∧
    ((again 4).any fun p => decide (4 ≤ p.tries)) = true ∧ ((again 0).any fun p => decide (4 ≤ p.tries)) = false) := by decide +kernel
theorem witness_RingRules_crc : ringCrcOk (flipBytes ((tPkt 0).image 5) [(33, 1)]) = false := by decide +kernel
theorem witness_RingRules_hop : (let hop := (2 * 2 + 1) * 28 + 27; let old (l : List Nat) := (Tab.getD (fun _ => []) { tHost with lyr.hops := [(hop, l)] }.lyr.hops hop).filter fun t => decide (tHost.now < t + msT 1)
    (old [0]).length < 7 ∧ 7 ≤ (old [1, 1, 1, 1, 1, 1, 1]).length) := by decide +kernel
theorem witness_RingRules_bounce : (tHost.lyr.bounces.find? fun b => b.1 == 5) = none ∧
    ({ tHost with lyr.bounces := [(5, 18, 64, 4)] }.lyr.bounces.find? fun b => b.1 == 5) = some (5, 18, 64, 4) ∧
    (let k := streamKey 0 18 5 1; let d := tHost.setStream k ⟨1, 0, false, none, [{ tPkt 0 with type := 6 }], [0]⟩
     let first (d : Dev) := d.lyr.streams.find? fun x => keyDst x.1 == 5 && x.2.window.any fun p => p.type == 6 && x.2.flight.head? == some p.seq
     first tHost = none ∧ (first d).map (·.1) = some k) := by decide +kernel
theorem witness_RingRules_epoch : (let d := tHost; let r (d : Dev) := d.busWr .firmware rLYR_EPOCH 0x10001; let e := d.setFlag LYR_EPOCH_DRAINING true
    tYes (r d) = true ∧ bitAt (tCmds (r d)) 0 = true ∧ (r d).1.flag LYR_EPOCH_DRAINING = false ∧ tYes (r e) = true ∧ bitAt (tCmds (r e)) 0 = true ∧
    (r e).1.flag LYR_EPOCH_DRAINING = true ∧ e.showOld.rf LYR_OLD_INFLIGHT_COUNT = 0) := by decide +kernel
theorem witness_RingRules_bypass : (let f := LYR_STOP_s_CTL_BYPASS; let r (st v : Nat) (d : Dev) := d.busWr .firmware (rLYR_STOP_s_CTL st) v
    let on (st : Nat) := tHost.setFlag (f st) true
    tYes (r 0 0x10001 tHost) = true ∧ tHost.flag (f 0) = false ∧ (r 0 0x10001 tHost).1.flag (f 0) = true ∧ tHost.flag (f 25) = false ∧
    tYes (r 25 0x10001 tHost) = true ∧ (r 25 0x10001 tHost).1.flag (f 25) = true ∧ tYes (r 0 0x10000 (on 0)) = true ∧ (on 0).flag (f 0) = true ∧ (r 0 0x10000 (on 0)).1.flag (f 0) = false ∧
    ((on 0).setFlag (LYR_STOP_s_STS_FENCED 0) true).flag (LYR_STOP_s_STS_FENCED 0) = true ∧ ((on 0).setFlag (LYR_STOP_s_STS_FENCED 0) false).flag (LYR_STOP_s_STS_FENCED 0) = false) := by decide +kernel
theorem witness_RingRules_stats : (let d := tTl tHost; let x : RingSample := ⟨false, 4, [], []⟩
    d.tlOn 0 = true ∧ (d.tl 0).started = true ∧ d.lyr.sampledAt ≠ d.boundaryT 0 (d.tl 0).k ∧ tReady tHost 0x0A05 (tCmd [0, 1, 96]) (fun d => d.lyr.sample == none) = true ∧
    tReady { tHost with lyr.sample := some x } 0x0A05 (tCmd [0, 1, 96]) (fun d => d.lyr.sample == some x && d.obOk 0x100000000 (96 * min 336 1)) = true) := by decide +kernel
theorem test_ring_wait : tNext (exec (.ringInject false 16 18 1 3 1 0 none 8 (tZeros 8)) (tSt (tHost.setFlag (LYR_STOP_s_STS_FENCED 16) false))) (fun t =>
    t.dev.lyr.streams.length == 1 && (t.dev.lyr.streams.all fun x => x.2.nextSeq == 1 && x.2.window.length == 1)) = true := by decide +kernel

/-! ### Service and twins -/

/-- A pod image of one kernel and one word of code. -/
def tImage : List Byte := [0x31, 0x50, 0x4E, 0x5A, 1, 0, 1, 0, 72, 0, 0, 0, 4, 0, 0, 0, 9, 0, 0, 0, 0xb3, 0x9, 0x2f, 0x70] ++ tZeros 40 ++ tZeros 8 ++ [0, 0, 0, 0]
/-- Pods 0 and 11 powered with the dispatcher; pod 11 masked. -/
def tPods : Dev := tDev [0, 1, 2, 33, 34, 35, 75, 76, 78] (tPair 0 1 ++ [(WDS_PODn_CTL_MODE 11, 1)])
theorem witness_ServiceRules_spare : (let ok (d : Dev) := d.domOn 75 && d.domOn (coreDom 107) && d.domOn (coreDom 106)
    tReady (tPods.wf (WDS_PODn_CORES_CORE_MASK 11) 0) 0x0906 (tCmd [106]) (fun d => ok d && !d.coreMasked 107) = true ∧
    tReady (tPods.wf (WDS_PODn_CORES_CORE_MASK 11) 0x100) 0x0906 (tCmd [106]) (fun d => ok d && d.coreMasked 107) = true ∧
    (tWith tPods 0x0906 (tCmd [106])).dev.pqWaits 0x0906 (tCmd [106]) = false ∧
    ((tWith tPods 0x0906 (tCmd [106])).dev.updQp 0 fun x => { x with running := [{ tRun 0x0906 (tCmd [106]) with started := true }] }).pqWaits 0x0906 (tCmd [106]) = true) := by decide +kernel
theorem witness_ServiceRules_pods : tReady tPods 0x0903 (tCmd [11]) (fun d => d.domOn 75 && d.podMode 11 != 2 && (Tab.find d.fw.drains 11).isNone && (d.accepted 0 7).podMode 11 == 1) = true ∧
    tReady tPods 0x0903 (tCmd [0]) (fun d => (d.accepted 0 7).podMode 0 != 1) = true ∧
    tReady tPods 0x0904 (tCmd [11, 0, 1, 76]) (fun d => d.obOk 0x100000000 76 && !d.hif.closed && podImageOk (tImage.take 76) && !podImageOk (tImage.take 75) && d.domOn 35 && d.podIdle 11 &&
      (Tab.find d.fw.loads 11).isNone) = true ∧ tReady tPods 0x0905 (tCmd [11]) (fun d => d.podIdle 11) = true ∧
    Tab.find { tPods with fw.drains := [(11, 0, 7, [])] }.fw.drains 11 = some (0, 7, []) ∧ tPods.builtSince [] = true ∧
    (tTl tPods).builtSince [(0, 10)] = false ∧ tPods.rf (WDS_PODn_BUSY 11) = 0 ∧ tPods.rf (CPX_STS_BUSY 11) = 0 ∧ (tPods.wf (CPX_STS_BUSY 11) 1).rf (CPX_STS_BUSY 11) ≠ 0 ∧
    Tab.find { tPods with fw.loads := [(11, 0, 7, tImage)] }.fw.loads 11 = some (0, 7, tImage) := by decide +kernel
theorem witness_ServiceRules_drained : (let d : Dev := { tPods with lyr.failing := [3] }; d.lyr.failing.contains 3 = true ∧ d.lyr.failing.contains 4 = false ∧ (7 : Nat) ≠ ownDrain) ∧
    (tPods.wf (CPX_STS_BUSY 11) 0).rf (CPX_STS_BUSY 11) = 0 ∧ tPods.podIdle 11 = true ∧ tPods.podIdle 0 = false := by decide +kernel
theorem test_pod_load : tNext (exec (.podLoadComplete 11) (tSt { tPods with fw.loads := [(11, 0, 7, tImage)] })) (fun t => (Tab.find t.dev.pods.images 11).map (·.version) == some 9) = true := by
  decide +kernel
theorem witness_ServiceRules_firmware : (let b : List Byte := [0, 0, 0, 0, 0, 0, 1]
    tReady tHost 0x0901 (tCmd [0, 1, 512]) (fun d => d.obOk 0x100000000 512 && d.fw.stage == none && !d.hif.closed) = true ∧
    { tHost with fw.stage := some (0, 7, b) }.fw.stage = some (0, 7, b) ∧ leAt b 6 1 = 1 ∧
    tReady (tTl tHost) 0x0902 (tCmd [] 12 13) (fun d => !d.badTarget (tCmd [] 12 13) && d.fw.next.isNone) = true ∧
    tReady { tTl tHost with fw.next := some (1, 2, 3) } 0x0902 (tCmd [] 12 13) (fun d => !d.badTarget (tCmd [] 12 13) && d.fw.next.isSome && !(d.fw.staged.any fun e => e.eff == .fwSwitch)) = true ∧
    tHost.nextSeal.1 = [] ∧ (let e : Staged := ⟨0, 13, 0, 7, 0x0902, true, 0, .fwSwitch⟩; let w : Staged := ⟨0, 13, 0, 8, 0x0704, true, 1, .twinSwap⟩
      let d (l : List Staged) : Dev := { tTl tHost with fw.staged := l }; let d1 (x : Dev) : Dev := x.advanceTo (x.nextSeal.2 - usT 8)
      let open_ (x : Dev) : Dev := { x with fw.stage := some (0, 7, b) }
      (d [e]).nextSeal.1 = [e] ∧ (d1 (d [e])).openTwoStage = false ∧ (d1 (open_ (d [e]))).openTwoStage = true ∧ ([e].all (·.eff == .fwSwitch)) = true ∧
        (d [e, w]).nextSeal.1 = [e, w] ∧ ([e, w].all (·.eff == .fwSwitch)) = false ∧ (d1 (open_ (d [e, w]))).openTwoStage = true ∧ (open_ (d [e])).openTwoStage = true)) := by
  decide +kernel
def tTwin (role partner : Nat) : Dev := tDev [61, 76, 78] (tPair 0 1 ++ [(MGT_TWIN_STS_ROLE, role), (MGT_TWIN_STS_PARTNER, partner)])
theorem witness_TwinRules_commands : tReady (tTwin 0 0) 0x0701 (tCmd [2]) (fun d => !d.paired && d.twin.attach == none && d.domOn 61) = true ∧
    tReady (tTwin 1 2) 0x0701 (tCmd [1]) (fun d => d.paired) = true ∧ tReady (tTwin 1 2) 0x0702 (tCmd []) (fun d => d.role == 1 && d.partner == 2) = true ∧
    tReady (tTwin 0 0) 0x0702 (tCmd []) (fun d => d.role == 0) = true ∧ tReady (tTwin 2 2) 0x0703 (tCmd []) (fun _ => true) = true ∧
    tReady (tTwin 1 3) 0x0704 (tCmd [] 12 13) (fun d => d.partner != 2) = true ∧
    tReady (tTl (tTwin 1 2)) 0x0704 (tCmd [] 12 13) (fun d => d.role == 1 && d.partner == 2 && !d.badTarget (tCmd [] 12 13) && !d.flag MGT_TWIN_STS_SWAP_PENDING) = true := by decide +kernel
theorem witness_TwinRules_refused : tReady (tTwin 0 0) 0x0701 (tCmd [3]) (fun _ => true) = true ∧
    tReady ((tTwin 0 0).wf (PMU_PDd_STS_STATE 61) 3) 0x0701 (tCmd [1]) (fun d => !d.domOn 61) = true ∧
    tReady (tTl (tTwin 1 2)) 0x0704 (tCmd [] 12 900) (fun d => d.badTarget (tCmd [] 12 900)) = true ∧
    tReady (tTl ((tTwin 1 2).setFlag MGT_TWIN_STS_SWAP_PENDING true)) 0x0704 (tCmd [] 12 13) (fun d => !d.badTarget (tCmd [] 12 13) && d.flag MGT_TWIN_STS_SWAP_PENDING) = true ∧
    tReady (tTl (tTwin 1 3)) 0x0704 (tCmd [] 12 13) (fun d => !d.badTarget (tCmd [] 12 13) && !d.flag MGT_TWIN_STS_SWAP_PENDING && d.partner != 2) = true := by decide +kernel
theorem witness_TwinRules_attach : (let a : Attach := ⟨0, 7, 1, 0⟩; let d : Dev := { tTwin 0 1 with twin.attach := some a }
    d.twin.attach = some a ∧ d.flag ZTH_TWIN_STS_UP = false ∧ (d.setFlag ZTH_TWIN_STS_UP true).flag ZTH_TWIN_STS_UP = true ∧ (tTl d).chooseRole a.pref true 1 0 = none ∧
    d.chooseRole a.pref false 2 0 = some 1 ∧ d.anyTl = false ∧ (tTl d).anyTl = true) := by decide +kernel
theorem witness_TwinRules_heartbeats : (let n (d : Dev) := d.rf MGT_TWIN_STS_MISSED_RUN
    (tTwin 1 3).role ≠ 0 ∧ { tTwin 1 3 with twin.silent := 0 }.roleOut.partner = 3 ∧ (tTwin 1 2).paired = true ∧ (tTwin 1 2).twin.gapEnd ≤ (tTwin 1 2).now ∧ n (tTwin 1 2) < 2 ∧
    n ((tTwin 2 2).wf MGT_TWIN_STS_MISSED_RUN 2) = 2 ∧ (tTwin 0 0).paired = false ∧ (tTwin 2 3).partner = 3 ∧ { tTwin 2 3 with twin.lostAt := some 5 }.twin.lostAt = some 5 ∧
    (let d : Dev := { tTwin 1 2 with twin.gapEnd := 1 }; d.now < d.twin.gapEnd ∧ d.paired = true)) := by decide +kernel
theorem witness_TwinRules_mirror : (let run : RunCmd := { tRun 0x0A07 (tCmd []) with mirror := 1, outcome := true, own := some ⟨0, []⟩ }
    let d := (tTwin 1 2).updQp 0 fun q => { q with running := [run] }
    d.role = 1 ∧ ((d.qp 0).running.any fun r => r.mirror == 1) = true ∧ ((d.qp 0).running.find? fun r => r.outcome && r.cmd.tag.toNat == 7) = some run ∧ run.own = some ⟨0, []⟩ ∧
    (tTwin 2 2).role = 2 ∧ { tTwin 2 2 with twin.takeover := true }.twin.takeover = true ∧ (tTwin 2 2).fw.plans = [] ∧
    (let e : Dev := { (tTwin 1 2) with fw.soft := [(32 * 4, [(1, 65535)])], fw.carriers := [(4, ⟨carPar (tAdd 4), 0, 2, 0, 0, true, true⟩)], twin.gens := [(2 ^ 16 + 65535, 9)] };
      e.slotsPending.contains (1, 65535) = true)) := by decide +kernel

/-- Period 9 of T0 begins at 4.5 ms: after boundary 11 a STANDBY that heard its partner last at 4 ms keeps the plan and reports it, one that heard it at 5 ms does not. -/
theorem test_unserved : (let p : Plan := ⟨0, 9, [⟨7, 1, 1, 0, 1, 0, 14, 1, 2, 0, 0, 0, 64, 0, 0, 3, 0⟩], [], true, []⟩
    let d (t : Nat) : Dev := { tTl (tTwin 2 2) with twin.heardAt := msT t, fw.plans := [p] }
    (d 4).keepsPlan 0 11 p && !(d 5).keepsPlan 0 11 p && ((d 4).reportUnserved true).wds.reported.length == 1 && ((d 5).reportUnserved true).wds.reported.isEmpty &&
    ((d 4).reportUnserved false).wds.reported.isEmpty) = true := by decide +kernel
theorem witness_TwinRules_notes : (tTl (tTwin 2 2)).badTarget (tCmd [] 12 13) = false ∧ (tTwin 2 2).flag MGT_TWIN_STS_SWAP_PENDING = false ∧ badSource (tCmd [1, 0, 0, 0]) = false ∧
    (bankSpot (rDFE_ALN_c_b_TXW 63 0)).isSome = true ∧ bankSpot (rDFE_ALN_c_b_TXW 64 0) = none ∧
    (bankSpot (rDFE_DPD_t_b_COEF_i 3 1 5)).map (·.2.1) = some (rDFE_DPD_t_b_COEF_i 3 0 5) ∧ (tTwin 2 2).twin.gapEnd ≤ (tTwin 2 2).now := by decide +kernel

/-! ### The Marrow, the ledgers, groups, the register bus -/

def tRec (st : Nat) : Dev := tDev [63, 64, 65, 66, 76, 77, 78, 75, 0, 1, 2] (tPair 0 1 ++ [(OBS_REC_STS_STATE, st), (MEM_CTL_POPULATED, 1), (MEM_CTL_MODE, 1), (WDS_PODn_CTL_MODE 0, 1)])
theorem witness_RecorderRules_commands : tReady (tRec 0) 0x0801 (tCmd [256, 0, 0, 0]) (fun d => decide (2 * 256 * 2 ^ 20 ≤ d.ddrSize) && (d.captureArea 256 0 0 0 == some 0) &&
      d.domOn 77 && !d.noDdr && !d.recording) = true ∧
    tReady (tRec 1) 0x0801 (tCmd [256, 0, 0, 0]) (fun d => d.recording) = true ∧ tReady tHost 0x0802 (tCmd []) (fun d => !d.domOn 77) = true ∧
    tReady (tRec 0) 0x0802 (tCmd []) (fun d => d.domOn 77 && d.recMem) = true ∧
    tReady ([(PMU_PDd_STS_STATE 63, 3), (MEM_REC_SIZE, 512)].foldl (fun (d : Dev) x => d.wf x.1 x.2) (tRec 0)) 0x0802 (tCmd []) (fun d => d.domOn 77 && !d.recMem) = true ∧ tReady (tRec 3) 0x0803 (tCmd []) (fun d => d.rf OBS_REC_STS_STATE == 3) = true ∧
    tReady (tRec 1) 0x0803 (tCmd []) (fun d => d.rf OBS_REC_STS_STATE != 3) = true ∧ tReady (tRec 1) 0x0804 (tCmd []) (fun d => d.marrow.log == []) = true ∧
    tReady { tRec 1 with marrow.log := [⟨11, 0, 5, 0, 0, 0, []⟩] } 0x0804 (tCmd []) (fun d => d.marrow.log == [⟨11, 0, 5, 0, 0, 0, []⟩]) = true ∧
    tReady (tRec 3) 0x0805 (tCmd [0, 3, 65535, 0]) (fun d => d.podIdle 0 && spanHeld d.marrow.log 3 65535 0 && (spanPods d.marrow.log 3 65535 0).isEmpty && d.domOn 77 && d.domOn 75 &&
      d.marrow.replay == none) = true := by decide +kernel
theorem witness_RecorderRules_freeze : (tRec 2).rf OBS_REC_STS_STATE = 2 ∧ (tRec 1).rf OBS_REC_STS_STATE ≠ 2 ∧ (tRec 2).tlOn (tRec 2).marrow.tl = false ∧
    (let d := tTl (tRec 2); d.tlOn d.marrow.tl = true ∧ d.marrow.trigK + d.rf OBS_REC_POST_POST ≤ d.recK) := by decide +kernel
theorem witness_RecorderRules_replay : (let r (n : Nat) : Replay := ⟨0, 0, 5, 1, n, 0, 0, 7, 0, 0, [], [], []⟩
    (r 0).released < (r 0).count ∧ (r 1).released = (r 1).count ∧ (tRec 3).replayDone = true ∧ (tRec 3).marrow.replay = none ∧ { tRec 3 with marrow.replay := some (r 0) }.marrow.replay = some (r 0)) := by
  decide +kernel
theorem witness_RecorderRules_add : (let d := [(OBS_REC_STS_STATE, 1), (MEM_REC_SIZE, 512)].foldl (fun (d : Dev) x => d.wf x.1 x.2) (tRec 0)
    let e : Dev := { d with marrow.cfg := ⟨512, 0, 0, 0, 0⟩ }
    e.recording = true ∧ e.recMem = true ∧ e.marrow.lost = false ∧ e.marrow.log = [] ∧ 256 * 2 ^ 20 + e.marrow.cfg.area ≤ e.marrow.cfg.size * 2 ^ 20 ∧ (tZeros 64).length ≤ 64 ∧
    (e.wf (PMU_PDd_STS_STATE 63) 3).recording = true ∧ (e.wf (PMU_PDd_STS_STATE 63) 3).recMem = false ∧ (tRec 0).recording = false) := by decide +kernel
/-- A result of timeline 0, air period 6, from period 5. -/
def tResult : RecEntry := ⟨6, 0, 4, 16, 0, 0, [1, 2, 3, 4, 7, 0]⟩
theorem witness_RecorderRules_compare : (let r : Replay := ⟨0, 0, 5, 1, 1, 0, 0, 7, 0, 0, [], [], []⟩; let d : Dev := { tRec 3 with marrow.replay := some r, marrow.log := [tResult] }
    d.marrow.replay = some r ∧ r.released = r.count ∧ d.replayDone = true ∧ replayRecs d.marrow.log 6 r = [tResult]) := by decide +kernel
/-- A recorded decision: core 0 took a job of timeline 0, period 5. -/
def tDecision : RecEntry := ⟨3, 0, 5, 16, 0, 0, [1, 0, 0, 0, 5, 0, 0, 0] ++ tZeros 8⟩
theorem witness_RecorderRules_span : (let im : PodImage := ⟨9, 77, []⟩
    let d (r : Option Replay) : Dev := { tRec 3 with marrow.log := [tDecision], marrow.images := [(0, 77)], pods.images := [(0, im)], marrow.replay := r }
    let ok (d : Dev) : Bool := spanHeld d.marrow.log 0 5 1 && (spanPods d.marrow.log 0 5 1 == [0]) && (Tab.find d.marrow.images 0 == (Tab.find d.pods.images 0).map (·.crc)) && d.podIdle 0 &&
      (Tab.find d.pods.images 0).isSome && d.domOn 77 && d.domOn 75
    tReady (d none) 0x0805 (tCmd [0, 0, 5, 1]) (fun d => ok d && d.marrow.replay.isNone) = true ∧
    tReady ((d none).wf OBS_REC_STS_STATE 0) 0x0805 (tCmd [0, 0, 5, 1]) (fun d => ok d && d.rf OBS_REC_STS_STATE == 0 && d.marrow.log != []) = true ∧
    tReady (d (some ⟨0, 0, 5, 1, 0, 0, 0, 7, 0, 0, [], [], []⟩)) 0x0805 (tCmd [0, 0, 5, 1]) (fun d => ok d && d.marrow.replay.isSome) = true) ∧
    leAt [0, 0, 0, 0, 5, 0] 2 1 = 0 ∧ leAt [0, 0, 0, 0, 5, 0] 4 2 = (5 + 0) % 65536 := by decide +kernel
theorem witness_RecorderRules_bar4 : (let d := (tRec 0).wf MEM_REC_SIZE 32; let rel (off : BitVec 24) := d.rf OBS_REC_WIN * 2 ^ 24 + off.toNat
    d.domOn 76 = true ∧ d.domOn 77 = true ∧ d.rf OBS_REC_STS_STATE = 0 ∧ (0xFFFFFF : BitVec 24).toNat + 1 ≤ 2 ^ 24 ∧ rel 0xFFFFFF + 1 ≤ d.rf MEM_REC_SIZE * 2 ^ 20 ∧
    (d.wf MEM_REC_SIZE 0).rf MEM_REC_SIZE * 2 ^ 20 < rel 0 + 1 ∧ (tRec 1).rf OBS_REC_STS_STATE ≠ 0) := by decide +kernel
theorem witness_LedgerRules : tReady (tRec 0) 0x0A04 (tCmd [0, 1, 64]) (fun d => d.obOk 0x100000000 64 && d.domRun 77 && d.ledger.packing == none) = true ∧
    tReady { tRec 0 with ledger.packing := some (0, 7, 0x100000000, 64) } 0x0A04 (tCmd [0, 1, 0]) (fun d => d.domRun 77 && d.ledger.packing.isSome) = true ∧
    { tRec 0 with ledger.packing := some (0, 7, 0x100000000, 64) }.ledger.packing = some (0, 7, 0x100000000, 64) ∧
    (let r (d : Dev) := d.busWr .host rOBS_SNAP_CTL 0x10001; let b := (tRec 0).setFlag OBS_SNAP_STS_BUSY true
      tYes (r (tRec 0)) = true ∧ bitAt (tCmds (r (tRec 0))) 0 = true ∧ (r (tRec 0)).1.flag OBS_SNAP_STS_BUSY = false ∧ tYes (r b) = true ∧ bitAt (tCmds (r b)) 0 = true ∧
      (r b).1.flag OBS_SNAP_STS_BUSY = true) := by decide +kernel
/-- Group 15 open for timeline 0, period 13, with `n` writes. -/
def tOpen (n : Nat) : Dev := (tTl tHost).setTxn 15 ⟨.opened, 0, 13, List.replicate n ⟨0, false, 0⟩, none⟩
theorem witness_GroupLimit : tReady (tOpen 192) 0x0B02 (tCmd [15, 0, 1, 1]) (fun d => decide (192 < (d.txn 15).writes.length + 1)) = true ∧
    tReady (tOpen 0) 0x0B02 (tCmd [16, 0, 1, 1]) (fun _ => true) = true ∧ ((upTo 16).all fun i => decide ((Dev.reset.txn i).writes.length ≤ 192)) = true ∧
    tReady (tTl tHost) 0x0B01 (tCmd [0, 13]) (fun d => d.flag (TMU_TLn_CTL_ENABLE 0) && d.future 0 13 && d.txnFree 0) = true ∧
    tReady ((upTo 16).foldl (fun d i => d.setTxn i ⟨.opened, 0, 13, [], none⟩) (tTl tHost)) 0x0B01 (tCmd [0, 13]) (fun d => (upTo 16).all fun i => !d.txnFree i) = true := by
  decide +kernel
theorem witness_GroupLimit_all : ∀ i, (State.reset.dev.txn i).writes.length ≤ 192 := fun _ => by
  simp [State.reset, Dev.reset, Dev.txn, Tab.getD, Tab.find, TxnSlot.reset]
theorem test_txn_limit : tNext (exec (.txnAdd (tCmd [15, 0, 1, 1]) (tZeros 8)) (tWith (tOpen 191) 0x0B02 (tCmd [15, 0, 1, 1]))) (fun t => (t.dev.txn 15).writes.length == 192) = true := by
  decide +kernel
theorem witness_GroupRules_commands : tReady (tOpen 191) 0x0B02 (tCmd [15, 0, 1, 1]) (fun d => (d.txn 15).phase == .opened && decide ((d.txn 15).writes.length + 1 ≤ 192) && d.obOk 0x100000000 8 &&
      (parseWrite (tZeros 8)).2) = true ∧
    (let armed (d : Dev) := { (d.inProgress 0 7) with txnOrd := 1 }
    tReady (tOpen 0) 0x0B03 (tCmd [15]) (fun d => (armed d).flag (TMU_TLn_CTL_ENABLE 0) && (armed d).future 0 13) = true ∧
    tReady ((tTl tHost).setTxn 15 ⟨.opened, 0, 9, [], none⟩) 0x0B03 (tCmd [15]) (fun d => !(armed d).future 0 9) = true ∧
    tReady ((tOpen 0).wf (TMU_TLn_CTL_ENABLE 0) 0) 0x0B03 (tCmd [15]) (fun d => !(armed d).flag (TMU_TLn_CTL_ENABLE 0)) = true) ∧
    tReady (tOpen 0) 0x0B04 (tCmd [15]) (fun d => (d.txn 15).phase == .opened) = true ∧ tReady (tTl tHost) 0x0B04 (tCmd [15]) (fun d => (d.txn 15).phase == .free) = true ∧
    tReady ((tTl tHost).setTxn 15 ⟨.done 0 3, 0, 11, [], some []⟩) 0x0B04 (tCmd [15]) (fun d => (d.txn 15).phase == .done 0 3) = true ∧
    (let a (p : Nat) : Dev := (tTl tHost).setTxn 15 ⟨.armed 0 3 0 false, 0, p, [], none⟩
    tReady (a 13) 0x0B04 (tCmd [15]) (fun d => (d.txn 15).phase == .armed 0 3 0 false && !d.sealed 0 (d.targetK 0 13)) = true ∧
    tReady { (a 11) with now := 5499999 * 2 ^ 32 } 0x0B04 (tCmd [15]) (fun d => d.sealed 0 (d.targetK 0 11)) = true) ∧
    tReady ((tTl tHost).setTxn 15 ⟨.free, 0, 13, [], some [⟨0, 1, 2, 4⟩]⟩) 0x0B05 (tCmd [15, 0, 1, 8]) (fun d => ((d.txn 15).report == some [⟨0, 1, 2, 4⟩]) && d.obOk 0x100000000 8) = true ∧
    tReady (tTl tHost) 0x0B05 (tCmd [15, 0, 1, 8]) (fun d => (d.txn 15).report == none) = true := by decide +kernel
theorem witness_GroupRules_act : (let a (late : Bool) (ws : List TxnWrite) := (tTl tHost).setTxn 15 ⟨.armed 0 3 0 late, 0, 11, ws, none⟩
    ((a false []).txn 15).phase = .armed 0 3 0 false ∧ (a false []).groupRefused ((a false []).txn 15).writes = [] ∧ ((a true []).txn 15).phase = .armed 0 3 0 true ∧
    ((a false [⟨0x0FFFFFC, false, 0⟩]).groupRefused [⟨0x0FFFFFC, false, 0⟩]).length = 1) := by decide +kernel
theorem witness_GroupRules_hw : (let o := rTMU_TLn_CTL 0; hwBits [(o, 1)] o ≠ 0 ∧ hwBits [(o, 1)] (o + 4) = 0 ∧ hwBits [] o = 0) := by decide +kernel
/-- A command in progress before a TXN_ARM of slot 15 with these flags, the group armed for boundary 11. -/
def tArmed (flags : BitVec 16) : Dev := ((tTl tHost).updQp 0 fun q => { q with running := [{ tRun 0x0201 ⟨0, 3, 0, 0, 0, []⟩ with started := true }, tRun 0x0B03 (tCmd [15] flags)] }).setTxn 15
  ⟨.armed 0 7 0 false, 0, 11, [], none⟩
theorem witness_GroupRules_slot : ((tArmed 1).groupAct 0 11 15 []).txn 15 = ⟨.done 0 7, 0, 11, [], some []⟩ ∧ ((tArmed 1).groupAct 0 11 15 []).txnFree 15 = false ∧
    ((tArmed 0).groupAct 0 11 15 []).txn 15 = ⟨.done 0 7, 0, 11, [], some []⟩ ∧ ((tArmed 0).groupAct 0 11 15 []).txnFree 15 = true := by decide +kernel
theorem witness_RegisterBusRules_protection : (let off := rMEM_FWr_BASE 0; let d := tDev [63, 64, 65, 66, 76, 78] []
    off ≠ rSEC_RECOVERY_CTL ∧ off ≠ rTMU_STEP_CMD ∧ protReg off = true ∧ tYes (d.busWr .firmware off 5) = true ∧ reachesCfg off 5 = true ∧
    d.flag SEC_BOOT_STS_SEALED = false ∧ (d.setFlag SEC_BOOT_STS_SEALED true).flag SEC_BOOT_STS_SEALED = true ∧ protReg (rTMU_TLn_PERIOD 3) = false) := by decide +kernel
theorem witness_RegisterBusRules_bus : (let d := tDev [76, 78] []; let o := rTMU_TLn_CTL 3
    o % 4 = 0 ∧ firmwareRange o = false ∧ wideReg o = false ∧ d.answers .host o = true ∧ 1 &&& ctlBits o &&& writeMask false 0x10001 ≠ 0 ∧
    firmwareRange 0x1000C00 = true ∧ (regAt o).isSome = true ∧ d.holeFor .host o = false ∧ (regAt 0xFFFFFC).isNone = true ∧
    (let e := tDev [78] []; e.holeFor .host o = false ∧ e.domOn 76 = false) ∧ (regAt (rETH_Pp_CTL 0)).isSome = true ∧ d.holeFor .host (rETH_Pp_CTL 0) = false ∧ d.answers .host (rETH_Pp_CTL 0) = false) := by decide +kernel
theorem witness_RegisterBusRules_guard : (let d := tDev [76, 78] []; d.answers .host rTHM_UNLOCK = true ∧ d.answers .firmware (rTHM_TRIM_i 59) = true ∧ d.guardOpen = false ∧
    (Initiator.host ≠ .group) ∧ (BitVec.ofNat 28 (rTHM_TRIM_i 59)).toNat = 0x38003EC ∧ (2 : BitVec 28).toNat % 4 ≠ 0 ∧ (1 : BitVec 28).toNat % 2 ≠ 0) := by decide +kernel
theorem test_host_down : tNext (exec (.guardUnlock .host 0xFFFF5AC3) (tSt (tDev [78] []))) (fun t => !t.dev.guardOpen && t.dev.rf MGT_BUS_ERR_DOMAIN_OFF == 1) = true := by decide +kernel
theorem test_guard : tNext (exec (.guardUnlock .host 0xFFFF5AC3) (tSt (tDev [76, 78] []))) (fun t => t.dev.guardOpen &&
    tNext (exec (.registerWrite .host 0x38003EC 0 0x00FF00F4 0) t) (fun u => !u.dev.guardOpen && u.dev.rf (THM_TRIM_i_TRIM 59) == 0xF4)) = true := by decide +kernel

end Sys2Proof.Tests
end

/-! SUPPORT. The staging slots of transaction groups: what reads and completions see of them, when TXN_OPEN and TXN_ADD are refused, and the
limit of R63 that every TXN_ADD keeps. -/

namespace Sys2Proof.Machine

/-! ### Slots -/

@[simp] theorem Dev.txn_setTxn (d : Dev) (i : Nat) (x : TxnSlot) (j : Nat) : (d.setTxn i x).txn j = if j = i then x else d.txn j :=
  Tab.getD_setD _ _ _ _ _
theorem Dev.txns_of_rest {d e : Dev} (h : e.rest = d.rest) : e.txns = d.txns := by
  obtain ⟨-, -, -, -, htxns, -⟩ := Dev.rest_fields h
  exact htxns
@[simp] theorem Dev.txns_complete (d : Dev) (q tag st : Nat) (res : List Nat) : (d.complete q tag st res).txns = d.txns :=
  Dev.txns_of_rest (Dev.rest_complete d q tag st res)
@[simp] theorem Dev.txns_fin (d : Dev) (c : PqCmd) (st : Nat) : (d.fin c st).txns = d.txns := Dev.txns_complete _ _ _ _ _
@[simp] theorem Dev.txns_finR (d : Dev) (c : PqCmd) (res : List Nat) : (d.finR c res).txns = d.txns := Dev.txns_complete _ _ _ _ _
@[simp] theorem Dev.txns_inProgress (d : Dev) (q tag : Nat) : (d.inProgress q tag).txns = d.txns := rfl

/-! ### A command's row on any state -/

/-- What holds of the device as it is, of the device with the command completed, and after the effect, holds after the row. -/
theorem Dev.pqDo_keeps {P : Dev → Prop} {d : Dev} {op : Nat} {c : PqCmd} {f : Dev → Dev} (hd : P d) (hfin : ∀ st, P (d.fin c st))
    (hf : P (f (d.inProgress c.queue.val c.tag.toNat))) : P (d.pqDo op c f) := by
  unfold Dev.pqDo
  split
  · exact hd
  · dsimp only
    split
    · split
      · exact hfin twinNotReady
      · exact hf
    · exact hd
theorem nextAnd_pq {P : Dev → Prop} {s : State} {op : Nat} {c : PqCmd} {f : Dev → Dev} (hd : P s.dev) (hfin : ∀ st, P (s.dev.fin c st))
    (hf : P (f (s.began c))) : nextAnd (s.pq op c f) fun t => P t.dev :=
  nextAnd_act (P := fun t => P t.dev) (Dev.pqDo_keeps hd hfin hf)

/-! ### TXN_ADD (R57, R63) -/

theorem exec_txnAdd (c : PqCmd) (data : List Byte) (s : State) : exec (.txnAdd c data) s = s.pq 0x0B02 c fun d => d.txnAdd c data := rfl

/-- No such slot, or more writes than the group may hold: refused. -/
theorem Dev.txnAdd_refused (d : Dev) (c : PqCmd) (data : List Byte) (h : 16 ≤ pp c 0 ∨ txnLimit < (d.txn (pp c 0)).writes.length + pp c 3) :
    d.txnAdd c data = d.fin c badParam := by
  refine checks_fail _ _ _ _ _ _ ?_
  rcases h with h | h <;> simp [h]

/-- A TXN_ADD is refused, or appends at most as many writes as it names, within the limit, to an open group's slot. -/
theorem Dev.txnAdd_cases (d : Dev) (c : PqCmd) (data : List Byte) :
    d.txnAdd c data = d.fin c badParam ∨
    ∃ ws : List TxnWrite, pp c 0 < 16 ∧ (d.txn (pp c 0)).phase = .opened ∧ ws.length ≤ pp c 3 ∧
      (d.txn (pp c 0)).writes.length + pp c 3 ≤ txnLimit ∧
      d.txnAdd c data = (d.setTxn (pp c 0) { d.txn (pp c 0) with writes := (d.txn (pp c 0)).writes ++ ws }).finR c
        [(d.txn (pp c 0)).writes.length + pp c 3] := by
  generalize heq : d.txnAdd c data = e
  simp only [Dev.txnAdd, Dev.checks] at heq
  split at heq
  · exact .inl heq.symm
  · next hok =>
    simp only [Bool.or_eq_true, not_or, decide_eq_true_eq, bne_iff_ne, ne_eq, Classical.not_not, Nat.not_le, Nat.not_lt] at hok
    obtain ⟨⟨⟨⟨hslot, hopen⟩, hlimit⟩, -⟩, -⟩ := hok
    refine .inr ⟨_, hslot, hopen, ?_, hlimit, heq.symm⟩
    simp only [upTo, List.length_map, List.length_range]
    exact Nat.min_le_left (pp c 3) 257

/-- No group holds more writes than A1's limit (R63). -/
def Dev.groupsWithinLimit (d : Dev) : Prop := ∀ i, (d.txn i).writes.length ≤ txnLimit

theorem Dev.groupsWithinLimit_of_txns {d e : Dev} (htxns : e.txns = d.txns) (h : d.groupsWithinLimit) : e.groupsWithinLimit := fun i => by
  simpa only [Dev.txn, htxns] using h i
theorem Dev.groupsWithinLimit_setTxn {d : Dev} {i : Nat} {x : TxnSlot} (h : d.groupsWithinLimit) (hx : x.writes.length ≤ txnLimit) :
    (d.setTxn i x).groupsWithinLimit := fun j => by
  rw [Dev.txn_setTxn]
  split
  · exact hx
  · exact h j
theorem Dev.groupsWithinLimit_txnAdd {d : Dev} (h : d.groupsWithinLimit) (c : PqCmd) (data : List Byte) :
    (d.txnAdd c data).groupsWithinLimit := by
  rcases d.txnAdd_cases c data with heq | ⟨ws, -, -, hlen, hlimit, heq⟩
  · rw [heq]
    exact groupsWithinLimit_of_txns (txns_fin _ _ _) h
  · rw [heq]
    refine groupsWithinLimit_of_txns (txns_finR _ _ _) (groupsWithinLimit_setTxn h ?_)
    rw [List.length_append]
    omega

/-- TXN_ADD keeps the limit, whether or not its command is the queue's next. -/
theorem exec_txnAdd_keeps_groupsWithinLimit {s : State} (h : s.dev.groupsWithinLimit) (c : PqCmd) (data : List Byte) :
    nextAnd (exec (.txnAdd c data) s) fun t => t.dev.groupsWithinLimit :=
  nextAnd_pq h (fun st => Dev.groupsWithinLimit_of_txns (Dev.txns_fin _ _ st) h)
    (Dev.groupsWithinLimit_txnAdd (Dev.groupsWithinLimit_of_txns (Dev.txns_inProgress _ _ _) h) c data)

theorem exec_txnAdd_refused {s : State} {c : PqCmd} (hr : s.ready 0x0B02 c = true) (data : List Byte)
    (h : 16 ≤ pp c 0 ∨ txnLimit < ((s.began c).txn (pp c 0)).writes.length + pp c 3) :
    exec (.txnAdd c data) s = .next (s.on <| (s.began c).fin c badParam) := by
  rw [exec_txnAdd, pq_ready hr, Dev.txnAdd_refused _ _ _ h]

/-! ### TXN_OPEN (R57) -/

theorem exec_txnOpen (c : PqCmd) (s : State) : exec (.txnOpen c) s = s.pq 0x0B01 c fun d => d.txnOpen c := rfl

section
variable {d : Dev} {c : PqCmd} (htl : pp c 0 < 4) (hp : pp c 1 < 65536) (hen : d.flag (TMU_TLn_CTL_ENABLE (pp c 0)) = true)
  (hfut : d.future (pp c 0) (pp c 1) = true)
include htl hp hen hfut

/-- With a target TXN_OPEN accepts, the search for a free slot decides. -/
theorem Dev.txnOpen_of_target : d.txnOpen c = d.checks c [(((upTo 16).find? d.txnFree).isNone, busyS)] fun d' =>
    (d'.setTxn (((upTo 16).find? d.txnFree).getD 0) ⟨.opened, pp c 0, pp c 1, [], none⟩).finR c [((upTo 16).find? d.txnFree).getD 0] := by
  refine checks_pass _ _ _ _ _ _ ?_
  simp [hen, hfut, htl, hp]
theorem Dev.txnOpen_lowest {i : Nat} (hi : i < 16) (hfree : d.txnFree i = true) (hlow : ∀ j, j < i → d.txnFree j = false) :
    d.txnOpen c = (d.setTxn i ⟨.opened, pp c 0, pp c 1, [], none⟩).finR c [i] := by
  have hfind : (upTo 16).find? d.txnFree = some i :=
    List.find?_range_eq_some.2 ⟨hfree, List.mem_range.2 hi, fun j hj => by simp [hlow j hj]⟩
  rw [Dev.txnOpen_of_target htl hp hen hfut, hfind]
  exact checks_pass _ _ _ _ _ _ rfl
theorem Dev.txnOpen_full (hfull : ∀ i, i < 16 → d.txnFree i = false) : d.txnOpen c = d.fin c busyS := by
  have hfind : (upTo 16).find? d.txnFree = none := List.find?_range_eq_none.2 fun i hi => by simp [hfull i hi]
  rw [Dev.txnOpen_of_target htl hp hen hfut, hfind]
  exact checks_fail _ _ _ _ _ _ rfl
end

/-- Settles O58: a TXN_ADD past the limit or without a slot fails its check, one that is taken appends within it, and TXN_OPEN's
search for a free slot finds the lowest. -/
theorem groupLimit : Obligations.GroupLimit := by
  unfold Obligations.GroupLimit
  intro s
  refine ⟨fun c data hr hover => ?_, fun c data hlimit => ?_, fun c data hr hslot => ?_, fun c => ?_⟩
  · have hexec := exec_txnAdd_refused hr data (.inr hover)
    exact ⟨hexec, _, hexec, Dev.txns_fin (s.began c) c badParam⟩
  · exact exec_txnAdd_keeps_groupsWithinLimit hlimit c data
  · exact exec_txnAdd_refused hr data (.inl hslot)
  · intro d hr htl hp hen hfut
    rw [exec_txnOpen, pq_ready hr]
    refine ⟨fun i hi hfree hlow => ?_, fun hfull => ?_⟩
    · rw [Dev.txnOpen_lowest htl hp hen hfut hi hfree hlow]
    · rw [Dev.txnOpen_full htl hp hen hfut hfull]

end Sys2Proof.Machine

/-! SUPPORT. A core reset (R166): the vote bookkeeping it ends with touches the power manager's queue and registers alone, so the core is left
without transfers, and every memory as it was. -/

namespace Sys2Proof.Machine

/-! ### Vote bookkeeping (R142) -/

@[simp] theorem Dev.showVote_cores (d : Dev) (dom : Nat) : (d.showVote dom).cores = d.cores := rfl
@[simp] theorem Dev.showVote_mem (d : Dev) (dom : Nat) : (d.showVote dom).mem = d.mem := rfl
theorem Dev.rf_showVote (d : Dev) (dom : Nat) {g : Fld} (h : g.off ≠ rPMU_PDd_STS dom) : (d.showVote dom).rf g = d.rf g :=
  d.rf_wf_other (PMU_PDd_STS_VOTE dom) g _ h

@[simp] theorem Dev.pmuDrop_cores (d : Dev) (dom : Nat) : (d.pmuDrop dom).cores = d.cores := rfl
@[simp] theorem Dev.pmuDrop_mem (d : Dev) (dom : Nat) : (d.pmuDrop dom).mem = d.mem := rfl
theorem Dev.rf_pmuShow (d : Dev) {g : Fld} (h : g.off ≠ rPMU_STS) : d.pmuShow.rf g = d.rf g :=
  (Dev.rf_wf_other _ PMU_STS_QUEUED g _ h).trans (d.rf_wf_other PMU_STS_RAMPING g _ h)
theorem Dev.rf_pmuDrop (d : Dev) (dom : Nat) {g : Fld} (h : g.off ≠ rPMU_STS) : (d.pmuDrop dom).rf g = d.rf g :=
  Dev.rf_pmuShow _ h

/-- An entry by vote is withdrawn, or nothing happens. -/
theorem Dev.voteWithdraw_cases (d : Dev) (dom : Nat) : d.voteWithdraw dom = d ∨ d.voteWithdraw dom = d.pmuDrop dom := by
  unfold Dev.voteWithdraw
  split
  · split
    · exact .inl rfl
    · exact .inr rfl
  · exact .inl rfl
@[simp] theorem Dev.voteWithdraw_cores (d : Dev) (dom : Nat) : (d.voteWithdraw dom).cores = d.cores := by
  rcases d.voteWithdraw_cases dom with h | h <;> simp [h]
@[simp] theorem Dev.voteWithdraw_mem (d : Dev) (dom : Nat) : (d.voteWithdraw dom).mem = d.mem := by
  rcases d.voteWithdraw_cases dom with h | h <;> simp [h]
theorem Dev.rf_voteWithdraw (d : Dev) (dom : Nat) {g : Fld} (hg : g.off ≠ rPMU_STS) : (d.voteWithdraw dom).rf g = d.rf g := by
  rcases d.voteWithdraw_cases dom with h | h
  · rw [h]
  · rw [h, Dev.rf_pmuDrop _ _ hg]

/-! ### Core reset (R121, R166) -/

/-- The core's registers in its reset state; its local memory and its job stay. -/
def Core.restarted (k : Core) : Core := { Core.resetWith k.mem with job := k.job }
/-- What a core reset writes of the core's own registers: no transfer in flight, no fault, and STATE as RUN has it. -/
def Dev.coreRegsReset (d : Dev) (c : Nat) : Dev :=
  let p := c / 9
  let i := c % 9
  let e := (((((d.wf (POD_DMA_c_STS_INFLIGHT p i) 0).wf (POD_CORE_c_FLT_CAUSE p i) 0).wf (POD_CORE_c_FLT_ELEMENT p i) 0xFF).wf
    (POD_CORE_c_FLT_PC p i) 0).wf (POD_CORE_c_FLT_ADDR p i) 0).setFlag (POD_CORE_c_STS_IN_HANDLER p i) false
  e.setCoreState c (e.rf (POD_CORE_c_CTL_RUN p i))

@[simp] theorem Dev.coreRegsReset_cores (d : Dev) (c : Nat) : (d.coreRegsReset c).cores = d.cores := by
  unfold Dev.coreRegsReset Dev.setCoreState
  rw [Dev.wf_cores, Dev.setFlag_cores, Dev.wf_cores, Dev.wf_cores, Dev.wf_cores, Dev.wf_cores, Dev.wf_cores]
@[simp] theorem Dev.coreRegsReset_mem (d : Dev) (c : Nat) : (d.coreRegsReset c).mem = d.mem := by
  unfold Dev.coreRegsReset Dev.setCoreState
  rw [Dev.wf_mem, Dev.setFlag_mem, Dev.wf_mem, Dev.wf_mem, Dev.wf_mem, Dev.wf_mem, Dev.wf_mem]
/-- Every register written after INFLIGHT lies below the pod's DMA window. -/
theorem Dev.inflight_coreRegsReset (d : Dev) (c : Nat) : (d.coreRegsReset c).rf (POD_DMA_c_STS_INFLIGHT (c / 9) (c % 9)) = 0 := by
  unfold Dev.coreRegsReset Dev.setCoreState Dev.setFlag coreStateF
  rw [Dev.rf_wf_other, Dev.rf_wf_other, Dev.rf_wf_other, Dev.rf_wf_other, Dev.rf_wf_other, Dev.rf_wf_other, Dev.rf_wf_same, Nat.zero_mod]
  case h => dsimp only; omega
  all_goals
    dsimp only [rPOD_DMA_c_STS, rPOD_CORE_c_FLT, rPOD_CORE_c_FLT_PC, rPOD_CORE_c_FLT_ADDR, rPOD_CORE_c_STS]
    omega

/-- The stages of a core reset: `e` is the device whose dispatcher and coprocessor work no longer wait for the core. -/
theorem Dev.coreReset_stages (d : Dev) (c : Nat) : ∃ e : Dev, e.cores = (d.cpxCancelAll c).cores ∧ e.mem = (d.cpxCancelAll c).mem ∧
    d.coreReset c = (((e.updCore c Core.restarted).coreRegsReset c).showVote (coreDom c)).voteWithdraw (coreDom c) :=
  ⟨{ d.cpxCancelAll c with
      pods.cpx := (d.cpxCancelAll c).pods.cpx.map fun (x : CpxInst) => if x.core = c then { x with wakes := false } else x,
      wds.waiting := Tab.del (d.cpxCancelAll c).wds.waiting c }, rfl, rfl, rfl⟩

/-- The core restarts, and the other cores stand. -/
theorem Dev.core_coreReset (d : Dev) (c b : Nat) :
    (d.coreReset c).core b = if b = c then (d.core c).restarted else d.core b := by
  obtain ⟨e, hcores, -, hreset⟩ := d.coreReset_stages c
  obtain ⟨-, -, hcancel⟩ := cpxCancelAll_keeps d c
  have hshown : (d.coreReset c).cores = (e.updCore c Core.restarted).cores := by
    rw [hreset, Dev.voteWithdraw_cores, Dev.showVote_cores, Dev.coreRegsReset_cores]
  rw [core_congr hshown, core_updCore, core_congr hcores, core_congr hcores, hcancel, hcancel, if_pos rfl]
  by_cases hb : b = c
  · simp only [if_pos hb]; rfl
  · simp only [if_neg hb]

/-- A core reset leaves DDR5 and the central buffer. -/
theorem Dev.mem_coreReset (d : Dev) (c : Nat) : (d.coreReset c).mem = d.mem := by
  obtain ⟨e, -, hmem, hreset⟩ := d.coreReset_stages c
  obtain ⟨hoff, -, -⟩ := cpxCancelAll_keeps d c
  obtain ⟨-, -, -, -, -, hcancel, -⟩ := Dev.offCore_fields hoff
  rw [hreset, Dev.voteWithdraw_mem, Dev.showVote_mem, Dev.coreRegsReset_mem, Dev.updCore_mem, hmem, hcancel]

/-- The vote bookkeeping writes registers of the power manager, none of a pod. -/
theorem Dev.inflight_coreReset (d : Dev) {c : Nat} (hc : c < 108) :
    (d.coreReset c).rf (POD_DMA_c_STS_INFLIGHT (c / 9) (c % 9)) = 0 := by
  have hdom : coreDom c < 36 := by unfold coreDom; split <;> omega
  obtain ⟨e, -, -, hreset⟩ := d.coreReset_stages c
  rw [hreset, Dev.rf_voteWithdraw, Dev.rf_showVote, Dev.inflight_coreRegsReset]
  all_goals
    dsimp only [rPOD_DMA_c_STS, rPMU_STS, rPMU_PDd_STS]
    omega

/-! ### Completion of a transfer (R165) -/

theorem exec_dmaComplete (c : Fin 108) (n : Fin 16) (s : State) :
    exec (.dmaComplete c n) s = s.act fun d => if d.domRun (coreDom c) then d.dmaComplete c n else d := rfl
/-- A ticket that is free completes nothing. -/
theorem Dev.dmaComplete_free {d : Dev} {c : Fin 108} {n : Nat} (h : Tab.find (d.core c).dma n = none) : d.dmaComplete c n = d := by
  unfold Dev.dmaComplete
  rw [h]
theorem exec_dmaComplete_free {s : State} {c : Fin 108} {n : Fin 16} (h : Tab.find (s.dev.core c).dma n = none) :
    exec (.dmaComplete c n) s = .next s := by
  rw [exec_dmaComplete, State.act, State.onDev, Dev.dmaComplete_free h, ite_self]

/-- Settles O21: the core's reset state holds no transfer and no ticket, and a completion needs a ticket that is not free. -/
theorem coreResetEndsTransfers : Obligations.CoreResetEndsTransfers := by
  unfold Obligations.CoreResetEndsTransfers
  intro d c t
  have hcore : t.core c = (d.core c).restarted := by
    rw [Dev.core_coreReset, if_pos rfl]
  have hdma : (t.core c).dma = [] := by rw [hcore]; rfl
  refine ⟨hdma, by rw [hcore]; rfl, Dev.inflight_coreReset d c.isLt, by rw [hcore]; rfl, Dev.mem_coreReset d c, fun j hj => ?_, fun n s hs => ?_⟩
  · rw [Dev.core_coreReset, if_neg hj]
  · exact exec_dmaComplete_free (by rw [hs, hdma]; rfl)

end Sys2Proof.Machine

/-! SUPPORT. What every row keeps: it answers a next state, leaves the waiting commands alone, and no fuse bit it finds blown is lost (R447). -/

namespace Sys2Proof.Machine

/-! ### What every row keeps: the waiting commands, and the blown fuse bits -/

theorem fuseKept_refl (a : Nat) : fuseKept a a := fun _ h => h
theorem fuseKept.trans {a b c : Nat} (h1 : fuseKept a b) (h2 : fuseKept b c) : fuseKept a c := fun i h => h2 i (h1 i h)
theorem Sec.fusesKept_refl (a : Sec) : a.fusesKept a :=
  ⟨fuseKept_refl _, fuseKept_refl _, fuseKept_refl _, fuseKept_refl _, fuseKept_refl _, fuseKept_refl _, fuseKept_refl _⟩
theorem Sec.fusesKept.trans {a b c : Sec} (h1 : a.fusesKept b) (h2 : b.fusesKept c) : a.fusesKept c := by
  obtain ⟨p0, p1, p2, p3, p4, p5, p6⟩ := h1
  obtain ⟨q0, q1, q2, q3, q4, q5, q6⟩ := h2
  exact ⟨p0.trans q0, p1.trans q1, p2.trans q2, p3.trans q3, p4.trans q4, p5.trans q5, p6.trans q6⟩

/-- The waiting commands stand, and no fuse bit blown in `s` is lost in `t`. -/
def State.Keeps (s t : State) : Prop := t.pending = s.pending ∧ s.sec.fusesKept t.sec

/-- The row answers a next state, which keeps the waiting commands and the blown fuse bits. -/
def Res.KeepsFrom (r : Res) (s : State) : Prop := ∃ t, r = .next t ∧ s.Keeps t

theorem State.Keeps.refl (s : State) : s.Keeps s := ⟨rfl, Sec.fusesKept_refl _⟩
theorem State.Keeps.trans {s t u : State} (h1 : s.Keeps t) (h2 : t.Keeps u) : s.Keeps u := ⟨h2.1.trans h1.1, h1.2.trans h2.2⟩
/-- The fuse slots. -/
def Sec.fuses (x : Sec) : Nat × Nat × Nat × Nat × Nat × Nat × Nat := (x.f0, x.f1, x.f2, x.f3, x.f4, x.f5, x.f6)
theorem State.keeps_of_fuses {s t : State} (hp : t.pending = s.pending) (hf : t.sec.fuses = s.sec.fuses) : s.Keeps t := by
  simp only [Sec.fuses, Prod.mk.injEq] at hf
  obtain ⟨h0, h1, h2, h3, h4, h5, h6⟩ := hf
  refine ⟨hp, ?_⟩
  unfold Sec.fusesKept
  rw [h0, h1, h2, h3, h4, h5, h6]
  exact s.sec.fusesKept_refl
theorem State.keeps_onDev (s : State) (f : Dev → Dev) : s.Keeps (s.onDev f) := ⟨rfl, s.sec.fusesKept_refl⟩
theorem State.keeps_on (s : State) (d : Dev) : s.Keeps { s with dev := d } := ⟨rfl, s.sec.fusesKept_refl⟩

theorem Res.keepsFrom_next {s t : State} (h : s.Keeps t) : Res.KeepsFrom (.next t) s := ⟨t, rfl, h⟩
theorem Res.keepsFrom_act (s : State) (f : Dev → Dev) : Res.KeepsFrom (s.act f) s := keepsFrom_next (s.keeps_onDev f)
theorem Res.keepsFrom_dspWord (m b : Bool) (c : Fin 108) (s : State) (f : Dev → Dev) : Res.KeepsFrom (State.dspWord m b c s f) s := by
  unfold State.dspWord
  split
  · exact keepsFrom_act s _
  · split
    · exact keepsFrom_act s _
    · exact keepsFrom_next (.refl s)

/-! ### Resets, alarms, fuses -/

theorem fuseKept_or (a b : Nat) : fuseKept a (a ||| b) := fun i h => by rw [Nat.testBit_or, h, Bool.true_or]
theorem fuseKept_zero (b : Nat) : fuseKept 0 b := fun i h => by simp at h
/-- Setting a clear bit carries into no other. -/
theorem setBit_eq_putBits (a n : Nat) : setBit a n = putBits a n 1 1 := by
  have hmod := Nat.mod_add_div a (2 ^ n)
  have hdiv : a / 2 ^ (n + 1) = a / 2 ^ n / 2 := by rw [Nat.pow_succ, Nat.div_div_eq_div_mul]
  have hsplit : 2 ^ n * (a / 2 ^ n) = a / 2 ^ n / 2 * 2 ^ (n + 1) + 2 ^ n * (a / 2 ^ n % 2) := by
    rw [Nat.pow_succ, Nat.mul_comm (2 ^ n) 2, ← Nat.mul_assoc, Nat.mul_comm (2 ^ n) (a / 2 ^ n % 2), ← Nat.add_mul, Nat.div_add_mod', Nat.mul_comm]
  unfold setBit putBits bitAt
  rw [hdiv, Nat.mod_eq_of_lt (by decide : 1 < 2 ^ 1), Nat.one_mul]
  generalize a / 2 ^ n / 2 * 2 ^ (n + 1) = high at hsplit
  rcases Nat.mod_two_eq_zero_or_one (a / 2 ^ n) with h | h
  · rw [h, Nat.mul_zero] at hsplit
    rw [h, if_neg (by decide)]
    omega
  · rw [h, Nat.mul_one] at hsplit
    rw [h, if_pos (by decide)]
    omega
theorem fuseKept_setBit (a n : Nat) : fuseKept a (setBit a n) := fun i h => by
  rw [setBit_eq_putBits, testBit_putBits]
  by_cases hi : i = n
  · subst hi; simp
  · rw [if_neg (by omega), h]

theorem Sec.fusesKept_fuseProg (x : Sec) (slot value : Nat) : x.fusesKept (x.fuseProg slot value) := by
  have blank {a b : Nat} (h : a = 0) : fuseKept a b := h ▸ fuseKept_zero b
  obtain ⟨h0, h1, h2, h3, h4, h5, h6⟩ := x.fusesKept_refl
  unfold Sec.fuseProg
  split
  · exact x.fusesKept_refl
  · split
    · split
      · exact ⟨h0, h1, blank ‹_›, h3, h4, h5, h6⟩
      · exact x.fusesKept_refl
    · split
      · exact ⟨h0, h1, h2, blank ‹_›, h4, h5, h6⟩
      · exact x.fusesKept_refl
    · split
      · exact ⟨h0, h1, h2, h3, blank ‹_›, h5, h6⟩
      · exact x.fusesKept_refl
    · exact ⟨h0, h1, h2, h3, h4, h5, fuseKept_or _ _⟩
    · exact x.fusesKept_refl

theorem State.keeps_cold (s : State) (trigger : Nat) : s.Keeps (s.cold trigger) := by
  unfold State.cold
  exact keeps_of_fuses rfl rfl
theorem State.keeps_por (s : State) (supply : Bool) : s.Keeps (s.por supply) := by
  unfold State.por
  exact keeps_of_fuses rfl rfl
theorem State.keeps_erase (s : State) : s.Keeps s.erase := by
  unfold State.erase
  exact keeps_of_fuses rfl rfl
theorem State.keeps_alarmRestart (s : State) : s.Keeps s.alarmRestart := by
  unfold State.alarmRestart
  split
  · exact .refl s
  · exact s.keeps_cold 4
theorem State.keeps_alarmLog (s : State) (i : Nat) : s.Keeps (s.alarmLog i) := by
  unfold State.alarmLog
  exact keeps_of_fuses rfl rfl
/-- Action 5 blows KEK_DEAD; the others touch no fuse. -/
theorem State.keeps_kekDead (s : State) : s.Keeps { s with sec.f6 := setBit s.sec.f6 3 } := by
  obtain ⟨h0, h1, h2, h3, h4, h5, -⟩ := s.sec.fusesKept_refl
  exact ⟨rfl, h0, h1, h2, h3, h4, h5, fuseKept_setBit _ _⟩

/-- A fold of operations that keep, keeps. -/
theorem State.keeps_foldl {α : Type} {f : State → α → State} (h : ∀ (s : State) (a : α), s.Keeps (f s a)) : ∀ (l : List α) (s : State), s.Keeps (l.foldl f s)
  | [], s => .refl s
  | a :: l, s => (h s a).trans (keeps_foldl h l (f s a))

theorem State.keeps_alarmDo (s : State) (srcs : List Nat) (a : Nat) : s.Keeps (s.alarmDo srcs a) := by
  have hevents : s.Keeps (if 1 ≤ a then s.onDev fun d => srcs.foldl (fun d i => d.health 2 1 i) d else s) := by
    split
    · exact s.keeps_onDev _
    · exact .refl s
  unfold State.alarmDo
  dsimp only
  split
  · exact hevents
  · exact hevents
  · exact hevents.trans (keeps_erase _)
  · exact hevents.trans ((keeps_erase _).trans (keeps_alarmRestart _))
  · exact hevents.trans ((keeps_erase _).trans (keeps_alarmRestart _))
  · exact hevents.trans ((keeps_erase _).trans ((keeps_kekDead _).trans (keeps_alarmRestart _)))
theorem State.keeps_alarm (s : State) (srcs : List Nat) : s.Keeps (s.alarm srcs) := by
  unfold State.alarm
  dsimp only
  split
  · exact .refl s
  · exact (keeps_foldl keeps_alarmLog srcs s).trans (keeps_alarmDo _ _ _)
theorem State.keeps_svnRaise (s : State) : s.Keeps s.svnRaise := by
  unfold State.svnRaise
  split
  · obtain ⟨h0, -, h2, h3, h4, h5, h6⟩ := s.sec.fusesKept_refl
    exact ⟨rfl, h0, fuseKept_or _ _, h2, h3, h4, h5, h6⟩
  · exact .refl s
theorem State.keeps_supplyDeviation (s : State) (r level : Nat) : s.Keeps (s.supplyDeviation r level) := by
  unfold State.supplyDeviation
  dsimp only
  split
  · exact .refl s
  · exact s.keeps_onDev _
  · split
    · exact s.keeps_alarm _
    · exact s.keeps_onDev _
  · split
    · exact s.keeps_por true
    · exact s.keeps_onDev _
theorem State.keeps_thermalRestart (s : State) (secs : Nat) : s.Keeps (s.thermalRestart secs) := by
  unfold State.thermalRestart
  split
  · exact .refl s
  · dsimp only
    split
    · exact (s.keeps_cold 3).trans (keeps_on _ _)
    · exact .refl s

/-! ### Debug unlock, boot, recovery -/

theorem State.keeps_secChallenge (s : State) (level : Nat) : s.Keeps (s.secChallenge level) := by
  unfold State.secChallenge
  split
  · exact .refl s
  · exact keeps_of_fuses rfl rfl
theorem State.keeps_openSession (s : State) (lvl : Nat) (holds : List (Fin 80)) : s.Keeps (s.openSession lvl holds) := by
  have h : s.Keeps (if lvl = 3 then s.erase else s) := by
    split
    · exact s.keeps_erase
    · exact .refl s
  exact h.trans (keeps_of_fuses rfl rfl)
theorem State.keeps_failResponse (s : State) : s.Keeps s.failResponse := by
  unfold State.failResponse
  dsimp only
  split
  · refine State.Keeps.trans ?_ (keeps_alarm _ _)
    exact keeps_of_fuses rfl rfl
  · exact keeps_of_fuses rfl rfl
theorem State.keeps_secResponse (s : State) (key sig : List Byte) (holds : List (Fin 80)) (fired : BitVec 7) :
    s.Keeps (s.secResponse key sig holds fired) := by
  unfold State.secResponse
  dsimp only
  split
  · refine State.Keeps.trans ?_ (keeps_alarm _ _)
    exact keeps_of_fuses rfl rfl
  · split
    · exact (s.keeps_alarm _).trans (keeps_openSession _ _ _)
    · exact (s.keeps_alarm _).trans (keeps_failResponse _)

theorem State.keeps_loadKey (s : State) (k : List Byte) (i : Nat) : s.Keeps (s.loadKey k i) := by
  unfold State.loadKey
  dsimp only
  split
  · exact keeps_on s _
  · split
    · exact .refl s
    · split
      · exact keeps_on s _
      · exact keeps_of_fuses rfl rfl
theorem State.keeps_useTable (s : State) (slot : Nat) : s.Keeps (s.useTable slot) := by
  refine State.Keeps.trans ?_ (keeps_foldl (fun s i => s.keeps_loadKey _ i) _ _)
  exact keeps_on s _
theorem State.keeps_bootTable (s : State) : s.Keeps s.bootTable := by
  refine State.Keeps.trans ?_ (keeps_onDev _ _)
  split
  · exact s.keeps_useTable _
  · exact s.keeps_onDev _
theorem State.keeps_bootRecords (s : State) : s.Keeps s.bootRecords := s.keeps_onDev _
theorem State.keeps_bootLife (s : State) : s.Keeps s.bootLife := by
  unfold State.bootLife
  split
  · exact s.keeps_onDev _
  · exact .refl s
theorem State.keeps_startImage (s : State) (slot : Nat) (fb : Bool) : s.Keeps (s.startImage slot fb) := keeps_of_fuses rfl rfl
theorem State.keeps_bootStart (s : State) (f : Dev → Dev) : s.Keeps (s.onDev f).bootRecords.bootLife :=
  ((s.keeps_onDev f).trans (keeps_bootRecords _)).trans (keeps_bootLife _)
theorem State.keeps_boot (s : State) (parity : Bool) : s.Keeps (s.boot parity) := by
  have hparity : s.Keeps (if parity then s.alarm [3] else s) := by
    split
    · exact s.keeps_alarm _
    · exact .refl s
  unfold State.boot
  dsimp only
  split
  · exact hparity
  · split
    · exact (hparity.trans (keeps_bootStart _ _)).trans (keeps_onDev _ _)
    · exact (hparity.trans (keeps_bootStart _ _)).trans ((keeps_startImage _ _ _).trans ((keeps_bootTable _).trans (keeps_onDev _ _)))
theorem State.keeps_recoveryGo (s : State) : s.Keeps s.recoveryGo := by
  unfold State.recoveryGo
  dsimp only
  split
  · refine State.Keeps.trans ?_ (keeps_cold _ _)
    exact keeps_of_fuses rfl rfl
  · exact keeps_on s _
theorem State.keeps_recoveryWr (s : State) (init : Initiator) (value : Nat) : s.Keeps (s.recoveryWr init value) := by
  unfold State.recoveryWr
  dsimp only
  split
  · exact keeps_on s _
  · split
    · exact (keeps_on s _).trans (keeps_recoveryGo _)
    · exact keeps_on s _
theorem State.keeps_fwStageDone (s : State) : s.Keeps s.fwStageDone := by
  unfold State.fwStageDone
  split
  · exact .refl s
  · dsimp only
    split
    · split <;> exact keeps_of_fuses rfl rfl
    · split <;> exact keeps_of_fuses rfl rfl
    · exact keeps_of_fuses rfl rfl

/-! ### Boundaries and steps of time -/

theorem State.keeps_nameSlot (old : Nat) (s : State) : s.Keeps (s.nameSlot old) := by
  unfold State.nameSlot
  dsimp only
  split
  · exact .refl s
  · exact keeps_of_fuses rfl rfl
theorem State.keeps_applyEffect (s : State) (n : Nat) (e : Staged) : s.Keeps (s.applyEffect n e) := by
  unfold State.applyEffect
  split
  case h_8 => exact (s.keeps_onDev _).trans (keeps_nameSlot _ _)
  all_goals exact s.keeps_onDev _
theorem State.keeps_applyNamed (s : State) (n k : Nat) (hw : List (Nat × Nat × Nat)) (x : Named) : s.Keeps (s.applyNamed n k hw x) := by
  cases x with
  | effect e => exact s.keeps_applyEffect n e
  | group i ord => exact s.keeps_onDev _
theorem State.keeps_boundary (s : State) (n k : Nat) (release : Bool) (hw : List (Nat × Nat × Nat)) : s.Keeps (s.boundary n k release hw) :=
  ((keeps_on s _).trans (keeps_foldl (fun s x => s.keeps_applyNamed n k hw x) _ _)).trans (keeps_onDev _ _)
theorem State.keeps_runDue : ∀ (fuel : Nat) (s : State), s.Keeps (s.runDue fuel)
  | 0, s => .refl s
  | fuel + 1, s => by
    unfold State.runDue
    split
    · exact .refl s
    · split
      · exact State.Keeps.trans ((s.keeps_onDev _).trans (keeps_boundary _ _ _ _ _)) (keeps_runDue fuel _)
      · exact .refl s
theorem State.keeps_runCrossed : ∀ (fuel : Nat) (s : State), s.Keeps (s.runCrossed fuel)
  | 0, s => .refl s
  | fuel + 1, s => by
    unfold State.runCrossed
    split
    · exact .refl s
    · split
      · exact State.Keeps.trans ((s.keeps_onDev _).trans (keeps_boundary _ _ _ _ _)) (keeps_runCrossed fuel _)
      · exact .refl s
theorem State.keeps_stepOnce (s : State) (ns : Int) : s.Keeps (s.stepOnce ns) := by
  unfold State.stepOnce
  dsimp only
  split
  · exact .refl s
  · exact (s.keeps_runDue _).trans ((keeps_of_fuses rfl rfl).trans (keeps_runCrossed _ _))
theorem State.keeps_applyOnce (s : State) (init : Initiator) (ns : Int) : s.Keeps (s.applyOnce init ns) := by
  unfold State.applyOnce
  split
  · exact s.keeps_onDev _
  · exact s.keeps_stepOnce ns
theorem State.keeps_runApplies : ∀ (fuel : Nat) (s : State), s.Keeps (s.runApplies fuel)
  | 0, s => .refl s
  | fuel + 1, s => by
    unfold State.runApplies
    split
    · exact .refl s
    · exact ((keeps_on s _).trans (keeps_applyOnce _ _ _)).trans (keeps_runApplies fuel _)
theorem State.keeps_stepTime (s : State) (ns : Int) : s.Keeps (s.stepTime ns) := (s.keeps_stepOnce ns).trans (keeps_runApplies _ _)
theorem State.keeps_boundaryEvent (s : State) : s.Keeps s.boundaryEvent := by
  unfold State.boundaryEvent
  split
  · exact .refl s
  · exact ((s.keeps_onDev _).trans (keeps_boundary _ _ _ _ _)).trans (keeps_runApplies _ _)
theorem State.keeps_eventsDue : ∀ (fuel : Nat) (s : State), s.Keeps (s.eventsDue fuel)
  | 0, s => .refl s
  | fuel + 1, s => by
    unfold State.eventsDue
    split
    · exact .refl s
    · split
      · exact s.keeps_boundaryEvent.trans (keeps_eventsDue fuel _)
      · exact .refl s
theorem State.keeps_tick (s : State) : s.Keeps s.tick := (s.keeps_onDev _).trans (keeps_eventsDue _ _)

/-! ### The register bus -/

theorem State.keeps_stepCmdWr (s : State) (init : Initiator) (value : Nat) : s.Keeps (s.stepCmdWr init value) := by
  unfold State.stepCmdWr
  dsimp only
  split
  · exact keeps_on s _
  · split
    · exact (keeps_on s _).trans ((keeps_applyOnce _ _ _).trans (keeps_runApplies _ _))
    · exact keeps_on s _
theorem State.keeps_regWrite (s : State) (init : Initiator) (off value : Nat) : s.Keeps (s.regWrite init off value) := by
  unfold State.regWrite
  dsimp only
  split
  · exact s.keeps_recoveryWr _ _
  · split
    · split
      · exact keeps_on s _
      · split
        · split
          · exact (keeps_on s _).trans (keeps_alarm _ _)
          · exact keeps_on s _
        · exact keeps_on s _
    · exact s.keeps_onDev _
theorem State.keeps_regWriteAll (s : State) (init : Initiator) (off value : Nat) : s.Keeps (s.regWriteAll init off value) := by
  unfold State.regWriteAll
  split
  · exact s.keeps_stepCmdWr _ _
  · exact s.keeps_regWrite _ _ _
theorem State.keeps_busWrite (s : State) (init : Initiator) (off size value hw : Nat) : s.Keeps (s.busWrite init off size value hw) := by
  unfold State.busWrite
  dsimp only
  split
  · exact s.keeps_onDev _
  · split
    · exact s.keeps_onDev _
    · split
      · exact .refl s
      · split
        · exact s.keeps_regWriteAll _ _ _
        · split
          · exact (s.keeps_regWriteAll _ _ _).trans (keeps_onDev _ _)
          · exact s.keeps_regWriteAll _ _ _

/-! ### Rows that reach beyond the device -/

theorem execTimeStep_keeps (c : PqCmd) (s : State) : Res.KeepsFrom (execTimeStep c s) s := by
  refine Res.keepsFrom_next (State.Keeps.trans ?_ (State.keeps_onDev _ _))
  split
  · exact s.keeps_stepTime _
  · exact .refl s
theorem execPtpServoUpdate_keeps (behind : BitVec 64) (s : State) : Res.KeepsFrom (execPtpServoUpdate behind s) s := by
  refine Res.keepsFrom_next ?_
  split
  · exact .refl s
  · split
    · exact s.keeps_stepTime _
    · split
      · exact .refl s
      · exact s.keeps_onDev _
theorem execColdReset_keeps (s : State) : Res.KeepsFrom (execColdReset s) s := by
  unfold execColdReset
  split
  · exact Res.keepsFrom_next ((State.keeps_on s _).trans (State.keeps_cold _ _))
  · exact Res.keepsFrom_next (.refl s)
theorem execLifetimeSave_keeps (s : State) : Res.KeepsFrom (execLifetimeSave s) s := by
  unfold execLifetimeSave
  dsimp only
  split
  · exact Res.keepsFrom_next (State.keeps_of_fuses rfl rfl)
  · exact Res.keepsFrom_next (.refl s)
theorem execDebugLockoutExpiry_keeps (s : State) : Res.KeepsFrom (execDebugLockoutExpiry s) s := by
  unfold execDebugLockoutExpiry
  split
  · exact Res.keepsFrom_next (.refl s)
  · exact Res.keepsFrom_next (State.keeps_of_fuses rfl rfl)
theorem execBoot_keeps (parity : Bool) (s : State) : Res.KeepsFrom (execBoot parity s) s := by
  refine Res.keepsFrom_next ?_
  split
  · exact s.keeps_boot _
  · exact .refl s
theorem execFuseResense_keeps (bad : Bool) (s : State) : Res.KeepsFrom (execFuseResense bad s) s := by
  refine Res.keepsFrom_next ?_
  split
  · exact s.keeps_alarm _
  · exact .refl s
theorem execIntegrityCheck_keeps (differs : Bool) (s : State) : Res.KeepsFrom (execIntegrityCheck differs s) s := by
  refine Res.keepsFrom_next ?_
  split
  · exact s.keeps_alarm _
  · exact .refl s
theorem execRegbusTimeout_keeps (init : Initiator) (off : BitVec 28) (write : Option Word) (taken : Bool) (s : State) :
    Res.KeepsFrom (execRegbusTimeout init off write taken s) s := by
  refine Res.keepsFrom_next ?_
  dsimp only
  split
  · exact s.keeps_onDev _
  · split
    · exact s.keeps_onDev _
    · refine State.Keeps.trans ?_ (State.keeps_onDev _ _)
      split
      · split
        · exact s.keeps_regWriteAll _ _ _
        · exact .refl s
      · exact .refl s

/-- Every row: those of DSP words and of the device alone by their form, the others by the lemma on their operation. -/
theorem exec_keeps (i : Instr) (s : State) : Res.KeepsFrom (exec i s) s := by
  cases i
  case boundaryEvent => exact Res.keepsFrom_next s.keeps_boundaryEvent
  case timeStep c => exact execTimeStep_keeps c s
  case fwStageComplete => exact Res.keepsFrom_next s.keeps_fwStageDone
  case tmuStepApply init value => exact Res.keepsFrom_next (s.keeps_stepCmdWr init _)
  case ptpServoUpdate behind => exact execPtpServoUpdate_keeps behind s
  case por supply => exact Res.keepsFrom_next (s.keeps_por supply)
  case coldReset => exact execColdReset_keeps s
  case tapReset => exact Res.keepsFrom_next (State.keeps_of_fuses rfl rfl)
  case thermalRestart secs => exact Res.keepsFrom_next (s.keeps_thermalRestart _)
  case lifetimeSave => exact execLifetimeSave_keeps s
  case supplyDeviation rail level => exact Res.keepsFrom_next (s.keeps_supplyDeviation _ _)
  case boot parity => exact execBoot_keeps parity s
  case recoveryGo init value bar2 => exact Res.keepsFrom_next ((State.keeps_on s _).trans (State.keeps_recoveryWr _ init _))
  case securityAlarm fired => exact Res.keepsFrom_next (s.keeps_alarm _)
  case fuseResense bad => exact execFuseResense_keeps bad s
  case integrityCheck differs => exact execIntegrityCheck_keeps differs s
  case svnRaise => exact Res.keepsFrom_next s.keeps_svnRaise
  case fuseProg slot value => exact Res.keepsFrom_next ⟨rfl, s.sec.fusesKept_fuseProg _ _⟩
  case secChallenge level => exact Res.keepsFrom_next (s.keeps_secChallenge _)
  case secResponse key sig holds fired => exact Res.keepsFrom_next (s.keeps_secResponse key sig holds fired)
  case debugLockoutExpiry => exact execDebugLockoutExpiry_keeps s
  case registerWrite init off size value hw => exact Res.keepsFrom_next (s.keeps_busWrite init _ _ _ _)
  case regbusTimeout init off write taken => exact execRegbusTimeout_keeps init off write taken s
  case sop | addi | andi | ori | xori | lui | slti | paddi | pmov | pget | mset | mseti | beq | bne | blt | bge | jmp | call | jr | loop
    | loopi | rfe | ldw | ldc | stw | stc | ldf | stf | vld | vst | vspl2 | vspl3 | vspl4 | vgath | vscat | vop | vmac | vmacs | ftap
    | vext | acclr | acmode | acmov | acexp | norm | dma | dmawait | waitjob | jobchk | jobdone | wait | mfc | mtc | mbar | cpxDec |
    cpxXfm | cpxMat | bkpt =>
    exact Res.keepsFrom_dspWord _ _ _ s _
  all_goals exact Res.keepsFrom_act s _

/-- Settles O2. -/
theorem everyCommandCompletes : Obligations.EveryCommandCompletes := by
  unfold Obligations.EveryCommandCompletes
  intro c s
  obtain ⟨t, hnext, hpending, -⟩ := exec_keeps c s
  exact ⟨t, hnext, hpending⟩

/-- Settles O4: a step is a row on the queue's rest, or a tick; both keep the blown bits. -/
theorem fusesStayBlown : Obligations.FusesStayBlown := by
  unfold Obligations.FusesStayBlown
  intro s t hstep
  unfold step at hstep
  split at hstep
  · cases hstep
    exact s.keeps_tick.2
  · next c rest hpend =>
    obtain ⟨u, hnext, -, hfuses⟩ := exec_keeps c { s with pending := rest }
    rw [hnext] at hstep
    cases hstep
    exact hfuses

end Sys2Proof.Machine

/-! SUPPORT. The scalar, pointer and branch rows of a DSP core (R130, R138, R139): what each legal word does to its core, what a word of another
instruction and an undefined one do, and that a core which does not run takes none. -/

namespace Sys2Proof.Machine

/-- A ready core runs the instruction, whatever the row. -/
theorem act_dspDo {s : State} {c : Fin 108} (hr : s.coreReady c = true) (f : Dev → Dev) : s.act (fun d => d.dspDo c f) = .next (s.onDev f) := by
  simp only [State.act, State.onDev, ready_do hr]

/-! ### Words of other instructions, undefined words, stopped cores (R137, R148) -/

/-- The state after a core takes the ILLEGAL fault at its program counter. -/
def State.illegalAt (s : State) (c : Fin 108) : State := s.onDev fun d => d.coreFault c (d.core c).pc 0x01 0 0xFF

theorem op_ne_of_undefined {w : Word} {op : Nat} (hop : opDefined op = true) (h : opDefined (opField w) = false) : opField w ≠ op := by
  rintro rfl
  rw [hop] at h
  exact Bool.noConfusion h

section
variable {s : State} {c : Fin 108} {w : Word} {op fn : Nat}

theorem dspRow_other (hd : opDefined (opField w) = true) (ho : opField w ≠ op) (f : Dev → Dev) : s.dspRow op c w f = .next s := by
  simp only [State.dspRow, op_eq, beq_eq_false_iff_ne.2 ho, hd]
  exact word_other c s f
theorem dspRow_undefined (hr : s.coreReady c = true) (hop : opDefined op = true) (h : opDefined (opField w) = false) (f : Dev → Dev) :
    s.dspRow op c w f = .next (s.illegalAt c) := by
  simp only [State.dspRow, op_eq, beq_eq_false_iff_ne.2 (op_ne_of_undefined hop h), h, State.dspWord]
  exact act_dspDo hr _
theorem dspAcRow_other (hd : opDefined (opField w) = true) (ho : opField w ≠ 0x2D ∨ (acField w ≠ fn ∧ acField w < 4)) (f : Dev → Dev) :
    s.dspAcRow fn c w f = .next s := by
  have hmine : (opField w == 0x2D && acField w == fn) = false := by
    rcases ho with ho | ⟨hf, -⟩
    · simp [ho]
    · simp [hf]
  have hbad : (!opDefined (opField w) || (opField w == 0x2D && decide (4 ≤ acField w))) = false := by
    rcases ho with ho | ⟨-, hf⟩
    · simp [hd, ho]
    · simp [hd, hf]
  simp only [State.dspAcRow, op_eq, ac_eq, hmine, hbad]
  exact word_other c s f
theorem dspAcRow_illegal (hr : s.coreReady c = true) (hfn : fn < 4) (h : opDefined (opField w) = false ∨ (opField w = 0x2D ∧ 4 ≤ acField w))
    (f : Dev → Dev) : s.dspAcRow fn c w f = .next (s.illegalAt c) := by
  have hmine : (opField w == 0x2D && acField w == fn) = false := by
    rcases h with h | ⟨-, h⟩
    · simp [op_ne_of_undefined (op := 0x2D) rfl h]
    · simp [show acField w ≠ fn by omega]
  have hbad : (!opDefined (opField w) || (opField w == 0x2D && decide (4 ≤ acField w))) = true := by
    rcases h with h | ⟨h, hf⟩
    · simp [h]
    · simp [h, hf]
  simp only [State.dspAcRow, op_eq, ac_eq, hmine, hbad, State.dspWord]
  exact act_dspDo hr _
end

/-- Settles O3: the row's test of the word's OP and FN decides, before the core is looked at. -/
theorem wordsOfAnotherRow : Obligations.WordsOfAnotherRow := by
  unfold Obligations.WordsOfAnotherRow
  intro c w s
  refine ⟨fun hd ho => dspRow_other hd ho _, fun hd ho => dspRow_other hd ho _, fun hd ho => dspAcRow_other hd (ho.imp_right fun h => by omega) _,
    fun n hd ho => dspRow_other hd ho _, fun l v hd ho => dspRow_other hd ho _, fun hd ho => dspRow_other hd ho _, fun hr hu => ?_,
    fun hr ho hf => ?_⟩
  · exact ⟨dspRow_undefined hr rfl hu _, dspRow_undefined hr rfl hu _, dspAcRow_illegal hr (by decide) (.inl hu) _,
      fun n => dspRow_undefined hr rfl hu _, fun l v => dspRow_undefined hr rfl hu _, dspRow_undefined hr rfl hu _⟩
  · exact ⟨dspAcRow_illegal hr (by decide) (.inr ⟨ho, hf⟩) _, dspAcRow_illegal hr (by decide) (.inr ⟨ho, hf⟩) _,
      dspAcRow_illegal hr (by decide) (.inr ⟨ho, hf⟩) _⟩

/-- Settles O13. -/
theorem stoppedCoreDoesNothing : Obligations.StoppedCoreDoesNothing := by
  unfold Obligations.StoppedCoreDoesNothing
  intro c w s h
  exact ⟨fun _ => word_stopped h _ _ _, fun _ => word_stopped h _ _ _, fun _ => word_stopped h _ _ _, fun _ => word_stopped h _ _ _,
    fun _ => word_stopped h _ _ _, fun _ l v => word_stopped h _ _ _⟩

/-! ### Scalar, immediate, pointer and offset rows (R138, R139) -/

theorem legalThen_true {b : Bool} (h : b = true) (r : InsnRes) : legalThen b r = r := by rw [h]; rfl

theorem insnSop_done {x : Nat} {k : Core} {r : Word} (h0 : bitsAt x 5 6 = 0)
    (hr : sopFn (bitsAt x 0 5) (k.getS (fA x)) (k.getS (fB x)) = some r) : insnSop x k = .done (k.setS (fD x) r).adv := by
  unfold insnSop
  rw [legalThen_true (beq_iff_eq.2 h0), hr]
theorem insnLui_done {x : Nat} {k : Core} (h0 : fA x = 0) : insnLui x k = .done (k.setSN (fD x) (fImm x * 2 ^ 16)).adv :=
  legalThen_true (beq_iff_eq.2 h0) _
theorem insnPaddi_done {x : Nat} {k : Core} (h0 : bitsAt x 16 2 = 0) :
    insnPaddi x k = .done (k.setP (bitsAt x 22 4) ((k.getP (bitsAt x 18 4) : Int) + fImmS x)).adv :=
  legalThen_true (beq_iff_eq.2 h0) _
theorem insnMseti_done {x : Nat} {k : Core} (h0 : bitsAt x 16 1 = 0) : insnMseti x k = .done (k.setM (fPs x) (fImmS x)).adv :=
  legalThen_true (beq_iff_eq.2 h0) _
/-- The low 17 bits of format PS are zero: bit 16 and the immediate field. -/
theorem ps_legal {x : Nat} (h0 : bitsAt x 0 17 = 0) : (bitsAt x 16 1 == 0 && fImm x == 0) = true := by
  simp only [bitsAt, fImm, Bool.and_eq_true, beq_iff_eq] at h0 ⊢
  omega

/-- Settles O6: each word is legal, and its instruction is done. -/
theorem scalarResults : Obligations.ScalarResults := by
  unfold Obligations.ScalarResults
  refine ⟨fun c w s hr => ?_, fun c w s hr => ?_⟩
  · refine ⟨fun ho h0 => ?_, fun ho => dsp_done hr ho rfl, fun ho => dsp_done hr ho rfl, fun ho => dsp_done hr ho rfl,
      fun ho => dsp_done hr ho rfl, fun ho h0 => dsp_done hr ho (insnLui_done h0), fun ho => dsp_done hr ho rfl⟩
    have hsop {r : Word} (hfn : sopFn (bitsAt w.toNat 0 5) ((s.dev.core c).getS (fA w.toNat)) ((s.dev.core c).getS (fB w.toNat)) = some r) :
        exec (.sop c w) s = .next (s.commit c ((s.dev.core c).setS (fD w.toNat) r).adv) := dsp_done hr ho (insnSop_done h0 hfn)
    refine ⟨?_, ?_, ?_, ?_, ?_, ?_, ?_, ?_, ?_, ?_, ?_, ?_, ?_, ?_, ?_⟩ <;> exact fun hfn => hsop (by rw [hfn]; rfl)
  · exact ⟨fun ho h0 => dsp_done hr ho (insnPaddi_done h0), fun ho h0 => dsp_done hr ho (legalThen_true (ps_legal h0) _),
      fun ho h0 => dsp_done hr ho (legalThen_true (ps_legal h0) _), fun ho h0 => dsp_done hr ho (legalThen_true (ps_legal h0) _),
      fun ho h0 => dsp_done hr ho (insnMseti_done h0)⟩

/-! ### Branches, jumps, loops (R117, R119, R130) -/

theorem insnBranch_done {taken : Word → Word → Bool} {x : Nat} {k : Core} {p : Prop} [Decidable p]
    (h : taken (k.getS (fD x)) (k.getS (fA x)) = true ↔ p) :
    insnBranch taken x k = .done (if p then k.jump (ofSigned 21 ((k.pc : Int) + 1 + fImmS x)) else k.adv) := by
  unfold insnBranch
  by_cases hp : p
  · rw [if_pos (h.2 hp), if_pos hp]
  · rw [if_neg fun ht => hp (h.1 ht), if_neg hp]
theorem insnJr_done {x : Nat} {k : Core} (h0 : bitsAt x 0 21 = 0) : insnJr x k = .done (k.jump ((k.getS (fD x)).toNat % 2 ^ 21)) :=
  legalThen_true (beq_iff_eq.2 h0) _
/-- A loop level is opened outside the fault handler. -/
theorem startLoop_done {len count : Nat} {k : Core} (hlen : len ≠ 0) (hlevels : k.loops.length < 3) (hcount : 0 < count)
    (hh : k.inHandler = false) :
    startLoop len count k = .done { k with
      pc := (k.pc + 1) % 2 ^ 21, loops := ⟨(k.pc + 1) % 2 ^ 21, (k.pc + 1 + len) % 2 ^ 21, count⟩ :: k.loops } := by
  unfold startLoop
  rw [legalThen_true (by simp [hlen, hlevels]), if_neg (by omega), hh]
  rfl

/-- The device once what is younger than a mispredicted branch is squashed (R119). -/
def Dev.squashYounger (d : Dev) (c : Fin 108) (young : Nat) : Dev :=
  (d.cpxCancelAll c).bumpBy (POD_CORE_c_SQUASHED (c / 9) (c % 9)) young

/-- The registers of the coprocessors lie above every other block a core needs. -/
theorem Dev.rf_cpxShow (d : Dev) (p c : Nat) {g : Fld} (h : g.off < 0x8000000) : (d.cpxShow p c).rf g = d.rf g := by
  unfold Dev.cpxShow
  simp only [show upTo 3 = [0, 1, 2] from rfl, List.foldl_cons, List.foldl_nil]
  rw [Dev.rf_wf_other, Dev.rf_wf_other, Dev.rf_wf_other, Dev.rf_wf_other, Dev.rf_wf_other]
  all_goals
    dsimp only [rCPX_CORE_c_OUT, rCPX_STS, rCPX_u_QUEUE]
    omega
theorem Dev.rf_bumpBy_other (d : Dev) (f g : Fld) (n : Nat) (h : g.off ≠ f.off) : (d.bumpBy f n).rf g = d.rf g := d.rf_wf_other f g _ h
theorem Dev.rf_stageStall (d : Dev) (p u : Nat) {g : Fld} (h : g.off < 0x8000000) : (d.stageStall p u).rf g = d.rf g := by
  unfold Dev.stageStall
  rw [Dev.rf_bumpBy_other _ _ _ _ (by dsimp only [rCPX_u_STAGE_STALL]; omega)]
  exact Dev.rf_congr rfl g
theorem Dev.regs_withCpx (d : Dev) (l : List CpxInst) : ({ d with pods.cpx := l } : Dev).regs = d.regs := rfl
theorem Dev.rf_cpxCancel (d : Dev) (seq : Nat) {g : Fld} (h : g.off < 0x8000000) : (d.cpxCancel seq).rf g = d.rf g := by
  unfold Dev.cpxCancel
  split
  · rfl
  · unfold Dev.cpxDrop
    rw [Dev.rf_cpxShow _ _ _ h, Dev.rf_bump_other _ _ _ (by dsimp only [rCPX_u_SQUASHED]; omega)]
    rw [Dev.rf_congr (Dev.regs_withCpx _ _), Dev.rf_stageStall _ _ _ h]
theorem Dev.rf_cpxCancelAll (d : Dev) (c : Nat) {g : Fld} (h : g.off < 0x8000000) : (d.cpxCancelAll c).rf g = d.rf g := by
  have hfold (l : List Nat) (e : Dev) : (l.foldl Dev.cpxCancel e).rf g = e.rf g := by
    induction l generalizing e with
    | nil => rfl
    | cons x l ih => rw [List.foldl_cons, ih, Dev.rf_cpxCancel _ _ h]
  unfold Dev.cpxCancelAll
  extract_lets seqs
  rw [Dev.rf_congr (Dev.updCore_regs _ _ _)]
  exact hfold seqs d

theorem coreReady_squashYounger {s : State} {c : Fin 108} (young : Nat) (h : s.coreReady c = true) :
    (s.onDev fun d => d.squashYounger c young).coreReady c = true := by
  have hrf {g : Fld} (hlow : g.off < 0x8000000) (hg : g.off ≠ rPOD_CORE_c_SQUASHED (c / 9) (c % 9)) :
      (s.dev.squashYounger c young).rf g = s.dev.rf g :=
    (Dev.rf_wf_other _ _ _ _ hg).trans (Dev.rf_cpxCancelAll _ _ hlow)
  have hdom (i : Nat) (hi : i < 80) : (s.dev.squashYounger c young).dom i = s.dev.dom i :=
    hrf (by dsimp only [rPMU_PDd_STS]; omega) (by dsimp only [rPMU_PDd_STS, rPOD_CORE_c_SQUASHED]; omega)
  have hcore : (coreDom c) < 80 := by unfold coreDom; split <;> omega
  have hpc : ((s.dev.squashYounger c young).core c).pc = (s.dev.core c).pc := by
    obtain ⟨-, -, hc⟩ := cpxCancelAll_keeps s.dev c
    rw [Dev.squashYounger, core_congr (Dev.bumpBy_cores _ _ _), hc, if_pos rfl]
  have hst : (s.dev.squashYounger c young).coreState c = s.dev.coreState c :=
    hrf (by dsimp only [coreStateF, rPOD_CORE_c_STS]; omega) (by dsimp only [coreStateF, rPOD_CORE_c_STS, rPOD_CORE_c_SQUASHED]; omega)
  simpa only [State.coreReady, State.onDev_dev, Dev.coreRuns, Dev.domRun, Dev.domOn, fetchOk, hpc, hst, hdom _ hcore,
    hdom (3 * (c / 9) + 2) (by omega)] using h
theorem dspBranch_mispredicted {s : State} {c : Fin 108} {w : Word} {op young : Nat} (hr : s.coreReady c = true) (hy : 0 < young)
    (ho : opField w = op) (f : Nat → Core → InsnRes) :
    s.dspBranch op c w young f = (s.onDev fun d => d.squashYounger c young).dspBranch op c w 0 f := by
  unfold State.dspBranch
  rw [row_do hr ho, row_do (coreReady_squashYounger young hr) ho]
  simp only [State.onDev, if_neg (Nat.pos_iff_ne_zero.1 hy), if_pos]
  rfl

/-- Settles O7. -/
theorem branchResults : Obligations.BranchResults := by
  unfold Obligations.BranchResults
  refine ⟨fun c w s hr => ?_, fun c w young s hr hy => ?_⟩
  · refine ⟨fun ho => branch_row hr ho (insnBranch_done beq_iff_eq), fun ho => branch_row hr ho (insnBranch_done bne_iff_ne),
      fun ho => branch_row hr ho (insnBranch_done decide_eq_true_iff), fun ho => branch_row hr ho (insnBranch_done decide_eq_true_iff),
      fun ho h0 => dsp_done hr ho (legalThen_true (beq_iff_eq.2 h0) _), fun ho h0 => dsp_done hr ho (legalThen_true (beq_iff_eq.2 h0) _),
      fun ho h0 => branch_row hr ho (insnJr_done h0), fun ho h0 hlen hlevels hcount hh => dsp_done hr ho ?_,
      fun ho hlen hlevels hcount hh => dsp_done hr ho (startLoop_done hlen hlevels hcount hh)⟩
    rw [insnLoop, legalThen_true (beq_iff_eq.2 h0), startLoop_done hlen hlevels hcount hh]
  · exact ⟨fun ho => dspBranch_mispredicted hr hy ho _, fun ho => dspBranch_mispredicted hr hy ho _,
      fun ho => dspBranch_mispredicted hr hy ho _, fun ho => dspBranch_mispredicted hr hy ho _, fun ho => dspBranch_mispredicted hr hy ho _⟩

end Sys2Proof.Machine

/-! SUPPORT. The local-memory, vector and accumulator rows of a DSP core (R123-R135, R138-R140, R150-R157): what each leaves where its checks pass, and
when a multiply-accumulate traps. -/

namespace Sys2Proof.Machine

/-! ### Checks of an access (R126, R127, R129) -/

theorem Core.access_ok {k : Core} {acc : List (Nat × Bool)} (h : k.accessFault acc = none) (r : InsnRes) : k.access acc r = r := by
  unfold Core.access
  rw [h]
theorem alignedThen_even {a : Nat} (h : a % 2 = 0) (r : InsnRes) : alignedThen a r = r := if_neg (by omega)

/-- Settles O8. -/
theorem localMemoryResults : Obligations.LocalMemoryResults := by
  unfold Obligations.LocalMemoryResults
  intro c w s hr x k a hms
  refine ⟨fun ho hacc => dsp_done hr ho ?_, fun ho ha hacc => dsp_done hr ho ?_, fun ho hacc => dsp_done hr ho ?_,
    fun ho ha hacc => dsp_done hr ho ?_⟩
  · rw [insnLdw, legalThen_true hms]
    exact Core.access_ok hacc _
  · rw [insnLdc, legalThen_true hms]
    exact (alignedThen_even ha _).trans (Core.access_ok hacc _)
  · rw [insnStw, legalThen_true hms]
    exact Core.access_ok hacc _
  · rw [insnStc, legalThen_true hms]
    exact (alignedThen_even ha _).trans (Core.access_ok hacc _)

/-! ### What the updates of a core leave of it -/

theorem Core.setCr_other (k : Core) {n m : Nat} (v : Nat) (h : m ≠ n) : (k.setCr n v).getCr m = k.getCr m := by
  unfold Core.setCr Core.getCr
  rw [Tab.getD_setD, if_neg h]
theorem Core.getCr_setCr (k : Core) (n v : Nat) : (k.setCr n v).getCr n = v := Tab.getD_setD_self _ _ _ _
theorem Core.getAcc_setAcc (k : Core) (a : Nat) (l : List Int) : (k.setAcc a l).getAcc a = l := Tab.getD_setD_self _ _ _ _
theorem Core.inHandler_congr {k j : Core} (h : j.getCr 0x03 = k.getCr 0x03) : j.inHandler = k.inHandler := by
  unfold Core.inHandler
  rw [h]
/-- The program counter moves on by the loops and the handler mark alone. -/
theorem Core.adv_pc_congr {k j : Core} (hpc : j.pc = k.pc) (hl : j.loops = k.loops) (hh : j.inHandler = k.inHandler) : j.adv.pc = k.adv.pc := by
  unfold Core.adv Core.advTo
  rw [hpc, hl, hh]
  split <;> rfl
/-- Moving on changes the program counter and the loops alone. -/
theorem Core.adv_eq (k : Core) : k.adv = { k with pc := k.adv.pc, loops := k.adv.loops } := by
  unfold Core.adv Core.advTo
  split <;> rfl
@[simp] theorem Core.adv_gov (k : Core) : k.adv.gov = k.gov := by rw [Core.adv_eq]
@[simp] theorem Core.adv_s (k : Core) : k.adv.s = k.s := by rw [Core.adv_eq]
@[simp] theorem Core.adv_mem (k : Core) : k.adv.mem = k.mem := by rw [Core.adv_eq]
@[simp] theorem Core.adv_v (k : Core) : k.adv.v = k.v := by rw [Core.adv_eq]
@[simp] theorem Core.adv_acc (k : Core) : k.adv.acc = k.acc := by rw [Core.adv_eq]

/-- Writing a group changes the vector registers alone, and those by their old values alone. -/
theorem Core.setGroup_eq (k j : Core) (v n : Nat) (l : List Int) (h : j.v = k.v) :
    j.setGroup v n l = { j with v := (k.setGroup v n l).v } := by
  unfold Core.setGroup
  generalize upTo n = is
  induction is generalizing k j with
  | nil => rw [List.foldl_nil, List.foldl_nil, ← h]
  | cons i is ih =>
    rw [List.foldl_cons, List.foldl_cons, ih (k.setV (v + i) _) (j.setV (v + i) _) (by unfold Core.setV; rw [h])]
    rfl
theorem Core.setGroup_keeps (k : Core) (v n : Nat) (l : List Int) : k.setGroup v n l = { k with v := (k.setGroup v n l).v } :=
  Core.setGroup_eq k k v n l rfl
theorem Core.setGroup_getCr (k : Core) (v n : Nat) (l : List Int) (i : Nat) : (k.setGroup v n l).getCr i = k.getCr i := by
  rw [Core.setGroup_keeps]
  rfl
theorem Core.setGroup_s (k : Core) (v n : Nat) (l : List Int) : (k.setGroup v n l).s = k.s := by
  rw [Core.setGroup_keeps]
theorem Core.getGroup_congr {k j : Core} (h : j.v = k.v) (v n : Nat) : j.getGroup v n = k.getGroup v n := by
  unfold Core.getGroup Core.getV
  rw [h]

/-! ### Vector loads, stores, gathers, scatters (R123, R153-R157) -/

theorem insnVld_done {x : Nat} {k : Core} (hm : mvOk x = true) (hg : grpOk (fG x) (fD x) = true)
    (ha : k.accessFault ((wordsFrom (k.getP (mvPn x)) (32 * gSize (fG x))).map fun a => (a, false)) = none) :
    insnVld x k = .done ((mvUpd x (32 * gSize (fG x)) k).setGroup (fD x) (gSize (fG x))
      ((wordsFrom (k.getP (mvPn x)) (32 * gSize (fG x))).map k.wordS)).adv := by
  rw [insnVld, legalThen_true (by rw [hm, hg]; rfl)]
  exact Core.access_ok ha _
theorem insnVst_done {x : Nat} {k : Core} (hm : mvOk x = true) (hg : grpOk (fG x) (fD x) = true)
    (ha : k.accessFault (((upTo (32 * gSize (fG x))).filter fun e => bitAt (k.getK (bitsAt x 6 3)) e).map
      fun e => ((k.getP (mvPn x) + e) % 2 ^ 18, true)) = none) :
    insnVst x k = .done ((mvUpd x (32 * gSize (fG x)) k).setWords
      (((upTo (32 * gSize (fG x))).filter fun e => bitAt (k.getK (bitsAt x 6 3)) e).map
        fun e => (k.getP (mvPn x) + e, ofSigned 12 (el (k.getGroup (fD x) (gSize (fG x))) e)))).adv := by
  rw [insnVst, legalThen_true (by rw [hm, hg]; rfl)]
  exact Core.access_ok ha _
theorem insnVspl_done {j x : Nat} {k : Core} (hm : mvOk x = true) (hg : grpOk (fG x) (fD x) = true) (hv : fD x + j * gSize (fG x) - 1 ≤ 31)
    (hb : k.getP (mvPn x) % 2 = 0)
    (ha : k.accessFault ((wordsFrom (k.getP (mvPn x)) (j * 32 * gSize (fG x))).map fun a => (a, false)) = none) :
    insnVspl j x k = .done ((upTo j).foldl (fun k' st => k'.setGroup (fD x + st * gSize (fG x)) (gSize (fG x))
      (splitStream k (k.getP (mvPn x)) j st (gSize (fG x)))) (mvUpd x (j * 32 * gSize (fG x)) k)).adv := by
  rw [insnVspl, legalThen_true (by rw [hm, hg, decide_eq_true hv]; rfl)]
  exact (alignedThen_even hb _).trans (Core.access_ok ha _)
theorem gtChecked_ok {x : Nat} {k : Core} {write : Bool} (hg : gtOk x = true) (hf : (gtActive x k).filterMap (gtFault x k write) = []) (r : InsnRes) :
    gtChecked x k write r = r := by
  rw [gtChecked, legalThen_true hg, hf]

/-! ### Element operations (R139, R151) -/

/-- The value a VOP leaves in an element, whether or not the operation has one. -/
theorem vopOut_eq (fn : Nat) (kbit : Bool) (o : Option Int) (old : Int) :
    (match o with
      | some r => if fn == 0x11 || kbit then r else old
      | none => old) = if fn = 0x11 ∨ kbit = true then o.getD old else old := by
  cases o with
  | none => simp
  | some r => simp
theorem insnVop_done {x : Nat} {k : Core} (hfn : bitsAt x 0 6 ≤ 0x11 ∨ bitsAt x 0 6 = 0x15) (hg : gOk (bitsAt x 9 2) = true)
    (hd : grpOk (bitsAt x 9 2) (fD x) = true) (ha : bitsAt x 0 6 = 0x10 ∨ grpOk (bitsAt x 9 2) (fA x) = true)
    (hb : vopNoVB (bitsAt x 0 6) = true ∨ grpOk (bitsAt x 9 2) (fB x) = true) :
    insnVop x k = .done (k.setGroup (fD x) (gSize (bitsAt x 9 2)) ((upTo (32 * gSize (bitsAt x 9 2))).map fun e =>
      if bitsAt x 0 6 = 0x11 ∨ bitAt (k.getK (bitsAt x 6 3)) e = true then
        (vopElem (bitsAt x 0 6) (k.getS (fB x)) (k.getGroup (fA x) (gSize (bitsAt x 9 2))) (bitAt (k.getK (bitsAt x 6 3)) e) e
          (el (k.getGroup (fA x) (gSize (bitsAt x 9 2))) e) (el (k.getGroup (fB x) (gSize (bitsAt x 9 2))) e)).getD
          (el (k.getGroup (fD x) (gSize (bitsAt x 9 2))) e)
      else el (k.getGroup (fD x) (gSize (bitsAt x 9 2))) e)).adv := by
  unfold insnVop
  dsimp only
  rw [if_neg (by omega), if_neg (by omega), legalThen_true (by simpa using hfn), legalThen_true (by simp [hg, hd, ha, hb])]
  exact congrArg (fun l => InsnRes.done (k.setGroup _ _ l).adv) (List.map_congr_left fun e _ => vopOut_eq _ _ _ _)

/-- Bits written one after another in a word, each from its own value. -/
theorem bitAt_foldl_putBits (f : Nat → Bool) (n m e : Nat) :
    bitAt ((upTo n).foldl (fun m e => putBits m e 1 (b2n (f e))) m) e = if e < n then f e else bitAt m e := by
  induction n with
  | zero => rfl
  | succ n ih =>
    rw [upTo, List.range_succ, List.foldl_append, List.foldl_cons, List.foldl_nil, bitAt_eq, testBit_putBits]
    by_cases he : e = n
    · subst he
      rw [if_pos ⟨Nat.le_refl _, Nat.lt_succ_self _⟩, Nat.sub_self, if_pos (Nat.lt_succ_self _)]
      cases f e <;> rfl
    · rw [if_neg (by omega), ← bitAt_eq]
      refine ih.trans ?_
      simp only [show e < n + 1 ↔ e < n by omega]
theorem Core.getK_setK (k : Core) {i : Nat} (v : Nat) (h : i ≠ 0) : (k.setK i v).getK i = v := by
  unfold Core.setK Core.getK
  rw [if_neg h, if_neg h]
  exact Tab.getD_setD_self _ _ _ _
theorem Core.setK_keeps (k : Core) (i v : Nat) : (k.setK i v).v = k.v ∧ (k.setK i v).s = k.s := by
  unfold Core.setK
  split <;> exact ⟨rfl, rfl⟩
/-- A compare: the K register named takes the comparison of every element. -/
theorem insnVcmp_done {gt : Bool} {x : Nat} {k : Core} (hg : gOk (bitsAt x 9 2) = true) (ha : grpOk (bitsAt x 9 2) (fA x) = true)
    (hb : grpOk (bitsAt x 9 2) (fB x) = true) (hd : fD x % 8 ≠ 0) :
    ∃ k' : Core, insnVcmp gt x k = .done k'.adv ∧ k'.v = k.v ∧ k'.s = k.s ∧ ∀ e, e < 32 * gSize (bitsAt x 9 2) →
      bitAt (k'.getK (fD x % 8)) e =
        if gt then decide (el (k.getGroup (fA x) (gSize (bitsAt x 9 2))) e > el (k.getGroup (fB x) (gSize (bitsAt x 9 2))) e)
        else decide (el (k.getGroup (fA x) (gSize (bitsAt x 9 2))) e = el (k.getGroup (fB x) (gSize (bitsAt x 9 2))) e) := by
  refine ⟨_, legalThen_true (by simp [hg, ha, hb, hd]) _, (Core.setK_keeps _ _ _).1, (Core.setK_keeps _ _ _).2, fun e he => ?_⟩
  rw [Core.getK_setK _ _ hd, bitAt_foldl_putBits, if_pos he]
  rfl

/-- The count of a VEXT that saturated some element of `k1`, which `k` was before its group was written (R134). -/
def Core.vextCount (k k1 : Core) (ac : Nat) (sat : Bool) : Core :=
  if sat then { k1 with esat := setBit k.esat ac }.setCr 0x0F ((k.getCr 0x0F + 1) % 2 ^ 32) else k1
/-- The accumulator cleared after a VEXT with CLR (R134). -/
def Core.vextClear (k : Core) (ac : Nat) (clr : Bool) : Core :=
  if clr then { k.setAcc ac accZero with gov := clrBit k.gov ac, esat := clrBit k.esat ac } else k
theorem Core.vextCount_keeps (k k1 : Core) (ac : Nat) (sat : Bool) : (k.vextCount k1 ac sat).v = k1.v ∧ (k.vextCount k1 ac sat).s = k1.s := by
  cases sat <;> exact ⟨rfl, rfl⟩
theorem Core.vextCount_cr (k k1 : Core) (ac : Nat) (sat : Bool) (h : k1.getCr 0x0F = k.getCr 0x0F) :
    (k.vextCount k1 ac sat).getCr 0x0F = if sat then (k.getCr 0x0F + 1) % 2 ^ 32 else k.getCr 0x0F := by
  cases sat
  · exact h
  · exact Core.getCr_setCr _ _ _
theorem Core.vextClear_keeps (k : Core) (ac : Nat) (clr : Bool) :
    (k.vextClear ac clr).v = k.v ∧ (k.vextClear ac clr).s = k.s ∧ (k.vextClear ac clr).getCr 0x0F = k.getCr 0x0F := by
  cases clr <;> exact ⟨rfl, rfl, rfl⟩
theorem Core.vextClear_acc (k : Core) (ac : Nat) : (k.vextClear ac true).getAcc ac = accZero :=
  Core.getAcc_setAcc k ac accZero

/-- VEXT writes its group, counts a saturation, and clears its accumulator where asked. -/
theorem insnVext_done {x : Nat} {k : Core} (hg : gOk (bitsAt x 16 2) = true) (hd : grpOk (bitsAt x 16 2) (fD x) = true) (h0 : bitsAt x 5 2 = 0)
    (hs : bitAt x 8 = true ∨ bitsAt x 10 6 ≤ 39) :
    let n := gSize (bitsAt x 16 2)
    let sh := if bitAt x 8 then min ((k.getS (bitsAt x 0 5)).toNat % 64) 39 else bitsAt x 10 6
    let xs := ((k.getAcc (bitsAt x 18 3)).take (32 * n)).map fun v => vextRound v sh (bitAt x 9)
    insnVext x k = .done ((k.vextCount (k.setGroup (fD x) n (xs.map sat12)) (bitsAt x 18 3) (xs.any fun v => sat12 v != v)).vextClear
      (bitsAt x 18 3) (bitAt x 7)).adv :=
  legalThen_true (by simp [hg, hd, h0, hs]) _

/-- Settles O9. -/
theorem vectorResults : Obligations.VectorResults := by
  unfold Obligations.VectorResults
  intro c w s hr x k n base split
  refine ⟨fun ho hm hg ha => dsp_done hr ho (insnVld_done hm hg ha), fun ho hm hg => ?_,
    fun ho hm hg hv hb ha => dsp_done hr ho (insnVspl_done hm hg hv hb ha), fun ho hm hg hv hb ha => dsp_done hr ho (insnVspl_done hm hg hv hb ha),
    fun ho hm hg hv hb ha => dsp_done hr ho (insnVspl_done hm hg hv hb ha), fun ho hg hf => dsp_done hr ho (gtChecked_ok hg hf _),
    fun ho hg hf => dsp_done hr ho (gtChecked_ok hg hf _), fun ho hg hv h0 => dsp_done hr ho (legalThen_true (by rw [hg, hv, h0]; rfl) _), ?_⟩
  · intro es ha
    exact dsp_done hr ho (insnVst_done hm hg ha)
  intro fn g ge km cmp
  have hcmp {gt : Bool} (ho : opField w = 0x28) (hop : insnVop x k = insnVcmp gt x k) : cmp gt := fun hg ha hb hd => by
    obtain ⟨k', hk, hv, hs, hbits⟩ := insnVcmp_done (gt := gt) (k := k) hg ha hb hd
    exact ⟨_, dsp_done hr ho (hop.trans hk), k', rfl, hv, hs, hbits⟩
  refine ⟨fun ho hfn => hcmp ho ?_, fun ho hfn => hcmp ho ?_, fun ho hfn hg hd ha hb => dsp_done hr ho (insnVop_done hfn hg hd ha hb),
    fun ho hg hd h0 hs => ?_⟩
  · rw [insnVop, if_pos hfn]
  · rw [insnVop, if_neg (by simp only [fn] at hfn; omega), if_pos hfn]
  · refine ⟨_, dsp_done hr ho (insnVext_done hg hd h0 hs), _, rfl, ?_⟩
    intro m sh xs
    obtain ⟨hcv, hcs⟩ := Core.vextCount_keeps k (k.setGroup (fD x) m (xs.map sat12)) (bitsAt x 18 3) (xs.any fun v => sat12 v != v)
    have hccr := Core.vextCount_cr k (k.setGroup (fD x) m (xs.map sat12)) (bitsAt x 18 3) (xs.any fun v => sat12 v != v)
      (Core.setGroup_getCr _ _ _ _ _)
    obtain ⟨hv, hs', hcr⟩ := Core.vextClear_keeps (k.vextCount (k.setGroup (fD x) m (xs.map sat12)) (bitsAt x 18 3)
      (xs.any fun v => sat12 v != v)) (bitsAt x 18 3) (bitAt x 7)
    exact ⟨hv.trans hcv, hs'.trans (hcs.trans (Core.setGroup_s _ _ _ _)), hcr.trans hccr, fun h7 => by rw [h7]; exact Core.vextClear_acc _ _⟩

/-! ### Accumulators (R132, R135, R138) -/

/-- Settles O10. -/
theorem accumulatorResults : Obligations.AccumulatorResults := by
  unfold Obligations.AccumulatorResults
  intro c w s hr ho h0 x k a b
  have hao {fn : Nat} (hf : acField w = fn) : aoOk x fn = true := by
    rw [aoOk, h0, show bitsAt x 0 4 = fn from (ac_eq w).trans hf, beq_self_eq_true, beq_self_eq_true]
    rfl
  refine ⟨fun hf => ac_done hr ho hf (legalThen_true (hao hf) _), fun hf => ac_done hr ho hf (legalThen_true (hao hf) _),
    fun hf hgov => macAc_done hr ho hf ?_, fun hf => ac_done hr ho hf (legalThen_true (hao hf) _)⟩
  have hnew : (bitAt k.gov b && !bitAt k.gov a) = false := by
    rcases hgov with h | h <;> simp [h]
  rw [insnAcmov, if_pos (hao hf)]
  dsimp only
  rw [hnew]
  rfl

/-! ### Multiply-accumulates and their trap (R131-R133, R140) -/

/-- An instruction of the accumulators ends by its commit, or by the GOV_TRAP trap that directly follows it. -/
theorem mac_end {s : State} {c : Fin 108} {w : Word} {op : Nat} {f : Nat → Core → MacRes} {k' : Core} {trap : Bool} (h : s.coreReady c = true)
    (ho : opField w = op) (hk : f w.toNat (s.dev.core c) = .done k' trap) :
    s.dspMac op c w f = if trap then .next (s.onDev fun d => (d.setCore c k').coreFault c k'.pc 0x08 0 0xFF) else .next (s.commit c k') := by
  cases trap with
  | false => exact mac_done h ho hk
  | true =>
    unfold State.dspMac
    rw [row_do h ho]
    simp only [State.onDev, hk]
    rfl
theorem macAc_end {s : State} {c : Fin 108} {w : Word} {fn : Nat} {f : Nat → Core → MacRes} {k' : Core} {trap : Bool} (h : s.coreReady c = true)
    (ho : opField w = 0x2D) (ha : acField w = fn) (hk : f w.toNat (s.dev.core c) = .done k' trap) :
    s.dspMacAc fn c w f = if trap then .next (s.onDev fun d => (d.setCore c k').coreFault c k'.pc 0x08 0 0xFF) else .next (s.commit c k') := by
  cases trap with
  | false => exact macAc_done h ho ha hk
  | true =>
    unfold State.dspMacAc
    rw [ac_row h ho ha]
    simp only [State.onDev, hk]
    rfl

/-- A trap is taken exactly when the flag of accumulator `ac` rises from `gov0` to `gov'` under GOV_TRAP outside the handler. -/
theorem govTrap_cases {r a b : Res} {k : Core} {new : Bool} {gov0 gov' ac : Nat} (hr : r = if govTrap k new then a else b)
    (hnew : new = (!bitAt gov0 ac && bitAt gov' ac)) :
    (bitAt gov0 ac = false ∧ bitAt gov' ac = true ∧ bitAt (k.getCr 0x06) 0 = true ∧ k.inHandler = false → r = a) ∧
    (¬(bitAt gov0 ac = false ∧ bitAt gov' ac = true ∧ bitAt (k.getCr 0x06) 0 = true ∧ k.inHandler = false) → r = b) := by
  have htrap : govTrap k new = true ↔
      bitAt gov0 ac = false ∧ bitAt gov' ac = true ∧ bitAt (k.getCr 0x06) 0 = true ∧ k.inHandler = false := by
    simp only [govTrap, hnew, Bool.and_eq_true, Bool.not_eq_true', and_assoc]
  exact ⟨fun h => hr.trans (if_pos (htrap.2 h)), fun h => hr.trans (if_neg fun h' => h (htrap.1 h'))⟩

theorem bitAt_setBit_self (g a : Nat) : bitAt (setBit g a) a = true := by
  rw [setBit_eq_putBits, bitAt_eq, testBit_putBits, if_pos ⟨Nat.le_refl _, Nat.lt_succ_self _⟩, Nat.sub_self]
  rfl
/-- Storing an accumulation says whether it took the flag from 0 to 1. -/
theorem Core.accDone_new (k : Core) (a : Nat) (l : List Int) (ovf : Bool) :
    (k.accDone a l ovf).2 = (!bitAt k.gov a && bitAt (k.accDone a l ovf).1.gov a) := by
  unfold Core.accDone
  dsimp only
  split
  · next h =>
    rw [Bool.and_eq_true] at h
    refine Eq.trans ?_ (congrArg (_ && ·) (bitAt_setBit_self k.gov a).symm)
    rw [h.2]
    rfl
  · exact (Bool.not_and_self _).symm
/-- Storing an accumulation changes the accumulators, their flags and GOVCNT alone. -/
theorem Core.accDone_keeps (k : Core) (a : Nat) (l : List Int) (ovf : Bool) :
    (k.accDone a l ovf).1.s = k.s ∧ (k.accDone a l ovf).1.mem = k.mem ∧ (k.accDone a l ovf).1.pc = k.pc ∧ (k.accDone a l ovf).1.loops = k.loops ∧
    (k.accDone a l ovf).1.v = k.v ∧ (k.accDone a l ovf).1.getCr 0x03 = k.getCr 0x03 := by
  unfold Core.accDone
  dsimp only
  split
  · exact ⟨rfl, rfl, rfl, rfl, rfl, Core.setCr_other _ _ (by decide)⟩
  · exact ⟨rfl, rfl, rfl, rfl, rfl, rfl⟩

theorem macRun_new (x : Nat) (k : Core) (b c : List Int) :
    (macRun x k b c).2 = (!bitAt (if bitAt x 5 then clrBit k.gov (bitsAt x 23 3) else k.gov) (bitsAt x 23 3) &&
      bitAt (macRun x k b c).1.adv.gov (bitsAt x 23 3)) := by
  unfold macRun
  dsimp only
  rw [Core.accDone_new, Core.adv_gov]
  split <;> rfl
theorem insnVmac_done {x : Nat} {k : Core} {third : List Int} (hx : vxOk x = true) (hg : grpOk (bitsAt x 11 2) (bitsAt x 13 5) = true)
    (hq : bitsAt x 6 2 = 2 → bitsAt x 13 5 + 2 * gSize (bitsAt x 11 2) - 1 ≤ 31)
    (h3 : bitsAt x 6 2 = 2 → third = k.getGroup (bitsAt x 13 5 + gSize (bitsAt x 11 2)) (gSize (bitsAt x 11 2)))
    (h4 : ¬bitsAt x 6 2 = 2 → third = []) :
    insnVmac x k = .done (macRun x k (k.getGroup (bitsAt x 13 5) (gSize (bitsAt x 11 2))) third).1.adv
      (govTrap k (macRun x k (k.getGroup (bitsAt x 13 5) (gSize (bitsAt x 11 2))) third).2) := by
  have hthird : third = if bitsAt x 6 2 == 2 then k.getGroup (bitsAt x 13 5 + gSize (bitsAt x 11 2)) (gSize (bitsAt x 11 2)) else [] := by
    by_cases h : bitsAt x 6 2 = 2
    · rw [h3 h, if_pos (beq_iff_eq.2 h)]
    · rw [h4 h, if_neg (mt beq_iff_eq.1 h)]
  rw [hthird]
  refine if_pos ?_
  rw [hx, hg]
  by_cases h : bitsAt x 6 2 = 2
  · simp [hq h]
  · simp [h]
theorem insnVmacs_done {x : Nat} {k : Core} (hx : vxOk x = true) (hq : ¬bitsAt x 6 2 = 2) :
    let sb := (k.getS (bitsAt x 13 5)).toNat
    let r := macRun x k ((upTo (16 * gSize (bitsAt x 11 2))).flatMap fun _ => [toSigned 12 (bitsAt sb 0 12), toSigned 12 (bitsAt sb 12 12)]) []
    insnVmacs x k = .done r.1.adv (govTrap k r.2) :=
  if_pos (by simp [hx, hq])

/-- The accumulation of an FTAP. -/
def ftapRun (x : Nat) (k : Core) : Core × Bool :=
  let n := gSize (bitsAt x 16 2)
  let r := accAddAll (bitAt k.satMode (bitsAt x 23 3)) (k.getAcc (bitsAt x 23 3)) (macTerms 0 n false (2 ^ 128 - 1) (k.getGroup (bitsAt x 18 5) n)
    ((upTo (16 * n)).flatMap fun _ => [k.wordS (k.getP (bitsAt x 12 4)), k.wordS (k.getP (bitsAt x 12 4) + 1)]) [])
  k.accDone (bitsAt x 23 3) r.1 r.2
/-- The delay line of an FTAP, its sample shifted in. -/
def ftapLine (x : Nat) (k : Core) : List Int :=
  (k.wordS (k.getP (bitsAt x 4 4)) :: k.wordS (k.getP (bitsAt x 4 4) + 1) :: k.getGroup (bitsAt x 18 5) (gSize (bitsAt x 16 2))).take
    (32 * gSize (bitsAt x 16 2))
/-- The pointers of an FTAP moved (R140). -/
def ftapMove (x : Nat) (k k1 : Core) : Core :=
  let pcI := bitsAt x 12 4
  let pxI := bitsAt x 4 4
  let k2 := k1.setP pcI ((k.getP pcI : Int) + k.getM (bitsAt x 8 4))
  k2.setP pxI ((if pcI = pxI then (k2.getP pxI : Int) else (k.getP pxI : Int)) + k.getM (bitsAt x 0 4))
theorem ftapMove_keeps (x : Nat) (k k1 : Core) : ftapMove x k k1 = { k1 with p := (ftapMove x k k1).p } := rfl
/-- The core an FTAP leaves, before it moves on. -/
def ftapCore (x : Nat) (k : Core) : Core :=
  ftapMove x k ((ftapRun x k).1.setGroup (bitsAt x 18 5) (gSize (bitsAt x 16 2)) (ftapLine x k))
theorem ftapCore_keeps (x : Nat) (k : Core) : (ftapCore x k).s = k.s ∧ (ftapCore x k).mem = k.mem ∧ (ftapCore x k).pc = k.pc ∧
    (ftapCore x k).loops = k.loops ∧ (ftapCore x k).inHandler = k.inHandler ∧ (ftapCore x k).gov = (ftapRun x k).1.gov ∧
    (ftapCore x k).v = (k.setGroup (bitsAt x 18 5) (gSize (bitsAt x 16 2)) (ftapLine x k)).v := by
  obtain ⟨hs, hmem, hpc, hloops, hv, hcr⟩ : (ftapRun x k).1.s = k.s ∧ (ftapRun x k).1.mem = k.mem ∧ (ftapRun x k).1.pc = k.pc ∧
    (ftapRun x k).1.loops = k.loops ∧ (ftapRun x k).1.v = k.v ∧ (ftapRun x k).1.getCr 0x03 = k.getCr 0x03 := Core.accDone_keeps _ _ _ _
  unfold ftapCore
  rw [ftapMove_keeps, Core.setGroup_eq k _ _ _ _ hv]
  exact ⟨hs, hmem, hpc, hloops, Core.inHandler_congr hcr, rfl, rfl⟩
theorem insnFtap_done {x : Nat} {k : Core} (hg : gOk (bitsAt x 16 2) = true) (hv : grpOk (bitsAt x 16 2) (bitsAt x 18 5) = true)
    (hc : k.getP (bitsAt x 12 4) % 2 = 0) (hp : k.getP (bitsAt x 4 4) % 2 = 0)
    (ha : k.accessFault [(k.getP (bitsAt x 12 4), false), (k.getP (bitsAt x 12 4) + 1, false), (k.getP (bitsAt x 4 4), false),
        (k.getP (bitsAt x 4 4) + 1, false)] = none) :
    insnFtap x k = .done (ftapCore x k).adv (govTrap k (ftapRun x k).2) := by
  unfold insnFtap
  dsimp only
  rw [if_neg (by rw [hg, hv]; decide), if_neg (by omega), if_neg (by omega), ha]
  rfl

/-- The flag an ACMOV takes from 0 to 1. -/
def acmovNew (x : Nat) (k : Core) : Bool := bitAt k.gov (bitsAt x 20 3) && !bitAt k.gov (bitsAt x 23 3)
/-- The core an ACMOV leaves, before it moves on. -/
def acmovCore (x : Nat) (k : Core) : Core :=
  let d := bitsAt x 23 3
  let a := bitsAt x 20 3
  let k1 := { k.setAcc d (k.getAcc a) with gov := putBits k.gov d 1 (b2n (bitAt k.gov a)), esat := putBits k.esat d 1 (b2n (bitAt k.esat a)) }
  if acmovNew x k then k1.setCr 0x0E ((k.getCr 0x0E + 1) % 2 ^ 32) else k1
theorem insnAcmov_done {x : Nat} {k : Core} (h : aoOk x 2 = true) : insnAcmov x k = .done (acmovCore x k).adv (govTrap k (acmovNew x k)) := if_pos h
theorem bitAt_putBits_self (v n : Nat) (b : Bool) : bitAt (putBits v n 1 (b2n b)) n = b := by
  rw [bitAt_eq, testBit_putBits, if_pos ⟨Nat.le_refl _, Nat.lt_succ_self _⟩, Nat.sub_self]
  cases b <;> rfl
theorem acmovCore_keeps (x : Nat) (k : Core) : (acmovCore x k).s = k.s ∧ (acmovCore x k).pc = k.pc ∧ (acmovCore x k).loops = k.loops ∧
    (acmovCore x k).inHandler = k.inHandler ∧ (acmovCore x k).getAcc (bitsAt x 23 3) = k.getAcc (bitsAt x 20 3) ∧
    bitAt (acmovCore x k).gov (bitsAt x 23 3) = bitAt k.gov (bitsAt x 20 3) := by
  unfold acmovCore
  dsimp only
  split
  · exact ⟨rfl, rfl, rfl, Core.inHandler_congr (Core.setCr_other _ _ (by decide)), Core.getAcc_setAcc k _ _, bitAt_putBits_self _ _ _⟩
  · exact ⟨rfl, rfl, rfl, rfl, Core.getAcc_setAcc k _ _, bitAt_putBits_self _ _ _⟩

/-- Settles O11. -/
theorem multiplyAccumulateTraps : Obligations.MultiplyAccumulateTraps := by
  unfold Obligations.MultiplyAccumulateTraps
  intro c w s hr x k ac n vb quad armed does cleared
  refine ⟨fun ho hx hg hq third h3 h4 => ?_, fun ho hx hq => ?_, fun ho hg hv hc hp ha => ?_, fun ho h0 hf => ?_⟩
  · exact govTrap_cases (mac_end hr ho (insnVmac_done hx hg hq h3 h4)) (macRun_new _ _ _ _)
  · exact govTrap_cases (mac_end hr ho (insnVmacs_done hx hq)) (macRun_new _ _ _ _)
  · obtain ⟨hs, hmem, hpc, hloops, hh, hgov, hvr⟩ := ftapCore_keeps x k
    have hnew : (ftapRun x k).2 = (!bitAt k.gov ac && bitAt (ftapCore x k).adv.gov ac) := by
      rw [Core.adv_gov, hgov]
      exact Core.accDone_new _ _ _ _
    exact ⟨_, govTrap_cases (mac_end hr ho (insnFtap_done hg hv hc hp ha)) hnew, (Core.adv_s _).trans hs, (Core.adv_mem _).trans hmem,
      Core.adv_pc_congr hpc hloops hh, Core.getGroup_congr ((Core.adv_v _).trans hvr) _ _⟩
  · obtain ⟨hs, hpc, hloops, hh, hacc, hgov⟩ := acmovCore_keeps x k
    have hnew : acmovNew x k = (!bitAt k.gov ac && bitAt (acmovCore x k).adv.gov ac) := by
      rw [Core.adv_gov, hgov]
      exact Bool.and_comm _ _
    have hao : aoOk x 2 = true := by
      rw [aoOk, h0, show bitsAt x 0 4 = 2 from (ac_eq w).trans hf]
      rfl
    refine ⟨_, govTrap_cases (macAc_end hr ho hf (insnAcmov_done hao)) hnew, (Core.adv_s _).trans hs, Core.adv_pc_congr hpc hloops hh, ?_, ?_⟩
    · unfold Core.getAcc at hacc ⊢
      rw [Core.adv_acc]
      exact hacc
    · rw [Core.adv_gov]
      exact hgov

end Sys2Proof.Machine

/-! SUPPORT. Far accesses, transfers, dispatcher calls, waiting, control registers, faults of a DSP core (R104, R128, R141-R147, R160-R167), and the
step of the machine from its reset state. -/

namespace Sys2Proof.Machine

/-! ### The step, and the reset state -/

/-- Settles O1. -/
theorem stepRunsFront : Obligations.StepRunsFront := by
  unfold Obligations.StepRunsFront
  refine ⟨fun c s => rfl, fun s h => ?_⟩
  unfold step
  rw [h]

/-- Settles O5: the reset state is a closed term, evaluated. -/
theorem resetState : Obligations.ResetState := by
  unfold Obligations.ResetState
  refine ⟨rfl, by decide, by decide, rfl, by decide, by decide⟩

/-! ### Control registers (R147), BKPT and RFE (R144, R145) -/

theorem Dev.mfc_other {d : Dev} {c : Fin 108} {w : Nat} (h0 : bitsAt w 0 8 = 0) (hn : bitsAt w 8 8 ≠ 0x0B) :
    d.mfc c w = d.dspFinish c (.done ((d.core c).setSN (fD w) ((d.core c).readCr c (bitsAt w 8 8))).adv) := by
  unfold Dev.mfc
  dsimp only
  rw [h0, if_neg (by decide), if_neg hn]
theorem Dev.mfc_cycles {d : Dev} {c : Fin 108} {w : Nat} (h0 : bitsAt w 0 8 = 0) (hn : bitsAt w 8 8 = 0x0B) :
    let k := d.core c
    let cy := (k.cycles + Config.coreCycles d.free) % 2 ^ 64
    d.mfc c w = { d with free := d.free + 1 }.dspFinish c (.done ({ k with cycles := cy, cyclesHi := cy / 2 ^ 32 }.setSN (fD w) (cy % 2 ^ 32)).adv) := by
  unfold Dev.mfc
  dsimp only
  rw [h0, if_neg (by decide), if_pos hn]

/-- Settles O16. -/
theorem controlRegisterResults : Obligations.ControlRegisterResults := by
  unfold Obligations.ControlRegisterResults
  intro c w s hr x k n cy
  refine ⟨fun ho h0 hn => ?_, fun ho h0 hn => ?_, fun ho h0 => dsp_done hr ho (legalThen_true (beq_iff_eq.2 h0) _),
    fun ho h0 => dsp_done hr ho (legalThen_true (beq_iff_eq.2 h0) _)⟩
  · refine (row_do hr ho).trans ?_
    rw [State.onDev, Dev.mfc_other h0 hn]
    rfl
  · refine (row_do hr ho).trans ?_
    rw [State.onDev, Dev.mfc_cycles h0 hn]
    rfl

theorem Dev.rfe_inHandler {d : Dev} {c : Fin 108} {w : Nat} (h0 : bitsAt w 1 25 = 0) (hh : (d.core c).inHandler = true) :
    d.rfe c w = (d.dspFinish c (.done { (d.core c).setInHandler false with pc := ((d.core c).getCr 0x02 + w % 2) % 2 ^ 21 })).setFlag
      (POD_CORE_c_STS_IN_HANDLER (c / 9) (c % 9)) false := by
  unfold Dev.rfe
  dsimp only
  rw [h0, hh, if_neg (by decide)]

/-- Settles O15. -/
theorem breakpointAndReturn : Obligations.BreakpointAndReturn := by
  unfold Obligations.BreakpointAndReturn
  intro c w s hr k
  refine ⟨fun ho h0 => (dsp_row hr ho).trans ?_, fun ho h0 hh => (row_do hr ho).trans ?_⟩
  · rw [insnBkpt, legalThen_true (show syOk w.toNat = true from beq_iff_eq.2 h0)]
    rfl
  · rw [State.onDev, Dev.rfe_inHandler h0 hh]
    rfl

/-! ### Dispatcher calls (R104, R141) -/

theorem coreState_setCoreState (d : Dev) (c : Nat) {v : Nat} (h : v < 8) : (d.setCoreState c v).coreState c = v :=
  (Dev.rf_wf_same d (coreStateF c) v (by dsimp only [coreStateF]; omega)).trans (Nat.mod_eq_of_lt h)
theorem coreState_congr {d e : Dev} (h : e.regs = d.regs) (c : Nat) : e.coreState c = d.coreState c := Dev.rf_congr h _

theorem Dev.waitjob_noJob {d : Dev} {c : Fin 108} {w : Nat} (h0 : syOk w = true) (hj : (d.core c).job = none) :
    d.waitjob c w = { d.stamp.1 with wds.waiting := Tab.put d.stamp.1.wds.waiting c d.stamp.2 }.setCoreState c 2 := by
  unfold Dev.waitjob
  rw [h0, hj]
  rfl
theorem Dev.jobchk_noJob {d : Dev} {c : Fin 108} {w : Nat} (h0 : syOk w = true) (hj : (d.core c).job = none) :
    d.jobchk c w = d.dspFinish c (.done ((d.core c).setSN 0 (2 ^ 15)).adv) := by
  unfold Dev.jobchk
  dsimp only
  rw [if_pos h0, hj]
theorem Dev.jobchk_job {d : Dev} {c : Fin 108} {w sl : Nat} {j : Job} (h0 : syOk w = true) (hsl : (d.core c).job = some sl)
    (hj : d.job sl = some j) : d.jobchk c w = d.dspFinish c (.done ((d.core c).setSN 0 (b2n (j.state == .stop))).adv) := by
  unfold Dev.jobchk
  dsimp only
  rw [if_pos h0, hsl]
  dsimp only
  rw [hj]
theorem Dev.jobdone_own {d : Dev} {c : Fin 108} {w sl : Nat} {j : Job} (h0 : syOk w = true) (hsl : (d.core c).job = some sl)
    (hj : d.job sl = some j) (hs : ((d.core c).getS 0).toNat = sl + 2 ^ 14 * j.desc.tl) :
    d.jobdone c w = (d.jobEnd c sl j).1.dspFinish c (.done (((d.jobEnd c sl j).1.core c).setSN 0 (b2n (d.jobEnd c sl j).2)).adv) := by
  unfold Dev.jobdone
  dsimp only
  rw [h0, hsl]
  dsimp only
  rw [hj]
  exact if_pos hs

/-- Settles O17. -/
theorem dispatcherCallResults : Obligations.DispatcherCallResults := by
  unfold Obligations.DispatcherCallResults
  intro c w s hr hw k
  have h0 : syOk w.toNat = true := beq_iff_eq.2 hw
  refine ⟨fun ho hj => ⟨_, row_do hr ho, ?_⟩, fun ho hj => (row_do hr ho).trans ?_, fun ho sl j hsl hj => (row_do hr ho).trans ?_,
    fun ho sl j hsl hj hs => (row_do hr ho).trans ?_⟩
  · dsimp only
    rw [State.onDev_dev, Dev.waitjob_noJob h0 hj]
    refine ⟨coreState_setCoreState _ _ (by decide), ?_, ?_⟩
    · rw [Dev.setCoreState, Dev.wf_wds]
      exact (Tab.find_put _ _ _ _).trans (if_pos rfl)
    · rw [Dev.setCoreState, Dev.wf_wds]
      rfl
  · rw [State.onDev, Dev.jobchk_noJob h0 hj]
    rfl
  · rw [State.onDev, Dev.jobchk_job h0 hsl hj]
    rfl
  · rw [State.onDev, Dev.jobdone_own h0 hsl hj hs]
    rfl

/-! ### WAIT and wakes (R142, R143) -/

theorem Dev.waitInsn_noWake {d : Dev} {c : Fin 108} {w : Nat} (h0 : syOk w = true) (hwake : (d.core c).getCr 0x09 = 0) :
    d.waitInsn c w = d.dspFinish c (.done ((d.core c).waitEnd 2 0).adv) := by
  unfold Dev.waitInsn
  dsimp only
  rw [h0, if_neg (by decide), if_pos hwake]
theorem Dev.waitInsn_waits {d : Dev} {c : Fin 108} {w : Nat} (h0 : syOk w = true) (hwake : (d.core c).getCr 0x09 ≠ 0)
    (hsrc : (d.core c).wakeSource = none) : d.waitInsn c w = (d.setCoreState c 3).retainVote c := by
  unfold Dev.waitInsn
  dsimp only
  rw [h0, if_neg (by decide), if_neg hwake, hsrc]
theorem Dev.coreWake_awake {d : Dev} {c : Nat} (h : d.coreState c ≠ 3) : d.coreWake c = d := by
  unfold Dev.coreWake
  exact if_pos (bne_iff_ne.2 h)
theorem Dev.coreWake_run {d : Dev} {c src : Nat} (hst : d.coreState c = 3) (hsrc : (d.core c).wakeSource = some src)
    (hrun : d.domRun (coreDom c) = true) :
    d.coreWake c = (((d.setCoreState c 1).dspFinish c (.done ((d.core c).waitEnd 1 src).adv)).showVote (coreDom c)).voteWithdraw (coreDom c) := by
  unfold Dev.coreWake
  rw [hst, if_neg (by decide), hsrc]
  dsimp only
  rw [if_pos hrun]

/-- Settles O18. -/
theorem waitAndWake : Obligations.WaitAndWake := by
  unfold Obligations.WaitAndWake
  intro c w s k
  refine ⟨fun hr ho h0 hwake => (row_do hr ho).trans ?_, fun hr ho h0 hwake hsrc => (row_do hr ho).trans ?_, fun src hst hsrc hrun => ?_,
    fun hlevel hst => ?_⟩
  · rw [State.onDev, Dev.waitInsn_noWake (beq_iff_eq.2 h0) hwake]
    rfl
  · rw [State.onDev, Dev.waitInsn_waits (beq_iff_eq.2 h0) hwake hsrc]
    rfl
  · exact congrArg (fun d => Host.Outcome.next (s.on d)) (Dev.coreWake_run hst hsrc hrun)
  · have hlatch : s.dev.debugRequest c = s.dev.setLatch c 4 := if_pos hlevel
    refine congrArg (fun d => Host.Outcome.next (s.on d)) ((congrArg (Dev.coreWake · c) hlatch).trans (Dev.coreWake_awake ?_))
    rw [Dev.setLatch, coreState_congr (Dev.updCore_regs _ _ _)]
    exact hst

end Sys2Proof.Machine

/-! SUPPORT. What a fault records (R145), what far accesses and transfers do (R128, R160-R167), and what a row that acts on its core alone leaves
unchanged. -/

namespace Sys2Proof.Machine

/-! ### The fault record (R145) -/

/-- The core's part of a fault record. -/
def Core.faulted (k : Core) (fpc cause : Nat) (addr : Int) (elem : Nat) : Core :=
  (((k.setCr 0x02 (fpc % 2 ^ 21)).setCr 0x03 (cause + 2 ^ 8 * elem + 2 ^ 16 * b2n k.inHandler)).setCr 0x04 (ofSigned 32 addr)).setCr 0x05
    (ofSigned 40 addr / 2 ^ 32)
/-- A faulted core enters its handler. -/
def Core.handling (k : Core) : Core := { k.setInHandler true with pc := k.getCr 0x01 % 2 ^ 21 }

theorem Core.faulted_cr (k : Core) (fpc cause : Nat) (addr : Int) (elem : Nat) :
    let t := k.faulted fpc cause addr elem
    t.getCr 0x01 = k.getCr 0x01 ∧ t.getCr 0x02 = fpc % 2 ^ 21 ∧ t.getCr 0x03 = cause + 2 ^ 8 * elem + 2 ^ 16 * b2n k.inHandler ∧
    t.getCr 0x04 = ofSigned 32 addr := by
  unfold Core.faulted
  dsimp only
  refine ⟨?_, ?_, ?_, ?_⟩
  · rw [Core.setCr_other, Core.setCr_other, Core.setCr_other, Core.setCr_other] <;> decide
  · rw [Core.setCr_other _ _ (by decide), Core.setCr_other _ _ (by decide), Core.setCr_other _ _ (by decide), Core.getCr_setCr]
  · rw [Core.setCr_other _ _ (by decide), Core.setCr_other _ _ (by decide), Core.getCr_setCr]
  · rw [Core.setCr_other _ _ (by decide), Core.getCr_setCr]
theorem Core.handling_cr (k : Core) : k.handling.inHandler = true ∧ k.handling.getCr 0x03 = putBits (k.getCr 0x03) 16 1 1 ∧
    (∀ n, n ≠ 0x03 → k.handling.getCr n = k.getCr n) := by
  have h3 : k.handling.getCr 0x03 = putBits (k.getCr 0x03) 16 1 1 := Core.getCr_setCr k 0x03 _
  refine ⟨?_, h3, fun n hn => Core.setCr_other k _ hn⟩
  unfold Core.inHandler
  rw [h3]
  exact bitAt_putBits_self (k.getCr 0x03) 16 true

theorem Core.faulted_pc (k : Core) (fpc cause : Nat) (addr : Int) (elem : Nat) : (k.faulted fpc cause addr elem).pc = k.pc := rfl
theorem Core.faulted_tent (k : Core) (fpc cause : Nat) (addr : Int) (elem : Nat) : (k.faulted fpc cause addr elem).tent = k.tent := rfl

theorem Dev.core_faultRecord (d : Dev) (c fpc cause : Nat) (addr : Int) (elem : Nat) :
    (d.faultRecord c fpc cause addr elem).core c = (d.core c).faulted fpc cause addr elem := by
  unfold Dev.faultRecord
  extract_lets p i lo hi d1
  have h1 : d1.core c = (d.core c).faulted fpc cause addr elem := (core_updCore _ _ _ _).trans (if_pos rfl)
  clear_value d1
  rw [core_congr (Dev.bump_cores _ _), core_congr (Dev.wf_cores _ _ _), core_congr (Dev.wf_cores _ _ _), core_congr (Dev.wf_cores _ _ _),
    core_congr (Dev.wf_cores _ _ _), h1]
/-- The STATE a core shows is no part of a fault record or of squashing. -/
theorem Dev.coreState_faultRecord (d : Dev) (c fpc cause : Nat) (addr : Int) (elem : Nat) :
    (d.faultRecord c fpc cause addr elem).coreState c = d.coreState c := by
  unfold Dev.coreState Dev.faultRecord
  extract_lets p i lo hi d1
  have h1 : d1.rf (coreStateF c) = d.rf (coreStateF c) := Dev.rf_congr (Dev.updCore_regs _ _ _) _
  clear_value d1
  rw [Dev.rf_bump_other, Dev.rf_wf_other, Dev.rf_wf_other, Dev.rf_wf_other, Dev.rf_wf_other, h1]
  all_goals
    dsimp only [coreStateF, rPOD_CORE_c_STS, rPOD_CORE_c_FLT, rPOD_CORE_c_FLT_PC, rPOD_CORE_c_FLT_ADDR, rPOD_CORE_c_FAULTS, p, i]
    omega
theorem Dev.fresh_regs (d : Dev) (n : Nat) : (d.fresh n).1.regs = d.regs := rfl
theorem Dev.coreState_squash (d : Dev) {c : Nat} (hc : c < 108) : (d.squash c).coreState c = d.coreState c := by
  unfold Dev.coreState Dev.squash
  extract_lets f
  rw [Dev.rf_bumpBy_other, Dev.rf_cpxCancelAll, Dev.rf_congr (Dev.fresh_regs d 12)]
  all_goals
    dsimp only [coreStateF, rPOD_CORE_c_STS, rPOD_CORE_c_SQUASHED]
    omega

theorem Dev.coreFault_halts {d : Dev} {c : Nat} (fpc cause : Nat) (addr : Int) (elem : Nat)
    (h : (d.core c).inHandler = true ∨ (d.core c).getCr 0x01 = 0) : d.coreFault c fpc cause addr elem =
      ((((d.squash c).faultRecord c fpc cause addr elem).setCoreState c 4).health (0x10 + c / 9) 2 (c + 2 ^ 8 * cause)).recSource 3 := by
  refine if_pos ?_
  rcases h with h | h <;> simp [h]
theorem Dev.coreFault_handled {d : Dev} {c : Nat} (fpc cause : Nat) (addr : Int) (elem : Nat)
    (hh : (d.core c).inHandler = false) (hv : (d.core c).getCr 0x01 ≠ 0) : d.coreFault c fpc cause addr elem =
      (((d.squash c).faultRecord c fpc cause addr elem).updCore c Core.handling).setFlag (POD_CORE_c_STS_IN_HANDLER (c / 9) (c % 9)) true := by
  refine if_neg ?_
  simp [hh, hv]

theorem fcause_fields {cause elem : Nat} (b : Bool) (hcause : cause < 2 ^ 8) (helem : elem < 2 ^ 8) :
    bitsAt (cause + 2 ^ 8 * elem + 2 ^ 16 * b2n b) 0 8 = cause ∧ bitsAt (cause + 2 ^ 8 * elem + 2 ^ 16 * b2n b) 8 8 = elem := by
  unfold bitsAt
  cases b <;> (dsimp only [b2n]; omega)

/-- Settles O14. -/
theorem coreFaultRecord : Obligations.CoreFaultRecord := by
  unfold Obligations.CoreFaultRecord
  intro d c fpc cause addr elem hfpc hcause helem k t
  obtain ⟨-, -, hsq⟩ := squash_keeps d c
  have hrec : ((d.squash c).faultRecord c fpc cause addr elem).core c = ({ k with tent := [] } : Core).faulted fpc cause addr elem := by
    rw [Dev.core_faultRecord, hsq, if_pos rfl]
  obtain ⟨h1, h2, h3, h4⟩ := Core.faulted_cr { k with tent := [] } fpc cause addr elem
  obtain ⟨hlo, hhi⟩ := fcause_fields ({ k with tent := [] } : Core).inHandler hcause helem
  rw [← h3] at hlo hhi
  rw [Nat.mod_eq_of_lt hfpc] at h2
  by_cases hhalt : k.inHandler = true ∨ k.getCr 0x01 = 0
  · have ht : t = _ := Dev.coreFault_halts fpc cause addr elem hhalt
    have hcore : t.core c = ({ k with tent := [] } : Core).faulted fpc cause addr elem := by
      obtain ⟨-, hk⟩ := halt_keeps ((d.squash c).faultRecord c fpc cause addr elem) c 4 (0x10 + c / 9) 2 (c + 2 ^ 8 * cause) 3
      rw [ht, hk, hrec]
    rw [hcore]
    refine ⟨h2, hlo, hhi, h4, Core.faulted_tent _ _ _ _ _, fun hh hv => ?_, fun _ => ⟨Core.faulted_pc _ _ _ _ _, ?_⟩⟩
    rcases hhalt with h | h
    · rw [hh] at h
      exact Bool.noConfusion h
    · exact absurd h hv
    · exact ht
  · obtain ⟨hh, hv⟩ : k.inHandler = false ∧ k.getCr 0x01 ≠ 0 := by
      rw [not_or] at hhalt
      exact ⟨Bool.eq_false_iff.2 hhalt.1, hhalt.2⟩
    have ht : t = _ := Dev.coreFault_handled fpc cause addr elem hh hv
    have hcore : t.core c = (({ k with tent := [] } : Core).faulted fpc cause addr elem).handling := by
      rw [ht, core_congr (Dev.setFlag_cores _ _ _), core_updCore, if_pos rfl, hrec]
    have hstate : t.coreState c = d.coreState c := by
      rw [ht, ← Dev.coreState_squash d c.isLt, ← Dev.coreState_faultRecord (d.squash c) c fpc cause addr elem]
      exact (Dev.rf_wf_field _ (POD_CORE_c_STS_IN_HANDLER (c / 9) (c % 9)) (coreStateF c) _ (by dsimp only; omega)
        (by dsimp only [coreStateF]; omega)).trans (Dev.rf_congr (Dev.updCore_regs _ _ _) _)
    obtain ⟨hin, hcr3, hcr⟩ := Core.handling_cr (({ k with tent := [] } : Core).faulted fpc cause addr elem)
    rw [hcore, hcr3, hcr 0x02 (by decide), hcr 0x04 (by decide), bitsAt_putBits_other _ _ _ _ _ _ (by decide),
      bitsAt_putBits_other _ _ _ _ _ _ (by decide)]
    exact ⟨h2, hlo, hhi, h4, rfl, fun _ _ => ⟨congrArg (· % 2 ^ 21) h1, hin, hstate⟩, fun h => absurd h hhalt⟩

/-! ### Far accesses (R128) -/

/-- What LDF does at its address, a register. -/
theorem Dev.ldf_reg {d : Dev} {c : Fin 108} {w a off : Nat} (ha : farAddr w (d.core c) = a) (h0 : fImm w = 0) (h1 : a % 4 = 0)
    (h2 : farPermitted (c / 9) a = true) (hp : placeOf a = .reg off) (hon : d.regOn off = true) :
    d.ldf c w = (d.busRd (.pod ⟨c / 9, podLt c⟩) off).1.dspFinish c
      (.done ((d.core c).setSN (fD w) (d.busRd (.pod ⟨c / 9, podLt c⟩) off).2).adv) := by
  unfold Dev.ldf
  rw [far_ok d c w _ a ha h0 h1 h2, hp]
  dsimp only
  rw [if_pos hon]
  rfl
theorem Dev.ldf_mem {d : Dev} {c : Fin 108} {w a : Nat} {bs : List Byte} (ha : farAddr w (d.core c) = a) (h0 : fImm w = 0) (h1 : a % 4 = 0)
    (h2 : farPermitted (c / 9) a = true) (hp : ∀ off, placeOf a ≠ .reg off) (hr : (d.busRead (c / 9) a 4).2 = some bs) :
    d.ldf c w = (d.busRead (c / 9) a 4).1.dspFinish c (.done ((d.core c).setSN (fD w) (ofLeBytes bs)).adv) := by
  unfold Dev.ldf
  rw [far_ok d c w _ a ha h0 h1 h2]
  split
  · next off h => exact absurd h (hp off)
  · dsimp only
    rw [hr]
    rfl
theorem Dev.stf_mem {d : Dev} {c : Fin 108} {w a : Nat} (ha : farAddr w (d.core c) = a) (h0 : fImm w = 0) (h1 : a % 4 = 0)
    (h2 : farPermitted (c / 9) a = true) (hp : ∀ off, placeOf a ≠ .reg off)
    (hr : (d.busWrite (c / 9) (d.jobTag c) a (leBytes 4 ((d.core c).getS (fD w)).toNat)).2 = true) :
    let t := (d.busWrite (c / 9) (d.jobTag c) a (leBytes 4 ((d.core c).getS (fD w)).toNat)).1
    d.stf c w = t.dspFinish c (.done (t.core c).adv) := by
  intro t
  unfold Dev.stf
  rw [far_ok d c w _ a ha h0 h1 h2]
  split
  · next off h => exact absurd h (hp off)
  · dsimp only
    rw [if_pos hr]
    rfl

/-- Settles O19. -/
theorem farAccessResults : Obligations.FarAccessResults := by
  unfold Obligations.FarAccessResults
  intro c w s a hr h0 ha k h1 h2
  refine ⟨fun off ho hp hon => (row_do hr ho).trans ?_, fun bs ho hp hb => (row_do hr ho).trans ?_, fun ho hp hb => (row_do hr ho).trans ?_⟩
  · exact congrArg (fun d => Host.Outcome.next (s.on d)) (Dev.ldf_reg ha h0 h1 h2 hp hon)
  · exact congrArg (fun d => Host.Outcome.next (s.on d)) (Dev.ldf_mem ha h0 h1 h2 hp hb)
  · exact congrArg (fun d => Host.Outcome.next (s.on d)) (Dev.stf_mem ha h0 h1 h2 hp hb)

/-! ### Transfers (R160-R167) -/

theorem Dev.dmaInsn_starts {d : Dev} {c : Fin 108} {w : Nat} :
    let k := d.core c
    let a : Nat := (k.getS (fA w)).toNat % 2 ^ 18
    let q := k.dmaDesc a
    fImm w = 0 → a % 2 = 0 → k.accessFault ((wordsFrom a 16).map fun x => (x, false)) = none → Tab.find k.dma k.nextTicket = none →
    q.bad c a = false → q.len ≠ 0 → q.rows ≠ 0 →
    d.dmaInsn c w = (d.dspFinish c (.done (k.setSN (fD w) k.nextTicket).adv)).dmaStart c ⟨a, q.dir, q.format, q.cls, q.far, q.loc, q.len, q.rows,
      q.fstride, q.lstride, q.span.1.toNat, q.span.2.toNat, true, (d.jobTag c).map (·.2), ((d.jobTag c).map (·.1)).getD 0, []⟩ := by
  intro k a q h0 h1 hacc hfree hbad hlen hrows
  unfold Dev.dmaInsn
  dsimp only
  simp only [a, k, q] at h1 hacc hfree hbad
  rw [h0, if_neg (by decide), if_neg (by omega)]
  rw [hacc]
  dsimp only
  rw [hfree, if_neg (by decide), if_neg (by rw [hbad]; decide), if_neg (by simpa only [not_or] using ⟨hlen, hrows⟩)]
theorem insnDmawait_free {x : Nat} {k : Core} (hd : fD x = 0) (h0 : fImm x = 0) (hfree : Tab.find k.dma ((k.getS (fA x)).toNat % 16) = none) :
    insnDmawait x k = .done k.adv := by
  rw [insnDmawait, legalThen_true (by rw [hd, h0]; rfl), hfree]
  rfl
/-- A completion frees its ticket, unless the transfer itself reset its core, which frees every ticket. -/
theorem Dev.dmaComplete_frees {d : Dev} {c : Fin 108} {n : Nat} {t : Dma} (h : Tab.find (d.core c).dma n = some t) :
    Tab.find ((d.dmaComplete c n).core c).dma n = none := by
  unfold Dev.dmaComplete
  rw [h]
  dsimp only
  split
  · next hgone => exact Option.isNone_iff_eq_none.1 hgone
  · rw [core_congr (Dev.wf_cores _ _ _), core_updCore, if_pos rfl]
    exact (Tab.find_del _ _ _).trans (if_pos rfl)

/-- Settles O20. -/
theorem dmaResults : Obligations.DmaResults := by
  unfold Obligations.DmaResults
  intro c w s x k a q
  refine ⟨fun hr ho h0 h1 hacc hfree hbad hlen hrows => (row_do hr ho).trans ?_, fun hr ho hd h0 hfree => dsp_done hr ho (insnDmawait_free hd h0 hfree),
    fun n t hrun ht => ?_⟩
  · exact congrArg (fun d => Host.Outcome.next (s.on d)) (Dev.dmaInsn_starts h0 h1 hacc hfree hbad hlen hrows)
  · rw [exec_dmaComplete]
    refine nextAnd_act ?_
    rw [if_pos hrun]
    exact ⟨Dev.dmaComplete_frees ht, rfl⟩

end Sys2Proof.Machine

/-! SUPPORT. A row that acts on its core alone: what its instruction leaves of the core's tentative coprocessor work, and so of everything else. -/

namespace Sys2Proof.Machine

/-! ### The updates of a core leave its tentative instructions -/

@[simp] theorem Core.tent_setS (k : Core) (i : Nat) (v : Word) : (k.setS i v).tent = k.tent := rfl
@[simp] theorem Core.tent_setSN (k : Core) (i v : Nat) : (k.setSN i v).tent = k.tent := rfl
@[simp] theorem Core.tent_setSI (k : Core) (i : Nat) (v : Int) : (k.setSI i v).tent = k.tent := rfl
@[simp] theorem Core.tent_setP (k : Core) (i : Nat) (v : Int) : (k.setP i v).tent = k.tent := rfl
@[simp] theorem Core.tent_setM (k : Core) (i : Nat) (v : Int) : (k.setM i v).tent = k.tent := rfl
@[simp] theorem Core.tent_setCr (k : Core) (n v : Nat) : (k.setCr n v).tent = k.tent := rfl
@[simp] theorem Core.tent_setAcc (k : Core) (a : Nat) (l : List Int) : (k.setAcc a l).tent = k.tent := rfl
@[simp] theorem Core.tent_setWord (k : Core) (a v : Nat) : (k.setWord a v).tent = k.tent := rfl
@[simp] theorem Core.tent_jump (k : Core) (t : Nat) : (k.jump t).tent = k.tent := rfl
@[simp] theorem Core.tent_advTo (k : Core) (n : Nat) : (k.advTo n).tent = k.tent := by
  unfold Core.advTo
  split <;> rfl
@[simp] theorem Core.tent_adv (k : Core) : k.adv.tent = k.tent := k.tent_advTo _
@[simp] theorem Core.tent_setK (k : Core) (i v : Nat) : (k.setK i v).tent = k.tent := by
  unfold Core.setK
  split <;> rfl
@[simp] theorem Core.tent_setGroup (k : Core) (v n : Nat) (l : List Int) : (k.setGroup v n l).tent = k.tent := by
  rw [Core.setGroup_keeps]
@[simp] theorem Core.tent_setWords (k : Core) (l : List (Nat × Nat)) : (k.setWords l).tent = k.tent := by
  unfold Core.setWords
  induction l generalizing k with
  | nil => rfl
  | cons p l ih => exact ih _
@[simp] theorem Core.tent_writeCr (k : Core) (n v : Nat) : (k.writeCr n v).tent = k.tent := by
  unfold Core.writeCr
  repeat' split
  all_goals rfl
@[simp] theorem tent_msUpd (w : Nat) (k : Core) : (msUpd w k).tent = k.tent := by
  unfold msUpd
  split <;> rfl
@[simp] theorem tent_mvUpd (w n : Nat) (k : Core) : (mvUpd w n k).tent = k.tent := by
  unfold mvUpd
  split <;> rfl
@[simp] theorem Core.tent_vextCount (k k1 : Core) (ac : Nat) (sat : Bool) : (k.vextCount k1 ac sat).tent = k1.tent := by
  cases sat <;> rfl
@[simp] theorem Core.tent_vextClear (k : Core) (ac : Nat) (clr : Bool) : (k.vextClear ac clr).tent = k.tent := by
  cases clr <;> rfl
theorem tent_acmovCore (w : Nat) (k : Core) : (acmovCore w k).tent = k.tent := by
  unfold acmovCore
  dsimp only
  split <;> rfl
theorem Core.tent_foldl {α : Type} {f : Core → α → Core} (h : ∀ k a, (f k a).tent = k.tent) (l : List α) (k : Core) : (l.foldl f k).tent = k.tent := by
  induction l generalizing k with
  | nil => rfl
  | cons a l ih => rw [List.foldl_cons, ih, h]

/-! ### Instructions that commit with the tentative ones they found -/

/-- If the instruction commits, core `k` keeps its tentative coprocessor instructions. -/
def InsnRes.KeepsTent (k : Core) (r : InsnRes) : Prop := ∀ k', r = .done k' → k'.tent = k.tent

theorem keepsTent_done {k k' : Core} (h : k'.tent = k.tent) : InsnRes.KeepsTent k (.done k') := fun _ he => by
  cases he
  exact h
theorem keepsTent_fault (k : Core) (cause : Nat) (a : Int) (e : Nat) : InsnRes.KeepsTent k (.fault cause a e) := fun _ he => by cases he
theorem keepsTent_legalThen {k : Core} {r : InsnRes} (b : Bool) (h : r.KeepsTent k) : (legalThen b r).KeepsTent k := by
  cases b
  · exact keepsTent_fault _ _ _ _
  · exact h
theorem keepsTent_alignedThen {k : Core} {r : InsnRes} (a : Nat) (h : r.KeepsTent k) : (alignedThen a r).KeepsTent k := by
  unfold alignedThen
  split
  · exact keepsTent_fault _ _ _ _
  · exact h
/-- The check of an access answers faults alone. -/
theorem Core.accessFault_keepsTent {k j : Core} {acc : List (Nat × Bool)} {f : InsnRes} (h : j.accessFault acc = some f) : f.KeepsTent k := by
  unfold Core.accessFault at h
  split at h
  · cases h
    exact keepsTent_fault _ _ _ _
  · split at h
    · cases h
      exact keepsTent_fault _ _ _ _
    · cases h
theorem keepsTent_access {k j : Core} {r : InsnRes} (acc : List (Nat × Bool)) (h : r.KeepsTent k) : (j.access acc r).KeepsTent k := by
  unfold Core.access
  split
  · next f hf => exact Core.accessFault_keepsTent hf
  · exact h
theorem gtFault_keepsTent {k : Core} {w e : Nat} {write : Bool} {f : InsnRes} (h : gtFault w k write e = some f) : f.KeepsTent k := by
  unfold gtFault at h
  dsimp only at h
  split at h
  · cases h
    exact keepsTent_fault _ _ _ _
  · split at h
    · cases h
      exact keepsTent_fault _ _ _ _
    · split at h
      · cases h
        exact keepsTent_fault _ _ _ _
      · cases h
theorem keepsTent_gtChecked {k : Core} {w : Nat} {write : Bool} {r : InsnRes} (h : r.KeepsTent k) : (gtChecked w k write r).KeepsTent k := by
  refine keepsTent_legalThen _ ?_
  split
  · next f fs hf =>
    obtain ⟨e, -, he⟩ := List.mem_filterMap.1 (hf ▸ List.mem_cons_self : f ∈ (gtActive w k).filterMap (gtFault w k write))
    exact gtFault_keepsTent he
  · exact h

section
variable (w : Nat) (k : Core)

theorem keepsTent_sop : (insnSop w k).KeepsTent k := by
  refine keepsTent_legalThen _ ?_
  split
  · exact keepsTent_done (by simp)
  · exact keepsTent_fault _ _ _ _
theorem keepsTent_addi : (insnAddi w k).KeepsTent k := keepsTent_done (by simp)
theorem keepsTent_andi : (insnAndi w k).KeepsTent k := keepsTent_done (by simp)
theorem keepsTent_ori : (insnOri w k).KeepsTent k := keepsTent_done (by simp)
theorem keepsTent_xori : (insnXori w k).KeepsTent k := keepsTent_done (by simp)
theorem keepsTent_lui : (insnLui w k).KeepsTent k := keepsTent_legalThen _ (keepsTent_done (by simp))
theorem keepsTent_slti : (insnSlti w k).KeepsTent k := keepsTent_done (by simp)
theorem keepsTent_paddi : (insnPaddi w k).KeepsTent k := keepsTent_legalThen _ (keepsTent_done (by simp))
theorem keepsTent_pmov : (insnPmov w k).KeepsTent k := keepsTent_legalThen _ (keepsTent_done (by simp))
theorem keepsTent_pget : (insnPget w k).KeepsTent k := keepsTent_legalThen _ (keepsTent_done (by simp))
theorem keepsTent_mset : (insnMset w k).KeepsTent k := keepsTent_legalThen _ (keepsTent_done (by simp))
theorem keepsTent_mseti : (insnMseti w k).KeepsTent k := keepsTent_legalThen _ (keepsTent_done (by simp))
theorem keepsTent_jmp : (insnJmp w k).KeepsTent k := keepsTent_legalThen _ (keepsTent_done (by simp))
theorem keepsTent_call : (insnCall w k).KeepsTent k := keepsTent_legalThen _ (keepsTent_done (by simp))
theorem keepsTent_startLoop (len count : Nat) : (startLoop len count k).KeepsTent k := by
  refine keepsTent_legalThen _ ?_
  repeat' split
  all_goals exact keepsTent_done (by simp)
theorem keepsTent_loop : (insnLoop w k).KeepsTent k := keepsTent_legalThen _ (keepsTent_startLoop k _ _)
theorem keepsTent_loopi : (insnLoopi w k).KeepsTent k := keepsTent_startLoop k _ _
theorem keepsTent_norm : (insnNorm w k).KeepsTent k := keepsTent_legalThen _ (keepsTent_done (by simp))
theorem keepsTent_acclr : (insnAcclr w k).KeepsTent k := keepsTent_legalThen _ (keepsTent_done (by simp))
theorem keepsTent_acmode : (insnAcmode w k).KeepsTent k := keepsTent_legalThen _ (keepsTent_done (by simp))
theorem keepsTent_acexp : (insnAcexp w k).KeepsTent k := keepsTent_legalThen _ (keepsTent_done (by simp))
theorem keepsTent_vext : (insnVext w k).KeepsTent k :=
  keepsTent_legalThen _ (keepsTent_done ((Core.tent_adv _).trans ((Core.tent_vextClear _ _ _).trans
    ((Core.tent_vextCount _ _ _ _).trans (Core.tent_setGroup _ _ _ _)))))
theorem keepsTent_vcmp (gt : Bool) : (insnVcmp gt w k).KeepsTent k := keepsTent_legalThen _ (keepsTent_done (by simp))
theorem keepsTent_vop : (insnVop w k).KeepsTent k := by
  unfold insnVop
  dsimp only
  split
  · exact keepsTent_vcmp w k _
  · split
    · exact keepsTent_vcmp w k _
    · exact keepsTent_legalThen _ (keepsTent_legalThen _ (keepsTent_done (by simp)))
theorem keepsTent_ldw : (insnLdw w k).KeepsTent k := keepsTent_legalThen _ (keepsTent_access _ (keepsTent_done (by simp)))
theorem keepsTent_ldc : (insnLdc w k).KeepsTent k :=
  keepsTent_legalThen _ (keepsTent_alignedThen _ (keepsTent_access _ (keepsTent_done (by simp))))
theorem keepsTent_stw : (insnStw w k).KeepsTent k := keepsTent_legalThen _ (keepsTent_access _ (keepsTent_done (by simp)))
theorem keepsTent_stc : (insnStc w k).KeepsTent k :=
  keepsTent_legalThen _ (keepsTent_alignedThen _ (keepsTent_access _ (keepsTent_done (by simp))))
theorem keepsTent_vld : (insnVld w k).KeepsTent k := keepsTent_legalThen _ (keepsTent_access _ (keepsTent_done (by simp)))
theorem keepsTent_vst : (insnVst w k).KeepsTent k := keepsTent_legalThen _ (keepsTent_access _ (keepsTent_done (by simp)))
theorem keepsTent_vgath : (insnVgath w k).KeepsTent k := keepsTent_gtChecked (keepsTent_done (by simp))
theorem keepsTent_vscat : (insnVscat w k).KeepsTent k := keepsTent_gtChecked (keepsTent_done (by simp))
theorem keepsTent_mtc : (insnMtc w k).KeepsTent k := keepsTent_legalThen _ (keepsTent_done (by simp))
theorem keepsTent_mbar : (insnMbar w k).KeepsTent k := keepsTent_legalThen _ (keepsTent_done (by simp))

end

/-! ### What such a row leaves -/

/-- Nothing of the device but core `c`, and what its faults and tentative instructions may touch, has changed; the host interface stands where a fault has
a handler to go to and no tentative instruction is marked. -/
def Dev.CoreAlone (c : Nat) (d e : Dev) : Prop :=
  e.offCore = d.offCore ∧ (∀ j, j ≠ c → e.core j = d.core j) ∧
  ((d.core c).inHandler = false → (d.core c).getCr 0x01 ≠ 0 → (∀ u ∈ (d.core c).tent, u.mark = none) → e.hif = d.hif)

theorem Dev.coreAlone_refl (c : Nat) (d : Dev) : d.CoreAlone c d := ⟨rfl, fun _ _ => rfl, fun _ _ _ => rfl⟩
theorem Dev.coreAlone_fault (d : Dev) (c pc cause : Nat) (a : Int) (e : Nat) : d.CoreAlone c (d.coreFault c pc cause a e) := by
  obtain ⟨hoff, hcore, -, hhif⟩ := coreFault_keeps d c pc cause a e
  exact ⟨hoff, hcore, fun hh hv _ => hhif hh hv⟩
theorem Dev.coreAlone_commit (d : Dev) (c : Nat) {k : Core} (h : k.tent = (d.core c).tent) : d.CoreAlone c ((d.setCore c k).cpxTick c) := by
  obtain ⟨hoff, hcore, -, hhif⟩ := cpxTick_keeps (d.setCore c k) c
  have hk : (d.setCore c k).core c = k := (Dev.core_setCore d c k c).trans (if_pos rfl)
  refine ⟨hoff.trans (Dev.offCore_setCore _ _ _), fun j hj => (hcore j hj).trans ((Dev.core_setCore d c k j).trans (if_neg hj)), fun _ _ hmark => ?_⟩
  refine (hhif ?_).trans (Dev.setCore_hif _ _ _)
  rw [hk, h]
  exact hmark
theorem Dev.coreAlone_finish (d : Dev) (c : Nat) {r : InsnRes} (h : r.KeepsTent (d.core c)) : d.CoreAlone c (d.dspFinish c r) := by
  cases r with
  | done k => exact d.coreAlone_commit c (h k rfl)
  | waits => exact d.coreAlone_refl c
  | fault cause a e => exact d.coreAlone_fault c _ _ _ _

/-- The trap of a moved GOV flag: the core's handler is the one it had. -/
theorem Dev.coreAlone_trap (d : Dev) (c : Nat) {k : Core} (hh : k.inHandler = (d.core c).inHandler) (hv : k.getCr 0x01 = (d.core c).getCr 0x01)
    (pc cause : Nat) (a : Int) (e : Nat) : d.CoreAlone c ((d.setCore c k).coreFault c pc cause a e) := by
  obtain ⟨hoff, hcore, -, hhif⟩ := coreFault_keeps (d.setCore c k) c pc cause a e
  have hk : (d.setCore c k).core c = k := (Dev.core_setCore d c k c).trans (if_pos rfl)
  refine ⟨hoff.trans (Dev.offCore_setCore _ _ _), fun j hj => (hcore j hj).trans ((Dev.core_setCore d c k j).trans (if_neg hj)), fun hh' hv' _ => ?_⟩
  refine (hhif ?_ ?_).trans (Dev.setCore_hif _ _ _)
  · rw [hk, hh, hh']
  · rw [hk, hv]
    exact hv'

theorem Core.adv_getCr (k : Core) (n : Nat) : k.adv.getCr n = k.getCr n := by rw [Core.adv_eq]; rfl
theorem Core.adv_inHandler (k : Core) : k.adv.inHandler = k.inHandler := Core.inHandler_congr (k.adv_getCr 0x03)
theorem acmovCore_getCr (w : Nat) (k : Core) : (acmovCore w k).getCr 0x01 = k.getCr 0x01 := by
  unfold acmovCore
  dsimp only
  split
  · exact Core.setCr_other _ _ (by decide)
  · rfl
theorem Dev.coreAlone_acmov (d : Dev) (c w : Nat) : d.CoreAlone c (d.macFinish c (insnAcmov w (d.core c))) := by
  by_cases hao : aoOk w 2 = true
  · rw [insnAcmov_done hao]
    obtain ⟨-, -, -, hh, -⟩ := acmovCore_keeps w (d.core c)
    unfold Dev.macFinish
    dsimp only
    split
    · exact d.coreAlone_trap c ((Core.adv_inHandler _).trans hh) ((Core.adv_getCr _ _).trans (acmovCore_getCr w _)) _ _ _ _
    · exact d.coreAlone_commit c ((Core.tent_adv _).trans (tent_acmovCore w _))
  · rw [insnAcmov, if_neg hao]
    exact d.coreAlone_finish c (keepsTent_fault _ _ _ _)

/-- A row's test of the core and of the word lets the instruction run, faults with ILLEGAL, or does nothing. -/
theorem Dev.coreAlone_dspDo (d : Dev) (c : Nat) {f : Dev → Dev} (h : d.CoreAlone c (f d)) : d.CoreAlone c (d.dspDo c f) := by
  unfold Dev.dspDo
  repeat' split
  · exact d.coreAlone_refl c
  · exact h
  · exact d.coreAlone_fault c _ _ _ _
/-- A row that acts on its core alone leaves the security complex, the queue and the rest of the device. -/
def State.CoreAlone (c : Nat) (s t : State) : Prop := s.dev.CoreAlone c t.dev ∧ t.sec = s.sec ∧ t.pending = s.pending
theorem coreAlone_dspWord {m b : Bool} {c : Fin 108} {s t : State} {f : Dev → Dev} (hf : s.dev.CoreAlone c (f s.dev))
    (h : State.dspWord m b c s f = .next t) : s.CoreAlone c t := by
  unfold State.dspWord State.act at h
  split at h
  · cases h
    exact ⟨s.dev.coreAlone_dspDo c hf, rfl, rfl⟩
  · split at h
    · cases h
      exact ⟨s.dev.coreAlone_dspDo c (s.dev.coreAlone_fault c _ _ _ _), rfl, rfl⟩
    · cases h
      exact ⟨s.dev.coreAlone_refl c, rfl, rfl⟩
theorem coreAlone_dsp {op : Nat} {c : Fin 108} {w : Word} {s t : State} {f : Nat → Core → InsnRes} (hf : ∀ x k, (f x k).KeepsTent k)
    (h : s.dsp op c w f = .next t) : s.CoreAlone c t := coreAlone_dspWord (s.dev.coreAlone_finish c (hf _ _)) h
theorem coreAlone_dspAc {fn : Nat} {c : Fin 108} {w : Word} {s t : State} {f : Nat → Core → InsnRes} (hf : ∀ x k, (f x k).KeepsTent k)
    (h : s.dspAc fn c w f = .next t) : s.CoreAlone c t := coreAlone_dspWord (s.dev.coreAlone_finish c (hf _ _)) h

/-- Settles O12: each of the rows commits with the tentative instructions its core had, waits, or faults. -/
theorem scalarFrame : Obligations.ScalarFrame := by
  unfold Obligations.ScalarFrame
  intro c w s t i hi h
  have halone : s.CoreAlone c t := by
    simp only [List.mem_cons, List.not_mem_nil, or_false] at hi
    rcases hi with rfl | rfl | rfl | rfl | rfl | rfl | rfl | rfl | rfl | rfl | rfl | rfl | rfl | rfl | rfl | rfl | rfl | rfl | rfl | rfl | rfl |
      rfl | rfl | rfl | rfl | rfl | rfl | rfl | rfl | rfl | rfl | rfl | rfl
    · exact coreAlone_dsp keepsTent_sop h
    · exact coreAlone_dsp keepsTent_addi h
    · exact coreAlone_dsp keepsTent_andi h
    · exact coreAlone_dsp keepsTent_ori h
    · exact coreAlone_dsp keepsTent_xori h
    · exact coreAlone_dsp keepsTent_lui h
    · exact coreAlone_dsp keepsTent_slti h
    · exact coreAlone_dsp keepsTent_paddi h
    · exact coreAlone_dsp keepsTent_pmov h
    · exact coreAlone_dsp keepsTent_pget h
    · exact coreAlone_dsp keepsTent_mset h
    · exact coreAlone_dsp keepsTent_mseti h
    · exact coreAlone_dsp keepsTent_jmp h
    · exact coreAlone_dsp keepsTent_call h
    · exact coreAlone_dsp keepsTent_loop h
    · exact coreAlone_dsp keepsTent_loopi h
    · exact coreAlone_dsp keepsTent_norm h
    · exact coreAlone_dspAc keepsTent_acclr h
    · exact coreAlone_dspAc keepsTent_acmode h
    · exact coreAlone_dspWord (s.dev.coreAlone_acmov c w.toNat) h
    · exact coreAlone_dspAc keepsTent_acexp h
    · exact coreAlone_dsp keepsTent_vext h
    · exact coreAlone_dsp keepsTent_vop h
    · exact coreAlone_dsp keepsTent_ldw h
    · exact coreAlone_dsp keepsTent_ldc h
    · exact coreAlone_dsp keepsTent_stw h
    · exact coreAlone_dsp keepsTent_stc h
    · exact coreAlone_dsp keepsTent_vld h
    · exact coreAlone_dsp keepsTent_vst h
    · exact coreAlone_dsp keepsTent_vgath h
    · exact coreAlone_dsp keepsTent_vscat h
    · exact coreAlone_dsp keepsTent_mtc h
    · exact coreAlone_dsp keepsTent_mbar h
  obtain ⟨⟨hoff, hcore, hhif⟩, hsec, hpending⟩ := halone
  obtain ⟨hnow, hguard, htls, -, hwds, hmem, -⟩ := Dev.offCore_fields hoff
  exact ⟨hcore, hmem, hsec, hpending, htls, hwds, hnow, hguard, hhif⟩

end Sys2Proof.Machine

/-! SUPPORT. What a completion and an event leave (R68-R81): everything but the rings, the pair's registers, host memory, the event backlog and the count
of mirrored acknowledgements. -/

namespace Sys2Proof.Machine

/-- The device less what a completion or an event touches. -/
def Dev.offAnswer (d : Dev) : Dev :=
  { d with regs := [], twin.acked := 0, hif := { d.hif with qs := [], mem := [], msix := [], backlog := [], evLost := false, closed := false, boot := [] } }

/-- Two devices that differ in that alone agree in every other field. -/
theorem Dev.offAnswer_fields {d e : Dev} (h : e.offAnswer = d.offAnswer) :
    e.cores = d.cores ∧ e.wds = d.wds ∧ e.mem = d.mem ∧ e.tls = d.tls ∧ e.txns = d.txns ∧ e.fw = d.fw ∧ e.pmu = d.pmu ∧
    e.twin.attach = d.twin.attach ∧ e.now = d.now ∧ e.lyr = d.lyr ∧ e.marrow = d.marrow ∧ e.pods = d.pods :=
  ⟨congrArg (·.cores) h, congrArg (·.wds) h, congrArg (·.mem) h, congrArg (·.tls) h, congrArg (·.txns) h, congrArg (·.fw) h, congrArg (·.pmu) h,
    congrArg (·.twin.attach) h, congrArg (·.now) h, congrArg (·.lyr) h, congrArg (·.marrow) h, congrArg (·.pods) h⟩

@[simp] theorem Dev.offAnswer_wf (d : Dev) (f : Fld) (v : Nat) : (d.wf f v).offAnswer = d.offAnswer := rfl
@[simp] theorem Dev.offAnswer_setFlag (d : Dev) (f : Fld) (b : Bool) : (d.setFlag f b).offAnswer = d.offAnswer := rfl
@[simp] theorem Dev.offAnswer_updQp (d : Dev) (q : Nat) (f : QPair → QPair) : (d.updQp q f).offAnswer = d.offAnswer := rfl
@[simp] theorem Dev.offAnswer_showFull (d : Dev) (q : Nat) : (d.showFull q).offAnswer = d.offAnswer := rfl
theorem Dev.offAnswer_acked (d : Dev) (n : Nat) : { d with twin.acked := n }.offAnswer = d.offAnswer := rfl
theorem Dev.offAnswer_backlog (d : Dev) (l : List Event) : { d with hif.backlog := l }.offAnswer = d.offAnswer := rfl
theorem Dev.offAnswer_evLost (d : Dev) (b : Bool) : { d with hif.evLost := b }.offAnswer = d.offAnswer := rfl
theorem Dev.offAnswer_boot (d : Dev) (l : List (Nat × Nat × Nat × Nat × Nat)) : { d with hif.boot := l }.offAnswer = d.offAnswer := rfl
theorem Dev.offAnswer_closed (d : Dev) (b : Bool) : { d with hif.closed := b }.offAnswer = d.offAnswer := rfl
@[simp] theorem Dev.offAnswer_hostWrite (d : Dev) (a : Nat) (b : List Byte) : (d.hostWrite a b).offAnswer = d.offAnswer := by
  unfold Dev.hostWrite
  split <;> rfl
@[simp] theorem Dev.offAnswer_raiseVector (d : Dev) (q : Nat) : (d.raiseVector q).offAnswer = d.offAnswer := by
  unfold Dev.raiseVector
  split <;> rfl
@[simp] theorem Dev.offAnswer_countTrigger (d : Dev) (q : Nat) : (d.countTrigger q).offAnswer = d.offAnswer := by
  unfold Dev.countTrigger
  dsimp only
  split
  · exact Dev.offAnswer_raiseVector d q
  · rfl
@[simp] theorem Dev.offAnswer_postEntry (d : Dev) (q tag status b6 flags : Nat) (body : List Nat) (ev : Bool) :
    (d.postEntry q tag status b6 flags body ev).offAnswer = d.offAnswer := by
  unfold Dev.postEntry
  dsimp only
  split
  · rfl
  · simp
@[simp] theorem Dev.offAnswer_postCmpl (d : Dev) (q tag : Nat) (c : Cmpl) (dup : Bool) : (d.postCmpl q tag c dup).offAnswer = d.offAnswer :=
  Dev.offAnswer_postEntry _ _ _ _ _ _ _ _
theorem Dev.offAnswer_flushFrom (q : Nat) : ∀ (l : List RunCmd) (b : Bool) (d : Dev), (Dev.flushFrom q l b d).1.offAnswer = d.offAnswer
  | [], _, _ => rfl
  | r :: rs, clear, d => by
    unfold Dev.flushFrom
    dsimp only
    repeat' split
    all_goals simp [Dev.offAnswer_flushFrom q rs, Dev.offAnswer_acked]
@[simp] theorem Dev.offAnswer_flushOnce (d : Dev) (q : Nat) : (d.flushOnce q).offAnswer = d.offAnswer := by
  simp [Dev.flushOnce, Dev.offAnswer_flushFrom]
@[simp] theorem Dev.offAnswer_postEvent (d : Dev) (e : Event) : (d.postEvent e).offAnswer = d.offAnswer :=
  (Dev.offAnswer_evLost _ _).trans (Dev.offAnswer_postEntry _ _ _ _ _ _ _ _)
@[simp] theorem Dev.offAnswer_event (d : Dev) (a b c e f : Nat) : (d.event a b c e f).offAnswer = d.offAnswer := by
  unfold Dev.event
  dsimp only
  split
  · rfl
  · split
    · exact d.offAnswer_evLost _
    · split
      · exact d.offAnswer_postEvent _
      · split
        · exact d.offAnswer_backlog _
        · exact d.offAnswer_evLost _
@[simp] theorem Dev.offAnswer_pairStart (d : Dev) (q : Nat) : (d.pairStart q).offAnswer = d.offAnswer := by
  have hfold (l : List (Nat × Nat × Nat × Nat × Nat)) (e : Dev) :
      (l.foldl (fun d e => d.event e.1 e.2.1 e.2.2.1 e.2.2.2.1 e.2.2.2.2) e).offAnswer = e.offAnswer := by
    induction l generalizing e with
    | nil => rfl
    | cons x l ih => rw [List.foldl_cons, ih, Dev.offAnswer_event]
  unfold Dev.pairStart
  dsimp only
  split
  · rw [hfold]
    rfl
  · rfl
@[simp] theorem Dev.offAnswer_settleStop (d : Dev) (q : Nat) : (d.settleStop q).offAnswer = d.offAnswer := by
  unfold Dev.settleStop
  dsimp only
  split
  · split <;> simp
  · rfl
@[simp] theorem Dev.offAnswer_flush (d : Dev) (q : Nat) : (d.flush q).offAnswer = d.offAnswer := by
  rw [Dev.flush, Dev.offAnswer_settleStop, Dev.offAnswer_flushOnce, Dev.offAnswer_flushOnce]
@[simp] theorem Dev.offAnswer_complete (d : Dev) (q tag st : Nat) (r : List Nat) : (d.complete q tag st r).offAnswer = d.offAnswer :=
  (Dev.offAnswer_flush _ _).trans (Dev.offAnswer_updQp _ _ _)
@[simp] theorem Dev.offAnswer_accepted (d : Dev) (q tag : Nat) : (d.accepted q tag).offAnswer = d.offAnswer :=
  (Dev.offAnswer_flush _ _).trans (Dev.offAnswer_updQp _ _ _)
@[simp] theorem Dev.offAnswer_inProgress (d : Dev) (q tag : Nat) : (d.inProgress q tag).offAnswer = d.offAnswer := rfl

/-- Settles O36. -/
theorem answersLeaveTheDevice : Obligations.AnswersLeaveTheDevice := by
  unfold Obligations.AnswersLeaveTheDevice
  intro d q tag st res cls code a b c
  obtain ⟨hcores, hwds, hmem, htls, htxns, hfw, hpmu, hattach, hnow, hlyr, -⟩ := Dev.offAnswer_fields (d.offAnswer_complete q tag st res)
  obtain ⟨hcores', hwds', hmem', htls', htxns', hfw', hpmu', hattach', hnow', hlyr', -⟩ := Dev.offAnswer_fields (d.offAnswer_event cls code a b c)
  exact ⟨⟨hcores, hwds, hmem, htls, htxns, congrArg (·.staged) hfw, hpmu, hattach, hnow, hlyr,
      fun off ho => Dev.reg_complete d (Nat.lt_trans q.isLt (by decide)) ho _ _ _⟩,
    ⟨hcores', hwds', hmem', htls', htxns', congrArg (·.staged) hfw', hpmu', hattach', hnow', hlyr', fun off ho => Dev.reg_event d ho _ _ _ _ _⟩⟩

end Sys2Proof.Machine

/-! SUPPORT. The convolutional encoder (R210, R211) and the records of a PLAN_POST (R83). -/

namespace Sys2Proof.Machine

/-! ### The convolutional encoder -/

theorem convEnc_length (cl : Nat) (gens : List Nat) (st : Nat) (u : List Bool) : (convEnc cl gens st u).length = u.length * gens.length := by
  induction u generalizing st with
  | nil => simp [convEnc]
  | cons b u ih =>
    simp only [convEnc, convOut, List.length_append, List.length_map, ih, List.length_cons, Nat.succ_mul]
    omega

/-- The state an encoder is in after one more input bit. -/
def convNext (cl st : Nat) (b : Bool) : Nat := (2 * st + b2n b) % 2 ^ (cl - 1)

/-- A message in two parts is encoded part by part, the second from the state the first leaves. -/
theorem convEnc_append (cl : Nat) (gens : List Nat) (st : Nat) (u v : List Bool) :
    convEnc cl gens st (u ++ v) = convEnc cl gens st u ++ convEnc cl gens (u.foldl (convNext cl) st) v := by
  induction u generalizing st with
  | nil => rfl
  | cons b u ih =>
    have hstate : (2 * st + b2n b) % 2 ^ cl % 2 ^ (cl - 1) = convNext cl st b :=
      Nat.mod_mod_of_dvd _ (Nat.pow_dvd_pow 2 (Nat.sub_le cl 1))
    simp only [List.cons_append, convEnc, ih, hstate, List.foldl_cons, List.append_assoc]

theorem convEncBody_record (ds : List Byte) (io : Io) :
    let bits := leAt ds 20 2
    let u := unpackBits bits (io.read 32 (addrAt ds 32) (ceilDiv bits 8)).2
    let steps := if bitAt (leAt ds 16 1) 0 then u.length else u.length + (leAt ds 17 1 - 1)
    (convEncBody ds io).2 = ⟨0, 1, steps * leAt ds 18 1 % 2 ^ 32⟩ := by
  intro bits u steps
  have hgens : (convGens ds).length = leAt ds 18 1 := by simp [convGens, upTo]
  unfold convEncBody encRec
  dsimp only
  by_cases htb : bitAt (leAt ds 16 1) 0 = true
  · rw [if_pos htb, convEnc_length, hgens]
    simp only [steps, if_pos htb, u, bits]
  · rw [if_neg htb, convEnc_length, hgens, List.length_append, List.length_replicate]
    simp only [steps, if_neg htb, u, bits]

/-- Settles O26. -/
theorem convolutionalEncoderLength : Obligations.ConvolutionalEncoderLength := by
  unfold Obligations.ConvolutionalEncoderLength
  exact ⟨convEnc_length, fun cl gens u v _ => convEnc_append cl gens 0 u v, convEncBody_record⟩

/-! ### The records of a PLAN_POST -/

/-- The plan grows by its accepted records alone: within 2,048, no allocation twice, every record taken or refused. -/
theorem Dev.takeRecs_counted (d : Dev) (n : Nat) (b : List Byte) (is : List Nat) : ∀ (l : List PlanRec) (a r f : Nat),
    l.length ≤ 2048 → (l.map (·.alloc)).Nodup →
    let x := d.takeRecs n b is l a r f
    x.1.length ≤ 2048 ∧ (x.1.map (·.alloc)).Nodup ∧ x.2.1 + x.2.2.1 = a + r + is.length ∧ x.2.1 + l.length = a + x.1.length ∧ l <+: x.1 := by
  induction is with
  | nil =>
    intro l a r f hlen hnodup
    exact ⟨hlen, hnodup, rfl, rfl, List.prefix_refl _⟩
  | cons i is ih =>
    intro l a r f hlen hnodup
    unfold Dev.takeRecs
    dsimp only
    split
    · next htake =>
      obtain ⟨hroom, hnew, -⟩ := htake
      have hnodup' : ((l ++ [parsePlanRec (slice b (32 * i) 32)]).map (·.alloc)).Nodup := by
        rw [List.map_append, List.map_singleton, List.nodup_append]
        refine ⟨hnodup, List.pairwise_singleton _ _, fun x hx y hy hxy => ?_⟩
        obtain ⟨p, hp, rfl⟩ := List.mem_map.1 hx
        have hne := List.all_eq_true.1 hnew p hp
        rw [List.mem_singleton] at hy
        rw [hxy, hy] at hne
        simp at hne
      obtain ⟨h1, h2, h3, h4, h5⟩ := ih (l ++ [parsePlanRec (slice b (32 * i) 32)]) (a + 1) r f (by rw [List.length_append, List.length_singleton]; omega) hnodup'
      rw [List.length_append, List.length_singleton] at h4
      rw [List.length_cons]
      exact ⟨h1, h2, by omega, by omega, (List.prefix_append _ _).trans h5⟩
    · obtain ⟨h1, h2, h3, h4, h5⟩ := ih l a (r + 1) (if r = 0 then i else f) hlen hnodup
      rw [List.length_cons]
      exact ⟨h1, h2, by omega, h4, h5⟩

/-- Settles O33, by induction on the records still to take: each is appended with a new allocation while there is room, or counted as refused. -/
theorem planRecordsAreCounted : Obligations.PlanRecordsAreCounted := by
  unfold Obligations.PlanRecordsAreCounted
  intro d n b is l a r f hlen hnodup x
  obtain ⟨h1, h2, h3, h4, h5⟩ := d.takeRecs_counted n b is l a r f hlen hnodup
  have hgrown : l.length ≤ x.1.length := h5.length_le
  exact ⟨h1, h2, h3, by simp only [x] at h4 hgrown ⊢; omega, h5⟩

/-! ### Boundaries at one instant (R21, R99) -/

/-- Timeline 1 passed its boundary 0 and has released pod 0 alone; boundary 0 of timeline 0 comes at the same instant. -/
def twoBoundaries : State := { State.reset with dev.tls := [(1, ⟨true, 0, 1, [], [0]⟩)] }

/-- Refutes O40: timeline 1 releases its pods, 64 core cycles apart, before timeline 0's boundary of the same instant acts, so TMU time moves on. -/
theorem not_boundaryMakesPeriodCurrent : ¬ Obligations.BoundaryMakesPeriodCurrent := by
  unfold Obligations.BoundaryMakesPeriodCurrent
  intro h
  obtain ⟨-, -, -, -, -, hnow, -⟩ := h twoBoundaries 0 0 [] rfl rfl rfl rfl
  have hmoved : (twoBoundaries.boundary (0 : Fin 4) 0 true []).dev.now = 2062199466706 := by decide +kernel
  have hzero : twoBoundaries.dev.now = 0 := rfl
  rw [hmoved, hzero] at hnow
  omega

end Sys2Proof.Machine

/-! SUPPORT. What a taken write of the register bus leaves in its register (R461-R468), for registers of one-bit fields without reserved codes, and the
registers of a pod that firmware and cores write: CPX_CTL and POD_CORE_c_CTL. -/

namespace Sys2Proof.Machine

/-! ### A write that is taken -/

/-- No chapter reserves codes of this register by its text (R249, R250, R278, R318). -/
def plainOff (off : Nat) : Prop := off < 0xC10000 ∨ 0x1900000 ≤ off

theorem badCode_plain {off : Nat} (h : plainOff off) (w v : Nat) : badCode off w v = false := by
  have hcode : codeReg off = false := by
    unfold codeReg
    dsimp only [rDFE_TDDn_ROW_j, rDFE_TDDn_CFG, rNBB_CHn_GSM]
    rcases h with h | h
    · simp [show ¬0x1406004 + 0x100 * 0 + 0x4 * 0 ≤ off by omega, show ¬0x180102c + 0x40 * 0 ≤ off by omega]
    · simp [show ¬off < 0x1406000 + 0x100 * 16 by omega, show ¬off ≤ 0x180102c + 0x40 * 255 by omega]
  have hroute : routeReg off = false := by
    unfold routeReg
    dsimp only [rLYR_RT_s_e_d]
    rcases h with h | h
    · simp [show ¬0xc10000 + 0x200 * 0 + 0x100 * 0 + 0x4 * 0 ≤ off by omega]
    · simp [show ¬off ≤ 0xc10000 + 0x200 * 27 + 0x100 * 1 + 0x4 * 27 by omega]
  rw [badCode, hcode, hroute]
  rfl
theorem strobeArg_plain {off : Nat} (h : plainOff off) (old : Nat) (a : WriteAcc) : strobeArg off old a = a := by
  unfold strobeArg
  rw [if_neg]
  dsimp only [rDFE_GPIO_l_CFG]
  rcases h with h | h <;> omega

/-- The fields of a register as a write leaves them. -/
def Dev.written (d : Dev) (f : RegFam) (idx : List Nat) (off value : Nat) : WriteAcc :=
  f.fields.foldl (writeField (d.blkOn f.blk off idx) off (writeMask f.wide value) (writeVal f.wide value)) ⟨d.reg off, false, 0⟩

/-- A write that is taken leaves its register as its fields give it, and answers the command bits. -/
theorem Dev.busWr_taken {d : Dev} {init : Initiator} {off value : Nat} {f : RegFam} {idx : List Nat} (hhole : d.holeFor init off = false)
    (hdown : d.hostDown init = false) (hreg : regAt off = some (f, idx)) (hon : d.domOn (regDomain f.dom off (nth 0 idx 0)) = true)
    (hplain : plainOff off) (hunlock : off ≠ rTHM_UNLOCK) (hguard : f.guarded = false) (hig : (d.written f idx off value).ignored = false) :
    d.busWr init off value = (d.setReg off (d.written f idx off value).v, .yes (d.written f idx off value).cmds) := by
  unfold Dev.busWr
  rw [hhole, hreg]
  dsimp only
  rw [hdown, hon, hguard, strobeArg_plain hplain]
  simp only [Bool.false_eq_true, if_false, Bool.not_true, Bool.or_self, if_neg hunlock, Bool.false_and]
  change (if (d.written f idx off value).ignored = true then _ else _, _) = _
  rw [hig]
  rfl

/-- A one-bit field is selected by its mask bit and takes its value bit. -/
theorem bits_one (v n : Nat) : bitsAt v n 1 = b2n (v.testBit n) := by
  have h := Nat.testBit_eq_decide_div_mod_eq (x := v) (i := n)
  unfold bitsAt b2n
  rw [h]
  have hlt : v / 2 ^ n % 2 < 2 := Nat.mod_lt _ (by decide)
  by_cases h1 : v / 2 ^ n % 2 = 1
  · simp [h1]
  · simp [show v / 2 ^ n % 2 = 0 by omega]

section
variable {off : Nat} (hplain : plainOff off) (on : Bool) (m x lo r : Nat) (a : WriteAcc)
include hplain

theorem writeField_ctl : writeField on off m x a ⟨lo, 1, .ctl, r, []⟩ =
    { a with v := if m.testBit lo then putBits a.v lo 1 (b2n (x.testBit lo)) else a.v } := by
  unfold writeField
  simp only [bits_one, badCode_plain hplain, List.any_nil, Bool.or_self, Bool.false_eq_true, if_false]
  cases m.testBit lo
  · simp [b2n]
  · cases x.testBit lo <;> cases a.v.testBit lo <;> rfl
theorem writeField_cmd : writeField on off m x a ⟨lo, 1, .cmd, r, []⟩ =
    { a with cmds := a.cmds + b2n (m.testBit lo && x.testBit lo) * 2 ^ lo } := by
  unfold writeField
  simp only [bits_one, badCode_plain hplain, List.any_nil, Bool.or_self, Bool.false_eq_true, if_false]
  cases m.testBit lo
  · simp [b2n]
  · cases x.testBit lo <;> cases a.v.testBit lo <;> rfl
end

/-- The mask and the value of a MASKED write, bit by bit (R461). -/
theorem testBit_writeMask (value n : Nat) : (writeMask false value).testBit n = value.testBit (16 + n) := by
  unfold writeMask
  rw [if_neg (by decide), Nat.testBit_div_two_pow, Nat.add_comm]
theorem testBit_writeVal (value : Nat) {n : Nat} (h : n < 16) : (writeVal false value).testBit n = value.testBit n := by
  unfold writeVal
  rw [if_neg (by decide), Nat.testBit_mod_two_pow, decide_eq_true h, Bool.true_and]

/-! ### CPX_CTL (R196) -/

def famCpxCtl : RegFam := ⟨"CPX_CTL", 0x0, [], false, false, .podS, .none, [⟨0, 1, .ctl, 0, []⟩, ⟨1, 1, .ctl, 0, []⟩, ⟨2, 1, .ctl, 0, []⟩]⟩

theorem regAt_cpxCtl : ∀ p : Fin 12, regAt (rCPX_CTL p) = some (famCpxCtl, []) := by decide
theorem plainOff_cpxCtl (p : Nat) : plainOff (rCPX_CTL p) := .inr (by dsimp only [rCPX_CTL]; omega)
theorem regDomain_cpxCtl (p : Fin 12) : regDomain .podS (rCPX_CTL p) 0 = 3 * p + 2 := by
  unfold regDomain blockOf
  dsimp only [rCPX_CTL]
  omega

/-- The three enables as a write leaves them. -/
def cpxCtlAfter (old value : Nat) : Nat :=
  let bit (v u : Nat) : Nat := if value.testBit (16 + u) then putBits v u 1 (b2n (value.testBit u)) else v
  bit (bit (bit old 0) 1) 2
theorem written_cpxCtl (d : Dev) (p : Fin 12) (value : Nat) :
    d.written famCpxCtl [] (rCPX_CTL p) value = ⟨cpxCtlAfter (d.reg (rCPX_CTL p)) value, false, 0⟩ := by
  unfold Dev.written famCpxCtl
  simp only [List.foldl_cons, List.foldl_nil, writeField_ctl (plainOff_cpxCtl p), testBit_writeMask]
  rw [testBit_writeVal _ (by decide), testBit_writeVal _ (by decide), testBit_writeVal _ (by decide)]
  rfl
theorem testBit_cpxCtlAfter (old value : Nat) (u : Fin 3) :
    (cpxCtlAfter old value).testBit u = if value.testBit (16 + u) then value.testBit u else old.testBit u := by
  have hbit (v w i : Nat) : (if value.testBit (16 + w) then putBits v w 1 (b2n (value.testBit w)) else v).testBit i =
      if i = w ∧ value.testBit (16 + w) then value.testBit i else v.testBit i := by
    by_cases hm : value.testBit (16 + w) = true
    · rw [if_pos hm, testBit_putBits]
      by_cases hi : i = w
      · subst hi
        rw [if_pos ⟨Nat.le_refl _, Nat.lt_succ_self _⟩, if_pos ⟨rfl, hm⟩, Nat.sub_self]
        cases value.testBit i <;> rfl
      · rw [if_neg (by omega), if_neg fun h => hi h.1]
    · rw [if_neg hm, if_neg fun h => hm h.2]
  unfold cpxCtlAfter
  dsimp only
  rw [hbit, hbit, hbit]
  match u with
  | 0 => simp
  | 1 => simp
  | 2 => simp
theorem Dev.busReg_cpxCtl {d : Dev} {init : Initiator} {p : Fin 12} {value : Nat} (hhole : d.holeFor init (rCPX_CTL p) = false)
    (hdown : d.hostDown init = false) (hon : d.domOn (3 * p.val + 2) = true) :
    d.busReg init (rCPX_CTL p) value = d.setReg (rCPX_CTL p) (cpxCtlAfter (d.reg (rCPX_CTL p)) value) := by
  unfold Dev.busReg
  rw [Dev.busWr_taken hhole hdown (regAt_cpxCtl p) ((congrArg d.domOn (regDomain_cpxCtl p)).trans hon) (plainOff_cpxCtl p)
    (by dsimp only [rCPX_CTL, rTHM_UNLOCK]; omega) rfl (by rw [written_cpxCtl]), written_cpxCtl]

/-! ### Units (R169-R181) -/

theorem Dev.cpxCheck_ok {d : Dev} {c x sa u : Nat} (hd : fD x = 0) (h0 : fImm x = 0) (hsa : sa < 0x7FF000) (hal : sa % 64 = 0)
    (hen : d.cpxEnabled (c / 9) u = true) : d.cpxCheck c x sa u = none := by
  unfold Dev.cpxCheck
  rw [hd, h0, hal, hen, if_neg (by decide), if_neg (by omega), if_neg (by decide), if_neg (by decide)]
theorem Dev.cpxIssue_accepted {d : Dev} {c : Fin 108} {w v : Word} {u : Nat} (hd : fD w.toNat = 0) (h0 : fImm w.toNat = 0)
    (hsa : ((d.core c).getS (fA w.toNat)).toNat < 0x7FF000) (hal : ((d.core c).getS (fA w.toNat)).toNat % 64 = 0)
    (hen : d.cpxEnabled (c / 9) u = true) (hout : (d.pods.cpx.filter fun i => i.core == c.val).length < 8) (hheld : d.cpxHeld (c / 9) u < 32) :
    d.cpxIssue c w [] v u = ((((d.cpxAccept c u ((d.core c).getS (fA w.toNat)).toNat).cpxCommit c d.pods.seq).setCore c (d.core c).adv).cpxTick c) := by
  unfold Dev.cpxIssue
  dsimp only
  rw [Dev.cpxCheck_ok hd h0 hsa hal hen]
  dsimp only
  rw [if_neg (by simp only [Bool.or_eq_true, decide_eq_true_eq]; omega)]
  rfl

/-- Settles O22. -/
theorem cpxIssueResults : Obligations.CpxIssueResults := by
  unfold Obligations.CpxIssueResults
  intro c w v s hr hd h0 k sa row
  have hrow {op u : Nat} (ho : opField w = op) (hsa : sa < 0x7FF000) (hal : sa % 64 = 0) (hen : s.dev.cpxEnabled (c / 9) u = true)
      (hout : (s.dev.pods.cpx.filter fun i => i.core == c.val).length < 8) (hheld : s.dev.cpxHeld (c / 9) u < 32) :
      s.cpxRow op c w ([], v) u = .next (s.onDev fun d => (((d.cpxAccept c u sa).cpxCommit c d.pods.seq).setCore c k.adv).cpxTick c) :=
    (row_do hr ho).trans (congrArg (fun d => Host.Outcome.next (s.on d)) (Dev.cpxIssue_accepted hd h0 hsa hal hen hout hheld))
  exact ⟨fun ho => hrow ho, fun ho => hrow ho, fun ho => hrow ho⟩

/-- A unit's turn has come for a committed instruction whose descriptor names its operation. -/
theorem Dev.cpxRun_checked {d : Dev} {p unit seq op : Nat} {checks : Nat → Nat → List Byte → List CpxCheck} {body : List Byte → Io → Io × CpxRec}
    {i : CpxInst} (hi : d.pods.cpx.find? (fun i => i.seq == seq && i.core / 9 == p && i.unit == unit && i.committed && i.ran.isNone) = some i)
    (hturn : d.cpxBefore i = false) (hop : leAt (d.podRead p i.desc 128) 1 1 = op)
    (hok : firstBad (checks p i.desc (d.podRead p i.desc 128)) = none) :
    let r := body (d.podRead p i.desc 128) ⟨d, i, none, none⟩
    d.cpxRun p unit seq op false checks body = (r.1.d.stageStall p unit).cpxUpd seq fun x =>
      { x with ran := some (match r.1.err with | some f => busErrRec f | none => r.2) } := by
  intro r
  unfold Dev.cpxRun
  rw [hi]
  dsimp only
  rw [hturn, hop, hok]
  simp only [Bool.false_eq_true, if_false, bne_self_eq_false, Bool.false_and]
  split
  · next f hf =>
    simp only [r, hf]
  · next hf =>
    simp only [r, hf]
theorem Dev.cpxRun_refused {d : Dev} {p unit seq op : Nat} {checks : Nat → Nat → List Byte → List CpxCheck} {body : List Byte → Io → Io × CpxRec}
    {i : CpxInst} {st off : Nat}
    (hi : d.pods.cpx.find? (fun i => i.seq == seq && i.core / 9 == p && i.unit == unit && i.committed && i.ran.isNone) = some i)
    (hturn : d.cpxBefore i = false) (hop : leAt (d.podRead p i.desc 128) 1 1 = op)
    (hbad : firstBad (checks p i.desc (d.podRead p i.desc 128)) = some (st, off)) :
    d.cpxRun p unit seq op false checks body = (d.stageStall p unit).cpxUpd seq fun x => { x with ran := some ⟨st, 1, off⟩ } := by
  unfold Dev.cpxRun
  rw [hi]
  dsimp only
  rw [hturn, hop, hbad]
  simp only [Bool.false_eq_true, if_false, bne_self_eq_false, Bool.false_and]
  rfl
theorem Dev.cpxUpd_keeps (d : Dev) (seq : Nat) (f : CpxInst → CpxInst) :
    (d.cpxUpd seq f).mem = d.mem ∧ (d.cpxUpd seq f).pods.mem = d.pods.mem ∧ (d.cpxUpd seq f).cores = d.cores ∧ (d.cpxUpd seq f).regs = d.regs :=
  ⟨rfl, rfl, rfl, rfl⟩
theorem Dev.stageStall_memories (d : Dev) (p u : Nat) : (d.stageStall p u).mem = d.mem ∧ (d.stageStall p u).pods.mem = d.pods.mem := by
  unfold Dev.stageStall
  extract_lets f
  have hmem : f.1.mem = d.mem := rfl
  have hpods : f.1.pods = d.pods := rfl
  rw [Dev.bumpBy_mem, Dev.bumpBy_pods, hmem, hpods]
  exact ⟨rfl, rfl⟩
theorem Dev.reg_stageStall (d : Dev) (p u : Nat) {o : Nat} (h : o ≠ rCPX_u_STAGE_STALL p u) : (d.stageStall p u).reg o = d.reg o := by
  unfold Dev.stageStall Dev.bumpBy
  rw [Dev.reg_wf_other _ _ _ _ h]
  exact Dev.reg_eq_of_regs rfl o

/-- Settles O24. -/
theorem unitRules : Obligations.UnitRules := by
  unfold Obligations.UnitRules
  constructor
  · intro p seq s i ds row
    have hrow (unit op : Nat) (checks : Nat → Nat → List Byte → List CpxCheck) (body : List Byte → Io → Io × CpxRec) (c : Instr)
        (hc : exec c s = .next (s.onDev fun d => d.cpxRun p unit seq op false checks body)) : row unit op checks body c :=
      fun hi hturn hop hok => hc.trans (congrArg (fun d => Host.Outcome.next (s.on d)) (Dev.cpxRun_checked hi hturn hop hok))
    exact ⟨hrow 0 0x01 (ldpcChecks false) (fun ds io => (ldpcPar ds).run io) (.ldpcDec p seq false) rfl,
      hrow 0 0x02 (turboChecks false) (fun ds io => (turboPar ds).run io) (.turboDec p seq false) rfl,
      hrow 0 0x03 (polarChecks false) polarDecBody (.polarDec p seq false) rfl,
      hrow 0 0x04 (convChecks false) convDecBody (.convDec p seq false) rfl,
      hrow 0 0x11 (ldpcChecks true) (fun ds io => (ldpcPar ds).encode io) (.ldpcEnc p seq false) rfl,
      hrow 0 0x12 (turboChecks true) (fun ds io => (turboPar ds).encode io) (.turboEnc p seq false) rfl,
      hrow 0 0x13 (polarChecks true) polarEncBody (.polarEnc p seq false) rfl,
      hrow 0 0x14 (convChecks true) convEncBody (.convEnc p seq false) rfl,
      hrow 1 1 xfmChecks xfmBody (.dft p seq false) rfl, hrow 1 2 xfmChecks xfmBody (.idft p seq false) rfl,
      hrow 2 1 matChecks matBody (.mmse p seq false) rfl, hrow 2 2 matChecks matBody (.chol p seq false) rfl,
      hrow 2 3 matChecks matBody (.qr p seq false) rfl⟩
  · intro p seq s i st off hi ds hturn hop hbad
    obtain ⟨hmem, hpmem, hcores, hregs⟩ := Dev.cpxUpd_keeps (s.dev.stageStall p 1) seq fun x => { x with ran := some ⟨st, 1, off⟩ }
    obtain ⟨hsmem, hspmem⟩ := Dev.stageStall_memories s.dev p 1
    obtain ⟨-, -, hscores⟩ := stageStall_keeps s.dev p 1
    refine ⟨_, congrArg (fun d => Host.Outcome.next (s.on d)) (Dev.cpxRun_refused hi hturn hop hbad), rfl, hmem.trans hsmem, hpmem.trans hspmem,
      hcores.trans hscores, fun o ho => ?_⟩
    exact (Dev.reg_eq_of_regs hregs o).trans (Dev.reg_stageStall _ _ _ ho)

theorem Dev.setReg_keeps (d : Dev) (off v : Nat) : (d.setReg off v).mem = d.mem ∧ (d.setReg off v).cores = d.cores := ⟨rfl, rfl⟩

/-- Settles O25. -/
theorem cpxRecordAndControl : Obligations.CpxRecordAndControl := by
  unfold Obligations.CpxRecordAndControl
  refine ⟨fun p seq s i r hi hran horder => ?_, fun init p value s hhole hdown hon => ?_⟩
  · refine congrArg (fun d => Host.Outcome.next (s.on d)) (?_ : (match s.dev.pods.cpx.find? (fun i => i.seq == seq && i.core / 9 == p.val) with
      | some i => match i.ran with
        | some r => if s.dev.cpxOrderHolds i then s.dev else (s.dev.cpxRecord i r false).slotsShow
        | none => s.dev
      | none => s.dev) = _)
    rw [hi]
    dsimp only
    rw [hran]
    dsimp only
    rw [horder]
    rfl
  · refine ⟨_, congrArg (fun d => Host.Outcome.next (s.on d)) (Dev.busReg_cpxCtl hhole hdown hon), fun u => ?_, ?_, ?_, rfl⟩
    · unfold Dev.cpxEnabled
      rw [State.on_dev, Dev.reg_setReg, if_pos rfl, bitAt_eq, bitAt_eq, Nat.testBit_mod_two_pow, testBit_cpxCtlAfter,
        decide_eq_true (Nat.lt_trans u.isLt (by decide)), Bool.true_and]
    · exact (Dev.setReg_keeps _ _ _).1
    · exact (Dev.setReg_keeps _ _ _).2

end Sys2Proof.Machine

/-! SUPPORT. Writes of a core's CTL register (R121, R142, R148): RUN, RESET, DOORBELL. -/

namespace Sys2Proof.Machine

/-! ### The register -/

def famCoreCtl : RegFam :=
  ⟨"POD_CORE_c_CTL", 0x100, [(9, 0x20)], false, false, .podCore, .none, [⟨0, 1, .ctl, 0, []⟩, ⟨1, 1, .cmd, 0, []⟩, ⟨2, 1, .cmd, 0, []⟩]⟩

theorem regAt_coreCtl : ∀ c : Fin 108, regAt (rPOD_CORE_c_CTL (c.val / 9) (c.val % 9)) = some (famCoreCtl, [c.val % 9]) := by decide +kernel
theorem regDomain_coreCtl : ∀ c : Fin 108, regDomain .podCore (rPOD_CORE_c_CTL (c.val / 9) (c.val % 9)) (c.val % 9) = coreDom c := by decide +kernel
theorem plainOff_coreCtl (p i : Nat) : plainOff (rPOD_CORE_c_CTL p i) := .inr (by dsimp only [rPOD_CORE_c_CTL]; omega)

/-- The RUN bit and the commands of a write. -/
theorem written_coreCtl (d : Dev) (p i value : Nat) :
    d.written famCoreCtl [i] (rPOD_CORE_c_CTL p i) value =
      ⟨if value.testBit 16 then putBits (d.reg (rPOD_CORE_c_CTL p i)) 0 1 (b2n (value.testBit 0)) else d.reg (rPOD_CORE_c_CTL p i), false,
        b2n (value.testBit 17 && value.testBit 1) * 2 + b2n (value.testBit 18 && value.testBit 2) * 4⟩ := by
  unfold Dev.written famCoreCtl
  simp only [List.foldl_cons, List.foldl_nil, writeField_ctl (plainOff_coreCtl p i), writeField_cmd (plainOff_coreCtl p i), testBit_writeMask]
  rw [testBit_writeVal _ (by decide), testBit_writeVal _ (by decide), testBit_writeVal _ (by decide)]
  simp

/-- A write of RUN where it is selected. -/
def Dev.runWritten (d : Dev) (c value : Nat) : Dev :=
  d.setReg (rPOD_CORE_c_CTL (c / 9) (c % 9)) (if value.testBit 16 then putBits (d.reg (rPOD_CORE_c_CTL (c / 9) (c % 9))) 0 1 (b2n (value.testBit 0))
    else d.reg (rPOD_CORE_c_CTL (c / 9) (c % 9)))
theorem Dev.busWr_coreCtl {d : Dev} {init : Initiator} {c : Fin 108} {value : Nat}
    (hhole : d.holeFor init (rPOD_CORE_c_CTL (c.val / 9) (c.val % 9)) = false) (hdown : d.hostDown init = false)
    (hon : d.domOn (coreDom c) = true) : d.busWr init (rPOD_CORE_c_CTL (c.val / 9) (c.val % 9)) value =
      (d.runWritten c value, .yes (b2n (value.testBit 17 && value.testBit 1) * 2 + b2n (value.testBit 18 && value.testBit 2) * 4)) := by
  rw [Dev.busWr_taken hhole hdown (regAt_coreCtl c) ((congrArg d.domOn (regDomain_coreCtl c)).trans hon) (plainOff_coreCtl _ _)
    (by dsimp only [rPOD_CORE_c_CTL, rTHM_UNLOCK]; omega) rfl (by rw [written_coreCtl]), written_coreCtl]
  rfl
theorem Dev.runWritten_keeps (d : Dev) (c value : Nat) : (d.runWritten c value).mem = d.mem ∧ (d.runWritten c value).cores = d.cores := ⟨rfl, rfl⟩
theorem Dev.flag_runWritten (d : Dev) (c value : Nat) : (d.runWritten c value).flag (POD_CORE_c_CTL_RUN (c / 9) (c % 9)) =
    if value.testBit 16 then value.testBit 0 else d.flag (POD_CORE_c_CTL_RUN (c / 9) (c % 9)) := by
  have hfield (v : Nat) : (bitsAt (v % 2 ^ 32) 0 1 == 1) = v.testBit 0 := by
    rw [bits_one, Nat.testBit_mod_two_pow]
    cases v.testBit 0 <;> rfl
  have hold : d.flag (POD_CORE_c_CTL_RUN (c / 9) (c % 9)) = (d.reg (rPOD_CORE_c_CTL (c / 9) (c % 9))).testBit 0 := by
    rw [← hfield, Nat.mod_eq_of_lt (d.reg_lt _)]
    rfl
  have hnew (v : Nat) : (d.setReg (rPOD_CORE_c_CTL (c / 9) (c % 9)) v).flag (POD_CORE_c_CTL_RUN (c / 9) (c % 9)) = v.testBit 0 := by
    rw [← hfield]
    unfold Dev.flag Dev.rf
    rw [Dev.reg_setReg, if_pos rfl]
  unfold Dev.runWritten
  rw [hnew, hold]
  by_cases h : value.testBit 16 = true
  · rw [if_pos h, if_pos h, testBit_putBits, if_pos (by decide)]
    cases value.testBit 0 <;> rfl
  · rw [if_neg h, if_neg h]

/-! ### What the write then does -/

/-- A write that starts, stops or leaves the core, then resets it, then sets its doorbell latch. -/
theorem Dev.coreCtlWr_yes {d : Dev} {init : Initiator} {c value cmds : Nat} (hcmds : (d.busWr init (rPOD_CORE_c_CTL (c / 9) (c % 9)) value).2 = .yes cmds) :
    let f := POD_CORE_c_CTL_RUN (c / 9) (c % 9)
    let r := d.busWr init (rPOD_CORE_c_CTL (c / 9) (c % 9)) value
    let stops := d.flag f && !r.1.flag f
    let d1 := if stops && (d.core c).job.isSome && !d.wds.hung.contains c then (r.1.setFlag f true).regErr .ignored (rPOD_CORE_c_CTL (c / 9) (c % 9)) init
      else if stops then r.1.coreStop c
      else if !d.flag f && r.1.flag f then r.1.coreStart c else r.1
    let d2 := if bitAt cmds 1 then d1.coreReset c else d1
    d.coreCtlWr init c value = if bitAt cmds 2 then d2.setLatch c 2 else d2 := by
  unfold Dev.coreCtlWr
  dsimp only
  rw [hcmds]
section
variable {d : Dev} {init : Initiator} {c value cmds : Nat} (hcmds : (d.busWr init (rPOD_CORE_c_CTL (c / 9) (c % 9)) value).2 = .yes cmds)
include hcmds
theorem Dev.coreCtlWr_starts (hold : d.flag (POD_CORE_c_CTL_RUN (c / 9) (c % 9)) = false)
    (hnew : (d.busWr init (rPOD_CORE_c_CTL (c / 9) (c % 9)) value).1.flag (POD_CORE_c_CTL_RUN (c / 9) (c % 9)) = true)
    (h1 : bitAt cmds 1 = false) (h2 : bitAt cmds 2 = false) :
    d.coreCtlWr init c value = (d.busWr init (rPOD_CORE_c_CTL (c / 9) (c % 9)) value).1.coreStart c := by
  rw [Dev.coreCtlWr_yes hcmds, hold, hnew, h1, h2]
  rfl
theorem Dev.coreCtlWr_stops (hold : d.flag (POD_CORE_c_CTL_RUN (c / 9) (c % 9)) = true)
    (hnew : (d.busWr init (rPOD_CORE_c_CTL (c / 9) (c % 9)) value).1.flag (POD_CORE_c_CTL_RUN (c / 9) (c % 9)) = false)
    (hjob : (d.core c).job = none) (h1 : bitAt cmds 1 = false) (h2 : bitAt cmds 2 = false) :
    d.coreCtlWr init c value = (d.busWr init (rPOD_CORE_c_CTL (c / 9) (c % 9)) value).1.coreStop c := by
  rw [Dev.coreCtlWr_yes hcmds, hold, hnew, hjob, h1, h2]
  rfl
theorem Dev.coreCtlWr_keepsRun {b1 b2 : Bool} (hsame : (d.busWr init (rPOD_CORE_c_CTL (c / 9) (c % 9)) value).1.flag
      (POD_CORE_c_CTL_RUN (c / 9) (c % 9)) = d.flag (POD_CORE_c_CTL_RUN (c / 9) (c % 9))) (h1 : bitAt cmds 1 = b1) (h2 : bitAt cmds 2 = b2) :
    let r := (d.busWr init (rPOD_CORE_c_CTL (c / 9) (c % 9)) value).1
    let e := if b1 then r.coreReset c else r
    d.coreCtlWr init c value = if b2 then e.setLatch c 2 else e := by
  rw [Dev.coreCtlWr_yes hcmds, hsame, h1, h2]
  cases d.flag (POD_CORE_c_CTL_RUN (c / 9) (c % 9)) <;> rfl
end

/-! ### Starting, stopping, resetting -/

/-- Starting a core. -/
theorem Dev.coreStart_core (d : Dev) (c b : Nat) : (d.coreStart c).core b = if b = c then { d.core c with pc := 0 } else d.core b :=
  (core_congr (Dev.wf_cores _ _ _) b).trans (core_updCore _ _ _ _)
theorem Dev.coreStart_keeps (d : Dev) (c : Nat) : (d.coreStart c).mem = d.mem ∧ (d.coreStart c).coreState c = 1 :=
  ⟨(Dev.wf_mem _ _ _).trans (Dev.updCore_mem _ _ _), coreState_setCoreState _ _ (by decide)⟩
theorem Dev.flag_coreStart (d : Dev) (c : Nat) {f : Fld} (h : f.off ≠ rPOD_CORE_c_STS (c / 9) (c % 9)) : (d.coreStart c).flag f = d.flag f := by
  unfold Dev.flag
  rw [Dev.coreStart, Dev.setCoreState, Dev.rf_wf_other _ _ _ _ h, Dev.rf_congr (Dev.updCore_regs _ _ _)]

/-- The device once its dispatcher no longer waits for core `c`. -/
def Dev.noWaiter (d : Dev) (c : Nat) : Dev := { d with wds.waiting := Tab.del d.wds.waiting c }
theorem Dev.noWaiter_keeps (d : Dev) (c : Nat) : (d.noWaiter c).cores = d.cores ∧ (d.noWaiter c).mem = d.mem ∧ (d.noWaiter c).regs = d.regs := ⟨rfl, rfl, rfl⟩
/-- Stopping a core: its tentative work is squashed, its STATE is 0, its vote shown. -/
theorem Dev.coreStop_eq (d : Dev) (c : Nat) : d.coreStop c =
    ((((if (d.core c).tent.isEmpty then d else d.squash c).noWaiter c).setCoreState c 0).showVote (coreDom c)).voteWithdraw (coreDom c) := rfl
theorem Dev.coreStop_keeps (d : Dev) (c : Nat) : (∀ b, b ≠ c → (d.coreStop c).core b = d.core b) ∧ (d.coreStop c).mem = d.mem := by
  have hsq : (∀ b, b ≠ c → (if (d.core c).tent.isEmpty then d else d.squash c).core b = d.core b) ∧
      (if (d.core c).tent.isEmpty then d else d.squash c).mem = d.mem := by
    split
    · exact ⟨fun _ _ => rfl, rfl⟩
    · obtain ⟨hoff, -, hcore⟩ := squash_keeps d c
      obtain ⟨-, -, -, -, -, hmem, -⟩ := Dev.offCore_fields hoff
      exact ⟨fun b hb => (hcore b).trans (if_neg hb), hmem⟩
  obtain ⟨hcore, hmem⟩ := hsq
  obtain ⟨hucores, humem, -⟩ := (if (d.core c).tent.isEmpty then d else d.squash c).noWaiter_keeps c
  rw [Dev.coreStop_eq]
  refine ⟨fun b hb => ?_, ?_⟩
  · rw [core_congr (Dev.voteWithdraw_cores _ _), core_congr (Dev.showVote_cores _ _), Dev.setCoreState, core_congr (Dev.wf_cores _ _ _),
      core_congr hucores, hcore b hb]
  · rw [Dev.voteWithdraw_mem, Dev.showVote_mem, Dev.setCoreState, Dev.wf_mem, humem, hmem]
theorem coreDom_lt {c : Nat} (h : c < 108) : coreDom c < 36 := by unfold coreDom; split <;> omega
/-- Votes are shown in the power manager's registers alone. -/
theorem Dev.rf_voted (d : Dev) {c : Nat} (hc : c < 108) {g : Fld} (h : 0x4000000 ≤ g.off) :
    ((d.showVote (coreDom c)).voteWithdraw (coreDom c)).rf g = d.rf g := by
  have hdom := coreDom_lt hc
  rw [Dev.rf_voteWithdraw, Dev.rf_showVote]
  all_goals
    dsimp only [rPMU_STS, rPMU_PDd_STS]
    omega
theorem Dev.coreState_coreStop (d : Dev) {c : Nat} (hc : c < 108) : (d.coreStop c).coreState c = 0 := by
  rw [Dev.coreStop_eq]
  unfold Dev.coreState
  rw [Dev.rf_voted _ hc (by dsimp only [coreStateF, rPOD_CORE_c_STS]; omega)]
  exact coreState_setCoreState _ _ (by decide)
theorem Dev.rf_squash_run (d : Dev) {c : Nat} (hc : c < 108) :
    (d.squash c).rf (POD_CORE_c_CTL_RUN (c / 9) (c % 9)) = d.rf (POD_CORE_c_CTL_RUN (c / 9) (c % 9)) := by
  unfold Dev.squash
  extract_lets f
  rw [Dev.rf_bumpBy_other, Dev.rf_cpxCancelAll, Dev.rf_congr (Dev.fresh_regs d 12)]
  all_goals
    dsimp only [rPOD_CORE_c_CTL, rPOD_CORE_c_SQUASHED]
    omega
theorem Dev.flag_coreStop (d : Dev) {c : Nat} (hc : c < 108) :
    (d.coreStop c).flag (POD_CORE_c_CTL_RUN (c / 9) (c % 9)) = d.flag (POD_CORE_c_CTL_RUN (c / 9) (c % 9)) := by
  obtain ⟨-, -, huregs⟩ := (if (d.core c).tent.isEmpty then d else d.squash c).noWaiter_keeps c
  unfold Dev.flag
  rw [Dev.coreStop_eq, Dev.rf_voted _ hc (by dsimp only [rPOD_CORE_c_CTL]; omega), Dev.setCoreState,
    Dev.rf_wf_other _ _ _ _ (by dsimp only [coreStateF, rPOD_CORE_c_CTL, rPOD_CORE_c_STS]; omega), Dev.rf_congr huregs]
  split
  · rfl
  · rw [Dev.rf_squash_run d hc]

/-- A core reset shows as STATE what RUN says. -/
theorem Dev.coreState_coreReset (d : Dev) {c : Nat} (hc : c < 108) : (d.coreReset c).coreState c = d.rf (POD_CORE_c_CTL_RUN (c / 9) (c % 9)) := by
  have hrun : d.rf (POD_CORE_c_CTL_RUN (c / 9) (c % 9)) < 2 ^ 1 := bitsAt_lt _ _ _
  have hregs : ∃ e : Dev, e.regs = (d.cpxCancelAll c).regs ∧
      d.coreReset c = (((e.updCore c Core.restarted).coreRegsReset c).showVote (coreDom c)).voteWithdraw (coreDom c) :=
    ⟨{ d.cpxCancelAll c with
      pods.cpx := (d.cpxCancelAll c).pods.cpx.map fun (x : CpxInst) => if x.core = c then { x with wakes := false } else x,
      wds.waiting := Tab.del (d.cpxCancelAll c).wds.waiting c }, rfl, rfl⟩
  obtain ⟨e, heregs, hreset⟩ := hregs
  have hkept : (e.updCore c Core.restarted).rf (POD_CORE_c_CTL_RUN (c / 9) (c % 9)) = d.rf (POD_CORE_c_CTL_RUN (c / 9) (c % 9)) := by
    rw [Dev.rf_congr (Dev.updCore_regs _ _ _), Dev.rf_congr heregs, Dev.rf_cpxCancelAll _ _ (by dsimp only [rPOD_CORE_c_CTL]; omega)]
  rw [hreset]
  unfold Dev.coreState
  rw [Dev.rf_voted _ hc (by dsimp only [coreStateF, rPOD_CORE_c_STS]; omega)]
  unfold Dev.coreRegsReset
  dsimp only
  refine (coreState_setCoreState _ _ ?_).trans ?_
  · exact Nat.lt_trans (show _ < 2 ^ 1 from bitsAt_lt _ _ _) (by decide)
  · unfold Dev.setFlag
    rw [Dev.rf_wf_other, Dev.rf_wf_other, Dev.rf_wf_other, Dev.rf_wf_other, Dev.rf_wf_other, Dev.rf_wf_other, hkept]
    all_goals
      dsimp only [rPOD_CORE_c_CTL, rPOD_DMA_c_STS, rPOD_CORE_c_FLT, rPOD_CORE_c_FLT_PC, rPOD_CORE_c_FLT_ADDR, rPOD_CORE_c_STS]
      omega

/-! ### One bit at a time -/

/-- The bits of a write that selects one bit of the register. -/
theorem testBit_one_of_div {v m : Nat} (h : v / 2 ^ 16 = m) (n : Nat) : v.testBit (16 + n) = m.testBit n := by
  rw [← h, Nat.testBit_div_two_pow, Nat.add_comm]

section
variable {d : Dev} {init : Initiator} {c : Fin 108} {value : Nat} (hhole : d.holeFor init (rPOD_CORE_c_CTL (c.val / 9) (c.val % 9)) = false)
  (hdown : d.hostDown init = false) (hon : d.domOn (coreDom c) = true)
include hhole hdown hon

theorem Dev.coreCtlWr_run (hold : d.flag (POD_CORE_c_CTL_RUN (c.val / 9) (c.val % 9)) = false) (hsel : value / 2 ^ 16 = 1) (hbit : bitAt value 0 = true) :
    d.coreCtlWr init c value = (d.runWritten c value).coreStart c ∧
    (d.runWritten c value).flag (POD_CORE_c_CTL_RUN (c.val / 9) (c.val % 9)) = true := by
  have h16 : value.testBit 16 = true := testBit_one_of_div hsel 0
  have h17 : value.testBit 17 = false := testBit_one_of_div hsel 1
  have h18 : value.testBit 18 = false := testBit_one_of_div hsel 2
  have hwr := Dev.busWr_coreCtl (value := value) hhole hdown hon
  rw [h17, h18, Bool.false_and, Bool.false_and] at hwr
  have hnew : (d.runWritten c value).flag (POD_CORE_c_CTL_RUN (c.val / 9) (c.val % 9)) = true := by
    rw [Dev.flag_runWritten, if_pos h16, ← bitAt_eq, hbit]
  have hdo := Dev.coreCtlWr_starts (congrArg Prod.snd hwr) hold (by rw [hwr, hnew]) (by decide) (by decide)
  rw [hwr] at hdo
  exact ⟨hdo, hnew⟩
theorem Dev.coreCtlWr_halt (hold : d.flag (POD_CORE_c_CTL_RUN (c.val / 9) (c.val % 9)) = true) (hsel : value / 2 ^ 16 = 1) (hbit : bitAt value 0 = false)
    (hjob : (d.core c).job = none) :
    d.coreCtlWr init c value = (d.runWritten c value).coreStop c ∧
    (d.runWritten c value).flag (POD_CORE_c_CTL_RUN (c.val / 9) (c.val % 9)) = false := by
  have h16 : value.testBit 16 = true := testBit_one_of_div hsel 0
  have h17 : value.testBit 17 = false := testBit_one_of_div hsel 1
  have h18 : value.testBit 18 = false := testBit_one_of_div hsel 2
  have hwr := Dev.busWr_coreCtl (value := value) hhole hdown hon
  rw [h17, h18, Bool.false_and, Bool.false_and] at hwr
  have hnew : (d.runWritten c value).flag (POD_CORE_c_CTL_RUN (c.val / 9) (c.val % 9)) = false := by
    rw [Dev.flag_runWritten, if_pos h16, ← bitAt_eq, hbit]
  have hdo := Dev.coreCtlWr_stops (congrArg Prod.snd hwr) hold (by rw [hwr, hnew]) hjob (by decide) (by decide)
  rw [hwr] at hdo
  exact ⟨hdo, hnew⟩
theorem Dev.coreCtlWr_reset (hsel : value / 2 ^ 16 = 2) (hbit : bitAt value 1 = true) :
    d.coreCtlWr init c value = (d.runWritten c value).coreReset c ∧
    (d.runWritten c value).rf (POD_CORE_c_CTL_RUN (c.val / 9) (c.val % 9)) = d.rf (POD_CORE_c_CTL_RUN (c.val / 9) (c.val % 9)) := by
  have h16 : value.testBit 16 = false := testBit_one_of_div hsel 0
  have h17 : value.testBit 17 = true := testBit_one_of_div hsel 1
  have h18 : value.testBit 18 = false := testBit_one_of_div hsel 2
  have hwr := Dev.busWr_coreCtl (value := value) hhole hdown hon
  rw [h17, h18, ← bitAt_eq, hbit, Bool.true_and, Bool.false_and] at hwr
  have hsame : (d.runWritten c value).flag (POD_CORE_c_CTL_RUN (c.val / 9) (c.val % 9)) = d.flag (POD_CORE_c_CTL_RUN (c.val / 9) (c.val % 9)) := by
    rw [Dev.flag_runWritten, if_neg (by rw [h16]; decide)]
  have hdo := Dev.coreCtlWr_keepsRun (b1 := true) (b2 := false) (congrArg Prod.snd hwr) (by rw [hwr, hsame]) (by decide) (by decide)
  rw [hwr] at hdo
  refine ⟨hdo, ?_⟩
  unfold Dev.runWritten Dev.rf
  rw [Dev.reg_setReg, if_pos rfl, if_neg (by rw [h16]; decide), Nat.mod_eq_of_lt (d.reg_lt _)]
theorem Dev.coreCtlWr_doorbell (hsel : value / 2 ^ 16 = 4) (hbit : bitAt value 2 = true) :
    d.coreCtlWr init c value = (d.runWritten c value).setLatch c 2 := by
  have h16 : value.testBit 16 = false := testBit_one_of_div hsel 0
  have h17 : value.testBit 17 = false := testBit_one_of_div hsel 1
  have h18 : value.testBit 18 = true := testBit_one_of_div hsel 2
  have hwr := Dev.busWr_coreCtl (value := value) hhole hdown hon
  rw [h17, h18, ← bitAt_eq value 2, hbit, Bool.true_and, Bool.false_and] at hwr
  have hsame : (d.runWritten c value).flag (POD_CORE_c_CTL_RUN (c.val / 9) (c.val % 9)) = d.flag (POD_CORE_c_CTL_RUN (c.val / 9) (c.val % 9)) := by
    rw [Dev.flag_runWritten, if_neg (by rw [h16]; decide)]
  have hdo := Dev.coreCtlWr_keepsRun (b1 := false) (b2 := true) (congrArg Prod.snd hwr) (by rw [hwr, hsame]) (by decide) (by decide)
  rw [hwr] at hdo
  exact hdo
end

theorem Dev.coreState_runWritten (d : Dev) (c value : Nat) : (d.runWritten c value).coreState c = d.coreState c := by
  unfold Dev.coreState Dev.runWritten Dev.rf
  rw [Dev.reg_setReg, if_neg (by dsimp only [coreStateF, rPOD_CORE_c_CTL, rPOD_CORE_c_STS]; omega)]

/-- Settles O23. -/
theorem coreControlWrites : Obligations.CoreControlWrites := by
  unfold Obligations.CoreControlWrites
  constructor
  · intro init c value s off f hhole hdown hon
    obtain ⟨hmem, hcores⟩ := s.dev.runWritten_keeps c value.toNat
    refine ⟨fun hold hsel hbit => ⟨_, rfl, ?_⟩, fun hold hsel hbit hjob => ⟨_, rfl, ?_⟩, fun hsel hbit => ⟨_, rfl, ?_⟩, fun hsel hbit => ⟨_, rfl, ?_⟩⟩
    · obtain ⟨hdo, hnew⟩ := Dev.coreCtlWr_run hhole hdown hon hold hsel hbit
      obtain ⟨hsmem, hstate⟩ := (s.dev.runWritten c value.toNat).coreStart_keeps c
      have hcore := (s.dev.runWritten c value.toNat).coreStart_core c
      simp only [State.onDev_dev, State.onDev_sec, hdo]
      refine ⟨(Dev.flag_coreStart _ _ (by dsimp only [f, rPOD_CORE_c_CTL, rPOD_CORE_c_STS]; omega)).trans hnew, hstate, ?_, fun b hb => ?_,
        hsmem.trans hmem, trivial⟩
      · rw [hcore, if_pos rfl, core_congr hcores]
      · rw [hcore, if_neg hb, core_congr hcores]
    · obtain ⟨hdo, hnew⟩ := Dev.coreCtlWr_halt hhole hdown hon hold hsel hbit hjob
      obtain ⟨hcore, hsmem⟩ := (s.dev.runWritten c value.toNat).coreStop_keeps c
      simp only [State.onDev_dev, State.onDev_sec, hdo]
      exact ⟨(Dev.flag_coreStop _ c.isLt).trans hnew, Dev.coreState_coreStop _ c.isLt, fun b hb => (hcore b hb).trans (core_congr hcores b),
        hsmem.trans hmem, trivial⟩
    · obtain ⟨hdo, hrun⟩ := Dev.coreCtlWr_reset hhole hdown hon hsel hbit
      have hcore := (s.dev.runWritten c value.toNat).core_coreReset c
      simp only [State.onDev_dev, State.onDev_sec, hdo]
      refine ⟨?_, (Dev.coreState_coreReset _ c.isLt).trans hrun, fun b hb => ?_, (Dev.mem_coreReset _ _).trans hmem, trivial⟩
      · rw [hcore, if_pos rfl, core_congr hcores]
        rfl
      · rw [hcore, if_neg hb, core_congr hcores]
    · have hdo := Dev.coreCtlWr_doorbell hhole hdown hon hsel hbit
      simp only [State.onDev_dev, State.onDev_sec, hdo]
      have hcore := core_updCore (s.dev.runWritten c value.toNat) c
      refine ⟨?_, ?_, fun b hb => ?_, (Dev.updCore_mem _ _ _).trans hmem, trivial⟩
      · rw [Dev.setLatch, hcore, if_pos rfl, core_congr hcores]
      · rw [Dev.setLatch, coreState_congr (Dev.updCore_regs _ _ _), Dev.coreState_runWritten]
      · rw [Dev.setLatch, hcore, if_neg hb, core_congr hcores]
  · intro init c value s f r cmds hr
    refine ⟨fun hold hnew h1 h2 => ?_, fun hsame h1 h2 => ?_, fun hsame h1 h2 => ?_⟩
    · exact congrArg (fun d => Host.Outcome.next (s.on d)) (Dev.coreCtlWr_starts hr hold hnew h1 h2)
    · exact congrArg (fun d => Host.Outcome.next (s.on d)) (Dev.coreCtlWr_keepsRun hr hsame.symm h1 h2)
    · exact congrArg (fun d => Host.Outcome.next (s.on d)) (Dev.coreCtlWr_keepsRun hr hsame.symm h1 h2)

end Sys2Proof.Machine

/-! SUPPORT. The host interface (R66-R82, R89, R410, R524, R531): doorbells, fetching, enabling and disabling of pairs, interrupts, the PCIe reset, and the
device's own commands. -/

namespace Sys2Proof.Machine

/-! ### Doorbells (R67, R68, R70) -/

theorem Dev.doorbell_taken {d : Dev} {init : Initiator} {q off value depth cmds : Nat} {f : Fld} (hr : (d.busWr init off value).2 = .yes cmds)
    (h : (d.busWr init off value).1.rf f < depth) : d.doorbell init q off value depth f = ((d.busWr init off value).1, true) := by
  unfold Dev.doorbell
  dsimp only
  rw [hr]
  exact if_pos h
theorem Dev.doorbell_beyond {d : Dev} {init : Initiator} {q off value depth cmds : Nat} {f : Fld} (hr : (d.busWr init off value).2 = .yes cmds)
    (h : depth ≤ (d.busWr init off value).1.rf f) :
    d.doorbell init q off value depth f = (((d.busWr init off value).1.wf f (d.rf f)).bump (HIF_CQn_BADDB q), false) := by
  unfold Dev.doorbell
  dsimp only
  rw [hr]
  exact if_neg (Nat.not_lt.2 h)
theorem Dev.cqDoorbell_taken {d : Dev} {init : Initiator} {q value cmds : Nat} (hr : (d.busWr init (rHIF_CQn_CQ_HEAD q) value).2 = .yes cmds)
    (h : (d.busWr init (rHIF_CQn_CQ_HEAD q) value).1.rf (HIF_CQn_CQ_HEAD q) < d.cqDepth q) :
    let r := (d.busWr init (rHIF_CQn_CQ_HEAD q) value).1
    let n := (r.rf (HIF_CQn_CQ_HEAD q) + r.cqDepth q - d.rf (HIF_CQn_CQ_HEAD q)) % r.cqDepth q
    d.cqDoorbell init q value = (((r.updQp q fun x => { x with raised := false, posted := x.posted.drop n }).showFull q).countTrigger q).flush q := by
  simp only [Dev.cqDoorbell, Dev.doorbell_taken hr h, if_true]
theorem Dev.rf_lt (d : Dev) (f : Fld) : d.rf f < 2 ^ f.w := bitsAt_lt _ _ _

/-- Settles O27. -/
theorem doorbellRules : Obligations.DoorbellRules := by
  unfold Obligations.DoorbellRules
  constructor
  · intro init pair value s q r cmds hr
    refine ⟨fun h => ?_, fun h => ⟨_, congrArg (fun d => Host.Outcome.next (s.on d)) (congrArg Prod.fst (Dev.doorbell_beyond (q := q) hr h)), ?_, ?_⟩⟩
    · exact congrArg (fun d => Host.Outcome.next (s.on d)) (congrArg Prod.fst (Dev.doorbell_taken (q := q) hr h))
    · dsimp only [State.on_dev]
      rw [Dev.rf_bump_other _ _ _ (by dsimp only [rHIF_CQn_SQ_TAIL, rHIF_CQn_BADDB]; omega), Dev.rf_wf_same _ _ _ (by dsimp only; omega)]
      exact Nat.mod_eq_of_lt (s.dev.rf_lt _)
    · dsimp only [State.on_dev]
      rw [Dev.rf_bump_same _ _ (by dsimp only; omega), Dev.rf_wf_other _ _ _ _ (by dsimp only [rHIF_CQn_SQ_TAIL, rHIF_CQn_BADDB]; omega)]
  · intro init pair value s q r n cmds hr h
    exact congrArg (fun d => Host.Outcome.next (s.on d)) (Dev.cqDoorbell_taken hr h)

/-! ### Fetching; enabling and disabling a pair (R66, R67, R71, R74) -/

theorem Dev.mirrors_pastEntry (d : Dev) (q : Fin 16) : (d.pastEntry q).mirrors = d.mirrors := by
  unfold Dev.mirrors Dev.pastEntry
  rw [Dev.rf_wf_other, Dev.rf_wf_other]
  all_goals
    dsimp only [rMGT_TWIN_STS, rHIF_CQn_SQ_HEAD]
    omega
theorem Dev.takeEntry_refused {d : Dev} {q : Fin 16} {entry : List Byte} {st : Nat} (hm : d.mirrors = false) (hst : Sys2Proof.Machine.entryRefusal entry = some st) :
    d.takeEntry q entry = d.updQp q fun x =>
      { x with running := x.running ++ [⟨(parseCmd q entry).1, opRefused, true, 0, false, 0, false, false, some ⟨st, []⟩, false⟩] } := by
  unfold Dev.takeEntry
  dsimp only
  rw [hst, hm]
  rfl

section
variable {d : Dev} {init : Initiator} {q value cmds : Nat} (hr : (d.busWr init (rHIF_CQn_CTL q) value).2 = .yes cmds)
include hr
theorem Dev.pairCtlWr_enables (hold : d.flag (HIF_CQn_CTL_ENABLE q) = false)
    (hnew : (d.busWr init (rHIF_CQn_CTL q) value).1.flag (HIF_CQn_CTL_ENABLE q) = true) :
    let r := (d.busWr init (rHIF_CQn_CTL q) value).1
    d.pairCtlWr init q value = if r.ringsOk q then (if (r.qp q).stopping then r else (r.pairStart q).flush q)
      else (r.setFlag (HIF_CQn_CTL_ENABLE q) false).regErr .ignored (rHIF_CQn_CTL q) init := by
  simp only [Dev.pairCtlWr, hr, hold, hnew, beq_iff_eq, reduceCtorEq, if_true, if_false]
theorem Dev.pairCtlWr_disables (hold : d.flag (HIF_CQn_CTL_ENABLE q) = true)
    (hnew : (d.busWr init (rHIF_CQn_CTL q) value).1.flag (HIF_CQn_CTL_ENABLE q) = false) :
    d.pairCtlWr init q value = (d.busWr init (rHIF_CQn_CTL q) value).1.pairStop q := by
  simp only [Dev.pairCtlWr, hr, hold, hnew, beq_iff_eq, reduceCtorEq, if_true, if_false]
end

/-- Settles O28. -/
theorem fetchAndEnableRules : Obligations.FetchAndEnableRules := by
  unfold Obligations.FetchAndEnableRules
  constructor
  · intro q entry single s hentry hm hroom hadopt hturn
    refine ⟨?_, fun st hst => Dev.takeEntry_refused ((s.dev.mirrors_pastEntry q).trans hm) hst⟩
    refine congrArg (fun d => Host.Outcome.next (s.on d)) (?_ : s.dev.commandFetch q entry single = _)
    unfold Dev.commandFetch
    dsimp only
    rw [if_pos, hm]
    · rfl
    · simp only [hentry, hadopt, hturn, Option.isNone_none, Bool.and_true, Bool.true_and]
      exact decide_eq_true hroom
  · intro init pair value s q f r cmds hr
    refine ⟨fun hold hnew hrings => ?_, fun hold hnew hrings => ?_, fun hold hnew => ?_⟩
    · exact congrArg (fun d => Host.Outcome.next (s.on d)) ((Dev.pairCtlWr_enables hr hold hnew).trans (if_pos hrings))
    · exact congrArg (fun d => Host.Outcome.next (s.on d)) ((Dev.pairCtlWr_enables hr hold hnew).trans (if_neg (by simp [show (r.1.ringsOk q) = false from hrings, r])))
    · exact congrArg (fun d => Host.Outcome.next (s.on d)) (Dev.pairCtlWr_disables hr hold hnew)

/-! ### Interrupts, the backlog, held results, the PCIe reset (R70, R81, R89, R410) -/

theorem Dev.rest_pairStop (d : Dev) (q : Nat) : (d.pairStop q).rest = d.rest := by
  unfold Dev.pairStop
  extract_lets n d1
  have h1 : d1.rest = d.rest := (Dev.rest_updQp _ _ _).trans (Dev.rest_setFlag _ _ _)
  rw [Dev.rest_settleStop]
  split
  · exact (Dev.rest_bumpBy _ _ _).trans h1
  · exact h1
theorem Dev.rest_pairReset (d : Dev) (q : Nat) : (d.pairReset q).rest = d.rest := by
  unfold Dev.pairReset
  split
  · exact (Dev.rest_pairStop _ _).trans (Dev.rest_updQp _ _ _)
  · rfl
theorem Dev.pcieReset_keeps (d : Dev) : d.pcieReset.hif.closed = true ∧ d.pcieReset.hif.msix = [] ∧ d.pcieReset.mem = d.mem := by
  unfold Dev.pcieReset
  dsimp only
  obtain ⟨-, -, -, -, -, -, -, -, -, hmem, -⟩ := Dev.rest_fields
    (Dev.rest_foldl (fun (d : Dev) i => d.pairReset (pairIx i)) (fun d i => d.rest_pairReset _) (upTo 80) d)
  exact ⟨rfl, rfl, hmem⟩

theorem Dev.hostWrite_closed {d : Dev} (h : d.hif.closed = true) (a : Nat) (bs : List Byte) : d.hostWrite a bs = d := if_pos h
theorem Dev.hostMem_wf (d : Dev) (f : Fld) (v : Nat) : (d.wf f v).hif.mem = d.hif.mem := rfl
theorem Dev.hostMem_updQp (d : Dev) (q : Nat) (f : QPair → QPair) : (d.updQp q f).hif.mem = d.hif.mem := rfl
theorem Dev.hostMem_raiseVector (d : Dev) (q : Nat) : (d.raiseVector q).hif.mem = d.hif.mem := by
  unfold Dev.raiseVector
  split <;> rfl
theorem Dev.hostMem_countTrigger (d : Dev) (q : Nat) : (d.countTrigger q).hif.mem = d.hif.mem := by
  unfold Dev.countTrigger
  dsimp only
  split
  · exact d.hostMem_raiseVector q
  · rfl
theorem Dev.hostMem_postEntry_closed {d : Dev} (h : d.hif.closed = true) (q tag st b6 fl : Nat) (body : List Nat) (ev : Bool) :
    (d.postEntry q tag st b6 fl body ev).hif.mem = d.hif.mem := by
  unfold Dev.postEntry
  dsimp only
  split
  · rfl
  · rw [Dev.hostWrite_closed h, Dev.hostMem_countTrigger, Dev.showFull, Dev.setFlag, Dev.hostMem_wf, Dev.hostMem_updQp, Dev.hostMem_wf]

/-- Settles O29. -/
theorem hostInterfaceEvents : Obligations.HostInterfaceEvents := by
  unfold Obligations.HostInterfaceEvents
  refine ⟨fun s => ⟨fun pair t0 b l hposted ht hraised => ?_, fun e l hb hserves hout hfree hon => ?_, fun m c l hheld hfree => ?_, fun hon => ?_⟩,
    fun d a q tag bs c dup h => ⟨Dev.hostWrite_closed h a bs, Dev.hostMem_postEntry_closed h _ _ _ _ _ _ _⟩⟩
  · refine congrArg Host.Outcome.next ?_
    unfold State.onDev State.on
    dsimp only
    rw [hposted]
    dsimp only
    rw [if_neg (by rw [hraised]; simpa using ht)]
  · refine congrArg Host.Outcome.next ?_
    unfold State.onDev State.on
    dsimp only
    rw [hb]
    dsimp only
    rw [if_pos (by rw [hserves, hon, decide_eq_true hout, decide_eq_true hfree]; rfl)]
  · refine congrArg Host.Outcome.next ?_
    unfold State.onDev State.on
    dsimp only
    rw [hheld]
    dsimp only
    rw [if_pos hfree]
  · obtain ⟨hclosed, hmsix, hmem⟩ := s.dev.pcieReset_keeps
    refine ⟨_, rfl, ?_⟩
    simp only [State.onDev_dev, State.onDev_sec, if_pos hon]
    exact ⟨hclosed, hmsix, trivial, hmem⟩

/-! ### Commands in order (R30, R74) -/

/-- Settles O31. -/
theorem commandRowsActInOrder : Obligations.CommandRowsActInOrder := by
  unfold Obligations.CommandRowsActInOrder
  intro c s op f
  refine ⟨fun h => ?_, fun r hnext hop hcmd hrole hrefuse => ?_⟩
  · refine congrArg (fun d => Host.Outcome.next (s.on d)) (?_ : s.dev.pqDo op c f = s.dev)
    unfold Dev.pqDo
    split
    · rfl
    · next r hr => exact if_neg (h r hr)
  · refine congrArg (fun d => Host.Outcome.next (s.on d)) (?_ : s.dev.pqDo op c f = _)
    unfold Dev.pqDo
    rw [hnext]
    dsimp only
    rw [if_pos ⟨hop, hcmd⟩, if_pos (by rw [hrole, hrefuse]; rfl)]

/-! ### Device commands (R82, R524, R531) -/

theorem Dev.fw_restart_same {d : Dev} {r : Nat × Nat} (h : d.fw.restart = some r) : { d with fw.restart := some r } = d := by
  rw [← h]

/-- Settles O30. -/
theorem deviceCommands : Obligations.DeviceCommands := by
  unfold Obligations.DeviceCommands
  intro c s d
  refine ⟨fun hr => pq_ready hr _, fun hr hk hnone => (pq_ready hr _).trans ?_, fun r hr hk hsome => (pq_ready hr _).trans ?_, fun hr hob => ?_,
    fun hr hq hkind hlast hcount => (pq_ready hr _).trans ?_, fun hr h0 => (pq_ready hr _).trans ?_, fun hr hmask => (pq_ready hr _).trans ?_,
    fun hr => pq_ready hr _⟩
  · rw [checks_pass _ _ _ _ _ _ (decide_eq_false (by omega)), checks_nil, show (s.began c).fw.restart = none from hnone]
  · rw [checks_pass _ _ _ _ _ _ (decide_eq_false (by omega)), checks_nil, show (s.began c).fw.restart = some r from hsome]
    exact congrArg (fun x => Host.Outcome.next (s.on (Dev.fin x c okS))) (Dev.fw_restart_same hsome)
  · refine (pq_ready hr _).trans ?_
    dsimp only
    rw [checks_pass, checks_nil]
    rcases hob with h | h
    · rw [h]
      rfl
    · rw [show (s.began c).obOk _ _ = true from h]
      exact Bool.and_false _
  · rw [checks_pass _ _ _ _ _ _ (beq_eq_false_iff_ne.2 (by omega)), checks_pass, checks_nil]
    simp only [Bool.or_eq_false_iff, decide_eq_false_iff_not]
    omega
  · rw [checks_fail _ _ _ _ _ _ (beq_iff_eq.2 h0)]
  · rw [checks_pass _ _ _ _ _ _ (decide_eq_false (by omega)), checks_nil]

end Sys2Proof.Machine

/-! SUPPORT. Period plans and weight sets (R20, R22, R82, R83, R218, R487), and the user plane's entries and results (R67, R86-R89). -/

namespace Sys2Proof.Machine

theorem next_on {s : State} {a b : Dev} (h : a = b) : (.next (s.on a) : Res) = .next (s.on b) := congrArg (fun d => Host.Outcome.next (s.on d)) h

/-! ### PLAN_POST, PLAN_CANCEL (R83) -/

section
variable {s : State} {c : PqCmd} (hr : s.ready 0x0301 c = true)
include hr
theorem planPost_badParam (recs : List Byte) (h : (s.began c).badTarget c = true) :
    exec (.planPost c recs) s = .next (s.on <| (s.began c).fin c badParam) := by
  refine (pq_ready hr _).trans ?_
  unfold Dev.planPost
  rw [checks_fail _ _ _ _ _ _ (by rw [h]; rfl)]
theorem planPost_checked (recs : List Byte) (h : (s.began c).badTarget c = false)
    (hob : pp c 2 = 0 ∨ (s.began c).obOk (pAddr c 0) (32 * pp c 2) = true) :
    exec (.planPost c recs) s = .next (s.on <| (s.began c).checks c [((s.began c).fetchedLate c, deadlineDropped)] fun d =>
      if pp c 2 = 0 then d.finR c [0, 0, 2 ^ 32 - 1, 0]
      else if d.hif.closed then d.internal c
      else
        let p := (d.plan c.timeline.toNat c.target.toNat).getD ⟨c.timeline.toNat, c.target.toNat, [], [], false, []⟩
        let x := d.takeRecs c.timeline.toNat recs (upTo (pp c 2)) p.recs 0 0 (2 ^ 32 - 1)
        d.setPlan { p with recs := x.1, posts := p.posts ++ [⟨c.queue.val, c.tag.toNat, x.2.1, x.2.2.1, x.2.2.2⟩] }) := by
  refine (pq_ready hr _).trans ?_
  unfold Dev.planPost
  dsimp only
  rw [checks_pass _ _ _ _ _ _ (by rcases hob with h0 | h0 <;> simp [h, h0])]
end

/-- A plan of no posts waiting for its graph, cancelled or not. -/
theorem planCancel_answers {s : State} {c : PqCmd} (hr : s.ready 0x0302 c = true) (h : (s.began c).badTarget c = false) :
    exec (.planCancel c) s = .next (s.on <| match (s.began c).plan c.timeline.toNat c.target.toNat with
      | none => (s.began c).finR c [0]
      | some q => if q.built then (s.began c).fin c busyS else ((s.began c).setPlan { q with recs := [] }).finR c [q.recs.length]) := by
  refine (pq_ready hr _).trans ?_
  dsimp only
  rw [checks_pass _ _ _ _ _ _ h]
  cases (s.began c).plan c.timeline.toNat c.target.toNat with
  | none => exact congrArg (fun d => Host.Outcome.next (s.on d)) (checks_pass _ _ _ _ _ _ rfl)
  | some q =>
    dsimp only [Option.map_some, Option.getD_some]
    by_cases hb : q.built = true
    · rw [checks_fail _ _ _ _ _ _ hb, if_pos hb]
    · rw [checks_pass _ _ _ _ _ _ (Bool.eq_false_iff.2 hb), checks_nil, if_neg hb]

/-! ### The seal (R22, R218, R487) -/

/-- What firmware makes of the graphs it builds for a plan. -/
def Dev.placeGraphs (ds : Dev) (p : Plan) (graphs : List (List Byte)) : Dev × Nat × Bool :=
  graphs.foldl (fun a g =>
    let g1 := ds.fillGraph (ds.grants p) g
    let y := a.1.admitGraph false g1
    (y.1, if y.2 then a.2.1 + leAt g1 0 2 else a.2.1, a.2.2 || !y.2)) (ds, 0, false)
theorem Dev.placeGraphs_one (ds : Dev) (p : Plan) (g : List Byte) : ds.placeGraphs p [g] =
    let y := ds.admitGraph false (ds.fillGraph (ds.grants p) g)
    (y.1, if y.2 then leAt (ds.fillGraph (ds.grants p) g) 0 2 else 0, !y.2) := by
  unfold Dev.placeGraphs
  simp only [List.foldl_cons, List.foldl_nil, Nat.zero_add, Bool.false_or]

/-- The device once a plan is sealed, with its soft buffers taken. -/
def Dev.sealedPlan (d : Dev) (p : Plan) : Dev :=
  let ds0 := p.recs.foldl Dev.softFor (d.setPlan { p with built := true, posts := [] })
  ds0.setPlan { p with built := true, posts := [], bare := (p.recs.filter ds0.noSoft).map (·.alloc) }
/-- Every post of a plan is answered by how its graphs were placed. -/
def Plan.answer (p : Plan) (r : Dev × Nat × Bool) : Dev :=
  p.posts.foldl (fun d x => if r.2.2 then d.complete x.queue x.tag internalS []
    else d.complete x.queue x.tag okS [x.accepted, x.refused, x.first, r.2.1]) r.1

section
variable {d : Dev} {n air : Nat} {p : Plan} (hplan : d.plan n air = some p) (hb : p.built = false) (ha : ahead (d.refK n) air ≤ 2)
  (hw : d.postWaits n air = false)
include hplan hb ha hw
theorem Dev.graphBuild_off (hoff : d.flag WDS_CTL_ENABLE = false) (graphs : List (List Byte)) : d.graphBuild n air graphs =
    p.posts.foldl (fun d x => d.complete x.queue x.tag busyS [0, x.refused, x.first, 0]) (d.setPlan { p with built := true, posts := [] }) := by
  unfold Dev.graphBuild
  rw [hplan]
  dsimp only
  rw [hb, hw, decide_eq_true ha, if_neg (by decide), hoff, if_pos (by decide)]
theorem Dev.graphBuild_on (hon : d.flag WDS_CTL_ENABLE = true) (graphs : List (List Byte)) : d.graphBuild n air graphs =
    let r := (d.sealedPlan p).placeGraphs p ((if d.rf MGT_TWIN_STS_ROLE = 2 then [] else graphs).filter (graphFor n air))
    if r.2.2 then (p.answer r).health 4 7 (n + 256 * air) else p.answer r := by
  unfold Dev.graphBuild
  rw [hplan]
  dsimp only
  rw [hb, hw, decide_eq_true ha, if_neg (by decide), hon, if_neg (by decide)]
  rfl
theorem Dev.graphBuild_standby (hrole : d.rf MGT_TWIN_STS_ROLE = 2) (graphs : List (List Byte)) :
    d.graphBuild n air graphs = d.graphBuild n air [] := by
  by_cases hon : d.flag WDS_CTL_ENABLE = true
  · rw [Dev.graphBuild_on hplan hb ha hw hon, Dev.graphBuild_on hplan hb ha hw hon, if_pos hrole, ite_self]
  · have hoff := Bool.eq_false_iff.2 hon
    rw [Dev.graphBuild_off hplan hb ha hw hoff, Dev.graphBuild_off hplan hb ha hw hoff]
theorem Dev.graphBuild_none (hon : d.flag WDS_CTL_ENABLE = true) : d.graphBuild n air [] =
    p.posts.foldl (fun d x => d.complete x.queue x.tag okS [x.accepted, x.refused, x.first, 0]) (d.sealedPlan p) := by
  rw [Dev.graphBuild_on hplan hb ha hw hon, ite_self, List.filter_nil]
  dsimp only [Dev.placeGraphs, List.foldl_nil, Plan.answer]
  simp only [Bool.false_eq_true, if_false]
theorem Dev.graphBuild_one (hon : d.flag WDS_CTL_ENABLE = true) (hrole : d.rf MGT_TWIN_STS_ROLE ≠ 2) {g : List Byte}
    (hg : graphFor n air g = true) :
    let ds := d.sealedPlan p
    let y := ds.admitGraph false (ds.fillGraph (ds.grants p) g)
    d.graphBuild n air [g] = if y.2 then p.posts.foldl (fun d x =>
        d.complete x.queue x.tag okS [x.accepted, x.refused, x.first, leAt (ds.fillGraph (ds.grants p) g) 0 2]) y.1
      else (p.posts.foldl (fun d x => d.complete x.queue x.tag internalS []) y.1).health 4 7 (n + 256 * air) := by
  intro ds y
  rw [Dev.graphBuild_on hplan hb ha hw hon, if_neg hrole, List.filter_cons_of_pos hg, List.filter_nil, Dev.placeGraphs_one]
  unfold Plan.answer
  cases hy : y.2 <;> simp only [y, ds] at hy <;> simp only [hy, Bool.not_true, Bool.not_false, Bool.false_eq_true, if_true, if_false, y, ds]
end

/-- Settles O32. -/
theorem planAndWeightCommands : Obligations.PlanAndWeightCommands := by
  unfold Obligations.PlanAndWeightCommands
  refine ⟨?_, ?_, ?_⟩
  · intro c recs s d n air p x
    refine ⟨fun hr ht hn hob hl hc => (planPost_checked hr recs ht (.inr hob)).trans ?_,
      fun hr ht hn hob hl => (planPost_checked hr recs ht (.inr hob)).trans ?_,
      fun hr ht hn hl => (planPost_checked hr recs ht (.inl hn)).trans ?_, fun hr ht => planPost_badParam hr recs ht, fun hr ht => ?_,
      fun hr ht => ⟨fun hplan => (planCancel_answers hr ht).trans ?_, fun q hplan => ⟨fun hb => (planCancel_answers hr ht).trans ?_,
        fun hb => (planCancel_answers hr ht).trans ?_⟩⟩⟩
    · rw [checks_pass _ _ _ _ _ _ hl, checks_nil, if_neg (by omega), if_neg (Bool.eq_false_iff.1 hc)]
    · rw [checks_fail _ _ _ _ _ _ hl]
    · rw [checks_pass _ _ _ _ _ _ hl, checks_nil, if_pos hn]
    · exact (pq_ready hr _).trans (congrArg (fun d => Host.Outcome.next (s.on d)) (checks_fail _ _ _ _ _ _ ht))
    · rw [hplan]
    · rw [hplan]
      dsimp only
      rw [if_pos hb]
    · rw [hplan]
      dsimp only
      rw [if_neg (Bool.eq_false_iff.1 hb)]
  · intro c data s d len
    refine ⟨fun d1 f hr hh h0 hlen hob hdom hfree hnamed hc halloc => ?_, fun f hr hf hnamed => (pq_ready hr _).trans ?_⟩
    · intro a w hw
      refine (pq_ready hr _).trans ?_
      unfold Dev.weightsLoad
      dsimp only
      rw [checks_pass, checks_pass _ _ _ _ _ _ hdom, checks_pass, checks_nil, if_neg (Bool.eq_false_iff.1 hc), halloc]
      · exact congrArg (fun d => Host.Outcome.next (s.on d)) (if_pos hw)
      · rw [show Tab.find (s.began c).fw.weights (pp c 3) = none from hfree, show (s.began c).weightNamed (pp c 3) = false from hnamed]
        rfl
      · rw [show (s.began c).obOk (pAddr c 0) (pp c 2) = true from hob, decide_eq_false (by omega), decide_eq_false (by omega)]
        simpa using Nat.ne_of_gt h0
    · dsimp only
      rw [checks_pass _ _ _ _ _ _ (by rw [show Tab.find (s.began c).fw.weights (pp c 0) = some f from hf]; rfl), checks_pass _ _ _ _ _ _ hnamed,
        checks_nil, show Tab.find (s.began c).fw.weights (pp c 0) = some f from hf]
      rfl
  · intro n air s p hplan hb ha hw d0 ds0 ds
    refine ⟨fun hoff graphs => next_on (Dev.graphBuild_off hplan hb ha hw hoff graphs), fun hon => next_on (Dev.graphBuild_none hplan hb ha hw hon),
      fun hrole graphs => next_on (Dev.graphBuild_standby hplan hb ha hw hrole graphs), fun hon hrole g hg => ?_⟩
    intro y
    refine ⟨fun hy => ?_, fun hy => ?_⟩
    · exact next_on ((Dev.graphBuild_one hplan hb ha hw hon hrole hg).trans (if_pos hy))
    · exact next_on ((Dev.graphBuild_one hplan hb ha hw hon hrole hg).trans (if_neg (Bool.eq_false_iff.1 hy)))

/-! ### User-plane entries and results (R67, R86-R89) -/

section
variable {d : Dev} {m : Nat} {e : List Byte} (hentry : d.hasUpEntry m = true) (hturn : myTurn 64 d.hif.rrUp m d.hasUpEntry = true)
include hentry hturn
theorem Dev.upFetch_own {kind : Nat} (hk : leAt e 0 1 = kind) (f : Dev → Dev) :
    d.upFetch m kind e f = f { d.pastEntry (64 + m) with hif.rrUp := (m + 1) % 64 } := by
  unfold Dev.upFetch
  rw [hentry, hturn, if_neg (by decide)]
  exact if_pos hk
theorem Dev.upFetch_unknown {kind : Nat} (hkind : 1 ≤ kind ∧ kind ≤ 3) (hk : leAt e 0 1 = 0 ∨ 3 < leAt e 0 1) (f : Dev → Dev) : d.upFetch m kind e f =
    ({ d.pastEntry (64 + m) with hif.rrUp := (m + 1) % 64 } : Dev).up m (leAt e 2 2) badParam 0x87 0 (upBody [(8, 1, leAt e 0 1)]) := by
  unfold Dev.upFetch
  rw [hentry, hturn, if_neg (by decide), if_neg (by omega), if_neg (by omega)]
theorem Dev.dlTb_unknown (hk : leAt e 0 1 = 0 ∨ 3 < leAt e 0 1) (data : List Byte) (dst : Nat) : d.dlTb m e data dst =
    ({ d.pastEntry (64 + m) with hif.rrUp := (m + 1) % 64 } : Dev).up m (leAt e 2 2) badParam 0x87 0 (upBody [(8, 1, leAt e 0 1)]) := by
  unfold Dev.dlTb
  exact Dev.upFetch_unknown hentry hturn (by decide) hk _
theorem Dev.ulBuf_good (hk : leAt e 0 1 = 2) (hbad : upBad e = false) (h1 : leAt e 1 1 = 0) (h4 : leAt e 4 2 = 0xFFFF) (h6 : leAt e 6 2 = 0) :
    let d1 : Dev := { d.pastEntry (64 + m) with hif.rrUp := (m + 1) % 64 }
    d.ulBuf m e = if leAt e 16 4 = 0 then d1.up m (leAt e 2 2) okS 0x85 0 (upBody [(8, 4, leAt e 16 4)])
      else if !d1.obOk (leAt e 8 8) (leAt e 16 4) then d1.up m (leAt e 2 2) badParam 0x85 0 (upBody [(8, 4, leAt e 16 4)])
      else d1.updQp (64 + m) fun x => { x with ulbufs := x.ulbufs ++ [⟨leAt e 2 2, leAt e 8 8, leAt e 16 4⟩] } := by
  unfold Dev.ulBuf
  dsimp only
  rw [Dev.upFetch_own hentry hturn hk, hbad, h1, h4, h6]
  exact if_neg (by decide)
theorem Dev.dlTb_good {data : List Byte} {dst : Nat} {r : PlanRec} (hk : leAt e 0 1 = 1)
    (hrec : ({ d.pastEntry (64 + m) with hif.rrUp := (m + 1) % 64 } : Dev).planRec (leAt e 20 1 % 4) (leAt e 6 2) (leAt e 4 2) = some r)
    (hbad : upBad e = false) (hcc : r.cc = leAt e 1 1) (hdir : r.dir = 0) (hlen : leAt e 16 4 = ceilDiv r.tbs 8)
    (hob : ({ d.pastEntry (64 + m) with hif.rrUp := (m + 1) % 64 } : Dev).obOk (leAt e 8 8) (leAt e 16 4) = true)
    (hmask : ({ d.pastEntry (64 + m) with hif.rrUp := (m + 1) % 64 } : Dev).marrow.cfg.mask = 0) :
    let w := (({ d.pastEntry (64 + m) with hif.rrUp := (m + 1) % 64 } : Dev).busWrite 17 (some (leAt e 20 1 % 4, (leAt e 6 2 + 65535) % 65536)) dst
      ((upTo (leAt e 16 4)).map fun i => nth 0 data i)).1
    d.dlTb m e data dst = { w with hif.landing := w.hif.landing ++ [(leAt e 20 1 % 4, (leAt e 6 2 + 65535) % 65536, leAt e 4 2)] }.up m (leAt e 2 2)
      okS 0x81 0 (upBody [(8, 2, leAt e 4 2), (10, 2, leAt e 6 2), (12, 1, leAt e 1 1)]) := by
  unfold Dev.dlTb
  dsimp only
  rw [Dev.upFetch_own hentry hturn hk, hrec]
  dsimp only
  rw [if_neg (by simp [hbad, hcc, hdir, ← hlen, hob]), hmask]
  rfl
end

theorem Dev.ulTb_reported {d : Dev} {n air alloc : Nat} {r : PlanRec} (hrec : d.planRec n air alloc = some r) (hdir : r.dir = 1)
    (hrep : d.wds.reported.contains ⟨n, (air + 1) % 65536, 1, r.cc, alloc⟩ = false) (crcOk : Bool) (iters cbs fails : Nat) (data : List Byte) :
    let len := ceilDiv r.tbs 8
    let body (n1 : Nat) := upBody [(8, 2, alloc), (10, 2, air), (12, 1, r.cc), (13, 1, n), (14, 1, r.harq), (15, 1, iters), (16, 4, n1),
      (20, 2, cbs), (22, 2, fails)]
    let fl := 2 * b2n crcOk + 8 * b2n (d.bareAlloc n air alloc)
    d.ulTb n air alloc crcOk iters cbs fails data = match takeBuf (d.qp (64 + r.upq)).ulbufs len with
      | some (b, rest) =>
        if d.upRoom r.upq then ((d.updQp (64 + r.upq) fun x => { x with ulbufs := rest }).hostWrite b.addr ((upTo len).map fun i => nth 0 data i)).up r.upq b.tag
          okS 0x82 fl (body len) ((upTo len).map fun i => nth 0 data i)
        else d.up r.upq b.tag okS 0x82 fl (body 0)
      | none => (if d.upRoom r.upq then d.bump (HIF_UPQm_OVERFLOW r.upq) else d).up r.upq 0xFFFF okS 0x82 (fl + 4) (body 0) := by
  unfold Dev.ulTb
  rw [hrec]
  exact if_neg (not_or.2 ⟨not_not_intro hdir, Bool.eq_false_iff.1 hrep⟩)

/-- Settles O34. -/
theorem userPlaneRules : Obligations.UserPlaneRules := by
  unfold Obligations.UserPlaneRules
  refine ⟨?_, ?_⟩
  · intro m entry data dst s d1
    refine ⟨fun hentry hturn => ⟨fun hk hbad h1 h4 h6 h0 hob => ?_, fun hk hbad h1 h4 h6 h0 => ?_, fun hk => ?_, fun r hk hrec hbad hcc hdir hlen hob hmask => ?_⟩,
      fun n job alloc l h => ?_⟩
    · refine next_on ((Dev.ulBuf_good hentry hturn hk hbad h1 h4 h6).trans ?_)
      rw [if_neg h0, if_neg (by rw [show Dev.obOk _ (leAt entry 8 8) (leAt entry 16 4) = true from hob]; decide)]
    · refine next_on ((Dev.ulBuf_good hentry hturn hk hbad h1 h4 h6).trans ?_)
      rw [if_pos h0, h0]
    · exact next_on (Dev.dlTb_unknown hentry hturn hk data dst.toNat)
    · exact ⟨_, rfl, _, rfl, congrArg s.on (Dev.dlTb_good hentry hturn hk hrec hbad hcc hdir hlen hob hmask)⟩
    · refine next_on (?_ : (match s.dev.hif.landing with | [] => s.dev | (n, job, alloc) :: t => { s.dev with hif.landing := t }.raiseEvent n job alloc) = _)
      rw [h]
  · intro n air alloc crcOk iters cbs fails data s r hrec hdir hrep len fl body
    have hrun := Dev.ulTb_reported hrec hdir hrep crcOk iters.toNat cbs.toNat fails.toNat data
    refine ⟨fun b rest hbuf => ⟨fun hroom => next_on (hrun.trans ?_), fun hroom => next_on (hrun.trans ?_)⟩,
      fun hbuf => ⟨fun hroom => next_on (hrun.trans ?_), fun hroom => next_on (hrun.trans ?_)⟩⟩
    all_goals
      rw [show takeBuf (s.dev.qp (64 + r.upq)).ulbufs (ceilDiv r.tbs 8) = _ from hbuf]
      dsimp only
      simp only [hroom, Bool.false_eq_true, if_true, if_false, len, fl, body]

end Sys2Proof.Machine

/-! SUPPORT. What an access error and a register write touch, and the dispatcher's rows (R51, R93-R111, R483). -/

namespace Sys2Proof.Machine

/-! ### Access errors and register writes (R469, R475) -/

/-- A register that shows no access error. -/
def errFree (o : Nat) : Prop := o % 0x400000 < 0x3FFF00
/-- The device less its registers and the guard. -/
def Dev.offBus (d : Dev) : Dev := { d with regs := [], guardOpen := false }
theorem Dev.offBus_wf (d : Dev) (f : Fld) (v : Nat) : (d.wf f v).offBus = d.offBus := rfl
theorem Dev.offBus_setReg (d : Dev) (o v : Nat) : (d.setReg o v).offBus = d.offBus := rfl
theorem Dev.offBus_setGuard (d : Dev) (b : Bool) : (d.setGuard b).offBus = d.offBus := rfl
theorem Dev.offBus_bumpSat (d : Dev) (f : Fld) : (d.bumpSat f).offBus = d.offBus := by
  unfold Dev.bumpSat
  split <;> rfl
/-- An access error counts in one field and is shown in its block's registers. -/
theorem Dev.regErr_eq (d : Dev) (e : RegErr) (off : Nat) (init : Initiator) : ∃ f : Fld, ¬ errFree f.off ∧ d.regErr e off init =
    if !d.domOn (blockDomain (errBlock e off)) then d else
      let d2 := ((d.bumpSat f).wf (regErrAddr (errBlock e off)) (off % 2 ^ 28)).wf (regErrInfo (errBlock e off)) (e.kind + 16 * initCode init + 128 * initPod init)
      if (e = .narrow ∨ e = .align ∨ e = .hole) ∧ errBlock e off = 0x0E then d2.setGuard false else d2 := by
  have hcnt (b i : Nat) : ¬ errFree (regErrCnt b i).off := by
    unfold errFree
    dsimp only [regErrCnt]
    omega
  have hbus : ¬ errFree rMGT_BUS_ERR := by
    unfold errFree
    dsimp only [rMGT_BUS_ERR]
    omega
  unfold Dev.regErr
  cases e
  case domainOff | timeout => exact ⟨_, hbus, rfl⟩
  all_goals exact ⟨_, hcnt _ _, rfl⟩
theorem Dev.offBus_regErr (d : Dev) (e : RegErr) (off : Nat) (init : Initiator) : (d.regErr e off init).offBus = d.offBus := by
  obtain ⟨f, -, h⟩ := d.regErr_eq e off init
  rw [h]
  split
  · rfl
  · dsimp only
    split
    · rw [Dev.offBus_setGuard, Dev.offBus_wf, Dev.offBus_wf, Dev.offBus_bumpSat]
    · rw [Dev.offBus_wf, Dev.offBus_wf, Dev.offBus_bumpSat]
theorem Dev.offBus_busWr (d : Dev) (init : Initiator) (off value : Nat) : (d.busWr init off value).1.offBus = d.offBus := by
  unfold Dev.busWr
  split
  · exact d.offBus_regErr _ _ _
  · split
    · rfl
    · split
      · exact d.offBus_regErr _ _ _
      · split
        · exact d.offBus_setGuard _
        · split
          · exact d.offBus_regErr _ _ _
          · extract_lets a d1 d2
            have h1 : d1.offBus = d.offBus := d.offBus_setReg _ _
            have h2 : d2.offBus = d.offBus := by
              dsimp only [d2]
              split
              · exact (d1.offBus_regErr _ _ _).trans h1
              · exact h1
            dsimp only
            split
            · exact (d2.offBus_setGuard _).trans h2
            · exact h2
theorem Dev.cores_of_offBus {d e : Dev} (h : e.offBus = d.offBus) : e.cores = d.cores := congrArg (·.cores) h
theorem Dev.mem_of_offBus {d e : Dev} (h : e.offBus = d.offBus) : e.mem = d.mem := congrArg (·.mem) h

theorem Dev.reg_bumpSat_other (d : Dev) (f : Fld) {o : Nat} (h : o ≠ f.off) : (d.bumpSat f).reg o = d.reg o := by
  unfold Dev.bumpSat
  split
  · rfl
  · exact d.reg_wf_other f _ o h
theorem Dev.regs_setGuard (d : Dev) (b : Bool) : (d.setGuard b).regs = (d.setFlag (regErrGuard 0x0E) b).regs := rfl
theorem Dev.reg_setGuard (d : Dev) (b : Bool) {o : Nat} (h : o ≠ (regErrGuard 0x0E).off) : (d.setGuard b).reg o = d.reg o := by
  rw [Dev.reg_eq_of_regs (d.regs_setGuard b), Dev.setFlag, Dev.reg_wf_other _ _ _ _ h]
theorem Dev.reg_regErr (d : Dev) (e : RegErr) (off : Nat) (init : Initiator) {o : Nat} (h : errFree o) : (d.regErr e off init).reg o = d.reg o := by
  obtain ⟨f, hf, he⟩ := d.regErr_eq e off init
  unfold errFree at h hf
  have hinfo (b : Nat) : o ≠ (regErrInfo b).off := by
    dsimp only [regErrInfo]
    omega
  have haddr (b : Nat) : o ≠ (regErrAddr b).off := by
    dsimp only [regErrAddr]
    omega
  have hcnt : o ≠ f.off := fun heq => hf (by rw [← heq]; exact h)
  have h2 (x y : Nat) : (((d.bumpSat f).wf (regErrAddr (errBlock e off)) x).wf (regErrInfo (errBlock e off)) y).reg o = d.reg o :=
    ((Dev.reg_wf_other _ _ _ _ (hinfo _)).trans (Dev.reg_wf_other _ _ _ _ (haddr _))).trans (Dev.reg_bumpSat_other _ _ hcnt)
  rw [he]
  split
  · rfl
  · dsimp only
    split
    · rw [Dev.reg_setGuard _ _ (hinfo 0x0E), h2]
    · exact h2 _ _
theorem Dev.rf_regErr (d : Dev) (e : RegErr) (off : Nat) (init : Initiator) {f : Fld} (h : errFree f.off) : (d.regErr e off init).rf f = d.rf f := by
  unfold Dev.rf
  rw [d.reg_regErr e off init h]

/-! ### The dispatcher's own registers -/

theorem Dev.flow_setFlow (d : Dev) (f : Nat) (x : Flow) : (d.setFlow f x).flow f = x := Tab.getD_setD_self _ _ _ _
theorem Dev.flow_wdsSettle (d : Dev) (f : Nat) : d.wdsSettle.flow f = d.flow f := rfl
theorem Dev.refreshElig_eq (d : Dev) : ∃ w : Wds, w.flows = d.wds.flows ∧ w.hung = d.wds.hung ∧ d.refreshElig = { d with wds := w } :=
  ⟨d.refreshElig.wds, rfl, rfl, rfl⟩
theorem Dev.regs_refreshElig (d : Dev) : d.refreshElig.regs = d.regs := by
  obtain ⟨w, -, -, h⟩ := d.refreshElig_eq
  rw [h]
theorem Dev.rf_wdsSettle (d : Dev) {f : Fld} (h1 : f.off ≠ rWDS_STS) (h2 : f.off ≠ rWDS_SLOTS_FREE) : d.wdsSettle.rf f = d.rf f := by
  rw [Dev.wdsSettle, Dev.rf_congr (Dev.regs_refreshElig _)]
  unfold Dev.wdsShow
  rw [Dev.rf_wf_other _ _ _ _ h2, Dev.setFlag, Dev.rf_wf_other _ _ _ _ h1]
theorem Dev.rf_wds (d : Dev) (w : Wds) (f : Fld) : ({ d with wds := w } : Dev).rf f = d.rf f := Dev.rf_congr rfl f
theorem Dev.rf_wlog (d : Dev) (r : LogRec) {f : Fld} (h1 : f.off ≠ rWDS_STS) (h2 : f.off ≠ rWDS_LOG_LOST) : (d.wlog r).rf f = d.rf f := by
  unfold Dev.wlog
  extract_lets st r' add
  split
  · rfl
  · split
    · exact (Dev.rf_wds (d.bump WDS_LOG_LOST) _ f).trans (d.rf_bump_other _ _ h2)
    · exact (Dev.rf_wf_other _ _ _ _ h1).trans (Dev.rf_wds d _ f)

/-! ### Hand-out (R104, R105) -/

/-- What the core of a hand-out takes. -/
def Core.takes (k : Core) (slot : Nat) (j : Job) : Core := { ((k.setSN 0 (slot + 2 ^ 14 * j.desc.tl)).setSN 1 j.desc.period).adv with job := some slot }
theorem Core.takes_tent (k : Core) (slot : Nat) (j : Job) : (k.takes slot j).tent = k.tent := (Core.tent_adv _).trans rfl
theorem Core.takes_s (k : Core) (slot : Nat) (j : Job) : (k.takes slot j).s = ((k.setSN 0 (slot + 2 ^ 14 * j.desc.tl)).setSN 1 j.desc.period).s :=
  Core.adv_s _
theorem Dev.cpxTick_idle {d : Dev} {c : Nat} (h : (d.core c).tent = []) : d.cpxTick c = d := by
  unfold Dev.cpxTick
  rw [h]
  rfl

/-- Settles O37. -/
theorem handoutRule : Obligations.HandoutRule := by
  unfold Obligations.HandoutRule
  intro s slot c j hchoose hjob htent hc hslot htl hper
  obtain ⟨d5, hcores, hto⟩ := handTo_eq s.dev slot c j hjob
  have hto : s.dev.handTo slot c = (((d5.updCore c fun k => k.takes slot j).setCoreState c 1).cpxTick c).wdsSettle := hto
  have hcore (b : Nat) : ((d5.updCore c fun k => k.takes slot j).setCoreState c 1).core b = if b = c then (s.dev.core c).takes slot j else s.dev.core b := by
    rw [Dev.setCoreState, core_congr (Dev.wf_cores _ _ _), core_updCore, core_congr hcores, core_congr hcores]
  have hidle : (((d5.updCore c fun k => k.takes slot j).setCoreState c 1).core c).tent = [] := by
    rw [hcore, if_pos rfl, Core.takes_tent, htent]
  rw [Dev.cpxTick_idle hidle] at hto
  have hcoreT (b : Nat) : (s.dev.handTo slot c).core b = if b = c then (s.dev.core c).takes slot j else s.dev.core b := by
    rw [hto]
    exact (core_congr (Dev.offWds_fields (Dev.offWds_wdsSettle _)).2.2.2.2.2.2.1 b).trans (hcore b)
  refine ⟨?_, ?_, ?_, ?_, ?_, fun b hb => (hcoreT b).trans (if_neg hb)⟩
  · refine next_on (?_ : (match s.dev.choose with | some (slot, c) => s.dev.handTo slot c | none => s.dev) = _)
    rw [hchoose]
  · rw [hcoreT, if_pos rfl]
    rfl
  · rw [hcoreT, if_pos rfl, Core.getS, Core.takes_s]
    dsimp only [Core.setSN, Core.setS]
    rw [Tab.getD_setD, if_neg (by decide), Tab.getD_setD_self, BitVec.toNat_ofNat, Nat.mod_eq_of_lt (by omega)]
  · rw [hcoreT, if_pos rfl, Core.getS, Core.takes_s]
    dsimp only [Core.setSN, Core.setS]
    rw [Tab.getD_setD_self, BitVec.toNat_ofNat, Nat.mod_eq_of_lt (by omega)]
  · rw [hto]
    refine (Dev.rf_wdsSettle _ ?_ ?_).trans (coreState_setCoreState _ _ (by decide))
    all_goals
      dsimp only [coreStateF, POD_CORE_c_STS_STATE, rPOD_CORE_c_STS, rWDS_STS, rWDS_SLOTS_FREE]
      omega

end Sys2Proof.Machine

/-! SUPPORT. The dispatcher's other events and its registers (R51, R93-R111, R483). -/

namespace Sys2Proof.Machine

/-! ### TMU time moves on -/

/-- The device less TMU time and the registers. -/
def Dev.offTime (d : Dev) : Dev := { d with now := 0, cyc := 0, regs := [] }
theorem Dev.offTime_wf (d : Dev) (f : Fld) (v : Nat) : (d.wf f v).offTime = d.offTime := rfl
theorem Dev.offTime_clock (d : Dev) (n c : Nat) : ({ d with now := n, cyc := c } : Dev).offTime = d.offTime := rfl
theorem Dev.offTime_bankTick (d : Dev) : d.bankTick.offTime = d.offTime := by
  unfold Dev.bankTick
  split
  · exact (Dev.offTime_wf _ _ _).trans (Dev.offTime_wf _ _ _)
  · rfl
theorem Dev.offTime_ticks (d : Dev) (n : Nat) : (d.ticks n).offTime = d.offTime := by
  unfold Dev.ticks
  split
  · rfl
  · exact (Dev.offTime_clock _ _ _).trans d.offTime_bankTick
theorem Dev.offTime_advanceTo (d : Dev) (t : Nat) : (d.advanceTo t).offTime = d.offTime := by
  unfold Dev.advanceTo
  split
  · rfl
  · exact d.offTime_ticks _
theorem Dev.cores_of_offTime {d e : Dev} (h : e.offTime = d.offTime) : e.cores = d.cores := congrArg (·.cores) h
theorem Dev.tls_of_offTime {d e : Dev} (h : e.offTime = d.offTime) : e.tls = d.tls := congrArg (·.tls) h
theorem tl_congr {d e : Dev} (h : e.tls = d.tls) (n : Nat) : e.tl n = d.tl n := by unfold Dev.tl; rw [h]

/-! ### Releases (R99) -/

theorem Dev.podRelease_takes {d : Dev} {p n : Nat} (hst : (d.tl n).started = true) (hrel : (d.tl n).released.contains p = false)
    (hall : (upTo p).all (d.tl n).released.contains = true) : ∃ t : Dev,
      (∀ m, t.tl m = if m = n then { d.tl n with released := (d.tl n).released ++ [p] } else d.tl m) ∧ t.cores = d.cores ∧ d.podRelease p n = t := by
  refine ⟨_, ?_, ?_, if_pos (by rw [hst, hrel, hall]; rfl)⟩
  · intro m
    obtain ⟨-, -, -, htls, -⟩ := Dev.offWds_fields ((Dev.offWds_wdsSettle _).trans (Dev.offWds_logPod
      ((d.advanceTo (d.boundaryT n (d.tl n).k + p * 64 * 3125 * 2 ^ 32 / 4608)).setTl n { d.tl n with released := (d.tl n).released ++ [p] })
      0x05 0xFF 0 ((d.tl n).k % 65536) n))
    rw [tl_congr htls, Dev.tl_setTl, tl_congr (Dev.tls_of_offTime (d.offTime_advanceTo _))]
  · obtain ⟨-, -, -, -, -, -, hcores, -⟩ := Dev.offWds_fields ((Dev.offWds_wdsSettle _).trans (Dev.offWds_logPod
      ((d.advanceTo (d.boundaryT n (d.tl n).k + p * 64 * 3125 * 2 ^ 32 / 4608)).setTl n { d.tl n with released := (d.tl n).released ++ [p] })
      0x05 0xFF 0 ((d.tl n).k % 65536) n))
    exact hcores.trans ((Dev.setTl_cores _ _ _).trans (Dev.cores_of_offTime (d.offTime_advanceTo _)))

/-! ### Writes of the dispatcher's registers -/

/-- What a write that is taken leaves in the registers that show no access error. -/
theorem Dev.reg_busWr_yes {d : Dev} {init : Initiator} {off value cmds : Nat} {g : RegFam} {idx : List Nat} (hr : (d.busWr init off value).2 = .yes cmds)
    (hreg : regAt off = some (g, idx)) (hunlock : off ≠ rTHM_UNLOCK) {o : Nat} (ho : errFree o) : (d.busWr init off value).1.reg o =
      if o = off then (strobeArg off (d.reg off) (d.written g idx off value)).v % 2 ^ 32 else d.reg o := by
  have hguard : o ≠ (regErrGuard 0x0E).off := by
    unfold errFree at ho
    dsimp only [regErrGuard]
    omega
  revert hr
  unfold Dev.busWr
  split
  · exact fun hr => nomatch hr
  · rw [hreg]
    dsimp only
    split
    · exact fun hr => nomatch hr
    · split
      · exact fun hr => nomatch hr
      · intro _
        change Dev.reg (if (g.guarded && init != .group) = true then (if (strobeArg off (d.reg off) (d.written g idx off value)).ignored = true then
          (d.setReg off (strobeArg off (d.reg off) (d.written g idx off value)).v).regErr .ignored off init else
          d.setReg off (strobeArg off (d.reg off) (d.written g idx off value)).v).setGuard false else _) o = _
        rw [← Dev.reg_setReg]
        split
        · rw [Dev.reg_setGuard _ _ hguard]
          split
          · exact Dev.reg_regErr _ _ _ _ ho
          · rfl
        · split
          · exact Dev.reg_regErr _ _ _ _ ho
          · rfl

/-- A write whose field's value is not taken: the field stands, IGNORED_WRITE. -/
theorem Dev.vetoWr_yes {d : Dev} {init : Initiator} {off value cmds : Nat} {f : Fld} {bad : Nat → Bool} {g : RegFam} {idx : List Nat}
    (hr : (d.busWr init off value).2 = .yes cmds) (hreg : regAt off = some (g, idx)) :
    (d.vetoWr init off value f bad).1 =
      if bitsAt (writeMask g.wide value) f.lo f.w != 0 && bad ((d.busWr init off value).1.rf f) then
        ((d.busWr init off value).1.wf f (d.rf f)).regErr .ignored off init
      else (d.busWr init off value).1 := by
  unfold Dev.vetoWr
  dsimp only
  rw [hr, hreg]
  exact apply_ite Prod.fst _ _ _

def famWdsCtl : RegFam := ⟨"WDS_CTL", 0x0, [], false, false, .wds, .wds, [⟨0, 1, .ctl, 0, []⟩]⟩
theorem regAt_wdsCtl : regAt rWDS_CTL = some (famWdsCtl, []) := by decide +kernel

/-- A write of WDS_CTL whose mask selects nothing leaves ENABLE. -/
theorem Dev.busWr_wdsCtl_unselected {d : Dev} {init : Initiator} {value cmds : Nat} (hr : (d.busWr init rWDS_CTL value).2 = .yes cmds)
    (hm : bitsAt (writeMask false value) 0 1 = 0) : (d.busWr init rWDS_CTL value).1.rf WDS_CTL_ENABLE = d.rf WDS_CTL_ENABLE := by
  have hwritten : d.written famWdsCtl [] rWDS_CTL value = ⟨d.reg rWDS_CTL, false, 0⟩ := if_pos hm
  have hstrobe : strobeArg rWDS_CTL (d.reg rWDS_CTL) (d.written famWdsCtl [] rWDS_CTL value) = d.written famWdsCtl [] rWDS_CTL value :=
    if_neg fun h => absurd h.1 (by decide)
  unfold Dev.rf
  rw [Dev.reg_busWr_yes hr regAt_wdsCtl (by decide) (by unfold errFree; decide), if_pos rfl, hstrobe, hwritten, Nat.mod_eq_of_lt (d.reg_lt _)]

theorem Dev.offWds_unhang (d : Dev) (p : Nat) : (d.unhang p).offWds = d.offWds := rfl
theorem Dev.rf_unhang (d : Dev) (p : Nat) (f : Fld) : (d.unhang p).rf f = d.rf f := d.rf_wds _ f
/-- The mask a write leaves, with the bits hardware sets in the same cycle. -/
def Dev.maskWritten (d : Dev) (init : Initiator) (p value hw : Nat) : Dev :=
  let d1 := d.wf (WDS_PODn_CORES_CORE_MASK p) (d.rf (WDS_PODn_CORES_CORE_MASK p) ||| hw)
  if value / 2 ^ 16 &&& hw = 0 then d1 else d1.regErr .collide (rWDS_PODn_CORES p) init
theorem Dev.rf_maskWritten (d : Dev) (init : Initiator) {p hw : Nat} (value : Nat) (hp : p < 12) (hhw : hw < 2 ^ 9) :
    (d.maskWritten init p value hw).rf (WDS_PODn_CORES_CORE_MASK p) = d.rf (WDS_PODn_CORES_CORE_MASK p) ||| hw := by
  unfold Dev.maskWritten
  extract_lets d1
  have h1 : d1.rf (WDS_PODn_CORES_CORE_MASK p) = d.rf (WDS_PODn_CORES_CORE_MASK p) ||| hw :=
    (Dev.rf_wf_same _ _ _ (by dsimp only; omega)).trans (Nat.mod_eq_of_lt (Nat.or_lt_two_pow (Dev.rf_lt _ _) hhw))
  split
  · exact h1
  · refine (Dev.rf_regErr _ _ _ _ ?_).trans h1
    unfold errFree
    dsimp only [rWDS_PODn_CORES]
    omega
theorem Dev.offBus_maskWritten (d : Dev) (init : Initiator) (p value hw : Nat) : (d.maskWritten init p value hw).offBus = d.offBus := by
  unfold Dev.maskWritten
  dsimp only
  split
  · exact Dev.offBus_wf _ _ _
  · exact (Dev.offBus_regErr _ _ _ _).trans (Dev.offBus_wf _ _ _)
theorem Dev.coreMaskWr_eq {d : Dev} {init : Initiator} {p value hw cmds : Nat} (hr : (d.busWr init (rWDS_PODn_CORES p) value).2 = .yes cmds) :
    d.coreMaskWr init p value hw =
      let e := (d.busWr init (rWDS_PODn_CORES p) value).1.maskWritten init p value hw
      if e.rf (WDS_PODn_CORES_CORE_MASK p) = d.rf (WDS_PODn_CORES_CORE_MASK p) then e else ((e.logPod 0x06 0xFF 0 0 0).unhang p).wdsSettle := by
  unfold Dev.coreMaskWr
  dsimp only
  rw [hr]
  rfl
/-- A core-mask write: the bits hardware sets win. -/
theorem Dev.coreMaskWr_yes {d : Dev} {init : Initiator} {p value hw cmds : Nat} (hp : p < 12) (hhw : hw < 2 ^ 9)
    (hr : (d.busWr init (rWDS_PODn_CORES p) value).2 = .yes cmds) :
    (d.coreMaskWr init p value hw).rf (WDS_PODn_CORES_CORE_MASK p) = (d.busWr init (rWDS_PODn_CORES p) value).1.rf (WDS_PODn_CORES_CORE_MASK p) ||| hw ∧
    (d.coreMaskWr init p value hw).cores = d.cores ∧ (d.coreMaskWr init p value hw).mem = d.mem := by
  rw [Dev.coreMaskWr_eq hr]
  have hrf := Dev.rf_maskWritten (d.busWr init (rWDS_PODn_CORES p) value).1 init value hp hhw
  have hoff := ((d.busWr init (rWDS_PODn_CORES p) value).1.offBus_maskWritten init p value hw).trans (d.offBus_busWr _ _ _)
  generalize (d.busWr init (rWDS_PODn_CORES p) value).1.maskWritten init p value hw = e at hrf hoff
  dsimp only
  split
  · exact ⟨hrf, Dev.cores_of_offBus hoff, Dev.mem_of_offBus hoff⟩
  · obtain ⟨-, -, -, -, -, -, hcores, -, hmem, -⟩ := Dev.offWds_fields ((Dev.offWds_wdsSettle _).trans (((e.logPod 0x06 0xFF 0 0 0).offWds_unhang p).trans
      (Dev.offWds_logPod e 0x06 0xFF 0 0 0)))
    refine ⟨?_, hcores.trans (Dev.cores_of_offBus hoff), hmem.trans (Dev.mem_of_offBus hoff)⟩
    rw [Dev.rf_wdsSettle, Dev.rf_unhang, Dev.logPod, Dev.rf_wlog, hrf]
    all_goals
      dsimp only [rWDS_PODn_CORES, rWDS_STS, rWDS_SLOTS_FREE, rWDS_LOG_LOST]
      omega
/-- While a timeline is enabled, ENABLE of the dispatcher is not cleared. -/
theorem Dev.wdsEnable_stands {d : Dev} {init : Initiator} {value cmds : Nat} (hr : (d.busWr init rWDS_CTL value).2 = .yes cmds) (hany : d.anyTl = true) :
    (d.vetoWr init rWDS_CTL value WDS_CTL_ENABLE fun v => v == 0 && d.anyTl).1.flag WDS_CTL_ENABLE = true ∨ d.flag WDS_CTL_ENABLE = false := by
  rw [Dev.vetoWr_yes hr regAt_wdsCtl, hany]
  have hlt : (d.busWr init rWDS_CTL value).1.rf WDS_CTL_ENABLE < 2 ^ 1 := Dev.rf_lt _ _
  by_cases h1 : (d.busWr init rWDS_CTL value).1.rf WDS_CTL_ENABLE = 1
  · left
    rw [h1, if_neg (by simp)]
    exact beq_iff_eq.2 h1
  · have h0 : (d.busWr init rWDS_CTL value).1.rf WDS_CTL_ENABLE = 0 := by omega
    by_cases hm : bitsAt (writeMask false value) 0 1 = 0
    · right
      rw [Dev.flag, ← Dev.busWr_wdsCtl_unselected hr hm, h0]
      rfl
    · rw [h0, if_pos (by simpa [famWdsCtl] using hm), Dev.flag, Dev.rf_regErr _ _ _ _ (by unfold errFree; decide), Dev.rf_wf_same _ _ _ (by decide),
        Nat.mod_eq_of_lt (d.rf_lt _), Dev.flag]
      cases h : d.rf WDS_CTL_ENABLE == 1
      · exact .inr rfl
      · exact .inl rfl

/-- Settles O38. -/
theorem dispatcherRowRules : Obligations.DispatcherRowRules := by
  unfold Obligations.DispatcherRowRules
  refine ⟨fun s => ⟨fun slot j hj hst helig hstep => ?_, fun flow n k hidle hst hk hall => ?_, fun p n hst hrel hall => ?_,
    fun c sl j hjob hj hst hk => ?_, fun c n k hhung hat => ?_⟩, fun init p value s cmds => ⟨?_, ?_, fun hw => ?_⟩⟩
  · refine next_on (?_ : (match s.dev.job slot with
      | some j => if j.state == JobState.ready && j.eligAt.isSome && decide (j.step < 2) then
          (s.dev.ticks (ceilDiv (j.eligCyc + (j.step + 1) * s.dev.rf WDS_GRACE - s.dev.wdsCycle) 3)).setJob slot { j with step := j.step + 1 }
        else s.dev
      | none => s.dev) = _)
    rw [hj]
    exact if_pos (by rw [hst, helig, decide_eq_true hstep]; rfl)
  · have hact : exec (.flowAffinityReset flow) s = .next (s.on <|
        (s.dev.setFlow flow { s.dev.flow flow with last := none, idle := none }).wdsSettle) := by
      refine next_on (?_ : (match (s.dev.flow flow).idle with
        | some (n, k) => if (s.dev.tl n).started && decide (k + 2 ≤ (s.dev.tl n).k) && s.dev.wds.jobs.vals.all (fun j => j.desc.flow != flow.val) then
            (s.dev.setFlow flow { s.dev.flow flow with last := none, idle := none }).wdsSettle else s.dev
        | none => s.dev) = _)
      rw [hidle]
      exact if_pos (by rw [hst, decide_eq_true hk, hall]; rfl)
    obtain ⟨-, -, -, -, -, -, hcores, -, hmem, -⟩ := Dev.offWds_fields
      ((Dev.offWds_wdsSettle _).trans (s.dev.offWds_setFlow flow { s.dev.flow flow with last := none, idle := none }))
    refine ⟨_, hact, ?_, hcores, hmem⟩
    rw [State.on_dev, Dev.flow_wdsSettle, Dev.flow_setFlow]
  · obtain ⟨d1, htl, hcores, hto⟩ := Dev.podRelease_takes hst hrel hall
    exact ⟨_, next_on hto, by rw [State.on_dev, htl, if_pos rfl], fun m hm => (htl m).trans (if_neg hm), hcores⟩
  · refine next_on (?_ : s.dev.hungDeclare c = _)
    unfold Dev.hungDeclare
    rw [hjob]
    dsimp only
    rw [hj]
    exact if_pos (by rw [hst, decide_eq_true hk]; rfl)
  · have hrec (passed : Bool) : s.dev.hungRecovery c passed = if passed then (s.dev.coreReset c).setMask c false else s.dev.coreReset c := by
      unfold Dev.hungRecovery
      rw [hhung, hat]
      rfl
    exact ⟨next_on ((hrec true).trans (if_pos rfl)), next_on ((hrec false).trans (if_neg (by decide)))⟩
  · intro r hr
    have hwr : exec (.wdsEnableWrite init value) s = .next (s.on <| (s.dev.vetoWr init rWDS_CTL value.toNat WDS_CTL_ENABLE fun v => v == 0 && s.dev.anyTl).1.wdsSettle) := rfl
    have hveto := Dev.vetoWr_yes (f := WDS_CTL_ENABLE) (bad := fun v => v == 0 && s.dev.anyTl) hr regAt_wdsCtl
    refine ⟨fun h => ?_, fun hany => ?_⟩
    · rw [hwr, hveto, if_neg]
      rcases h with h | h
      · rw [show (s.dev.busWr init rWDS_CTL value.toNat).1.rf WDS_CTL_ENABLE = 1 from beq_iff_eq.1 h]
        simp
      · simp [h]
    · refine ⟨_, hwr, ?_⟩
      dsimp only [State.on_dev]
      rw [Dev.flag, Dev.rf_wdsSettle _ (by decide) (by decide)]
      exact Dev.wdsEnable_stands hr hany
  · intro r hr hmode
    exact next_on (if_neg hmode)
  · intro f r hr
    obtain ⟨hrf, hcores, hmem⟩ := Dev.coreMaskWr_yes p.isLt hw.isLt hr
    exact ⟨_, rfl, hrf, hcores, hmem, rfl⟩

end Sys2Proof.Machine

/-! SUPPORT. A step of TMU time (R391) rewrites each timeline's count of missed boundaries, by 0 where it crosses none. -/

namespace Sys2Proof.Machine

open Sys2Proof.Tests in
/-- A TIME_STEP by 1 ns waits to run with every timeline disabled, and the register table lists TMU_TL0_MISSED with its reset value. -/
def missedListed : State := tWith { tHost with regs := Tab.put tHost.regs (rTMU_TLn_MISSED 0) 0 } 0x0503 (tCmd [1])

/-- Whether the answer's register table lists TMU_TL0_MISSED. -/
def Res.listsMissed (r : Res) : Bool :=
  match r with
  | .next t => (Tab.find t.dev.regs (rTMU_TLn_MISSED 0)).isSome
  | _ => false

open Sys2Proof.Tests in
/-- Refutes O41: TIME_STEP counts 0 missed boundaries on each timeline, which takes an entry that holds its reset value out of the register table; the
statement's own state leaves the table as it was. -/
theorem not_timeUnitRules : ¬ Obligations.TimeUnitRules := by
  unfold Obligations.TimeUnitRules
  intro h
  obtain ⟨hrules, -⟩ := h
  obtain ⟨-, hcommands⟩ := hrules missedListed
  obtain ⟨-, -, -, -, -, hstep⟩ := hcommands (tCmd [1])
  have hsame := hstep (by decide +kernel) (by decide +kernel) (by decide +kernel) (by decide +kernel) (by decide +kernel)
  have hleft : Res.listsMissed (exec (.timeStep (tCmd [1])) missedListed) = false := by decide +kernel
  rw [hsame] at hleft
  exact absurd hleft (by decide +kernel)

end Sys2Proof.Machine

/-! SUPPORT. Central-buffer handles, the patrol's reads, and MEM_CTL (R332-R348). -/

namespace Sys2Proof.Machine

/-! ### Handles (R332) -/

theorem Dev.cbfShow_keeps (d : Dev) : d.cbfShow.mem = d.mem ∧ d.cbfShow.cores = d.cores := by
  unfold Dev.cbfShow
  exact ⟨(Dev.wf_mem _ _ _).trans ((Dev.wf_mem _ _ _).trans (Dev.wf_mem _ _ _)), (Dev.wf_cores _ _ _).trans ((Dev.wf_cores _ _ _).trans (Dev.wf_cores _ _ _))⟩
/-- An allocation that fits takes the lowest run. -/
theorem Dev.cbfAlloc_takes {d : Dev} {n h : Nat} (hn : n ≠ 0) (hroom : d.mem.bufs.length < 1024) (hrun : d.lowestRun n = some h)
    (bind : Option (Nat × Nat × Nat)) : (d.cbfAlloc n bind).1.mem = { d.mem with bufs := Tab.put d.mem.bufs h ⟨n, bind⟩ } ∧ (d.cbfAlloc n bind).1.cores = d.cores := by
  unfold Dev.cbfAlloc
  rw [if_neg (by omega), hrun]
  exact Dev.cbfShow_keeps _
theorem Dev.cbfFree_mem (d : Dev) (h : Nat) : (d.cbfFree h).mem = { d.mem with bufs := Tab.del d.mem.bufs h } := (Dev.cbfShow_keeps _).1

/-! ### The codes (R339) -/

theorem eraseDups_of_all_eq {l : List Nat} {v : Nat} (hne : l ≠ []) (h : ∀ x ∈ l, x = v) : l.eraseDups = [v] := by
  obtain ⟨x, t, rfl⟩ := List.exists_cons_of_ne_nil hne
  obtain rfl := h x List.mem_cons_self
  have hrest : (t.filter fun b => !b == x) = [] := List.filter_eq_nil_iff.2 fun b hb => by simp [h b (List.mem_cons_of_mem _ hb)]
  rw [List.eraseDups_cons, hrest, List.eraseDups_nil]
/-- One device of an x4 channel is corrected, whatever its beats. -/
theorem ddrEcc_x4 {f : List (Nat × Nat)} {v : Nat} (hne : f ≠ []) (hall : ∀ e ∈ f, e.1 = v) : ddrEcc true f = .corrected := by
  have hdev : (f.map (·.1)).eraseDups = [v] := eraseDups_of_all_eq (by simpa using hne) (by simpa using hall)
  unfold ddrEcc
  rw [hdev]
  generalize (f.map (·.2)).eraseDups = beats
  match beats with
  | [] => rfl
  | [_] => rfl
  | _ :: _ :: _ => rfl
theorem ddrEcc_one (x4 : Bool) (v b : Nat) : ddrEcc x4 [(v, b)] = .corrected := rfl
/-- One device of an x8 channel, in two pairs of beats. -/
theorem ddrEcc_x8_two {v b b' : Nat} (h : b ≠ b') : ddrEcc false [(v, b), (v, b')] = .uncorrectable := by
  have hdev : ([(v, b), (v, b')].map (·.1)).eraseDups = [v] := eraseDups_of_all_eq (by simp) (by simp)
  have hbeat : ([(v, b), (v, b')].map (·.2)).eraseDups = [b, b'] := by
    have hne : b' ≠ b := h.symm
    simp [List.eraseDups_cons, hne]
  unfold ddrEcc
  rw [hdev, hbeat]
  rfl
theorem sramEcc_one (w b : Nat) : sramEcc [(w, b)] = .corrected := by
  have hone : [(w, b)].eraseDups = [(w, b)] := rfl
  have hbits (x : Nat) : ([(w, b)].filter (·.1 == x)).length ≤ 1 := List.length_filter_le _ _
  unfold sramEcc
  dsimp only
  rw [hone, if_neg, if_neg]
  · rfl
  · rw [List.any_eq_true]
    rintro ⟨x, -, hx⟩
    have := hbits x
    rw [beq_iff_eq.1 hx] at this
    omega
  · rw [List.any_eq_true]
    rintro ⟨x, -, hx⟩
    have := hbits x
    have := of_decide_eq_true hx
    omega
theorem sramEcc_two {w b b' : Nat} (hw : w < 8) (h : b ≠ b') : sramEcc [(w, b), (w, b')] = .uncorrectable := by
  have htwo : [(w, b), (w, b')].eraseDups = [(w, b), (w, b')] := by
    have hne : b' ≠ b := h.symm
    simp [List.eraseDups_cons, hne]
  have hbits (x : Nat) : ([(w, b), (w, b')].filter (·.1 == x)).length ≤ 2 := List.length_filter_le _ _
  unfold sramEcc
  dsimp only
  rw [htwo, if_neg, if_pos]
  · exact List.any_eq_true.2 ⟨w, List.mem_range.2 hw, by simp⟩
  · rw [List.any_eq_true]
    rintro ⟨x, -, hx⟩
    have := hbits x
    have := of_decide_eq_true hx
    omega

/-! ### The patrol (R340, R341) -/

/-- The device once what has gone wrong in the line at `l` is met. -/
def Dev.met (d : Dev) (l : Nat) (f : List (Nat × Nat)) : Dev := { d with mem.flaws := Tab.del (Tab.put d.mem.flaws l f) l }
/-- The code's verdict on a line. -/
def Dev.lineSays (d : Dev) (l : Nat) (f : List (Nat × Nat)) : EccSays :=
  match placeOf l with
  | .ddr x => ddrEcc (match d.ddrChannel x with | some k => d.rf (MEM_CHk_CFG_WIDTH k) == 1 | none => false) f
  | _ => sramEcc f
theorem Dev.ddrChannel_flaws (d : Dev) (t : Tab (List (Nat × Nat))) (x : Nat) : ({ d with mem.flaws := t } : Dev).ddrChannel x = d.ddrChannel x := rfl
theorem Dev.arise_of_none {d : Dev} {a : Nat} {f : List (Nat × Nat)} (hnone : Tab.find d.mem.flaws (a / 64 * 64) = none) (hne : f ≠ []) :
    d.arise a f = { d with mem.flaws := Tab.put d.mem.flaws (a / 64 * 64) f } := by
  unfold Dev.arise
  dsimp only
  rw [hnone]
  exact if_neg (by simpa using hne)
theorem Dev.lineSays_flaws (d : Dev) (t : Tab (List (Nat × Nat))) (l : Nat) (f : List (Nat × Nat)) :
    ({ d with mem.flaws := t } : Dev).lineSays l f = d.lineSays l f := rfl
theorem Dev.lineRead_eq {d : Dev} {a : Nat} {f : List (Nat × Nat)} {v : Nat} (hfind : Tab.find d.mem.flaws (a / 64 * 64) = some f)
    (hdev : (f.head?.map (·.1)).getD 0 = v) {u : Bool} (hsays : d.lineSays (a / 64 * 64) f = if u then .uncorrectable else .corrected) :
    d.lineRead a = ({ d with mem.flaws := Tab.del d.mem.flaws (a / 64 * 64) } : Dev).memError (a / 64 * 64) v u := by
  have hread : d.lineRead a = match d.lineSays (a / 64 * 64) f with
      | .clean => { d with mem.flaws := Tab.del d.mem.flaws (a / 64 * 64) }
      | .corrected => ({ d with mem.flaws := Tab.del d.mem.flaws (a / 64 * 64) } : Dev).memError (a / 64 * 64) ((f.head?.map (·.1)).getD 0) false
      | .uncorrectable => ({ d with mem.flaws := Tab.del d.mem.flaws (a / 64 * 64) } : Dev).memError (a / 64 * 64) ((f.head?.map (·.1)).getD 0) true
      | .beyond =>
        let d1 : Dev := { d with mem.flaws := Tab.del d.mem.flaws (a / 64 * 64) }
        let d2 : Dev := { d1 with free := d1.free + 1 }
        match Config.eccBeyond d.free with
        | 0 => d2
        | 1 => d2.memError (a / 64 * 64) ((f.head?.map (·.1)).getD 0) false
        | _ => d2.memError (a / 64 * 64) ((f.head?.map (·.1)).getD 0) true := by
    unfold Dev.lineRead
    dsimp only
    rw [hfind]
    rfl
  rw [hread, hsays, hdev]
  cases u <;> rfl
/-- What has gone wrong in a line of no other error is met by its patrol read. -/
theorem Dev.lineRead_arisen {d : Dev} {a : Nat} {f : List (Nat × Nat)} {v : Nat} {u : Bool} (hdev : (f.head?.map (·.1)).getD 0 = v)
    (hsays : d.lineSays (a / 64 * 64) f = if u then .uncorrectable else .corrected) :
    ({ d with mem.flaws := Tab.put d.mem.flaws (a / 64 * 64) f } : Dev).lineRead a = (d.met (a / 64 * 64) f).memError (a / 64 * 64) v u :=
  Dev.lineRead_eq ((Tab.find_put _ _ _ _).trans (if_pos rfl)) hdev ((d.lineSays_flaws _ _ _).trans hsays)
theorem Dev.scrub_cbuf {d : Dev} {a off : Nat} (hplace : placeOf a = .cbuf off) (hrun : d.domRun (67 + off / 4096 / 2048) = true)
    (hpoison : d.poisoned a 1 = false) : d.scrub a = d.lineRead a := by
  unfold Dev.scrub
  rw [hplace]
  dsimp only
  rw [hrun, hpoison]
  rfl
theorem Dev.scrub_ddr {d : Dev} {a x k : Nat} (hplace : placeOf a = .ddr x) (hch : d.ddrChannel x = some k) (hhours : d.rf MEM_SCRUB_HOURS ≠ 0)
    (hrun : d.domRun (63 + k) = true) (hpoison : d.poisoned a 1 = false)
    (hlast : x / 64 * 64 + 64 ≠ if d.rf MEM_CTL_MODE = 0 then 4 * d.chSize 0 - 4096 * (3 - k) else 0x0800000000 * k + d.chSize k) :
    d.scrub a = d.lineRead a := by
  unfold Dev.scrub
  rw [hplace]
  dsimp only
  rw [hch]
  dsimp only
  rw [if_neg (by simpa [hrun] using hhours), hpoison, if_neg hlast]
  rfl
/-- A line of the central buffer is none of DDR5. -/
theorem lineSays_cbuf (d : Dev) {a off : Nat} (hplace : placeOf a = .cbuf off) (f : List (Nat × Nat)) : d.lineSays (a / 64 * 64) f = sramEcc f := by
  have ha : cbufBase ≤ a := by
    refine Nat.le_of_not_lt fun hlt => ?_
    rw [placeOf, if_pos hlt] at hplace
    exact nomatch hplace
  have hl : ¬ a / 64 * 64 < cbufBase := by
    unfold cbufBase at *
    omega
  have hnot (x : Nat) : placeOf (a / 64 * 64) ≠ .ddr x := by
    unfold placeOf
    rw [if_neg hl]
    repeat' split
    all_goals exact fun h => nomatch h
  unfold Dev.lineSays
  split
  · next x hx => exact absurd hx (hnot x)
  · rfl
theorem lineSays_ddr {d : Dev} {l x k : Nat} (hplace : placeOf l = .ddr x) (hch : d.ddrChannel x = some k) (f : List (Nat × Nat)) :
    d.lineSays l f = ddrEcc (d.rf (MEM_CHk_CFG_WIDTH k) == 1) f := by
  unfold Dev.lineSays
  rw [hplace]
  dsimp only
  rw [hch]

/-- A taken write of MEM_CTL: a write of 1 to ENABLE over channels that are not ready is discarded. -/
theorem Dev.memCtlWr_yes {d : Dev} {init : Initiator} {value cmds : Nat} (hr : (d.busWr init rMEM_CTL value).2 = .yes cmds) :
    d.memCtlWr init value = if bitAt (value / 2 ^ 16) 0 && bitAt value 0 && !(d.busWr init rMEM_CTL value).1.memReady then
      (((d.busWr init rMEM_CTL value).1.setFlag MEM_CTL_ENABLE (d.flag MEM_CTL_ENABLE)).regErr .ignored rMEM_CTL init).trainSync
    else (d.busWr init rMEM_CTL value).1.trainSync := by
  unfold Dev.memCtlWr
  dsimp only
  rw [hr]

/-- Settles O42. -/
theorem memoryRules : Obligations.MemoryRules := by
  unfold Obligations.MemoryRules
  intro s
  refine ⟨fun count h hn hroom hrun => ?_, fun count n p hold h hn hroom hrun => ?_, fun first n hfind => ?_, fun first n b hfind => ?_, ?_,
    fun k hhere hon => next_on (if_pos (by rw [hhere, hon]; rfl)), fun k hon => next_on (if_pos hon), ?_⟩
  · obtain ⟨hmem, hcores⟩ := Dev.cbfAlloc_takes hn hroom hrun none
    refine ⟨_, rfl, ?_, fun a ha => ?_, congrArg (·.cells) hmem, hcores⟩
    · exact (congrArg (fun m => Tab.find m.bufs h) hmem).trans ((Tab.find_put _ _ _ _).trans (if_pos rfl))
    · exact (congrArg (fun m => Tab.find m.bufs a) hmem).trans ((Tab.find_put _ _ _ _).trans (if_neg ha))
  · obtain ⟨hmem, -⟩ := Dev.cbfAlloc_takes hn hroom hrun (some (n.val, p.toNat, hold.val))
    exact ⟨_, rfl, (congrArg (fun m => Tab.find m.bufs h) hmem).trans ((Tab.find_put _ _ _ _).trans (if_pos rfl))⟩
  · have hact : exec (.cbfBufferFree first) s = .next (s.on (s.dev.cbfFree first)) := by
      refine next_on (?_ : (match Tab.find s.dev.mem.bufs first with | some ⟨_, none⟩ => s.dev.cbfFree first | _ => s.dev) = _)
      rw [hfind]
    have hmem := s.dev.cbfFree_mem first
    refine ⟨_, hact, ?_, fun a ha => ?_, congrArg (·.cells) hmem⟩
    · exact (congrArg (fun m => Tab.find m.bufs first) hmem).trans ((Tab.find_del _ _ _).trans (if_pos rfl))
    · exact (congrArg (fun m => Tab.find m.bufs a) hmem).trans ((Tab.find_del _ _ _).trans (if_neg ha))
  · refine next_on (s := s) (b := s.dev) (?_ : (match Tab.find s.dev.mem.bufs first with | some ⟨_, none⟩ => s.dev.cbfFree first | _ => s.dev) = _)
    rw [hfind]
  · intro addr flaw l f hnone hpoison d1
    have hscrub {u : Bool} {v : Nat} (hne : f ≠ []) (hdev : (f.head?.map (·.1)).getD 0 = v)
        (hread : ({ s.dev with mem.flaws := Tab.put s.dev.mem.flaws l f } : Dev).scrub addr.toNat =
          ({ s.dev with mem.flaws := Tab.put s.dev.mem.flaws l f } : Dev).lineRead addr.toNat)
        (hsays : s.dev.lineSays l f = if u then .uncorrectable else .corrected) :
        exec (.scrubRead addr flaw) s = .next (s.on <| d1.memError l v u) := by
      refine next_on (?_ : (s.dev.arise addr.toNat f).scrub addr.toNat = _)
      rw [Dev.arise_of_none hnone hne]
      exact hread.trans (Dev.lineRead_arisen hdev hsays)
    refine ⟨fun off w b hplace hrun hf hw => ?_, fun off w b b' hplace hrun hf hb hw => ?_, fun x k v hplace hch hhours hrun hlast hline hchl => ?_⟩
    · refine hscrub (u := false) (by rw [hf]; simp) (by rw [hf]; rfl) (Dev.scrub_cbuf hplace hrun hpoison) ?_
      rw [lineSays_cbuf _ hplace, hf]
      exact sramEcc_one w b
    · refine hscrub (u := true) (by rw [hf]; simp) (by rw [hf]; rfl) (Dev.scrub_cbuf hplace hrun hpoison) ?_
      rw [lineSays_cbuf _ hplace, hf]
      exact sramEcc_two hw hb
    · have hread : ({ s.dev with mem.flaws := Tab.put s.dev.mem.flaws l f } : Dev).scrub addr.toNat =
          ({ s.dev with mem.flaws := Tab.put s.dev.mem.flaws l f } : Dev).lineRead addr.toNat :=
        Dev.scrub_ddr hplace hch hhours hrun hpoison hlast
      refine ⟨fun hne hall hwidth => ?_, fun b hf => ?_, fun b b' hf hb hwidth => ?_⟩
      · obtain ⟨e, t, he⟩ := List.exists_cons_of_ne_nil hne
        refine hscrub (u := false) hne (by rw [he]; exact hall e (he ▸ List.mem_cons_self)) hread ?_
        rw [lineSays_ddr hline hchl, hwidth]
        exact ddrEcc_x4 hne hall
      · refine hscrub (u := false) (by rw [hf]; simp) (by rw [hf]; rfl) hread ?_
        rw [lineSays_ddr hline hchl, hf]
        exact ddrEcc_one _ v b
      · refine hscrub (u := true) (by rw [hf]; simp) (by rw [hf]; rfl) hread ?_
        rw [lineSays_ddr hline hchl, hf, hwidth]
        exact ddrEcc_x8_two hb
  · intro init value cmds r hr
    have hwr := Dev.memCtlWr_yes hr
    refine ⟨fun h => next_on (hwr.trans (if_neg ?_)), fun hm hv hready => next_on (hwr.trans (if_pos ?_))⟩
    · rcases h with h | h | h <;> rw [h] <;> simp
    · rw [hm, hv, hready]
      rfl

end Sys2Proof.Machine

/-! SUPPORT. One-bit fields; the ledgers' strobe and the two ways to a snapshot (R34-R40). -/

namespace Sys2Proof.Machine

/-! ### One-bit fields -/

theorem Dev.flag_setFlag_same (d : Dev) (f : Fld) (b : Bool) (h : f.lo + f.w ≤ 32) (hw : f.w = 1) : (d.setFlag f b).flag f = b := by
  unfold Dev.flag Dev.setFlag
  rw [Dev.rf_wf_same _ _ _ h, hw]
  cases b <;> rfl
theorem Dev.flag_wf_field (d : Dev) {f g : Fld} (v : Nat) (h : f.lo + f.w ≤ 32) (hd : f.lo + f.w ≤ g.lo ∨ g.lo + g.w ≤ f.lo) :
    (d.wf f v).flag g = d.flag g := by
  unfold Dev.flag
  rw [Dev.rf_wf_field _ _ _ _ h hd]
theorem Dev.flag_wf_other (d : Dev) {f g : Fld} (v : Nat) (h : g.off ≠ f.off) : (d.wf f v).flag g = d.flag g := by
  unfold Dev.flag
  rw [Dev.rf_wf_other _ _ _ _ h]
theorem Dev.flag_congr {d e : Dev} (h : d.regs = e.regs) (f : Fld) : d.flag f = e.flag f := by
  unfold Dev.flag
  rw [Dev.rf_congr h]

/-! ### The strobe (R36) -/

theorem Dev.paired_wf (d : Dev) {f : Fld} (v : Nat) (h : rMGT_TWIN_STS ≠ f.off) : (d.wf f v).paired = d.paired := by
  unfold Dev.paired
  rw [Dev.rf_wf_other _ _ _ _ h, Dev.rf_wf_other _ _ _ _ h]
theorem keepShadow_captured (old : List LedgerEntry) {e : LedgerEntry} (h : e.captured = true) : keepShadow old e = e := if_pos h
/-- The registers a strobe leaves. -/
def Dev.strobed (d : Dev) : Dev :=
  (((d.bump OBS_SNAP_SEQ).setFlag OBS_SNAP_STS_VALID true).setFlag OBS_SNAP_STS_FENCE_OPEN false).setFlag OBS_SNAP_STS_PARTIAL
    ((d.ledgerNow.map (keepShadow d.ledger.entries)).any fun e => !e.captured)
theorem Dev.paired_strobed (d : Dev) : d.strobed.paired = d.paired := by
  unfold Dev.strobed Dev.setFlag Dev.bump Dev.bumpBy
  rw [Dev.paired_wf _ _ (by decide), Dev.paired_wf _ _ (by decide), Dev.paired_wf _ _ (by decide), Dev.paired_wf _ _ (by decide)]
theorem Dev.rf_snapSeq_strobed (d : Dev) : d.strobed.rf OBS_SNAP_SEQ = (d.rf OBS_SNAP_SEQ + 1) % 2 ^ 32 := by
  unfold Dev.strobed Dev.setFlag
  rw [Dev.rf_wf_other _ _ _ _ (by decide), Dev.rf_wf_other _ _ _ _ (by decide), Dev.rf_wf_other _ _ _ _ (by decide),
    Dev.rf_bump_same _ _ (by decide)]
theorem Dev.valid_strobed (d : Dev) : d.strobed.flag OBS_SNAP_STS_VALID = true := by
  unfold Dev.strobed
  rw [Dev.setFlag, Dev.flag_wf_field _ _ (by decide) (by decide), Dev.setFlag, Dev.flag_wf_field _ _ (by decide) (by decide),
    Dev.flag_setFlag_same _ _ _ (by decide) rfl]
/-- The device with what a strobe records. -/
def Dev.withLedger (d : Dev) (l : Ledger) : Dev := { d with ledger := l }
theorem Dev.withLedger_keeps (d : Dev) (l : Ledger) : (d.withLedger l).now = d.now ∧ (d.withLedger l).mem = d.mem ∧ (d.withLedger l).ledger = l := ⟨rfl, rfl, rfl⟩
theorem Dev.regs_withLedger (d : Dev) (l : Ledger) : (d.withLedger l).regs = d.regs := rfl
theorem Dev.ledgerStrobe_eq (d : Dev) : d.ledgerStrobe = d.strobed.withLedger ⟨d.strobed.rf OBS_SNAP_SEQ, 6 * d.strobed.cyc, d.strobed.now,
    d.strobed.paired, d.ledgerNow.map (keepShadow d.ledger.entries), d.strobed.ledger.packing⟩ := by
  unfold Dev.ledgerStrobe Dev.withLedger Dev.strobed
  rfl
theorem Dev.regs_ledgerStrobe (d : Dev) : d.ledgerStrobe.regs = d.strobed.regs := by rw [Dev.ledgerStrobe_eq, Dev.regs_withLedger]
theorem Dev.rest_strobed (d : Dev) : d.strobed.rest = d.rest := by
  unfold Dev.strobed
  rw [Dev.rest_setFlag, Dev.rest_setFlag, Dev.rest_setFlag, Dev.rest_bump]
theorem Dev.strobed_keeps (d : Dev) : d.strobed.now = d.now ∧ d.strobed.mem = d.mem ∧ d.strobed.ledger = d.ledger := by
  obtain ⟨hnow, -, -, -, -, -, -, -, -, hmem, -, -, hledger, -⟩ := Dev.rest_fields d.rest_strobed
  exact ⟨hnow, hmem, hledger⟩
theorem Dev.ledgerStrobe_keeps (d : Dev) : d.ledgerStrobe.now = d.now ∧ d.ledgerStrobe.mem = d.mem ∧
    d.ledgerStrobe.ledger = ⟨d.strobed.rf OBS_SNAP_SEQ, 6 * d.strobed.cyc, d.now, d.paired, d.ledgerNow.map (keepShadow d.ledger.entries), d.ledger.packing⟩ := by
  obtain ⟨hnow, hmem, hledger⟩ := d.strobed_keeps
  rw [Dev.ledgerStrobe_eq, hnow, hledger, Dev.paired_strobed]
  obtain ⟨wnow, wmem, wledger⟩ := d.strobed.withLedger_keeps ⟨d.strobed.rf OBS_SNAP_SEQ, 6 * d.strobed.cyc, d.now, d.paired,
    d.ledgerNow.map (keepShadow d.ledger.entries), d.ledger.packing⟩
  exact ⟨wnow.trans hnow, wmem.trans hmem, wledger⟩

/-! ### The two paths (R39, R40) -/

theorem Dev.snapCtlWr_yes {d : Dev} {init : Initiator} {value cmds : Nat} (hr : (d.busWr init rOBS_SNAP_CTL value).2 = .yes cmds) (hc : bitAt cmds 0 = true) :
    d.snapCtlWr init value =
      if (d.busWr init rOBS_SNAP_CTL value).1.flag OBS_SNAP_STS_BUSY then (d.busWr init rOBS_SNAP_CTL value).1.bump OBS_SNAP_REFUSED
      else (d.busWr init rOBS_SNAP_CTL value).1.ledgerStrobe := by
  unfold Dev.snapCtlWr
  dsimp only
  rw [hr]
  exact if_neg (by rw [hc]; decide)

/-- Settles O57. -/
theorem ledgerRules : Obligations.LedgerRules := by
  unfold Obligations.LedgerRules
  intro s
  refine ⟨fun d => ?_, fun d e he hc => ?_, ?_, fun h => ?_, fun q tag a len h h32 => ?_, fun q tag a len h h32 => ?_, fun init value cmds => ?_⟩
  · obtain ⟨hnow, hmem, hledger⟩ := d.ledgerStrobe_keeps
    rw [Dev.rf_congr d.regs_ledgerStrobe, Dev.rf_snapSeq_strobed, hledger, List.length_map, Dev.flag_congr d.regs_ledgerStrobe, Dev.valid_strobed, hmem, hnow]
    exact ⟨rfl, rfl, rfl, rfl, rfl, rfl, rfl, rfl⟩
  · obtain ⟨-, -, hledger⟩ := d.ledgerStrobe_keeps
    rw [hledger]
    exact List.mem_map.2 ⟨e, he, keepShadow_captured _ hc⟩
  · intro c d len hr hob hdom
    have hbuf : (decide (32 ≤ len) && !d.obOk (pAddr c 0) (len / 32 * 32)) = false := by
      by_cases h : 32 ≤ len
      · rw [hob h]
        exact Bool.and_false _
      · rw [decide_eq_false h]
        rfl
    refine ⟨fun h => (pq_ready hr _).trans ?_, fun h => (pq_ready hr _).trans ?_⟩
    · unfold Dev.ledgerSnapshot
      rw [checks_pass _ _ _ _ _ _ hbuf, checks_pass _ _ _ _ _ _ (congrArg not hdom), checks_fail _ _ _ _ _ _ h]
    · unfold Dev.ledgerSnapshot
      rw [checks_pass _ _ _ _ _ _ hbuf, checks_pass _ _ _ _ _ _ (congrArg not hdom), checks_pass _ _ _ _ _ _ (congrArg Option.isSome h), checks_nil]
  · refine (congrArg (fun d => Host.Outcome.next (s.on d)) (?_ : s.dev.ledgerPacked = s.dev))
    unfold Dev.ledgerPacked
    rw [h]
  · refine next_on (?_ : s.dev.ledgerPacked = _)
    unfold Dev.ledgerPacked
    rw [h]
    dsimp only
    rw [if_neg (Nat.not_lt.2 h32)]
  · refine next_on (?_ : s.dev.ledgerPacked = _)
    unfold Dev.ledgerPacked
    rw [h]
    dsimp only
    rw [if_pos h32, Nat.div_eq_of_lt h32, Nat.zero_sub, Nat.min_zero]
  · intro r hr hc
    refine ⟨fun h => next_on ((Dev.snapCtlWr_yes hr hc).trans (if_pos h)), fun h => next_on ((Dev.snapCtlWr_yes hr hc).trans (if_neg ?_))⟩
    exact fun h' => Bool.false_ne_true (h.symm.trans h')

end Sys2Proof.Machine

/-! SUPPORT. Transaction groups: the commands on a slot, and what an armed group resolves to (R55-R63). -/

namespace Sys2Proof.Machine

/-! ### The commands (R57) -/

theorem Dev.txnAdd_added {d : Dev} {c : PqCmd} {data : List Byte} (hi : pp c 0 < 16) (hx : (d.txn (pp c 0)).phase = .opened)
    (hlimit : (d.txn (pp c 0)).writes.length + pp c 3 ≤ txnLimit) (hob : d.obOk (pAddr c 1) (8 * pp c 3) = true)
    (hes : ∀ e ∈ (upTo (pp c 3)).map fun j => parseWrite ((upTo 8).map fun k => nth 0 data (8 * j + k)), e.2 = true) :
    d.txnAdd c data = (d.setTxn (pp c 0) { d.txn (pp c 0) with writes := (d.txn (pp c 0)).writes ++
      ((upTo (pp c 3)).map fun j => parseWrite ((upTo 8).map fun k => nth 0 data (8 * j + k))).map (·.1) }).finR c
        [(d.txn (pp c 0)).writes.length + pp c 3] := by
  have hmin : min (pp c 3) 257 = pp c 3 := Nat.min_eq_left (by unfold txnLimit at hlimit; omega)
  unfold Dev.txnAdd
  dsimp only
  rw [hmin]
  refine checks_pass _ _ _ _ _ _ ?_
  simp only [Bool.or_eq_false_iff, decide_eq_false_iff_not, hx, hob, bne_self_eq_false, Bool.not_true, Bool.and_false, List.any_eq_false,
    Bool.not_eq_true', and_true]
  exact ⟨⟨by omega, by omega⟩, fun e he => by rw [hes e he]; decide⟩
theorem Dev.txnArm_opened {d : Dev} {c : PqCmd} (hi : pp c 0 < 16) (hx : (d.txn (pp c 0)).phase = .opened) :
    let x := d.txn (pp c 0)
    let d1 := d.inProgress c.queue.val c.tag.toNat
    let d2 := { d1.setTxn (pp c 0) { x with phase := .armed c.queue.val c.tag.toNat d1.txnOrd (d1.sealed x.tl (d1.targetK x.tl x.target)) } with txnOrd := d1.txnOrd + 1 }
    d.txnArm c = if !d2.flag (TMU_TLn_CTL_ENABLE x.tl) then d2.txnAbort (pp c 0) rsnTimelineOff x.target
      else if !d2.future x.tl x.target then d2.txnAbort (pp c 0) rsnLate x.target else d2 := by
  intro x d1 d2
  unfold Dev.txnArm
  dsimp only
  rw [checks_pass _ _ _ _ _ _ (by rw [hx, decide_eq_false (by omega)]; rfl), checks_nil]
theorem Dev.txnReport_some {d : Dev} {c : PqCmd} {rs : List Refused} (hi : pp c 0 < 16) (hrs : (d.txn (pp c 0)).report = some rs)
    (hob : 8 ≤ pp c 3 → d.obOk (pAddr c 1) (pp c 3 / 8 * 8) = true) :
    d.txnReport c = (d.hostWrite (pAddr c 1) ((rs.take (min rs.length (pp c 3 / 8))).flatMap Refused.bytes)).finR c
      [min rs.length (pp c 3 / 8), rs.length] := by
  unfold Dev.txnReport
  dsimp only
  rw [if_pos hi, hrs]
  refine checks_pass _ _ _ _ _ _ ?_
  by_cases h : 8 ≤ pp c 3
  · rw [hob h]
    exact Bool.and_false _
  · rw [decide_eq_false h]
    rfl
theorem Dev.txnReport_none {d : Dev} {c : PqCmd} (hi : pp c 0 < 16) (hrs : (d.txn (pp c 0)).report = none) : d.txnReport c = d.fin c badParam := by
  unfold Dev.txnReport
  dsimp only
  rw [if_pos hi, hrs]

/-! ### An armed group at its boundary (R58-R62) -/

theorem Dev.groupRefused_nil (d : Dev) : d.groupRefused [] = [] := rfl
theorem Dev.groupCommit_nil (d : Dev) (n k : Nat) (hw : List (Nat × Nat)) : d.groupCommit n k [] hw = d := by
  have hfields : hwFields hw [] = [] := rfl
  have htouches (e : Dev) : d.touches e [] = [] := rfl
  have hnone (l : List Nat) : l.filter (fun _ => false) = [] := List.filter_eq_nil_iff.2 fun _ _ => Bool.false_ne_true
  unfold Dev.groupCommit
  simp only [List.map_nil, hfields, List.foldl_nil, List.any_nil, Bool.and_false, bne_self_eq_false, hnone, List.isEmpty_nil, if_true,
    htouches, Bool.false_eq_true, if_false, List.append_nil]

section
variable {d : Dev} {i q tag ord : Nat}
theorem Dev.groupAct_armed (h : (d.txn i).phase = .armed q tag ord false) (n k : Nat) (hw : List (Nat × Nat)) :
    d.groupAct n k i hw = match d.groupRefused (d.txn i).writes with
      | [] => (d.txnResolve i [] k (hwFields hw (d.txn i).writes).length).groupCommit n k (d.txn i).writes hw
      | r :: rs => d.txnResolve i (r :: rs) k 0 := by
  unfold Dev.groupAct
  dsimp only
  rw [h]
  rfl
theorem Dev.groupAct_late (h : (d.txn i).phase = .armed q tag ord true) (n k : Nat) (hw : List (Nat × Nat)) :
    d.groupAct n k i hw = d.txnAbort i rsnLate k := by
  unfold Dev.groupAct
  dsimp only
  rw [h]
  rfl
theorem Dev.txn_txnResolve {late : Bool} (h : (d.txn i).phase = .armed q tag ord late) (refs : List Refused) (period wins : Nat) :
    (d.txnResolve i refs period wins).txn i = { d.txn i with phase := .done q tag, writes := [], report := some refs } := by
  have hcomplete (e : Dev) (st : Nat) (body : List Nat) : (e.complete q tag st body).txn i = e.txn i := by
    unfold Dev.txn
    rw [Dev.txns_of_rest (e.rest_complete q tag st body)]
  have hrec (e : Dev) (a b c : Nat) (o : Option (List Byte)) : (e.recAdd a b c o).txn i = e.txn i := by
    unfold Dev.txn
    rw [Dev.txns_of_rest (e.rest_recAdd a b c o)]
  unfold Dev.txnResolve
  dsimp only
  rw [h]
  cases refs with
  | nil =>
    dsimp only
    rw [hcomplete, hrec, Dev.txn_setTxn, if_pos rfl]
  | cons r rs =>
    dsimp only
    rw [hcomplete, hrec, Dev.txn_setTxn, if_pos rfl]
theorem Dev.txnFree_done (h : (d.txn i).phase = .done q tag) : d.txnFree i = true ↔
    ∀ r ∈ (d.qp q).running, r.opcode = 0x0B03 → r.cmd.tag.toNat = tag → pp r.cmd 0 = i → r.dup = false → r.own = none := by
  unfold Dev.txnFree Dev.armUnposted
  rw [h]
  simp only [Bool.not_eq_true', List.any_eq_false, Bool.and_eq_true, beq_iff_eq, not_and, Bool.not_eq_true, Option.isSome_eq_false_iff,
    Option.isNone_iff_eq_none, and_imp]
end

/-- Settles O59. -/
theorem groupRules : Obligations.GroupRules := by
  unfold Obligations.GroupRules
  intro s
  refine ⟨fun c => ?_, fun d n k i q tag ord hw h => ⟨fun r rs hrs => ?_, fun hrs => ?_, fun hws => ?_, fun refs wins => ?_⟩,
    fun d hw w h => if_pos (by rw [h]; exact Nat.zero_and _), fun d i q tag h => Dev.txnFree_done h, fun d n k i q tag ord h hw => Dev.groupAct_late h n k hw⟩
  · intro d i x
    refine ⟨fun data => ?_, fun hr hi hx => ?_, fun hr hi hx => ?_, fun hr hx => ?_, fun q tag hr hx => ?_, fun q tag ord late hr hx => ?_,
      fun rs hr hi hrs hob => ?_, fun hr hi hrs => ?_⟩
    · intro es hr hi hx hlimit hob hes
      exact (pq_ready hr _).trans (next_on (Dev.txnAdd_added hi hx hlimit hob hes))
    · intro d1 d2
      have harm := Dev.txnArm_opened (d := d) hi hx
      refine ⟨fun hen hfut => (pq_ready hr _).trans (next_on (harm.trans ?_)), fun hen hfut => (pq_ready hr _).trans (next_on (harm.trans ?_)),
        fun hen => (pq_ready hr _).trans (next_on (harm.trans ?_))⟩
      · exact (if_neg (by rw [hen]; decide)).trans (if_neg (by rw [hfut]; decide))
      · exact (if_neg (by rw [hen]; decide)).trans (if_pos (by rw [hfut]; decide))
      · exact if_pos (by rw [hen]; decide)
    · refine (pq_ready hr _).trans (next_on (?_ : d.txnCancel c = _))
      unfold Dev.txnCancel
      dsimp only
      rw [show (d.txn (pp c 0)).phase = .opened from hx]
      exact if_neg (Nat.not_le.2 hi)
    · refine (pq_ready hr _).trans (next_on (?_ : d.txnCancel c = _))
      unfold Dev.txnCancel
      dsimp only
      rw [show (d.txn (pp c 0)).phase = .free from hx]
    · refine (pq_ready hr _).trans (next_on (?_ : d.txnCancel c = _))
      unfold Dev.txnCancel
      dsimp only
      rw [show (d.txn (pp c 0)).phase = .done q tag from hx]
    · have hcancel : d.txnCancel c = if d.sealed x.tl (d.targetK x.tl x.target) then d.fin c busyS
          else ((d.txnAbort i rsnCancelled x.target).setTxn i { (d.txnAbort i rsnCancelled x.target).txn i with phase := .free }).fin c okS := by
        unfold Dev.txnCancel
        dsimp only
        rw [show (d.txn (pp c 0)).phase = .armed q tag ord late from hx]
      refine ⟨fun h => (pq_ready hr _).trans (next_on (hcancel.trans (if_pos h))), fun h => ?_⟩
      exact (pq_ready hr _).trans (next_on (hcancel.trans (if_neg (by rw [h]; decide))))
    · exact (pq_ready hr _).trans (next_on (Dev.txnReport_some hi hrs hob))
    · exact (pq_ready hr _).trans (next_on (Dev.txnReport_none hi hrs))
  · rw [Dev.groupAct_armed h, hrs]
  · rw [Dev.groupAct_armed h, hrs]
  · rw [Dev.groupAct_armed h, hws, Dev.groupRefused_nil]
    exact Dev.groupCommit_nil _ _ _ _
  · rw [Dev.txn_txnResolve h]
    exact ⟨rfl, rfl⟩

end Sys2Proof.Machine

/-! SUPPORT. Writes of the register bus (R459-R477). -/

namespace Sys2Proof.Machine

/-! ### Who answers (R470-R472) -/

theorem Dev.answers_iff {d : Dev} {init : Initiator} {off : Nat} : d.answers init off = true ↔
    d.holeFor init off = false ∧ d.hostDown init = false ∧ ∃ f idx, regAt off = some (f, idx) ∧ d.domOn (regDomain f.dom off (nth 0 idx 0)) = true := by
  unfold Dev.answers
  simp only [Bool.and_eq_true, Bool.not_eq_true']
  rw [and_assoc]
  refine and_congr_right fun _ => and_congr_right fun _ => ?_
  cases h : regAt off with
  | none => simp
  | some p => exact ⟨fun hd => ⟨p.1, p.2, rfl, hd⟩, fun ⟨f, idx, hp, hd⟩ => by rw [Option.some.inj hp]; exact hd⟩

section
variable {d : Dev} {init : Initiator} {off : Nat} (h : d.answers init off = true)
include h
theorem Dev.holeFor_of_answers : d.holeFor init off = false := (Dev.answers_iff.1 h).1
theorem Dev.regAt_of_answers : (regAt off).isNone = false := by
  obtain ⟨-, -, f, idx, hreg, -⟩ := Dev.answers_iff.1 h
  rw [hreg]
  rfl
/-- A write its target answers. -/
theorem Dev.busWr_answered (value : Nat) {f : RegFam} {idx : List Nat} (hreg : regAt off = some (f, idx)) : d.busWr init off value =
    if off = rTHM_UNLOCK then (d.setGuard (value % 2 ^ 32 == 0xFFFF5AC3), .yes 0)
    else if f.guarded && !d.guardOpen && init != .group then (d.regErr .guard off init, .no)
    else
      let a := strobeArg off (d.reg off) (d.written f idx off value)
      let d1 := d.setReg off a.v
      let d2 := if a.ignored then d1.regErr .ignored off init else d1
      (if f.guarded && init != .group then d2.setGuard false else d2, .yes a.cmds) := by
  obtain ⟨hhole, hdown, f', idx', hreg', hdom⟩ := Dev.answers_iff.1 h
  obtain ⟨rfl, rfl⟩ := Prod.mk.inj (Option.some.inj (hreg'.symm.trans hreg))
  unfold Dev.busWr
  rw [if_neg (by rw [hhole]; decide), hreg]
  exact if_neg (by rw [hdown, hdom]; decide)
end

/-- While PD_HIF is down the host's accesses are answered as for a domain that is off (R424). -/
theorem Dev.hostDown_off {d : Dev} (h : d.domOn 76 = false) : d.hostDown .host = true := by
  unfold Dev.hostDown
  rw [h]
  rfl

/-! ### The guard (R469) -/

theorem Dev.guardOpen_setGuard (d : Dev) (b : Bool) : (d.setGuard b).guardOpen = b := rfl
theorem Dev.guardOpen_wf (d : Dev) (f : Fld) (v : Nat) : (d.wf f v).guardOpen = d.guardOpen := rfl
theorem Dev.guardOpen_bumpSat (d : Dev) (f : Fld) : (d.bumpSat f).guardOpen = d.guardOpen := by
  unfold Dev.bumpSat
  split <;> rfl
/-- An access error opens no guard. -/
theorem Dev.guardOpen_regErr {d : Dev} (h : d.guardOpen = false) (e : RegErr) (off : Nat) (init : Initiator) : (d.regErr e off init).guardOpen = false := by
  obtain ⟨f, -, he⟩ := d.regErr_eq e off init
  rw [he]
  split
  · exact h
  · dsimp only
    split
    · exact Dev.guardOpen_setGuard _ _
    · rw [Dev.guardOpen_wf, Dev.guardOpen_wf, Dev.guardOpen_bumpSat, h]
theorem Dev.flag_setGuard (d : Dev) (b : Bool) : (d.setGuard b).flag (regErrGuard 0x0E) = b :=
  (Dev.flag_congr (d.regs_setGuard b) _).trans (d.flag_setFlag_same _ b (by decide) rfl)
/-- A write of a guarded register that its target answers leaves the guard closed; while it is closed, every register that shows no error stands. -/
theorem Dev.busWr_guarded {d : Dev} {init : Initiator} {off : Nat} {f : RegFam} {idx : List Nat} (h : d.answers init off = true)
    (hreg : regAt off = some (f, idx)) (hf : f.guarded = true) (hinit : init ≠ .group) (hunlock : off ≠ rTHM_UNLOCK) (value : Nat) :
    (d.busWr init off value).1.guardOpen = false ∧ (d.guardOpen = false → ∀ o, errFree o → (d.busWr init off value).1.reg o = d.reg o) := by
  have hgroup : (init != .group) = true := bne_iff_ne.2 hinit
  rw [Dev.busWr_answered h value hreg, if_neg hunlock, hf, hgroup]
  cases hopen : d.guardOpen with
  | true => exact ⟨Dev.guardOpen_setGuard _ _, fun hc => nomatch hc⟩
  | false => exact ⟨Dev.guardOpen_regErr hopen _ _ _, fun _ o ho => Dev.reg_regErr _ _ _ _ ho⟩

def famUnlock : RegFam := ⟨"THM_UNLOCK", 0x480, [], true, false, .aon, .none, [⟨0, 32, .key, 0, []⟩]⟩
theorem regAt_unlock : regAt rTHM_UNLOCK = some (famUnlock, []) := by decide +kernel
def famTrim : RegFam := ⟨"THM_TRIM_i", 0x300, [(60, 0x4)], false, true, .aon, .none, [⟨0, 8, .ctl, 0, []⟩]⟩
theorem regAt_trim : ∀ i : Fin 60, regAt (rTHM_TRIM_i i) = some (famTrim, [i.val]) := by decide +kernel
/-- A write of a trim register is a plain one. -/
theorem State.regWriteAll_trim (s : State) (init : Initiator) (i : Fin 60) (value : Nat) :
    (s.regWriteAll init (rTHM_TRIM_i i) value).dev = (s.dev.busWr init (rTHM_TRIM_i i) value).1 := by
  have hprot : protReg (rTHM_TRIM_i i) = false := by
    unfold protReg
    rw [regAt_trim]
    rfl
  have hstep : rTHM_TRIM_i i ≠ rTMU_STEP_CMD := by dsimp only [rTHM_TRIM_i, rTMU_STEP_CMD]; omega
  have hrecovery : rTHM_TRIM_i i ≠ rSEC_RECOVERY_CTL := by dsimp only [rTHM_TRIM_i, rSEC_RECOVERY_CTL]; omega
  have hrow (d : Dev) : d.rowWrite init (rTHM_TRIM_i i) value famTrim.name i.val 0 = none := rfl
  have hhook (d : Dev) : d.regHook famTrim.name i.val = d := rfl
  unfold State.regWriteAll State.regWrite
  rw [if_neg hstep, if_neg hrecovery, if_neg (by rw [hprot]; decide), State.onDev_dev, Dev.regWrite, regAt_trim]
  have hplain : s.dev.plainWr init (rTHM_TRIM_i i) value famTrim.name i.val = (s.dev.busWr init (rTHM_TRIM_i i) value).1 := by
    unfold Dev.plainWr
    dsimp only
    split
    · rfl
    · exact hhook _
  exact hplain

/-! ### Widths and alignment (R464, R470) -/

/-- A 32-bit aligned write outside firmware's ranges. -/
theorem State.busWrite_aligned (s : State) (init : Initiator) {off : Nat} (value hw : Nat) (hal : off % 4 = 0)
    (hfw : ¬ (firmwareRange off = true ∧ init = .firmware)) : s.busWrite init off 0 value hw =
    if hw &&& ctlBits off &&& writeMask (wideReg off) value = 0 then s.regWriteAll init off value
    else
      let hit := hw &&& ctlBits off &&& writeMask (wideReg off) value
      let s1 := s.regWriteAll init off (if wideReg off then value - (value &&& hit) + (s.dev.reg off &&& hit) else value - hit * 2 ^ 16)
      if s.dev.answers init off then s1.onDev fun d => d.regErr .collide off init else s1 := by
  unfold State.busWrite
  rw [if_neg (by omega), if_neg (by omega), if_neg hfw]
theorem State.busWrite_hit (s : State) (init : Initiator) {off value hw : Nat} (hal : off % 4 = 0) (hfw : firmwareRange off = false)
    (hwide : wideReg off = false) (hans : s.dev.answers init off = true) (hhit : hw &&& ctlBits off &&& writeMask false value ≠ 0) :
    s.busWrite init off 0 value hw =
      (s.regWriteAll init off (value - (hw &&& ctlBits off &&& writeMask false value) * 2 ^ 16)).onDev fun d => d.regErr .collide off init := by
  rw [State.busWrite_aligned _ _ _ _ hal (by rw [hfw]; exact fun h => nomatch h.1), hwide, if_neg hhit]
  exact if_pos hans
theorem State.busWrite_plain (s : State) (init : Initiator) {off : Nat} (value : Nat) (hal : off % 4 = 0) (hfw : firmwareRange off = false) :
    s.busWrite init off 0 value 0 = s.regWriteAll init off value := by
  rw [State.busWrite_aligned _ _ _ _ hal (by rw [hfw]; exact fun h => nomatch h.1), if_pos (by simp)]

/-! ### The protection set-up (R343, R453) -/

theorem State.regWriteAll_prot {s : State} {init : Initiator} {off value cmds : Nat} (hrecovery : off ≠ rSEC_RECOVERY_CTL) (hstep : off ≠ rTMU_STEP_CMD)
    (hprot : protReg off = true) (hr : (s.dev.busWr init off value).2 = .yes cmds) (hcfg : reachesCfg off value = true) :
    s.regWriteAll init off value = if s.dev.flag SEC_BOOT_STS_SEALED then (s.on ((s.dev.busWr init off value).1.bump SEC_SEAL_VIOL)).alarm [5]
      else s.on ((s.dev.busWr init off value).1.bump SEC_SEAL_VIOL) := by
  unfold State.regWriteAll State.regWrite
  rw [if_neg hstep, if_neg hrecovery, if_pos hprot]
  dsimp only
  rw [hr]
  exact if_pos hcfg

/-! ### The 4 µs bound (R472) -/

section
variable {s : State} {init : Initiator} {off : BitVec 28} (w : Option Word) (taken : Bool)
theorem exec_regbusTimeout_hole (h : (regAt off.toNat).isNone = true ∨ s.dev.holeFor init off.toNat = true) :
    exec (.regbusTimeout init off w taken) s = .next (s.onDev fun d => d.regErr .hole off.toNat init) :=
  congrArg Host.Outcome.next (if_pos (Bool.or_eq_true_iff.2 h))
theorem exec_regbusTimeout_off (hreg : (regAt off.toNat).isSome = true) (hhole : s.dev.holeFor init off.toNat = false)
    (hans : s.dev.answers init off.toNat = false) :
    exec (.regbusTimeout init off w taken) s = .next (s.onDev fun d => d.regErr .domainOff off.toNat init) := by
  refine congrArg Host.Outcome.next ((if_neg ?_).trans (if_pos ?_))
  · rw [hhole, Option.isNone_eq_false_iff.2 hreg]
    decide
  · rw [hans]
    rfl
theorem exec_regbusTimeout_late (hans : s.dev.answers init off.toNat = true) : exec (.regbusTimeout init off w taken) s =
    .next ((match w with | some v => if taken then s.regWriteAll init off.toNat v.toNat else s | none => s).onDev fun d =>
      (d.regErr .timeout off.toNat init).health 1 10 off.toNat) := by
  refine congrArg Host.Outcome.next ((if_neg ?_).trans (if_neg ?_))
  · rw [Dev.regAt_of_answers hans, Dev.holeFor_of_answers hans]
    decide
  · rw [hans]
    decide
end

/-- Settles O60. -/
theorem registerBusRules : Obligations.RegisterBusRules := by
  unfold Obligations.RegisterBusRules
  intro s
  refine ⟨fun init off value hw => ⟨fun h => ?_, fun h => ?_, fun h => ?_, ?_, fun hal hfw hinit => ?_, fun hal hfw hhw => ?_, fun hal hfw hwide hans => ?_⟩,
    fun init off value cmds hrecovery hstep hprot hr hcfg => ?_, fun init off value hrecovery hstep hprot => ?_, fun init value hans => ?_,
    fun init i value hinit hans => ?_, fun off value hreg hhole hdown => ?_, fun init off w taken => ?_⟩
  · exact congrArg Host.Outcome.next (if_pos (.inl ⟨rfl, h⟩))
  · exact congrArg Host.Outcome.next (if_pos (.inr ⟨rfl, h⟩))
  · exact congrArg Host.Outcome.next ((if_neg (not_or.2 ⟨fun h1 => (by decide : ¬ (1 : Fin 3).val = 0) h1.1, fun h1 => h1.2 h⟩)).trans (if_pos (by decide)))
  · exact congrArg Host.Outcome.next ((if_neg (not_or.2 ⟨fun h1 => (by decide : ¬ (2 : Fin 3).val = 0) h1.1, fun h1 => (by decide : ¬ (2 : Fin 3).val = 1) h1.1⟩)).trans (if_pos (by decide)))
  · exact congrArg Host.Outcome.next ((if_neg (not_or.2 ⟨fun h1 => h1.2 hal, fun h1 => (by decide : ¬ (0 : Fin 3).val = 1) h1.1⟩)).trans
      ((if_neg (by decide)).trans (if_pos ⟨hfw, hinit⟩)))
  · rw [hhw]
    exact congrArg Host.Outcome.next (s.busWrite_plain init _ hal hfw)
  · intro hit hhit
    exact congrArg Host.Outcome.next (s.busWrite_hit init hal hfw hwide hans hhit)
  · intro s1
    have h := State.regWriteAll_prot hrecovery hstep hprot hr hcfg
    exact ⟨fun hs => h.trans (if_pos hs), fun hs => h.trans (if_neg (by rw [hs]; decide))⟩
  · unfold State.regWriteAll State.regWrite
    rw [if_neg hstep, if_neg hrecovery, if_neg (by rw [hprot]; decide)]
  · have hvalue : (value.toNat % 2 ^ 32 == 0xFFFF5AC3) = (value == 0xFFFF5AC3) := by
      rw [Nat.mod_eq_of_lt value.isLt, Bool.eq_iff_iff, beq_iff_eq, beq_iff_eq]
      exact BitVec.toNat_inj (y := 0xFFFF5AC3#32)
    refine ⟨s.on (s.dev.setGuard (value == 0xFFFF5AC3)), next_on ?_, Dev.guardOpen_setGuard _ _, Dev.flag_setGuard _ _, rfl, rfl⟩
    unfold Dev.busReg
    dsimp only
    rw [Dev.busWr_answered hans _ regAt_unlock, if_pos rfl, hvalue]
  · have hoff : (BitVec.ofNat 28 (rTHM_TRIM_i i)).toNat = rTHM_TRIM_i i := by
      rw [BitVec.toNat_ofNat]
      exact Nat.mod_eq_of_lt (by dsimp only [rTHM_TRIM_i]; omega)
    have hfw : ∀ i : Fin 60, firmwareRange (rTHM_TRIM_i i) = false := by decide
    have hexec : exec (.registerWrite init (BitVec.ofNat 28 (rTHM_TRIM_i i)) 0 value 0) s = .next (s.regWriteAll init (rTHM_TRIM_i i) value.toNat) := by
      refine congrArg Host.Outcome.next (?_ : s.busWrite init (BitVec.ofNat 28 (rTHM_TRIM_i i)).toNat 0 value.toNat 0 = _)
      rw [hoff]
      exact s.busWrite_plain init _ (by dsimp only [rTHM_TRIM_i]; omega) (hfw i)
    obtain ⟨hguard, hregs⟩ := Dev.busWr_guarded hans (regAt_trim i) rfl hinit (by dsimp only [rTHM_TRIM_i, rTHM_UNLOCK]; omega) value.toNat
    refine ⟨_, hexec, ?_, fun hclosed => ?_⟩
    · rw [State.regWriteAll_trim, hguard]
    · rw [State.regWriteAll_trim, hregs hclosed _ (by unfold errFree; dsimp only [rTHM_TRIM_i]; omega)]
  · obtain ⟨p, hp⟩ := Option.isSome_iff_exists.1 hreg
    have hdown' := Dev.hostDown_off hdown
    constructor
    · unfold Dev.busWr
      rw [if_neg (by rw [hhole]; decide), hp]
      exact if_pos (by rw [hdown']; rfl)
    · unfold Dev.busRd
      rw [if_neg (by rw [hhole]; decide), hp]
      exact if_pos (by rw [hdown']; rfl)
  · intro o
    refine ⟨exec_regbusTimeout_hole w taken, exec_regbusTimeout_off w taken, fun hans h => ?_, fun v hans hw ht => ?_⟩
    · rw [exec_regbusTimeout_late w taken hans]
      rcases h with rfl | rfl
      · rfl
      · cases w <;> rfl
    · rw [exec_regbusTimeout_late w taken hans, hw, ht]
      rfl

end Sys2Proof.Machine

/-! SUPPORT. Resets, references and supplies (R408-R411, R433, R449, R508). -/

namespace Sys2Proof.Machine

/-- What no step of a fold changes. -/
theorem foldl_keeps {α β : Type} {p : Dev → β} {f : Dev → α → Dev} {l : List α} (h : ∀ d, ∀ a ∈ l, p (f d a) = p d) (d : Dev) : p (l.foldl f d) = p d :=
  List.foldlRecOn (motive := fun e => p e = p d) l f rfl fun e he a ha => (h e a ha).trans he

/-! ### The cause of a reset and the fuses shown (R411, R447) -/

theorem Dev.offBus_bump (d : Dev) (f : Fld) : (d.bump f).offBus = d.offBus := rfl
theorem Dev.offBus_setFlag (d : Dev) (f : Fld) (b : Bool) : (d.setFlag f b).offBus = d.offBus := rfl
/-- What the device less its registers and its guard says of the rest. -/
theorem Dev.offBus_fields {d e : Dev} (h : e.offBus = d.offBus) : e.now = d.now ∧ e.hif = d.hif ∧ e.txns = d.txns ∧ e.cores = d.cores ∧ e.mem = d.mem ∧
    e.thm = d.thm ∧ e.marrow = d.marrow ∧ e.pmu = d.pmu :=
  ⟨congrArg (·.now) h, congrArg (·.hif) h, congrArg (·.txns) h, congrArg (·.cores) h, congrArg (·.mem) h, congrArg (·.thm) h, congrArg (·.marrow) h,
    congrArg (·.pmu) h⟩

theorem Dev.offBus_resetCause (d : Dev) (kind trigger : Nat) : (d.resetCause kind trigger).offBus = d.offBus := by
  unfold Dev.resetCause
  dsimp only
  split
  · rw [Dev.offBus_wf, Dev.offBus_wf]
  · rw [Dev.offBus_bump, Dev.offBus_wf, Dev.offBus_wf]
theorem Dev.offBus_fuseShow (d : Dev) (x : Sec) : (d.fuseShow x).offBus = d.offBus := by
  unfold Dev.fuseShow Dev.wf64
  rw [foldl_keeps (p := Dev.offBus) fun d i _ => Dev.offBus_wf _ _ _, Dev.offBus_wf, Dev.offBus_wf, Dev.offBus_wf, Dev.offBus_wf]
theorem Dev.reg_fuseShow (d : Dev) (x : Sec) {o : Nat} (h : 0x1000000 ≤ o) : (d.fuseShow x).reg o = d.reg o := by
  unfold Dev.fuseShow Dev.wf64
  have hact (e : Dev) (i : Nat) (hi : i ∈ upTo 7) : (e.wf (SEC_ALARM_ACT_s_ACTION i) x.floor).reg o = e.reg o := by
    have hi : i < 7 := List.mem_range.1 hi
    exact Dev.reg_wf_other _ _ _ _ (by dsimp only [rSEC_ALARM_ACT_s]; omega)
  rw [foldl_keeps (p := fun d => d.reg o) hact, Dev.reg_wf_other _ SEC_DEVICE_ID_HI_ID, Dev.reg_wf_other _ SEC_DEVICE_ID_LO_ID,
    Dev.reg_wf_other _ SEC_FW_SVN_MIN_SVN, Dev.reg_wf_other _ SEC_BOOT_STS_REVOKED]
  all_goals
    dsimp only [rSEC_DEVICE_ID_HI, rSEC_DEVICE_ID_LO, rSEC_FW_SVN, rSEC_BOOT_STS]
    omega
theorem Dev.rf_resetCause (d : Dev) {kind trigger : Nat} (hk : kind < 4) (ht : trigger < 16) :
    (d.resetCause kind trigger).rf CKR_RESET_CAUSE_KIND = kind ∧ (d.resetCause kind trigger).rf CKR_RESET_CAUSE_TRIGGER = trigger := by
  have hset : ((d.wf CKR_RESET_CAUSE_KIND kind).wf CKR_RESET_CAUSE_TRIGGER trigger).rf CKR_RESET_CAUSE_KIND = kind ∧
      ((d.wf CKR_RESET_CAUSE_KIND kind).wf CKR_RESET_CAUSE_TRIGGER trigger).rf CKR_RESET_CAUSE_TRIGGER = trigger := by
    rw [Dev.rf_wf_field _ _ _ _ (by decide) (by decide), Dev.rf_wf_same _ _ _ (by decide), Dev.rf_wf_same _ _ _ (by decide)]
    exact ⟨Nat.mod_eq_of_lt hk, Nat.mod_eq_of_lt ht⟩
  unfold Dev.resetCause
  dsimp only
  split
  · exact hset
  · rw [Dev.rf_bump_other, Dev.rf_bump_other]
    · exact hset
    all_goals
      dsimp only [rCKR_RESET_CAUSE, rCKR_RESETS_t]
      omega
/-- The cause stands in its register, whatever is shown of the fuses. -/
theorem Dev.resetCause_shown (d : Dev) (x : Sec) {kind trigger : Nat} (hk : kind < 4) (ht : trigger < 16) :
    ((d.resetCause kind trigger).fuseShow x).rf CKR_RESET_CAUSE_KIND = kind ∧ ((d.resetCause kind trigger).fuseShow x).rf CKR_RESET_CAUSE_TRIGGER = trigger := by
  have hreg : ((d.resetCause kind trigger).fuseShow x).reg rCKR_RESET_CAUSE = (d.resetCause kind trigger).reg rCKR_RESET_CAUSE := Dev.reg_fuseShow _ _ (by decide)
  have hrf (lo w : Nat) : ((d.resetCause kind trigger).fuseShow x).rf ⟨rCKR_RESET_CAUSE, lo, w⟩ = (d.resetCause kind trigger).rf ⟨rCKR_RESET_CAUSE, lo, w⟩ :=
    congrArg (fun v => bitsAt v lo w) hreg
  rw [hrf, hrf]
  exact d.rf_resetCause hk ht

/-! ### POR and COLD (R409, R433, R449) -/

/-- The device POR begins with. -/
def Dev.porBase (d : Dev) : Dev := { Dev.reset with free := d.free, hif.mem := d.hif.mem }
theorem State.por_dev (s : State) (supply : Bool) : (s.por supply).dev = (s.dev.porBase.resetCause 0 (b2n supply)).fuseShow s.sec := rfl
theorem Dev.porBase_fields (d : Dev) : d.porBase.hif.mem = d.hif.mem ∧ d.porBase.now = 0 ∧ d.porBase.txns = [] ∧ d.porBase.cores = [] ∧ d.porBase.mem.cells = [] :=
  ⟨rfl, rfl, rfl, rfl, rfl⟩

theorem Dev.offBus_enterState (d : Dev) (dom st : Nat) : (d.enterState dom st).offBus = d.offBus :=
  (Dev.offBus_bump _ _).trans (Dev.offBus_wf _ _ _)
/-- The device every domain but PD_AON leaves. -/
def Dev.aonOnly (d : Dev) : Dev :=
  { Dev.reset with
    regs := Tab.keep (fun off _ => regIn 79 off) d.regs, guardOpen := d.guardOpen, free := d.free, hif.mem := d.hif.mem,
    thm := d.thm, pods.spared := d.pods.spared }
theorem Dev.offBus_allOff (d : Dev) : d.allOff.offBus = d.aonOnly.offBus := by
  unfold Dev.allOff
  dsimp only
  refine (foldl_keeps (p := Dev.offBus) fun e i _ => ?_) d.aonOnly
  split
  · rfl
  · exact e.offBus_enterState _ _
theorem Dev.hifMem_aonOnly (d : Dev) : d.aonOnly.hif.mem = d.hif.mem := rfl
theorem Dev.hifMem_allOff (d : Dev) : d.allOff.hif.mem = d.hif.mem := by
  obtain ⟨-, hhif, -⟩ := Dev.offBus_fields d.offBus_allOff
  rw [hhif, Dev.hifMem_aonOnly]
theorem Dev.coldAon_eq (d : Dev) : ∃ e : Dev, e.offBus = d.offBus ∧
    d.coldAon = { e with thm := { e.thm.fresh with disagree := [], past125 := [], trip := none } } :=
  ⟨_, foldl_keeps (p := Dev.offBus) (fun e f _ => e.offBus_wf f 0) d, rfl⟩
theorem Dev.coldAon_keeps (d : Dev) : d.coldAon.hif = d.hif ∧ d.coldAon.thm.trip = none := by
  obtain ⟨e, he, heq⟩ := d.coldAon_eq
  obtain ⟨-, hhif, -⟩ := Dev.offBus_fields he
  rw [heq]
  exact ⟨hhif, rfl⟩
theorem State.cold_dev (s : State) (trigger : Nat) : (s.cold trigger).dev = ((s.dev.allOff.coldAon).resetCause 1 trigger).fuseShow s.sec := rfl
theorem State.cold_sec (s : State) (trigger : Nat) : (s.cold trigger).sec =
    { s.sec with keys := [], ckns := [], challenge := none, lockout := s.sec.lockout.map (· - s.dev.now) } := rfl
theorem State.cold_keeps (s : State) (trigger : Nat) : (s.cold trigger).dev.hif.mem = s.dev.hif.mem ∧ (s.cold trigger).dev.thm.trip = none := by
  obtain ⟨-, hhif, -, -, -, hthm, -⟩ := Dev.offBus_fields ((Dev.offBus_fuseShow _ s.sec).trans (s.dev.allOff.coldAon.offBus_resetCause 1 trigger))
  obtain ⟨hcold, htrip⟩ := s.dev.allOff.coldAon_keeps
  rw [State.cold_dev, hhif, hthm, hcold, Dev.hifMem_allOff]
  exact ⟨rfl, htrip⟩

/-! ### WARM (R409) -/

theorem Dev.mem_cbfShow (d : Dev) : d.cbfShow.mem = d.mem := by
  unfold Dev.cbfShow
  exact (Dev.mem_of_offBus ((Dev.offBus_wf _ _ _).trans ((Dev.offBus_wf _ _ _).trans (Dev.offBus_wf _ _ _))))
theorem Dev.bufs_warmHarq (d : Dev) : d.warmHarq.mem.bufs = [] := by
  have h (e : Dev) : ((upTo 2).foldl (fun d p => (d.wf (MEM_HARQ_p_USED p) 0).wf (MEM_HARQ_p_FREE p) (d.rf (MEM_HARQ_p_COUNT p))) e).mem = e.mem :=
    Dev.mem_of_offBus (foldl_keeps (p := Dev.offBus) (fun e p _ => (Dev.offBus_wf _ _ _).trans (Dev.offBus_wf _ _ _)) e)
  unfold Dev.warmHarq
  rw [h, Dev.mem_cbfShow]
theorem Dev.mem_warmCal (d : Dev) : d.warmCal.mem = d.mem := by
  have h (l : List Fld) (e : Dev) : (l.foldl (fun d f => if d.rf f = 0 then d else d.wf f 0) e).mem = e.mem := by
    refine Dev.mem_of_offBus ((foldl_keeps (p := Dev.offBus) fun e f _ => ?_) e)
    split
    · rfl
    · exact e.offBus_wf f 0
  unfold Dev.warmCal
  exact h _ d
/-- Firmware starts anew on the device `d`. -/
def Dev.warmFw (d : Dev) : Dev :=
  { d with txns := [], fw := { Fw.reset with health := d.fw.health, version := d.fw.version, since := d.now }, nbb := Nbb.reset, twin := Dev.reset.twin,
           marrow := { d.marrow with waiting := [], replay := none } }
theorem Dev.warmFw_fields (d : Dev) : d.warmFw.txns = [] ∧ d.warmFw.mem = d.mem ∧ d.warmFw.marrow.replay = none := ⟨rfl, rfl, rfl⟩
/-- The twin's registers start anew, and the cause is shown. -/
def Dev.warmShow (d : Dev) : Dev :=
  (((d.setReg rMGT_TWIN_STS (32 * d.rf MGT_TWIN_STS_ROLE_IN)).wf MGT_TWIN_UNACK 0).wf MGT_TWIN_SLOTS_PENDING_SLOTS 0).resetCause 2 2
theorem Dev.offBus_warmShow (d : Dev) : d.warmShow.offBus = d.offBus := by
  unfold Dev.warmShow
  rw [Dev.offBus_resetCause, Dev.offBus_wf, Dev.offBus_wf, Dev.offBus_setReg]
theorem Dev.role_warmShow (d : Dev) : d.warmShow.rf MGT_TWIN_STS_ROLE = 0 := by
  have hcause (e : Dev) : (e.resetCause 2 2).rf MGT_TWIN_STS_ROLE = e.rf MGT_TWIN_STS_ROLE := by
    unfold Dev.resetCause
    dsimp only
    rw [if_neg (by decide), Dev.rf_bump_other _ _ _ (by decide), Dev.rf_wf_other _ _ _ _ (by decide), Dev.rf_wf_other _ _ _ _ (by decide)]
  unfold Dev.warmShow
  rw [hcause, Dev.rf_wf_other _ _ _ _ (by decide), Dev.rf_wf_other _ _ _ _ (by decide)]
  unfold Dev.rf
  rw [Dev.reg_setReg, if_pos rfl]
  unfold bitsAt
  dsimp only
  omega
theorem Dev.warmReset_eq (d : Dev) : ∃ e : Dev, e.mem.bufs = [] ∧ d.warmReset = e.warmFw.warmShow := by
  unfold Dev.warmReset
  extract_lets d1 pods d2 fw marrow d3
  have hbufs : d2.mem.bufs = [] := by
    dsimp only [d2]
    rw [Dev.mem_warmCal, Dev.bufs_warmHarq]
  clear_value d2
  have hfw : d3 = d2.warmFw := rfl
  refine ⟨d2, hbufs, ?_⟩
  rw [hfw, Dev.warmShow]

/-! ### References and supplies (R408, R508) -/

/-- A bit of a status field is the flag at its place. -/
theorem Dev.bitAt_rf (d : Dev) (o w : Nat) {k : Nat} (hk : k < w) : bitAt (d.rf ⟨o, 0, w⟩) k = d.flag ⟨o, k, 1⟩ := by
  unfold Dev.flag Dev.rf
  dsimp only
  rw [bitAt_eq, bits_one]
  unfold bitsAt
  rw [Nat.testBit_mod_two_pow, Nat.pow_zero, Nat.div_one, decide_eq_true hk, Bool.true_and]
  cases (d.reg o).testBit k <;> rfl

/-- A loss is shown, counted and reported. -/
def Dev.refLost (d : Dev) (k : Nat) : Dev := ((d.setFlag ⟨rCKR_REF_STS, k, 1⟩ false).bump (CKR_REF_LOSS_k_LOSS k)).health 0x0C 1 k
theorem Dev.refLoss_root {d : Dev} (h : bitAt (d.rf CKR_REF_STS_PRESENT) 0 = true) : d.refLoss 0 = (d.refLost 0).setFlag CKR_PLL_STS_ROOT_HOLDOVER true :=
  if_neg (by rw [h]; decide)
theorem Dev.refLoss_jesd {d : Dev} (h : bitAt (d.rf CKR_REF_STS_PRESENT) 1 = true) : d.refLoss 1 = ((d.refLost 1).setFlag CKR_PLL_STS_JESD_LOCK false).jesdDown :=
  if_neg (by rw [h]; decide)
theorem Dev.refLoss_ddr {d : Dev} (h : bitAt (d.rf CKR_REF_STS_PRESENT) 4 = true) : d.refLoss 4 = (d.refLost 4).setFlag CKR_PLL_STS_DDR_HOLDOVER true :=
  if_neg (by rw [h]; decide)

theorem Dev.offBus_linkFlags (d : Dev) : ((upTo 4).foldl (fun d u => d.setFlag (linkUpF u 0) (d.flag (jesdEnable u))) d).offBus = d.offBus :=
  foldl_keeps (p := Dev.offBus) (fun e _ _ => e.offBus_setFlag _ _) d
theorem Dev.reg_linkFlags (d : Dev) {o : Nat} (h : 0x1800000 ≤ o) :
    ((upTo 4).foldl (fun d u => d.setFlag (linkUpF u 0) (d.flag (jesdEnable u))) d).reg o = d.reg o := by
  refine (foldl_keeps (p := fun d => d.reg o) fun e u hu => ?_) d
  have hu : u < 4 := List.mem_range.1 hu
  refine Dev.reg_wf_other _ _ _ _ ?_
  dsimp only [linkUpF, jReg]
  rw [jesdEnable, if_pos hu]
  dsimp only [rDFE_Jg_CTL_TX]
  omega
/-- The converter links begin anew. -/
def Dev.epochless (d : Dev) : Dev := { d with dfe.epoch := none, dfe.lemc := [] }
theorem Dev.epochless_keeps (d : Dev) : d.epochless.regs = d.regs ∧ d.epochless.now = d.now ∧ d.epochless.mem = d.mem ∧ d.epochless.cores = d.cores :=
  ⟨rfl, rfl, rfl, rfl⟩

/-- What the return of a reference leaves: the register that shows it, and time, memory and cores. -/
theorem Dev.refReturn_keeps {d : Dev} {k : Nat} (h : bitAt (d.rf CKR_REF_STS_PRESENT) k = false) :
    (d.refReturn k).reg rCKR_REF_STS = (d.setFlag ⟨rCKR_REF_STS, k, 1⟩ true).reg rCKR_REF_STS ∧ (d.refReturn k).now = d.now ∧ (d.refReturn k).mem = d.mem ∧
      (d.refReturn k).cores = d.cores := by
  have hset (f : Fld) (b : Bool) (hf : rCKR_REF_STS ≠ f.off) (e : Dev) : (e.setFlag f b).reg rCKR_REF_STS = e.reg rCKR_REF_STS :=
    Dev.reg_wf_other _ _ _ _ hf
  have hdone {t : Dev} (hreg : t.reg rCKR_REF_STS = (d.setFlag ⟨rCKR_REF_STS, k, 1⟩ true).reg rCKR_REF_STS) (hoff : t.offBus = d.offBus) :
      t.reg rCKR_REF_STS = (d.setFlag ⟨rCKR_REF_STS, k, 1⟩ true).reg rCKR_REF_STS ∧ t.now = d.now ∧ t.mem = d.mem ∧ t.cores = d.cores := by
    obtain ⟨hnow, -, -, hcores, hmem, -⟩ := Dev.offBus_fields hoff
    exact ⟨hreg, hnow, hmem, hcores⟩
  unfold Dev.refReturn
  rw [if_neg (by rw [h]; decide)]
  dsimp only
  split
  · refine hdone ?_ ?_
    · rw [hset _ _ (by decide), hset _ _ (by decide)]
    · rw [Dev.offBus_setFlag, Dev.offBus_setFlag, Dev.offBus_setFlag]
  · obtain ⟨hregs, hnow, hmem, hcores⟩ := ((d.setFlag ⟨rCKR_REF_STS, 1, 1⟩ true).setFlag CKR_PLL_STS_JESD_LOCK true).epochless_keeps
    obtain ⟨fnow, -, -, fcores, fmem, -⟩ := Dev.offBus_fields (((d.setFlag ⟨rCKR_REF_STS, 1, 1⟩ true).setFlag CKR_PLL_STS_JESD_LOCK true).epochless.offBus_linkFlags)
    refine ⟨?_, fnow.trans (hnow.trans ?_), fmem.trans (hmem.trans ?_), fcores.trans (hcores.trans ?_)⟩
    · exact (Dev.reg_linkFlags _ (by decide)).trans ((Dev.reg_eq_of_regs hregs _).trans (hset _ _ (by decide) _))
    all_goals rfl
  · exact hdone (hset _ _ (by decide) _) (by rw [Dev.offBus_setFlag, Dev.offBus_setFlag])
  · exact hdone (hset _ _ (by decide) _) (by rw [Dev.offBus_setFlag, Dev.offBus_setFlag])
  · refine hdone ?_ ?_
    · rw [hset _ _ (by decide), hset _ _ (by decide)]
    · rw [Dev.offBus_setFlag, Dev.offBus_setFlag, Dev.offBus_setFlag]

/-- Settles O44. -/
theorem resetRules : Obligations.ResetRules := by
  unfold Obligations.ResetRules
  intro s
  refine ⟨fun supply => ⟨s.por supply, rfl, rfl, rfl, rfl, rfl, rfl, rfl, rfl, rfl, rfl, ?_⟩, fun t0 h => ⟨State.cold { s with dev := s.dev.advanceTo t0 } 2, ?_, rfl, ?_⟩,
    fun t0 h => ⟨s.on (s.dev.advanceTo t0).warmReset, next_on ?_, rfl, ?_⟩, rfl, fun k h => ?_, fun k h => ⟨s.on (s.dev.refReturn k), rfl, ?_⟩, fun r => ?_⟩
  · obtain ⟨hnow, hhif, htxns, hcores, hmem, -⟩ := Dev.offBus_fields ((Dev.offBus_fuseShow _ s.sec).trans (s.dev.porBase.offBus_resetCause 0 (b2n supply)))
    obtain ⟨bhif, bnow, btxns, bcores, bmem⟩ := s.dev.porBase_fields
    obtain ⟨hkind, htrigger⟩ := s.dev.porBase.resetCause_shown s.sec (kind := 0) (trigger := b2n supply) (by decide) (by unfold b2n; split <;> decide)
    rw [State.por_dev, hkind, htrigger, hnow, hhif, htxns, hcores, hmem]
    exact ⟨bhif, rfl, rfl, bnow, btxns, bcores, bmem, rfl⟩
  · change execColdReset s = _
    unfold execColdReset
    rw [h]
    rfl
  · obtain ⟨hkind, htrigger⟩ := (s.dev.advanceTo t0).allOff.coldAon.resetCause_shown s.sec (kind := 1) (trigger := 2) (by decide) (by decide)
    obtain ⟨hmem, -⟩ := State.cold_keeps { s with dev := s.dev.advanceTo t0 } 2
    refine ⟨hkind, htrigger, rfl, rfl, rfl, rfl, hmem.trans ?_, rfl⟩
    exact congrArg (·.hif.mem) (s.dev.offTime_advanceTo t0)
  · refine (?_ : (match s.dev.fw.restart with | some (0, t) => (s.dev.advanceTo t).warmReset | _ => s.dev) = _)
    rw [h]
    rfl
  · obtain ⟨e, hbufs, hwarm⟩ := (s.dev.advanceTo t0).warmReset_eq
    obtain ⟨-, -, htxns, -, hmem, -, hmarrow, -⟩ := Dev.offBus_fields e.warmFw.offBus_warmShow
    obtain ⟨ftxns, fmem, freplay⟩ := e.warmFw_fields
    obtain ⟨hkind, htrigger⟩ := Dev.rf_resetCause (((e.warmFw.setReg rMGT_TWIN_STS (32 * e.warmFw.rf MGT_TWIN_STS_ROLE_IN)).wf MGT_TWIN_UNACK 0).wf
      MGT_TWIN_SLOTS_PENDING_SLOTS 0) (kind := 2) (trigger := 2) (by decide) (by decide)
    rw [State.on_dev, hwarm, Dev.role_warmShow, htxns, hmem, hmarrow, fmem, hbufs]
    exact ⟨hkind, htrigger, rfl, ftxns, rfl, freplay, rfl, rfl⟩
  · intro lost
    refine ⟨fun hk => next_on ?_, fun hk => next_on ?_, fun hk => next_on ?_⟩
    · rw [show lost = s.dev.refLost k from rfl]
      subst hk
      exact Dev.refLoss_root h
    · rw [show lost = s.dev.refLost k from rfl]
      subst hk
      exact Dev.refLoss_jesd h
    · rw [show lost = s.dev.refLost k from rfl]
      subst hk
      exact Dev.refLoss_ddr h
  · obtain ⟨hreg, hnow, hmem, hcores⟩ := Dev.refReturn_keeps h
    refine ⟨?_, fun hk => ?_, hnow, hmem, hcores⟩
    · rw [State.on_dev, Dev.bitAt_rf _ _ _ k.isLt]
      unfold Dev.flag Dev.rf
      rw [hreg]
      exact Dev.flag_setFlag_same s.dev ⟨rCKR_REF_STS, k, 1⟩ true (by dsimp only; omega) rfl
    · subst hk
      have hroot : s.dev.refReturn 0 = ((s.dev.setFlag ⟨rCKR_REF_STS, 0, 1⟩ true).setFlag CKR_PLL_STS_ROOT_LOCK true).setFlag CKR_PLL_STS_ROOT_HOLDOVER false :=
        if_neg (by rw [show bitAt (s.dev.rf CKR_REF_STS_PRESENT) 0 = false from h]; decide)
      rw [State.on_dev, show s.dev.refReturn (0 : Fin 5).val = _ from hroot, Dev.flag_setFlag_same _ _ _ (by decide) rfl]
      refine ⟨?_, rfl⟩
      rw [Dev.setFlag, Dev.flag_wf_field _ _ (by decide) (by decide), Dev.flag_setFlag_same _ _ _ (by decide) rfl]
  · refine ⟨rfl, rfl, fun h => congrArg Host.Outcome.next (?_ : (if r.val = 0 ∨ r.val = 2 then s.alarm [1] else _) = _),
      fun h => congrArg Host.Outcome.next (?_ : (if r.val = 0 ∨ r.val = 2 ∨ r.val = 7 then s.por true else _) = _)⟩
    · exact if_pos (by rcases h with rfl | rfl <;> decide)
    · exact if_pos (by rcases h with rfl | rfl | rfl <;> decide)

end Sys2Proof.Machine

/-! SUPPORT. Temperature, caps, the supply's voltage and the lifetime counters (R429-R441, R507). -/

namespace Sys2Proof.Machine

/-! ### The thermal state (R432, R433) -/

theorem Dev.rf_thmEvent (d : Dev) (code : Nat) (a b c : Int) {f : Fld} (h : 0x400000 ≤ f.off) : (d.thmEvent code a b c).rf f = d.rf f :=
  Dev.rf_event _ h _ _ _ _ _
theorem Dev.rest_thmEvent (d : Dev) (code : Nat) (a b c : Int) : (d.thmEvent code a b c).rest = d.rest := d.rest_event _ _ _ _ _

section
variable {d : Dev} {h : Int × Nat}
theorem Dev.thmState_normal (hs : d.rf THM_STS_STATE = 0) : d.thmState h =
    if 452 ≤ h.1 then (if 420 ≤ h.1 then d.toWarning h else d).toThrottle h else if 420 ≤ h.1 then d.toWarning h else d := by
  unfold Dev.thmState
  rw [hs]
  rfl
theorem Dev.thmState_warning (hs : d.rf THM_STS_STATE = 1) : d.thmState h =
    if 452 ≤ h.1 then d.toThrottle h else if h.1 < 408 then d.toClear 0 h else d := by
  unfold Dev.thmState
  rw [hs]
  rfl
theorem Dev.thmState_throttle (hs : d.rf THM_STS_STATE = 2) : d.thmState h = if h.1 < 432 then (d.setCap 8).toClear 1 h else d := by
  unfold Dev.thmState
  rw [hs]
  rfl
theorem Dev.stepHot_toThrottle (d : Dev) (h : Int × Nat) : (d.toThrottle h).thm.stepHot = h.1 := rfl
theorem Dev.state_toWarning (d : Dev) (h : Int × Nat) : (d.toWarning h).rf THM_STS_STATE = 1 ∧
    (d.toWarning h).rf THM_WARNINGS = (d.rf THM_WARNINGS + 1) % 2 ^ 32 := by
  unfold Dev.toWarning
  rw [Dev.rf_thmEvent _ _ _ _ _ (by decide), Dev.rf_thmEvent _ _ _ _ _ (by decide), Dev.rf_bump_other _ _ _ (by decide), Dev.rf_wf_same _ _ _ (by decide),
    Dev.rf_bump_same _ _ (by decide), Dev.rf_wf_other _ _ _ _ (by decide)]
  exact ⟨rfl, rfl⟩
theorem Dev.state_toClear (d : Dev) {st : Nat} (hst : st < 4) (h : Int × Nat) : (d.toClear st h).rf THM_STS_STATE = st := by
  unfold Dev.toClear
  rw [Dev.rf_thmEvent _ _ _ _ _ (by decide), Dev.rf_wf_same _ _ _ (by decide)]
  exact Nat.mod_eq_of_lt hst
end

/-! ### A sample (R431, R433) -/

theorem Dev.thermalSample_untripped {d : Dev} (raw : List (BitVec 12)) (h : d.thm.trip = none) : d.thermalSample raw =
    let past125 := (upTo 60).filter fun i => overTrip (d.reading raw i)
    let d0 := (upTo 60).foldl (fun d i => d.wf (THM_RAW_i_RAW i) (nth 0 raw i).toNat) d
    let peak := ((upTo 60).map (d.reading raw)).foldl (fun m r => if inRange r && decide (m < r) then r else m) (toSigned 12 (d.rf THM_PEAK))
    match past125.find? d.thm.past125.contains with
    | some i => (d0.wf THM_PEAK (ofSigned 12 peak)).shutdown i
    | none =>
      let d2 := ({ d0.wf THM_PEAK (ofSigned 12 peak) with thm.past125 := past125 }.judgeSensors (d.reading raw)).valuesInUse (d.reading raw)
      ((d2.wf THM_HOTTEST_TEMP (ofSigned 12 d2.hottest.1)).wf THM_STS_HOTTEST_TS d2.hottest.2).thmState d2.hottest := by
  unfold Dev.thermalSample
  simp only [h, Option.isSome_none, Option.isNone_none, if_true, Bool.false_eq_true, if_false] <;> rfl

/-! ### THROTTLE's step and the restart after a shutdown (R433, R434) -/

/-- The device whose last throttle step saw the value `hot`. -/
def Dev.stepped (d : Dev) (hot : Int) : Dev := { d with thm.stepHot := hot }
theorem exec_throttleStep (s : State) : exec .throttleStep s = .next (s.on <| if s.dev.rf THM_STS_STATE = 2 then
    (if s.dev.thm.stepHot ≤ toSigned 12 (s.dev.rf THM_HOTTEST_TEMP) ∧ s.dev.rf THM_THROTTLE_CAP_MIN < s.dev.rf THM_THROTTLE_CAP then
      s.dev.setCap (s.dev.rf THM_THROTTLE_CAP - 1) else s.dev).stepped (toSigned 12 (s.dev.rf THM_HOTTEST_TEMP)) else s.dev) := rfl

/-- The device with what firmware will report of the shutdown. -/
def Dev.recovers (d : Dev) (x : Nat × Nat × Nat) : Dev := { d with thm.recovered := some x }
theorem Dev.recovers_keeps (d : Dev) (x : Nat × Nat × Nat) : (d.recovers x).regs = d.regs ∧ (d.recovers x).thm.recovered = some x ∧
    (d.recovers x).thm.trip = d.thm.trip := ⟨rfl, rfl, rfl⟩

/-! ### Telemetry (R507) -/

theorem Dev.now_railSeen (d : Dev) (r : Nat) (ok : Bool) : (d.railSeen r ok).now = d.now := by
  have hhealth (e : Dev) (a b c : Nat) : (e.health a b c).now = e.now := by
    obtain ⟨hnow, -⟩ := Dev.rest_fields (e.rest_health a b c)
    exact hnow
  unfold Dev.railSeen
  extract_lets n thm d1
  split
  · exact hhealth d1 _ _ _
  · rfl
theorem Dev.showCap_keeps (d : Dev) : d.showCap.now = d.now ∧ d.showCap.thm = d.thm := by
  unfold Dev.showCap
  split
  · exact ⟨rfl, rfl⟩
  · have hfold : ((upTo 12).foldl (fun e p => e.wf (WDS_PODn_CAP p) (min (d.rf THM_THROTTLE_CAP) d.thm.powerCap)) d).offBus = d.offBus :=
      foldl_keeps (p := Dev.offBus) (fun e p _ => e.offBus_wf _ _) d
    obtain ⟨fnow, -, -, -, -, fthm, -⟩ := Dev.offBus_fields hfold
    have hwds (e : Dev) : e.wdsSettle.now = e.now ∧ e.wdsSettle.thm = e.thm :=
      ⟨congrArg (·.now) e.offWds_wdsSettle, congrArg (·.thm) e.offWds_wdsSettle⟩
    obtain ⟨wnow, wthm⟩ := hwds ((upTo 12).foldl (fun e p => e.wf (WDS_PODn_CAP p) (min (d.rf THM_THROTTLE_CAP) d.thm.powerCap)) d)
    exact ⟨wnow.trans fnow, wthm.trans fthm⟩
/-- The device with the thermal logic `t`. -/
def Dev.withThm (d : Dev) (t : Thm) : Dev := { d with thm := t }
theorem Dev.withThm_keeps (d : Dev) (t : Thm) : (d.withThm t).now = d.now ∧ (d.withThm t).thm = t := ⟨rfl, rfl⟩
theorem Dev.powerJudge_keeps (d : Dev) : d.powerJudge.now = d.now ∧ d.powerJudge.thm.power = d.thm.power := by
  have hcap (t : Thm) (ht : t.power = d.thm.power) : (d.withThm t).showCap.now = d.now ∧ (d.withThm t).showCap.thm.power = d.thm.power := by
    obtain ⟨hnow, hthm⟩ := (d.withThm t).showCap_keeps
    obtain ⟨wnow, wthm⟩ := d.withThm_keeps t
    exact ⟨hnow.trans wnow, by rw [hthm, wthm, ht]⟩
  unfold Dev.powerJudge
  extract_lets t mean p below src d1
  split
  · exact ⟨rfl, rfl⟩
  · split
    · exact hcap { t with below := below, powerCap := t.powerCap - 1, capAt := 0 } rfl
    · split
      · exact hcap { t with below := below, powerCap := t.powerCap + 1, capAt := 0 } rfl
      · exact ⟨rfl, rfl⟩
/-- The last ten of a list that is not empty. -/
theorem lastTen (l : List Nat) (x : Nat) : ((l ++ [x]).drop ((l ++ [x]).length - 10)).length ≤ 10 ∧ (l ++ [x]).drop ((l ++ [x]).length - 10) ≠ [] := by
  rw [← List.length_pos_iff, List.length_drop, List.length_append, List.length_singleton]
  omega
theorem Dev.telemetry_keeps (d : Dev) (rails : List (Option (BitVec 16 × BitVec 32))) : (d.telemetry rails).now = d.now ∧
    (d.telemetry rails).thm.power.length ≤ 10 ∧ (d.telemetry rails).thm.power ≠ [] := by
  unfold Dev.telemetry
  extract_lets at' d1 sum l
  have hd1 : d1.now = d.now := foldl_keeps (p := Dev.now) (fun e r _ => e.now_railSeen _ _) d
  obtain ⟨hlen, hne⟩ := lastTen d1.thm.power sum
  clear_value d1 sum
  obtain ⟨hnow, hpower⟩ := Dev.powerJudge_keeps { d1 with thm.power := l.drop (l.length - 10), free := d1.free + 1 }
  rw [hnow, hpower]
  exact ⟨hd1, hlen, hne⟩

/-! ### The voltage loop (R437) -/

/-- A stage of the loop that leaves the set point, the cores and the memories. -/
def Dev.avsKeeps (d e : Dev) : Prop := e.rf THM_AVS_MV = d.rf THM_AVS_MV ∧ e.cores = d.cores ∧ e.mem = d.mem
/-- The set point within its limits and one step of where it was; the cores and the memories as they were. -/
def Dev.avsNear (d e : Dev) : Prop := 700 ≤ e.rf THM_AVS_MV ∧ e.rf THM_AVS_MV ≤ 850 ∧ d.rf THM_AVS_MV - 5 ≤ e.rf THM_AVS_MV ∧
  e.rf THM_AVS_MV ≤ d.rf THM_AVS_MV + 5 ∧ e.cores = d.cores ∧ e.mem = d.mem
theorem Dev.avsNear_keeps {d e f : Dev} (h : d.avsNear e) (hk : e.avsKeeps f) : d.avsNear f := by
  obtain ⟨hmv, hcores, hmem⟩ := hk
  obtain ⟨h1, h2, h3, h4, h5, h6⟩ := h
  unfold Dev.avsNear
  rw [hmv, hcores, hmem]
  exact ⟨h1, h2, h3, h4, h5, h6⟩
theorem Dev.avsNear_wf {d e : Dev} (hk : d.avsKeeps e) {x : Nat} (h1 : 700 ≤ x) (h2 : x ≤ 850) (h3 : d.rf THM_AVS_MV - 5 ≤ x) (h4 : x ≤ d.rf THM_AVS_MV + 5) :
    d.avsNear (e.wf THM_AVS_MV x) := by
  obtain ⟨-, hcores, hmem⟩ := hk
  unfold Dev.avsNear
  rw [Dev.rf_wf_same _ _ _ (by decide), Nat.mod_eq_of_lt (by omega : x < 2 ^ 12)]
  exact ⟨h1, h2, h3, h4, (Dev.wf_cores _ _ _).trans hcores, (Dev.wf_mem _ _ _).trans hmem⟩
theorem Dev.avsKeeps_slacks (d : Dev) (slack : List (BitVec 10)) : d.avsKeeps ((upTo 24).foldl (fun d k => d.wf (THM_AM_k_SLACK k) (nth 0 slack k).toNat) d) := by
  have hoff := foldl_keeps (p := Dev.offBus) (l := upTo 24) (f := fun (d : Dev) k => d.wf (THM_AM_k_SLACK k) (nth 0 slack k).toNat) (fun e k _ => e.offBus_wf _ _) d
  have hmv := foldl_keeps (p := fun d : Dev => d.rf THM_AVS_MV) (l := upTo 24) (f := fun (d : Dev) k => d.wf (THM_AM_k_SLACK k) (nth 0 slack k).toNat) (fun e k _ =>
    e.rf_wf_other (THM_AM_k_SLACK k) _ _ (by dsimp only [rTHM_AVS_MV, rTHM_AM_k]; omega)) d
  exact ⟨hmv, Dev.cores_of_offBus hoff, Dev.mem_of_offBus hoff⟩
theorem Dev.avsKeeps_withThm (d : Dev) (t : Thm) : d.avsKeeps (d.withThm t) := ⟨Dev.rf_congr rfl _, rfl, rfl⟩
theorem Dev.avsKeeps_trans {d e f : Dev} (h1 : d.avsKeeps e) (h2 : e.avsKeeps f) : d.avsKeeps f :=
  ⟨h2.1.trans h1.1, h2.2.1.trans h1.2.1, h2.2.2.trans h1.2.2⟩
/-- The end of a step: the limit shown, and the event of ageing the first time. -/
def Dev.avsEnd (d : Dev) (atMax k v : Nat) : Dev :=
  if 60 ≤ atMax then
    let d4 := d.setFlag THM_STS_AVS_AT_MAX true
    if d4.thm.ageing then d4 else { d4.thmEvent 6 k v (d4.rf THM_AVS_MV) with thm.ageing := true }
  else d
theorem Dev.avsKeeps_avsEnd (d : Dev) (atMax k v : Nat) : d.avsKeeps (d.avsEnd atMax k v) := by
  have hset : d.avsKeeps (d.setFlag THM_STS_AVS_AT_MAX true) := ⟨Dev.rf_wf_other _ _ _ _ (by decide), rfl, rfl⟩
  have hevent (e : Dev) (a b c : Int) : e.avsKeeps (e.thmEvent 6 a b c) := by
    obtain ⟨-, -, -, -, -, -, -, hcores, -, hmem, -⟩ := Dev.rest_fields (e.rest_thmEvent 6 a b c)
    exact ⟨Dev.rf_thmEvent _ _ _ _ _ (by decide), hcores, hmem⟩
  unfold Dev.avsEnd
  split
  · extract_lets d4
    split
    · exact hset
    · exact Dev.avsKeeps_trans (Dev.avsKeeps_trans hset (hevent _ _ _ _)) (Dev.avsKeeps_withThm _ _)
  · exact ⟨rfl, rfl, rfl⟩
theorem Dev.avsLoop_near {d : Dev} (slack : List (BitVec 10)) (hpark : d.pmu.park = none) (h1 : 700 ≤ d.rf THM_AVS_MV) (h2 : d.rf THM_AVS_MV ≤ 850) :
    d.avsNear (d.avsLoop slack) := by
  have hslacks := d.avsKeeps_slacks slack
  have hself : d.avsNear d := ⟨h1, h2, Nat.sub_le _ _, Nat.le_add_right _ _, rfl, rfl⟩
  unfold Dev.avsLoop
  rw [if_neg (by rw [hpark]; decide)]
  extract_lets d1 low mv target thm
  have hd1 : d.avsKeeps d1 := hslacks
  clear_value low
  split
  · exact Dev.avsNear_keeps hself hd1
  · next _ v k =>
    extract_lets high atMax d2 d3
    have hmv : mv = d.rf THM_AVS_MV := hd1.1
    have hd2 : d.avsKeeps d2 := Dev.avsKeeps_trans hd1 (d1.avsKeeps_withThm _)
    have hd3 : d.avsNear d3 := by
      dsimp only [d3]
      split
      · exact Dev.avsNear_wf hd2 (by omega) (by omega) (by omega) (by omega)
      · split
        · exact Dev.avsNear_wf hd2 (by omega) (by omega) (by omega) (by omega)
        · exact Dev.avsNear_keeps hself hd2
    exact Dev.avsNear_keeps hd3 (d3.avsKeeps_avsEnd atMax k v)

/-! ### Lifetime (R438) -/

theorem Dev.rf_secondCounted (d : Dev) {b band : Nat} (deg : Nat) (hb : b < 4) (hband : band < 4) :
    ((d.bump (THM_HIST_b_SECONDS band)).wf64 THM_DEGSEC_LO THM_DEGSEC_HI deg).rf (THM_HIST_b_SECONDS b) =
      if b = band then (d.rf (THM_HIST_b_SECONDS b) + 1) % 2 ^ 32 else d.rf (THM_HIST_b_SECONDS b) := by
  unfold Dev.wf64
  rw [Dev.rf_wf_other _ _ _ _ (by dsimp only [rTHM_HIST_b, rTHM_DEGSEC_HI]; omega), Dev.rf_wf_other _ _ _ _ (by dsimp only [rTHM_HIST_b, rTHM_DEGSEC_LO]; omega)]
  split
  · next h =>
    subst h
    exact Dev.rf_bump_same _ _ (by dsimp only; omega)
  · exact Dev.rf_bump_other _ _ _ (by dsimp only [rTHM_HIST_b]; omega)
theorem histBand_lt (h : Int) : histBand h < 4 := by
  unfold histBand
  repeat' split
  all_goals decide

/-- Settles O45. -/
theorem thermalRules : Obligations.ThermalRules := by
  unfold Obligations.ThermalRules
  intro s
  refine ⟨fun d h => ⟨fun hs h1 => ?_, fun hs h1 h2 => ?_, fun hs h1 => ?_, fun hs h1 h2 => ?_, fun hs h1 => ?_, fun hs h1 => ?_, fun hs h1 => ?_⟩, fun raw => ?_,
    fun secs => ⟨fun h => ?_, fun h => ?_, fun x hx hsecs hcool => ?_⟩, ?_, fun c => ?_, fun rails hon => ?_, fun slack hpark h1 h2 => ?_, fun hoff b hb => ?_, fun hon => ?_⟩
  · rw [Dev.thmState_normal hs, if_neg (by omega), if_neg (by omega)]
  · rw [Dev.thmState_normal hs, if_neg (by omega), if_pos h1]
    exact d.state_toWarning h
  · rw [Dev.thmState_warning hs, if_neg (by omega), if_pos h1]
    exact d.state_toClear (by decide) h
  · rw [Dev.thmState_warning hs, if_neg (by omega), if_neg (by omega)]
  · rcases (by omega : d.rf THM_STS_STATE = 0 ∨ d.rf THM_STS_STATE = 1) with h0 | h0
    · rw [Dev.thmState_normal h0, if_pos h1, Dev.stepHot_toThrottle]
    · rw [Dev.thmState_warning h0, if_pos h1, Dev.stepHot_toThrottle]
  · rw [Dev.thmState_throttle hs, if_neg (by omega)]
  · rw [Dev.thmState_throttle hs, if_pos h1]
  · intro past125 d0 peak htrip
    have hsample := Dev.thermalSample_untripped raw htrip
    refine ⟨fun i hi => next_on (hsample.trans ?_), fun hnone => ?_⟩
    · dsimp only
      rw [hi]
    · intro d2
      refine next_on (hsample.trans ?_)
      dsimp only
      rw [hnone]
  · refine congrArg Host.Outcome.next (?_ : s.thermalRestart secs.toNat = s)
    unfold State.thermalRestart
    rw [h]
  · refine congrArg Host.Outcome.next (?_ : s.thermalRestart secs.toNat = s)
    unfold State.thermalRestart
    split
    · rfl
    · exact if_neg fun hgo => absurd hgo.1 (Nat.not_le.2 h)
  · have hrestart : s.thermalRestart secs.toNat = { s.cold 3 with dev := (s.cold 3).dev.recovers (s.dev.rf THM_PEAK, x.1, secs.toNat) } := by
      unfold State.thermalRestart
      rw [hx]
      exact if_pos ⟨hsecs, hcool⟩
    obtain ⟨hregs, hrec, htrip⟩ := (s.cold 3).dev.recovers_keeps (s.dev.rf THM_PEAK, x.1, secs.toNat)
    obtain ⟨hkind, htrigger⟩ := s.dev.allOff.coldAon.resetCause_shown s.sec (kind := 1) (trigger := 3) (by decide) (by decide)
    obtain ⟨-, hcold⟩ := s.cold_keeps 3
    refine ⟨_, congrArg Host.Outcome.next hrestart, ?_⟩
    dsimp only
    rw [Dev.rf_congr hregs, Dev.rf_congr hregs, hrec, htrip, State.cold_dev, hkind, htrigger, ← State.cold_dev, hcold]
    exact ⟨rfl, rfl, rfl, rfl, rfl⟩
  · intro hot cap
    rw [exec_throttleStep]
    refine ⟨fun h => next_on (if_neg h), fun h hhot hcap => next_on ?_, fun h hstay => next_on ?_⟩
    · rw [if_pos h, if_pos ⟨hhot, hcap⟩, Dev.stepped]
    · rw [if_pos h, if_neg, Dev.stepped]
      rintro ⟨hhot, hcap⟩
      omega
  · intro d
    refine ⟨fun hr hlo hhi => (pq_ready hr _).trans ?_, fun hr => pq_ready hr _⟩
    rw [checks_pass, checks_nil]
    simp only [Bool.or_eq_false_iff, decide_eq_false_iff_not]
    omega
  · obtain ⟨hnow, hlen, hne⟩ := s.dev.telemetry_keeps rails
    refine ⟨s.on (s.dev.telemetry rails), next_on (if_pos hon), hlen, hne, hnow, rfl⟩
  · exact ⟨s.on (s.dev.avsLoop slack), rfl, Dev.avsLoop_near slack hpark h1 h2⟩
  · have hexec : exec .lifetimeSecond s = .next (s.on (s.dev.bump (THM_HIST_b_SECONDS (histBand (toSigned 12 (s.dev.rf THM_HOTTEST_TEMP)))) |>.wf64 THM_DEGSEC_LO THM_DEGSEC_HI
        (ofSigned 64 (toSigned 64 (s.dev.rf64 THM_DEGSEC_LO THM_DEGSEC_HI) + toSigned 12 (s.dev.rf THM_HOTTEST_TEMP) / 4)))) := by
      refine next_on (if_neg ?_)
      unfold Dev.domOn Dev.dom Dev.wf64
      rw [Dev.rf_wf_other _ _ _ _ (by decide), Dev.rf_wf_other _ _ _ _ (by decide), Dev.rf_bump_other _ _ _ (by dsimp only [rTHM_HIST_b, rPMU_PDd_STS]; omega)]
      exact Bool.not_eq_true _ ▸ hoff
    exact ⟨_, hexec, Dev.rf_secondCounted _ _ hb (histBand_lt _)⟩
  · exact ⟨_, if_pos hon, rfl, rfl⟩

end Sys2Proof.Machine

/-! SUPPORT. The carrier commands and their boundary (R78, R82, R228, R380). -/

namespace Sys2Proof.Machine

/-! ### An enable that is judged (R230, R247, R380) -/

section
variable {d : Dev} {init : Initiator} {off value cmds : Nat} {f : Fld} {bad : Dev → Bool} (hr : (d.busWr init off value).2 = .yes cmds)
include hr
theorem Dev.enableWr_refused (h0 : d.flag f = false) (h1 : (d.busWr init off value).1.flag f = true) (hb : bad (d.busWr init off value).1 = true) :
    (d.enableWr init off value f bad).1 = ((d.busWr init off value).1.setFlag f false).regErr .ignored off init := by
  unfold Dev.enableWr
  dsimp only
  rw [hr, h0, h1, hb]
  rfl
theorem Dev.enableWr_taken (h : d.flag f = (d.busWr init off value).1.flag f ∨ (d.busWr init off value).1.flag f = false ∨ bad (d.busWr init off value).1 = false) :
    (d.enableWr init off value f bad).1 = (d.busWr init off value).1 := by
  unfold Dev.enableWr
  dsimp only
  rw [hr]
  dsimp only
  split
  · rfl
  · next hne =>
    refine congrArg Prod.fst (if_neg fun hgo => ?_)
    obtain ⟨hon, hbad⟩ := Bool.and_eq_true_iff.1 hgo
    rcases h with h | h | h
    · exact hne (beq_iff_eq.2 h)
    · exact Bool.false_ne_true (h.symm.trans hon)
    · exact Bool.false_ne_true (h.symm.trans hbad)
end

/-! ### The narrowband channels of a GSM carrier (R277) -/

/-- A register of the narrowband block. -/
def nbbReg (o : Nat) : Prop := 0x1800000 ≤ o ∧ o < 0x1C00000
/-- The device less its registers, its guard and the narrowband block. -/
def Dev.offNbb (d : Dev) : Dev := { d with regs := [], guardOpen := false, nbb := Nbb.reset }
/-- A stage that touches the narrowband block alone. -/
def Dev.nbbOnly (d e : Dev) : Prop := e.offNbb = d.offNbb ∧ ∀ o, ¬ nbbReg o → e.reg o = d.reg o
theorem Dev.nbbOnly_refl (d : Dev) : d.nbbOnly d := ⟨rfl, fun _ _ => rfl⟩
theorem Dev.nbbOnly_trans {d e f : Dev} (h1 : d.nbbOnly e) (h2 : e.nbbOnly f) : d.nbbOnly f :=
  ⟨h2.1.trans h1.1, fun o ho => (h2.2 o ho).trans (h1.2 o ho)⟩
theorem Dev.offNbb_wf (d : Dev) (f : Fld) (v : Nat) : (d.wf f v).offNbb = d.offNbb := rfl
theorem Dev.nbbOnly_wf (d : Dev) {f : Fld} (v : Nat) (hf : nbbReg f.off) : d.nbbOnly (d.wf f v) :=
  ⟨d.offNbb_wf f v, fun _ ho => Dev.reg_wf_other _ _ _ _ fun h => ho (h ▸ hf)⟩
theorem Dev.nbbOnly_chans (d : Dev) (t : Tab NbChan) : d.nbbOnly { d with nbb.chans := t } := ⟨rfl, fun _ _ => rfl⟩
theorem nbbReg_chan {n c : Nat} (hn : n < 256) (hc : c < 0x40) : nbbReg (0x1801000 + c + 0x40 * n) := by
  unfold nbbReg
  omega

theorem Dev.nbbOnly_nbSet (d : Dev) {n : Nat} (hn : n < 256) (x : NbChan) (st : Nat) : d.nbbOnly (d.nbSet n x st) := by
  have hreg : nbbReg (rNBB_CHn_STS n) := nbbReg_chan (c := 0x30) hn (by decide)
  have hflag (e : Dev) (lo : Nat) (b : Bool) : e.nbbOnly (e.setFlag ⟨rNBB_CHn_STS n, lo, 1⟩ b) := e.nbbOnly_wf _ hreg
  unfold Dev.nbSet
  exact Dev.nbbOnly_trans (Dev.nbbOnly_trans (Dev.nbbOnly_trans (d.nbbOnly_wf _ hreg) (hflag _ _ _)) (hflag _ _ _)) (Dev.nbbOnly_chans _ _)
theorem Dev.nbRoles_begun (d : Dev) (n : Nat) : d.nbRoles n false false = if d.flag (NBB_CHn_CTL_RX_EN n) then d.nbSet n (NbChan.fresh d.now) 1 else d := by
  unfold Dev.nbRoles
  cases h : d.flag (NBB_CHn_CTL_RX_EN n) <;> rfl
theorem Dev.nbbOnly_nbWrite (d : Dev) {n : Nat} (hn : n < 256) (src cc capMode capTh modu rate3 sps bt h : Nat) (ofs : Int) (rx : Bool) :
    d.nbbOnly (d.nbWrite n src cc capMode capTh modu rate3 sps bt h ofs rx) := by
  have hmod : nbbReg (rNBB_CHn_MOD n) := nbbReg_chan (c := 0x04) hn (by decide)
  have hrate : nbbReg (rNBB_CHn_RATE n) := nbbReg_chan (c := 0x08) hn (by decide)
  have hshape : nbbReg (rNBB_CHn_SHAPE n) := nbbReg_chan (c := 0x0C) hn (by decide)
  have hofs : nbbReg (rNBB_CHn_OFFSET n) := nbbReg_chan (c := 0x10) hn (by decide)
  have hdet : nbbReg (rNBB_CHn_DET n) := nbbReg_chan (c := 0x14) hn (by decide)
  unfold Dev.nbWrite
  extract_lets d1
  have h1 : d.nbbOnly d1 := by
    refine Dev.nbbOnly_trans ?_ (Dev.nbbOnly_wf _ _ hofs)
    refine Dev.nbbOnly_trans ?_ (Dev.nbbOnly_wf _ _ hshape)
    refine Dev.nbbOnly_trans ?_ (Dev.nbbOnly_wf _ _ hshape)
    refine Dev.nbbOnly_trans ?_ (Dev.nbbOnly_wf _ _ hrate)
    refine Dev.nbbOnly_trans ?_ (Dev.nbbOnly_wf _ _ hmod)
    refine Dev.nbbOnly_trans ?_ (Dev.nbbOnly_wf _ _ hmod)
    exact Dev.nbbOnly_trans (Dev.nbbOnly_wf _ _ hmod) (Dev.nbbOnly_wf _ _ hmod)
  split
  · exact Dev.nbbOnly_trans (Dev.nbbOnly_trans h1 (Dev.nbbOnly_wf _ _ hmod)) (Dev.nbbOnly_wf _ _ hdet)
  · exact h1
theorem nth_lt {m dflt : Nat} (hd : dflt < m) : ∀ {l : List Nat}, (∀ x ∈ l, x < m) → ∀ i, nth dflt l i < m
  | [], _, _ => hd
  | a :: _, h, 0 => h a List.mem_cons_self
  | _ :: _, h, i + 1 => nth_lt hd (fun x hx => h x (List.mem_cons_of_mem _ hx)) i
theorem Dev.nbbOnly_gsmPlace (d : Dev) (cc : Nat) {chs : List Nat} (hchs : ∀ x ∈ chs, x < 256) : d.nbbOnly (d.gsmPlace cc chs) := by
  unfold Dev.gsmPlace
  refine List.foldlRecOn (motive := fun e => d.nbbOnly e) _ _ d.nbbOnly_refl fun e he i _ => Dev.nbbOnly_trans he ?_
  extract_lets n d1
  have hn : n < 256 := nth_lt (by decide) hchs i
  have h1 : e.nbbOnly d1 := e.nbbOnly_nbWrite hn _ _ _ _ _ _ _ _ _ _ _
  clear_value d1 n
  have hctl : nbbReg (rNBB_CHn_CTL n) := nbbReg_chan (c := 0) hn (by decide)
  have hrole : e.nbbOnly (d1.setFlag (if i = chs.length - 1 then NBB_CHn_CTL_TX_EN n else NBB_CHn_CTL_RX_EN n) true) := by
    split
    · exact Dev.nbbOnly_trans h1 (d1.nbbOnly_wf _ hctl)
    · exact Dev.nbbOnly_trans h1 (d1.nbbOnly_wf _ hctl)
  generalize d1.setFlag (if i = chs.length - 1 then NBB_CHn_CTL_TX_EN n else NBB_CHn_CTL_RX_EN n) true = d2 at hrole ⊢
  rw [Dev.nbRoles_begun]
  split
  · exact Dev.nbbOnly_trans hrole (d2.nbbOnly_nbSet hn _ _)
  · exact hrole

/-! ### The boundary of CARRIER_ADD (R228) -/

theorem Dev.offBus_carWrite (d : Dev) (cc n : Nat) (p : CarrierPar) : (d.carWrite cc n p).offBus = d.offBus := by
  unfold Dev.carWrite
  dsimp only
  split
  · rw [Dev.offBus_setFlag, Dev.offBus_wf, Dev.offBus_wf, Dev.offBus_wf, Dev.offBus_setReg]
  · rw [Dev.offBus_setFlag, Dev.offBus_wf, Dev.offBus_wf, Dev.offBus_wf, Dev.offBus_setReg, Dev.offBus_wf, Dev.offBus_setReg]
theorem Dev.carWrite_enables (d : Dev) (cc n : Nat) (p : CarrierPar) :
    (d.carWrite cc n p).flag (if p.remote then ETH_CCc_CTL_ENABLE cc else DFE_CCc_CTL_ENABLE cc) = true := by
  unfold Dev.carWrite
  dsimp only
  split
  · exact Dev.flag_setFlag_same _ _ _ (by dsimp only; omega) rfl
  · exact Dev.flag_setFlag_same _ _ _ (by dsimp only; omega) rfl
theorem Dev.nrb_carWrite (d : Dev) (cc n : Nat) {p : CarrierPar} (hp : p.remote = false) : (d.carWrite cc n p).rf (DFE_CCc_NRB cc) = p.nrb % 2 ^ (DFE_CCc_NRB cc).w := by
  unfold Dev.carWrite
  dsimp only
  rw [if_neg (by rw [hp]; decide), Dev.setFlag, Dev.rf_wf_other _ _ _ _ (by dsimp only [rDFE_CCc_NRB, rDFE_CCc_CTL]; omega)]
  exact Dev.rf_wf_same _ _ _ (by dsimp only; omega)
/-- Firmware's record of a placed carrier and its pair. -/
def Dev.placedAs (d : Dev) (cc : Nat) (x : Carrier) (upq : Nat) : Dev :=
  { d with fw.carriers := Tab.put d.fw.carriers cc x, fw.bind := Tab.put d.fw.bind cc upq }
theorem Dev.placedAs_keeps (d : Dev) (cc : Nat) (x : Carrier) (upq : Nat) : (d.placedAs cc x upq).regs = d.regs ∧ (d.placedAs cc x upq).now = d.now ∧
    (d.placedAs cc x upq).cores = d.cores ∧ Tab.find (d.placedAs cc x upq).fw.carriers cc = some x ∧ Tab.find (d.placedAs cc x upq).fw.bind cc = some upq :=
  ⟨rfl, rfl, rfl, (Tab.find_put _ _ _ _).trans (if_pos rfl), (Tab.find_put _ _ _ _).trans (if_pos rfl)⟩
theorem Dev.carAddNow_eq (d : Dev) (cc n : Nat) (p : CarrierPar) (mirror : Bool) (chs : List Nat) : ∃ x : Carrier, x.placed = true ∧
    d.carAddNow cc n p mirror chs = ((d.carWrite cc n p).placedAs cc x p.upq).gsmPlace cc chs := ⟨_, rfl, rfl⟩
theorem Dev.nbbOnly_fields {d e : Dev} (h : d.nbbOnly e) : e.now = d.now ∧ e.cores = d.cores ∧ e.fw = d.fw :=
  ⟨congrArg (·.now) h.1, congrArg (·.cores) h.1, congrArg (·.fw) h.1⟩
theorem Dev.rf_nbbOnly {d e : Dev} (h : d.nbbOnly e) {f : Fld} (hf : ¬ nbbReg f.off) : e.rf f = d.rf f :=
  congrArg (fun v => bitsAt v f.lo f.w) (h.2 f.off hf)

/-! ### The commands (R82) -/

section
variable {d : Dev} {c : PqCmd}
theorem Dev.carrierAdd_bad (h : d.badTarget c = true ∨ d.carBad (pp c 0) c.timeline.toNat c.target.toNat (carPar c) = true) : d.carrierAdd c = d.fin c badParam :=
  checks_fail _ _ _ _ _ _ (Bool.or_eq_true_iff.2 h)
theorem Dev.carrierAdd_busy (ht : d.badTarget c = false) (hb : d.carBad (pp c 0) c.timeline.toNat c.target.toNat (carPar c) = false)
    (h : (Tab.find d.fw.carriers (pp c 0)).isSome = true ∨ d.ccOn (pp c 0) = true ∨ d.ethCcOn (pp c 0) = true ∨
      ((carPar c).std = 2 ∧ d.gsmChannels (carPar c).portCount = none)) : d.carrierAdd c = d.fin c busyS := by
  unfold Dev.carrierAdd
  dsimp only
  rw [checks_pass _ _ _ _ _ _ (by rw [ht, hb]; rfl)]
  refine checks_fail _ _ _ _ _ _ ?_
  rcases h with h | h | h | ⟨hstd, h⟩
  · simp [h]
  · simp [h]
  · simp [h]
  · simp [hstd, h]
theorem Dev.carrierAdd_staged (ht : d.badTarget c = false) (hb : d.carBad (pp c 0) c.timeline.toNat c.target.toNat (carPar c) = false) {chs : List Nat}
    (hnew : Tab.find d.fw.carriers (pp c 0) = none) (hcc : d.ccOn (pp c 0) = false) (heth : d.ethCcOn (pp c 0) = false)
    (hgsm : (carPar c).std = 2 → d.gsmChannels (carPar c).portCount = some chs) (hnone : (carPar c).std ≠ 2 → chs = []) :
    d.carrierAdd c =
      let d1 := d.stage c 0x0201 false (.carrierAdd (pp c 0) (carPar c) (hasMirror c) chs)
      { d1 with fw.carriers := Tab.put d1.fw.carriers (pp c 0) ⟨carPar c, c.timeline.toNat, 1, 0, 0, hasMirror c, false⟩ }.fin c okS := by
  have hchs : (if (carPar c).std = 2 then d.gsmChannels (carPar c).portCount else some []) = some chs := by
    split
    · next h => exact hgsm h
    · next h => rw [hnone h]
  unfold Dev.carrierAdd
  dsimp only
  rw [hchs, checks_pass _ _ _ _ _ _ (by rw [ht, hb]; rfl), checks_pass _ _ _ _ _ _ (by rw [hnew, hcc, heth]; rfl), checks_nil]
  rfl
/-- A command for a carrier that firmware holds on its timeline, added by then. -/
theorem Dev.carrierModify_known {x : Carrier} (hx : Tab.find d.fw.carriers (pp c 0) = some x) (htl : x.tl = c.timeline.toNat) (ht : d.badTarget c = false)
    (hlater : d.addLater (pp c 0) c.timeline.toNat c.target.toNat = false) (hstate : x.state ≠ 3)
    (hb : d.carBad (pp c 0) c.timeline.toNat c.target.toNat (carPar c) = false) :
    d.carrierModify c = d.checks c [((carPar c).std == 2 && !(x.par.std == 2 && x.par.portCount == (carPar c).portCount) &&
      (d.gsmChannels (carPar c).portCount).isNone, busyS)] fun d => (d.stage c 0x0202 false (.carrierModify (pp c 0) (carPar c) (hasMirror c))).fin c okS := by
  unfold Dev.carrierModify
  dsimp only
  rw [hx, checks_pass]
  · rfl
  · simp [ht, hb, hlater, htl, hstate]
theorem Dev.carrierRemove_known {x : Carrier} (hx : Tab.find d.fw.carriers (pp c 0) = some x) (htl : x.tl = c.timeline.toNat) (ht : d.badTarget c = false)
    (hlater : d.addLater (pp c 0) c.timeline.toNat c.target.toNat = false) :
    d.carrierRemove c = d.checks c [(x.state == 3, busyS)] fun d =>
      let d1 := d.stage c 0x0203 false (.carrierRemove (pp c 0))
      { d1 with fw.carriers := Tab.upd d1.fw.carriers (pp c 0) fun x => { x with state := 3 } }.fin c okS := by
  unfold Dev.carrierRemove
  dsimp only
  rw [hx, checks_pass]
  · rfl
  · simp [ht, hlater, htl]
theorem Dev.carrierModify_absent (hx : Tab.find d.fw.carriers (pp c 0) = none) : d.carrierModify c = d.fin c badParam := by
  unfold Dev.carrierModify
  dsimp only
  rw [hx]
  exact checks_fail _ _ _ _ _ _ (by simp)
theorem Dev.carrierRemove_absent (hx : Tab.find d.fw.carriers (pp c 0) = none) : d.carrierRemove c = d.fin c badParam := by
  unfold Dev.carrierRemove
  dsimp only
  rw [hx]
  exact checks_fail _ _ _ _ _ _ (by simp)
end

/-- Settles O50. -/
theorem carrierRules : Obligations.CarrierRules := by
  unfold Obligations.CarrierRules
  intro s
  refine ⟨fun c => ?_, fun d cc n p mirror chs hcc hchs => ?_, fun init c value cmds => ?_⟩
  · intro d cc n p
    have hp : carPar c = p := rfl
    refine ⟨fun hr h => (pq_ready hr _).trans (next_on (Dev.carrierAdd_bad h)), fun hr ht hb => ⟨fun h => (pq_ready hr _).trans (next_on (Dev.carrierAdd_busy ht hb h)),
      fun chs hnew hcc heth hgsm hnone => (pq_ready hr _).trans (next_on (Dev.carrierAdd_staged ht hb hnew hcc heth hgsm hnone))⟩,
      fun x hx htl ht hlater => ⟨fun hr hstate hb => ⟨fun h => ?_, fun h1 h2 h3 => ?_⟩, fun hr => ⟨fun h => ?_, fun h => ?_⟩⟩,
      fun hx => ⟨fun hr => (pq_ready hr _).trans (next_on (Dev.carrierModify_absent hx)), fun hr => (pq_ready hr _).trans (next_on (Dev.carrierRemove_absent hx)),
        fun hr hcc => (pq_ready hr _).trans ?_⟩, fun x hr hcc hx => (pq_ready hr _).trans ?_⟩
    · refine (pq_ready hr _).trans (next_on ((Dev.carrierModify_known hx htl ht hlater hstate hb).trans (checks_pass _ _ _ _ _ _ ?_)))
      rcases h with h | ⟨h1, h2⟩ | h
      · simp [hp, h]
      · simp [hp, h1, h2]
      · simp [hp, h]
    · refine (pq_ready hr _).trans (next_on ((Dev.carrierModify_known hx htl ht hlater hstate hb).trans (checks_fail _ _ _ _ _ _ ?_)))
      rcases h2 with h2 | h2
      · simp [hp, h1, h2, h3]
      · simp [hp, h1, h2, h3]
    · exact (pq_ready hr _).trans (next_on ((Dev.carrierRemove_known hx htl ht hlater).trans (checks_fail _ _ _ _ _ _ (beq_iff_eq.2 h))))
    · exact (pq_ready hr _).trans (next_on ((Dev.carrierRemove_known hx htl ht hlater).trans (checks_pass _ _ _ _ _ _ (beq_eq_false_iff_ne.2 h))))
    · rw [checks_pass _ _ _ _ _ _ (decide_eq_false (Nat.not_le.2 hcc)), checks_nil, show Tab.find (s.began c).fw.carriers (pp c 0) = none from hx]
    · rw [checks_pass _ _ _ _ _ _ (decide_eq_false (Nat.not_le.2 hcc)), checks_nil, show Tab.find (s.began c).fw.carriers (pp c 0) = some x from hx]
  · obtain ⟨x, hx, hadd⟩ := d.carAddNow_eq cc n p mirror chs
    obtain ⟨hregs, hnow, hcores, hcar, hbind⟩ := (d.carWrite cc n p).placedAs_keeps cc x p.upq
    have honly := ((d.carWrite cc n p).placedAs cc x p.upq).nbbOnly_gsmPlace cc hchs
    obtain ⟨gnow, gcores, gfw⟩ := Dev.nbbOnly_fields honly
    obtain ⟨wnow, -, -, wcores, -⟩ := Dev.offBus_fields (d.offBus_carWrite cc n p)
    have hflag : ¬ nbbReg (if p.remote then ETH_CCc_CTL_ENABLE cc else DFE_CCc_CTL_ENABLE cc).off := by
      unfold nbbReg
      split
      · dsimp only [rETH_CCc_CTL]
        omega
      · dsimp only [rDFE_CCc_CTL]
        omega
    have hnrb : ¬ nbbReg (DFE_CCc_NRB cc).off := by
      unfold nbbReg
      dsimp only [rDFE_CCc_NRB]
      omega
    intro t
    rw [show t = _ from hadd, gfw, gnow, gcores, hcar, hbind, hnow, hcores, wnow, wcores, Dev.rf_nbbOnly honly hnrb, Dev.rf_congr hregs]
    refine ⟨rfl, congrArg some hx, ?_, fun hp => Dev.nrb_carWrite d cc n hp, rfl, rfl⟩
    unfold Dev.flag
    rw [Dev.rf_nbbOnly honly hflag, Dev.rf_congr hregs]
    exact Dev.carWrite_enables d cc n p
  · intro f r hr
    refine ⟨fun h0 h1 hb => next_on (Dev.enableWr_refused hr h0 h1 ?_), fun h => next_on (Dev.enableWr_taken hr ?_)⟩
    · rcases hb with hb | hb
      · exact Bool.or_eq_true_iff.2 (.inl hb)
      · exact Bool.or_eq_true_iff.2 (.inr (by simpa using hb))
    · rcases h with h | h | ⟨h1, h2⟩
      · exact .inl h
      · exact .inr (.inl h)
      · exact .inr (.inr (Bool.or_eq_false_iff.2 ⟨h1, by simpa using h2⟩))

end Sys2Proof.Machine

/-! SUPPORT. Lanes and links: starting and locking lanes, bring-up, loss, tests and scans (R352-R372). -/

namespace Sys2Proof.Machine

/-! ### Lanes that start and lock (R355, R356) -/

/-- Time, and the generation under equalisation: what lanes that start and lock leave. -/
def Dev.training (d : Dev) : Nat × Option Nat := (d.now, d.zth.eqGen)
theorem Dev.training_of_rest {d e : Dev} (h : e.rest = d.rest) : e.training = d.training := by
  obtain ⟨hnow, -, -, -, -, -, -, -, -, -, -, -, -, -, -, -, hzth, -⟩ := Dev.rest_fields h
  unfold Dev.training
  rw [hnow, hzth]
theorem Dev.training_wf (d : Dev) (f : Fld) (v : Nat) : (d.wf f v).training = d.training := rfl
theorem Dev.training_setFlag (d : Dev) (f : Fld) (b : Bool) : (d.setFlag f b).training = d.training := rfl
theorem Dev.training_laneEvent (d : Dev) (code i rate x : Nat) : (d.laneEvent code i rate x).training = d.training :=
  Dev.training_of_rest (d.rest_event _ _ _ _ _)
theorem Dev.training_noEntry (d : Dev) (l : List (Nat × Nat)) : ({ d with zth.noEntry := l } : Dev).training = d.training := rfl
theorem Dev.training_lostAt (d : Dev) (t : Tab Nat) : ({ d with zth.lostAt := t } : Dev).training = d.training := rfl
theorem Dev.training_laneStart (d : Dev) (i r : Nat) : (d.laneStart i r).1.training = d.training := by
  unfold Dev.laneStart
  split
  · next e _ =>
    extract_lets d1 d2
    have h1 : d1.training = d.training := (Dev.training_setFlag _ _ _).trans (d.training_wf _ _)
    have h2 : d2.training = d.training := by
      dsimp only [d2]
      split
      · exact h1
      · exact (d1.training_wf _ _).trans h1
    dsimp only
    split
    · exact h2
    · exact (d2.training_wf _ _).trans h2
  · split
    · exact (Dev.training_setFlag _ _ _).trans (d.training_wf _ _)
    · extract_lets d1
      have h1 : d1.training = d.training := d.training_setFlag _ _
      split
      · exact h1
      · exact ((Dev.training_laneEvent _ _ _ _ _).trans (d1.training_noEntry _)).trans h1
theorem Dev.training_startAll (d : Dev) (lanes : List Nat) (r : Nat) : (d.startAll lanes r).1.training = d.training :=
  List.foldlRecOn (motive := fun e : Dev × Bool => e.1.training = d.training) lanes _ rfl fun e he i _ => (e.1.training_laneStart i r).trans he
theorem Dev.training_setLock (d : Dev) (i : Nat) (b : Bool) : (d.setLock i b).training = d.training := by
  unfold Dev.setLock
  rw [Dev.training_setFlag, Dev.training_setFlag, Dev.training_setFlag]
theorem Dev.training_lockAgain (d : Dev) (i : Nat) : (d.lockAgain i).training = d.training := by
  unfold Dev.lockAgain
  extract_lets d1 z d2
  have h1 : d1.training = d.training := d.training_setLock i true
  have h2 : d2.training = d.training := (d1.training_lostAt _).trans h1
  split
  · split
    · exact (d2.training_laneEvent _ _ _ _).trans h2
    · exact h2
  · exact h1
theorem Dev.training_lockAll (d : Dev) (lanes : List Nat) : (lanes.foldl Dev.lockAgain d).training = d.training :=
  foldl_keeps (p := Dev.training) (fun e i _ => e.training_lockAgain i) d

/-! ### Ethernet links (R358, R376) -/

/-- The device with the links whose failed training was reported. -/
def Dev.withFailed (d : Dev) (l : List Nat) : Dev := { d with zth.failed := l }
theorem Dev.withFailed_keeps (d : Dev) (l : List Nat) : (d.withFailed l).regs = d.regs ∧ (d.withFailed l).now = d.now ∧ (d.withFailed l).zth.failed = l ∧
    (d.withFailed l).zth.eqGen = d.zth.eqGen := ⟨rfl, rfl, rfl, rfl⟩
theorem Dev.synceCheck_keeps (d : Dev) : d.synceCheck.now = d.now ∧ d.synceCheck.zth = d.zth ∧ ∀ o, 0x400000 ≤ o → d.synceCheck.reg o = d.reg o := by
  unfold Dev.synceCheck
  extract_lets lost t d1
  have h1 : d1.now = d.now ∧ d1.zth = d.zth ∧ d1.regs = d.regs := ⟨rfl, rfl, rfl⟩
  clear_value d1
  obtain ⟨hnow, hzth, hregs⟩ := h1
  split
  · obtain ⟨enow, -, -, -, -, -, -, -, -, -, -, -, -, -, -, -, ezth, -⟩ := Dev.rest_fields (d1.rest_event 2 4 (d.rf TMU_SYNCE_PORT) 0 0)
    exact ⟨enow.trans hnow, ezth.trans hzth, fun o ho => (d1.reg_event ho _ _ _ _ _).trans (Dev.reg_eq_of_regs hregs o)⟩
  · exact ⟨hnow, hzth, fun o _ => Dev.reg_eq_of_regs hregs o⟩
theorem not_contains_filter (l : List Nat) (k : Nat) : (l.filter (· != k)).contains k = false := by
  rw [List.contains_eq_mem]
  simp

section
variable {d : Dev} {k : Nat} {lanes : List Nat} (hlanes : d.ethLanes k = some lanes)
include hlanes
theorem Dev.ethDown_up (hup : d.ethUp k = true) : d.ethDown k = (lanes.foldl (fun d i => (d.loseLock i).tapsBoard i) (d.setFlag (ethUpF k) false)).synceCheck := by
  unfold Dev.ethDown
  rw [if_neg (by rw [hup]; decide), hlanes]
  rfl
/-- A bring-up that no condition holds back. -/
theorem Dev.ethBringup_runs {step : Nat} (hrun : d.domRun (57 + k / 4) = true) (hpll : d.flag CKR_PLL_STS_ETH_LOCK = true)
    (hport : d.flag (ETH_Pp_CTL_ENABLE (k / 4)) = true) (hdown : d.ethUp k = false) (hstart : (d.startAll lanes 0x12).2 = true)
    (hstep : d.flag (ZTH_ETH_p_CFG_AN (k / 4)) = true ∨ (step ≠ 2 ∧ step ≠ 3)) : d.ethBringup k step =
      if 0 < step then (lanes.foldl Dev.tapsBoard (d.startAll lanes 0x12).1).trainFailed k (84 + k) step
      else
        let d1 := (lanes.foldl Dev.lockAgain (d.startAll lanes 0x12).1).setFlag (ethUpF k) true
        let f := d1.fresh (2 ^ 16)
        ((f.1.wf (ETH_Lk_RX_SKEW k) f.2).withFailed (f.1.zth.failed.filter (· != k))).synceCheck := by
  have hskip : (!d.flag (ZTH_ETH_p_CFG_AN (k / 4)) && (step == 2 || step == 3)) = false := by
    rcases hstep with h | ⟨h2, h3⟩
    · rw [h]
      rfl
    · rw [beq_eq_false_iff_ne.2 h2, beq_eq_false_iff_ne.2 h3]
      exact Bool.and_false _
  unfold Dev.ethBringup
  dsimp only
  rw [hlanes]
  dsimp only
  rw [if_neg (by rw [hrun, hpll, hport, hdown, hskip]; decide), if_neg (by rw [hstart]; decide)]
  rfl
end
theorem Dev.fresh_keeps (d : Dev) (m : Nat) : (d.fresh m).1.regs = d.regs ∧ (d.fresh m).1.now = d.now := ⟨rfl, rfl⟩
/-- A link that has come up. -/
theorem Dev.linkUp_keeps (d : Dev) (k : Nat) : let d1 := d.setFlag (ethUpF k) true
    let f := d1.fresh (2 ^ 16)
    let t := ((f.1.wf (ETH_Lk_RX_SKEW k) f.2).withFailed (f.1.zth.failed.filter (· != k))).synceCheck
    t.ethUp k = true ∧ t.zth.failed.contains k = false ∧ t.now = d.now := by
  extract_lets d1 f t
  have hd1 : d1.flag (ethUpF k) = true ∧ d1.now = d.now := ⟨d.flag_setFlag_same _ _ (by dsimp only [ethUpF]; omega) rfl, rfl⟩
  obtain ⟨fregs, fnow⟩ := d1.fresh_keeps (2 ^ 16)
  obtain ⟨wregs, wnow, wfailed, -⟩ := (f.1.wf (ETH_Lk_RX_SKEW k) f.2).withFailed_keeps (f.1.zth.failed.filter (· != k))
  obtain ⟨snow, szth, sreg⟩ := ((f.1.wf (ETH_Lk_RX_SKEW k) f.2).withFailed (f.1.zth.failed.filter (· != k))).synceCheck_keeps
  refine ⟨?_, ?_, ?_⟩
  · have hreg : t.reg (ethUpF k).off = d1.reg (ethUpF k).off := by
      refine (sreg _ (by dsimp only [ethUpF, rETH_Pp_STS]; omega)).trans ((Dev.reg_eq_of_regs wregs _).trans ?_)
      refine (Dev.reg_wf_other _ (ETH_Lk_RX_SKEW k) _ _ (by dsimp only [ethUpF, rETH_Pp_STS, rETH_Lk_RX_SKEW]; omega)).trans (Dev.reg_eq_of_regs fregs _)
    unfold Dev.ethUp Dev.flag Dev.rf
    rw [hreg]
    exact hd1.1
  · rw [show t.zth = _ from szth, wfailed]
    exact not_contains_filter _ _
  · exact snow.trans (wnow.trans (fnow.trans hd1.2))

/-- The device with tap `key` moved to `v`. -/
def Dev.withTap (d : Dev) (key : Nat) (v : Int) : Dev := { d with zth.taps := Tab.setD (fun _ => (0 : Int)) d.zth.taps key v }
/-- A request to move a tap of a lane whose port negotiates. -/
theorem exec_ethTrainRequest {s : State} {lane : Fin 16} {tap : Fin 4} {e : LaneEntry} {k : Nat} (he : s.dev.entry (84 + lane.val) 0x12 = some e)
    (hport : s.dev.flag (ETH_Pp_CTL_ENABLE (lane.val / 4)) = true) (han : s.dev.flag (ZTH_ETH_p_CFG_AN (lane.val / 4)) = true)
    (hrun : s.dev.domRun (57 + lane.val / 4) = true) (hpll : s.dev.lanePll (84 + lane.val) = true) (hlink : s.dev.linkOf (84 + lane.val) = some k) (up : Bool) :
    exec (.ethTrainRequest lane tap up) s = .next (s.on <| if s.dev.ethUp k then s.dev else
      let v := Tab.getD (fun _ => (0 : Int)) s.dev.zth.taps (4 * (84 + lane.val) + tap.val) + if up then 1 else -1
      if v.natAbs ≤ e.window then s.dev.withTap (4 * (84 + lane.val) + tap.val) v else s.dev) := by
  refine next_on ?_
  dsimp only
  rw [he]
  dsimp only
  rw [hport, han, hrun, hpll, hlink]
  rfl

/-! ### The twin link and PCI Express (R359-R361) -/

/-- The rate code both sides of the twin link take, and its lanes started at it. -/
def Dev.twinRate (d : Dev) (partner : Nat) : Nat := min (min (d.twinBest.getD 0) partner) d.zth.twinCap
def Dev.twinStarted (d : Dev) (partner : Nat) : Dev × Bool := (d.startAll twinLanes 0x10).1.startAll twinLanes (0x10 + d.twinRate partner)
/-- The link up on the lanes of `e`. -/
def Dev.twinComesUp (e : Dev) (rate : Nat) : Dev :=
  (((twinLanes.foldl Dev.lockAgain e).wf ZTH_TWIN_STS_RATE (rate + 1)).setFlag ZTH_TWIN_STS_UP true).withFailed
    ((twinLanes.foldl Dev.lockAgain e).zth.failed.filter (· != 16))
section
variable {d : Dev} {partner : Nat} (hwant : d.twinWanted = true) (hrun : d.domRun 61 = true) (hpll : d.flag CKR_PLL_STS_ETH_LOCK = true)
  (hdown : d.twinUp = false) (hstart : (d.startAll twinLanes 0x10).2 = true)
include hwant hrun hpll hdown hstart
theorem Dev.twinTrain_started (hy : (d.twinStarted partner).2 = true) : d.twinTrain partner = (d.twinStarted partner).1.twinComesUp (d.twinRate partner) := by
  unfold Dev.twinStarted Dev.twinRate at hy
  unfold Dev.twinTrain Dev.twinComesUp Dev.twinStarted Dev.twinRate Dev.withFailed
  rw [if_neg (by rw [hwant, hrun, hpll, hdown]; decide)]
  dsimp only
  rw [if_neg (by rw [hstart]; decide), hy]
  exact if_neg (by decide)
theorem Dev.twinTrain_stuck (hy : (d.twinStarted partner).2 = false) : d.twinTrain partner = { (d.twinStarted partner).1 with zth.twinPeer := some partner } := by
  unfold Dev.twinStarted Dev.twinRate at hy
  unfold Dev.twinTrain Dev.twinStarted Dev.twinRate
  rw [if_neg (by rw [hwant, hrun, hpll, hdown]; decide)]
  dsimp only
  rw [if_neg (by rw [hstart]; decide), hy]
  exact if_pos (by decide)
end
/-- What the twin link shows once it is up. -/
theorem Dev.twinComesUp_keeps (d : Dev) {r : Nat} (hr : r < 3) : (d.twinComesUp r).twinUp = true ∧ (d.twinComesUp r).rf ZTH_TWIN_STS_RATE = r + 1 ∧
    (d.twinComesUp r).zth.failed.contains 16 = false := by
  unfold Dev.twinComesUp
  generalize twinLanes.foldl Dev.lockAgain d = e
  obtain ⟨hregs, -, hfailed, -⟩ := ((e.wf ZTH_TWIN_STS_RATE (r + 1)).setFlag ZTH_TWIN_STS_UP true).withFailed_keeps (e.zth.failed.filter (· != 16))
  refine ⟨?_, ?_, ?_⟩
  · exact (Dev.flag_congr hregs _).trans (Dev.flag_setFlag_same _ _ _ (by decide) rfl)
  · rw [Dev.rf_congr hregs, Dev.setFlag, Dev.rf_wf_field _ _ _ _ (by decide) (by decide), Dev.rf_wf_same _ _ _ (by decide)]
    exact Nat.mod_eq_of_lt (by dsimp only; omega)
  · rw [hfailed]
    exact not_contains_filter _ _

/-- Equalisation no longer under way. -/
def Dev.eqDone (d : Dev) : Dev := { d with zth.eqGen := none }
theorem Dev.training_eqDone (d : Dev) : d.eqDone.training = (d.now, none) := rfl
/-- The host enables ASPM L1 or not. -/
def Dev.withAspm (d : Dev) (b : Bool) : Dev := { d with pmu.aspm := b }
theorem Dev.withAspm_keeps (d : Dev) (b : Bool) : (d.withAspm b).regs = d.regs ∧ (d.withAspm b).zth = d.zth ∧ (d.withAspm b).pmu.aspm = b := ⟨rfl, rfl, rfl⟩
theorem Dev.pcieTrain_runs {d : Dev} {gen w : Nat} {flit reversed aspm : Bool} (hrun : d.domRun 62 = true) (hpll : d.flag CKR_PLL_STS_PCIE_LOCK = true)
    (hgen : gen ≠ 0) (hmax : gen ≤ d.rf ZTH_PCIE_STS_MAXGEN) (hflit : gen = 6 → flit = true) : d.pcieTrain gen w flit reversed 0 aspm =
      let d1 := (((upTo 8).map (104 + ·)).take (2 ^ w)).foldl Dev.lockAgain ((d.eqBegin gen).eqDone.startAll ((upTo 8).map (104 + ·)) (0x20 + gen - 1)).1
      let d2 := (((d1.wf ZTH_PCIE_STS_GEN gen).wf ZTH_PCIE_STS_WIDTH (2 ^ w)).setFlag ZTH_PCIE_STS_FLIT flit).setFlag ZTH_PCIE_STS_REVERSED reversed
      (d2.withFailed (d2.zth.failed.filter (· != 17))).withAspm aspm := by
  have hold : (gen == 6 && !flit) = false := by
    by_cases h : gen = 6
    · rw [hflit h]
      exact Bool.and_false _
    · rw [beq_eq_false_iff_ne.2 h]
      rfl
  unfold Dev.pcieTrain
  rw [if_neg (by rw [hrun, hpll, hold, beq_eq_false_iff_ne.2 hgen, decide_eq_false (Nat.not_lt.2 hmax)]; decide)]
  dsimp only
  rw [if_neg (Nat.lt_irrefl 0)]
  rfl
theorem Dev.training_zth (d : Dev) (z : Zth) (h : z.eqGen = d.zth.eqGen) : ({ d with zth := z } : Dev).training = d.training :=
  congrArg (d.now, ·) h
/-- What the PCI Express link shows once it is up. -/
theorem Dev.pcieUp_keeps (d : Dev) {gen w : Nat} (flit reversed aspm : Bool) (hgen : gen < 8) (hw : w < 4) :
    let d2 := (((d.wf ZTH_PCIE_STS_GEN gen).wf ZTH_PCIE_STS_WIDTH (2 ^ w)).setFlag ZTH_PCIE_STS_FLIT flit).setFlag ZTH_PCIE_STS_REVERSED reversed
    let t := (d2.withFailed (d2.zth.failed.filter (· != 17))).withAspm aspm
    t.rf ZTH_PCIE_STS_GEN = gen ∧ t.rf ZTH_PCIE_STS_WIDTH = 2 ^ w ∧ t.flag ZTH_PCIE_STS_FLIT = flit ∧ t.flag ZTH_PCIE_STS_REVERSED = reversed ∧
      t.pmu.aspm = aspm ∧ t.zth.failed.contains 17 = false ∧ t.zth.eqGen = d.zth.eqGen := by
  extract_lets d2 t
  obtain ⟨fregs, -, ffailed, feq⟩ := d2.withFailed_keeps (d2.zth.failed.filter (· != 17))
  obtain ⟨aregs, azth, aaspm⟩ := (d2.withFailed (d2.zth.failed.filter (· != 17))).withAspm_keeps aspm
  have hrf (f : Fld) : t.rf f = d2.rf f := Dev.rf_congr (aregs.trans fregs) f
  have hwidth : 2 ^ w < 2 ^ 4 := Nat.pow_lt_pow_right (by decide) hw
  refine ⟨?_, ?_, ?_, ?_, aaspm, ?_, ?_⟩
  · rw [hrf]
    dsimp only [d2]
    rw [Dev.setFlag, Dev.rf_wf_field _ _ _ _ (by decide) (by decide), Dev.setFlag, Dev.rf_wf_field _ _ _ _ (by decide) (by decide),
      Dev.rf_wf_field _ _ _ _ (by decide) (by decide), Dev.rf_wf_same _ _ _ (by decide)]
    exact Nat.mod_eq_of_lt hgen
  · rw [hrf]
    dsimp only [d2]
    rw [Dev.setFlag, Dev.rf_wf_field _ _ _ _ (by decide) (by decide), Dev.setFlag, Dev.rf_wf_field _ _ _ _ (by decide) (by decide),
      Dev.rf_wf_same _ _ _ (by decide)]
    exact Nat.mod_eq_of_lt hwidth
  · rw [Dev.flag, hrf, ← Dev.flag]
    dsimp only [d2]
    rw [Dev.setFlag, Dev.flag_wf_field _ _ (by decide) (by decide), Dev.flag_setFlag_same _ _ _ (by decide) rfl]
  · rw [Dev.flag, hrf, ← Dev.flag]
    dsimp only [d2]
    rw [Dev.flag_setFlag_same _ _ _ (by decide) rfl]
  · rw [show t.zth = _ from azth, ffailed]
    exact not_contains_filter _ _
  · rw [show t.zth = _ from azth, feq]
    rfl

/-! ### Equalisation (R361) -/

/-- A key that a filter takes out of a table is no longer listed. -/
theorem Tab.find_filter_out {β : Type} {p : Nat → Bool} {k : Nat} (h : p k = false) : ∀ t : Tab β, Tab.find (t.filter fun x => p x.1) k = none
  | [] => rfl
  | (j, v) :: t => by
    rw [List.filter_cons]
    dsimp only
    by_cases hj : p j = true
    · have hne : j ≠ k := fun heq => Bool.false_ne_true (h.symm.trans (heq ▸ hj))
      rw [if_pos hj, Tab.find, if_neg (by simpa using hne), Tab.find_filter_out h t]
    · rw [if_neg hj, Tab.find_filter_out h t]
/-- What lanes 0 to `n` - 1 of the entries `e` ask for. -/
def askAll (e : Nat → Option LaneEntry) (n : Nat) (t : Tab Nat) : Tab Nat :=
  (upTo n).foldl (fun t j => match e j with | some y => Tab.put t (104 + j) y.req | none => t) t
theorem find_askAll {e : Nat → Option LaneEntry} {j : Nat} {x : LaneEntry} (hx : e j = some x) (t : Tab Nat) :
    ∀ n, j < n → Tab.find (askAll e n t) (104 + j) = some x.req
  | n + 1, hj => by
    unfold askAll upTo
    rw [List.range_succ, List.foldl_append, List.foldl_cons, List.foldl_nil]
    change Tab.find (match e n with | some y => Tab.put (askAll e n t) (104 + n) y.req | none => askAll e n t) (104 + j) = _
    by_cases hn : j = n
    · subst hn
      rw [hx]
      exact (Tab.find_put _ _ _ _).trans (if_pos rfl)
    · have hlt := find_askAll hx t n (by omega)
      split
      · rw [Tab.find_put, if_neg (by omega), hlt]
      · exact hlt

section
variable {d : Dev} {gen : Nat}
theorem Dev.eqBegin_again (h : d.zth.eqGen = some gen) : d.eqBegin gen = d := if_pos (.inl h)
theorem Dev.eqBegin_first (h : d.zth.eqGen ≠ some gen) (hgen : 3 ≤ gen) : (d.eqBegin gen).zth.entries = d.zth.entries ∧
    (d.eqBegin gen).zth.presets = d.zth.presets.filter (fun p => p.1 % 8 != gen) ∧
    (d.eqBegin gen).zth.asked = askAll (fun j => d.entry (104 + j) (0x1F + gen)) 8 d.zth.asked := by
  unfold Dev.eqBegin
  rw [if_neg (by intro h'; exact h'.elim (fun h' => h h') fun h' => absurd h' (Nat.not_lt.2 hgen))]
  exact ⟨rfl, rfl, rfl⟩
/-- A lane's preset when equalisation begins: DEFAULT of its entry. -/
theorem Dev.preset_eqBegin (h : d.zth.eqGen ≠ some gen) (hgen : 3 ≤ gen) (hlt : gen < 8) {i : Nat} {e : LaneEntry} (he : d.entry i (0x1F + gen) = some e) :
    (d.eqBegin gen).preset i gen = some (bitsAt e.tx 11 4) := by
  obtain ⟨hentries, hpresets, -⟩ := Dev.eqBegin_first h hgen
  have hentry : (d.eqBegin gen).entry i (0x1F + gen) = some e := by
    unfold Dev.entry
    rw [hentries]
    exact he
  unfold Dev.preset
  rw [hpresets, Tab.find_filter_out (p := fun k => k % 8 != gen), hentry]
  · rfl
  · rw [Nat.mul_add_mod, Nat.mod_eq_of_lt hlt, bne_self_eq_false]
end

/-! ### Lock loss, tests and scans (R356-R369) -/

section
variable {d : Dev} {i : Nat}
/-- A lane whose lock its user misses. -/
theorem Dev.loseLock_held (hserv : d.inService i = true) (hctx : isCtx i = false) (hlock : d.flag (ZTH_Li_STS_CDR_LOCK i) = true) (hheld : d.held i = true)
    (hon : d.domOn (laneDom i) = true) : d.loseLock i =
      let d1 := ((d.setLock i false).laneEvent 1 i (d.laneRate i) 0).bump (ZTH_Li_LOCK_LOSS i)
      { d1 with zth.lostAt := Tab.put d1.zth.lostAt i d1.now } := by
  unfold Dev.loseLock
  dsimp only
  rw [if_neg (by simp [hserv, hctx, hlock, hheld, hon])]
theorem Dev.laneLost_eq (hserv : d.inService i = true) (hctx : isCtx i = false) (hlock : d.flag (ZTH_Li_STS_CDR_LOCK i) = true) : d.laneLost i =
    if isEl i && decide (100 ≤ i) then (d.loseLock i).twinDown
    else if isEl i then match (d.loseLock i).linkOf i with
      | some k => (d.loseLock i).ethDown k
      | none => d.loseLock i
    else d.loseLock i := by
  unfold Dev.laneLost
  rw [if_neg (by rw [hserv, hctx, hlock]; decide)] <;> rfl
theorem Dev.lockAgain_lost {t0 : Nat} (h : Tab.find d.zth.lostAt i = some t0) (hserv : d.inService i = true) : d.lockAgain i =
    let d1 := d.setLock i true
    ({ d1 with zth.lostAt := Tab.del d1.zth.lostAt i } : Dev).laneEvent 2 i (d.laneRate i) ((d.now - t0) / msT 1) := by
  unfold Dev.lockAgain
  rw [h]
  dsimp only
  rw [if_pos hserv]
end

/-- Settles O46. -/
theorem linkRules : Obligations.LinkRules := by
  unfold Obligations.LinkRules
  intro s
  refine ⟨fun k lanes hlanes hrun hpll hport hdown hstart => ⟨?_, fun step hstep han => ?_⟩, fun k step han hstep => ?_, fun k lanes hup hlanes => ?_, fun k hlanes step => ?_,
    fun lane tap e he hport han hrun hpll k hlink => ?_, fun partner hwant hrun hpll hdown hstart => ?_, fun hwant hrun hdown => ?_,
    fun gen w flit reversed aspm hrun hpll hgen hmax hflit => ?_, fun lane gen preset e he hgen hrun => ?_, fun lane hserv hctx hlock => ?_,
    fun lane t0 hlost hserv => ?_, fun lane hrate => ?_, fun c => ?_, fun lane hctx hchk hrun => ?_, fun lane still errs mbits hctx hlock => ?_,
    fun lane hcrx hgen hinj hrun hloop => ?_, fun lane pts x hx => ?_⟩
  · obtain ⟨hup, hfailed, hnow⟩ := (lanes.foldl Dev.lockAgain (s.dev.startAll lanes 0x12).1).linkUp_keeps k
    have htrain : (lanes.foldl Dev.lockAgain (s.dev.startAll lanes 0x12).1).now = s.dev.now :=
      congrArg Prod.fst ((Dev.training_lockAll _ _).trans (s.dev.training_startAll lanes 0x12))
    refine ⟨_, next_on ((Dev.ethBringup_runs hlanes hrun hpll hport hdown hstart (.inr ⟨by decide, by decide⟩)).trans (if_neg (by decide))), hup, hfailed, hnow.trans htrain⟩
  · exact next_on ((Dev.ethBringup_runs hlanes hrun hpll hport hdown hstart han).trans (if_pos hstep))
  · refine congrArg (fun d => Host.Outcome.next (s.on d)) (?_ : s.dev.ethBringup k step = s.dev)
    unfold Dev.ethBringup
    dsimp only
    split
    · rfl
    · refine if_pos ?_
      rcases hstep with h | h <;> simp [han, h]
  · exact Dev.ethDown_up hlanes hup
  · refine congrArg (fun d => Host.Outcome.next (s.on d)) (?_ : s.dev.ethBringup k step = s.dev)
    unfold Dev.ethBringup
    dsimp only
    rw [hlanes]
  · intro v
    have hgo := exec_ethTrainRequest (tap := tap) he hport han hrun hpll hlink
    refine ⟨fun hup up => (hgo up).trans ?_, fun hdown hv => (hgo true).trans (next_on ?_), fun hdown hv => (hgo true).trans ?_⟩
    · rw [if_pos hup]
      rfl
    · rw [if_neg (by rw [hdown]; decide)]
      exact if_pos hv
    · rw [if_neg (by rw [hdown]; decide)]
      exact congrArg (fun d => Host.Outcome.next (s.on d)) (if_neg (Nat.not_le.2 hv))
  · intro r y
    have hrate : s.dev.twinRate partner < 3 := by
      unfold Dev.twinRate
      omega
    have hy : y = s.dev.twinStarted partner := rfl
    have hr : r = s.dev.twinRate partner := rfl
    rw [hy, hr]
    exact ⟨fun hy => ⟨_, next_on (Dev.twinTrain_started hwant hrun hpll hdown hstart hy), Dev.twinComesUp_keeps _ hrate⟩,
      fun hy => next_on (Dev.twinTrain_stuck hwant hrun hpll hdown hstart hy)⟩
  · intro fell
    have hgo : exec .twinLinkFallback s = .next (s.on (match s.dev.zth.twinPeer with
        | some c => fell s.dev c
        | none => fell (s.dev.fresh 3).1 (s.dev.fresh 3).2)) := by
      refine next_on ((if_neg (by rw [hwant, hrun, hdown]; decide)).trans ?_)
      cases h : s.dev.zth.twinPeer <;> rfl
    refine ⟨fun c hc => hgo.trans (next_on ?_), fun hnone => ⟨(s.dev.fresh 3).2, Nat.mod_lt _ (by decide), hgo.trans (next_on ?_)⟩⟩
    · rw [hc]
    · rw [hnone]
  · have heq : ((((upTo 8).map (104 + ·)).take (2 ^ w.val)).foldl Dev.lockAgain
        ((s.dev.eqBegin gen).eqDone.startAll ((upTo 8).map (104 + ·)) (0x20 + gen.val - 1)).1).zth.eqGen = none :=
      congrArg Prod.snd ((Dev.training_lockAll _ _).trans ((Dev.training_startAll _ _ _).trans (s.dev.eqBegin gen).training_eqDone))
    obtain ⟨h1, h2, h3, h4, h5, h6, h7⟩ := Dev.pcieUp_keeps _ flit reversed aspm (by omega : gen.val < 8) w.isLt
    exact ⟨_, next_on (Dev.pcieTrain_runs hrun hpll hgen hmax hflit), h1, h2, h3, h4, h5, h6, h7.trans heq⟩
  · intro d1
    have hgo : exec (.pcieEqPresetRequest lane gen preset) s = .next (s.on (if bitAt e.tx preset.val then
        { d1 with zth.presets := Tab.put d1.zth.presets (8 * (104 + lane.val) + gen.val) preset.val } else d1)) := by
      refine next_on ?_
      dsimp only
      rw [he]
      dsimp only
      by_cases hbit : bitAt e.tx preset.val = true
      · rw [if_pos ⟨hgen, hrun, hbit⟩, if_pos hbit]
      · rw [if_neg fun h => hbit h.2.2, if_pos ⟨hgen, hrun⟩, if_neg hbit]
    refine ⟨fun hbit => hgo.trans (next_on (if_pos hbit)), fun hbit => hgo.trans (next_on (if_neg (by rw [hbit]; decide))), fun hfirst => ⟨?_, ?_⟩,
      fun hagain => Dev.eqBegin_again hagain⟩
    · exact Dev.preset_eqBegin hfirst hgen (by omega) he
    · obtain ⟨-, -, hasked⟩ := Dev.eqBegin_first hfirst hgen
      rw [show d1.zth.asked = _ from hasked]
      exact find_askAll (e := fun j => s.dev.entry (104 + j) (0x1F + gen.val)) (j := lane.val) he _ 8 lane.isLt
  · intro d2
    have hlost := Dev.laneLost_eq hserv hctx hlock
    refine ⟨fun hheld hon => Dev.loseLock_held hserv hctx hlock hheld hon, fun hel => next_on (hlost.trans ?_), fun hlo hhi => next_on (hlost.trans ?_),
      fun k hlo hhi hlink => next_on (hlost.trans ?_)⟩
    · rw [hel]
      rfl
    · refine if_pos ?_
      simp [isEl]
      omega
    · have hel : isEl lane = true := by
        simp [isEl]
        omega
      rw [hel, decide_eq_false (by omega : ¬ 100 ≤ lane.val), if_neg (by decide), if_pos rfl, show (s.dev.loseLock lane).linkOf lane = some k from hlink]
  · intro d1 d2
    have hgo : exec (.laneRestored lane) s = .next (s.on (if s.dev.laneReady lane then s.dev.lockAgain lane else s.dev)) := by
      refine next_on ?_
      dsimp only
      rw [hlost, hserv]
      rfl
    exact ⟨fun hready => hgo.trans (next_on ((if_pos hready).trans (Dev.lockAgain_lost hlost hserv))), fun hready => hgo.trans (next_on (if_neg (by rw [hready]; decide)))⟩
  · have hgo : exec (.crxLock lane) s = .next (s.on (if s.dev.laneReady (52 + lane.val) then (if (Tab.find s.dev.zth.lostAt (52 + lane.val)).isSome then s.dev.lockAgain (52 + lane.val)
        else (s.dev.setFlag (ZTH_Li_STS_SIGNAL (52 + lane.val)) true).setFlag (ZTH_Li_STS_CDR_LOCK (52 + lane.val)) true) else s.dev)) := by
      refine next_on ?_
      dsimp only
      rw [bne_iff_ne.2 hrate, Bool.and_true]
    refine ⟨fun hready hlost => hgo.trans (next_on ((if_pos hready).trans (if_neg ?_))), fun hready => hgo.trans (next_on (if_neg (by rw [hready]; decide)))⟩
    rw [hlost]
    decide
  · intro d i
    refine ⟨fun hr hi hp hloop hoff => ⟨fun hbusy => (pq_ready hr _).trans ?_, fun hbusy => (pq_ready hr _).trans ?_⟩, fun hr hi hp hrate hon hbusy => ?_,
      fun hr hcrx hon hscan => (pq_ready hr _).trans ?_⟩
    · rw [checks_pass, checks_pass _ _ _ _ _ _ hoff, checks_fail _ _ _ _ _ _ hbusy]
      simp
      omega
    · rw [checks_pass, checks_pass _ _ _ _ _ _ hoff, checks_pass _ _ _ _ _ _ hbusy, checks_nil]
      simp
      omega
    · have hgo : exec (.lanePattern c) s = .next (s.on <|
          (if isCtx i then (if isCrx i then d else d.setGen i (pp c 1) (pp c 2)) else (if isCrx i then d else d.setGen i (pp c 1) (pp c 2)).setChk i (pp c 1)).fin c okS) := by
        refine (pq_ready hr _).trans ?_
        rw [checks_pass, checks_pass _ _ _ _ _ _ (congrArg not hon), checks_pass _ _ _ _ _ _ hbusy, checks_nil]
        simp
        omega
      refine ⟨fun hctx => hgo.trans (next_on ?_), fun hcrx => hgo.trans (next_on ?_), fun hlo => hgo.trans (next_on ?_)⟩
      · have hcrx : isCrx i = false := by
          simp only [isCtx, isCrx, decide_eq_true_eq, Bool.and_eq_false_iff, decide_eq_false_iff_not] at hctx ⊢
          omega
        rw [if_pos hctx, if_neg (by rw [hcrx]; decide)]
      · have hctx : isCtx i = false := by
          simp only [isCtx, isCrx, decide_eq_false_iff_not, Bool.and_eq_true, decide_eq_true_eq] at hcrx ⊢
          omega
        rw [if_neg (by rw [hctx]; decide), if_pos hcrx]
      · have hcrx : isCrx i = false := by
          simp only [isCrx, Bool.and_eq_false_iff, decide_eq_false_iff_not]
          omega
        have hctx : isCtx i = false := by
          simp only [isCtx, decide_eq_false_iff_not]
          omega
        rw [if_neg (by rw [hctx]; decide), if_neg (by rw [hcrx]; decide)]
    · have hel : isEl i = false := by
        simp only [isCrx, isEl, Bool.and_eq_true, decide_eq_true_eq, Bool.and_eq_false_iff, decide_eq_false_iff_not] at hcrx ⊢
        omega
      rw [checks_pass _ _ _ _ _ _ (by rw [show isCrx (pp c 0) = true from hcrx, show isEl (pp c 0) = false from hel]; rfl),
        checks_pass _ _ _ _ _ _ (congrArg not hon), checks_pass _ _ _ _ _ _ hscan, checks_nil]
  · exact next_on (if_pos (by rw [bne_iff_ne.2 hchk, hctx, hrun]; rfl))
  · exact next_on (if_pos (by rw [hlock, hctx]; rfl))
  · have hmode : (s.dev.bump (ZTH_Li_INJECTED lane)).rf (ZTH_Li_CTL_LOOPBACK lane) = 0 :=
      (Dev.rf_bump_other _ _ _ (by dsimp only [rZTH_Li_CTL, rZTH_Li_INJECTED]; omega)).trans hloop
    refine next_on ((if_neg ?_).trans (if_neg ?_))
    · rintro (h | h | h | h)
      · exact hgen h
      · exact Bool.false_ne_true (hcrx.symm.trans h)
      · exact hinj h
      · rw [hrun] at h
        exact Bool.false_ne_true h
    · rintro ⟨h | h, -⟩
      · exact absurd (hmode.symm.trans h) (by decide)
      · exact absurd (hmode.symm.trans h) (by decide)
  · intro r
    refine ⟨fun hlock => ?_, fun hnone => next_on ?_, fun q tag hcmd => next_on ?_⟩
    · have hscan : (s.dev.scanEnd x pts).2 = if x.lock then eyeOf pts else (0, 0) := rfl
      exact hscan.trans (if_neg (by rw [hlock]; decide))
    · dsimp only
      rw [hx]
      dsimp only
      rw [hnone]
    · dsimp only
      rw [hx]
      dsimp only
      rw [hcmd]

end Sys2Proof.Machine

/-! SUPPORT. Sparing, pods in service, staging and switching of firmware (R91, R107, R450, R478-R482). -/

namespace Sys2Proof.Machine

/-! ### Pods (R480-R482) -/

theorem Dev.loads_of_rest {d e : Dev} (h : e.rest = d.rest) : e.pods = d.pods ∧ e.fw.loads = d.fw.loads :=
  ⟨congrArg (·.pods) h, congrArg (·.fw.loads) h⟩
theorem Dev.podLoad_ok {d d1 : Dev} {c : PqCmd} {image : List Byte} (hd1 : d1 = d.accepted c.queue.val c.tag.toNat) (hp : pp c 0 < 12) (hob : d.obOk (pAddr c 1) (pp c 3) = true) (hcl : d.hif.closed = false)
    (hok : podImageOk (image.take (pp c 3)) = true) (h75 : d.domOn 75 = true) (hdom : d.domOn (3 * pp c 0 + 2) = true) (hidle : d.podIdle (pp c 0) = true)
    (hload : Tab.find d.fw.loads (pp c 0) = none) :
    d.podLoad c image = { d1 with fw.loads := Tab.put d1.fw.loads (pp c 0) (c.queue.val, c.tag.toNat, image.take (pp c 3)) } := by
  subst hd1
  have hz : (pp c 3 == 0) = false := by
    refine beq_false_of_ne fun hz => absurd hok ?_
    rw [hz, List.take_zero]
    decide
  unfold Dev.podLoad
  rw [checks_pass _ _ _ _ _ _ (by simpa [hz, hob] using hp), checks_pass _ _ _ _ _ _ (by simp [hok]), checks_pass _ _ _ _ _ _ (by rw [h75, hdom]; rfl),
    checks_pass _ _ _ _ _ _ (by rw [hidle, hload]; rfl), checks_nil, if_neg (by rw [hcl]; decide)]
theorem Dev.pods_complete (d : Dev) (q tag st : Nat) (r : List Nat) : (d.complete q tag st r).pods = d.pods :=
  (Dev.loads_of_rest (d.rest_complete q tag st r)).1
theorem Dev.loads_complete (d : Dev) (q tag st : Nat) (r : List Nat) : (d.complete q tag st r).fw.loads = d.fw.loads :=
  (Dev.loads_of_rest (d.rest_complete q tag st r)).2

/-! ### Firmware slots (R444) -/

theorem Dev.fwStage_ok {d : Dev} {c : PqCmd} {image : List Byte} (hn : pp c 2 ≠ 0) (hob : d.obOk (pAddr c 0) (pp c 2) = true) (hstage : d.fw.stage = none)
    (hcl : d.hif.closed = false) :
    d.fwStage c image = { d.accepted c.queue.val c.tag.toNat with fw.stage := some (c.queue.val, c.tag.toNat, image.take (pp c 2)) } := by
  unfold Dev.fwStage
  rw [checks_pass _ _ _ _ _ _ (by simpa [hob] using hn), checks_pass _ _ _ _ _ _ (by rw [hstage]; rfl), checks_nil, if_neg (by rw [hcl]; decide)]

theorem Flash.setFw_keeps (f : Flash) (slot : Nat) (b : List Byte) :
    (f.setFw slot b).fw slot = b ∧ (f.setFw slot b).hdr0 = f.hdr0 ∧ (f.setFw slot b).hdr1 = f.hdr1 := by
  unfold Flash.setFw Flash.fw
  split <;> exact ⟨rfl, rfl, rfl⟩
def Dev.unstaged (d : Dev) : Dev := { d with fw.stage := none }
def Dev.withNext (d : Dev) (n : Option (Nat × Nat × Nat)) : Dev := { d with fw.next := n }
theorem Dev.unstaged_withNext (d : Dev) (n : Option (Nat × Nat × Nat)) : d.unstaged.withNext n = { d with fw.stage := none, fw.next := n } := rfl
theorem Dev.regs_unstaged (d : Dev) : d.unstaged.regs = d.regs := rfl
/-- The staging of a main image ends (R450). -/
theorem State.fwStageDone_main {s : State} {q tag : Nat} {b : List Byte} (h : s.dev.fw.stage = some (q, tag, b)) (hk : leAt b 6 1 = 1) :
    let slot := 1 - s.dev.unstaged.rf SEC_BOOT_STS_FW_SLOT
    s.fwStageDone = if s.sec.valid 1 b then
        { s with dev := (s.dev.unstaged.withNext (some (slot, versionOf b, svnOf b))).complete q tag okS [versionOf b], sec.flash := s.sec.flash.setFw slot b }
      else { s with dev := (s.dev.unstaged.withNext none).complete q tag protectionS [], sec.flash := s.sec.flash.setFw slot [] } := by
  unfold State.fwStageDone Dev.withNext Dev.unstaged
  rw [h]
  dsimp only
  rw [hk]
  simp only [reduceIte, Bool.false_eq_true]

/-! ### Seal points (R450) -/

/-- An entry sealed before its boundary: a switch of firmware or of twins. -/
def Staged.seals (e : Staged) : Bool := e.eff == .fwSwitch || e.eff == .twinSwap
theorem Staged.seals_iff (e : Staged) : e.seals = true ↔ e.eff = .fwSwitch ∨ e.eff = .twinSwap := by simp [Staged.seals]
/-- The instant of a staged entry's boundary. -/
def Dev.entryT (d : Dev) (e : Staged) : Nat := d.boundaryT e.tl (d.targetK e.tl e.target)
/-- One entry more is looked at for the next seal point. -/
def Dev.sealNext (d : Dev) (b : List Staged × Nat) (e : Staged) : List Staged × Nat :=
  if b.1.isEmpty ∨ d.entryT e < b.2 then ([e], d.entryT e) else if d.entryT e = b.2 then (b.1 ++ [e], d.entryT e) else b
theorem Dev.nextSeal_eq (d : Dev) : d.nextSeal = (d.fw.staged.filter Staged.seals).foldl d.sealNext ([], 0) := rfl
/-- `b` holds entries of `l`, all at its instant, and none of `l` comes before it. -/
def Dev.FirstOf (d : Dev) (l : List Staged) (b : List Staged × Nat) : Prop :=
  (b.1 = [] → l = []) ∧ (∀ e ∈ b.1, e ∈ l ∧ d.entryT e = b.2) ∧ ∀ x ∈ l, b.2 ≤ d.entryT x
theorem Dev.firstOf_sealNext {d : Dev} {l : List Staged} {b : List Staged × Nat} (h : d.FirstOf l b) (e : Staged) :
    d.FirstOf (l ++ [e]) (d.sealNext b e) := by
  obtain ⟨hnil, hin, hmin⟩ := h
  unfold Dev.sealNext
  by_cases hfirst : b.1.isEmpty = true ∨ d.entryT e < b.2
  · rw [if_pos hfirst]
    refine ⟨fun h => by simp at h, fun x hx => ?_, fun x hx => ?_⟩
    · obtain rfl := List.mem_singleton.1 hx
      exact ⟨by simp, rfl⟩
    · rcases List.mem_append.1 hx with hx | hx
      · rcases hfirst with h | h
        · rw [hnil (List.isEmpty_iff.1 h)] at hx
          exact absurd hx List.not_mem_nil
        · exact Nat.le_trans (Nat.le_of_lt h) (hmin x hx)
      · exact Nat.le_of_eq (by rw [List.mem_singleton.1 hx])
  · rw [if_neg hfirst]
    obtain ⟨hne, hle⟩ := not_or.1 hfirst
    by_cases heq : d.entryT e = b.2
    · rw [if_pos heq]
      refine ⟨fun h => by simp at h, fun x hx => ?_, fun x hx => ?_⟩
      · rcases List.mem_append.1 hx with hx | hx
        · exact ⟨List.mem_append_left _ (hin x hx).1, (hin x hx).2.trans heq.symm⟩
        · exact ⟨List.mem_append_right _ hx, by rw [List.mem_singleton.1 hx]⟩
      · rcases List.mem_append.1 hx with hx | hx
        · exact Nat.le_trans (Nat.le_of_eq heq) (hmin x hx)
        · exact Nat.le_of_eq (by rw [List.mem_singleton.1 hx])
    · rw [if_neg heq]
      refine ⟨fun h => absurd (List.isEmpty_iff.2 h) hne, fun x hx => ⟨List.mem_append_left _ (hin x hx).1, (hin x hx).2⟩, fun x hx => ?_⟩
      rcases List.mem_append.1 hx with hx | hx
      · exact hmin x hx
      · rw [List.mem_singleton.1 hx]
        exact Nat.le_of_not_lt hle
theorem Dev.firstOf_foldl {d : Dev} (l : List Staged) : ∀ {m : List Staged} {b : List Staged × Nat}, d.FirstOf m b → d.FirstOf (m ++ l) (l.foldl d.sealNext b) := by
  induction l with
  | nil => intro m b h; simpa using h
  | cons e l ih =>
    intro m b h
    have hgo := ih (Dev.firstOf_sealNext h e)
    rwa [List.append_assoc] at hgo
theorem Dev.nextSeal_first (d : Dev) : d.FirstOf (d.fw.staged.filter Staged.seals) d.nextSeal :=
  Dev.firstOf_foldl _ ⟨fun _ => rfl, by simp, by simp⟩
theorem Dev.sealPoint_eq {d : Dev} {es : List Staged} {t : Nat} (h : d.nextSeal = (es, t)) (hne : es ≠ []) :
    d.sealPoint =
      let d1 := d.advanceTo (t - usT 8)
      let busy := if d1.openTwoStage then es.filter (·.eff == .fwSwitch) else []
      let d2 := busy.foldl (fun d e => { d with fw.staged := d.fw.staged.filter (· != e) }.complete e.queue e.tag busyS []) d1
      if busy.length = es.length then d2 else { d2 with hif.fetchStopped := true } := by
  unfold Dev.sealPoint
  rw [h]
  cases es with
  | nil => exact absurd rfl hne
  | cons e es => dsimp only

theorem Dev.sealPoint_stops {d d1 : Dev} {es : List Staged} {t : Nat} (h : d.nextSeal = (es, t)) (hne : es ≠ []) (hd1 : d1 = d.advanceTo (t - usT 8))
    (ho : d1.openTwoStage = false) : d.sealPoint = { d1 with hif.fetchStopped := true } := by
  rw [Dev.sealPoint_eq h hne, ← hd1]
  extract_lets e1 busy d2 hif2 hif1
  have hbusy : busy = [] := if_neg (by rw [show e1.openTwoStage = false from ho]; decide)
  have hd2 : d2 = d1 := by
    unfold d2
    rw [hbusy]
    rfl
  rw [if_neg (by rw [hbusy]; exact fun h => hne (List.length_eq_zero_iff.1 h.symm)), show hif2 = d2.hif from rfl, hd2]
theorem Dev.sealPoint_refuses {d d1 d2 : Dev} {es : List Staged} {t : Nat} (h : d.nextSeal = (es, t)) (hne : es ≠ []) (hd1 : d1 = d.advanceTo (t - usT 8))
    (hd2 : d2 = (es.filter (·.eff == .fwSwitch)).foldl (fun d e => { d with fw.staged := d.fw.staged.filter (· != e) }.complete e.queue e.tag busyS []) d1)
    (ho : d1.openTwoStage = true) : d.sealPoint = if es.all (·.eff == .fwSwitch) then d2 else { d2 with hif.fetchStopped := true } := by
  rw [Dev.sealPoint_eq h hne, ← hd1]
  extract_lets e1 busy d3 hif3 hif2
  have hbusy : busy = es.filter (·.eff == .fwSwitch) := if_pos ho
  have hd3 : d3 = d2 := by
    unfold d3
    rw [hbusy, hd2]
  have hall : busy.length = es.length ↔ es.all (·.eff == .fwSwitch) = true := by
    rw [hbusy, List.length_filter_eq_length_iff, List.all_eq_true]
  rw [show hif3 = d3.hif from rfl, hd3]
  simp only [hall]
  rfl

/-! ### The rows -/

/-- Settles O54, row by row: a command that passes its checks, then what its completion finds. -/
theorem serviceRules : Obligations.ServiceRules := by
  unfold Obligations.ServiceRules
  intro s
  refine ⟨fun c => ?_, fun c hw => next_on (if_pos hw), fun c => ?_, fun p h => ?_, fun p q tag marks h => ?_, fun d p q tag => ?_, fun p q tag b h => ?_, fun c image => ?_,
    fun q tag b h hk => ?_, fun c => ?_, fun h => ?_, fun es t0 h hne => ?_, fun d e t es h he => ?_, fun d e h => ?_⟩
  · intro d i hr hw hi h8 h75 hdom hdom8
    have hgo : exec (.coreSpare c) s = .next (s.on (d.coreSpare c)) :=
      (next_on (if_neg (by rw [hw]; decide))).trans (pq_ready hr fun d => d.coreSpare c)
    have hparam : (decide (108 ≤ i) || i % 9 == 8) = false := by
      simp
      omega
    have hoff : (!d.domOn 75 || !d.domOn (coreDom i) || !d.domOn (coreDom (9 * (i / 9) + 8))) = false := by
      rw [h75, hdom, hdom8]
      rfl
    refine ⟨fun hm => hgo.trans (next_on ?_), fun hm => hgo.trans (next_on ?_)⟩
    · exact (checks_pass _ _ _ _ _ _ hparam).trans ((checks_pass _ _ _ _ _ _ hoff).trans (checks_fail _ _ _ _ _ _ (congrArg not hm)))
    · exact (checks_pass _ _ _ _ _ _ hparam).trans ((checks_pass _ _ _ _ _ _ hoff).trans (checks_pass _ _ _ _ _ _ (congrArg not hm)))
  · intro d p d1
    refine ⟨fun hr hp h75 hmode hdrain => ?_, ?_, ?_⟩
    · have hgo : exec (.podDrain c) s = .next (s.on (if d1.podMode p = 1 then d1.fin c okS else d1.drainBegin p c.queue.val c.tag.toNat)) := by
        refine (pq_ready hr _).trans (next_on ?_)
        refine (checks_pass _ _ _ _ _ _ (decide_eq_false (by omega))).trans ((checks_pass _ _ _ _ _ _ (congrArg not h75)).trans (checks_pass _ _ _ _ _ _ ?_))
        rw [show Tab.find (s.began c).fw.drains (pp c 0) = none from hdrain, show ((s.began c).podMode (pp c 0) == 2) = false from beq_false_of_ne hmode]
        rfl
      exact ⟨fun h1 => hgo.trans (next_on (if_pos h1)), fun h1 => hgo.trans (next_on (if_neg h1))⟩
    · intro image b hr hp hob hcl
      refine ⟨fun hbad => (pq_ready hr _).trans (next_on ?_), fun hok h75 hdom hidle hload => (pq_ready hr _).trans (next_on ?_)⟩
      · cases hz : pp c 3 == 0 with
        | true => exact checks_fail _ _ _ _ _ _ (by rw [hz]; simp)
        | false =>
          refine (checks_pass _ _ _ _ _ _ ?_).trans (checks_fail _ _ _ _ _ _ ?_)
          · rw [hz, show (s.began c).obOk (pAddr c 1) (pp c 3) = true from hob]
            simpa using hp
          · rw [show (s.began c).hif.closed = false from hcl, show podImageOk (image.take (pp c 3)) = false from hbad]
            rfl
      · have hd1 : d1 = d.accepted c.queue.val c.tag.toNat := rfl
        clear_value d1
        exact Dev.podLoad_ok hd1 hp hob hcl hok h75 hdom hidle hload
    · intro hr hp h75 hidle hload e e2
      refine (pq_ready hr _).trans (next_on ?_)
      refine (checks_pass _ _ _ _ _ _ (decide_eq_false (by omega))).trans ((checks_pass _ _ _ _ _ _ (congrArg not h75)).trans (checks_pass _ _ _ _ _ _ ?_))
      rw [show (s.began c).podIdle (pp c 0) = true from hidle, show Tab.find (s.began c).fw.loads (pp c 0) = none from hload]
      rfl
  · refine congrArg (fun d => Host.Outcome.next (s.on d)) (?_ : _ = s.dev)
    dsimp only
    rw [h]
  · have hgo : exec (.podDrainComplete p) s = .next (s.on (if !s.dev.builtSince marks then s.dev else
        let d1 := if s.dev.podMode p.val = 1 then s.dev else ((s.dev.wf (WDS_PODn_CTL_MODE p.val) 1).logPod 0x06 0xFF 0 0 0).wdsSettle
        if d1.rf (WDS_PODn_BUSY p.val) = 0 ∧ d1.rf (CPX_STS_BUSY p.val) = 0 then d1.drained p.val q tag else d1)) := by
      refine next_on ?_
      dsimp only
      rw [h]
    refine ⟨fun hb => hgo.trans ?_, ?_⟩
    · rw [hb]
      rfl
    · intro hb d1
      rw [if_neg (by rw [hb]; decide)] at hgo
      exact ⟨fun h1 h2 => hgo.trans (next_on (if_pos ⟨h1, h2⟩)), fun h12 => hgo.trans (next_on (if_neg fun ⟨h1, h2⟩ => h12.elim (· h1) (· h2)))⟩
  · intro d1
    refine ⟨fun hq hf => ?_, fun hq hf => ?_⟩
    · unfold Dev.drained
      dsimp only
      rw [if_neg (by rw [hf]; decide), if_neg hq]
    · unfold Dev.drained
      dsimp only
      rw [if_pos hf, if_pos hq]
  · refine ⟨fun hbusy => ?_, fun hcpx hidle => nextAnd_act ?_⟩
    · refine congrArg (fun d => Host.Outcome.next (s.on d)) (?_ : _ = s.dev)
      dsimp only
      rw [h]
      exact if_pos (hbusy.imp_right fun h => congrArg not h)
    · dsimp only
      rw [h]
      dsimp only
      rw [if_neg (by rw [hcpx, hidle]; decide)]
      rw [State.on_dev, Dev.pods_complete, Dev.loads_complete]
      dsimp only
      rw [Tab.find_put, Tab.find_del]
      exact ⟨if_pos rfl, if_pos rfl, State.on_sec _ _⟩
  · intro d hr hn hob hstage hcl
    have hgo : exec (.fwStage c image) s = .next (s.on (d.fwStage c image)) := pq_ready hr _
    clear_value d
    exact hgo.trans (next_on (Dev.fwStage_ok hn hob hstage hcl))
  · intro slot
    refine ⟨s.fwStageDone, rfl, ?_⟩
    have hslot : 1 - s.dev.unstaged.rf SEC_BOOT_STS_FW_SLOT = slot := congrArg (1 - ·) (Dev.rf_congr s.dev.regs_unstaged _)
    clear_value slot
    rw [State.fwStageDone_main h hk, hslot]
    obtain ⟨hfw, h0, h1⟩ := Flash.setFw_keeps s.sec.flash slot b
    obtain ⟨hfw', h0', h1'⟩ := Flash.setFw_keeps s.sec.flash slot []
    by_cases hv : s.sec.valid 1 b = true
    · rw [if_pos hv]
      dsimp -zeta only
      rw [if_pos hv]
      refine ⟨hfw, h0, h1, ?_⟩
      dsimp only
      rw [Dev.unstaged_withNext]
    · rw [if_neg hv]
      dsimp -zeta only
      rw [if_neg hv]
      refine ⟨hfw', ?_⟩
      dsimp only
      rw [Dev.unstaged_withNext]
  · intro d hr ht
    refine ⟨fun hn => (pq_ready hr _).trans (next_on ?_), fun hn hs => (pq_ready hr _).trans (next_on ?_)⟩
    · refine (checks_pass _ _ _ _ _ _ ht).trans (checks_fail _ _ _ _ _ _ ?_)
      rw [show (s.began c).fw.next = none from hn]
      rfl
    · refine (checks_pass _ _ _ _ _ _ ht).trans (checks_pass _ _ _ _ _ _ ?_)
      rw [show ((s.began c).fw.staged.any fun e => e.eff == .fwSwitch) = false from hs, ← Option.not_isSome,
        show (s.began c).fw.next.isSome = true from hn]
      rfl
  · refine congrArg (fun d => Host.Outcome.next (s.on d)) (?_ : s.dev.sealPoint = s.dev)
    unfold Dev.sealPoint
    split
    · rfl
    · rename_i hne heq
      rw [heq] at h
      exact absurd h (by simpa using hne)
  · intro d1 refuse
    have hd1 : d1 = s.dev.advanceTo (t0 - usT 8) := rfl
    clear_value d1
    refine ⟨fun ho => next_on (Dev.sealPoint_stops h hne hd1 ho), ?_⟩
    intro ho d2
    have hgo := Dev.sealPoint_refuses h hne hd1 (d2 := d2) rfl ho
    clear_value d2
    exact ⟨fun hall => next_on (hgo.trans (if_pos hall)), fun hall => next_on (hgo.trans (if_neg (by rw [hall]; decide)))⟩
  · obtain ⟨-, hin, hmin⟩ := d.nextSeal_first
    rw [h] at hin hmin
    obtain ⟨hmem, ht⟩ := hin e he
    obtain ⟨hst, hseals⟩ := List.mem_filter.1 hmem
    exact ⟨hst, e.seals_iff.1 hseals, ht, fun x hx hs => hmin x (List.mem_filter.2 ⟨hx, x.seals_iff.2 hs⟩)⟩
  · unfold Dev.fwTakeover
    rw [if_pos h]

end Sys2Proof.Machine

/-! SUPPORT. What a completion on any pair leaves in the registers; what lanes that follow their users touch (R352, R371). -/

namespace Sys2Proof.Machine

/-! ### Registers no completion touches (R65-R71) -/

/-- No index, status or flag register of a queue pair lies at `o`, whatever the pair's number. -/
def ringFree (o : Nat) : Prop := 0x400000 ≤ o ∧ o % 0x40 ≠ 0x18 ∧ o % 0x40 ≠ 0x1C ∧ o % 0x40 ≠ 0x20 ∧ o % 0x40 ≠ 0x24 ∧ o % 0x40 ≠ 0x30

theorem ringFree.ne {o : Nat} (ho : ringFree o) (q : Nat) :
    o ≠ rHIF_CQn_SQ_TAIL q ∧ o ≠ rHIF_CQn_SQ_HEAD q ∧ o ≠ rHIF_CQn_CQ_HEAD q ∧ o ≠ rHIF_CQn_CQ_TAIL q ∧ o ≠ rHIF_CQn_STS q := by
  obtain ⟨-, h1, h2, h3, h4, h5⟩ := ho
  dsimp only [rHIF_CQn_SQ_TAIL, rHIF_CQn_SQ_HEAD, rHIF_CQn_CQ_HEAD, rHIF_CQn_CQ_TAIL, rHIF_CQn_STS]
  omega
theorem Dev.regs_updQp (d : Dev) (q : Nat) (f : QPair → QPair) : (d.updQp q f).regs = d.regs := rfl
theorem Dev.regs_acked (d : Dev) (n : Nat) : ({ d with twin.acked := n } : Dev).regs = d.regs := rfl
theorem Dev.regs_boot (d : Dev) (l : List (Nat × Nat × Nat × Nat × Nat)) : ({ d with hif.boot := l } : Dev).regs = d.regs := rfl
theorem Dev.regs_closed (d : Dev) (b : Bool) : ({ d with hif.closed := b } : Dev).regs = d.regs := rfl

section
variable {o : Nat} (ho : ringFree o)
include ho
theorem Dev.reg_postEntry_free (d : Dev) (q tag st b6 fl : Nat) (body : List Nat) (ev : Bool) :
    (d.postEntry q tag st b6 fl body ev).reg o = d.reg o := by
  obtain ⟨-, -, -, htail, hsts⟩ := ho.ne q
  unfold Dev.postEntry
  dsimp only
  split
  · rfl
  · rw [Dev.reg_eq_of_regs (Dev.regs_countTrigger _ _), Dev.showFull, Dev.setFlag, Dev.reg_wf_other _ _ _ _ hsts,
      Dev.reg_eq_of_regs (Dev.regs_updQp _ _ _), Dev.reg_wf_other _ _ _ _ htail, Dev.reg_eq_of_regs (Dev.regs_hostWrite _ _ _)]
theorem Dev.reg_postCmpl_free (d : Dev) (q tag : Nat) (c : Cmpl) (dup : Bool) : (d.postCmpl q tag c dup).reg o = d.reg o :=
  d.reg_postEntry_free ho _ _ _ _ _ _ _
theorem Dev.reg_flushFrom_free (q : Nat) : ∀ (l : List RunCmd) (b : Bool) (d : Dev), (Dev.flushFrom q l b d).1.reg o = d.reg o
  | [], _, _ => rfl
  | r :: rs, clear, d => by
    have hacked (d : Dev) (n : Nat) : ({ d with twin.acked := n } : Dev).reg o = d.reg o := Dev.reg_eq_of_regs (Dev.regs_acked d n) o
    unfold Dev.flushFrom
    dsimp only
    repeat' split
    all_goals simp [Dev.reg_flushFrom_free q rs, Dev.reg_postCmpl_free ho, hacked]
theorem Dev.reg_pairStart_free (d : Dev) (q : Nat) : (d.pairStart q).reg o = d.reg o := by
  obtain ⟨-, -, -, -, hsts⟩ := ho.ne q
  unfold Dev.pairStart
  extract_lets e1 x1 d1
  have h1 : d1.reg o = d.reg o := by
    refine (Dev.reg_eq_of_regs (Dev.regs_closed _ _) o).trans ?_
    rw [Dev.reg_eq_of_regs (Dev.regs_updQp _ _ _), Dev.setFlag, Dev.reg_wf_other _ _ _ _ hsts]
  split
  · exact (Dev.reg_foldl _ (fun d e => d.reg_event ho.1 _ _ _ _ _) _ _).trans ((Dev.reg_eq_of_regs (Dev.regs_boot _ _) o).trans h1)
  · exact h1
theorem Dev.reg_settleStop_free (d : Dev) (q : Nat) : (d.settleStop q).reg o = d.reg o := by
  obtain ⟨h1, h2, h3, h4, h5⟩ := ho.ne q
  have hstop (f : QPair → QPair) : ((((((((d.wf (HIF_CQn_SQ_TAIL q) 0).wf (HIF_CQn_SQ_HEAD q) 0).wf (HIF_CQn_CQ_HEAD q) 0).wf (HIF_CQn_CQ_TAIL q) 0).updQp q f).wf
      (HIF_CQn_STS_RUNNING q) 0).wf (HIF_CQn_STS_CQ_FULL q) 0)).reg o = d.reg o := by
    rw [Dev.reg_wf_other _ _ _ _ h5, Dev.reg_wf_other _ _ _ _ h5, Dev.reg_eq_of_regs (Dev.regs_updQp _ _ _), Dev.reg_wf_other _ _ _ _ h4,
      Dev.reg_wf_other _ _ _ _ h3, Dev.reg_wf_other _ _ _ _ h2, Dev.reg_wf_other _ _ _ _ h1]
  unfold Dev.settleStop
  dsimp only
  split
  · split
    · exact (Dev.reg_pairStart_free ho _ _).trans (hstop _)
    · exact hstop _
  · rfl
theorem Dev.reg_flush_free (d : Dev) (q : Nat) : (d.flush q).reg o = d.reg o := by
  have honce (d : Dev) : (d.flushOnce q).reg o = d.reg o :=
    (Dev.reg_eq_of_regs (Dev.regs_updQp _ _ _) o).trans (Dev.reg_flushFrom_free ho q _ _ _)
  rw [Dev.flush, Dev.reg_settleStop_free ho, honce, honce]
theorem Dev.reg_complete_free (d : Dev) (q tag st : Nat) (r : List Nat) : (d.complete q tag st r).reg o = d.reg o :=
  (Dev.reg_flush_free ho _ _).trans (Dev.reg_eq_of_regs (Dev.regs_updQp _ _ _) o)
end

/-! ### What lanes and links touch -/

/-- The device without what posting, lanes and links touch. -/
def Dev.offLane (d : Dev) : Dev := { d.rest with zth := Zth.reset, dfe := Dfe.reset }
theorem Dev.offLane_of_rest {d e : Dev} (h : e.rest = d.rest) : e.offLane = d.offLane := congrArg (fun x : Dev => { x with zth := Zth.reset, dfe := Dfe.reset }) h
/-- From `d` to `e` only rings, lanes and links have changed: no register between block 0 and the front end's. -/
structure Dev.LaneOnly (d e : Dev) : Prop where
  off : e.offLane = d.offLane
  reg : ∀ o, 0x400000 ≤ o → o < 0x1400000 → e.reg o = d.reg o

theorem Dev.LaneOnly.refl (d : Dev) : d.LaneOnly d := ⟨rfl, fun _ _ _ => rfl⟩
theorem Dev.LaneOnly.trans {a b c : Dev} (h : a.LaneOnly b) (h' : b.LaneOnly c) : a.LaneOnly c :=
  ⟨h'.off.trans h.off, fun o h1 h2 => (h'.reg o h1 h2).trans (h.reg o h1 h2)⟩
theorem Dev.LaneOnly.foldl {α : Type} {f : Dev → α → Dev} {l : List α} (h : ∀ (d : Dev), ∀ a ∈ l, d.LaneOnly (f d a)) (d : Dev) : d.LaneOnly (l.foldl f d) :=
  List.foldlRecOn (motive := fun e => d.LaneOnly e) l f (.refl d) fun e he a ha => he.trans (h e a ha)
theorem Dev.laneOnly_of_regs {d e : Dev} (h : e.offLane = d.offLane) (hr : e.regs = d.regs) : d.LaneOnly e :=
  ⟨h, fun o _ _ => Dev.reg_eq_of_regs hr o⟩
theorem Dev.laneOnly_wf (d : Dev) {f : Fld} (v : Nat) (h : 0x1400000 ≤ f.off) : d.LaneOnly (d.wf f v) :=
  ⟨Dev.offLane_of_rest (d.rest_wf f v), fun o _ ho => d.reg_wf_other f v o (by omega)⟩
theorem Dev.laneOnly_setFlag (d : Dev) {f : Fld} (b : Bool) (h : 0x1400000 ≤ f.off) : d.LaneOnly (d.setFlag f b) := d.laneOnly_wf _ h
theorem Dev.laneOnly_event (d : Dev) (a b c e f : Nat) : d.LaneOnly (d.event a b c e f) :=
  ⟨Dev.offLane_of_rest (d.rest_event a b c e f), fun _ ho _ => d.reg_event ho a b c e f⟩
theorem Dev.laneOnly_zth (d : Dev) (z : Zth) : d.LaneOnly { d with zth := z } := Dev.laneOnly_of_regs rfl rfl
theorem Dev.laneOnly_dfe (d : Dev) (x : Dfe) : d.LaneOnly { d with dfe := x } := Dev.laneOnly_of_regs rfl rfl

theorem lane_reg (i : Nat) : 0x1400000 ≤ rZTH_Li_CTL i ∧ 0x1400000 ≤ rZTH_Li_INJ i ∧ 0x1400000 ≤ rZTH_Li_STS i ∧ 0x1400000 ≤ rZTH_Li_EQ_TX i ∧
    0x1400000 ≤ rZTH_Li_EQ_RX i := by
  dsimp only [rZTH_Li_CTL, rZTH_Li_INJ, rZTH_Li_STS, rZTH_Li_EQ_TX, rZTH_Li_EQ_RX]
  omega
theorem jesdEnable_reg (u : Nat) : 0x1400000 ≤ (jesdEnable u).off := by
  unfold jesdEnable
  split
  · dsimp only [rDFE_Jg_CTL_TX]
    omega
  · split
    · dsimp only [rDFE_Jg_CTL_RX]
      omega
    · dsimp only [rDFE_Jk_CTL_OBS]
      omega
theorem Dev.laneOnly_linkEnds (d : Dev) (u i : Nat) : d.LaneOnly (d.linkEnds u i) := d.laneOnly_dfe _
theorem Dev.laneOnly_linksDown (d : Dev) (u : Nat) : d.LaneOnly (d.linksDown u) :=
  .foldl (fun d i _ => (d.laneOnly_linkEnds u i).trans (Dev.laneOnly_setFlag (f := linkUpF u i) _ _ (Nat.le_add_right_of_le (jesdEnable_reg u)))) d
theorem Dev.laneOnly_setService (d : Dev) (i : Nat) (b : Bool) : d.LaneOnly (d.setService i b) := by
  obtain ⟨hctl, hinj, hsts, -, -⟩ := lane_reg i
  unfold Dev.setService
  extract_lets d1 d2
  have h1 : d.LaneOnly d1 := d.laneOnly_setFlag _ hsts
  have h2 : d.LaneOnly d2 := h1.trans (((d1.laneOnly_wf _ hctl).trans (Dev.laneOnly_wf _ _ hctl)).trans (Dev.laneOnly_wf _ _ hctl))
  split
  · split
    · exact h2.trans (d2.laneOnly_setFlag _ hsts)
    · exact (h2.trans (d2.laneOnly_wf _ hinj)).trans (Dev.laneOnly_setFlag _ _ hsts)
  · exact (h1.trans (d1.laneOnly_setFlag _ hsts)).trans (Dev.laneOnly_setFlag _ _ hsts)
theorem Dev.laneOnly_laneStart (d : Dev) (i r : Nat) : d.LaneOnly (d.laneStart i r).1 := by
  obtain ⟨-, -, hsts, htx, hrx⟩ := lane_reg i
  unfold Dev.laneStart
  split
  · next e _ =>
    extract_lets d1 d2
    have h1 : d.LaneOnly d1 := (d.laneOnly_wf _ hsts).trans (Dev.laneOnly_setFlag _ _ hsts)
    have h2 : d.LaneOnly d2 := by
      dsimp only [d2]
      split
      · exact h1
      · exact h1.trans (d1.laneOnly_wf _ htx)
    dsimp only
    split
    · exact h2
    · exact h2.trans (d2.laneOnly_wf _ hrx)
  · split
    · exact (d.laneOnly_wf _ hsts).trans (Dev.laneOnly_setFlag _ _ hsts)
    · extract_lets d1
      have h1 : d.LaneOnly d1 := d.laneOnly_setFlag _ hsts
      split
      · exact h1
      · exact (h1.trans (d1.laneOnly_zth _)).trans (Dev.laneOnly_event _ _ _ _ _ _)
theorem Dev.laneOnly_serviceOne (d : Dev) (i : Nat) : d.LaneOnly (d.serviceOne i) := by
  unfold Dev.serviceOne
  extract_lets h d1
  split
  · exact .refl d
  · split
    · exact (d.laneOnly_setService i h).trans (d1.laneOnly_laneStart _ _)
    · exact d.laneOnly_setService i h
theorem Dev.laneOnly_spareStart (d : Dev) (i : Nat) : d.LaneOnly (d.spareStart i) := by
  unfold Dev.spareStart
  split
  · split
    · exact d.laneOnly_laneStart _ _
    · exact .refl d
  · exact .refl d
theorem Dev.laneOnly_serviceSync (d : Dev) : d.LaneOnly d.serviceSync := by
  refine ((Dev.LaneOnly.foldl (fun d u _ => ?_) d).trans (.foldl (fun d i _ => d.laneOnly_serviceOne i) _)).trans (.foldl (fun d i _ => d.laneOnly_spareStart i) _)
  split
  · exact d.laneOnly_linksDown u
  · exact .refl d

end Sys2Proof.Machine

/-! SUPPORT. Twins: attach and detach, heartbeats, mirroring, takeover and swap (R90, R484-R495). -/

namespace Sys2Proof.Machine

/-! ### Role and partner (R484) -/

/-- The twin's attachment, copies, log and takeover, and the plans: answers, lanes and registers leave them. -/
def Dev.twinSide (d : Dev) : Option Attach × Tab Nat × List MirrorRec × Bool × List Plan :=
  (d.twin.attach, d.twin.gens, d.twin.log, d.twin.takeover, d.fw.plans)
theorem Dev.twinSide_rest (d : Dev) : d.rest.twinSide = d.twinSide := rfl
theorem Dev.twinSide_offLane (d : Dev) : d.offLane.twinSide = d.twinSide := rfl
theorem Dev.twinSide_of_rest {d e : Dev} (h : e.rest = d.rest) : e.twinSide = d.twinSide := by
  rw [← e.twinSide_rest, h, d.twinSide_rest]
theorem Dev.twinSide_of_offLane {d e : Dev} (h : e.offLane = d.offLane) : e.twinSide = d.twinSide := by
  rw [← e.twinSide_offLane, h, d.twinSide_offLane]
theorem Dev.twinSide_fields {d e : Dev} (h : e.twinSide = d.twinSide) : e.twin.attach = d.twin.attach ∧ e.twin.gens = d.twin.gens ∧ e.twin.log = d.twin.log ∧
    e.twin.takeover = d.twin.takeover ∧ e.fw.plans = d.fw.plans := by
  unfold Dev.twinSide at h
  simpa only [Prod.mk.injEq] using h
theorem Dev.rf_of_reg {d e : Dev} {f : Fld} (h : e.reg f.off = d.reg f.off) : e.rf f = d.rf f := by
  unfold Dev.rf
  rw [h]
/-- From `d` to `e` the twin's state, its status register and the count of takeovers have not changed. -/
structure Dev.TwinHeld (d e : Dev) : Prop where
  side : e.twinSide = d.twinSide
  sts : e.reg rMGT_TWIN_STS = d.reg rMGT_TWIN_STS
  takeovers : e.reg rMGT_TWIN_TAKEOVERS = d.reg rMGT_TWIN_TAKEOVERS
theorem Dev.TwinHeld.refl (d : Dev) : d.TwinHeld d := ⟨rfl, rfl, rfl⟩
theorem Dev.TwinHeld.trans {a b c : Dev} (h : a.TwinHeld b) (h' : b.TwinHeld c) : a.TwinHeld c :=
  ⟨h'.side.trans h.side, h'.sts.trans h.sts, h'.takeovers.trans h.takeovers⟩
theorem Dev.TwinHeld.foldl {α : Type} {f : Dev → α → Dev} {l : List α} (h : ∀ (d : Dev), ∀ a ∈ l, d.TwinHeld (f d a)) (d : Dev) : d.TwinHeld (l.foldl f d) :=
  List.foldlRecOn (motive := fun e => d.TwinHeld e) l f (.refl d) fun e he a ha => he.trans (h e a ha)
theorem Dev.TwinHeld.roles {d e : Dev} (h : d.TwinHeld e) : e.role = d.role ∧ e.partner = d.partner := ⟨Dev.rf_of_reg h.sts, Dev.rf_of_reg h.sts⟩
theorem twinSts_free : ringFree rMGT_TWIN_STS ∧ ringFree rMGT_TWIN_TAKEOVERS := by
  unfold ringFree
  decide
theorem Dev.twinHeld_of_regs {d e : Dev} (h : e.twinSide = d.twinSide) (hr : e.regs = d.regs) : d.TwinHeld e :=
  ⟨h, Dev.reg_eq_of_regs hr _, Dev.reg_eq_of_regs hr _⟩
theorem Dev.twinHeld_wf (d : Dev) {f : Fld} (v : Nat) (h : rMGT_TWIN_STS ≠ f.off) (h' : rMGT_TWIN_TAKEOVERS ≠ f.off) : d.TwinHeld (d.wf f v) :=
  ⟨Dev.twinSide_of_rest (d.rest_wf f v), d.reg_wf_other f v _ h, d.reg_wf_other f v _ h'⟩
theorem Dev.twinHeld_event (d : Dev) (a b c e f : Nat) : d.TwinHeld (d.event a b c e f) :=
  ⟨Dev.twinSide_of_rest (d.rest_event a b c e f), d.reg_event (by decide) _ _ _ _ _, d.reg_event (by decide) _ _ _ _ _⟩
theorem Dev.twinHeld_complete (d : Dev) (q tag st : Nat) (r : List Nat) : d.TwinHeld (d.complete q tag st r) :=
  ⟨Dev.twinSide_of_rest (d.rest_complete q tag st r), d.reg_complete_free twinSts_free.1 q tag st r, d.reg_complete_free twinSts_free.2 q tag st r⟩
theorem Dev.twinHeld_flush (d : Dev) (q : Nat) : d.TwinHeld (d.flush q) :=
  ⟨Dev.twinSide_of_rest (d.rest_flush q), d.reg_flush_free twinSts_free.1 q, d.reg_flush_free twinSts_free.2 q⟩
theorem Dev.twinHeld_slotsShow (d : Dev) : d.TwinHeld d.slotsShow := by
  unfold Dev.slotsShow
  split
  · exact d.twinHeld_wf _ (by decide) (by decide)
  · exact .refl d
theorem Dev.twinHeld_of_laneOnly {d e : Dev} (h : d.LaneOnly e) : d.TwinHeld e :=
  ⟨Dev.twinSide_of_offLane h.off, h.reg _ (by decide) (by decide), h.reg _ (by decide) (by decide)⟩

theorem Dev.role_wf_partner (d : Dev) (p : Nat) (h : p < 8) : (d.wf MGT_TWIN_STS_PARTNER p).role = d.role ∧ (d.wf MGT_TWIN_STS_PARTNER p).partner = p :=
  ⟨d.rf_wf_field _ _ _ (by decide) (by decide), (d.rf_wf_same _ _ (by decide)).trans (Nat.mod_eq_of_lt h)⟩
theorem Dev.role_wf_missed (d : Dev) (n : Nat) : (d.wf MGT_TWIN_STS_MISSED_RUN n).role = d.role ∧ (d.wf MGT_TWIN_STS_MISSED_RUN n).partner = d.partner :=
  ⟨d.rf_wf_field _ _ _ (by decide) (by decide), d.rf_wf_field _ _ _ (by decide) (by decide)⟩
theorem Dev.role_setRole (d : Dev) {role : Nat} (reason : Nat) (h : role < 4) : (d.setRole role reason).role = role ∧ (d.setRole role reason).partner = d.partner := by
  unfold Dev.setRole Dev.twinEvent Dev.roleOut Dev.setFlag
  obtain ⟨hr, hp⟩ := (Dev.twinHeld_event ((d.wf MGT_TWIN_STS_ROLE role).wf MGT_TWIN_STS_ROLE_OUT (b2n ((d.wf MGT_TWIN_STS_ROLE role).role == 1 &&
    (d.wf MGT_TWIN_STS_ROLE role).domRun 78 && decide ((d.wf MGT_TWIN_STS_ROLE role).twin.silent < 2)))) 3 1 (role + 2 ^ 8 * d.role) reason ((d.tl 0).k % 65536)).roles
  rw [hr, hp]
  unfold Dev.role Dev.partner
  rw [Dev.rf_wf_field _ _ _ _ (by decide) (by decide), Dev.rf_wf_same _ _ _ (by decide), Dev.rf_wf_field _ _ _ _ (by decide) (by decide),
    Dev.rf_wf_field _ _ _ _ (by decide) (by decide)]
  exact ⟨Nat.mod_eq_of_lt h, rfl⟩
theorem Dev.setRole_keeps (d : Dev) (role reason : Nat) : (d.setRole role reason).twinSide = d.twinSide ∧
    (d.setRole role reason).reg rMGT_TWIN_TAKEOVERS = d.reg rMGT_TWIN_TAKEOVERS := by
  unfold Dev.setRole Dev.twinEvent Dev.roleOut Dev.setFlag
  refine ⟨Dev.twinSide_of_rest ?_, ?_⟩
  · rw [Dev.rest_event, Dev.rest_wf, Dev.rest_wf]
  · rw [Dev.reg_event _ (by decide), Dev.reg_wf_other _ _ _ _ (by decide), Dev.reg_wf_other _ _ _ _ (by decide)]

/-! ### Attach (R493) -/

/-- The twin as a new pair starts with it. -/
def Dev.pairFresh (d : Dev) : Dev :=
  { (d.wf MGT_TWIN_STS_PARTNER 2).wf MGT_TWIN_STS_MISSED_RUN 0 with
    twin.attach := none, twin.mirrored := 0, twin.acked := 0, twin.gens := [], twin.banks := [], twin.source := none, twin.lostAt := none,
    twin.takeover := false, twin.silent := 0, twin.heardAt := d.now }
theorem Dev.regs_pairFresh (d : Dev) : d.pairFresh.regs = ((d.wf MGT_TWIN_STS_PARTNER 2).wf MGT_TWIN_STS_MISSED_RUN 0).regs := rfl
theorem Dev.pairFresh_twin (d : Dev) : d.pairFresh.twin.attach = none ∧ d.pairFresh.twin.gens = [] := ⟨rfl, rfl⟩
theorem Dev.partner_pairFresh (d : Dev) : d.pairFresh.partner = 2 :=
  (Dev.rf_congr d.regs_pairFresh _).trans ((Dev.role_wf_missed _ _).2.trans (d.role_wf_partner 2 (by decide)).2)
/-- The attachment completes in a role. -/
def Dev.attachAs (d : Dev) (a : Attach) (role : Nat) : Dev :=
  (((d.pairFresh.setRole role 0).complete a.queue a.tag okS [role]).twinEvent 4 role 0 0).slotsShow.serviceSync
theorem Dev.attachAs_keeps (d : Dev) (a : Attach) {role : Nat} (h : role < 4) :
    (d.attachAs a role).twin.attach = none ∧ (d.attachAs a role).twin.gens = [] ∧ (d.attachAs a role).role = role ∧ (d.attachAs a role).partner = 2 := by
  have hheld : (d.pairFresh.setRole role 0).TwinHeld (d.attachAs a role) :=
    (((Dev.twinHeld_complete _ a.queue a.tag okS [role]).trans (Dev.twinHeld_event _ 3 4 role 0 0)).trans (Dev.twinHeld_slotsShow _)).trans
      (Dev.twinHeld_of_laneOnly (Dev.laneOnly_serviceSync _))
  obtain ⟨hattach, hgens, -⟩ := Dev.twinSide_fields (hheld.side.trans (d.pairFresh.setRole_keeps role 0).1)
  obtain ⟨hrole, hpartner⟩ := hheld.roles
  obtain ⟨hrole', hpartner'⟩ := d.pairFresh.role_setRole 0 h
  obtain ⟨ha, hg⟩ := d.pairFresh_twin
  exact ⟨hattach.trans ha, hgens.trans hg, hrole.trans hrole', hpartner.trans (hpartner'.trans d.partner_pairFresh)⟩
section
variable {d : Dev} {a : Attach} {same ptl : Bool} {pp id : Nat} {snap : Dev → Dev} (ha : d.twin.attach = some a)
include ha
theorem Dev.attachDone_down (h : d.flag ZTH_TWIN_STS_UP = false) : d.attachDone same ptl pp id snap = d := by
  unfold Dev.attachDone
  rw [ha]
  exact if_pos (by rw [h]; rfl)
theorem Dev.attachDone_differs (h : d.flag ZTH_TWIN_STS_UP = true) : d.attachDone false ptl pp id snap = d.attachFail a twinNotReady := by
  unfold Dev.attachDone
  rw [ha]
  exact (if_neg (by rw [h]; decide)).trans (if_pos rfl)
theorem Dev.attachDone_refused (h : d.flag ZTH_TWIN_STS_UP = true) (hrole : d.chooseRole a.pref ptl pp id = none) :
    d.attachDone true ptl pp id snap = d.attachFail a busyS := by
  unfold Dev.attachDone
  rw [ha]
  dsimp only
  rw [if_neg (by rw [h]; decide), if_neg (by decide), hrole]
theorem Dev.attachDone_pairs {role : Nat} (h : d.flag ZTH_TWIN_STS_UP = true) (hrole : d.chooseRole a.pref ptl pp id = some role) :
    d.attachDone true ptl pp id snap = (if role = 2 then snap d else d.forgetMirror).attachAs a role := by
  unfold Dev.attachDone Dev.attachAs Dev.pairFresh
  rw [ha]
  dsimp only
  rw [if_neg (by rw [h]; decide), if_neg (by decide), hrole]
end

theorem Dev.twinAttach_ok {d d1 : Dev} {c : PqCmd} (hd1 : d1 = d.accepted c.queue.val c.tag.toNat) (hp : (pp c 0 != 1 && pp c 0 != 2) = false) (h61 : d.domOn 61 = true)
    (hpair : d.paired = false) (hatt : d.twin.attach = none) :
    d.twinAttach c = { d1.wf MGT_TWIN_STS_PARTNER 1 with twin.attach := some ⟨c.queue.val, c.tag.toNat, pp c 0, d1.now⟩ }.serviceSync := by
  subst hd1
  unfold Dev.twinAttach
  rw [checks_pass _ _ _ _ _ _ hp, checks_pass _ _ _ _ _ _ (congrArg not h61), checks_pass _ _ _ _ _ _ (by rw [hpair, hatt]; rfl), checks_nil]

/-! ### Banks mirrored to the STANDBY (R293) -/

theorem bankSpot_ge {off : Nat} {x : Nat × Nat × Nat × Fld} (h : bankSpot off = some x) : 0x1400000 ≤ x.2.1 := by
  unfold bankSpot at h
  extract_lets go at h
  have hgo (base n stride step : Nat) (act : Nat → Fld) (hb : 0x1400000 ≤ base) (hx : go base n stride step act = some x) : 0x1400000 ≤ x.2.1 := by
    dsimp only [go] at hx
    split at hx
    · obtain rfl := Option.some.inj hx
      dsimp only
      omega
    · cases hx
  obtain ⟨y, hy, hyx⟩ := List.exists_of_findSome?_eq_some h
  obtain rfl : y = some x := hyx
  simp only [List.mem_cons, List.not_mem_nil, or_false] at hy
  rcases hy with hy | hy | hy
  · exact hgo _ _ _ _ _ (by decide) hy.symm
  · exact hgo _ _ _ _ _ (by decide) hy.symm
  · exact hgo _ _ _ _ _ (by decide) hy.symm
theorem keepBanks_bank {t : Tab Nat} {off v : Nat} {x : Nat × Nat × Nat × Fld} (h : bankSpot off = some x) :
    Tab.find (keepBanks t [(off, v)]) x.2.1 = some v := by
  unfold keepBanks
  rw [List.foldl_cons, List.foldl_nil]
  dsimp only
  rw [h]
  exact (Tab.find_put _ _ _ _).trans (if_pos rfl)
theorem keepBanks_other {t : Tab Nat} {off v : Nat} (h : bankSpot off = none) : keepBanks t [(off, v)] = t := by
  unfold keepBanks
  rw [List.foldl_cons, List.foldl_nil]
  simp [h]
/-- The device with another log and other banks. -/
def Dev.withMirror (d : Dev) (l : List MirrorRec) (b : Tab Nat) : Dev := { d with twin.log := l, twin.banks := b }
theorem Dev.withMirror_keeps (d : Dev) (l : List MirrorRec) (b : Tab Nat) :
    (d.withMirror l b).twin.log = l ∧ (d.withMirror l b).twin.banks = b ∧ (d.withMirror l b).mem = d.mem := ⟨rfl, rfl, rfl⟩
/-- A completion the ACTIVE has confirmed reaches the STANDBY (R489). -/
theorem Dev.twinOutcome_standby {d : Dev} {q : Fin 16} {tag status : Nat} {res : List Nat} {banks : List (Nat × Nat)} (hrole : d.role = 2) (hgap : d.twin.gapEnd ≤ d.now) :
    (d.twinOutcome q tag status res banks).twin.banks = keepBanks d.twin.banks banks ∧
    (d.twinOutcome q tag status res banks).twin.log = (d.twin.log.filter fun m => !(m.queue == q.val && m.run.cmd.tag.toNat == tag)) ∧
    (d.twinOutcome q tag status res banks).mem = d.mem := by
  have hgo : d.twinOutcome q tag status res banks = (d.withMirror (d.twin.log.filter fun m => !(m.queue == q.val && m.run.cmd.tag.toNat == tag))
      (keepBanks d.twin.banks banks)).updQp q fun x => { x with window := noteWindow x.window tag ⟨status, res⟩ } := by
    unfold Dev.twinOutcome Dev.withMirror Dev.twinDeaf
    rw [if_neg (by simpa using hgap), if_pos hrole]
  obtain ⟨hlog, hbanks, hmem⟩ := d.withMirror_keeps (d.twin.log.filter fun m => !(m.queue == q.val && m.run.cmd.tag.toNat == tag)) (keepBanks d.twin.banks banks)
  rw [hgo, Dev.updQp_twin, Dev.updQp_mem]
  exact ⟨hbanks, hlog, hmem⟩
theorem noneLeft (l : List MirrorRec) (f : MirrorRec → Bool) : (l.filter fun m => !f m).any f = false := by
  rw [List.any_eq_false]
  intro m hm
  simpa using (List.mem_filter.1 hm).2

/-! ### Takeover (R490) -/

theorem Dev.reportUnserved_served {d : Dev} (h : ∀ p ∈ d.fw.plans, 32768 ≤ ahead (d.tl p.tl).k p.period) : d.reportUnserved false = d := by
  unfold Dev.reportUnserved
  refine List.foldlRecOn (motive := fun e => e = d) _ _ rfl fun e he p hp => ?_
  subst he
  have hpast := h p (List.mem_filter.1 hp).1
  dsimp only
  rw [List.filter_eq_nil_iff.2 fun r _ => ?_, List.foldl_nil]
  rw [Bool.false_and, Bool.false_and, Bool.false_or, decide_eq_false (by omega), ite_self]
  decide
theorem Dev.reportUnserved_empty {d : Dev} (h : d.fw.plans = []) (died : Bool) : d.reportUnserved died = d := by
  unfold Dev.reportUnserved
  rw [h, List.filter_nil, List.foldl_nil]
theorem Dev.twinHeld_pmuPush (d : Dev) (x target : Nat) (src : PmuSrc) : d.TwinHeld (d.pmuPush x target src) := by
  have hqueue (p : Pmu) : d.TwinHeld { d with pmu := p } := Dev.twinHeld_of_regs rfl rfl
  unfold Dev.pmuPush Dev.pmuShow Dev.setFlag
  exact (hqueue _).trans ((Dev.twinHeld_wf _ _ (by decide) (by decide)).trans (Dev.twinHeld_wf _ _ (by decide) (by decide)))
theorem Dev.twinHeld_updQp (d : Dev) (q : Nat) (f : QPair → QPair) : d.TwinHeld (d.updQp q f) :=
  Dev.twinHeld_of_regs (Dev.twinSide_of_rest (d.rest_updQp q f)) (d.regs_updQp q f)
theorem Dev.twinHeld_adopt (d : Dev) (m : MirrorRec) : d.TwinHeld (d.adopt m) := by
  unfold Dev.adopt
  dsimp only
  split <;> exact d.twinHeld_updQp _ _
theorem Dev.twinHeld_tmu (d : Dev) (x : Tmu) : d.TwinHeld { d with tmu := x } := Dev.twinHeld_of_regs rfl rfl
theorem Dev.twinHeld_setQuality (d : Dev) (st reason : Nat) : d.TwinHeld (d.setQuality st reason) := by
  unfold Dev.setQuality
  dsimp only
  split
  · exact .refl d
  · exact ((d.twinHeld_wf _ (by decide) (by decide)).trans (Dev.twinHeld_event _ _ _ _ _ _)).trans (Dev.twinHeld_tmu _ _)
theorem Dev.twinHeld_holdInc (d : Dev) : d.TwinHeld d.holdInc := by
  have hfree (n : Nat) : d.TwinHeld { d with free := n } := Dev.twinHeld_of_regs rfl rfl
  have hbank (b : Nat) : rMGT_TWIN_STS ≠ (TMU_INC_b_NS b).off ∧ rMGT_TWIN_TAKEOVERS ≠ (TMU_INC_b_NS b).off ∧ rMGT_TWIN_STS ≠ (TMU_INC_b_FRAC b).off ∧
      rMGT_TWIN_TAKEOVERS ≠ (TMU_INC_b_FRAC b).off := by
    dsimp only [rMGT_TWIN_STS, rMGT_TWIN_TAKEOVERS, rTMU_INC_b_NS, rTMU_INC_b_FRAC]
    omega
  obtain ⟨h1, h2, h3, h4⟩ := hbank (1 - d.rf TMU_INC_CTL_ACTIVE)
  unfold Dev.holdInc Dev.loadBank
  exact (((hfree _).trans (Dev.twinHeld_wf _ _ h1 h2)).trans (Dev.twinHeld_wf _ _ h3 h4)).trans (Dev.twinHeld_wf _ _ (by decide) (by decide))
theorem Dev.twinHeld_setReg (d : Dev) {o : Nat} (v : Nat) (h : 0x1400000 ≤ o) : d.TwinHeld (d.setReg o v) := by
  refine ⟨Dev.twinSide_of_rest (d.rest_setReg o v), ?_, ?_⟩
  · rw [Dev.reg_setReg, if_neg (by dsimp only [rMGT_TWIN_STS]; omega)]
  · rw [Dev.reg_setReg, if_neg (by dsimp only [rMGT_TWIN_TAKEOVERS]; omega)]
theorem Dev.bankHome_ge {d : Dev} {off o : Nat} (h : d.bankHome off = some o) : 0x1400000 ≤ o := by
  obtain ⟨x, hx, rfl⟩ := Option.map_eq_some_iff.1 h
  exact Nat.le_add_right_of_le (bankSpot_ge hx)
theorem Dev.twinHeld_noBanks (d : Dev) : d.TwinHeld { d with twin.banks := [] } := Dev.twinHeld_of_regs rfl rfl
theorem Dev.noBanks_banks (d : Dev) : ({ d with twin.banks := [] } : Dev).twin.banks = [] := rfl
theorem Dev.twinHeld_noSource (d : Dev) : d.TwinHeld { d with twin.source := none } := Dev.twinHeld_of_regs rfl rfl
theorem Dev.twinHeld_startSource (d : Dev) (a b c e : Nat) : d.TwinHeld (d.startSource a b c e) := Dev.twinHeld_of_regs rfl rfl
theorem Dev.twinHeld_loadBanks (d : Dev) : d.TwinHeld d.loadBanks ∧ d.loadBanks.twin.banks = [] := by
  unfold Dev.loadBanks
  refine ⟨.trans (.foldl (fun e b _ => ?_) d) (Dev.twinHeld_noBanks _), Dev.noBanks_banks _⟩
  split
  · next o ho =>
    split
    · exact e.twinHeld_setReg _ (Dev.bankHome_ge ho)
    · exact .refl e
  · exact .refl e
theorem Dev.replan_keeps (d : Dev) : d.replan.twin = d.twin ∧ d.replan.regs = d.regs := ⟨rfl, rfl⟩
theorem Dev.bump_keeps (d : Dev) (f : Fld) : (d.bump f).twin = d.twin := rfl
/-- What the STANDBY had logged, and its takeover, are gone from the twin. -/
def Dev.tookLog (d : Dev) : Dev :=
  { d with twin.log := [], twin.takeover := false, twin.silent := 0, twin.lostAt := none, twin.adopted := d.twin.log.map fun m => (m.queue, m.run.cmd.tag.toNat) }
theorem Dev.tookLog_keeps (d : Dev) : d.tookLog.twinSide = (d.twin.attach, d.twin.gens, [], false, d.fw.plans) ∧ d.tookLog.regs = d.regs := ⟨rfl, rfl⟩
/-- The STANDBY is ACTIVE, and its partner lost. -/
def Dev.nowActive (d : Dev) : Dev := (((d.wf MGT_TWIN_STS_PARTNER 4).wf MGT_TWIN_STS_MISSED_RUN 0).setRole 1 1).partnerLost 0
theorem Dev.nowActive_keeps (d : Dev) : d.nowActive.role = 1 ∧ d.nowActive.partner = 4 ∧ d.nowActive.twinSide = d.twinSide ∧
    d.nowActive.rf MGT_TWIN_TAKEOVERS = d.rf MGT_TWIN_TAKEOVERS := by
  have hheld : (((d.wf MGT_TWIN_STS_PARTNER 4).wf MGT_TWIN_STS_MISSED_RUN 0).setRole 1 1).TwinHeld d.nowActive := Dev.twinHeld_event _ _ _ _ _ _
  obtain ⟨hr, hp⟩ := hheld.roles
  obtain ⟨hr', hp'⟩ := ((d.wf MGT_TWIN_STS_PARTNER 4).wf MGT_TWIN_STS_MISSED_RUN 0).role_setRole 1 (by decide : 1 < 4)
  obtain ⟨hside, hcount⟩ := ((d.wf MGT_TWIN_STS_PARTNER 4).wf MGT_TWIN_STS_MISSED_RUN 0).setRole_keeps 1 1
  refine ⟨hr.trans hr', hp.trans (hp'.trans ((Dev.role_wf_missed _ _).2.trans (d.role_wf_partner 4 (by decide)).2)),
    hheld.side.trans (hside.trans (Dev.twinSide_of_rest ?_)), Dev.rf_of_reg (hheld.takeovers.trans (hcount.trans ?_))⟩
  · rw [Dev.rest_wf, Dev.rest_wf]
  · rw [Dev.reg_wf_other _ _ _ _ (by decide), Dev.reg_wf_other _ _ _ _ (by decide)]
theorem Dev.takeOver_keeps {d : Dev} (hrole : d.role = 2) (htake : d.twin.takeover = true) (hplans : d.fw.plans = []) :
    d.takeOver.role = 1 ∧ d.takeOver.partner = 4 ∧ d.takeOver.twin.takeover = false ∧ d.takeOver.twin.log = [] ∧ d.takeOver.twin.banks = [] ∧
      d.takeOver.rf MGT_TWIN_TAKEOVERS = (d.rf MGT_TWIN_TAKEOVERS + 1) % 2 ^ 32 := by
  obtain ⟨hside1, hregs1⟩ := d.tookLog_keeps
  obtain ⟨hr2, hp2, hside2, hcount2⟩ := d.tookLog.nowActive_keeps
  have hlate : ∃ e : Dev, d.tookLog.nowActive.TwinHeld e ∧ d.takeOver = ((e.loadBanks.reportUnserved true).replan).bump MGT_TWIN_TAKEOVERS := by
    unfold Dev.takeOver
    rw [if_neg (by rw [hrole, htake]; decide)]
    extract_lets lost tw d1 d2 d3 d4 d5 d6 d7
    refine ⟨d7, ?_, rfl⟩
    have h2 : d2 = d.tookLog.nowActive := rfl
    have h3 : d2.TwinHeld d3 := .foldl (fun e x _ => e.twinHeld_pmuPush _ _ _) d2
    have h4 : d3.TwinHeld d4 := .foldl (fun e m _ => e.twinHeld_adopt m) d3
    have h5 : d4.TwinHeld d5 := .foldl (fun e q _ => e.twinHeld_flush q) d4
    have h6 : d5.TwinHeld d6 := by
      dsimp only [d6]
      split
      · exact d5.twinHeld_holdInc.trans (Dev.twinHeld_setQuality _ _ _)
      · exact .refl d5
    have h7 : d6.TwinHeld d7 := by
      dsimp only [d7]
      split
      · exact (d6.twinHeld_startSource _ _ _ _).trans (Dev.twinHeld_noSource _)
      · exact .refl d6
    rw [← h2]
    exact (((h3.trans h4).trans h5).trans h6).trans h7
  obtain ⟨e, he, hgo⟩ := hlate
  obtain ⟨hload, hbanks⟩ := e.twinHeld_loadBanks
  have hheld := he.trans hload
  obtain ⟨hr, hp⟩ := hheld.roles
  have hside := hheld.side.trans (hside2.trans hside1)
  unfold Dev.twinSide at hside
  simp only [Prod.mk.injEq] at hside
  obtain ⟨-, -, hlog, htake', hplans'⟩ := hside
  obtain ⟨htwin, hregs⟩ := e.loadBanks.replan_keeps
  have hrf (f : Fld) (h : f.off ≠ rMGT_TWIN_TAKEOVERS) : (e.loadBanks.replan.bump MGT_TWIN_TAKEOVERS).rf f = e.loadBanks.rf f :=
    (Dev.rf_bump_other _ _ _ h).trans (Dev.rf_congr hregs _)
  rw [hgo, Dev.reportUnserved_empty (hplans'.trans hplans), Dev.bump_keeps, htwin]
  refine ⟨(hrf _ (by decide)).trans (hr.trans hr2), (hrf _ (by decide)).trans (hp.trans hp2), htake', hlog, hbanks, (Dev.rf_bump_same _ _ (by decide)).trans ?_⟩
  rw [Dev.rf_congr hregs, Dev.rf_of_reg hheld.takeovers, hcount2, Dev.rf_congr hregs1]

/-! ### The rows -/

theorem began_role (s : State) (c : PqCmd) : (s.began c).role = s.dev.role := Dev.rf_congr (began_regs s c) _
/-- Settles O55, row by row: the checks of the commands, then the events of the pair. -/
theorem twinRules : Obligations.TwinRules := by
  unfold Obligations.TwinRules
  intro s
  refine ⟨fun c => ?_, fun pref ptl ppref pid d => ?_, fun a same ptl pact id ha => ?_, fun sent heard => ?_, fun roleIn => ?_, fun t0 hrole hpart hlost => ?_,
    fun q entry => ⟨fun hgap => ?_, fun hgap => ⟨fun hrole => ?_, fun hrole hmirror => ?_⟩⟩, fun q tag status r x hrole hgap hr hown => ?_,
    fun q tag status res off v hrole hgap => ?_, fun d c => ⟨fun ht hs => ?_, fun hsrc => ?_⟩, fun p i bside half header hgap => ⟨fun hrole => ?_, fun hrole hpend => ?_⟩,
    fun h => ?_, fun d p hp hstart hahead => ?_, fun d h => Dev.reportUnserved_served h, fun d n k p => ?_, fun hrole htake hplans => ?_⟩
  · intro d
    have hpref (h : pp c 0 = 1 ∨ pp c 0 = 2) : (pp c 0 != 1 && pp c 0 != 2) = false := by
      rcases h with h | h <;> rw [h] <;> rfl
    have hdetach (hrole : d.role ≠ 2) : exec (.twinDetach c) s = .next (s.on (s.dev.pqDo 0x0702 c fun d => d.twinDetach c)) := by
      have hrole' : s.dev.role ≠ 2 := fun h => hrole ((began_role s c).trans h)
      exact next_on (if_neg (by rw [beq_false_of_ne hrole', Bool.false_and]; decide))
    refine ⟨fun hr hp hpair hatt h61 => ?_, fun hr hp h61 hbusy => ?_, fun hr hp h61 => ?_, fun hr hrole hpart => ?_, fun hr hrole => ?_, fun hr => pq_ready hr _, fun hr ht => ?_,
      fun hr ht hs => ?_, fun hr ht hs hnot => ?_, fun hr hrole hpart ht hs => ?_⟩
    · intro d1
      have hgo : exec (.twinAttach c) s = .next (s.on (d.twinAttach c)) := pq_ready hr _
      have hd1 : d1 = d.accepted c.queue.val c.tag.toNat := rfl
      clear_value d1
      exact hgo.trans (next_on (Dev.twinAttach_ok hd1 (hpref hp) h61 hpair hatt))
    · refine (pq_ready hr _).trans (next_on ((checks_pass _ _ _ _ _ _ (hpref hp)).trans ((checks_pass _ _ _ _ _ _ (congrArg not h61)).trans (checks_fail _ _ _ _ _ _ ?_))))
      exact Bool.or_eq_true_iff.2 hbusy
    · exact (pq_ready hr _).trans (next_on ((checks_pass _ _ _ _ _ _ (hpref hp)).trans (checks_fail _ _ _ _ _ _ (congrArg not h61))))
    · refine (hdetach (by rw [hrole]; decide)).trans ((pq_ready hr fun d => d.twinDetach c).trans (next_on (checks_pass _ _ _ _ _ _ ?_)))
      rw [show (s.began c).role = 1 from hrole, show (s.began c).partner = 2 from hpart]
      rfl
    · refine (hdetach (by rw [hrole]; decide)).trans ((pq_ready hr fun d => d.twinDetach c).trans (next_on (checks_fail _ _ _ _ _ _ ?_)))
      rw [show (s.began c).role = 0 from hrole]
      rfl
    · exact (pq_ready hr _).trans (next_on (checks_fail _ _ _ _ _ _ ht))
    · exact (pq_ready hr _).trans (next_on ((checks_pass _ _ _ _ _ _ ht).trans (checks_fail _ _ _ _ _ _ hs)))
    · refine (pq_ready hr _).trans (next_on ((checks_pass _ _ _ _ _ _ ht).trans ((checks_pass _ _ _ _ _ _ hs).trans (checks_fail _ _ _ _ _ _ ?_))))
      simpa using hnot
    · refine (pq_ready hr _).trans (next_on ((checks_pass _ _ _ _ _ _ ht).trans ((checks_pass _ _ _ _ _ _ hs).trans (checks_pass _ _ _ _ _ _ ?_))))
      rw [show (s.began c).role = 1 from hrole, show (s.began c).partner = 2 from hpart]
      rfl
  · unfold Dev.chooseRole
    refine ⟨fun h h' => ?_, fun h h' => ?_, fun h h' => ?_, fun h h' hne => ?_⟩
    · rw [h, h']
    · rw [h, h']
    · rw [h, h']
    · rw [h, h']
      exact if_pos hne
  · refine ⟨fun hup => ?_, fun hup hsame => ?_, fun hup hsame hrole => ?_, fun hup hsame hrole => nextAnd_act ?_, fun regs wins cars cmds hup hsame hrole => nextAnd_act ?_, fun hup => ?_⟩
    · exact congrArg (fun d => Host.Outcome.next (s.on d)) (Dev.attachDone_down ha hup)
    · rw [hsame]
      exact next_on (Dev.attachDone_differs ha hup)
    · rw [hsame]
      exact next_on (Dev.attachDone_refused ha hup hrole)
    · rw [hsame, Dev.attachDone_pairs ha hup hrole, State.on_dev, State.on_sec]
      obtain ⟨h1, h2, h3, h4⟩ := Dev.attachAs_keeps s.dev.forgetMirror a (by decide : 1 < 4)
      exact ⟨h1, h2, h3, h4, rfl⟩
    · rw [hsame, Dev.attachDone_pairs ha hup hrole, State.on_dev, State.on_sec]
      obtain ⟨h1, h2, h3, h4⟩ := Dev.attachAs_keeps (s.dev.snapshotIn (regs.map fun r => (r.1.toNat, r.2.toNat))
        (wins.map fun w => (w.1, w.2.map fun t => ⟨t.tag.toNat, t.op.toNat, t.done.map fun c => ⟨c.1.toNat, c.2.map (·.toNat)⟩⟩))
        (cars.map fun x => (x.1.val, x.2.1.val, x.2.2.1, x.2.2.2)) cmds) a (by decide : 2 < 4)
      exact ⟨h1, h2, h3, h4, rfl⟩
    · refine next_on ?_
      dsimp only
      rw [ha]
      exact if_neg (by rw [hup]; decide)
  · refine ⟨fun hrole => congrArg (fun d => Host.Outcome.next (s.on d)) (if_pos hrole), ?_⟩
    intro hrole d1
    refine ⟨fun hno => next_on ((if_neg hrole).trans (if_neg ?_)), fun hheard hgap hpart => next_on ((if_neg hrole).trans (if_pos ?_))⟩
    · rcases hno with hno | hno
      · rw [hno, Bool.false_and, Bool.false_and]
        decide
      · rw [show s.dev.twinDeaf = true from decide_eq_true hno, Bool.not_true, Bool.and_false, Bool.false_and]
        decide
    · rw [hheard, show s.dev.twinDeaf = false from decide_eq_false (Nat.not_lt.2 hgap)]
      simpa using hpart
  · intro n d1
    have hon (hp : s.dev.paired = true) (hgap : s.dev.twin.gapEnd ≤ s.dev.now) : ¬ (!s.dev.paired || s.dev.twinDeaf) = true := by
      rw [hp, show s.dev.twinDeaf = false from decide_eq_false (Nat.not_lt.2 hgap)]
      decide
    refine ⟨fun hno => congrArg (fun d => Host.Outcome.next (s.on d)) (if_pos ?_), fun hp hgap hn => next_on ((if_neg (hon hp hgap)).trans ?_),
      fun hp hgap hn => next_on ((if_neg (hon hp hgap)).trans (if_pos hn)), fun d hrole => if_pos hrole, fun d hrole => (if_neg hrole).trans (if_neg Bool.false_ne_true)⟩
    · rcases hno with hno | hno
      · rw [hno]
        rfl
      · rw [show s.dev.twinDeaf = true from decide_eq_true hno, Bool.or_true]
    · exact (if_neg (by omega : n ≠ 2)).trans (if_neg fun h => by omega)
  · refine next_on ?_
    dsimp only
    rw [hrole, hpart, hlost]
    rfl
  · exact congrArg (fun d => Host.Outcome.next (s.on d)) (if_pos (decide_eq_true hgap))
  · refine next_on ((if_neg ?_).trans (if_pos hrole))
    rw [show s.dev.twinDeaf = false from decide_eq_false (Nat.not_lt.2 hgap)]
    decide
  · refine next_on ((if_neg ?_).trans ((if_neg (by rw [hrole]; decide)).trans (if_pos ⟨hrole, hmirror⟩)))
    rw [show s.dev.twinDeaf = false from decide_eq_false (Nat.not_lt.2 hgap)]
    decide
  · have hgo : exec (.twinOutcome q tag status ([], [])) s = .next (s.on (if x.status = status.toNat then
        (s.dev.updQp q fun y => { y with running := y.running.map fun (z : RunCmd) => if z = r then { z with outcome := false } else z }).flush q
        else s.dev.diverged r x.status status.toNat)) := by
      refine next_on ((if_neg ?_).trans ((if_neg (by rw [hrole]; decide)).trans ?_))
      · rw [show s.dev.twinDeaf = false from decide_eq_false (Nat.not_lt.2 hgap)]
        decide
      · rw [hr]
        dsimp only
        rw [hown]
    exact ⟨fun h => hgo.trans (next_on (if_pos h)), fun h => hgo.trans (next_on (if_neg h))⟩
  · refine nextAnd_act ?_
    dsimp only
    obtain ⟨hbanks, hlog, hmem⟩ := Dev.twinOutcome_standby (q := q) (tag := tag.toNat) (status := status.toNat) (res := res.map (·.toNat))
      (banks := [(off.toNat, v.toNat)]) hrole hgap
    rw [State.on_dev, State.on_sec]
    refine ⟨fun x hx => ?_, fun hnone => ?_, ?_, hmem, rfl⟩
    · exact (congrArg (Tab.find · x.2.1) hbanks).trans (keepBanks_bank hx)
    · exact hbanks.trans (keepBanks_other hnone)
    · exact (congrArg (List.any · _) hlog).trans (noneLeft _ _)
  · exact if_pos ⟨rfl, by rw [ht]; rfl, by rw [hs]; rfl⟩
  · exact (if_neg fun h => absurd h.1 (by decide)).trans (if_pos ⟨rfl, by rw [hsrc]; rfl⟩)
  · refine next_on ((if_neg ?_).trans ((if_neg (by rw [hrole]; decide)).trans (if_pos hrole)))
    rw [show s.dev.twinDeaf = false from decide_eq_false (Nat.not_lt.2 hgap)]
    decide
  · refine next_on ((if_neg ?_).trans ((if_pos hrole).trans (if_pos hpend)))
    rw [show s.dev.twinDeaf = false from decide_eq_false (Nat.not_lt.2 hgap)]
    decide
  · refine congrArg (fun d => Host.Outcome.next (s.on d)) (if_pos ?_)
    rcases h with h | h
    · rw [beq_false_of_ne h]
      rfl
    · rw [h, Bool.and_false]
      rfl
  · obtain ⟨x, -, rfl⟩ := List.mem_map.1 hp
    split
    · rfl
    · next hno =>
      rw [if_neg hno] at hstart hahead
      exact Bool.eq_false_iff.2 fun hb => hno ⟨hb, hstart, hahead⟩
  · unfold Dev.keepsPlan
    simp only [Bool.or_eq_true, Bool.and_eq_true, bne_iff_ne, beq_iff_eq, decide_eq_true_eq, Bool.not_eq_true', or_assoc]
    rfl
  · refine nextAnd_act ?_
    rw [State.on_dev, State.on_sec]
    obtain ⟨h1, h2, h3, h4, h5, h6⟩ := Dev.takeOver_keeps hrole htake hplans
    exact ⟨h1, h2, h3, h4, h5, h6, rfl⟩

end Sys2Proof.Machine

/-! SUPPORT. The Marrow: the recorder's states and log, replay, BAR4 (R496-R503). -/

namespace Sys2Proof.Machine

/-! ### The log (R499) -/

/-- The bytes of a list of records. -/
def logBytes (l : List RecEntry) : Nat := l.foldl (fun a e => a + e.len) 0
theorem logBytes_append (l m : List RecEntry) : logBytes (l ++ m) = m.foldl (fun a e => a + e.len) (logBytes l) := List.foldl_append
theorem logBytes_le {n : Nat} (l : List RecEntry) (h : ∀ x ∈ l, x.len ≤ n) : logBytes l ≤ n * l.length := by
  have hgo (a : Nat) : l.foldl (fun a e => a + e.len) a ≤ a + n * l.length := by
    induction l generalizing a with
    | nil => simp
    | cons x l ih =>
      have hx := h x (by simp)
      have hl := ih (fun y hy => h y (List.mem_cons_of_mem _ hy)) (a + x.len)
      rw [List.foldl_cons, List.length_cons, Nat.mul_add]
      omega
  simpa [logBytes] using hgo 0
theorem dropOld_fits {room fuel : Nat} {l : List RecEntry} (h : logBytes l ≤ room) : dropOld room fuel l = l := by
  cases fuel with
  | zero => rfl
  | succ n => exact if_neg (Nat.not_lt.2 h)
theorem Dev.putLog_marrow (d : Dev) (l : List RecEntry) (n : Nat) (b : Bool) :
    (d.putLog l n b).marrow.log = l ∧ (d.putLog l n b).marrow.bytes = n ∧ (d.putLog l n b).marrow.lost = b := ⟨rfl, rfl, rfl⟩
/-- A record that fits goes to the end of the log. -/
theorem Dev.recStore_fits {d : Dev} {type tl period n : Nat} {b : List Byte} (hlost : d.marrow.lost = false)
    (hfits : logBytes (d.marrow.log ++ [⟨type, tl, period, n, d.ns, d.secs % 2 ^ 32, b⟩]) ≤ d.marrow.cfg.size * 2 ^ 20 - d.marrow.cfg.area) :
    d.recStore type tl period n b = d.putLog (d.marrow.log ++ [⟨type, tl, period, n, d.ns, d.secs % 2 ^ 32, b⟩]) (d.marrow.bytes + n) false := by
  unfold Dev.recStore
  rw [hlost]
  simp only [Bool.false_eq_true, if_false, List.nil_append, List.length_nil, Nat.mul_zero, Nat.add_zero]
  rw [dropOld_fits hfits, if_neg (Nat.lt_irrefl _)]

/-! ### REC_CONFIG (R496, R497) -/

/-- The recorder with another selection. -/
def Dev.withCfg (d : Dev) (m : Marrow) : Dev := { d with marrow := m }
theorem Dev.withCfg_selected (d : Dev) (x : RecCfg) (tl : Nat) (l k : List RecEntry) :
    ({ d with marrow.cfg := x, marrow.tl := tl, marrow.log := l, marrow.captures := k } : Dev) =
      d.withCfg { d.marrow with cfg := x, tl := tl, log := l, captures := k } := rfl
theorem Dev.withCfg_keeps (d : Dev) (m : Marrow) : (d.withCfg m).marrow = m ∧ (d.withCfg m).regs = d.regs ∧ (d.withCfg m).now = d.now ∧ (d.withCfg m).mem = d.mem :=
  ⟨rfl, rfl, rfl, rfl⟩
theorem Dev.cfg_of_rest {d e : Dev} (h : e.rest = d.rest) : e.marrow.cfg = d.marrow.cfg := by
  have hrest (x : Dev) : x.rest.marrow.cfg = x.marrow.cfg := rfl
  rw [← hrest e, h, hrest d]
theorem Dev.fin_keeps (d : Dev) (c : PqCmd) (st : Nat) : (d.fin c st).marrow.cfg = d.marrow.cfg ∧ (d.fin c st).now = d.now ∧ (d.fin c st).mem = d.mem := by
  have hrest := d.rest_complete c.queue.val c.tag.toNat st []
  obtain ⟨hnow, -, -, -, -, -, -, -, -, hmem, -⟩ := Dev.rest_fields hrest
  exact ⟨Dev.cfg_of_rest hrest, hnow, hmem⟩
theorem Dev.rf_fin (d : Dev) (c : PqCmd) (st : Nat) {f : Fld} (h : 0x400000 ≤ f.off) : (d.fin c st).rf f = d.rf f :=
  d.rf_complete (by omega) h _ _ _
/-- The registers of a new selection. -/
def Dev.recRegs (d : Dev) (base size : Nat) : Dev := ((d.wf MEM_REC_BASE base).wf MEM_REC_SIZE size).wf OBS_REC_STS_STATE 0
theorem Dev.recRegs_keeps (d : Dev) (base size : Nat) : (d.recRegs base size).rf OBS_REC_STS_STATE = 0 ∧
    (d.recRegs base size).rf MEM_REC_SIZE = size % 2 ^ MEM_REC_SIZE.w ∧ (d.recRegs base size).now = d.now ∧ (d.recRegs base size).mem = d.mem := by
  unfold Dev.recRegs
  refine ⟨Dev.rf_wf_same _ _ _ (by decide), ?_, ?_, ?_⟩
  · rw [Dev.rf_wf_other _ _ _ _ (by decide), Dev.rf_wf_same _ _ _ (by decide)]
  · rw [Dev.wf_now, Dev.wf_now, Dev.wf_now]
  · rw [Dev.wf_mem, Dev.wf_mem, Dev.wf_mem]
theorem Dev.configured_keeps (d : Dev) (c : PqCmd) (m : Marrow) (base size : Nat) :
    (((d.recRegs base size).withCfg m).fin c okS).rf OBS_REC_STS_STATE = 0 ∧
    (((d.recRegs base size).withCfg m).fin c okS).rf MEM_REC_SIZE = size % 2 ^ MEM_REC_SIZE.w ∧
    (((d.recRegs base size).withCfg m).fin c okS).marrow.cfg = m.cfg ∧
    (((d.recRegs base size).withCfg m).fin c okS).now = d.now ∧ (((d.recRegs base size).withCfg m).fin c okS).mem = d.mem := by
  obtain ⟨hmarrow, hregs, hnow, hmem⟩ := (d.recRegs base size).withCfg_keeps m
  obtain ⟨hcfg', hnow', hmem'⟩ := ((d.recRegs base size).withCfg m).fin_keeps c okS
  obtain ⟨hst, hsize, hnow0, hmem0⟩ := d.recRegs_keeps base size
  rw [Dev.rf_fin _ _ _ (by decide), Dev.rf_fin _ _ _ (by decide), hcfg', hnow', hmem', Dev.rf_congr hregs, Dev.rf_congr hregs, hmarrow, hnow, hmem]
  exact ⟨hst, hsize, rfl, hnow0, hmem0⟩

section
variable {d : Dev} {c : PqCmd} {area : Nat} (h0 : pp c 0 ≠ 0) (hmax : pp c 0 ≤ 16384) (hddr : 2 * pp c 0 * 2 ^ 20 ≤ d.ddrSize)
  (harea : d.captureArea (pp c 0) (pp c 1) (pp c 2) (pp c 3) = some area) (hfits : area + 256 * 2 ^ 20 ≤ pp c 0 * 2 ^ 20) (h77 : d.domOn 77 = true)
  (hddr' : d.noDdr = false)
include h0 hmax hddr harea hfits
theorem Dev.recConfig_good : ∃ m base f, d.recConfig c = d.checks c [(!d.domOn 77 || d.noDdr, domainOffS), (d.recording, busyS)] f ∧
    f d = ((d.recRegs base (pp c 0)).withCfg m).fin c okS ∧ m.cfg = ⟨pp c 0, pp c 1, pp c 2, pp c 3, area⟩ := by
  unfold Dev.recConfig Dev.recRegs
  refine ⟨_, _, _, checks_pass _ _ _ _ _ _ ?_, congrArg (Dev.fin · c okS) (Dev.withCfg_selected _ _ _ _ _), ?_⟩
  · have hsize : ¬ 16384 < pp c 0 := Nat.not_lt.2 hmax
    have hroom : ¬ d.ddrSize < 2 * pp c 0 * 2 ^ 20 := Nat.not_lt.2 hddr
    have hover : ¬ pp c 0 * 2 ^ 20 < area + 256 * 2 ^ 20 := Nat.not_lt.2 hfits
    rw [harea, decide_eq_false h0, decide_eq_false hsize, decide_eq_false hroom, Bool.false_or, Bool.false_or, Bool.false_or]
    dsimp only
    rw [decide_eq_false hover]
  · rw [harea]
    rfl
include h77 hddr'
theorem Dev.recConfig_busy (hrec : d.recording = true) : d.recConfig c = d.fin c busyS := by
  obtain ⟨m, base, f, hgo, -, -⟩ := Dev.recConfig_good h0 hmax hddr harea hfits
  exact hgo.trans ((checks_pass _ _ _ _ _ _ (by rw [h77, hddr']; rfl)).trans (checks_fail _ _ _ _ _ _ hrec))
theorem Dev.recConfig_free (hrec : d.recording = false) : ∃ m base, d.recConfig c = ((d.recRegs base (pp c 0)).withCfg m).fin c okS ∧
    m.cfg = ⟨pp c 0, pp c 1, pp c 2, pp c 3, area⟩ := by
  obtain ⟨m, base, f, hgo, hf, hcfg⟩ := Dev.recConfig_good h0 hmax hddr harea hfits
  exact ⟨m, base, (hgo.trans ((checks_pass _ _ _ _ _ _ (by rw [h77, hddr']; rfl)).trans (checks_pass _ _ _ _ _ _ hrec))).trans hf, hcfg⟩
end

/-! ### Replay (R502) -/

/-- A recorded record beside what the replay gave for it. -/
abbrev recPairs (log : List RecEntry) (type : Nat) (r : Replay) (l : List (Option Word)) : List (RecEntry × Option Word) :=
  ((replayRecs log type r).zip l).filter (·.2.isSome)
/-- The two CRCs differ. -/
abbrev recDiffers (x : RecEntry × Option Word) : Bool := x.2.map (·.toNat) != some (leAt x.1.body 0 4)
theorem compareRecs_words (m : List RecEntry) (l : List (Option Word)) :
    compareRecs (m.zip (l.map (·.map (·.toNat)))) = (((m.zip l).filter (·.2.isSome)).length,
      (((m.zip l).filter (·.2.isSome)).filter recDiffers).map fun x => (x.1.period, leAt x.1.body 4 2, x.1.type)) := by
  have hzip : m.zip (l.map (·.map (·.toNat))) = (m.zip l).map fun x => (x.1, x.2.map (·.toNat)) := by
    rw [List.zip_map_right]
    rfl
  have hsome (x : RecEntry × Option Word) : (x.2.map (·.toNat)).isSome = x.2.isSome := Option.isSome_map
  unfold compareRecs
  rw [hzip, List.filter_map, List.length_map, List.filter_map, List.map_map, List.filter_filter]
  simp only [Function.comp_def, hsome, recDiffers, Bool.and_comm]
theorem mem_replayRecs {log : List RecEntry} {type : Nat} {r : Replay} {e : RecEntry} (h : e ∈ replayRecs log type r) :
    e ∈ log ∧ e.type = type ∧ e.tl = r.tl ∧ inSpan r.first r.count e.jobOf = true := by
  obtain ⟨hin, hb⟩ := List.mem_filter.1 h
  simp only [Bool.and_eq_true, beq_iff_eq] at hb
  obtain ⟨⟨⟨htype, htl⟩, hspan⟩, -⟩ := hb
  exact ⟨hin, htype, htl, hspan⟩
/-- REC_REPLAY's first check (R502). -/
abbrev Dev.replayBad (d : Dev) (c : PqCmd) : Bool :=
  decide (12 ≤ pp c 0) || decide (4 ≤ pp c 1) || decide (65536 ≤ pp c 2) || decide (32768 < pp c 3) ||
    !(d.rf OBS_REC_STS_STATE == 3 || (d.rf OBS_REC_STS_STATE == 0 && !d.marrow.log.isEmpty)) || !spanHeld d.marrow.log (pp c 1) (pp c 2) (pp c 3) || !d.podIdle (pp c 0) ||
    (spanPods d.marrow.log (pp c 1) (pp c 2) (pp c 3)).any fun p =>
      Tab.find d.marrow.images p != (Tab.find d.pods.images (pp c 0)).map (·.crc) || ((Tab.find d.pods.images (pp c 0)).map (·.crc)).isNone
theorem recReplay_good {d : Dev} {c : PqCmd} (hq : pp c 0 < 12) (htl : pp c 1 < 4) (hfirst : pp c 2 < 65536) (hcount : pp c 3 ≤ 32768)
    (hst : (d.rf OBS_REC_STS_STATE == 3 || (d.rf OBS_REC_STS_STATE == 0 && !d.marrow.log.isEmpty)) = true)
    (hidle : d.podIdle (pp c 0) = true) (hheld : spanHeld d.marrow.log (pp c 1) (pp c 2) (pp c 3) = true)
    (hpods : ∀ p ∈ spanPods d.marrow.log (pp c 1) (pp c 2) (pp c 3), Tab.find d.marrow.images p = (Tab.find d.pods.images (pp c 0)).map (·.crc) ∧
      ((Tab.find d.pods.images (pp c 0)).map (·.crc)).isSome = true) :
    d.replayBad c = false := by
  unfold Dev.replayBad
  rw [decide_eq_false (by omega), decide_eq_false (by omega), decide_eq_false (by omega), decide_eq_false (by omega), hst, hheld, hidle]
  refine List.any_eq_false.2 fun p hp => ?_
  obtain ⟨hfind, hsome⟩ := hpods p hp
  rw [hfind, ← Option.not_isSome, hsome, bne_self_eq_false]
  decide

/-! ### The rows -/

theorem Dev.recAdd_idle {d : Dev} (h : d.recording = false) (type tl period : Nat) (b : Option (List Byte)) : d.recAdd type tl period b = d :=
  if_pos (by rw [h]; rfl)
theorem Dev.recAdd_body {d : Dev} (h : d.recording = true) (type tl period : Nat) (b : List Byte) :
    d.recAdd type tl period (some b) = if d.recMem then d.recStore type tl period (16 + 16 * ceilDiv b.length 16) b else d.recDrop (16 + 16 * ceilDiv b.length 16) :=
  if_neg (by rw [h]; decide)
theorem Dev.replayRelease_none {d : Dev} (h : d.marrow.replay = none) (gs : List (List Byte)) (order : List (Nat × Nat)) : d.replayRelease gs order = d := by
  unfold Dev.replayRelease
  rw [h]

/-- The replay's next period begins. -/
def Dev.periodBegun (d : Dev) (r : Replay) : Dev :=
  let d1 := if r.released = 0 then d else d.advanceTo (r.last + nsT (8 * d.periodNs r.tl))
  d1.updReplay fun x => { x with released := r.released + 1, last := d1.now }
/-- The replayed jobs admitted take their recorded order. -/
def Dev.takeOrder (d : Dev) (order : List (Nat × Nat)) : Dev :=
  (d.updReplay fun x => { x with order := order.filterMap fun o => (((d.wds.jobs.filter (·.2.replay)).map Prod.fst)[o.1]?).map fun s => (s, o.2) }).wdsSettle
section
variable {d : Dev} {r : Replay} (h : d.marrow.replay = some r) (hlt : r.released < r.count) (hdone : d.replayDone = true)
include h hlt hdone
theorem Dev.replayRelease_due (gs : List (List Byte)) (order : List (Nat × Nat)) :
    d.replayRelease gs order =
      let a := (gs.filter fun g => leAt g 2 1 == r.tl && leAt g 4 2 == (r.first + r.released) % 65536).foldl
        (fun (a : Dev × Bool) g => let x := a.1.admitGraph true g; (x.1, a.2 && x.2)) (d.periodBegun r, true)
      if !a.2 then a.1.replayRefused r else a.1.takeOrder order := by
  unfold Dev.replayRelease
  rw [h]
  exact if_pos (by rw [hdone, decide_eq_true hlt]; rfl)
theorem Dev.replayRelease_one {g : List Byte} (htl : leAt g 2 1 = r.tl) (hper : leAt g 4 2 = (r.first + r.released) % 65536) (order : List (Nat × Nat)) :
    d.replayRelease [g] order = if !((d.periodBegun r).admitGraph true g).2 then ((d.periodBegun r).admitGraph true g).1.replayRefused r
      else ((d.periodBegun r).admitGraph true g).1.takeOrder order := by
  have hmine : ([g].filter fun g => leAt g 2 1 == r.tl && leAt g 4 2 == (r.first + r.released) % 65536) = [g] := by
    refine List.filter_eq_self.2 fun x hx => ?_
    rw [List.mem_singleton.1 hx, htl, hper, beq_self_eq_true, beq_self_eq_true]
    rfl
  rw [Dev.replayRelease_due h hlt hdone, hmine, List.foldl_cons, List.foldl_nil]
  dsimp only
  rw [Bool.true_and]
end
/-- What the replay gave is compared, and the mismatches raise their events. -/
theorem Dev.replayComplete_done {d : Dev} {r : Replay} (h : d.marrow.replay = some r) (hall : r.released = r.count) (hdone : d.replayDone = true)
    (results digests : List (Option Word)) :
    d.replayComplete (results.map (·.map (·.toNat))) (digests.map (·.map (·.toNat))) =
      let all := recPairs d.marrow.log 6 r results ++ recPairs d.marrow.log 7 r digests
      let d1 := (all.filter recDiffers).foldl (fun (d : Dev) x => d.event 4 3 x.1.period (leAt x.1.body 4 2 + 2 ^ 16 * x.1.type) 0) { d with marrow.replay := none }
      ((d1.wf (WDS_PODn_CTL_MODE r.pod) 1).logPod 0x06 0xFF 0 0 0).wdsSettle.complete r.queue r.tag okS [all.length, (all.filter recDiffers).length] := by
  unfold Dev.replayComplete
  rw [h]
  dsimp only
  rw [if_pos (by rw [hdone, hall]; simp), compareRecs_words, compareRecs_words, ← List.map_append, ← List.filter_append, List.foldl_map, List.length_map, List.length_append]
theorem Dev.recStart_ok {d : Dev} {c : PqCmd} (h77 : d.domOn 77 = true) (hmem : d.recMem = true) :
    let d1 := (d.wf OBS_REC_STS_STATE 1).setFlag OBS_REC_STS_WRAPPED false
    let d2 : Dev := { d1 with marrow.log := [], marrow.captures := [], marrow.bytes := 0, marrow.lost := false, marrow.images := Tab.mapV (fun _ i => i.crc) d1.pods.images }
    d.recStart c = (d2.recAdd 0x0B d2.marrow.tl (d2.recK % 65536) none).fin c okS := by
  unfold Dev.recStart
  rw [checks_pass _ _ _ _ _ _ (by rw [h77, hmem]; rfl), checks_nil]
theorem Dev.recTriggerCmd_waits {d d1 : Dev} {c : PqCmd} (hd1 : d1 = d.inProgress c.queue.val c.tag.toNat) (h77 : d.domOn 77 = true) (hst : d.rf OBS_REC_STS_STATE ≠ 3) :
    d.recTriggerCmd c = { d1 with marrow.waiting := d1.marrow.waiting ++ [(c.queue.val, c.tag.toNat)] }.recTrigger 6 := by
  subst hd1
  unfold Dev.recTriggerCmd
  rw [checks_pass _ _ _ _ _ _ (congrArg not h77), checks_nil, if_neg hst]
theorem Dev.recReplay_starts {d d1 : Dev} {c : PqCmd} (hd1 : d1 = (d.accepted c.queue.val c.tag.toNat).wf (WDS_PODn_CTL_MODE (pp c 0)) 2)
    (hbad : d.replayBad c = false)
    (hdom : (!d.domOn 77 || !d.domOn 75) = false) (hrep : d.marrow.replay = none) (hcount : pp c 3 ≠ 0) :
    d.recReplay c = ({ d1 with marrow.replay := some ⟨pp c 0, pp c 1, pp c 2, pp c 3, 0, 0, c.queue.val, c.tag.toNat, 0, 0, [], [],
      spanCpx (spanOf d.marrow.log (pp c 1) (pp c 2) (pp c 3))⟩ }.logPod 0x06 0xFF 0 0 0).wdsSettle := by
  subst hd1
  unfold Dev.recReplay
  dsimp only
  rw [checks_pass _ _ _ _ _ _ hbad, checks_pass _ _ _ _ _ _ hdom, checks_pass _ _ _ _ _ _ (by rw [hrep]; rfl), checks_nil, if_neg hcount]
/-- Settles O56, row by row: the recorder's states, the replay's release and its comparison, the log's layout, BAR4. -/
theorem recorderRules : Obligations.RecorderRules := by
  unfold Obligations.RecorderRules
  intro s
  refine ⟨fun c => ?_, fun hst => ?_, fun hst => ⟨fun hon hk => ?_, fun hoff => ?_⟩, fun c => ?_, fun c => ?_, fun gs order h => ?_, fun r hr hlt hdone => ?_,
    fun r results digests hr hall hdone => ?_, fun log type r e he => ?_, fun d type tl period b hrec => ⟨fun hmem hlost hlen hcount hroom hb => ?_, fun hmem => ?_⟩,
    fun d type tl period b hrec => Dev.recAdd_idle hrec type tl period b, fun off data => ?_⟩
  · intro d size st
    refine ⟨fun area hr h0 hmax hddr harea hfits h77 hnod => ⟨fun hrec => (pq_ready hr _).trans (next_on (Dev.recConfig_busy h0 hmax hddr harea hfits h77 hnod hrec)), fun hrec => ?_⟩,
      fun hr hoff => (pq_ready hr _).trans (next_on (checks_fail _ _ _ _ _ _ ?_)), fun hr h77 hmem => ?_, fun hr h77 => ⟨fun hst => ?_, fun hst => ?_⟩, fun hr h77 hlog => ?_,
      fun e l hr h77 hlog => ?_⟩
    · obtain ⟨m, base, hgo, hcfg⟩ := Dev.recConfig_free h0 hmax hddr harea hfits h77 hnod hrec
      obtain ⟨hst, hsize, hcfg', hnow, hmem⟩ := d.configured_keeps c m base (pp c 0)
      refine ⟨_, (pq_ready hr _).trans (next_on hgo), ?_⟩
      dsimp -zeta only
      rw [State.on_dev]
      exact ⟨hst, hsize, hcfg'.trans hcfg, hnow, hmem⟩
    · rcases hoff with h | h
      · rw [show (s.began c).domOn 77 = false from h]
        rfl
      · rw [show (s.began c).recMem = false from h]
        exact Bool.or_true _
    · have hgo : exec (.recStart c) s = .next (s.on (d.recStart c)) := pq_ready hr _
      refine hgo.trans (next_on ?_)
      clear_value d
      exact Dev.recStart_ok h77 hmem
    · refine (pq_ready hr _).trans (next_on ((checks_pass _ _ _ _ _ _ (congrArg not h77)).trans (if_pos hst)))
    · have hgo : exec (.recTrigger c) s = .next (s.on (d.recTriggerCmd c)) := pq_ready hr _
      intro d1
      have hd1 : d1 = d.inProgress c.queue.val c.tag.toNat := rfl
      clear_value d1
      exact hgo.trans (next_on (Dev.recTriggerCmd_waits hd1 h77 hst))
    · refine (pq_ready hr _).trans (next_on ((checks_pass _ _ _ _ _ _ (congrArg not h77)).trans ?_))
      rw [checks_nil, show (s.began c).marrow.log = [] from hlog]
    · refine (pq_ready hr _).trans (next_on ((checks_pass _ _ _ _ _ _ (congrArg not h77)).trans ?_))
      rw [checks_nil, show (s.began c).marrow.log = e :: l from hlog]
  · exact congrArg (fun d => Host.Outcome.next (s.on d)) (if_pos hst)
  · exact next_on ((if_neg (not_not_intro hst)).trans ((if_pos hon).trans (if_pos hk)))
  · exact next_on ((if_neg (not_not_intro hst)).trans (if_neg (by rw [hoff]; decide)))
  · intro d q tl first hr hq htl hfirst hst hidle hcount hheld hpods h77 h75 hrep
    have hbad := recReplay_good (d := d) hq htl hfirst (by omega) (by rw [hst]; rfl) hidle (by rw [hcount]; exact hheld) (by
      rw [hcount, show spanPods (s.began c).marrow.log (pp c 1) (pp c 2) 0 = [] from hpods]
      exact fun p hp => absurd hp List.not_mem_nil)
    refine (pq_ready hr _).trans (next_on ((checks_pass _ _ _ _ _ _ hbad).trans ((checks_pass _ _ _ _ _ _ ?_).trans ((checks_pass _ _ _ _ _ _ ?_).trans (if_pos hcount)))))
    · rw [show (s.began c).domOn 77 = true from h77, show (s.began c).domOn 75 = true from h75]
      rfl
    · rw [show (s.began c).marrow.replay = none from hrep]
      rfl
  · intro d q tl first count image hr hq htl hfirst hst hidle hpos hcount hheld hpods h77 h75
    have hst' : (d.rf OBS_REC_STS_STATE == 3 || (d.rf OBS_REC_STS_STATE == 0 && !d.marrow.log.isEmpty)) = true := by
      rcases hst with h | ⟨h, hlog⟩
      · rw [h]
        rfl
      · rw [h, List.isEmpty_eq_false_iff.2 hlog]
        rfl
    have hbad := recReplay_good (d := d) hq htl hfirst hcount hst' hidle hheld hpods
    have hgo : exec (.recReplay c) s = .next (s.on (d.recReplay c)) := pq_ready hr _
    have hdom : (!d.domOn 77 || !d.domOn 75) = false := by
      rw [h77, h75]
      rfl
    refine ⟨fun hrep => hgo.trans (next_on ((checks_pass _ _ _ _ _ _ hbad).trans ((checks_pass _ _ _ _ _ _ hdom).trans (checks_fail _ _ _ _ _ _ hrep)))), ?_⟩
    intro hrep d1
    have hd1 : d1 = (d.accepted c.queue.val c.tag.toNat).wf (WDS_PODn_CTL_MODE (pp c 0)) 2 := rfl
    clear_value d1
    exact hgo.trans (next_on (Dev.recReplay_starts hd1 hbad hdom hrep (Nat.pos_iff_ne_zero.1 hpos)))
  · exact congrArg (fun d => Host.Outcome.next (s.on d)) (Dev.replayRelease_none h _ _)
  · intro d1 d2
    have hdue := Dev.replayRelease_due hr hlt hdone
    refine ⟨next_on (hdue [] []), fun g order htl hper => ?_⟩
    intro x
    have hgo : exec (.replayPeriodRelease [g] order) s = .next (s.on (if !x.2 then x.1.replayRefused r else x.1.takeOrder (order.map fun o => (o.1, o.2.val)))) :=
      next_on (Dev.replayRelease_one hr hlt hdone htl hper _)
    clear_value x
    refine ⟨fun hx => hgo.trans (next_on (if_pos (by rw [hx]; rfl))), fun hx => hgo.trans (next_on ((if_neg (by rw [hx]; decide)).trans ?_))⟩
    unfold Dev.takeOrder
    rw [List.filterMap_map]
    rfl
  · exact next_on (Dev.replayComplete_done hr hall hdone results digests)
  · obtain ⟨hin, htype, htl, hspan⟩ := mem_replayRecs he
    refine ⟨hin, htype, htl, ?_⟩
    have h := of_decide_eq_true hspan
    unfold RecEntry.jobOf at h
    rwa [htype] at h
  · have hn : 16 + 16 * ceilDiv b.length 16 ≤ 80 := by
      unfold ceilDiv
      omega
    have hold := logBytes_le _ hlen
    have hgo := Dev.recStore_fits (n := 16 + 16 * ceilDiv b.length 16) (type := type) (tl := tl) (period := period) (b := b) hlost (by
      rw [logBytes_append, List.foldl_cons, List.foldl_nil]
      dsimp only
      omega)
    obtain ⟨hlog, hbytes, -⟩ := d.putLog_marrow (d.marrow.log ++ [⟨type, tl, period, 16 + 16 * ceilDiv b.length 16, d.ns, d.secs % 2 ^ 32, b⟩])
      (d.marrow.bytes + (16 + 16 * ceilDiv b.length 16)) false
    rw [Dev.recAdd_body hrec, if_pos hmem, hgo]
    exact ⟨hlog, hbytes⟩
  · obtain ⟨hlog, -, hlost⟩ := (d.bumpBy OBS_REC_LOST (16 + 16 * ceilDiv b.length 16)).putLog_marrow d.marrow.log d.marrow.bytes true
    rw [Dev.recAdd_body hrec, if_neg (by rw [hmem]; decide)]
    exact ⟨hlog, hlost⟩
  · intro rel
    refine ⟨fun hno => congrArg (fun d => Host.Outcome.next (s.on d)) (if_neg ?_), fun h76 h77 hst hoff hin => next_on (if_pos ?_)⟩
    · simp only [Bool.and_eq_true, beq_iff_eq, decide_eq_true_eq]
      rintro ⟨⟨⟨-, h1⟩, -⟩, h2⟩
      rcases hno with h | h
      · exact h h1
      · exact absurd h2 (by omega)
    · rw [h76, h77, hst, decide_eq_true hoff, decide_eq_true hin]
      rfl

end Sys2Proof.Machine

/-! SUPPORT. Boot, recovery, alarms, fuses, SVN and debug unlock (R443-R458). -/

namespace Sys2Proof.Machine

/-! ### Flash headers (R443) -/

theorem Flash.inForce_first {f : Flash} {n : Nat × Nat × Nat} (h0 : f.hdr0 = some n) (h1 : ∀ b, f.hdr1 = some b → b.1 ≤ n.1) : f.inForce = (0, n) := by
  unfold Flash.inForce
  rw [h0]
  cases hb : f.hdr1 with
  | none => rfl
  | some b => exact if_neg (Nat.not_lt.2 (h1 b hb))
theorem Flash.inForce_second {f : Flash} {n : Nat × Nat × Nat} (h1 : f.hdr1 = some n) (h0 : ∀ a, f.hdr0 = some a → a.1 < n.1) : f.inForce = (1, n) := by
  unfold Flash.inForce
  rw [h1]
  cases ha : f.hdr0 with
  | none => rfl
  | some a => exact if_pos (h0 a ha)
/-- No copy has a higher GEN than the one in force. -/
theorem Flash.inForce_newest (f : Flash) : (∀ a, f.hdr0 = some a → a.1 ≤ f.inForce.2.1) ∧ ∀ b, f.hdr1 = some b → b.1 ≤ f.inForce.2.1 := by
  cases h0 : f.hdr0 with
  | none =>
    refine ⟨fun a ha => (by cases ha), fun b hb => ?_⟩
    have hforce := Flash.inForce_second hb fun a ha => by rw [h0] at ha; cases ha
    exact Nat.le_of_eq (by rw [hforce])
  | some a =>
    have hold (x : Nat × Nat × Nat) (hx : some a = some x) : x = a := (Option.some.inj hx).symm
    cases h1 : f.hdr1 with
    | none =>
      refine ⟨fun x hx => ?_, fun b hb => by cases hb⟩
      have hforce := Flash.inForce_first h0 fun b hb => by rw [h1] at hb; cases hb
      exact Nat.le_of_eq (by rw [hold x hx, hforce])
    | some b =>
      have hnew (x : Nat × Nat × Nat) (hx : some b = some x) : x = b := (Option.some.inj hx).symm
      by_cases hlt : a.1 < b.1
      · rw [Flash.inForce_second h1 fun x hx => by rw [hold x (h0.symm.trans hx)]; exact hlt]
        exact ⟨fun x hx => by rw [hold x hx]; exact Nat.le_of_lt hlt, fun x hx => Nat.le_of_eq (by rw [hnew x hx])⟩
      · rw [Flash.inForce_first h0 fun x hx => by rw [hnew x (h1.symm.trans hx)]; exact Nat.le_of_not_lt hlt]
        exact ⟨fun x hx => Nat.le_of_eq (by rw [hold x hx]), fun x hx => by rw [hnew x hx]; exact Nat.le_of_not_lt hlt⟩
/-- A header firmware writes is in force: its GEN is the higher one. -/
theorem Flash.writeHeader_inForce (f : Flash) (fwSlot btSlot : Nat) (h : f.inForce.2.1 + 1 < 2 ^ 32) :
    (f.writeHeader fwSlot btSlot).fwSlot = fwSlot ∧ (f.writeHeader fwSlot btSlot).btSlot = btSlot := by
  obtain ⟨hold0, hold1⟩ := f.inForce_newest
  have hmod : (f.inForce.2.1 + 1) % 2 ^ 32 = f.inForce.2.1 + 1 := Nat.mod_eq_of_lt h
  have hnew : (f.writeHeader fwSlot btSlot).inForce.2 = (f.inForce.2.1 + 1, fwSlot, btSlot) := by
    unfold Flash.writeHeader
    dsimp only
    rw [hmod]
    split
    · exact congrArg Prod.snd (Flash.inForce_second (f := { f with hdr1 := some (f.inForce.2.1 + 1, fwSlot, btSlot) }) rfl
        fun a ha => Nat.lt_succ_of_le (hold0 a ha))
    · exact congrArg Prod.snd (Flash.inForce_first (f := { f with hdr0 := some (f.inForce.2.1 + 1, fwSlot, btSlot) }) rfl
        fun b hb => Nat.le_trans (hold1 b hb) (Nat.le_succ _))
  unfold Flash.fwSlot Flash.btSlot
  rw [hnew]
  exact ⟨rfl, rfl⟩
theorem Flash.writeHeader_fwA (f : Flash) (fwSlot btSlot : Nat) : (f.writeHeader fwSlot btSlot).fwA = f.fwA := by
  unfold Flash.writeHeader
  dsimp only
  split <;> rfl
theorem Flash.inForce_slotA (f : Flash) (b : List Byte) : (f.setFw 0 b).inForce = f.inForce ∧ (f.setFw 0 b).fwA = b := ⟨rfl, rfl⟩
theorem pickSlot_none {named : Nat} {ok : Nat → Bool} (h : ∀ i, ok i = false) : pickSlot named ok = none := by
  unfold pickSlot
  rw [h, h]
  rfl

/-! ### Recovery (R451) -/

/-- The seal stands from `d` to `e`. -/
abbrev Dev.SealKept (d e : Dev) : Prop := e.flag SEC_BOOT_STS_SEALED = d.flag SEC_BOOT_STS_SEALED
theorem Dev.sealKept_wf (d : Dev) {f : Fld} (v : Nat) (h : f.off ≠ rSEC_BOOT_STS) : d.SealKept (d.wf f v) := d.flag_wf_other v (Ne.symm h)
theorem Dev.sealKept_regs {d e : Dev} (h : e.regs = d.regs) : d.SealKept e := Dev.flag_congr h _
theorem Dev.sealKept_foldl {α : Type} {f : Dev → α → Dev} {l : List α} (h : ∀ (d : Dev), ∀ a ∈ l, d.SealKept (f d a)) (d : Dev) : d.SealKept (l.foldl f d) :=
  foldl_keeps (p := fun d => d.flag SEC_BOOT_STS_SEALED) h d
theorem Dev.sealKept_fuseShow (d : Dev) (x : Sec) : d.SealKept (d.fuseShow x) := by
  unfold Dev.fuseShow Dev.wf64
  refine (Dev.sealKept_foldl (fun e i _ => e.sealKept_wf _ ?_) _).trans ?_
  · dsimp only [rSEC_ALARM_ACT_s, rSEC_BOOT_STS]
    omega
  · refine (Dev.sealKept_wf _ _ (by decide)).trans ((Dev.sealKept_wf _ _ (by decide)).trans ((Dev.sealKept_wf _ _ (by decide)).trans ?_))
    exact d.flag_wf_field _ (by decide) (by decide)
theorem Dev.regs_mSend (d : Dev) (orig dst : Nat) : (d.mSend orig dst).regs = d.regs := rfl
theorem Dev.regs_withLyr (d : Dev) (l : Lyr) : ({ d with lyr := l } : Dev).regs = d.regs := rfl
theorem Dev.sealKept_liftFence (d : Dev) (st : Nat) : d.SealKept (d.liftFence st) := by
  have hsts : (LYR_STOP_s_STS_FENCED st).off ≠ rSEC_BOOT_STS := by
    dsimp only [rLYR_STOP_s_STS, rSEC_BOOT_STS]
    omega
  unfold Dev.liftFence
  extract_lets d1 x
  have h1 : d.SealKept d1 := (Dev.sealKept_regs (Dev.regs_mSend _ _ _)).trans (d.sealKept_wf _ hsts)
  split
  · exact (Dev.sealKept_regs (Dev.regs_withLyr d1 _)).trans h1
  · exact h1
theorem Dev.sealKept_floorOn (d : Dev) (i : Nat) : d.SealKept (d.floorOn i) := by
  have hpd : (PMU_PDd_TRANSITIONS i).off ≠ rSEC_BOOT_STS := by
    dsimp only [rPMU_PDd_TRANSITIONS, rSEC_BOOT_STS]
    omega
  have hdom : d.SealKept (d.setDom i 0) := by
    refine d.sealKept_wf _ ?_
    dsimp only [rPMU_PDd_STS, rSEC_BOOT_STS]
    omega
  have hon : d.SealKept ((d.enterState i 0).bump PMU_SWITCH_ONS) :=
    (Dev.sealKept_wf _ _ (by decide)).trans ((Dev.sealKept_wf _ _ hpd).trans hdom)
  unfold Dev.floorOn Dev.unfence
  split
  · exact hon
  · next st _ =>
    refine (Dev.sealKept_wf _ _ ?_).trans ((Dev.sealKept_liftFence _ st).trans hon)
    dsimp only [rLYR_STOP_s_STS, rSEC_BOOT_STS]
    omega
/-- The part as BOOT's step 4 finds it. -/
def State.bootBase (s : State) : State :=
  (s.onDev fun d => ((d.fuseShow s.sec).startAvs.floorOn 78).wf (THM_TRIM_i_TRIM 59) (256 - 12)).bootRecords.bootLife
theorem Dev.sealKept_bootTemper (d : Dev) : d.SealKept (d.startAvs.floorOn 78) :=
  (Dev.sealKept_floorOn _ 78).trans ((Dev.sealKept_wf _ _ (by decide)).trans (Dev.sealKept_regs (d.fresh_keeps 17).1))
theorem State.bootRecords_keeps (s : State) : s.bootRecords.sec = s.sec ∧ s.dev.SealKept s.bootRecords.dev := by
  have hhealth (d : Dev) (l : List HealthRec) : d.SealKept { d with fw.health := l } := Dev.sealKept_regs rfl
  have hgone (d : Dev) (t : Option (Nat × Nat × Nat)) (l : List (Nat × Nat × Nat × Nat × Nat)) : d.SealKept { d with thm.recovered := t, hif.boot := l } :=
    Dev.sealKept_regs rfl
  unfold State.bootRecords
  rw [State.onDev_dev, State.onDev_sec]
  refine ⟨rfl, ?_⟩
  extract_lets recs x d1
  have h1 : s.dev.SealKept d1 := hhealth _ _
  split
  · exact (hgone d1 _ _).trans h1
  · exact h1
theorem State.bootLife_keeps (s : State) : s.bootLife.sec = s.sec ∧ s.dev.SealKept s.bootLife.dev := by
  unfold State.bootLife
  split
  · rw [State.onDev_dev, State.onDev_sec]
    refine ⟨rfl, (Dev.sealKept_wf _ _ (by decide)).trans ((Dev.sealKept_wf _ _ (by decide)).trans (Dev.sealKept_foldl (fun e i _ => e.sealKept_wf _ ?_) s.dev))⟩
    dsimp only [rTHM_HIST_b, rSEC_BOOT_STS]
    omega
  · exact ⟨rfl, rfl⟩
theorem State.bootBase_keeps (s : State) : s.bootBase.sec = s.sec ∧ s.dev.SealKept s.bootBase.dev := by
  obtain ⟨hsec1, hseal1⟩ := State.bootRecords_keeps (s.onDev fun d => ((d.fuseShow s.sec).startAvs.floorOn 78).wf (THM_TRIM_i_TRIM 59) (256 - 12))
  obtain ⟨hsec2, hseal2⟩ := State.bootLife_keeps (s.onDev fun d => ((d.fuseShow s.sec).startAvs.floorOn 78).wf (THM_TRIM_i_TRIM 59) (256 - 12)).bootRecords
  rw [State.onDev_sec] at hsec1
  rw [State.onDev_dev] at hseal1
  exact ⟨hsec2.trans hsec1, hseal2.trans (hseal1.trans ((Dev.sealKept_wf _ _ (by decide)).trans ((Dev.sealKept_bootTemper _).trans (s.dev.sealKept_fuseShow s.sec))))⟩
theorem State.boot_recovery {s : State} (hA : s.sec.valid 1 s.sec.flash.fwA = false) (hB : s.sec.valid 1 s.sec.flash.fwB = false) :
    s.boot false = s.bootBase.recoveryMode := by
  have hnone : pickSlot s.bootBase.sec.flash.fwSlot (fun i => s.bootBase.sec.valid 1 (s.bootBase.sec.flash.fw i)) = none := by
    refine pickSlot_none fun i => ?_
    rw [s.bootBase_keeps.1]
    unfold Flash.fw
    split
    · exact hA
    · exact hB
  unfold State.boot
  dsimp only
  rw [Bool.false_and, if_neg Bool.false_ne_true, if_neg Bool.false_ne_true]
  unfold State.bootBase at hnone ⊢
  rw [hnone]
theorem State.recoveryMode_keeps (s : State) : s.recoveryMode.dev.flag SEC_BOOT_STS_RECOVERY = true ∧ s.dev.SealKept s.recoveryMode.dev := by
  unfold State.recoveryMode
  rw [State.onDev_dev]
  have hlane (e : Dev) (f : Fld) (h : f.off = rSEC_BOOT_STS) : e.serviceSync.flag f = e.flag f := by
    unfold Dev.flag
    rw [Dev.rf_of_reg (e.laneOnly_serviceSync.reg f.off (by rw [h]; decide) (by rw [h]; decide))]
  refine ⟨(hlane _ _ rfl).trans (Dev.flag_setFlag_same _ _ _ (by decide) rfl), (hlane _ _ rfl).trans ?_⟩
  exact (Dev.flag_wf_field _ _ (by decide) (by decide)).trans (Dev.sealKept_foldl (fun e i _ => e.sealKept_floorOn i) s.dev)

/-! ### RECOVERY_GO (R451) -/

theorem State.cold_pending (s : State) (trigger : Nat) : (s.cold trigger).pending = s.pending := rfl
/-- The part with another flash, after a free value was taken. -/
def State.reflash (s : State) (f : Flash) : State := { s with dev := (s.dev.fresh 5).1, sec.flash := f }
theorem State.reflash_keeps (s : State) (f : Flash) : (s.reflash f).pending = s.pending ∧ (s.reflash f).sec = { s.sec with flash := f } := ⟨rfl, rfl⟩
theorem State.recoveryGo_good {s : State} (hv : s.sec.valid 1 s.dev.recoveryImage = true) (hgen : s.sec.flash.inForce.2.1 + 1 < 2 ^ 32) :
    s.recoveryGo.pending = s.pending ∧ s.recoveryGo.sec.f1 = s.sec.f1 ∧ s.recoveryGo.sec.flash.fwA = s.dev.recoveryImage ∧
      s.recoveryGo.sec.flash.fwSlot = 0 ∧ s.recoveryGo.sec.flash.btSlot = s.sec.flash.btSlot ∧ s.recoveryGo.sec.keys = [] := by
  have hgo : s.recoveryGo = (s.reflash ((s.sec.flash.setFw 0 s.dev.recoveryImage).writeHeader 0 s.sec.flash.btSlot)).cold (s.dev.fresh 5).2 := if_pos hv
  obtain ⟨hpend, hsec⟩ := s.reflash_keeps ((s.sec.flash.setFw 0 s.dev.recoveryImage).writeHeader 0 s.sec.flash.btSlot)
  obtain ⟨hforce, hA⟩ := s.sec.flash.inForce_slotA s.dev.recoveryImage
  obtain ⟨hfw, hbt⟩ := (s.sec.flash.setFw 0 s.dev.recoveryImage).writeHeader_inForce 0 s.sec.flash.btSlot (by rw [hforce]; exact hgen)
  rw [hgo, State.cold_pending, State.cold_sec, hpend, hsec]
  exact ⟨rfl, rfl, (Flash.writeHeader_fwA _ _ _).trans hA, hfw, hbt, rfl⟩

/-! ### Alarms (R454, R455) -/

theorem State.alarm_none (s : State) : s.alarm [] = s := rfl
theorem State.alarm_one (s : State) (i : Nat) : s.alarm [i] = (s.alarmLog i).alarmDo [i] (s.dev.alarmAct i) := by
  have hact : s.dev.worstAct [i] = s.dev.alarmAct i := by
    unfold Dev.worstAct
    simp
  unfold State.alarm
  rw [hact]
  rfl
theorem alarmSources_none : alarmSources 0 = [] := by decide
/-- The device whose keys and debug session are gone. -/
def Dev.keyless (d : Dev) : Dev := { (d.wf SEC_KEY_STS_LOADED 0).wf SEC_DEBUG_STS_LEVEL 0 with eth.saks := [], pmu.debugHold := [] }
theorem Dev.keyless_keeps (d : Dev) : d.keyless.eth.saks = [] ∧ d.keyless.regs = ((d.wf SEC_KEY_STS_LOADED 0).wf SEC_DEBUG_STS_LEVEL 0).regs := ⟨rfl, rfl⟩
theorem State.erase_dev (s : State) : s.erase.dev = s.dev.keyless := rfl
theorem State.erase_sec (s : State) : s.erase.sec = { s.sec with keys := [], ckns := [], challenge := none } := rfl
theorem Dev.keyless_shown (d : Dev) : d.keyless.rf SEC_KEY_STS_LOADED = 0 ∧ d.keyless.rf SEC_DEBUG_STS_LEVEL = 0 := by
  rw [Dev.rf_congr d.keyless_keeps.2, Dev.rf_congr d.keyless_keeps.2]
  refine ⟨?_, Dev.rf_wf_same _ _ _ (by decide)⟩
  rw [Dev.rf_wf_other _ _ _ _ (by decide), Dev.rf_wf_same _ _ _ (by decide), Nat.zero_mod]
/-- An alarm with an action of 1 or more raises its health events first. -/
def State.alarmHealth (s : State) (srcs : List Nat) : State := s.onDev fun d => srcs.foldl (fun d i => d.health 2 1 i) d
theorem State.alarmHealth_sec (s : State) (srcs : List Nat) : (s.alarmHealth srcs).sec = s.sec := rfl
theorem State.alarmDo_erase (s : State) (srcs : List Nat) : s.alarmDo srcs 2 = (s.alarmHealth srcs).erase := rfl
/-- The part with KEK_DEAD blown. -/
def State.kekDead (s : State) : State := { s with sec.f6 := setBit s.sec.f6 3 }
theorem State.kekDead_f6 (s : State) : s.kekDead.sec.f6 = setBit s.sec.f6 3 := rfl
theorem State.alarmDo_kekDead (s : State) (srcs : List Nat) : s.alarmDo srcs 5 = (s.alarmHealth srcs).erase.kekDead.alarmRestart := rfl
theorem State.alarmRestart_f6 (s : State) : s.alarmRestart.sec.f6 = s.sec.f6 := by
  unfold State.alarmRestart
  split
  · rfl
  · rw [State.cold_sec]

/-! ### Fuses (R447, R450) -/

theorem Sec.fuseProg_sealed {x : Sec} (h : bitAt x.f6 4 = true) (slot value : Nat) : x.fuseProg slot value = x := if_pos h
/-- A fuse command leaves the slots it does not name, and every blown slot of F2 to F4. -/
theorem Sec.fuseProg_keeps (x : Sec) (slot value : Nat) : (x.fuseProg slot value).f0 = x.f0 ∧ (x.fuseProg slot value).f1 = x.f1 ∧ (x.fuseProg slot value).f5 = x.f5 ∧
    (x.f2 ≠ 0 → (x.fuseProg slot value).f2 = x.f2) ∧ (x.f3 ≠ 0 → (x.fuseProg slot value).f3 = x.f3) ∧ (x.f4 ≠ 0 → (x.fuseProg slot value).f4 = x.f4) := by
  unfold Sec.fuseProg
  split
  · exact ⟨rfl, rfl, rfl, fun _ => rfl, fun _ => rfl, fun _ => rfl⟩
  · split
    · split
      · next h => exact ⟨rfl, rfl, rfl, fun hne => absurd h hne, fun _ => rfl, fun _ => rfl⟩
      · exact ⟨rfl, rfl, rfl, fun _ => rfl, fun _ => rfl, fun _ => rfl⟩
    · split
      · next h => exact ⟨rfl, rfl, rfl, fun _ => rfl, fun hne => absurd h hne, fun _ => rfl⟩
      · exact ⟨rfl, rfl, rfl, fun _ => rfl, fun _ => rfl, fun _ => rfl⟩
    · split
      · next h => exact ⟨rfl, rfl, rfl, fun _ => rfl, fun _ => rfl, fun hne => absurd h hne⟩
      · exact ⟨rfl, rfl, rfl, fun _ => rfl, fun _ => rfl, fun _ => rfl⟩
    · exact ⟨rfl, rfl, rfl, fun _ => rfl, fun _ => rfl, fun _ => rfl⟩
    · exact ⟨rfl, rfl, rfl, fun _ => rfl, fun _ => rfl, fun _ => rfl⟩
theorem Sec.fuseProg_f2 {x : Sec} (h : bitAt x.f6 4 = false) (hblank : x.f2 = 0) (value : BitVec 384) : (x.fuseProg 2 value.toNat).f2 = value.toNat := by
  unfold Sec.fuseProg
  rw [if_neg (by rw [h]; decide), if_pos hblank]
  exact Nat.mod_eq_of_lt value.isLt
theorem Sec.fuseProg_f6 {x : Sec} (h : bitAt x.f6 4 = false) (value : Nat) : (x.fuseProg 6 value).f6 = x.f6 ||| value % 32 := by
  unfold Sec.fuseProg
  rw [if_neg (by rw [h]; decide)]
  rfl

/-! ### Debug unlock (R456) -/

theorem State.secResponse_alone (s : State) (key sig : List Byte) (holds : List (Fin 80)) :
    s.secResponse key sig holds 0 = match s.responseOk key sig with
      | some lvl => s.openSession lvl holds
      | none => s.failResponse := by
  unfold State.secResponse
  rw [alarmSources_none]
  dsimp only
  rw [List.isEmpty_nil, Bool.not_true, Bool.false_and, if_neg Bool.false_ne_true, s.alarm_none] <;> rfl
theorem State.responseOk_none {s : State} (h : s.sec.challenge = none) (key sig : List Byte) : s.responseOk key sig = none := by
  unfold State.responseOk
  rw [h]

/-- Settles O52, row by row. -/
theorem securityRules : Obligations.SecurityRules := by
  unfold Obligations.SecurityRules
  intro s
  refine ⟨fun parity => ⟨fun h => congrArg Host.Outcome.next (if_neg ?_), fun h78 hroot htrip => congrArg Host.Outcome.next (if_pos ?_)⟩, fun hA hB => ?_, fun init value bar2 cmds => ?_,
    fun fired => rfl, s.alarm_none, s.alarm_one, fun srcs => ?_, fun srcs => ?_, rfl, rfl, fun h => ?_, rfl, fun slot value => ?_, fun h78 hrec hday => ?_, fun h => ?_, fun level => ?_,
    fun key sig holds => ⟨?_, fun h => State.responseOk_none h key sig, fun hno hfails => ?_⟩, fun h => ?_, fun t0 h => ?_⟩
  · simp only [Bool.and_eq_true, beq_iff_eq]
    rintro ⟨⟨h1, h2⟩, h3⟩
    rcases h with h | h | h
    · exact h h1
    · rw [h] at h2
      cases h2
    · rw [← Option.not_isSome, h] at h3
      cases h3
  · rw [h78, hroot, htrip]
    rfl
  · obtain ⟨hrec, hseal⟩ := s.bootBase.recoveryMode_keeps
    rw [State.boot_recovery hA hB]
    exact ⟨hrec, hseal.trans s.bootBase_keeps.2⟩
  · intro r u hr
    have hgo : exec (.recoveryGo init value bar2) s = .next (if bitAt cmds 0 then u.recoveryGo else u) := by
      refine congrArg Host.Outcome.next (?_ : State.recoveryWr (s.onDev fun d => d.bar2In bar2) init value.toNat = _)
      unfold State.recoveryWr
      rw [State.onDev_dev]
      dsimp only
      rw [show ((s.dev.bar2In bar2).busWr init rSEC_RECOVERY_CTL value.toNat).2 = .yes cmds from hr]
      rfl
    clear_value r
    refine ⟨fun h => hgo.trans (congrArg Host.Outcome.next (if_neg (by rw [h]; decide))), fun h hgen => ⟨u.recoveryGo, hgo.trans (congrArg Host.Outcome.next (if_pos h)), ?_⟩⟩
    have hv : s.sec.valid 1 r.1.recoveryImage = u.sec.valid 1 u.dev.recoveryImage := rfl
    by_cases hval : s.sec.valid 1 r.1.recoveryImage = true
    · obtain ⟨h1, h2, h3, h4, h5, h6⟩ := State.recoveryGo_good (s := u) hval hgen
      dsimp -zeta only
      rw [if_pos hval]
      exact ⟨h1, h2, h3, h4, h5, h6⟩
    · have hbad : u.recoveryGo = u.on (r.1.bump SEC_ALARMS) := if_neg hval
      dsimp -zeta only
      rw [if_neg hval, hbad]
      exact ⟨rfl, rfl, rfl⟩
  · refine ⟨_, rfl, ?_⟩
    dsimp -zeta only
    rw [State.alarmDo_erase, State.erase_dev, State.erase_sec, State.alarmHealth_sec]
    obtain ⟨hloaded, hlevel⟩ := (s.alarmHealth srcs).dev.keyless_shown
    exact ⟨rfl, rfl, (Dev.keyless_keeps _).1, hloaded, hlevel, rfl⟩
  · rw [State.alarmDo_kekDead, State.alarmRestart_f6, State.kekDead_f6]
    exact bitAt_setBit_self _ _
  · refine congrArg Host.Outcome.next (if_pos ?_)
    rw [h]
    rfl
  · obtain ⟨h0, h1, h5, h2, h3, h4⟩ := s.sec.fuseProg_keeps slot.val value.toNat
    refine ⟨_, rfl, rfl, h0, h1, h5, fun h => Sec.fuseProg_sealed h _ _, h2, h3, h4, fun hslot hs hb => ?_, fun hslot hs => ?_⟩
    · subst hslot
      exact Sec.fuseProg_f2 hs hb value
    · subst hslot
      exact Sec.fuseProg_f6 hs _
  · refine ⟨s.svnRaise, rfl, ?_⟩
    unfold State.svnRaise
    rw [if_pos (by rw [h78, hrec, decide_eq_true hday]; rfl)]
    exact ⟨rfl, rfl, rfl, rfl⟩
  · refine congrArg Host.Outcome.next (if_neg ?_)
    simp only [Bool.and_eq_true, Bool.not_eq_true', decide_eq_true_eq]
    rintro ⟨⟨h1, h2⟩, h3⟩
    rcases h with h | h | h
    · rw [h] at h1
      cases h1
    · rw [h] at h2
      cases h2
    · omega
  · refine ⟨fun h => congrArg Host.Outcome.next (if_pos (h.imp_left fun h => congrArg Fin.val h)), fun hl hno => ⟨s.secChallenge level.val, rfl, ?_⟩⟩
    have hne : ¬ (level.val = 0 ∨ s.sec.lockout.isSome = true) := by
      rw [hno]
      rintro (h | h)
      · exact hl (Fin.ext h)
      · cases h
    unfold State.secChallenge
    rw [if_neg hne]
    exact ⟨_, rfl, s.dev.fresh_keeps (2 ^ 256)⟩
  · exact congrArg Host.Outcome.next (s.secResponse_alone key sig holds)
  · refine ⟨s.failResponse, ?_, ?_⟩
    · refine congrArg Host.Outcome.next ((s.secResponse_alone key sig holds).trans ?_)
      rw [hno]
    · unfold State.failResponse
      dsimp only
      rw [if_neg hfails]
      refine ⟨(Dev.rf_wf_same _ _ _ (by decide)).trans (Nat.mod_eq_of_lt ?_), rfl, rfl⟩
      dsimp only
      omega
  · change execDebugLockoutExpiry s = _
    unfold execDebugLockoutExpiry
    rw [h]
  · refine ⟨_, (?_ : execDebugLockoutExpiry s = .next { s with dev := (s.dev.advanceTo t0).wf SEC_DEBUG_STS_FAILS 0, sec.lockout := none }), rfl, Dev.rf_wf_same _ _ _ (by decide), rfl, rfl⟩
    unfold execDebugLockoutExpiry
    rw [h]

end Sys2Proof.Machine

/-! SUPPORT. The Lyre: turns, slots, injection, what travels back, retry, failed stops (R304-R329, R483). -/

namespace Sys2Proof.Machine

/-! ### Stream keys (R307) -/

section
variable (ring : Fin 3) (src dst : Fin 28) (cls : Fin 4)
theorem keyRing_streamKey : keyRing (streamKey ring.val src.val dst.val cls.val) = ring.val := by
  unfold keyRing streamKey
  omega
theorem keySrc_streamKey : keySrc (streamKey ring.val src.val dst.val cls.val) = src.val := by
  unfold keySrc streamKey
  omega
theorem keyDst_streamKey : keyDst (streamKey ring.val src.val dst.val cls.val) = dst.val := by
  unfold keyDst streamKey
  omega
theorem keyCls_streamKey : keyCls (streamKey ring.val src.val dst.val cls.val) = cls.val := by
  unfold keyCls streamKey
  omega
end

/-! ### What the ring's steps leave -/

theorem Dev.lyr_of_offBus {d e : Dev} (h : e.offBus = d.offBus) : e.lyr = d.lyr ∧ e.mem = d.mem :=
  ⟨congrArg (·.lyr) h, congrArg (·.mem) h⟩
theorem Dev.stream_congr {d e : Dev} (h : e.lyr.streams = d.lyr.streams) (k : Nat) : e.stream k = d.stream k := by
  unfold Dev.stream
  rw [h]
theorem Dev.offBus_showOld (d : Dev) : d.showOld.offBus = d.offBus := by
  unfold Dev.showOld
  split
  · rfl
  · exact (Dev.offBus_wf _ _ _).trans (foldl_keeps (p := Dev.offBus) (fun e i _ => e.offBus_wf _ _) d)
theorem Dev.stream_setStream (d : Dev) (k : Nat) (x : Stream) (j : Nat) : (d.setStream k x).stream j = if j = k then x else d.stream j :=
  Tab.getD_setD _ _ _ _ _
theorem Dev.stream_updStream (d : Dev) (k : Nat) (f : Stream → Stream) : (d.updStream k f).stream k = f (d.stream k) :=
  (d.stream_setStream k _ k).trans (if_pos rfl)
/-- The device with another state of the rings. -/
def Dev.withLyr (d : Dev) (l : Lyr) : Dev := { d with lyr := l }
theorem Dev.withLyr_keeps (d : Dev) (l : Lyr) : (d.withLyr l).lyr = l ∧ (d.withLyr l).regs = d.regs ∧ (d.withLyr l).mem = d.mem ∧ (d.withLyr l).fw = d.fw ∧ (d.withLyr l).now = d.now :=
  ⟨rfl, rfl, rfl, rfl, rfl⟩
theorem Dev.updStream_keeps (d : Dev) (k : Nat) (f : Stream → Stream) : (d.updStream k f).mem = d.mem ∧ (d.updStream k f).regs = d.regs ∧
    (d.updStream k f).lyr.returns = d.lyr.returns ∧ (d.updStream k f).lyr.mring = d.lyr.mring := ⟨rfl, rfl, rfl, rfl⟩

/-! ### Turns and slots (R310, R311) -/

/-- Two packets wait for the same stream. -/
abbrev RingWait.same (v w : RingWait) : Bool := v.control == w.control && v.src == w.src && v.dst == w.dst && v.cls == w.cls
/-- One packet more is looked at for the heads. -/
abbrev headNext (a : List RingWait) (w : RingWait) : List RingWait := if a.any fun v => v.same w then a else a ++ [w]
theorem ringHeads_eq (l : List RingWait) : ringHeads l = l.foldl headNext [] := rfl
theorem headNext_mono {a : List RingWait} {w v : RingWait} (h : v ∈ a) : v ∈ headNext a w := by
  unfold headNext
  split
  · exact h
  · exact List.mem_append_left _ h
theorem headNext_same (a : List RingWait) (w : RingWait) : ∃ v ∈ headNext a w, v.same w = true := by
  unfold headNext
  split
  · next h =>
    obtain ⟨v, hv, hs⟩ := List.any_eq_true.1 h
    exact ⟨v, hv, hs⟩
  · exact ⟨w, by simp, by simp [RingWait.same]⟩
theorem foldl_headNext_mono {l : List RingWait} : ∀ {a : List RingWait} {v : RingWait}, v ∈ a → v ∈ l.foldl headNext a := by
  induction l with
  | nil => exact fun h => h
  | cons w l ih => exact fun h => ih (headNext_mono h)
theorem foldl_headNext_same {l : List RingWait} : ∀ {a : List RingWait} {w : RingWait}, w ∈ l → ∃ v ∈ l.foldl headNext a, v.same w = true := by
  induction l with
  | nil => exact fun h => absurd h List.not_mem_nil
  | cons x l ih =>
    intro a w h
    rcases List.mem_cons.1 h with rfl | h
    · obtain ⟨v, hv, hs⟩ := headNext_same a w
      exact ⟨v, foldl_headNext_mono (a := headNext a w) hv, hs⟩
    · exact ih h
theorem foldl_headNext_head {l : List RingWait} : ∀ {x : RingWait} {a : List RingWait}, (l.foldl headNext (x :: a)).head? = some x := by
  induction l with
  | nil => exact rfl
  | cons w l ih =>
    intro x a
    rw [List.foldl_cons]
    unfold headNext
    split
    · exact ih
    · exact ih
theorem ringHeads_head (l : List RingWait) : (ringHeads l).head? = l.head? := by
  cases l with
  | nil => rfl
  | cons x l => exact foldl_headNext_head
/-- A packet waits for the same stream as one of the heads. -/
theorem ringHeads_same {l : List RingWait} {w : RingWait} (h : w ∈ l) : ∃ v ∈ ringHeads l, v.cls = w.cls := by
  obtain ⟨v, hv, hs⟩ := foldl_headNext_same (a := []) h
  simp only [Bool.and_eq_true, beq_iff_eq] at hs
  exact ⟨v, hv, hs.2⟩
/-- The heads by class. -/
theorem byClass_head {l : List RingWait} {w v : RingWait} (h : ((upTo 4).flatMap fun c => l.filter (·.cls == c)).head? = some w) (hv : v ∈ l) (hc : v.cls < 4) :
    w.cls ≤ v.cls := by
  have hgo (m : List Nat) (hm : m.Pairwise (· < ·)) (hin : v.cls ∈ m) (hw : (m.flatMap fun c => l.filter (·.cls == c)).head? = some w) : w.cls ≤ v.cls := by
    induction m with
    | nil => exact absurd hin List.not_mem_nil
    | cons c m ih =>
      rw [List.flatMap_cons] at hw
      obtain ⟨hlt, hm'⟩ := List.pairwise_cons.1 hm
      cases hf : l.filter (·.cls == c) with
      | nil =>
        rw [hf, List.nil_append] at hw
        rcases List.mem_cons.1 hin with hcv | hin
        · have hmem : v ∈ l.filter (·.cls == c) := List.mem_filter.2 ⟨hv, by rw [hcv]; exact beq_self_eq_true c⟩
          rw [hf] at hmem
          exact absurd hmem List.not_mem_nil
        · exact ih hm' hin hw
      | cons x t =>
        rw [hf] at hw
        have hx : x = w := Option.some.inj hw
        have hmem : x ∈ l.filter (·.cls == c) := hf ▸ List.mem_cons_self
        have hxc : x.cls = c := beq_iff_eq.1 (List.mem_filter.1 hmem).2
        rw [← hx, hxc]
        rcases List.mem_cons.1 hin with hcv | hin
        · exact Nat.le_of_eq hcv.symm
        · exact Nat.le_of_lt (hlt _ hin)
  refine hgo (upTo 4) (by decide) ?_ h
  obtain h0 | h0 | h0 | h0 : v.cls = 0 ∨ v.cls = 1 ∨ v.cls = 2 ∨ v.cls = 3 := by omega
  all_goals
    rw [h0]
    decide
theorem Dev.ringPicks_fair {d : Dev} {st : Nat} {w : RingWait} (h : (d.ringPicks st).head? = some w) (ht : Tab.getD (fun _ => 0) d.lyr.turns st = 15) :
    (d.lyr.waiting.filter (·.src == st)).head? = some w := by
  unfold Dev.ringPicks at h
  dsimp only at h
  rw [if_pos ht] at h
  rw [← ringHeads_head]
  cases hl : ringHeads (d.lyr.waiting.filter (·.src == st)) with
  | nil =>
    rw [hl] at h
    cases h
  | cons x t =>
    rw [hl] at h
    exact h
theorem Dev.ringPicks_class {d : Dev} {st : Nat} {w : RingWait} (h : (d.ringPicks st).head? = some w) (ht : Tab.getD (fun _ => 0) d.lyr.turns st ≠ 15)
    {v : RingWait} (hv : v ∈ d.lyr.waiting) (hs : v.src = st) (hc : v.cls < 4) : w.cls ≤ v.cls := by
  unfold Dev.ringPicks at h
  dsimp only at h
  rw [if_neg ht] at h
  obtain ⟨x, hx, hxc⟩ := ringHeads_same (List.mem_filter.2 ⟨hv, by rw [hs]; exact beq_self_eq_true st⟩ : v ∈ d.lyr.waiting.filter (·.src == st))
  rw [← hxc]
  exact byClass_head h hx (hxc ▸ hc)
theorem Dev.slotsFor_mine {d : Dev} {k j : Nat} {p : RingPkt} (h : j ∈ d.slotsFor k p) :
    j < 56 ∧ (d.slotsUsed (keyRing k) p.dir).contains j = false ∧ d.slotMine (keyRing k) p.dir (keySrc k) (keyCls k) j = true := by
  obtain ⟨hj, hb⟩ := List.mem_filter.1 (List.mem_of_mem_take h)
  simp only [Bool.and_eq_true, Bool.not_eq_true'] at hb
  refine ⟨?_, hb.1, hb.2⟩
  simpa [upTo] using hj

/-! ### Injection (R307, R310) -/

theorem Dev.ringPick_waits {d : Dev} {l : List RingWait} (h : ∀ w ∈ l, d.ringTry w = .waits) : d.ringPick l = .waits := by
  induction l with
  | nil => rfl
  | cons w l ih =>
    unfold Dev.ringPick
    rw [h w List.mem_cons_self]
    exact ih fun v hv => h v (List.mem_cons_of_mem _ hv)
theorem Dev.ringPick_gone {d e : Dev} {w : RingWait} {ws : List RingWait} (h : d.ringTry w = .gone e) : d.ringPick (w :: ws) = .gone e := by
  unfold Dev.ringPick
  rw [h]
theorem Dev.ringYields_none {d : Dev} {w : RingWait} (h : d.lyr.starving = []) : d.ringYields w = none := by
  unfold Dev.ringYields
  dsimp only
  rw [h, List.contains_nil, Bool.false_and, Bool.false_and]
  rfl
theorem Dev.ringPut_keeps (d : Dev) (k : Nat) (p : RingPkt) : (d.ringPut k p).regs = d.regs ∧ (d.ringPut k p).mem = d.mem ∧
    (d.ringPut k p).lyr.streams = (d.updStream k fun x => { x with nextSeq := (x.nextSeq + 1) % 65536, window := x.window ++ [p], flight := x.flight ++ [p.seq] }).lyr.streams :=
  ⟨rfl, rfl, rfl⟩

/-! ### What travels back (R306, R309) -/

theorem Dev.mHome_keeps (d : Dev) : d.mHome.lyr = { d.lyr with mring := [] } ∧ d.mHome.mem = d.mem := by
  have hoff : d.mHome.offBus = (d.withLyr { d.lyr with mring := [] }).offBus := by
    refine foldl_keeps (p := Dev.offBus) (fun e m _ => ?_) (d.withLyr { d.lyr with mring := [] })
    split
    · exact e.offBus_bump _
    · rfl
  obtain ⟨hl, hm⟩ := Dev.lyr_of_offBus hoff
  obtain ⟨hl', -, hm', -⟩ := d.withLyr_keeps { d.lyr with mring := [] }
  exact ⟨hl.trans hl', hm.trans hm'⟩
theorem Dev.acked_keeps (l : List RingRet) (d : Dev) :
    let e := l.foldl (fun d r => d.updStream r.key fun x => { x with window := x.window.filter (·.seq != r.value) }) d
    e.lyr.returns = d.lyr.returns ∧ e.lyr.mring = d.lyr.mring ∧ e.mem = d.mem :=
  ⟨foldl_keeps (p := fun d => d.lyr.returns) (fun e r _ => (e.updStream_keeps _ _).2.2.1) d, foldl_keeps (p := fun d => d.lyr.mring) (fun e r _ => (e.updStream_keeps _ _).2.2.2) d,
    foldl_keeps (p := fun d => d.mem) (fun e _ _ => (e.updStream_keeps _ _).1) d⟩
/-- The device with nothing on its way in the sideband. -/
def Dev.noReturns (d : Dev) : Dev := d.withLyr { d.lyr with returns := [] }
theorem Dev.returnsHome_keeps (d : Dev) : d.returnsHome.lyr.returns = [] ∧ d.returnsHome.lyr.mring = [] ∧ d.returnsHome.mem = d.mem := by
  obtain ⟨hr, hm, hmem⟩ := Dev.acked_keeps (d.lyr.returns.filter (·.ack)) d.noReturns.mHome
  obtain ⟨hlyr, hmem'⟩ := d.noReturns.mHome_keeps
  obtain ⟨hl, -, hmem0, -⟩ := d.withLyr_keeps { d.lyr with returns := [] }
  refine ⟨hr.trans ?_, hm.trans ?_, hmem.trans (hmem'.trans hmem0)⟩
  · rw [hlyr]
    exact congrArg (·.returns) hl
  · rw [hlyr]
theorem Dev.noReturns_self {d : Dev} (h : d.lyr.returns = []) : d.noReturns = d := by
  have hl : { d.lyr with returns := [] } = d.lyr := by
    rw [← h]
  unfold Dev.noReturns
  rw [hl]
  rfl
theorem Dev.returnsHome_message {d : Dev} {o st : Nat} (hst : st < 28) (hm : d.lyr.mring = [(o, st)]) (hr : d.lyr.returns = []) :
    d.returnsHome = if (d.withLyr { d.lyr with mring := [] }).flag (LYR_STOP_s_STS_BYPASSED st) then (d.withLyr { d.lyr with mring := [] }).bump (LYR_STOP_s_UNREACHABLE st)
      else d.withLyr { d.lyr with mring := [] } := by
  have hhome : d.returnsHome = d.noReturns.mHome := by
    unfold Dev.returnsHome
    rw [hr, List.filter_nil, List.foldl_nil]
    rfl
  have hone : (d.lyr.mring.filter fun m => decide (m.2 < 28)) = [(o, st)] := by
    rw [hm]
    exact List.filter_eq_self.2 fun m h => by
      rw [List.mem_singleton.1 h]
      exact decide_eq_true hst
  rw [hhome, Dev.noReturns_self hr]
  unfold Dev.mHome
  rw [hone, List.foldl_cons, List.foldl_nil]
  rfl

/-! ### Arrival (R316, R322) -/

theorem Dev.ringTaken_keeps (d : Dev) (k : Nat) (p : RingPkt) :
    (d.ringTaken k p).lyr.returns = d.lyr.returns ++ [⟨false, k, p.flits (keyRing k)⟩, ⟨true, k, p.seq⟩] := by
  unfold Dev.ringTaken Dev.ringReturn
  dsimp only
  rw [(d.updStream_keeps k _).2.2.1, List.append_assoc]
  rfl
theorem Dev.ringReturn_keeps (d : Dev) (ack : Bool) (k v : Nat) : (d.ringReturn ack k v).lyr.streams = d.lyr.streams ∧ (d.ringReturn ack k v).mem = d.mem ∧
    (d.ringReturn ack k v).lyr.returns = d.lyr.returns ++ [⟨ack, k, v⟩] := ⟨rfl, rfl, rfl⟩
/-- A destination that asks for a stream again (R316). -/
def Dev.askAgain (d : Dev) (k : Nat) (p : RingPkt) : Dev :=
  ((d.ringReturn false k (p.flits (keyRing k))).updStream k fun x => { x with refused := true, retry := some x.expSeq }).bump (LYR_STOP_s_E2E_RETRY (keyDst k))
theorem Dev.askAgain_keeps (d : Dev) (k : Nat) (p : RingPkt) : ((d.askAgain k p).stream k).retry = some (d.stream k).expSeq ∧ (d.askAgain k p).mem = d.mem ∧
    (d.askAgain k p).lyr.returns = d.lyr.returns ++ [⟨false, k, p.flits (keyRing k)⟩] := by
  obtain ⟨hs, hm, hr⟩ := d.ringReturn_keeps false k (p.flits (keyRing k))
  obtain ⟨um, -, ur, -⟩ := (d.ringReturn false k (p.flits (keyRing k))).updStream_keeps k fun x => { x with refused := true, retry := some x.expSeq }
  obtain ⟨bl, bm⟩ := Dev.lyr_of_offBus (Dev.offBus_bump ((d.ringReturn false k (p.flits (keyRing k))).updStream k fun x => { x with refused := true, retry := some x.expSeq })
    (LYR_STOP_s_E2E_RETRY (keyDst k)))
  refine ⟨?_, bm.trans (um.trans hm), (congrArg (·.returns) bl).trans (ur.trans hr)⟩
  rw [Dev.askAgain, Dev.stream_congr (congrArg (·.streams) bl), Dev.stream_updStream, Dev.stream_congr hs]
section
variable {d : Dev} {k : Nat} {p : RingPkt} {flips : List (Nat × Byte)} {latency : Nat}
theorem Dev.ringArrive_refused {st : Nat} (h : d.refuser (keySrc k) (keyDst k) (keyCls k) p.epoch p.dir = some st) :
    d.ringArrive k p flips latency = ((d.ringTaken k p).bump (LYR_STOP_s_UNREACHABLE st)).ringError st k p 4 := by
  unfold Dev.ringArrive
  dsimp only
  rw [h]
variable (h : d.refuser (keySrc k) (keyDst k) (keyCls k) p.epoch p.dir = none)
include h
theorem Dev.ringArrive_dropped (hbad : (!(flips.isEmpty || ringCrcOk (flipBytes (p.image k) flips)) || p.seq != (d.stream k).expSeq) = true) :
    d.ringArrive k p flips latency = if (d.stream k).refused && !(p.seq == (d.stream k).expSeq) then d.ringReturn false k (p.flits (keyRing k)) else d.askAgain k p := by
  unfold Dev.ringArrive
  dsimp only
  rw [h]
  exact if_pos hbad
theorem Dev.ringArrive_good (hseq : p.seq = (d.stream k).expSeq) :
    d.ringArrive k p [] latency =
      let d1 := (d.ringTaken k p).ringCount k p.carried p.replays latency
      if isRequest p.type && d1.flag (LYR_STOP_s_STS_FENCED (keyDst k)) then (d1.bump (LYR_STOP_s_DOMAIN_OFF (keyDst k))).ringError (keyDst k) k p 1 else d1.ringAct k p := by
  have hok : ¬ (!(([] : List (Nat × Byte)).isEmpty || ringCrcOk (flipBytes (p.image k) [])) || p.seq != (d.stream k).expSeq) = true := by
    rw [hseq, bne_self_eq_false, List.isEmpty_nil, Bool.true_or, Bool.not_true, Bool.or_false]
    exact Bool.false_ne_true
  unfold Dev.ringArrive
  dsimp only
  rw [h]
  exact if_neg hok
end

/-! ### Retry (R316) -/

/-- A packet goes out again. -/
abbrev Dev.sendAgain (d : Dev) (k act : Nat) (p : RingPkt) : Dev :=
  d.updStream k fun x => { x with window := x.window ++ [{ p with tries := p.tries + 1, epoch := act, slots := d.slotsFor k p }], flight := x.flight ++ [p.seq] }
theorem Dev.sentAgain_keeps (k act : Nat) (l : List RingPkt) : ∀ d : Dev,
    ((l.foldl (fun d p => d.sendAgain k act p) d).stream k).retry = (d.stream k).retry ∧
    ((l.foldl (fun d p => d.sendAgain k act p) d).stream k).flight = (d.stream k).flight ++ l.map (·.seq) ∧
    ((l.foldl (fun d p => d.sendAgain k act p) d).stream k).window.map (fun p => (p.seq, p.tries)) =
      (d.stream k).window.map (fun p => (p.seq, p.tries)) ++ l.map (fun p => (p.seq, p.tries + 1)) ∧
    (l.foldl (fun d p => d.sendAgain k act p) d).mem = d.mem := by
  induction l with
  | nil => exact fun d => ⟨rfl, (List.append_nil _).symm, (List.append_nil _).symm, rfl⟩
  | cons p l ih =>
    intro d
    obtain ⟨hr, hf, hw, hm⟩ := ih (d.sendAgain k act p)
    rw [Dev.stream_updStream] at hr hf hw
    refine ⟨hr, hf.trans ?_, hw.trans ?_, hm.trans (d.updStream_keeps k _).1⟩
    · rw [List.append_assoc]
      rfl
    · rw [List.map_append, List.append_assoc]
      rfl
theorem Dev.ringRetry_ends {d : Dev} {k q : Nat} (h : (d.stream k).retry = some q) (hmany : (((d.stream k).window.dropWhile (·.seq != q)).any fun p => decide (4 ≤ p.tries)) = true) :
    d.ringRetry k = (((((d.endStream k).bump (LYR_STOP_s_E2E_FAIL (keySrc k))).health 3 2 k).recSource 4).noteFault (keyDst k) (32 + keyDst k) 2).showOld := by
  unfold Dev.ringRetry
  dsimp only
  rw [h]
  exact if_pos hmany
theorem Dev.ringRetry_sends {d : Dev} {k q : Nat} (h : (d.stream k).retry = some q) (hfew : (((d.stream k).window.dropWhile (·.seq != q)).any fun p => decide (4 ≤ p.tries)) = false) :
    d.ringRetry k = (((d.stream k).window.dropWhile (·.seq != q)).foldl (fun e p => e.sendAgain k (d.rf LYR_EPOCH_ACTIVE) p)
      (d.setStream k { d.stream k with window := (d.stream k).window.takeWhile (·.seq != q), flight := [], retry := none })).showOld := by
  unfold Dev.ringRetry
  dsimp only
  rw [h]
  exact if_neg (by rw [hfew]; decide)
theorem Dev.ringRetry_sent {d : Dev} {k q : Nat} (h : (d.stream k).retry = some q) (hfew : (((d.stream k).window.dropWhile (·.seq != q)).any fun p => decide (4 ≤ p.tries)) = false) :
    ((d.ringRetry k).stream k).retry = none ∧ ((d.ringRetry k).stream k).flight = ((d.stream k).window.dropWhile (·.seq != q)).map (·.seq) ∧
    ((d.ringRetry k).stream k).window.map (fun p => (p.seq, p.tries)) = ((d.stream k).window.takeWhile (·.seq != q)).map (fun p => (p.seq, p.tries)) ++
      ((d.stream k).window.dropWhile (·.seq != q)).map (fun p => (p.seq, p.tries + 1)) ∧ (d.ringRetry k).mem = d.mem := by
  obtain ⟨hr, hf, hw, hm⟩ := Dev.sentAgain_keeps k (d.rf LYR_EPOCH_ACTIVE) ((d.stream k).window.dropWhile (·.seq != q))
    (d.setStream k { d.stream k with window := (d.stream k).window.takeWhile (·.seq != q), flight := [], retry := none })
  obtain ⟨hlyr, hmem⟩ := Dev.lyr_of_offBus (Dev.offBus_showOld (((d.stream k).window.dropWhile (·.seq != q)).foldl (fun e p => e.sendAgain k (d.rf LYR_EPOCH_ACTIVE) p)
    (d.setStream k { d.stream k with window := (d.stream k).window.takeWhile (·.seq != q), flight := [], retry := none })))
  rw [Dev.stream_setStream, if_pos rfl] at hr hf hw
  rw [Dev.ringRetry_sends h hfew, Dev.stream_congr (congrArg (·.streams) hlyr), hmem, hr, hf, hw, hm]
  exact ⟨rfl, rfl, rfl, rfl⟩

end Sys2Proof.Machine

/-! O53: the rows of the Lyre (R304-R329, R483). -/

namespace Sys2Proof.Machine

/-! ### A row of the ring -/

theorem Dev.ringRow_eq {d e : Dev} {f : Dev → Dev} (h : f d.returnsHome = e) : d.ringRow f = Dev.ringPump (e.lyr.waiting.length + e.lyr.starving.length) [] e := by
  subst h
  rfl
theorem Dev.ringReady_new (d : Dev) (control : Bool) (src dst cls type txid addr : Nat) (tag : Option Nat) (len : Nat) (data : List Byte) :
    d.ringReady control src dst cls (newPkt type txid addr tag len data) = { d with lyr.waiting := d.lyr.waiting ++ [⟨control, src, dst, cls,
      { newPkt type txid addr tag len data with ready := 6 * d.cyc % 2 ^ 24 }⟩] } := rfl

/-! ### Whether a packet goes (R310-R323) -/

section
variable {d : Dev} {w : RingWait} (hsrc : d.flag (LYR_STOP_s_CTL_BYPASS w.src) = false) (hfen : isRequest w.pkt.type = true → d.flag (LYR_STOP_s_STS_FENCED w.src) = false)
include hsrc hfen
theorem ringTry_open : ¬ (d.flag (LYR_STOP_s_CTL_BYPASS w.src) || (isRequest w.pkt.type && d.flag (LYR_STOP_s_STS_FENCED w.src))) = true := by
  cases hreq : isRequest w.pkt.type with
  | false =>
    rw [hsrc, Bool.false_and]
    decide
  | true =>
    rw [hsrc, hfen hreq]
    decide
theorem Dev.ringTry_refused (h : d.flag (LYR_STOP_s_CTL_BYPASS w.dst) = true ∨ d.route w.src (d.rf LYR_EPOCH_ACTIVE) w.dst w.cls / 4 = 2) :
    d.ringTry w = .gone (({ d with lyr.waiting := d.lyr.waiting.erase w }.bump (LYR_STOP_s_UNREACHABLE w.src)).ringError w.src (d.ringAs w).1 (d.ringAs w).2 4) := by
  have href : (d.flag (LYR_STOP_s_CTL_BYPASS w.dst) || d.route w.src (d.rf LYR_EPOCH_ACTIVE) w.dst w.cls / 4 == 2) = true := by
    simpa using h
  unfold Dev.ringTry
  dsimp only
  rw [if_neg (ringTry_open hsrc hfen), if_pos href]
variable (hdst : d.flag (LYR_STOP_s_CTL_BYPASS w.dst) = false) (hroute : d.route w.src (d.rf LYR_EPOCH_ACTIVE) w.dst w.cls / 4 ≠ 2)
include hdst hroute
theorem Dev.ringTry_waits (h : d.ringMay (d.ringAs w).1 (d.ringAs w).2 = false ∨ d.otherRing (keyRing (d.ringAs w).1) w.src w.dst w.cls = true) : d.ringTry w = .waits := by
  have hmay : (!d.ringMay (d.ringAs w).1 (d.ringAs w).2 || d.otherRing (keyRing (d.ringAs w).1) w.src w.dst w.cls) = true := by
    simpa using h
  unfold Dev.ringTry
  dsimp only
  rw [if_neg (ringTry_open hsrc hfen), if_neg (by rw [hdst, beq_false_of_ne hroute]; decide), if_pos hmay]
theorem Dev.ringTry_goes (hmay : d.ringMay (d.ringAs w).1 (d.ringAs w).2 = true) (hother : d.otherRing (keyRing (d.ringAs w).1) w.src w.dst w.cls = false)
    (hstarve : d.lyr.starving = []) : d.ringTry w = .gone ({ d with lyr.waiting := d.lyr.waiting.erase w }.ringPut (d.ringAs w).1 (d.ringAs w).2) := by
  unfold Dev.ringTry
  dsimp only
  rw [if_neg (ringTry_open hsrc hfen), if_neg (by rw [hdst, beq_false_of_ne hroute]; decide), if_neg (by rw [hmay, hother]; decide), Dev.ringYields_none hstarve]
end
theorem Dev.ringPump_waits {d : Dev} {fuel : Nat} {first : List Nat} (h : d.ringPick ((first ++ (d.lyr.waiting.map (·.src)).eraseDups).flatMap d.ringPicks) = .waits) :
    Dev.ringPump fuel first d = d := by
  cases fuel with
  | zero => rfl
  | succ n =>
    unfold Dev.ringPump
    rw [h]
theorem Dev.ringPump_gone {d e : Dev} {fuel : Nat} {first : List Nat} (h : d.ringPick ((first ++ (d.lyr.waiting.map (·.src)).eraseDups).flatMap d.ringPicks) = .gone e) :
    Dev.ringPump (fuel + 1) first d = Dev.ringPump fuel [] e := by
  rw [Dev.ringPump, h]
/-- A reserved slot is filled by its owner alone, in class 0 (R311). -/
theorem Dev.slotMine_reserved {d : Dev} {ring dir src cls j : Nat} (h : d.slotMine ring dir src cls j = true) (hr : ring ≠ 2) (hj : j % 8 = 0) :
    cls = 0 ∧ d.flag (LYR_RSV_e_q_j_VALID (d.rf LYR_EPOCH_ACTIVE) (7 * (2 * ring + dir) + j / 8)) = true ∧
      d.rf (LYR_RSV_e_q_j_OWNER (d.rf LYR_EPOCH_ACTIVE) (7 * (2 * ring + dir) + j / 8)) = src := by
  unfold Dev.slotMine strandOf at h
  simpa [hr, hj] using h

/-! ### Refusals (R318, R322) -/

section
variable {d : Dev} {st k status : Nat} {p : RingPkt}
theorem Dev.ringError_own_posted (h : st = keySrc k) (hp : isPosted p.type = true) :
    d.ringError st k p status = { d with lyr.bounces := d.lyr.bounces ++ [(st, keyDst k, p.addr, status)] } := by
  rw [Dev.ringError, if_pos h, if_pos hp]
theorem Dev.ringError_own_other (h : st = keySrc k) (hp : isPosted p.type = false) : d.ringError st k p status = d := by
  rw [Dev.ringError, if_pos h, if_neg (by rw [hp]; decide)]
theorem Dev.ringError_posted (h : ¬ st = keySrc k) (hp : isPosted p.type = true) :
    d.ringError st k p status = d.ringReady (keyRing k == 2) st (keySrc k) (keyCls k) { p with type := 6, status := status, data := [], len := 0, tag := none, orig := keyDst k } := by
  rw [Dev.ringError, if_neg h, if_pos hp]
theorem Dev.ringError_read (h : ¬ st = keySrc k) (hp : p.type = 1) :
    d.ringError st k p status = d.ringReady (keyRing k == 2) st (keySrc k) (keyCls k) { p with type := 2, status := status, data := [], len := 0, tag := none } := by
  rw [Dev.ringError, if_neg h, if_neg (by rw [hp]; decide), if_pos (by rw [hp]; decide), Dev.ringRespond, if_pos hp, List.length_nil]
theorem Dev.ringError_write (h : ¬ st = keySrc k) (hp : p.type = 4) :
    d.ringError st k p status = d.ringReady (keyRing k == 2) st (keySrc k) (keyCls k) { p with type := 5, status := status, data := [], len := 0, tag := none } := by
  rw [Dev.ringError, if_neg h, if_neg (by rw [hp]; decide), if_pos (by rw [hp]; decide), Dev.ringRespond, if_neg (by rw [hp]; decide), List.length_nil]
end
theorem Dev.ringError_regs (d : Dev) (st k : Nat) (p : RingPkt) (status : Nat) : (d.ringError st k p status).regs = d.regs := by
  unfold Dev.ringError Dev.ringRespond Dev.ringReady
  repeat' split
  all_goals rfl

/-! ### Acceptance (R316) -/

theorem Dev.ringAccept_none {d : Dev} {k : Nat} (h : (d.stream k).flight = []) (flips : List (Nat × Byte)) (corr : List Nat) (latency : Nat) :
    d.ringAccept k flips corr latency = d := by
  unfold Dev.ringAccept
  dsimp only
  rw [h]
theorem Dev.ringAccept_some {d : Dev} {k q : Nat} {rest : List Nat} {p : RingPkt} (h : (d.stream k).flight = q :: rest) (hp : (d.stream k).window.find? (·.seq == q) = some p)
    (flips : List (Nat × Byte)) (corr : List Nat) (latency : Nat) :
    d.ringAccept k flips corr latency = (((corr.filter (arrivals (keySrc k) (keyDst k) p.dir).contains).foldl (fun d st => d.bump (LYR_STOP_s_HOP_CORR st))
      (d.setStream k { d.stream k with flight := rest })).ringArrive k p flips latency).showOld := by
  unfold Dev.ringAccept
  dsimp only
  rw [h]
  dsimp only
  rw [hp]
theorem Dev.bounceAt_keeps (d : Dev) (i dst addr status : Nat) : (d.bounceAt i dst addr status).mem = d.mem ∧ (d.bounceAt i dst addr status).lyr = d.lyr := by
  refine (Dev.lyr_of_offBus ?_).symm
  rw [Dev.bounceAt, Dev.offBus_wf, Dev.offBus_wf, Dev.offBus_wf, Dev.offBus_wf, Dev.offBus_bump]
theorem Dev.bounceAt_shows (d : Dev) (i dst addr status : Nat) :
    (d.bounceAt i dst addr status).rf (LYR_STOP_s_BOUNCE_ADDR i) = addr % 2 ^ 32 ∧
    (d.bounceAt i dst addr status).rf (LYR_STOP_s_BOUNCED i) = (d.rf (LYR_STOP_s_BOUNCED i) + 1) % 2 ^ 32 ∧
    (d.bounceAt i dst addr status).rf (LYR_STOP_s_BOUNCE_INFO_DST i) = dst % 2 ^ (LYR_STOP_s_BOUNCE_INFO_DST i).w := by
  unfold Dev.bounceAt
  refine ⟨?_, ?_, ?_⟩
  · have hne : rLYR_STOP_s_BOUNCE_ADDR i ≠ rLYR_STOP_s_BOUNCE_INFO i := by
      dsimp only [rLYR_STOP_s_BOUNCE_ADDR, rLYR_STOP_s_BOUNCE_INFO]
      omega
    rw [Dev.rf_wf_other _ _ _ _ hne, Dev.rf_wf_other _ _ _ _ hne, Dev.rf_wf_other _ _ _ _ hne, Dev.rf_wf_same _ _ _ (by decide : 0 + 32 ≤ 32)]
  · have hne : rLYR_STOP_s_BOUNCED i ≠ rLYR_STOP_s_BOUNCE_INFO i := by
      dsimp only [rLYR_STOP_s_BOUNCED, rLYR_STOP_s_BOUNCE_INFO]
      omega
    have hne' : rLYR_STOP_s_BOUNCED i ≠ rLYR_STOP_s_BOUNCE_ADDR i := by
      dsimp only [rLYR_STOP_s_BOUNCED, rLYR_STOP_s_BOUNCE_ADDR]
      omega
    rw [Dev.rf_wf_other _ _ _ _ hne, Dev.rf_wf_other _ _ _ _ hne, Dev.rf_wf_other _ _ _ _ hne, Dev.rf_wf_other _ _ _ _ hne', Dev.rf_bump_same _ _ (by decide : 0 + 32 ≤ 32)]
  · rw [Dev.rf_wf_field _ (LYR_STOP_s_BOUNCE_INFO_STATUS i) _ _ (by decide : 13 + 3 ≤ 32) (Or.inr (by decide : 8 + 5 ≤ 13)), Dev.rf_wf_same _ _ _ (by decide : 8 + 5 ≤ 32)]

/-! ### Failed stops (R483) -/

/-- No trigger of the recorder and no end of a stream writes the register at `o`. -/
def traceFree (o : Nat) : Prop := ringFree o ∧ o ≠ rOBS_REC_STS ∧ o ≠ rOBS_REC_LOST ∧ o ≠ rOBS_REC_TRIGGERS ∧ o ≠ rWDS_STS
theorem Dev.regs_store (d : Dev) (l : List HealthRec) : ({ d with fw.health := l } : Dev).regs = d.regs := rfl
theorem Dev.regs_record (d : Dev) (block code detail : Nat) : (d.record block code detail).regs = d.regs := d.regs_store _
section
variable {g : Fld} (hg : traceFree g.off)
include hg
theorem Dev.rf_drainLog (d : Dev) : d.drainLog.rf g = d.rf g := by
  obtain ⟨-, hsts, hlost, -, hwds⟩ := hg
  have hlog (d : Dev) (l : List LogRec) : ({ d with wds.log := l } : Dev).rf g = d.rf g := rfl
  unfold Dev.drainLog
  split
  · rfl
  · rw [Dev.rf_recAdd _ hsts hlost, Dev.setFlag, Dev.rf_wf_other _ _ _ _ hwds, hlog]
theorem Dev.rf_recFreeze (d : Dev) : d.recFreeze.rf g = d.rf g := by
  obtain ⟨hfree, hsts, -⟩ := id hg
  have hm (d : Dev) (l : List (Nat × Nat)) (n : Nat) : ({ d with marrow.waiting := l, marrow.frozenP := n } : Dev).rf g = d.rf g := rfl
  unfold Dev.recFreeze
  dsimp only
  rw [hm, Dev.rf_of_reg (Dev.reg_foldl _ (fun e p => e.reg_complete_free hfree _ _ _ _) _ _), Dev.rf_event _ hfree.1, Dev.rf_wf_other _ _ _ _ hsts, Dev.rf_drainLog hg]
theorem Dev.rf_recTrigger (d : Dev) (bit : Nat) : (d.recTrigger bit).rf g = d.rf g := by
  obtain ⟨hfree, hsts, -, htrig, -⟩ := id hg
  have hm (d : Dev) (k t : Nat) : ({ d with marrow.trigK := k, marrow.trigT := t } : Dev).rf g = d.rf g := rfl
  have hb : (d.bump OBS_REC_TRIGGERS).rf g = d.rf g := Dev.rf_bump_other _ _ _ htrig
  unfold Dev.recTrigger
  extract_lets d1 e1 m2 d2 d3
  have hd2 : d2.rf g = d1.rf g := (hm _ _ _).trans (Dev.rf_wf_other d1 OBS_REC_STS_STATE g 2 hsts)
  have hd3 : d3.rf g = d1.rf g := (Dev.rf_event d2 hfree.1 _ _ _ _ _).trans hd2
  clear_value d3 d2
  split
  · split
    · exact (Dev.rf_recFreeze hg d3).trans (hd3.trans hb)
    · exact hd3.trans hb
  · exact hb
theorem Dev.rf_recSource (d : Dev) (bit : Nat) : (d.recSource bit).rf g = d.rf g := by
  unfold Dev.recSource
  split
  · exact Dev.rf_recTrigger hg d bit
  · rfl
theorem Dev.rf_health (d : Dev) (block kind detail : Nat) : (d.health block kind detail).rf g = d.rf g := by
  have hrec (a b c : Nat) : (d.record a b c).rf g = d.rf g := Dev.rf_congr (Dev.regs_record d a b c) g
  rw [Dev.health, Dev.healthCode, Dev.rf_recSource hg, Dev.rf_event _ hg.1.1, hrec]
end
/-- A register that only commands of stops change: a stop's CTL. -/
theorem ctl_traceFree {st : Nat} (h : st < 28) : traceFree (rLYR_STOP_s_CTL st) := by
  unfold traceFree ringFree
  dsimp only [rLYR_STOP_s_CTL, rOBS_REC_STS, rOBS_REC_LOST, rOBS_REC_TRIGGERS, rWDS_STS]
  refine ⟨⟨?_, ?_, ?_, ?_, ?_, ?_⟩, ?_, ?_, ?_, ?_⟩ <;> omega
theorem Dev.rf_bumpLyr (d : Dev) (st i : Nat) : (d.bump (LYR_STOP_s_UNREACHABLE i)).rf (LYR_STOP_s_CTL_BYPASS st) = d.rf (LYR_STOP_s_CTL_BYPASS st) :=
  Dev.rf_bump_other _ _ _ (by dsimp only [rLYR_STOP_s_CTL, rLYR_STOP_s_UNREACHABLE]; omega)
theorem Dev.rf_showOld (d : Dev) (st : Nat) : d.showOld.rf (LYR_STOP_s_CTL_BYPASS st) = d.rf (LYR_STOP_s_CTL_BYPASS st) := by
  unfold Dev.showOld
  split
  · rfl
  · refine (Dev.rf_wf_other _ _ _ _ (by dsimp only [rLYR_STOP_s_CTL, rLYR_OLD_INFLIGHT]; omega)).trans ?_
    exact foldl_keeps (p := fun e => e.rf (LYR_STOP_s_CTL_BYPASS st)) (fun e i _ => Dev.rf_wf_other _ _ _ _ (by dsimp only [rLYR_STOP_s_CTL, rLYR_STOP_s_OLD_INFLIGHT]; omega)) d
theorem Dev.rf_endStream (d : Dev) (k st : Nat) : (d.endStream k).rf (LYR_STOP_s_CTL_BYPASS st) = d.rf (LYR_STOP_s_CTL_BYPASS st) :=
  foldl_keeps (p := fun e => e.rf (LYR_STOP_s_CTL_BYPASS st)) (fun e p _ => (Dev.rf_congr (e.bump _ |>.ringError_regs _ _ _ _) _).trans (e.rf_bumpLyr st _)) d
theorem Dev.rf_bypassEnd (d : Dev) (i st : Nat) : (d.bypassEnd i).rf (LYR_STOP_s_CTL_BYPASS st) = d.rf (LYR_STOP_s_CTL_BYPASS st) := by
  unfold Dev.bypassEnd
  dsimp only
  refine (Dev.rf_showOld _ st).trans ?_
  refine (foldl_keeps (p := fun e => e.rf (LYR_STOP_s_CTL_BYPASS st)) (fun e w _ => e.rf_bumpLyr st _) _).trans ?_
  refine foldl_keeps (p := fun e => e.rf (LYR_STOP_s_CTL_BYPASS st)) (fun e k _ => ?_) d
  split
  · exact e.rf_endStream k st
  · split <;> rfl
theorem Dev.bypassNow_bypasses {d : Dev} {st : Nat} (h : st < 28) (h25 : st ≠ 25) (hoff : d.flag (LYR_STOP_s_CTL_BYPASS st) = false) :
    (d.bypassNow st).flag (LYR_STOP_s_CTL_BYPASS st) = true := by
  have hsend (e : Dev) (a b : Nat) : (e.mSend a b).rf (LYR_STOP_s_CTL_BYPASS st) = e.rf (LYR_STOP_s_CTL_BYPASS st) := rfl
  have hset := d.flag_setFlag_same (LYR_STOP_s_CTL_BYPASS st) true (by decide : 0 + 1 ≤ 32) rfl
  rw [Dev.bypassNow, if_neg (by rw [hoff]; simpa using h25)]
  unfold Dev.flag at hset ⊢
  rw [Dev.rf_health (ctl_traceFree h), hsend, Dev.rf_bypassEnd]
  exact hset
/-- The device with other notes of faults. -/
def Dev.withFaults (d : Dev) (t : Tab (List Nat)) : Dev := { d with lyr.faults := t }
theorem Dev.withFaults_keeps (d : Dev) (t : Tab (List Nat)) : (d.withFaults t).regs = d.regs ∧ (d.withFaults t).fw = d.fw ∧ (d.withFaults t).lyr.failing = d.lyr.failing := ⟨rfl, rfl, rfl⟩
theorem Tab.any_of_find {β : Type} {t : Tab β} {k : Nat} (h : (Tab.find t k).isSome = true) : t.any (·.1 == k) = true := by
  induction t with
  | nil => cases h
  | cons a t ih =>
    rw [Tab.find] at h
    rw [List.any_cons]
    split at h
    · next hk =>
      rw [hk]
      rfl
    · rw [ih h, Bool.or_true]
theorem Dev.stopFails_drains {d : Dev} {st : Nat} (h : st < 12) (hmode : d.podMode st ≠ 1) (hnew : d.lyr.failing.contains st = false) :
    (d.stopFails st).fw.drains.any (·.1 == st) = true := by
  rw [Dev.stopFails, if_neg (Nat.not_le.2 h), if_neg (by rw [hnew]; decide), if_neg fun hm => hmode hm.1]
  dsimp only
  split
  · next hd => exact Tab.any_of_find hd
  · refine Tab.any_of_find ?_
    unfold Dev.drainBegin
    rw [Tab.find_put, if_pos rfl]
    rfl
section
variable {d : Dev} {st key n : Nat}
theorem Dev.noteFault_few (h : (d.now :: (Tab.getD (fun _ => []) d.lyr.faults key).filter fun t => decide (d.now < t + nsT 1000000000)).length < n) :
    (d.noteFault st key n).regs = d.regs ∧ (d.noteFault st key n).fw = d.fw := by
  unfold Dev.noteFault
  dsimp only
  rw [if_neg (by rw [decide_eq_false (Nat.not_le.2 h)]; decide)]
  exact ⟨rfl, rfl⟩
theorem Dev.noteFault_many (h : n ≤ (d.now :: (Tab.getD (fun _ => []) d.lyr.faults key).filter fun t => decide (d.now < t + nsT 1000000000)).length) :
    ∃ t, d.noteFault st key n = (d.withFaults t).stopFails st := by
  unfold Dev.noteFault
  dsimp only
  rw [decide_eq_true h, if_pos rfl]
  exact ⟨_, rfl⟩
end

/-! ### Hops (R315) -/

/-- The device with other notes of replays. -/
def Dev.withHops (d : Dev) (t : Tab (List Nat)) : Dev := { d with lyr.hops := t }
section
variable {d : Dev} {st ring dir : Nat} {old : List Nat}
  (hold : old = (Tab.getD (fun _ => []) d.lyr.hops ((ring * 2 + dir) * 28 + st)).filter fun t => decide (d.now < t + msT 1))
include hold
theorem Dev.hopReplay_few (h : old.length < 7) : d.hopReplay st ring dir [] =
    (d.bump (LYR_STOP_s_HOP_REPLAY st)).withHops (Tab.setD (fun _ => ([] : List Nat)) d.lyr.hops ((ring * 2 + dir) * 28 + st) (d.now :: old)) := by
  unfold Dev.hopReplay
  dsimp only
  rw [← hold, List.length_cons, decide_eq_false (by omega), if_neg Bool.false_ne_true, List.foldl_nil, if_neg Bool.false_ne_true]
  rfl
theorem Dev.hopReplay_many (h : 7 ≤ old.length) : d.hopReplay st ring dir [] =
    (((d.bump (LYR_STOP_s_HOP_REPLAY st)).withHops (Tab.setD (fun _ => ([] : List Nat)) d.lyr.hops ((ring * 2 + dir) * 28 + st) [])).health 3 1
      (st + 2 ^ 8 * ring + 2 ^ 16 * dir)).noteFault st st 3 := by
  unfold Dev.hopReplay
  dsimp only
  rw [← hold, List.length_cons, decide_eq_true (by omega), if_pos rfl, List.foldl_nil, if_pos rfl]
  rfl
end

/-! ### Bounces, epochs and bypass by command (R308, R320, R323) -/

section
variable {d : Dev} {st : Nat}
theorem Dev.ringBounce_own {b : Nat × Nat × Nat × Nat} (h : (d.lyr.bounces.find? fun b => b.1 == st) = some b) :
    d.ringBounce st = { d with lyr.bounces := d.lyr.bounces.erase b }.bounceAt st b.2.1 b.2.2.1 b.2.2.2 := by
  unfold Dev.ringBounce
  rw [h]
variable (h : (d.lyr.bounces.find? fun b => b.1 == st) = none)
include h
theorem Dev.ringBounce_none (hf : (d.lyr.streams.find? fun x => keyDst x.1 == st && x.2.window.any fun p => p.type == 6 && x.2.flight.head? == some p.seq) = none) :
    d.ringBounce st = d := by
  unfold Dev.ringBounce
  rw [h, hf]
theorem Dev.ringBounce_packet {x : Nat × Stream} (hf : (d.lyr.streams.find? fun x => keyDst x.1 == st && x.2.window.any fun p => p.type == 6 && x.2.flight.head? == some p.seq) = some x) :
    d.ringBounce st = { d with free := d.free + 1 }.ringAccept x.1 [] [] (Config.accessLatency d.free) := by
  unfold Dev.ringBounce
  rw [h, hf]
end
theorem Dev.epochWr_yes {d : Dev} {init : Initiator} {v cmds : Nat} (h : (d.busWr init rLYR_EPOCH v).2 = .yes cmds) (hb : bitAt cmds 0 = true) :
    d.epochWr init v = (d.busWr init rLYR_EPOCH v).1.epochFlip init := by
  unfold Dev.epochWr
  dsimp only
  rw [h]
  exact if_pos hb
section
variable {d : Dev} {init : Initiator} {st v cmds : Nat} (h : (d.busWr init (rLYR_STOP_s_CTL st) v).2 = .yes cmds)
include h
theorem Dev.stopCtlWr_yes : d.stopCtlWr init st v = (let r := d.busWr init (rLYR_STOP_s_CTL st) v
    if d.flag (LYR_STOP_s_CTL_BYPASS st) == r.1.flag (LYR_STOP_s_CTL_BYPASS st) then r.1
    else if r.1.flag (LYR_STOP_s_CTL_BYPASS st) then
      if st = 25 then (r.1.setFlag (LYR_STOP_s_CTL_BYPASS st) false).regErr .ignored (rLYR_STOP_s_CTL st) init else (r.1.bypassEnd st).mSend 25 63
    else if d.flag (LYR_STOP_s_STS_FENCED st) then (r.1.setFlag (LYR_STOP_s_STS_BYPASSED st) false).mSend 25 63
    else (r.1.setFlag (LYR_STOP_s_CTL_BYPASS st) true).regErr .ignored (rLYR_STOP_s_CTL st) init) := by
  unfold Dev.stopCtlWr
  dsimp only
  rw [h]
theorem Dev.stopCtlWr_set (hold : d.flag (LYR_STOP_s_CTL_BYPASS st) = false) (hnew : (d.busWr init (rLYR_STOP_s_CTL st) v).1.flag (LYR_STOP_s_CTL_BYPASS st) = true) :
    d.stopCtlWr init st v = if st = 25 then ((d.busWr init (rLYR_STOP_s_CTL st) v).1.setFlag (LYR_STOP_s_CTL_BYPASS st) false).regErr .ignored (rLYR_STOP_s_CTL st) init
      else ((d.busWr init (rLYR_STOP_s_CTL st) v).1.bypassEnd st).mSend 25 63 := by
  refine (Dev.stopCtlWr_yes h).trans ((if_neg ?_).trans (if_pos hnew))
  rw [hold, hnew]
  decide
theorem Dev.stopCtlWr_clear (hold : d.flag (LYR_STOP_s_CTL_BYPASS st) = true) (hnew : (d.busWr init (rLYR_STOP_s_CTL st) v).1.flag (LYR_STOP_s_CTL_BYPASS st) = false) :
    d.stopCtlWr init st v = if d.flag (LYR_STOP_s_STS_FENCED st) then ((d.busWr init (rLYR_STOP_s_CTL st) v).1.setFlag (LYR_STOP_s_STS_BYPASSED st) false).mSend 25 63
      else ((d.busWr init (rLYR_STOP_s_CTL st) v).1.setFlag (LYR_STOP_s_CTL_BYPASS st) true).regErr .ignored (rLYR_STOP_s_CTL st) init := by
  refine (Dev.stopCtlWr_yes h).trans ((if_neg ?_).trans (if_neg ?_))
  · rw [hold, hnew]
    decide
  · rw [hnew]
    decide
end

end Sys2Proof.Machine

/-! O53: the rows of the Lyre settled (R304-R329, R483). -/

namespace Sys2Proof.Machine

section
variable {d : Dev} {k : Nat} {p : RingPkt} {flips : List (Nat × Byte)} {latency : Nat}
theorem Dev.ringArrive_askedAgain (h : d.refuser (keySrc k) (keyDst k) (keyCls k) p.epoch p.dir = none) (hfresh : (d.stream k).refused = false) (hseq : p.seq ≠ (d.stream k).expSeq) :
    ((d.ringArrive k p [] latency).stream k).retry = some (d.stream k).expSeq := by
  have hbad : (!(([] : List (Nat × Byte)).isEmpty || ringCrcOk (flipBytes (p.image k) [])) || p.seq != (d.stream k).expSeq) = true := by
    rw [bne_iff_ne.2 hseq, Bool.or_true]
  rw [Dev.ringArrive_dropped h hbad, if_neg (by rw [hfresh, Bool.false_and]; decide)]
  exact (d.askAgain_keeps k p).1
theorem Dev.ringArrive_corrupt (h : d.refuser (keySrc k) (keyDst k) (keyCls k) p.epoch p.dir = none) (hf : flips ≠ []) (hcrc : ringCrcOk (flipBytes (p.image k) flips) = false) :
    (d.ringArrive k p flips latency).mem = d.mem ∧ (d.ringArrive k p flips latency).lyr.returns = d.lyr.returns ++ [⟨false, k, p.flits (keyRing k)⟩] := by
  have hbad : (!(flips.isEmpty || ringCrcOk (flipBytes (p.image k) flips)) || p.seq != (d.stream k).expSeq) = true := by
    rw [hcrc, List.isEmpty_eq_false_iff.2 hf]
    rfl
  obtain ⟨-, hmem, hret⟩ := d.ringReturn_keeps false k (p.flits (keyRing k))
  obtain ⟨-, hmem', hret'⟩ := d.askAgain_keeps k p
  rw [Dev.ringArrive_dropped h hbad]
  split
  · exact ⟨hmem, hret⟩
  · exact ⟨hmem', hret'⟩
end
/-- The device with another sample of the rings. -/
theorem Dev.ringSample_keeps (d : Dev) (clock : Bool) (period at' : Nat) : (d.ringSample clock period at').lyr.stats = [] ∧ (d.ringSample clock period at').lyr.sampledAt = at' ∧
    ((d.ringSample clock period at').lyr.sample.map fun x => (x.clock, x.period, x.stats)) = some (clock, period, d.lyr.stats) ∧ (d.ringSample clock period at').regs = d.regs :=
  ⟨rfl, rfl, rfl, rfl⟩

/-- Settles O53: the rows of the ring and the steps they share. -/
theorem ringRules : Obligations.RingRules := by
  intro s d go
  refine ⟨?_, ?_, ?_, ?_, ?_, ?_, ?_, ?_, ?_, ?_, ?_, ?_, ?_, ?_, ?_, ?_, ?_, ?_, ?_, ?_, ?_, ?_, ?_⟩
  · intro control src dst cls type txid addr tag len data ok
    refine ⟨fun hne hby hfe hok => next_on (Dev.ringRow_eq ?_), fun hno => next_on (Dev.ringRow_eq ?_)⟩
    · refine (if_neg ?_).trans ((if_neg ?_).trans (Dev.ringReady_new _ _ _ _ _ _ _ _ _ _ _))
      · rintro (h | h | h)
        · exact hne (Fin.val_inj.1 h)
        · exact Bool.false_ne_true (hby.symm.trans h)
        · exact Bool.false_ne_true (hfe.symm.trans h)
      · rw [show pktFits _ _ _ _ _ = true from hok]
        decide
    · by_cases h : src.val = dst.val ∨ d.flag (LYR_STOP_s_CTL_BYPASS src) = true ∨ d.flag (LYR_STOP_s_STS_FENCED src) = true
      · exact if_pos h
      · refine (if_neg h).trans (if_pos ?_)
        rcases hno with hno | hno | hno | hno
        · exact absurd (Or.inl (congrArg Fin.val hno)) h
        · exact absurd (Or.inr (Or.inl hno)) h
        · exact absurd (Or.inr (Or.inr hno)) h
        · rw [show pktFits _ _ _ _ _ = false from hno]
          rfl
  · intro d w _ _ _ hsrc hfen k nib p0 p d1
    refine ⟨fun h => Dev.ringTry_refused hsrc hfen h, fun hdst hroute => ⟨fun hmay hother hstarve => Dev.ringTry_goes hsrc hfen hdst hroute hmay hother hstarve,
      fun h => Dev.ringTry_waits hsrc hfen hdst hroute h⟩⟩
  · intro d fuel first l
    refine ⟨fun h => Dev.ringPump_waits (Dev.ringPick_waits h), fun w ws e hl he => Dev.ringPump_gone ?_⟩
    exact (congrArg d.ringPick hl).trans (Dev.ringPick_gone he)
  · exact fun d st w h => ⟨fun ht => Dev.ringPicks_fair h ht, fun ht v hv hs hc => Dev.ringPicks_class h ht hv hs hc⟩
  · intro d k p j hj
    obtain ⟨hlt, hfree, hmine⟩ := Dev.slotsFor_mine hj
    exact ⟨hlt, hfree, fun hr h8 => Dev.slotMine_reserved hmine hr h8⟩
  · intro d
    obtain ⟨hret, hring, hmem⟩ := d.returnsHome_keeps
    refine ⟨hret, hring, hmem, fun o st hst hm hr => ⟨fun hby => ?_, fun hby => ?_⟩⟩
    · exact (Dev.returnsHome_message hst hm hr).trans (if_pos hby)
    · exact (Dev.returnsHome_message hst hm hr).trans (if_neg fun h => Bool.false_ne_true (hby.symm.trans h))
  · intro d st k p status me w
    exact ⟨fun h hp => Dev.ringError_own_posted h hp, fun h hp => Dev.ringError_own_other h hp, fun h hp => Dev.ringError_posted h hp, fun h hp => Dev.ringError_read h hp,
      fun h hp => Dev.ringError_write h hp⟩
  · intro d k p
    obtain ⟨hregs, hmem, hstr⟩ := d.ringPut_keeps k p
    have hk : (d.ringPut k p).stream k = _ := (Dev.stream_congr hstr k).trans (d.stream_updStream k _)
    refine ⟨congrArg (·.nextSeq) hk, congrArg (·.window) hk, congrArg (·.flight) hk, fun j hj => ?_, hregs, hmem⟩
    exact (Dev.stream_congr hstr j).trans ((d.stream_setStream k _ j).trans (if_neg hj))
  · exact fun st h => next_on (if_neg fun hs => Bool.false_ne_true (h.symm.trans hs))
  · intro ring src dst cls flips corr latency k x
    refine ⟨fun h => next_on (Dev.ringRow_eq (Dev.ringAccept_none h _ _ _)), fun q rest p h hp => next_on (Dev.ringRow_eq (Dev.ringAccept_some h hp _ _ _))⟩
  · intro ring src dst cls p d latency k back
    have hsrc : keySrc k = src := keySrc_streamKey ring src dst cls
    have hdst : keyDst k = dst := keyDst_streamKey ring src dst cls
    have hcls : keyCls k = cls := keyCls_streamKey ring src dst cls
    have hring : keyRing k = ring := keyRing_streamKey ring src dst cls
    clear_value k
    subst back
    rw [← hsrc, ← hdst, ← hcls, ← hring]
    refine ⟨fun st flips h => Dev.ringArrive_refused h, d.ringTaken_keeps k p, fun h => ⟨fun hf hs => Dev.ringArrive_askedAgain h hf hs,
      fun flips hf hcrc => Dev.ringArrive_corrupt h hf hcrc, ?_⟩⟩
    intro hseq d1
    refine ⟨fun hreq hfen => (Dev.ringArrive_good h hseq).trans (if_pos ?_), fun hno => (Dev.ringArrive_good h hseq).trans (if_neg ?_)⟩
    · rw [hreq, show Dev.flag _ _ = true from hfen]
      rfl
    · rcases hno with hno | hno
      · rw [hno, Bool.false_and]
        exact Bool.false_ne_true
      · rw [show Dev.flag _ _ = false from hno, Bool.and_false]
        exact Bool.false_ne_true
  · exact fun st ring ccw => ⟨fun h => next_on (Dev.hopReplay_few rfl h), fun h => next_on (Dev.hopReplay_many rfl h)⟩
  · intro d st key n l
    refine ⟨fun hn _ h28 h25 hoff => ?_, fun hn h12 hmode hnew => ?_, fun hn => Dev.noteFault_few hn⟩
    · obtain ⟨t, ht⟩ := Dev.noteFault_many hn
      obtain ⟨hregs, -, -⟩ := d.withFaults_keeps t
      rw [ht, Dev.stopFails, if_pos (by assumption)]
      exact Dev.bypassNow_bypasses h28 h25 ((Dev.flag_congr hregs _).trans hoff)
    · obtain ⟨t, ht⟩ := Dev.noteFault_many hn
      obtain ⟨hregs, -, hfail⟩ := d.withFaults_keeps t
      rw [ht]
      refine Dev.stopFails_drains h12 ?_ (by rw [hfail]; exact hnew)
      rw [Dev.podMode, Dev.rf_congr hregs]
      exact hmode
  · intro ring src dst cls k x e
    refine ⟨next_on (Dev.ringRow_eq rfl), fun h => ?_, fun q h => ⟨fun hmany => Dev.ringRetry_ends h hmany, fun hfew => Dev.ringRetry_sent h hfew⟩⟩
    show d.ringRetry k = d
    unfold Dev.ringRetry
    dsimp only
    rw [show (d.stream k).retry = none from h]
  · intro st own first
    exact ⟨fun hown hfirst => next_on (Dev.ringRow_eq (Dev.ringBounce_none hown hfirst)), fun b hown => next_on (Dev.ringRow_eq (Dev.ringBounce_own hown)),
      fun x hown hfirst => ⟨_, next_on (Dev.ringRow_eq (Dev.ringBounce_packet hown hfirst))⟩⟩
  · intro d i dst addr status _ e
    obtain ⟨haddr, hn, hdst⟩ := d.bounceAt_shows i dst addr status
    obtain ⟨hmem, hlyr⟩ := d.bounceAt_keeps i dst addr status
    exact ⟨haddr, hn, hdst, hmem, hlyr⟩
  · intro init value cmds r hr hb
    refine ⟨fun hdr => next_on ((Dev.epochWr_yes hr hb).trans (if_pos hdr)), fun hdr => next_on ((Dev.epochWr_yes hr hb).trans (if_neg fun h => ?_))⟩
    exact Bool.false_ne_true (hdr.symm.trans h)
  · intro hdr hcount
    refine next_on (Dev.ringRow_eq (if_pos ?_))
    rw [show Dev.flag _ _ = true from hdr, show Dev.rf _ _ = 0 from hcount]
    rfl
  · intro hno
    refine next_on (Dev.ringRow_eq (if_neg ?_))
    rcases hno with hno | hno
    · rw [show Dev.flag _ _ = false from hno, Bool.false_and]
      exact Bool.false_ne_true
    · rw [beq_false_of_ne hno, Bool.and_false]
      exact Bool.false_ne_true
  · intro init st value cmds f r hr
    refine ⟨fun hold hnew h25 => next_on ((Dev.stopCtlWr_set hr hold hnew).trans (if_neg h25)), fun hold hnew h25 => next_on ((Dev.stopCtlWr_set hr hold hnew).trans (if_pos h25)),
      fun hold hnew hfen => next_on ((Dev.stopCtlWr_clear hr hold hnew).trans (if_pos hfen)),
      fun hold hnew hfen => next_on ((Dev.stopCtlWr_clear hr hold hnew).trans (if_neg fun h => Bool.false_ne_true (hfen.symm.trans h)))⟩
  · exact fun st h => next_on (if_pos h)
  · intro hon hstart hnew
    refine nextAnd_act ?_
    rw [State.on_dev, if_pos hon]
    dsimp only
    rw [if_pos (by rw [hstart, bne_iff_ne.2 hnew]; rfl)]
    exact s.dev.ringSample_keeps _ _ _
  · intro c d
    refine ⟨fun hr hok => ?_, fun hr hn hbad => ?_⟩
    · have hpass : (decide (1 ≤ pp c 2 / 96) && !d.obOk (pAddr c 0) (96 * (pp c 2 / 96))) = false := by
        by_cases hn : 1 ≤ pp c 2 / 96
        · rw [show d.obOk _ _ = true from hok hn, Bool.not_true, Bool.and_false]
        · rw [decide_eq_false hn, Bool.false_and]
      refine ⟨fun hnone => (pq_ready hr _).trans (next_on ?_), fun x hx => ?_⟩
      · rw [checks_pass _ _ _ _ _ _ hpass, checks_nil]
        rw [show (s.began c).lyr.sample = none from hnone]
      · intro n
        refine (pq_ready hr _).trans (next_on ?_)
        rw [checks_pass _ _ _ _ _ _ hpass, checks_nil]
        rw [show (s.began c).lyr.sample = some x from hx]
        rfl
    · refine (pq_ready hr _).trans (next_on ?_)
      rw [checks_fail]
      rw [decide_eq_true hn, show (s.began c).obOk _ _ = false from hbad]
      rfl

end Sys2Proof.Machine

/-! O49: narrowband channels: roles, transmission, floor, detection, reports (R260-R283). -/

namespace Sys2Proof.Machine

/-! ### A receiver's state (R267-R274) -/

theorem Dev.regs_chans (d : Dev) (t : Tab NbChan) : ({ d with nbb.chans := t } : Dev).regs = d.regs := rfl
theorem Dev.regs_nbSet (d : Dev) (n : Nat) (x : NbChan) (st : Nat) : ∃ b, (d.nbSet n x st).regs =
    (((d.wf (NBB_CHn_STS_STATE n) st).setFlag (NBB_CHn_STS_SHADOW n) b).setFlag (NBB_CHn_STS_AGC_FROZEN n) (st == 4)).regs := by
  unfold Dev.nbSet
  exact ⟨_, Dev.regs_chans _ _⟩
/-- What STS shows of a receiver just put in state `st`. -/
theorem Dev.nbSet_shows (d : Dev) (n : Nat) (x : NbChan) {st : Nat} (h : st < 8) :
    (d.nbSet n x st).rf (NBB_CHn_STS_STATE n) = st ∧ (d.nbSet n x st).rf (NBB_CHn_STS_AGC_FROZEN n) = if st = 4 then 1 else 0 := by
  obtain ⟨b, hregs⟩ := d.regs_nbSet n x st
  rw [Dev.rf_congr hregs, Dev.rf_congr hregs]
  unfold Dev.setFlag
  refine ⟨?_, ?_⟩
  · rw [Dev.rf_wf_field _ (NBB_CHn_STS_AGC_FROZEN n) _ _ (by decide : 4 + 1 ≤ 32) (Or.inr (by decide : 0 + 3 ≤ 4)),
      Dev.rf_wf_field _ (NBB_CHn_STS_SHADOW n) _ _ (by decide : 3 + 1 ≤ 32) (Or.inr (by decide : 0 + 3 ≤ 3)), Dev.rf_wf_same _ _ _ (by decide : 0 + 3 ≤ 32)]
    exact Nat.mod_eq_of_lt h
  · rw [Dev.rf_wf_same _ _ _ (by decide : 4 + 1 ≤ 32)]
    by_cases h4 : st = 4
    · subst h4
      rfl
    · rw [beq_false_of_ne h4, if_neg h4]
      rfl

/-! ### What a modem takes of its source leaves the reports (R267, R276) -/

theorem Dev.reports_of_offTime {d e : Dev} (h : e.offTime = d.offTime) : e.nbb.reports = d.nbb.reports := congrArg (·.nbb.reports) h
theorem Dev.reports_advanceTo (d : Dev) (t : Nat) : (d.advanceTo t).nbb.reports = d.nbb.reports := Dev.reports_of_offTime (d.offTime_advanceTo t)
theorem Dev.reports_rx (d : Dev) (t : Tab RxChan) : ({ d with dfe.rx := t } : Dev).nbb.reports = d.nbb.reports := rfl
theorem Dev.reports_captured (d : Dev) (l : List RecEntry) (n : Nat) : ({ d with marrow.captures := l, marrow.bytes := n } : Dev).nbb.reports = d.nbb.reports := rfl
theorem Dev.reports_bumpBy (d : Dev) (f : Fld) (n : Nat) : (d.bumpBy f n).nbb.reports = d.nbb.reports := rfl
theorem Dev.reports_putLog (d : Dev) (l : List RecEntry) (n : Nat) (b : Bool) : (d.putLog l n b).nbb.reports = d.nbb.reports := rfl
theorem Dev.reports_recDrop (d : Dev) (n : Nat) : (d.recDrop n).nbb.reports = d.nbb.reports := by
  rw [Dev.recDrop, Dev.reports_putLog, Dev.reports_bumpBy]
theorem Dev.reports_capture (d : Dev) (a b c : Nat) (l : List Byte) : (d.capture a b c l).nbb.reports = d.nbb.reports := by
  unfold Dev.capture
  dsimp only
  split
  · rfl
  · split
    · exact d.reports_recDrop _
    · exact d.reports_captured _ _
theorem Dev.reports_rxTake (d : Dev) (r first upto keep : Nat) (ins : List (BitVec 24)) : (d.rxTake r first upto keep ins).nbb.reports = d.nbb.reports := by
  unfold Dev.rxTake
  dsimp only
  rw [Dev.reports_rx]
  split
  · rw [Dev.reports_capture, Dev.reports_bumpBy]
  · exact d.reports_bumpBy _ _
theorem Dev.reports_nbSamples (d : Dev) (n c : Nat) (ins : List (BitVec 24)) : (d.nbSamples n c ins).1.nbb.reports = d.nbb.reports := by
  unfold Dev.nbSamples
  dsimp only
  split
  · rfl
  · split
    · rfl
    · exact d.reports_rxTake _ _ _ _ _
theorem Dev.nbReport_adds {d e : Dev} (h : e.nbb.reports = d.nbb.reports) (n : Nat) (k : NbLock) (reason : Nat) :
    (e.nbReport n k reason).nbb.reports = d.nbb.reports ++ [⟨n, e.nbPair n, e.nbTl n, k, k.bytes, reason⟩] := congrArg (· ++ _) h
theorem Dev.nbPair_nbReport (d : Dev) (n : Nat) (k : NbLock) (reason : Nat) : (d.nbReport n k reason).nbPair n = d.nbPair n := rfl

/-! ### GSM bursts (R278) -/

theorem diffDecode_length (l : List Bool) : ∀ b, (diffDecode b l).length = l.length := by
  induction l with
  | nil => exact fun _ => rfl
  | cons x l ih => exact fun b => congrArg (· + 1) (ih _)
/-- A NORMAL burst has 116 bits of data: two times 58. -/
theorem burstBits_length (m : NbMod) (l : List Smp) (tsc : Nat) (q : Int) : (burstBits m l tsc q).length = 116 := by
  unfold burstBits
  dsimp only
  rw [List.length_append, List.length_reverse, diffDecode_length, diffDecode_length, List.length_map, List.length_map]
  rfl
theorem Dev.gsmBurst_reports {d : Dev} {n : Nat} {b : NbBurst} (hcar : d.nbCarrier n = true) (hrx : d.flag (NBB_CHn_CTL_RX_EN n) = true) (hon : d.nbRxOn n = true)
    (hslot : (d.gsmSlot n).1 = 1) (hmags : b.mags.length = 116) :
    ∃ r : NbReport, (d.gsmBurst n b).nbb.reports = d.nbb.reports ++ [r] ∧ r.ch = n ∧ r.reason = 0 ∧ r.lock.maxb = 116 ∧ r.data.length = 116 ∧
      r.pair = (d.gsmBurst n b).nbPair n ∧ r.lock.k = (d.gsmSlot n).2.1 := by
  unfold Dev.gsmBurst
  dsimp only
  rw [if_neg (by rw [hcar, hrx, hon, hslot]; decide)]
  refine ⟨_, Dev.nbReport_adds ?_ _ _ _, rfl, rfl, rfl, ?_, (Dev.nbPair_nbReport _ _ _ _).symm, rfl⟩
  · rw [Dev.reports_nbSamples, Dev.reports_advanceTo]
  · unfold NbLock.bytes
    dsimp only
    rw [if_pos rfl, List.length_map, List.reverse_reverse, List.length_map, List.length_zip, burstBits_length, hmags]
    rfl
theorem Dev.gsmBurst_elsewhere {d : Dev} {n : Nat} {b : NbBurst} (hslot : (d.gsmSlot n).1 ≠ 1) : d.gsmBurst n b = d := by
  unfold Dev.gsmBurst
  dsimp only
  refine if_pos ?_
  rw [bne_iff_ne.2 hslot, Bool.or_true]

/-! ### Symbols (R267-R271) -/

section
variable {d : Dev} {n : Nat} {i : NbInput} {x0 : NbChan} (hfind : Tab.find d.nbb.chans n = some x0) (hon : d.nbRxOn n = true)
include hfind hon
/-- The end of a symbol on a channel with a timeline of its own. -/
theorem Dev.nbSymbol_own {d1 : Dev} {x : NbChan} {m : NbMeas} (hx : x = (d.nbMeasure n x0 i).2.1) (hm : m = (d.nbMeasure n x0 i).2.2)
    (hd1 : d1 = (d.nbMeasure n x0 i).1.wf (NBB_CHn_RSSI n) (ofSigned 16 m.rssi)) (hcar : d1.nbCarrier n = false) :
    (d1.rf (NBB_CHn_STS_STATE n) < 2 → d.nbSymbol n i = d1.nbSet n x (d1.rf (NBB_CHn_STS_STATE n))) ∧
    (d1.rf (NBB_CHn_STS_STATE n) = 2 → d.nbSymbol n i =
      if decide (toSigned 16 (d1.rf (NBB_CHn_FLOOR_NF n)) + 2 * (d1.rf (NBB_CHn_DET_MARGIN n) : Int) ≤ m.rssi) && !false then d1.nbSet n (candidate x) 3 else d1.nbSet n x 2) ∧
    (d1.rf (NBB_CHn_STS_STATE n) = 3 → d.nbSymbol n i = d1.nbQualify n false x m false) ∧
    (∀ k, d1.rf (NBB_CHn_STS_STATE n) = 4 → x.lock = some k → d.nbSymbol n i = d1.nbLocked n x k m) := by
  unfold Dev.nbSymbol
  rw [hfind]
  dsimp -zeta only
  generalize d.nbMeasure n x0 i = r0 at hx hm hd1 ⊢
  obtain ⟨e, x1, m1⟩ := r0
  dsimp only at hx hm hd1
  subst hx hm
  rw [if_neg (by rw [hon]; decide)]
  extract_lets r x' m' d' slot access st late th
  have hx' : x' = x := rfl
  have hm' : m' = m := rfl
  have hd' : d' = d1 := hd1.symm
  have haccess : access = false := (congrArg (Dev.nbCarrier · n) hd').trans hcar
  have hlate : late = false := (congrArg (· && decide (slot.2.2 + d'.nbSyms n 112 < d'.feNow)) haccess).trans (Bool.false_and _)
  have hst : st = d1.rf (NBB_CHn_STS_STATE n) := congrArg (Dev.rf · (NBB_CHn_STS_STATE n)) hd'
  have hth : th = toSigned 16 (d1.rf (NBB_CHn_FLOOR_NF n)) + 2 * (d1.rf (NBB_CHn_DET_MARGIN n) : Int) :=
    congrArg (fun e : Dev => toSigned 16 (e.rf (NBB_CHn_FLOOR_NF n)) + 2 * (e.rf (NBB_CHn_DET_MARGIN n) : Int)) hd'
  clear_value th late st access slot d' m' x'
  rw [hth, haccess, hlate, hst, hx', hm', hd', Bool.false_and, Bool.false_and, if_neg Bool.false_ne_true]
  refine ⟨fun h => ?_, fun h => ?_, fun h => ?_, fun k h hk => ?_⟩
  · split
    · omega
    · omega
    · omega
    · rfl
  · split
    · rfl
    · omega
    · omega
    · next h2 _ _ => exact absurd h h2
  · split
    · omega
    · rfl
    · omega
    · next _ h3 _ => exact absurd h h3
  · split
    · omega
    · omega
    · rw [hk]
    · next _ _ h4 => exact absurd h h4
end
theorem Dev.nbMeasure_keeps (d : Dev) (n : Nat) (x0 : NbChan) (i : NbInput) : (d.nbMeasure n x0 i).2.1.syms = x0.syms + 1 ∧
    (d.nbMeasure n x0 i).2.1.rssi = ((d.nbMeasure n x0 i).2.2.rssi :: x0.rssi).take 41 ∧ (x0.lock.isSome = true → (d.nbMeasure n x0 i).2.1.gain = x0.gain) ∧
    (d.nbMeasure n x0 i).2.1.lock = x0.lock :=
  ⟨rfl, rfl, fun h => if_pos h, rfl⟩

/-! ### Floor (R269) -/

section
variable {d : Dev} {n : Nat} {p : Int} {x : NbChan} (hfind : Tab.find d.nbb.chans n = some x) (hon : d.nbRxOn n = true)
include hfind hon
theorem Dev.nbFloor_runs {d1 : Dev} (hd1 : d1 = d.advanceTo (x.msAt + msT 1)) : d.nbFloor n p =
    (let y : NbChan := { x with msAt := x.msAt + msT 1, idle := 0, idleFrom := x.idleFrom.map fun _ => d1.now }
    if x.idleNow d1.now < usT 500 then d1.nbSet n y (d1.rf (NBB_CHn_STS_STATE n))
    else if d1.rf (NBB_CHn_STS_STATE n) = 1 then (d1.wf (NBB_CHn_FLOOR_NF n) (ofSigned 16 p)).nbSet n y 2
    else
      let nf := toSigned 16 (d1.rf (NBB_CHn_FLOOR_NF n))
      let q := d1.nbEighth (p - nf)
      if d1.rf (NBB_CHn_STS_STATE n) = 2 then (q.1.wf (NBB_CHn_FLOOR_NF n) (ofSigned 16 (nf + q.2))).nbSet n y (d1.rf (NBB_CHn_STS_STATE n))
      else d1.nbSet n y (d1.rf (NBB_CHn_STS_STATE n))) := by
  subst hd1
  unfold Dev.nbFloor
  rw [hfind]
  exact if_neg (by rw [hon]; decide)
end

/-! ### Reports (R276) -/

section
variable {d : Dev} {r : NbReport} {rest : List NbReport} (h : d.nbb.reports = r :: rest)
include h
/-- The device without its oldest report. -/
theorem Dev.nbPost_unbound (hp : r.pair = none) : d.nbPost = { d with nbb.reports := rest } := by
  unfold Dev.nbPost
  rw [h]
  dsimp only
  rw [hp]
theorem Dev.nbPost_bound {d0 : Dev} (hd0 : d0 = { d with nbb.reports := rest }) {m : Nat} (hp : r.pair = some m) (hr : r.reason = 0) :
    (∀ b q, takeBuf (d0.qp (64 + m)).ulbufs r.lock.maxb = some (b, q) → ∃ fl body,
      (d0.upRoom m = true → d.nbPost = (((d0.updQp (64 + m) fun x => { x with ulbufs := q }).hostWrite b.addr r.data)).up m b.tag okS 0x83 fl body r.data) ∧
      (d0.upRoom m = false → d.nbPost = d0.up m b.tag okS 0x83 fl body)) ∧
    (takeBuf (d0.qp (64 + m)).ulbufs r.lock.maxb = none → ∃ fl body, d.nbPost = (d0.bump (NBB_CHn_NOBUF r.ch)).up m 0xFFFF okS 0x83 fl body) := by
  have hquiet : ¬ 1 ≤ r.reason := by omega
  unfold Dev.nbPost
  rw [h]
  dsimp only
  rw [hp]
  dsimp only
  rw [← hd0, if_neg hquiet]
  refine ⟨fun b q hb => ?_, fun hb => ?_⟩
  · rw [hb]
    exact ⟨_, _, fun hroom => if_pos hroom, fun hroom => if_neg (Bool.eq_false_iff.1 hroom)⟩
  · rw [hb]
    exact ⟨_, _, rfl⟩
end

end Sys2Proof.Machine

/-! O49: the narrowband bank settled (R260-R283). -/

namespace Sys2Proof.Machine

/-- STS shows a frozen AGC in state LOCK alone. -/
def Dev.frozenInLock (d : Dev) (n : Nat) : Prop := d.rf (NBB_CHn_STS_AGC_FROZEN n) = if d.rf (NBB_CHn_STS_STATE n) = 4 then 1 else 0
theorem Dev.nbSet_frozenInLock (d : Dev) (n : Nat) (x : NbChan) {st : Nat} (h : st < 8) : (d.nbSet n x st).frozenInLock n := by
  obtain ⟨hst, hfr⟩ := d.nbSet_shows n x h
  rw [Dev.frozenInLock, hst, hfr]
theorem Dev.nbLockNow_frozenInLock (d : Dev) (n : Nat) (access : Bool) (x : NbChan) (c : NbCtx) (m : NbMeas) (dist : Nat) : (d.nbLockNow n access x c m dist).frozenInLock n := by
  unfold Dev.nbLockNow
  extract_lets tl k len y r lk d1
  clear_value d1 lk y
  split
  · exact Dev.nbSet_frozenInLock _ n _ (by decide : 2 < 8)
  · exact Dev.nbSet_frozenInLock _ n _ (by decide : 4 < 8)

/-! ### Roles (R263) -/

section
variable {d : Dev} {c : PqCmd} {n : Nat} (htgt : d.badTarget c = false) (hlt : n < 256) (hcar : d.nbCarrier n = false) (htaken : d.nbTaken n = false)
include htgt hlt hcar htaken
theorem Dev.nbChannelRemove_ok {q : NbShared} (hn : n = pp c 0) (hhas : d.nbHas n 0 = true) (hq : d.nbOther n 0 = some q) (htl : q.tl = c.timeline.toNat) :
    d.nbChannelRemove c = (d.stage c 0x0206 false (.nbRemove n)).fin c okS := by
  unfold Dev.nbChannelRemove
  dsimp only
  rw [← hn, hq]
  refine (checks_pass _ _ _ _ _ _ ?_).trans (checks_nil _ _ _)
  have htl' : (((some q).orElse fun _ => d.nbOther n 1).map (·.tl)).getD c.timeline.toNat = c.timeline.toNat := htl
  rw [htl', htgt, hcar, htaken, hhas, decide_eq_false (Nat.not_le.2 hlt), bne_self_eq_false]
  rfl
/-- The checks of a role's own parameters (R262, R263). -/
def NbPar.bad (p : NbPar) : Bool := decide (2 ≤ p.dir) || !nbLegal false p.mod (3 * p.baud) p.sps p.bt p.h p.offsetHz ||
  (if p.dir = 0 then decide (2 ≤ p.capMode) || decide (p.capTh < 6) || decide (30 < p.capTh) else p.capMode != 0 || p.capTh != 0) || decide (63 < p.upq)
omit htgt hlt hcar htaken in
theorem NbPar.bad_false {p : NbPar} (hdir : p.dir < 2) (hlegal : nbLegal false p.mod (3 * p.baud) p.sps p.bt p.h p.offsetHz = true)
    (hrx : p.dir = 0 → p.capMode < 2 ∧ 6 ≤ p.capTh ∧ p.capTh ≤ 30) (htx : p.dir = 1 → p.capMode = 0 ∧ p.capTh = 0) (hupq : p.upq ≤ 63) : p.bad = false := by
  have hcap : (if p.dir = 0 then decide (2 ≤ p.capMode) || decide (p.capTh < 6) || decide (30 < p.capTh) else p.capMode != 0 || p.capTh != 0) = false := by
    split
    · next h0 =>
      obtain ⟨h1, h2, h3⟩ := hrx h0
      rw [decide_eq_false (Nat.not_le.2 h1), decide_eq_false (Nat.not_lt.2 h2), decide_eq_false (Nat.not_lt.2 h3)]
      rfl
    · next h0 =>
      obtain ⟨h1, h2⟩ := htx (by omega)
      rw [h1, h2]
      rfl
  rw [NbPar.bad, hcap, hlegal, decide_eq_false (Nat.not_le.2 hdir), decide_eq_false (Nat.not_lt.2 hupq)]
  rfl
theorem Dev.nbChannelAdd_ok {p : NbPar} (hn : n = pp c 0)
    (hp : p = ⟨pp c 1, pp c 2, pp c 3, pp c 4, pp c 5, pp c 6, pSigned c 7, pp c 8, pp c 9, pp c 10, c.timeline.toNat⟩) (hgood : p.bad = false)
    (hkind : d.rf (TMU_TLn_CFG_KIND p.tl) = 2) (hother : d.nbOther n (1 - p.dir) = none) (hdom : d.domRun (44 + p.dir) = true) (hhas : d.nbHas n p.dir = false)
    (hcount : d.nbCount p.dir < if p.dir = 0 then 256 else 64) : d.nbChannelAdd c = (d.stage c 0x0205 false (.nbAdd n p)).fin c okS := by
  unfold Dev.nbChannelAdd
  extract_lets n' p'
  have hn' : n' = n := hn.symm
  have hp' : p' = p := hp.symm
  clear_value n' p'
  rw [hn', hp']
  refine (checks_pass _ _ _ _ _ _ ?_).trans ((checks_pass _ _ _ _ _ _ (congrArg not hdom)).trans ((checks_pass _ _ _ _ _ _ ?_).trans (checks_nil _ _ _)))
  · simp only [NbPar.bad, Bool.or_eq_false_iff] at hgood
    obtain ⟨⟨⟨hdir, hlegal⟩, hcap⟩, hupq⟩ := hgood
    rw [htgt, decide_eq_false (Nat.not_le.2 hlt), hdir, hlegal, hcap, hupq, hkind, hcar, htaken, hother]
    rfl
  · rw [hhas, decide_eq_false (Nat.not_le.2 hcount)]
    rfl
end
theorem Dev.nbCtlWr_good {d : Dev} {init : Initiator} {n value cmds : Nat} (h : (d.busWr init (rNBB_CHn_CTL n) value).2 = .yes cmds)
    (hrx : d.flag (NBB_CHn_CTL_RX_EN n) = true ∨ (d.busWr init (rNBB_CHn_CTL n) value).1.flag (NBB_CHn_CTL_RX_EN n) = false ∨ d.nbRxOk n = true) :
    d.nbCtlWr init n value = (let r := d.busWr init (rNBB_CHn_CTL n) value
      let badTx := !d.flag (NBB_CHn_CTL_TX_EN n) && r.1.flag (NBB_CHn_CTL_TX_EN n) && (d.nbStaged n 1).isNone && decide (64 ≤ d.nbCount 1)
      (if badTx then (r.1.setFlag (NBB_CHn_CTL_TX_EN n) false).regErr .ignored (rNBB_CHn_CTL n) init else r.1).nbRoles n (d.flag (NBB_CHn_CTL_RX_EN n))
        (d.flag (NBB_CHn_CTL_TX_EN n))) := by
  have hgood : (!d.flag (NBB_CHn_CTL_RX_EN n) && (d.busWr init (rNBB_CHn_CTL n) value).1.flag (NBB_CHn_CTL_RX_EN n) && !d.nbRxOk n) = false := by
    rcases hrx with hrx | hrx | hrx
    · rw [hrx]
      rfl
    · rw [hrx, Bool.and_false, Bool.false_and]
    · rw [hrx, Bool.not_true, Bool.and_false]
  unfold Dev.nbCtlWr
  dsimp only
  rw [h]
  dsimp only
  rw [hgood, Bool.false_or, if_neg Bool.false_ne_true]
  split <;> rfl

/-! ### Transmission (R264-R266) -/

/-- An entry's own checks (R86, R264). -/
theorem upEntry_good {d : Dev} {e : List Byte} (hbad : upBad e = false) (halloc : leAt e 4 2 = 0xFFFF) (hlen : 8 ≤ leAt e 16 4) (hob : d.obOk (leAt e 8 8) (leAt e 16 4) = true) :
    (upBad e || leAt e 4 2 != 0xFFFF || decide (leAt e 16 4 < 8) || !d.obOk (leAt e 8 8) (leAt e 16 4)) = false := by
  rw [hbad, halloc, hob, decide_eq_false (Nat.not_lt.2 hlen)]
  rfl
/-- A packet's own checks (R264, R279). -/
theorem nbPacket_good {d : Dev} {n tl start nb len res : Nat} (hstart : start < d.periodNs tl) (hnb : nb ≤ 8 * (len - 8)) (hpairs : d.nbLog2M n = 2 → nb % 2 = 0) (hres : res = 0)
    (hgsm : d.nbCarrier n = true → start = 0 ∧ nb = 148) :
    (decide (d.periodNs tl ≤ start) || decide (8 * (len - 8) < nb) || (d.nbLog2M n == 2 && nb % 2 == 1) || res != 0 || (d.nbCarrier n && (start != 0 || nb != 148))) = false := by
  have h1 : (d.nbLog2M n == 2 && nb % 2 == 1) = false := by
    by_cases h : d.nbLog2M n = 2
    · rw [hpairs h, Bool.and_eq_false_iff]
      exact Or.inr rfl
    · rw [beq_false_of_ne h, Bool.false_and]
  have h2 : (d.nbCarrier n && (start != 0 || nb != 148)) = false := by
    cases h : d.nbCarrier n with
    | false => rfl
    | true =>
      obtain ⟨h0, h148⟩ := hgsm h
      rw [h0, h148]
      rfl
  rw [h1, h2, hres, decide_eq_false (Nat.not_le.2 hstart), decide_eq_false (Nat.not_lt.2 hnb)]
  rfl

/-- The packet of an entry (R264). -/
def Dev.nbPktOf (d : Dev) (m : Nat) (e data : List Byte) : NbPkt :=
  ⟨leAt e 2 2, (d.nbPair (leAt e 1 1)).getD m, leAt e 20 1 % 4, leAt e 6 2, leAt data 0 4, leAt data 4 2, (upTo ((leAt data 4 2 + 7) / 8)).map fun i => nth 0 data (8 + i),
    d.nbSample (d.boundaryT (leAt e 20 1 % 4) (d.airK (leAt e 20 1 % 4) (leAt e 6 2)) + nsT (leAt data 0 4)), none, none⟩
/-- Two packets of channel `n` would be in the air at once. -/
def Dev.nbMeets (d : Dev) (n : Nat) (p q : NbPkt) : Bool :=
  decide (q.rise (d.pktMod n q) < p.gone (d.nbModOf n)) && decide (p.rise (d.nbModOf n) < q.gone (d.pktMod n q))
section
variable {d d1 : Dev} {m n tl air : Nat} {e data : List Byte} {p : NbPkt} (hentry : d.hasUpEntry m = true) (hturn : myTurn 64 d.hif.rrUp m d.hasUpEntry = true) (hk : leAt e 0 1 = 3)
  (hd1 : d1 = { d.pastEntry (64 + m) with hif.rrUp := (m + 1) % 64 }) (hn : n = leAt e 1 1) (htl : tl = leAt e 20 1 % 4) (hair : air = leAt e 6 2) (hp : p = d1.nbPktOf m e data)
  (hentryOk : (upBad e || leAt e 4 2 != 0xFFFF || decide (leAt e 16 4 < 8) || !d1.obOk (leAt e 8 8) (leAt e 16 4)) = false)
  (hpktOk : (decide (d1.periodNs tl ≤ leAt data 0 4) || decide (8 * (leAt e 16 4 - 8) < leAt data 4 2) || (d1.nbLog2M n == 2 && leAt data 4 2 % 2 == 1) || leAt data 6 2 != 0 ||
    (d1.nbCarrier n && (leAt data 0 4 != 0 || leAt data 4 2 != 148))) = false)
include hentry hturn hk hd1 hn htl hair hp hentryOk hpktOk
theorem Dev.nbTx_checked : d.nbTx m e data =
    if !d1.flag (NBB_CHn_CTL_TX_EN n) then d1.nbDone n p 32 0
    else if !d1.flag (TMU_TLn_CTL_ENABLE tl) || !d1.future tl air || decide (256 < ahead (d1.refK tl) air) || decide (p.rise (d1.nbModOf n) < d1.feNow + usT 200) then d1.nbDone n p 4 0
    else if (d1.nbHeld n).any (d1.nbMeets n p) then d1.nbDone n p 8 0
    else if 8 ≤ (d1.nbHeld n).length then d1.nbDone n p 16 0
    else (if bitAt d1.marrow.cfg.mask 2 then d1.recAdd 10 tl air (some data) else d1).setHeld n ((d1.nbHeld n ++ [p]).mergeSort fun a b => decide (a.t ≤ b.t)) := by
  subst hn htl hair hp
  unfold Dev.nbTx
  refine (Dev.upFetch_own hentry hturn hk _).trans ?_
  rw [← hd1]
  clear hd1 hentry hturn
  exact (if_neg (Bool.eq_false_iff.1 hentryOk)).trans (if_neg (Bool.eq_false_iff.1 hpktOk))
end


section
variable {s : State} {n : Fin 256} {p : NbPkt} {q : List NbPkt} {d1 : Dev} (h : s.dev.nbHeld n = p :: q)
include h
theorem nbTxStart_held (hair : p.onAir = none) (hd1 : d1 = (s.dev.advanceTo (s.dev.feTime (p.rise (s.dev.nbModOf n)))).txDrainAll) :
    exec (.nbTxStart n) s = .next (s.on (if d1.nbTxOn n then d1.setHeld n ({ p with onAir := some (s.dev.nbModOf n) } :: q) else (d1.setHeld n q).nbDone n p 32 0)) := by
  refine next_on ?_
  dsimp -zeta only
  rw [h]
  dsimp only
  rw [← hd1]
  exact if_neg (by rw [hair]; decide)
theorem nbTxDone_held {tag : BitVec 16} (hair : p.onAir.isSome = true) (htag : p.tag = tag.toNat)
    (hd1 : d1 = ((s.dev.advanceTo (s.dev.feTime (p.gone (s.dev.pktMod n p)))).txDrainAll).setHeld n q) :
    (p.cut = none → exec (.nbTxDone n tag) s = .next (s.on (d1.nbDone n p 0 p.bits))) ∧
    (∀ sent, p.cut = some sent → exec (.nbTxDone n tag) s = .next (s.on (d1.nbDone n p 32 sent.1))) := by
  have hgo : ¬ (p.onAir.isNone || p.tag != tag.toNat) = true := by
    rw [htag, bne_self_eq_false, Bool.or_false, Option.isNone_iff_eq_none]
    exact Option.isSome_iff_ne_none.1 hair
  refine ⟨fun hcut => next_on ?_, fun sent hcut => next_on ?_⟩
  · dsimp -zeta only
    rw [h]
    dsimp only
    rw [if_neg hgo, ← hd1, hcut]
  · dsimp -zeta only
    rw [h]
    dsimp only
    rw [if_neg hgo, ← hd1, hcut]
end
/-- The mean's difference is a multiple of 8. -/
theorem Dev.nbEighth_whole {d : Dev} {x : Int} (h : x % 8 = 0) : d.nbEighth x = (d, x / 8) := if_pos h
theorem Dev.nbCtlWr_roles {d : Dev} {init : Initiator} {n value cmds : Nat} (h : (d.busWr init (rNBB_CHn_CTL n) value).2 = .yes cmds)
    (hrx : d.flag (NBB_CHn_CTL_RX_EN n) = true ∨ (d.busWr init (rNBB_CHn_CTL n) value).1.flag (NBB_CHn_CTL_RX_EN n) = false ∨ d.nbRxOk n = true)
    (htx : d.flag (NBB_CHn_CTL_TX_EN n) = true ∨ (d.busWr init (rNBB_CHn_CTL n) value).1.flag (NBB_CHn_CTL_TX_EN n) = false ∨ (d.nbStaged n 1).isSome = true ∨ d.nbCount 1 < 64) :
    d.nbCtlWr init n value = (d.busWr init (rNBB_CHn_CTL n) value).1.nbRoles n (d.flag (NBB_CHn_CTL_RX_EN n)) (d.flag (NBB_CHn_CTL_TX_EN n)) := by
  have hgood : (!d.flag (NBB_CHn_CTL_TX_EN n) && (d.busWr init (rNBB_CHn_CTL n) value).1.flag (NBB_CHn_CTL_TX_EN n) && (d.nbStaged n 1).isNone && decide (64 ≤ d.nbCount 1)) = false := by
    rcases htx with h | h | h | h
    · rw [h]
      rfl
    · rw [h, Bool.and_false, Bool.false_and, Bool.false_and]
    · rw [Option.isNone_eq_false_iff.2 h, Bool.and_false, Bool.false_and]
    · rw [decide_eq_false (Nat.not_le.2 h), Bool.and_false]
  rw [Dev.nbCtlWr_good h hrx]
  dsimp only
  rw [hgood, if_neg Bool.false_ne_true]
theorem Dev.nbCtlWr_refused {d : Dev} {init : Initiator} {n value cmds : Nat} (h : (d.busWr init (rNBB_CHn_CTL n) value).2 = .yes cmds)
    (hrx : d.flag (NBB_CHn_CTL_RX_EN n) = true ∨ (d.busWr init (rNBB_CHn_CTL n) value).1.flag (NBB_CHn_CTL_RX_EN n) = false ∨ d.nbRxOk n = true)
    (htx : d.flag (NBB_CHn_CTL_TX_EN n) = false) (hnew : (d.busWr init (rNBB_CHn_CTL n) value).1.flag (NBB_CHn_CTL_TX_EN n) = true) (hst : d.nbStaged n 1 = none) (hfull : 64 ≤ d.nbCount 1) :
    d.nbCtlWr init n value = (((d.busWr init (rNBB_CHn_CTL n) value).1.setFlag (NBB_CHn_CTL_TX_EN n) false).regErr .ignored (rNBB_CHn_CTL n) init).nbRoles n
      (d.flag (NBB_CHn_CTL_RX_EN n)) (d.flag (NBB_CHn_CTL_TX_EN n)) := by
  rw [Dev.nbCtlWr_good h hrx]
  dsimp only
  rw [htx, hnew, hst, decide_eq_true hfull]
  exact congrArg (Dev.nbRoles · _ _ _) (if_pos rfl)

/-- Settles O49: the rows of the narrowband bank. -/
theorem narrowbandRules : Obligations.NarrowbandRules := by
  intro s
  refine ⟨?_, ?_, ?_, ?_, ?_, ?_, ?_, ?_, ?_, ?_⟩
  · intro c d n p
    refine ⟨?_, fun q hr htgt hn hcar htaken hhas hq htl => (pq_ready hr _).trans (next_on (Dev.nbChannelRemove_ok htgt hn hcar htaken rfl hhas hq htl))⟩
    intro hr htgt hn hdir hlegal hrx htx hupq hkind hcar htaken hother hdom hhas hcount
    exact (pq_ready hr _).trans (next_on (Dev.nbChannelAdd_ok htgt hn hcar htaken rfl rfl (NbPar.bad_false hdir hlegal hrx htx hupq) hkind hother hdom hhas hcount))
  · intro m e data hentry hturn hk d n tl start nb t p mo meets hbad halloc hlen hob hstart hnb hpairs hres hgsm
    have hchecked := Dev.nbTx_checked hentry hturn hk (d1 := d) rfl (n := n) rfl (tl := tl) rfl rfl (p := p) rfl (upEntry_good hbad halloc hlen hob)
      (nbPacket_good hstart hnb hpairs hres hgsm)
    refine ⟨fun hen => next_on (hchecked.trans (if_pos (congrArg not hen))), fun hen hlate => next_on (hchecked.trans ((if_neg ?_).trans (if_pos ?_))), fun hen htl hfut hahead hrise => ?_⟩
    · rw [hen]
      decide
    · rcases hlate with h | h | h
      · rw [h]
        rfl
      · rw [h, Bool.not_false, Bool.or_true]
        rfl
      · rw [decide_eq_true h, Bool.or_true]
    · have hon : ¬ (!d.flag (NBB_CHn_CTL_TX_EN n)) = true := by
        rw [hen]
        decide
      have htime : ¬ (!d.flag (TMU_TLn_CTL_ENABLE tl) || !d.future tl (leAt e 6 2) || decide (256 < ahead (d.refK tl) (leAt e 6 2)) || decide (p.rise mo < d.feNow + usT 200)) = true := by
        rw [htl, hfut, decide_eq_false (Nat.not_lt.2 hahead), decide_eq_false (Nat.not_lt.2 hrise)]
        decide
      have hgo := hchecked.trans ((if_neg hon).trans (if_neg htime))
      refine ⟨fun hmeet => next_on (hgo.trans (if_pos hmeet)), fun hfree => ⟨fun hfull => ?_, fun hroom hmask => ?_⟩⟩
      · exact next_on (hgo.trans ((if_neg (Bool.eq_false_iff.1 hfree)).trans (if_pos hfull)))
      · refine next_on (hgo.trans ((if_neg (Bool.eq_false_iff.1 hfree)).trans ((if_neg (Nat.not_le.2 hroom)).trans ?_)))
        rw [hmask]
        rfl
  · intro n p q hheld
    refine ⟨?_, ?_⟩
    · intro hair d1
      have hgo := nbTxStart_held hheld hair (d1 := d1) rfl
      clear_value d1
      exact ⟨fun hon => hgo.trans (next_on (if_pos hon)), fun hoff => hgo.trans (next_on (if_neg (Bool.eq_false_iff.1 hoff)))⟩
    · intro hair tag htag
      exact nbTxDone_held hheld hair htag rfl
  · intro n p x hx hon d1 y
    have hgo := Dev.nbFloor_runs (p := p.toInt) hx hon (d1 := d1) rfl
    refine ⟨fun h => next_on (hgo.trans (if_pos h)), fun h hst => next_on (hgo.trans ((if_neg (Nat.not_lt.2 h)).trans (if_pos hst))), ?_⟩
    intro h hst nf h8
    have hne : ¬ d1.rf (NBB_CHn_STS_STATE n) = 1 := by omega
    refine next_on (hgo.trans ((if_neg (Nat.not_lt.2 h)).trans ((if_neg hne).trans ((if_pos hst).trans ?_))))
    rw [Dev.nbEighth_whole h8, hst]
  · intro n ins gains prim shad mag gain ferr quarter level x0 hx hon i r x m d1 th
    obtain ⟨hsyms, hrssi, hgain, hlock⟩ := s.dev.nbMeasure_keeps n x0 ⟨ins, gains.map (·.toNat), prim.toNat, shad.toNat, mag.toNat, gain.toNat, ferr.toNat, quarter.toInt, level.toInt⟩
    refine ⟨⟨hsyms, hrssi, hgain, hlock⟩, fun hcar => ?_⟩
    obtain ⟨hidle, hsearch, hqual, hlocked⟩ := Dev.nbSymbol_own hx hon (x := x) rfl (m := m) rfl (d1 := d1) rfl hcar
    refine ⟨fun h => next_on (hidle h), fun h => ⟨fun hth => next_on ((hsearch h).trans (if_pos ?_)), fun hth => next_on ((hsearch h).trans (if_neg ?_))⟩, fun h => next_on (hqual h),
      fun k h hk => next_on (hlocked k h (hlock.trans hk))⟩
    · rw [decide_eq_true hth]
      rfl
    · rw [decide_eq_false (Int.not_le.2 hth)]
      decide
  · exact fun n x c m dist => s.dev.nbLockNow_frozenInLock n false x c m dist
  · intro n tsc pick level ferr up seen hcar hrx hon
    exact ⟨fun hslot hmags => nextAnd_act (Dev.gsmBurst_reports hcar hrx hon hslot hmags), fun hslot => next_on (Dev.gsmBurst_elsewhere hslot)⟩
  · intro h
    refine next_on (?_ : s.dev.nbPost = s.dev)
    unfold Dev.nbPost
    rw [h]
  · intro r rest h d0
    refine ⟨fun hp => next_on (Dev.nbPost_unbound h hp), ?_, ?_⟩
    · intro m b q hp hr hb
      obtain ⟨fl, body, hroom, hfull⟩ := (Dev.nbPost_bound h (d0 := d0) rfl hp hr).1 b q hb
      exact nextAnd_act ⟨fl, body, fun h => congrArg s.on (hroom h), fun h => congrArg s.on (hfull h)⟩
    · intro m hp hb hr
      obtain ⟨fl, body, hgo⟩ := (Dev.nbPost_bound h (d0 := d0) rfl hp hr).2 hb
      exact nextAnd_act ⟨fl, body, congrArg s.on hgo⟩
  · intro init n value cmds r rx0 tx0 hr hrx
    exact ⟨fun htx => next_on (Dev.nbCtlWr_roles hr hrx htx), fun htx hnew hst hfull => next_on (Dev.nbCtlWr_refused hr hrx htx hnew hst hfull)⟩

end Sys2Proof.Machine

/-! SUPPORT. What an access of memory leaves alone: every engine, timeline and staged effect (R308, R324, R339, R340). -/

namespace Sys2Proof.Machine

/-- What every step of a fold leaves alone, the fold does. -/
theorem foldl_leaves {σ α β : Type} {f : σ → α → σ} {p : σ → β} {l : List α} (h : ∀ s, ∀ a ∈ l, p (f s a) = p s) (s : σ) : p (l.foldl f s) = p s :=
  List.foldlRecOn (motive := fun x => p x = p s) l f rfl fun x hx a ha => (h x a ha).trans hx

/-- The device less what an access of memory, a posting or an event of the dispatcher touches. -/
def Dev.offAccess (d : Dev) : Dev := { d.rest with mem := Dev.reset.mem, lyr := Dev.reset.lyr, pods := Dev.reset.pods, cores := [], wds := Wds.reset }
theorem Dev.offAccess_of_rest {d e : Dev} (h : e.rest = d.rest) : e.offAccess = d.offAccess :=
  congrArg (fun x : Dev => { x with mem := Dev.reset.mem, lyr := Dev.reset.lyr, pods := Dev.reset.pods, cores := [], wds := Wds.reset }) h
theorem Dev.offAccess_of_offWds {d e : Dev} (h : e.offWds = d.offWds) : e.offAccess = d.offAccess := by
  have hacc : e.offWds.offAccess = d.offWds.offAccess := congrArg Dev.offAccess h
  exact hacc
theorem Dev.offAccess_fields {d e : Dev} (h : e.offAccess = d.offAccess) : e.now = d.now ∧ e.dfe = d.dfe ∧ e.nbb = d.nbb ∧ e.eth = d.eth ∧ e.cal = d.cal ∧ e.tmu = d.tmu ∧
    e.tls = d.tls ∧ e.pmu = d.pmu ∧ e.zth = d.zth ∧ e.fw.staged = d.fw.staged :=
  ⟨congrArg (·.now) h, congrArg (·.dfe) h, congrArg (·.nbb) h, congrArg (·.eth) h, congrArg (·.cal) h, congrArg (·.tmu) h, congrArg (·.tls) h, congrArg (·.pmu) h, congrArg (·.zth) h,
    congrArg (·.fw.staged) h⟩

section
variable (d : Dev)
theorem Dev.offAccess_mem (m : Mem) : ({ d with mem := m } : Dev).offAccess = d.offAccess := rfl
theorem Dev.offAccess_free (n : Nat) : ({ d with free := n } : Dev).offAccess = d.offAccess := rfl
theorem Dev.offAccess_stats (l : Lyr) : (d.withLyr l).offAccess = d.offAccess := rfl
theorem Dev.offAccess_cores (t : Tab Core) : ({ d with cores := t } : Dev).offAccess = d.offAccess := rfl
theorem Dev.offAccess_podWrite (p off : Nat) (bs : List Byte) : (d.podWrite p off bs).offAccess = d.offAccess := rfl
theorem Dev.offAccess_bump (f : Fld) : (d.bump f).offAccess = d.offAccess := Dev.offAccess_of_rest (d.rest_bump f)
theorem Dev.offAccess_wf (f : Fld) (v : Nat) : (d.wf f v).offAccess = d.offAccess := Dev.offAccess_of_rest (d.rest_wf f v)
theorem Dev.offAccess_setFlag (f : Fld) (b : Bool) : (d.setFlag f b).offAccess = d.offAccess := Dev.offAccess_of_rest (d.rest_setFlag f b)
theorem Dev.offAccess_hostWrite (a : Nat) (b : List Byte) : (d.hostWrite a b).offAccess = d.offAccess := Dev.offAccess_of_rest (d.rest_hostWrite a b)
theorem Dev.offAccess_health (a b c : Nat) : (d.health a b c).offAccess = d.offAccess := Dev.offAccess_of_rest (d.rest_health a b c)
theorem Dev.offAccess_recSource (b : Nat) : (d.recSource b).offAccess = d.offAccess := Dev.offAccess_of_rest (d.rest_recSource b)
theorem Dev.offAccess_raiseEvent (a b c : Nat) : (d.raiseEvent a b c).offAccess = d.offAccess := Dev.offAccess_of_offWds (d.offWds_raiseEvent a b c)
theorem Dev.offAccess_poisonAt (a : Nat) : (d.poisonAt a).offAccess = d.offAccess := d.offAccess_mem _
theorem Dev.offAccess_memError (a dev : Nat) (uncorr : Bool) : (d.memError a dev uncorr).offAccess = d.offAccess := by
  unfold Dev.memError Dev.ddrErrLog
  dsimp only
  split
  · split
    · rfl
    · split
      · rw [Dev.offAccess_health, Dev.offAccess_bump, Dev.offAccess_poisonAt, Dev.offAccess_wf, Dev.offAccess_setFlag, Dev.offAccess_wf, Dev.offAccess_wf]
      · rw [Dev.offAccess_bump, Dev.offAccess_wf, Dev.offAccess_setFlag, Dev.offAccess_wf, Dev.offAccess_wf]
  · split
    · rw [Dev.offAccess_health, Dev.offAccess_bump, Dev.offAccess_poisonAt, Dev.offAccess_setFlag, Dev.offAccess_wf]
    · rw [Dev.offAccess_bump, Dev.offAccess_setFlag, Dev.offAccess_wf]
  · rfl
theorem Dev.offAccess_lineRead (a : Nat) : (d.lineRead a).offAccess = d.offAccess := by
  unfold Dev.lineRead
  extract_lets l m d1 d2
  have hd1 : d1.offAccess = d.offAccess := d.offAccess_mem _
  have hd2 : d2.offAccess = d.offAccess := (d1.offAccess_free _).trans hd1
  clear_value d2 d1
  split
  · rfl
  · next flaw _ =>
    extract_lets told dev
    clear_value told
    cases told with
    | clean => exact hd1
    | corrected => exact (d1.offAccess_memError _ _ _).trans hd1
    | uncorrectable => exact (d1.offAccess_memError _ _ _).trans hd1
    | beyond =>
      dsimp only
      split
      · exact hd2
      · exact (d2.offAccess_memError _ _ _).trans hd2
      · exact (d2.offAccess_memError _ _ _).trans hd2
theorem Dev.offAccess_linesRead (a n : Nat) : (d.linesRead a n).offAccess = d.offAccess := foldl_keeps (p := Dev.offAccess) (fun e _ _ => e.offAccess_lineRead _) d
theorem Dev.offAccess_poisonRead (a n : Nat) (cnt : Fld) : (d.poisonRead a n cnt).1.offAccess = d.offAccess := by
  unfold Dev.poisonRead
  split
  · exact (Dev.offAccess_recSource _ _).trans (d.offAccess_bump _)
  · dsimp only
    split <;> exact d.offAccess_linesRead _ _
theorem Dev.offAccess_offCount (st : Nat) : (d.offCount st).offAccess = d.offAccess := by
  unfold Dev.offCount
  split
  · exact d.offAccess_bump _
  · rfl
theorem Dev.offAccess_firewallLog (src : Nat) (wr rec_ : Bool) (a : Nat) : (d.firewallLog src wr rec_ a).offAccess = d.offAccess := by
  rw [Dev.firewallLog, Dev.offAccess_setFlag, Dev.offAccess_setFlag, Dev.offAccess_wf, Dev.offAccess_wf, Dev.offAccess_wf, Dev.offAccess_bump]
theorem Dev.offAccess_judgeAt (src : Nat) (wr : Bool) (job : Option (Nat × Nat)) (a n : Nat) : (d.judgeAt src wr job a n).1.offAccess = d.offAccess := by
  unfold Dev.judgeAt
  dsimp only
  split
  · split
    · rfl
    · split
      · exact d.offAccess_offCount _
      · split
        · rfl
        · split
          · exact d.offAccess_firewallLog _ _ _ _
          · split
            · rfl
            · exact d.offAccess_poisonRead _ _ _
  · split
    · exact d.offAccess_offCount _
    · split
      · exact d.offAccess_firewallLog _ _ _ _
      · split
        · split
          · exact d.offAccess_bump _
          · exact d.offAccess_bump _
        · split
          · exact d.offAccess_bump _
          · split
            · rfl
            · exact d.offAccess_poisonRead _ _ _
  · split
    · exact d.offAccess_offCount _
    · split <;> rfl
  · split
    · exact d.offAccess_offCount _
    · split
      · rfl
      · split <;> rfl
  · rfl
  · split
    · exact d.offAccess_offCount _
    · split <;> rfl
  · rfl
theorem Dev.offAccess_ringCount (k bytes replays latency : Nat) : (d.ringCount k bytes replays latency).offAccess = d.offAccess := d.offAccess_stats _
theorem Dev.offAccess_countOne (src st cls bytes : Nat) : (d.countOne src st cls bytes).offAccess = d.offAccess := (Dev.offAccess_free _ _).trans (d.offAccess_ringCount _ _ _ _)
theorem Dev.offAccess_countAccess (src st : Nat) (cls : Option Nat) (wr : Bool) (n : Nat) : (d.countAccess src st cls wr n).offAccess = d.offAccess := by
  unfold Dev.countAccess
  split
  · rfl
  · exact foldl_keeps (p := Dev.offAccess) (fun e _ _ => (Dev.offAccess_countOne _ _ _ _ _).trans (e.offAccess_countOne _ _ _ _)) d
theorem Dev.offAccess_judgeC (cls : Option Nat) (src : Nat) (wr : Bool) (job : Option (Nat × Nat)) (a n : Nat) : (d.judgeC cls src wr job a n).1.offAccess = d.offAccess := by
  unfold Dev.judgeC
  split
  · split
    · exact d.offAccess_bump _
    · exact (Dev.offAccess_judgeAt _ _ _ _ _ _).trans (d.offAccess_countAccess _ _ _ _ _)
  · exact d.offAccess_judgeAt _ _ _ _ _
theorem Dev.offAccess_sawHost (a : Nat) : (d.sawHost a).offAccess = d.offAccess := by
  unfold Dev.sawHost
  split
  · exact d.offAccess_free _
  · rfl
theorem Dev.offAccess_poke (a : Nat) (bs : List Byte) : (d.poke a bs).offAccess = d.offAccess := by
  unfold Dev.poke
  split
  · exact d.offAccess_mem _
  · exact d.offAccess_mem _
  · exact d.offAccess_podWrite _ _ _
  · exact d.offAccess_cores _
  · rfl
  · exact d.offAccess_hostWrite _ _
  · rfl
theorem Dev.offAccess_rdWith {judge : Dev → Nat → Nat → Dev × Nat} (h : ∀ e a n, (judge e a n).1.offAccess = e.offAccess) (a n : Nat) : (Dev.rdWith judge d a n).1.offAccess = d.offAccess := by
  refine foldl_leaves (p := fun x : Dev × Nat × List Byte => x.1.offAccess) (fun acc pc _ => ?_) (d, stOK, [])
  dsimp only
  split
  · rfl
  · split
    · exact (Dev.offAccess_sawHost _ _).trans (h _ _ _)
    · exact h _ _ _
theorem Dev.offAccess_wrWith {judge : Dev → Nat → Nat → Dev × Nat} (h : ∀ e a n, (judge e a n).1.offAccess = e.offAccess) (a : Nat) (bs : List Byte) :
    (Dev.wrWith judge d a bs).1.offAccess = d.offAccess := by
  refine foldl_leaves (p := fun x : Dev × Nat × List Byte => x.1.offAccess) (fun acc pc _ => ?_) (d, stOK, bs)
  dsimp only
  split
  · rfl
  · split
    · exact (Dev.offAccess_poke _ _ _).trans (h _ _ _)
    · exact h _ _ _
theorem Dev.offAccess_busRead (src a n : Nat) : (d.busRead src a n).1.offAccess = d.offAccess := d.offAccess_rdWith (fun e a n => e.offAccess_judgeC none src false none a n) a n
theorem Dev.offAccess_busWrite (src : Nat) (job : Option (Nat × Nat)) (a : Nat) (bs : List Byte) : (d.busWrite src job a bs).1.offAccess = d.offAccess :=
  d.offAccess_wrWith (fun e a n => e.offAccess_judgeC none src true job a n) a bs
end

end Sys2Proof.Machine

/-! SUPPORT. The front end's own state: symbols, PRACH, control lines, links, remaps (R233-R258). -/

namespace Sys2Proof.Machine

/-! ### What a chain's intake leaves (R244) -/

theorem Dev.dfe_of_offTime {d e : Dev} (h : e.offTime = d.offTime) : e.dfe = d.dfe ∧ e.pmu = d.pmu ∧ e.nbb = d.nbb ∧ e.cal = d.cal :=
  ⟨congrArg (·.dfe) h, congrArg (·.pmu) h, congrArg (·.nbb) h, congrArg (·.cal) h⟩
theorem Dev.dfe_advanceTo (d : Dev) (t : Nat) : (d.advanceTo t).dfe = d.dfe := (Dev.dfe_of_offTime (d.offTime_advanceTo t)).1
theorem Dev.pmu_advanceTo (d : Dev) (t : Nat) : (d.advanceTo t).pmu = d.pmu := (Dev.dfe_of_offTime (d.offTime_advanceTo t)).2.1
theorem Dev.dfe_of_offAccess {d e : Dev} (h : e.offAccess = d.offAccess) : e.dfe = d.dfe := (Dev.offAccess_fields h).2.1
theorem Dev.dfe_bumpBy (d : Dev) (f : Fld) (n : Nat) : (d.bumpBy f n).dfe = d.dfe := rfl
theorem Dev.dfe_putLog (d : Dev) (l : List RecEntry) (n : Nat) (b : Bool) : (d.putLog l n b).dfe = d.dfe := rfl
theorem Dev.dfe_recDrop (d : Dev) (n : Nat) : (d.recDrop n).dfe = d.dfe := by
  rw [Dev.recDrop, Dev.dfe_putLog, Dev.dfe_bumpBy]
theorem Dev.dfe_captured (d : Dev) (l : List RecEntry) (n : Nat) : ({ d with marrow.captures := l, marrow.bytes := n } : Dev).dfe = d.dfe := rfl
theorem Dev.dfe_capture (d : Dev) (a b c : Nat) (l : List Byte) : (d.capture a b c l).dfe = d.dfe := by
  unfold Dev.capture
  dsimp only
  split
  · rfl
  · split
    · exact d.dfe_recDrop _
    · exact d.dfe_captured _ _
theorem Dev.dfe_rx (d : Dev) (t : Tab RxChan) : ({ d with dfe.rx := t } : Dev).dfe = { d.dfe with rx := t } := rfl
/-- The state of the front end without its receive chains. -/
def Dev.offRx (d : Dev) : Dfe := { d.dfe with rx := [] }
theorem Dev.offRx_rx (d : Dev) (t : Tab RxChan) : ({ d with dfe.rx := t } : Dev).offRx = d.offRx := rfl
theorem Dev.offRx_of_dfe {d e : Dev} (h : e.dfe = d.dfe) : e.offRx = d.offRx := by
  rw [Dev.offRx, h, Dev.offRx]
theorem Dev.offRx_fields {d e : Dev} (h : e.offRx = d.offRx) : e.dfe.exps = d.dfe.exps ∧ e.dfe.prach = d.dfe.prach := ⟨congrArg (·.exps) h, congrArg (·.prach) h⟩
theorem Dev.offRx_rxTake (d : Dev) (r first upto keep : Nat) (ins : List (BitVec 24)) : (d.rxTake r first upto keep ins).offRx = d.offRx := by
  unfold Dev.rxTake
  dsimp only
  rw [Dev.offRx_rx]
  split
  · exact Dev.offRx_of_dfe ((Dev.dfe_capture _ _ _ _ _).trans (d.dfe_bumpBy _ _))
  · exact Dev.offRx_of_dfe (d.dfe_bumpBy _ _)

/-! ### Received symbols (R244-R246) -/

theorem Dev.dfe_fresh (d : Dev) (m : Nat) : (d.fresh m).1.dfe = d.dfe := rfl
theorem Dev.dfe_agcExp (d e : Dev) (c p k b : Nat) : (d.agcExp e c p k b).1.dfe = d.dfe := by
  unfold Dev.agcExp
  split
  · rfl
  · split
    · exact d.dfe_fresh 13
    · split
      · rfl
      · split <;> rfl
theorem Dev.exps_put (d : Dev) (t : Tab (Nat × Nat × Nat)) : ({ d with dfe.exps := t } : Dev).dfe.exps = t := rfl
/-- A port of a symbol enters its exponent, and nothing else of the exponents. -/
theorem Dev.rxPort_exps (e : Dev) (c : Nat) (x : SymAt) (a b : Nat) (input : Nat → List (BitVec 24)) (acc : Dev × List Byte × List Byte) (p : Nat) :
    ∃ v : Nat × Nat, (e.rxPort c x a b input acc p).1.dfe.exps = Tab.put acc.1.dfe.exps (64 * c + p) (x.k, v) := by
  unfold Dev.rxPort
  extract_lets r nrb ratio lg d0 bad g f skip ys zs sat peak d1 d2
  have hd0 : d0.dfe.exps = acc.1.dfe.exps := (Dev.offRx_fields (Dev.offRx_rxTake acc.1 r _ b _ (input p))).1
  have hg : g.1.dfe = d0.dfe := d0.dfe_agcExp e c p x.k lg
  clear_value d0 sat g
  have hd1 : d1.dfe = g.1.dfe := by
    dsimp only [d1]
    split
    · exact g.1.dfe_bumpBy _ _
    · rfl
  have hexps : d1.dfe.exps = acc.1.dfe.exps := (congrArg (·.exps) (hd1.trans hg)).trans hd0
  exact ⟨_, (d1.exps_put _).trans (congrArg (Tab.put · _ _) hexps)⟩
/-- Every port of a symbol has its air period entered. -/
theorem Dev.rxPorts_exps (e : Dev) (c : Nat) (x : SymAt) (a b : Nat) (input : Nat → List (BitVec 24)) (l : List Nat) : ∀ (acc : Dev × List Byte × List Byte) (p : Nat),
    (p ∈ l ∨ (Tab.find acc.1.dfe.exps (64 * c + p)).map (·.1) = some x.k) →
      (Tab.find (l.foldl (e.rxPort c x a b input) acc).1.dfe.exps (64 * c + p)).map (·.1) = some x.k := by
  induction l with
  | nil => exact fun acc p h => h.resolve_left List.not_mem_nil
  | cons q l ih =>
    intro acc p h
    obtain ⟨v, hv⟩ := e.rxPort_exps c x a b input acc q
    refine ih _ p ?_
    rw [hv, Tab.find_put]
    rcases h with h | h
    · rcases List.mem_cons.1 h with rfl | h
      · exact Or.inr (by rw [if_pos rfl]; rfl)
      · exact Or.inl h
    · right
      split
      · rfl
      · exact h
theorem Dev.dfe_fdCapture (d : Dev) (c count air n : Nat) (data : List Byte) : (d.fdCapture c count air n data).dfe = d.dfe := by
  unfold Dev.fdCapture
  dsimp only
  split
  · exact foldl_keeps (p := fun e => e.dfe) (fun e _ _ => e.dfe_capture _ _ _ _) d
  · rfl

/-! ### PRACH (R247) -/

theorem Dev.prach_prachChain (e : Dev) (x c a b : Nat) (inputs : List (List (BitVec 24))) (acc : Dev × List Byte) (p : Nat) :
    (e.prachChain x c a b inputs acc p).1.dfe.prach = acc.1.dfe.prach := (Dev.offRx_fields (Dev.offRx_rxTake acc.1 _ _ _ _ _)).2
/-- The device with other occasions running. -/
def Dev.withPrach (d : Dev) (l : List (Nat × Nat)) : Dev := { d with dfe.prach := l }
theorem Dev.prach_withPrach (d : Dev) (l : List (Nat × Nat)) : (d.withPrach l).dfe.prach = l := rfl
section
variable {d : Dev} {x k : Nat} {inputs : List (List (BitVec 24))} (h : d.dfe.prach.find? (·.1 == x) = some (x, k))
include h
theorem Dev.prachDone_gone : (d.prachDone x inputs).dfe.prach = d.dfe.prach.erase (x, k) := by
  unfold Dev.prachDone
  rw [h]
  dsimp -zeta only
  extract_lets e c n gone start a b r job w
  split
  · exact d.prach_withPrach _
  · have hr : r.1.dfe.prach = d.dfe.prach := by
      refine (foldl_leaves (p := fun y : Dev × List Byte => y.1.dfe.prach) (fun acc p _ => e.prach_prachChain x c a b inputs acc p) _).trans ?_
      rw [Dev.dfe_advanceTo]
    have hw : w.1.dfe = (gone r.1).dfe := Dev.dfe_of_offAccess (Dev.offAccess_busWrite _ _ _ _ _)
    rw [Dev.dfe_of_offAccess (w.1.offAccess_raiseEvent _ _ _), hw]
    exact (r.1.prach_withPrach _).trans (by rw [hr])
theorem Dev.prachDone_off (hoff : d.flag (DFE_PRACH_x_CTL_ENABLE x) = false ∨ d.domRun (40 + x / 8) = false) :
    d.prachDone x inputs = d.withPrach (d.dfe.prach.erase (x, k)) := by
  unfold Dev.prachDone
  rw [h]
  refine if_pos ?_
  rcases hoff with hoff | hoff
  · rw [hoff]
    rfl
  · rw [hoff, Bool.not_false, Bool.or_true]
end

/-! ### Control lines (R250) -/

section
variable (d : Dev) (l : Nat) (b : Bool)
theorem Dev.regs_setLine : (d.setLine l b).regs = d.regs := rfl
theorem Dev.rf_setLine (f : Fld) : (d.setLine l b).rf f = d.rf f := Dev.rf_congr (d.regs_setLine l b) f
theorem Dev.flag_setLine (f : Fld) : (d.setLine l b).flag f = d.flag f := Dev.flag_congr (d.regs_setLine l b) f
theorem Dev.feNow_setLine : (d.setLine l b).feNow = d.feNow := rfl
theorem Dev.tls_setLine : (d.setLine l b).tls = d.tls := rfl
theorem Dev.caps_setLine : (d.setLine l b).dfe.caps = d.dfe.caps ∧ (d.setLine l b).dfe.orxSel = d.dfe.orxSel ∧ (d.setLine l b).dfe.strobes = d.dfe.strobes ∧
    (d.setLine l b).cal = d.cal ∧ (d.setLine l b).dfe.latched = d.dfe.latched := ⟨rfl, rfl, rfl, rfl, rfl⟩
theorem Dev.lines_setLine (k : Nat) : Tab.getD (fun _ => false) (d.setLine l b).dfe.lines k = if k = l then b else Tab.getD (fun _ => false) d.dfe.lines k :=
  Tab.getD_setD _ _ _ _ _
theorem Dev.gridIndex_setLine (n t : Nat) : (d.setLine l b).gridIndex n t = d.gridIndex n t := rfl
theorem Dev.boundaryT_setLine (n k : Nat) : (d.setLine l b).boundaryT n k = d.boundaryT n k := rfl
theorem Dev.slot_setLine (n mu k : Nat) : (d.setLine l b).slotK n mu k = d.slotK n mu k ∧ (d.setLine l b).slotIndex n mu k = d.slotIndex n mu k := ⟨rfl, rfl⟩
theorem Dev.airTime_setLine (n mu : Nat) (ecp : Bool) (k m : Nat) : (d.setLine l b).airTime n mu ecp k m = d.airTime n mu ecp k m := by
  rw [Dev.airTime, Dev.boundaryT_setLine, (d.slot_setLine l b n mu k).2, Dev.airTime]
theorem Dev.patCode_congr {d e : Dev} (h : e.regs = d.regs) (p k m : Nat) : e.patCode p k m = d.patCode p k m := by
  rw [Dev.patCode, Dev.rf_congr h, Dev.reg_eq_of_regs h, Dev.patCode]
theorem Dev.regs_asOf_setLine (n k : Nat) : ((d.setLine l b).asOf n k).regs = (d.asOf n k).regs := by
  obtain ⟨-, -, -, -, hlat⟩ := d.caps_setLine l b
  unfold Dev.asOf
  rw [hlat]
  split <;> rfl
theorem Dev.patActive_setLine (p code lead lag t : Nat) : (d.setLine l b).patActive p code lead lag t = d.patActive p code lead lag t := by
  have hcode (n k m : Nat) : ((d.setLine l b).asOf n k).patCode p k m = (d.asOf n k).patCode p k m := Dev.patCode_congr (d.regs_asOf_setLine l b n k) p k m
  have hon (n : Nat) : (d.setLine l b).tlOn n = d.tlOn n := rfl
  unfold Dev.patActive
  simp only [hcode, hon, Dev.rf_setLine, Dev.flag_setLine, Dev.gridIndex_setLine, Dev.boundaryT_setLine, Dev.airTime_setLine, Dev.slot_setLine]
theorem Dev.orxChain_setLine (k : Nat) : (d.setLine l b).orxChain k = d.orxChain k := by
  have hcaps : (d.setLine l b).orxCaps k = d.orxCaps k := rfl
  unfold Dev.orxChain
  rw [hcaps, Dev.feNow_setLine, Dev.rf_setLine, (d.caps_setLine l b).2.1]
theorem Dev.lineActive_setLine (m : Nat) : (d.setLine l b).lineActive m = d.lineActive m := by
  obtain ⟨-, -, hstr, hcal, -⟩ := d.caps_setLine l b
  unfold Dev.lineActive
  simp only [hstr, hcal, Dev.rf_setLine, Dev.feNow_setLine, Dev.patActive_setLine, Dev.orxChain_setLine]
  rfl
end

end Sys2Proof.Machine

/-! SUPPORT. Converter links: enables, SYSREF, lanes, remaps (R252-R257). -/

namespace Sys2Proof.Machine

/-! ### Enables (R254, R257) -/

section
variable {d : Dev} {init : Initiator} {off value cmds : Nat} {f : Fld} {bad : Dev → Bool} (hr : (d.busWr init off value).2 = .yes cmds)
include hr
theorem Dev.enableWr_same (h : d.flag f = (d.busWr init off value).1.flag f) : d.enableWr init off value f bad = ((d.busWr init off value).1, false) := by
  unfold Dev.enableWr
  dsimp only
  rw [hr]
  exact if_pos (by rw [h]; exact beq_self_eq_true _)
theorem Dev.enableWr_changes (h : d.flag f ≠ (d.busWr init off value).1.flag f) (hb : bad (d.busWr init off value).1 = false) :
    d.enableWr init off value f bad = ((d.busWr init off value).1, true) := by
  unfold Dev.enableWr
  dsimp only
  rw [hr]
  refine (if_neg fun hs => h (beq_iff_eq.1 hs)).trans (if_neg ?_)
  rw [hb, Bool.and_false]
  exact Bool.false_ne_true
end
theorem Dev.jesdCtlWr_same {d : Dev} {init : Initiator} {u value cmds : Nat} (hr : (d.busWr init (jReg u 0) value).2 = .yes cmds)
    (h : d.flag (jesdEnable u) = (d.busWr init (jReg u 0) value).1.flag (jesdEnable u)) : d.jesdCtlWr init u value = (d.busWr init (jReg u 0) value).1 := by
  rw [Dev.jesdCtlWr, Dev.enableWr_same hr h]
  rfl
theorem Dev.jesdCtlWr_switches {d : Dev} {init : Initiator} {u value cmds : Nat} (hr : (d.busWr init (jReg u 0) value).2 = .yes cmds)
    (h : d.flag (jesdEnable u) ≠ (d.busWr init (jReg u 0) value).1.flag (jesdEnable u)) : d.jesdCtlWr init u value = (d.busWr init (jReg u 0) value).1.unitSwitch u := by
  rw [Dev.jesdCtlWr, Dev.enableWr_changes hr h rfl]
  rfl

/-! ### SYSREF (R253, R254) -/

theorem Tab.find_puts {β : Type} (v : β) (l : List Nat) : ∀ (t : Tab β) (k : Nat), Tab.find (l.foldl (fun t u => Tab.put t u v) t) k = if k ∈ l then some v else Tab.find t k := by
  induction l with
  | nil => exact fun t k => (if_neg List.not_mem_nil).symm
  | cons u l ih =>
    intro t k
    rw [List.foldl_cons, ih, Tab.find_put]
    by_cases hl : k ∈ l
    · rw [if_pos hl, if_pos (List.mem_cons_of_mem _ hl)]
    · rw [if_neg hl]
      by_cases hu : k = u
      · rw [if_pos hu, if_pos (hu ▸ List.mem_cons_self)]
      · rw [if_neg hu, if_neg fun h => (List.mem_cons.1 h).elim hu hl]
/-- The units whose LEMC waits for an edge (R253). -/
def Dev.lemcWaits (d : Dev) : List Nat := (upTo 10).filter fun u => d.flag (jesdEnable u) && (Tab.find d.dfe.lemc u).isNone
theorem Dev.mem_lemcWaits {d : Dev} {u : Nat} (h : u < 10) : u ∈ d.lemcWaits ↔ d.flag (jesdEnable u) = true ∧ Tab.find d.dfe.lemc u = none := by
  rw [Dev.lemcWaits, List.mem_filter, Bool.and_eq_true, Option.isNone_iff_eq_none]
  exact and_iff_right (List.mem_range.2 h)
theorem Dev.dfe_wf (d : Dev) (f : Fld) (v : Nat) : (d.wf f v).dfe = d.dfe := rfl
theorem Dev.dfe_putTime (d : Dev) (f : Nat → Fld) (t : Nat) : (d.putTime f t).dfe = d.dfe := foldl_keeps (p := fun e => e.dfe) (fun e i _ => e.dfe_wf (f i) _) d
/-- The device with the stamp of an edge at `t` as the first (R253). -/
def Dev.stamped (d : Dev) (t : Nat) : Dev := { d.putTime DFE_SYSREF_TIME_i_TIME t with dfe.epoch := some (t, t), dfe.checkAt := t }
theorem Dev.stamped_keeps (d : Dev) (t : Nat) : (d.stamped t).dfe.epoch = some (t, t) ∧ (d.stamped t).dfe.lemc = d.dfe.lemc :=
  ⟨rfl, congrArg (·.lemc) (d.dfe_putTime DFE_SYSREF_TIME_i_TIME t)⟩
/-- The device with other LEMC phases. -/
def Dev.withLemc (d : Dev) (t : Tab Nat) : Dev := { d with dfe.lemc := t }
theorem Dev.withLemc_keeps (d : Dev) (t : Tab Nat) : (d.withLemc t).dfe.epoch = d.dfe.epoch ∧ (d.withLemc t).dfe.lemc = t := ⟨rfl, rfl⟩
theorem sysrefEdge_none {s : State} {ticks : Nat} (h : (s.dev.advanceTo (s.dev.now + tickT ticks)).anyUnit = false) :
    exec (.sysrefEdge ticks) s = .next (s.on (s.dev.advanceTo (s.dev.now + tickT ticks))) := next_on (if_pos (congrArg not h))
theorem sysrefEdge_aligns {s : State} {ticks t : Nat} {d1 : Dev} (ht : t = s.dev.now + tickT ticks) (hd1 : d1 = s.dev.advanceTo t) (h : d1.anyUnit = true) :
    ∃ (i : Nat) (e : Dev), exec (.sysrefEdge ticks) s = .next (s.on (e.withLemc (s.dev.lemcWaits.foldl (fun l u => Tab.put l u i) e.dfe.lemc))) ∧
      e.dfe = (match d1.dfe.epoch with | some _ => d1 | none => d1.stamped t).dfe := by
  subst ht hd1
  refine ⟨_, _, next_on (if_neg ?_), ?_⟩
  · rw [h]
    decide
  · cases (s.dev.advanceTo (s.dev.now + tickT ticks)).dfe.epoch with
    | none =>
      dsimp only
      split
      · exact Dev.dfe_bumpBy _ _ _
      · rfl
    | some x =>
      dsimp only
      split
      · exact Dev.dfe_bumpBy _ _ _
      · rfl

/-! ### A link comes up (R254, R255) -/

theorem Dev.flag_lost (d : Dev) (l : List (Nat × Nat)) (f : Fld) : ({ d with dfe.lost := l } : Dev).flag f = d.flag f := rfl
theorem Dev.lost_lost (d : Dev) (l : List (Nat × Nat)) : ({ d with dfe.lost := l } : Dev).dfe.lost = l := rfl
theorem linkUp_pending {u i : Nat} (h : i < 12) {d : Dev} (b : Bool) : (d.setFlag (jPending u) b).flag (linkUpF u i) = d.flag (linkUpF u i) :=
  d.flag_wf_field (f := jPending u) (g := linkUpF u i) _ (by decide : 12 + 1 ≤ 32) (Or.inr (by show i + 1 ≤ 12; omega))
section
variable {d : Dev} {u i a : Nat} (hlemc : Tab.find d.dfe.lemc u = some a) (h4 : 4 ≤ u) (hruns : d.unitRuns u = true) (hi : i < unitLinks u (d.jRate u)) (hi12 : i < 12)
  (hdown : d.flag (linkUpF u i) = false)
  (hlanes : (((upTo (linkLanes (d.jRate u))).map fun j => d.unitLane u (i * linkLanes (d.jRate u) + j)).all fun x => d.domRun (laneDom x) && d.flag (ZTH_Li_STS_CDR_LOCK x)) = true)
include hlemc h4 hruns hi hi12 hdown hlanes
theorem Dev.linkUp_up : (d.linkUp u i).flag (linkUpF u i) = true ∧ (d.linkUp u i).dfe.lost.contains (u, i) = false := by
  have hgo : ¬ (decide (u < 4) || !d.unitRuns u || decide (unitLinks u (d.jRate u) ≤ i) || d.flag (linkUpF u i) ||
      !((upTo (linkLanes (d.jRate u))).map fun j => d.unitLane u (i * linkLanes (d.jRate u) + j)).all fun x => d.domRun (laneDom x) && d.flag (ZTH_Li_STS_CDR_LOCK x)) = true := by
    rw [hruns, hdown, hlanes, decide_eq_false (Nat.not_lt.2 h4), decide_eq_false (Nat.not_le.2 hi)]
    decide
  unfold Dev.linkUp
  rw [hlemc]
  dsimp -zeta only
  extract_lets rate lanes edge d0 d1 e1 l1 d2
  rw [if_neg hgo]
  have h1 : d1.flag (linkUpF u i) = true := Dev.flag_setFlag_same _ (linkUpF u i) true (by show i + 1 ≤ 32; omega) rfl
  clear_value d1
  have hne : (linkUpF u i).off ≠ (jCount u 8).off := by
    show jReg u 5 ≠ jReg u 8
    unfold jReg
    omega
  have hbump : (d1.bump (jCount u 8)).flag (linkUpF u i) = d1.flag (linkUpF u i) := Dev.flag_wf_other d1 _ hne
  have h2 : d2.flag (linkUpF u i) = true ∧ d2.dfe.lost.contains (u, i) = false := by
    dsimp only [d2]
    split
    · refine ⟨(Dev.flag_lost (d1.bump (jCount u 8)) _ _).trans (hbump.trans h1), ?_⟩
      rw [Dev.lost_lost (d1.bump (jCount u 8)), List.contains_eq_mem, decide_eq_false_iff_not]
      exact fun hm => by simpa using (List.mem_filter.1 hm).2
    · next hnot => exact ⟨h1, Bool.eq_false_iff.2 hnot⟩
  clear_value d2
  split
  · exact ⟨(linkUp_pending hi12 false).trans h2.1, h2.2⟩
  · exact h2
end

/-! ### Remaps (R256) -/

/-- The state of the front end without its links' spans and its control lines. -/
def Dev.offSpans (d : Dev) : Dfe := { d.dfe with spans := [], lines := [] }
theorem Dev.offSpans_of_dfe {d e : Dev} (h : e.dfe = d.dfe) : e.offSpans = d.offSpans := by
  rw [Dev.offSpans, h, Dev.offSpans]
theorem Dev.offSpans_fields {d e : Dev} (h : e.offSpans = d.offSpans) : e.dfe.remaps = d.dfe.remaps ∧ e.dfe.spares = d.dfe.spares := ⟨congrArg (·.remaps) h, congrArg (·.spares) h⟩
section
variable (d : Dev)
theorem Dev.offSpans_setFlag (f : Fld) (b : Bool) : (d.setFlag f b).offSpans = d.offSpans := rfl
theorem Dev.offSpans_linkEnds (u i : Nat) : (d.linkEnds u i).offSpans = d.offSpans := rfl
theorem Dev.offSpans_setLine (l : Nat) (b : Bool) : (d.setLine l b).offSpans = d.offSpans := rfl
theorem Dev.offSpans_linksDown (u : Nat) : (d.linksDown u).offSpans = d.offSpans :=
  foldl_keeps (p := Dev.offSpans) (fun e i _ => (Dev.offSpans_setFlag _ _ _).trans (e.offSpans_linkEnds u i)) d
theorem Dev.dfe_zth (z : Zth) : ({ d with zth := z } : Dev).dfe = d.dfe := rfl
theorem Dev.dfe_setFlag (f : Fld) (b : Bool) : (d.setFlag f b).dfe = d.dfe := rfl
theorem Dev.dfe_event (a b c e f : Nat) : (d.event a b c e f).dfe = d.dfe := Dev.dfe_of_offAccess (Dev.offAccess_of_rest (d.rest_event a b c e f))
theorem Dev.dfe_setService (i : Nat) (b : Bool) : (d.setService i b).dfe = d.dfe := by
  unfold Dev.setService
  dsimp only
  split
  · rw [Dev.dfe_setFlag]
    split
    · rw [Dev.dfe_wf, Dev.dfe_wf, Dev.dfe_wf, Dev.dfe_setFlag]
    · rw [Dev.dfe_wf, Dev.dfe_wf, Dev.dfe_wf, Dev.dfe_wf, Dev.dfe_setFlag]
  · rw [Dev.dfe_setFlag, Dev.dfe_setFlag, Dev.dfe_setFlag]
theorem Dev.dfe_laneStart (i r : Nat) : (d.laneStart i r).1.dfe = d.dfe := by
  unfold Dev.laneStart
  split
  · next e _ =>
    extract_lets d1 d2
    have h1 : d1.dfe = d.dfe := rfl
    have h2 : d2.dfe = d1.dfe := by
      dsimp only [d2]
      split
      · rfl
      · exact d1.dfe_wf _ _
    clear_value d2 d1
    dsimp only
    split
    · exact h2.trans h1
    · exact (d2.dfe_wf _ _).trans (h2.trans h1)
  · split
    · rfl
    · extract_lets d1
      have h1 : d1.dfe = d.dfe := rfl
      clear_value d1
      split
      · exact h1
      · exact (Dev.dfe_event _ _ _ _ _ _).trans ((d1.dfe_zth _).trans h1)
theorem Dev.dfe_serviceOne (i : Nat) : (d.serviceOne i).dfe = d.dfe := by
  unfold Dev.serviceOne
  extract_lets h d1
  have h1 : d1.dfe = d.dfe := d.dfe_setService i h
  clear_value d1
  split
  · rfl
  · split
    · exact (d1.dfe_laneStart _ _).trans h1
    · exact h1
theorem Dev.dfe_spareStart (i : Nat) : (d.spareStart i).dfe = d.dfe := by
  unfold Dev.spareStart
  split
  · split
    · exact d.dfe_laneStart _ _
    · rfl
  · rfl
theorem Dev.offSpans_serviceSync : d.serviceSync.offSpans = d.offSpans := by
  refine (Dev.offSpans_of_dfe (foldl_keeps (p := fun e => e.dfe) (fun e i _ => e.dfe_spareStart i) _)).trans ?_
  refine (Dev.offSpans_of_dfe (foldl_keeps (p := fun e => e.dfe) (fun e i _ => e.dfe_serviceOne i) _)).trans ?_
  refine foldl_keeps (p := Dev.offSpans) (fun e u _ => ?_) d
  split
  · exact e.offSpans_linksDown u
  · rfl
end
theorem jesdEnable_mod (u : Nat) : (jesdEnable u).off % 0x40 = 0 := by
  unfold jesdEnable
  split
  · dsimp only [rDFE_Jg_CTL_TX]
    omega
  · split
    · dsimp only [rDFE_Jg_CTL_RX]
      omega
    · dsimp only [rDFE_Jk_CTL_OBS]
      omega
/-- Time moving on writes none of a unit's registers. -/
theorem Dev.flag_advanceTo (d : Dev) (t : Nat) {f : Fld} (h : f.off ≠ rTMU_INC_CTL) : (d.advanceTo t).flag f = d.flag f := by
  have hclock (e : Dev) (a b : Nat) : ({ e with now := a, cyc := b } : Dev).flag f = e.flag f := rfl
  have hbank : d.bankTick.flag f = d.flag f := by
    unfold Dev.bankTick
    split
    · rw [Dev.setFlag, Dev.flag_wf_other _ _ h, Dev.flag_wf_other _ _ h]
    · rfl
  unfold Dev.advanceTo Dev.ticks
  repeat' split
  · rfl
  · rfl
  · exact (hclock _ _ _).trans hbank
theorem jUse_off (u : Nat) : (jUse u).off ≠ rTMU_INC_CTL := by
  have h := jesdEnable_mod u
  show (jesdEnable u).off + 4 * 2 ≠ rTMU_INC_CTL
  dsimp only [rTMU_INC_CTL]
  omega
/-- The device with the remap of unit `u` acted on, its strobes up to `t` and its links lost (R256). -/
def Dev.remapped (d : Dev) (u t : Nat) (sp : Tab Nat) (lost : List (Nat × Nat)) : Dev :=
  { d with dfe.remaps := d.dfe.remaps.filter (·.1 != u), dfe.spares := sp, dfe.strobes := Tab.put d.dfe.strobes u t, dfe.lost := lost }
theorem Dev.remapped_keeps (d : Dev) (u t : Nat) (sp : Tab Nat) (lost : List (Nat × Nat)) :
    (d.remapped u t sp lost).dfe.remaps = d.dfe.remaps.filter (·.1 != u) ∧ (d.remapped u t sp lost).dfe.spares = sp := ⟨rfl, rfl⟩
section
variable {d : Dev} {u v n k : Nat} (h : d.dfe.remaps.find? (·.1 == u) = some (v, n, k))
include h
theorem Dev.remap_done : (d.remap u).dfe.remaps.any (·.1 == u) = false ∧ (u < 4 → (d.remap u).flag (jPending u) = false) ∧
    (d.flag (jUse u) = false → Tab.find (d.remap u).dfe.spares u = none) := by
  unfold Dev.remap
  rw [h]
  dsimp -zeta only
  extract_lets t d1 sp down m d2 d3 relocks strobe
  obtain ⟨hrem, hsp⟩ := d1.remapped_keeps u (t + tickT 16) sp (down.map (u, ·) ++ d1.dfe.lost)
  have hd1 : d1.flag (jUse u) = d.flag (jUse u) := d.flag_advanceTo _ (jUse_off u)
  have h2 : d2.offSpans = (d1.remapped u (t + tickT 16) sp (down.map (u, ·) ++ d1.dfe.lost)).offSpans := rfl
  have h3 : d3.offSpans = d2.offSpans :=
    (Dev.offSpans_serviceSync _).trans (foldl_keeps (p := Dev.offSpans) (fun e i _ => (Dev.offSpans_setFlag _ _ _).trans (e.offSpans_linkEnds u i)) d2)
  have hs : strobe.offSpans = d3.offSpans := foldl_keeps (p := Dev.offSpans) (fun e l _ => by
    split
    · exact e.offSpans_setLine _ _
    · rfl) d3
  have hend : (if relocks then strobe else strobe.setFlag (jPending u) false).offSpans = strobe.offSpans := by
    split
    · rfl
    · exact strobe.offSpans_setFlag _ _
  obtain ⟨hr, hp⟩ := Dev.offSpans_fields (hend.trans (hs.trans (h3.trans h2)))
  have hsp' : d1.flag (jUse u) = false → sp = Tab.del d1.dfe.spares u := fun hoff => if_neg (Bool.eq_false_iff.1 hoff)
  have hrel : u < 4 → relocks = false := fun hu => (congrArg (· && d3.flag (jesdEnable u)) (decide_eq_false (Nat.not_le.2 hu))).trans (Bool.false_and _)
  clear_value strobe relocks d3 d2 sp d1
  refine ⟨?_, fun hu => ?_, fun hoff => ?_⟩
  · rw [hr, hrem, List.any_eq_false]
    intro x hx
    exact ne_true_of_eq_false (by simpa using (List.mem_filter.1 hx).2)
  · rw [hrel hu]
    exact Dev.flag_setFlag_same _ (jPending u) false (by decide : 12 + 1 ≤ 32) rfl
  · rw [hp, hsp, hsp' (hd1.trans hoff), Tab.find_del, if_pos rfl]
end

end Sys2Proof.Machine

/-! O48: the digital front end settled (R226-R258). -/

namespace Sys2Proof.Machine

/-! ### Symbols (R234) -/

section
variable {d d1 : Dev} {c l air tl slot : Nat} {e : Dev} {x : SymAt} (htl : d.rf (DFE_CCc_CFG_TIMELINE c) = tl)
  (he : e = d.asOf (d.rf (DFE_CCc_CFG_TIMELINE c)) (d.airK (d.rf (DFE_CCc_CFG_TIMELINE c)) air)) (hx : x = e.ccSym c air l)
  (hcc : e.ccOn c = true) (hstd : e.rf (DFE_CCc_CFG_STD c) < 2) (hok : e.symOk x = true)
include htl he hx hcc hstd hok
theorem Dev.txFetch_runs (hep : d.dfe.epoch.isSome = true) (his : e.symIs x (e.flag (DFE_CCc_CFG_TDD c)) (e.rf (DFE_CCc_CFG_PAT c)) 1 = true)
    (hany : ∃ p < e.rf (DFE_CCc_PORTS_COUNT c), d.domRun (36 + (e.rf (DFE_CCc_PORTS_FIRST c) + p) / 16) = true) {r : Dev × Option (List Byte)}
    (hr : r = ((d.advanceTo (d.feTime (e.symAir x - (tickT (d.rf DFE_TX_ADV) + usT 6)))).txDrainAll).busRead 12 (slot + 4 * l) 4) :
    d.txFetch c l air tl slot = if readyOk r.2 air l then r.1.txSend e c air slot x else if e.rf (DFE_CCc_GAIN c) = 0 then r.1 else r.1.bump (DFE_CCc_ZERO_SYM c) := by
  obtain ⟨p, hp, hdom⟩ := hany
  have hports : ((upTo (e.rf (DFE_CCc_PORTS_COUNT c))).any fun p => d.domRun (36 + (e.rf (DFE_CCc_PORTS_FIRST c) + p) / 16)) = true :=
    List.any_eq_true.2 ⟨p, List.mem_range.2 hp, hdom⟩
  have hgo : ¬ (d.dfe.epoch.isNone || d.rf (DFE_CCc_CFG_TIMELINE c) != tl || !e.ccOn c || decide (2 ≤ e.rf (DFE_CCc_CFG_STD c)) || !e.symOk x ||
      !e.symIs x (e.flag (DFE_CCc_CFG_TDD c)) (e.rf (DFE_CCc_CFG_PAT c)) 1 ||
      !(upTo (e.rf (DFE_CCc_PORTS_COUNT c))).any fun p => d.domRun (36 + (e.rf (DFE_CCc_PORTS_FIRST c) + p) / 16)) = true := by
    rw [hports, his, hok, hcc, htl, bne_self_eq_false, decide_eq_false (Nat.not_le.2 hstd), Option.isNone_eq_false_iff.2 hep]
    decide
  subst he hx hr
  exact if_neg hgo
omit he hx hcc hstd hok htl in
theorem Dev.txFetch_not (h : d.dfe.epoch = none ∨ d.rf (DFE_CCc_CFG_TIMELINE c) ≠ tl) : d.txFetch c l air tl slot = d := by
  refine if_pos ?_
  rcases h with h | h
  · rw [h]
    rfl
  · rw [bne_iff_ne.2 h, Bool.or_true]
    rfl
end

theorem Dev.rxSymbol_exps {d e : Dev} {c l air slot : Nat} {x : SymAt} {inputs : List (List (BitVec 24))}
    (he : e = d.asOf (d.rf (DFE_CCc_CFG_TIMELINE c)) (d.airK (d.rf (DFE_CCc_CFG_TIMELINE c)) air)) (hx : x = e.ccSym c air l)
    (hcc : e.ccOn c = true) (hstd : e.rf (DFE_CCc_CFG_STD c) < 2) (hok : e.symOk x = true) (his : e.symIs x (e.flag (DFE_CCc_CFG_TDD c)) (e.rf (DFE_CCc_CFG_PAT c)) 2 = true)
    (hall : ∀ p < e.rf (DFE_CCc_PORTS_COUNT c), d.domRun (40 + (e.rf (DFE_CCc_PORTS_FIRST c) + p) / 16) = true) {p : Nat} (hp : p < e.rf (DFE_CCc_PORTS_COUNT c)) :
    (Tab.find (d.rxSymbol c l air slot inputs).dfe.exps (64 * c + p)).map (·.1) = some x.k := by
  have hports : ((upTo (e.rf (DFE_CCc_PORTS_COUNT c))).all fun p => d.domRun (40 + (e.rf (DFE_CCc_PORTS_FIRST c) + p) / 16)) = true :=
    List.all_eq_true.2 fun p hp => hall p (List.mem_range.1 hp)
  have hgo : ¬ (!e.ccOn c || decide (2 ≤ e.rf (DFE_CCc_CFG_STD c)) || !e.symOk x || !e.symIs x (e.flag (DFE_CCc_CFG_TDD c)) (e.rf (DFE_CCc_CFG_PAT c)) 2 ||
      !(upTo (e.rf (DFE_CCc_PORTS_COUNT c))).all fun p => d.domRun (40 + (e.rf (DFE_CCc_PORTS_FIRST c) + p) / 16)) = true := by
    rw [hports, his, hok, hcc, decide_eq_false (Nat.not_le.2 hstd)]
    decide
  unfold Dev.rxSymbol
  extract_lets n e' x' count b d1 r job w1 w2 w3
  have hee : e' = e := he.symm
  clear_value e'
  subst hee
  have hxx : x' = x := hx.symm
  have hr : (Tab.find r.1.dfe.exps (64 * c + p)).map (·.1) = some x'.k := e'.rxPorts_exps c x' _ _ _ _ (d1, [], []) p (Or.inl (List.mem_range.2 hp))
  have h1 : w1.1.dfe = r.1.dfe := Dev.dfe_of_offAccess (Dev.offAccess_busWrite _ _ _ _ _)
  clear_value r x'
  subst hxx
  have h2 : w2.1.dfe = w1.1.dfe := Dev.dfe_of_offAccess (Dev.offAccess_busWrite _ _ _ _ _)
  clear_value w1
  have h3 : w3.dfe = w2.1.dfe := w2.1.dfe_fdCapture _ _ _ _ _
  clear_value w2
  have hw : w3.dfe.exps = r.1.dfe.exps := congrArg (·.exps) (h3.trans (h2.trans h1))
  clear_value w3
  rw [if_neg hgo]
  split
  · rw [Dev.dfe_of_offAccess (w3.offAccess_raiseEvent _ _ _), hw]
    exact hr
  · rw [hw]
    exact hr

/-! ### PRACH (R247) -/

theorem Dev.prachStart_runs {d e : Dev} {x c n m ph k : Nat} (hc : c = d.rf (DFE_PRACH_x_CFG_CC x)) (hn : n = d.rf (DFE_CCc_CFG_TIMELINE c)) (hm : m = d.rf (DFE_PRACH_x_REP_MOD x))
    (hph : ph = d.rf (DFE_PRACH_x_REP_PHASE x)) (hk : k = d.nextPhase n m ph (d.reg (rDFE_PRACH_x_START x) : Nat)) (he : e = d.prachConf x k)
    (hen : d.flag (DFE_PRACH_x_CTL_ENABLE x) = true) (hcc : d.ccOn c = true) (htl : d.flag (TMU_TLn_CTL_ENABLE n) = true) (hdom : d.domRun (40 + x / 8) = true) (hlt : ph < m)
    (hen' : e.flag (DFE_PRACH_x_CTL_ENABLE x) = true) (hcc' : e.ccOn (e.rf (DFE_PRACH_x_CFG_CC x)) = true)
    (hrep : k % max 1 (e.rf (DFE_PRACH_x_REP_MOD x)) = e.rf (DFE_PRACH_x_REP_PHASE x)) :
    d.prachStart x = (d.advanceTo (d.feTime (d.phaseTime n k (e.reg (rDFE_PRACH_x_START x) : Nat)))).withPrach (d.dfe.prach ++ [(x, k)]) := by
  have hgo : ¬ (!d.flag (DFE_PRACH_x_CTL_ENABLE x) || !d.ccOn c || !d.flag (TMU_TLn_CTL_ENABLE n) || !d.domRun (40 + x / 8) || decide (m ≤ ph)) = true := by
    rw [hen, hcc, htl, hdom, decide_eq_false (Nat.not_le.2 hlt)]
    decide
  have hgo' : ¬ (!e.flag (DFE_PRACH_x_CTL_ENABLE x) || !e.ccOn (e.rf (DFE_PRACH_x_CFG_CC x)) || k % max 1 (e.rf (DFE_PRACH_x_REP_MOD x)) != e.rf (DFE_PRACH_x_REP_PHASE x)) = true := by
    rw [hen', hcc', hrep, bne_self_eq_false]
    decide
  subst hc hn hm hph hk he
  refine (if_neg hgo).trans ((if_neg hgo').trans ?_)
  rw [← Dev.dfe_advanceTo d]
  rfl

/-! ### Event entries (R250) -/

theorem Dev.gevAct_acts {d c : Dev} {e n k line t : Nat} (hn : n = d.rf (DFE_GEV_e_CFG_TIMELINE e))
    (hk : k = d.nextPhase n (d.rf (DFE_GEV_e_REP_MOD e)) (d.rf (DFE_GEV_e_REP_PHASE e)) (toSigned 32 (d.reg (rDFE_GEV_e_OFFSET e)))) (hc : c = d.asOf n k)
    (hline : line = c.rf (DFE_GEV_e_CFG_LINE e)) (ht : t = d.phaseTime n k (toSigned 32 (c.reg (rDFE_GEV_e_OFFSET e)))) (htl : d.flag (TMU_TLn_CTL_ENABLE n) = true)
    (hdom : d.domOn 78 = true) (hen : c.flag (DFE_GEV_e_CTL_ENABLE e) = true) (hmode : c.rf (DFE_GPIO_l_CFG_MODE line) = 2)
    (hlt : c.rf (DFE_GEV_e_REP_PHASE e) < c.rf (DFE_GEV_e_REP_MOD e)) (hrep : k % c.rf (DFE_GEV_e_REP_MOD e) = c.rf (DFE_GEV_e_REP_PHASE e)) (hnow : d.feNow ≤ t)
    (hpark : d.pmu.park = none) (hgev : Tab.find d.dfe.gev line = none) {d1 : Dev} (hd1 : d1 = d.advanceTo (d.feTime t)) :
    d.gevAct e = { d1.setLine line (c.flag (DFE_GEV_e_CFG_LEVEL e)) with dfe.gev := Tab.put d1.dfe.gev line (t, e) } := by
  have hgo : ¬ (!d.flag (TMU_TLn_CTL_ENABLE n) || !d.domOn 78) = true := by
    rw [htl, hdom]
    decide
  have hmax : max 1 (c.rf (DFE_GEV_e_REP_MOD e)) = c.rf (DFE_GEV_e_REP_MOD e) := Nat.max_eq_right (by omega)
  have hgo' : ¬ (!c.flag (DFE_GEV_e_CTL_ENABLE e) || c.rf (DFE_GPIO_l_CFG_MODE line) != 2 || decide (c.rf (DFE_GEV_e_REP_MOD e) ≤ c.rf (DFE_GEV_e_REP_PHASE e)) ||
      k % max 1 (c.rf (DFE_GEV_e_REP_MOD e)) != c.rf (DFE_GEV_e_REP_PHASE e) || decide (t < d.feNow)) = true := by
    rw [hen, hmode, hmax, hrep, decide_eq_false (Nat.not_le.2 hlt), decide_eq_false (Nat.not_lt.2 hnow)]
    simp only [bne_self_eq_false]
    decide
  have hheld : d1.linesHeld = false := by
    rw [hd1, Dev.linesHeld, Dev.pmu_advanceTo, hpark]
    rfl
  have hgev1 : Tab.find d1.dfe.gev line = none := by
    rw [hd1, Dev.dfe_advanceTo, hgev]
  unfold Dev.gevAct
  extract_lets n' ofs k' c' line' m' t' d1' later
  have hn' : n' = n := hn.symm
  clear_value n'
  subst hn'
  have hk' : k' = k := hk.symm
  clear_value k'
  subst hk'
  have hc' : c' = c := hc.symm
  clear_value c'
  subst hc'
  have hl' : line' = line := hline.symm
  have ht' : t' = t := ht.symm
  clear_value line' t'
  subst hl' ht'
  have hd1' : d1' = d1 := hd1.symm
  clear_value d1'
  subst hd1'
  rw [if_neg hgo, if_neg hgo']
  refine if_neg ?_
  rw [hheld]
  dsimp only [later]
  rw [hgev1]
  exact Bool.false_ne_true

/-! ### Ticks against TMU time (R226) -/

theorem satSigned_self {x : Int} (h1 : x ≤ 32767) (h2 : -32768 ≤ x) : satSigned 16 x = x := by
  unfold satSigned
  rw [if_neg (by omega), if_neg (by omega)]
/-- The device with its ticks checked now: stamped at `a`, and since then `e` (R226). -/
def Dev.ticksChecked (d : Dev) (a e : Nat) : Dev := { d with dfe.epoch := some (a, e), dfe.checkAt := d.now }
theorem Dev.timeCheck_quiet {d d0 d1 : Dev} {drift diff : Int} {a e e0 : Nat} (hep : d.dfe.epoch = some (a, e0))
    (he : e = if 0 ≤ drift then e0 - tickT drift.toNat else e0 + tickT (-drift).toNat)
    (hd0 : d0 = d.advanceTo (d.dfe.checkAt + msT 1)) (hd1 : d1 = d0.ticksChecked a e)
    (hdiff : diff = roundDiv (((a : Int) - e) * 1536) (3125 * 2 ^ 32)) (h1 : diff ≤ 32767) (h2 : -32768 ≤ diff) :
    d.timeCheck drift [] = if 2 < diff.natAbs then (d1.wf DFE_TIME_ERR (ofSigned 16 diff)).event 2 2 (ofSigned 32 diff) 0 0 else d1.wf DFE_TIME_ERR (ofSigned 16 diff) := by
  unfold Dev.timeCheck
  rw [hep]
  dsimp -zeta only
  extract_lets d0' e' m d1' diff' f d2 d3
  have hd0' : d0' = d0 := hd0.symm
  clear_value d0'
  subst hd0'
  have he' : e' = e := he.symm
  clear_value e'
  subst he'
  have hd1' : d1' = d1 := hd1.symm
  clear_value d1'
  subst hd1'
  have hdiff' : diff' = diff := hdiff.symm
  clear_value diff'
  subst hdiff'
  have h3 : d3 = d1'.wf DFE_TIME_ERR (ofSigned 16 diff') := if_pos (satSigned_self h1 h2)
  rw [h3]

/-! ### Observation captures and links -/

theorem orxCaptureDone_takes {s : State} {k : Fin 8} {seen : List (BitVec 24)} {x : OrxCap} {rest : List OrxCap} {d0 d1 : Dev} {lat : Nat} (h : s.dev.orxCaps k = x :: rest)
    (hlat : lat = s.dev.rf (DFE_ORX_k_LAT k)) (hd0 : d0 = ((s.dev.advanceTo (s.dev.feTime (x.start + txT (x.len + lat)))).txDrainAll).setOrxCaps k rest)
    (hd1 : d1 = { d0 with dfe.orxSel := Tab.setD (fun _ => 0) d0.dfe.orxSel k x.chain }) :
    (d1.domRun (36 + x.chain / 16) = false → exec (.orxCaptureDone k seen) s = .next (s.on (d1.bump (DFE_ORX_k_REFUSED k)))) ∧
    (d1.domRun (36 + x.chain / 16) = true →
      let xy (j : Nat) : Smp × Smp := Tab.getD (fun _ => ((0, 0), (0, 0))) (d1.txChan x.chain).hist (d1.txAt x.start + j)
      let obs (j : Nat) : Smp := if d1.linkLive (8 + k.val / 4) 0 (x.start + txT (j + lat)) = true then unpackSmp (nth 0 seen (j + lat)).toNat else (0, 0)
      let l := upTo x.len
      let keep := d1.cal.got.filter fun c => d1.calRunning 0 c.chain
      let d2 : Dev := { d1 with cal.got := if x.len = 16384 ∧ d1.calRunning 0 x.chain = true then
        keep ++ [⟨x.chain, x.start, l.map fun j => (xy j).1, l.map obs⟩] else keep }
      exec (.orxCaptureDone k seen) s = .next (s.on <| (d2.busWrite 12 none x.dst (l.flatMap (fun j => packSmp (obs j)) ++
        l.flatMap (fun j => packSmp (xy j).1) ++ l.flatMap fun j => packSmp (xy j).2)).1.bump (DFE_ORX_k_CAPS k))) := by
  subst hlat hd0
  refine ⟨fun hoff => next_on ?_, fun hon => ?_⟩
  · dsimp -zeta only
    rw [h]
    dsimp only
    rw [← hd1]
    exact if_pos (congrArg not hoff)
  · intro xy obs l keep d2
    refine next_on ?_
    dsimp -zeta only
    rw [h]
    dsimp -zeta only
    extract_lets lat' d0' m' d1'
    have hd1' : d1' = d1 := hd1.symm
    clear_value d1'
    subst hd1'
    exact if_neg (by rw [hon]; decide)
theorem Dev.sysref_epoch {d e : Dev} {t : Nat} (h : e.dfe = (match d.dfe.epoch with | some _ => d | none => d.stamped t).dfe) :
    (d.dfe.epoch = none → e.dfe.epoch = some (t, t)) ∧ (∀ x, d.dfe.epoch = some x → e.dfe.epoch = some x) ∧ e.dfe.lemc = d.dfe.lemc := by
  obtain ⟨hep, hlemc⟩ := d.stamped_keeps t
  cases hd : d.dfe.epoch with
  | none =>
    rw [hd] at h
    exact ⟨fun _ => (congrArg (·.epoch) h).trans hep, fun _ hx => (Option.some_ne_none _ hx.symm).elim, (congrArg (·.lemc) h).trans hlemc⟩
  | some x =>
    rw [hd] at h
    exact ⟨fun hx => (Option.some_ne_none _ hx).elim, fun y hy => (congrArg (·.epoch) h).trans (hd.trans hy), congrArg (·.lemc) h⟩

/-- Settles O48: the rows of the digital front end. -/
theorem frontEndRules : Obligations.FrontEndRules := by
  intro s
  refine ⟨?_, ?_, ?_, ?_, ?_, ?_, ?_, ?_, ?_, ?_, ?_, ?_, ?_, ?_, ?_, ?_, ?_⟩
  · intro init c value cmds f r hr
    refine ⟨fun h0 h1 hb => next_on (Dev.enableWr_refused hr h0 h1 ?_), fun h => next_on (Dev.enableWr_taken hr ?_)⟩
    · rcases hb with hb | hb
      · exact Bool.or_eq_true_iff.2 (.inl hb)
      · exact Bool.or_eq_true_iff.2 (.inr (by simpa using hb))
    · rcases h with h | h | ⟨h1, h2⟩
      · exact .inl h
      · exact .inr (.inl h)
      · exact .inr (.inr (Bool.or_eq_false_iff.2 ⟨h1, by simpa using h2⟩))
  · intro c l air tl central off d slot n e x r hep htl hcc hstd hok his hany
    have hgo := Dev.txFetch_runs (slot := slot) htl (e := e) rfl (x := x) rfl hcc hstd hok hep his hany (r := r) rfl
    exact ⟨fun h => next_on (hgo.trans (if_pos h)), fun h hg => next_on (hgo.trans ((if_neg (Bool.eq_false_iff.1 h)).trans (if_neg hg))),
      fun h hg => next_on (hgo.trans ((if_neg (Bool.eq_false_iff.1 h)).trans (if_pos hg)))⟩
  · exact fun c l air tl central off h => next_on (Dev.txFetch_not h)
  · intro c l air slot inputs d n e x hcc hstd hok his hall
    exact nextAnd_act ⟨rfl, fun p hp _ => Dev.rxSymbol_exps rfl rfl hcc hstd hok his hall hp⟩
  · intro x c n m ph ofs k e hen hcc htl hdom hlt hen' hcc' hrep
    exact next_on (Dev.prachStart_runs rfl rfl rfl rfl rfl rfl hen hcc htl hdom hlt hen' hcc' hrep)
  · exact fun x k inputs h => ⟨nextAnd_act (Dev.prachDone_gone h), fun hoff => next_on (Dev.prachDone_off h hoff)⟩
  · intro chain start len dst k
    refine ⟨fun h => next_on (if_pos ?_), fun hdom hroom => ?_⟩
    · rcases h with h | h
      · rw [h]
        rfl
      · rw [decide_eq_true h, Bool.or_true]
    · have hgo : ¬ (!s.dev.domRun (36 + chain.val / 16) || decide (4 ≤ (s.dev.orxCaps k).length)) = true := by
        rw [hdom, decide_eq_false (Nat.not_le.2 hroom)]
        decide
      refine ⟨fun h0 => next_on ((if_neg hgo).trans (if_pos h0)), fun h0 => ⟨fun hnil => next_on ((if_neg hgo).trans ((if_neg h0).trans ?_)),
        fun x hx => next_on ((if_neg hgo).trans ((if_neg h0).trans ?_))⟩⟩
      · rw [show s.dev.orxCaps (chain.val / 8) = [] from hnil]
        exact congrArg (fun t => s.dev.setOrxCaps k [⟨chain, t, len, dst.toNat⟩]) (Nat.max_eq_left (Nat.zero_le _))
      · rw [show (s.dev.orxCaps (chain.val / 8)).getLast? = some x from hx]
  · intro k seen x rest h lat d0 d1
    exact orxCaptureDone_takes h rfl rfl rfl
  · intro l ns h3 h6 hdom hpark
    refine nextAnd_act ?_
    have hout : ¬ (s.dev.rf (DFE_GPIO_l_CFG_MODE l) < 2 ∨ 6 < s.dev.rf (DFE_GPIO_l_CFG_MODE l) ∨ (!s.dev.domOn 78) = true) := by
      rw [hdom]
      simp
      omega
    have h2 : ¬ s.dev.rf (DFE_GPIO_l_CFG_MODE l) = 2 := by omega
    have hheld : (s.dev.advanceTo (s.dev.now + nsT ns)).linesHeld = false := by
      rw [Dev.linesHeld, Dev.pmu_advanceTo, hpark]
      rfl
    have hlines : (s.dev.advanceTo (s.dev.now + nsT ns)).dfe = s.dev.dfe := s.dev.dfe_advanceTo _
    rw [State.on_dev]
    dsimp only
    rw [if_neg hout, if_neg (Bool.eq_false_iff.1 hheld), if_neg h2, Dev.lineActive_setLine, Dev.flag_setLine, Dev.lines_setLine, if_pos rfl]
    refine ⟨rfl, fun k hk => ?_⟩
    rw [Dev.lines_setLine, if_neg hk, hlines]
  · intro e d n k c line t htl hdom hen hmode hlt hrep hnow hpark hgev
    exact next_on (Dev.gevAct_acts rfl rfl rfl rfl rfl htl hdom hen hmode hlt hrep hnow hpark hgev rfl)
  · intro drift rx h
    refine next_on (?_ : s.dev.timeCheck _ _ = s.dev)
    unfold Dev.timeCheck
    rw [h]
  · intro drift a e0 hep d0 e d1 diff h1 h2
    have hgo := Dev.timeCheck_quiet hep (e := e) rfl (d0 := d0) rfl (d1 := d1) rfl (diff := diff) rfl h1 h2
    exact ⟨fun h => next_on (hgo.trans (if_neg (Nat.not_lt.2 h))), fun h => next_on (hgo.trans (if_pos h))⟩
  · intro init u value cmds r hr
    exact ⟨fun h => next_on (Dev.jesdCtlWr_same hr h), fun h => next_on (Dev.jesdCtlWr_switches hr h)⟩
  · intro ticks t d1
    refine ⟨fun h => sysrefEdge_none h, fun h => ?_⟩
    obtain ⟨i, e, hgo, he⟩ := sysrefEdge_aligns (t := t) rfl (d1 := d1) rfl h
    obtain ⟨hnone, hsome, hlemc⟩ := Dev.sysref_epoch he
    obtain ⟨hep, hl⟩ := e.withLemc_keeps (s.dev.lemcWaits.foldl (fun l u => Tab.put l u i) e.dfe.lemc)
    have hl0 : e.dfe.lemc = s.dev.dfe.lemc := hlemc.trans (congrArg (·.lemc) (s.dev.dfe_advanceTo t))
    refine ⟨_, hgo, fun h0 => hep.trans (hnone h0), fun x hx => hep.trans (hsome x hx), fun u hu hen => ?_, fun u hu x hx => ?_⟩
    · rw [State.on_dev, hl, Tab.find_puts, hl0]
      split
      · rfl
      · next hnot =>
        rw [Dev.mem_lemcWaits hu, not_and] at hnot
        exact Option.isSome_iff_ne_none.2 (hnot hen)
    · rw [State.on_dev, hl, Tab.find_puts, hl0, if_neg, hx]
      rw [Dev.mem_lemcWaits hu, hx]
      exact fun hno => nomatch hno.2
  · intro u i a rate lanes h4 hruns hlemc hi hdown hlanes
    exact nextAnd_act (Dev.linkUp_up hlemc h4 hruns hi i.isLt hdown hlanes)
  · intro u lane sh crc locked i h4 hen hlane d1
    have hgo : ¬ (decide (u.val < 4) || !s.dev.flag (jesdEnable u) || decide ((unitLanes u).length ≤ lane.val)) = true := by
      rw [hen, decide_eq_false (Nat.not_lt.2 h4), decide_eq_false (Nat.not_le.2 hlane)]
      decide
    refine ⟨fun h => next_on ((if_neg hgo).trans (if_pos ?_)), fun hlock hup => next_on ((if_neg hgo).trans (if_neg ?_))⟩
    · rcases h with h | h
      · rw [h]
        rfl
      · rw [show s.dev.flag _ = false from h, Bool.not_false, Bool.or_true]
    · rw [hlock, show s.dev.flag _ = true from hup]
      exact Bool.false_ne_true
  · exact fun u v n k h => nextAnd_act (Dev.remap_done h)

end Sys2Proof.Machine

/-! SUPPORT. The registers an access of memory leaves alone (R308, R324, R339-R341). -/

namespace Sys2Proof.Machine

/-- Registers of the Zither's blocks that no access of memory writes: neither the counters of the Lyre's stops, which stand at the same
places of their blocks, nor those of the memories beyond. -/
def accessFree (o : Nat) : Prop := traceFree o ∧ 0x2000000 ≤ o ∧ o < 0x2800000 ∧ o % 0x40 ≠ 0x18 ∧ o % 0x40 ≠ 0x28 ∧ o % 0x40 ≠ 0x2C

/-- Only bookkeeping that holds no register changed. -/
theorem Dev.rf_mem (d : Dev) (m : Mem) (g : Fld) : ({ d with mem := m } : Dev).rf g = d.rf g := rfl
theorem Dev.rf_free (d : Dev) (n : Nat) (g : Fld) : ({ d with free := n } : Dev).rf g = d.rf g := rfl
theorem Dev.rf_lyrStats (d : Dev) (k bytes replays latency : Nat) (g : Fld) : (d.ringCount k bytes replays latency).rf g = d.rf g := rfl

section
variable {g : Fld} (hg : accessFree g.off) (d : Dev)
include hg
theorem Dev.rf_ddrErrLog (k a dev : Nat) (uncorr : Bool) : (d.ddrErrLog k a dev uncorr).rf g = d.rf g := by
  obtain ⟨-, -, hhi, -⟩ := hg
  rw [Dev.ddrErrLog, Dev.rf_wf_other _ _ _ _ (by dsimp only [rMEM_CHk_ERR_INFO]; omega), Dev.setFlag, Dev.rf_wf_other _ _ _ _ (by dsimp only [rMEM_CHk_ERR_INFO]; omega),
    Dev.rf_wf_other _ _ _ _ (by dsimp only [rMEM_CHk_ERR_INFO]; omega), Dev.rf_wf_other _ _ _ _ (by dsimp only [rMEM_CHk_ERR_ADDR]; omega)]
theorem Dev.rf_memError (a dev : Nat) (uncorr : Bool) : (d.memError a dev uncorr).rf g = d.rf g := by
  have hlog (k x : Nat) := d.rf_ddrErrLog hg k x dev uncorr
  obtain ⟨htrace, -, hhi, -⟩ := hg
  have hpoison (e : Dev) : (e.poisonAt a).rf g = e.rf g := e.rf_mem _ g
  unfold Dev.memError
  dsimp only
  split
  · split
    · rfl
    · split
      · rw [Dev.rf_health htrace, Dev.rf_bump_other _ _ _ (by dsimp only [rMEM_CHk_UE]; omega), hpoison, hlog]
      · rw [Dev.rf_bump_other _ _ _ (by dsimp only [rMEM_CHk_CE]; omega), hlog]
  · have hcbf (off : Nat) : ((d.wf CBF_ERR_ADDR_OFFSET off).setFlag CBF_ERR_ADDR_UNCORR uncorr).rf g = d.rf g := by
      rw [Dev.setFlag, Dev.rf_wf_other _ _ _ _ (by dsimp only [rCBF_ERR_ADDR]; omega), Dev.rf_wf_other _ _ _ _ (by dsimp only [rCBF_ERR_ADDR]; omega)]
    split
    · rw [Dev.rf_health htrace, Dev.rf_bump_other _ _ _ (by dsimp only [rCBF_UE]; omega), hpoison, hcbf]
    · rw [Dev.rf_bump_other _ _ _ (by dsimp only [rCBF_CE]; omega), hcbf]
  · rfl
theorem Dev.rf_lineRead (a : Nat) : (d.lineRead a).rf g = d.rf g := by
  unfold Dev.lineRead
  extract_lets l m d1 d2
  have hd1 : d1.rf g = d.rf g := d.rf_mem _ g
  have hd2 : d2.rf g = d.rf g := (d1.rf_free _ g).trans hd1
  clear_value d2 d1
  split
  · rfl
  · next flaw _ =>
    extract_lets told dev
    clear_value told
    cases told with
    | clean => exact hd1
    | corrected => exact (d1.rf_memError hg _ _ _).trans hd1
    | uncorrectable => exact (d1.rf_memError hg _ _ _).trans hd1
    | beyond =>
      dsimp only
      split
      · exact hd2
      · exact (d2.rf_memError hg _ _ _).trans hd2
      · exact (d2.rf_memError hg _ _ _).trans hd2
theorem Dev.rf_poisonRead (a n : Nat) {cnt : Fld} (hcnt : 0x2800000 ≤ cnt.off) : (d.poisonRead a n cnt).1.rf g = d.rf g := by
  have hlines : (d.linesRead a n).rf g = d.rf g := foldl_keeps (p := fun e => e.rf g) (fun e _ _ => e.rf_lineRead hg _) d
  obtain ⟨htrace, -, hhi, -⟩ := hg
  unfold Dev.poisonRead
  split
  · exact (Dev.rf_recSource htrace _ _).trans (Dev.rf_bump_other _ _ _ (by omega))
  · dsimp only
    split <;> exact hlines
theorem Dev.rf_offCount (st : Nat) : (d.offCount st).rf g = d.rf g := by
  obtain ⟨-, -, -, -, -, h2c⟩ := hg
  unfold Dev.offCount
  split
  · exact Dev.rf_bump_other _ _ _ (by dsimp only [rLYR_STOP_s_DOMAIN_OFF]; omega)
  · rfl
theorem Dev.rf_firewallLog (src : Nat) (wr rec_ : Bool) (a : Nat) : (d.firewallLog src wr rec_ a).rf g = d.rf g := by
  obtain ⟨-, -, hhi, -⟩ := hg
  have hne (o : Nat) (h : 0x2800000 ≤ o) : g.off ≠ o := by omega
  rw [Dev.firewallLog, Dev.setFlag, Dev.rf_wf_other _ _ _ _ (hne _ (by decide)), Dev.setFlag, Dev.rf_wf_other _ _ _ _ (hne _ (by decide)),
    Dev.rf_wf_other _ _ _ _ (hne _ (by decide)), Dev.rf_wf_other _ _ _ _ (hne _ (by decide)), Dev.rf_wf_other _ _ _ _ (hne _ (by decide)),
    Dev.rf_bump_other _ _ _ (hne _ (by decide))]
theorem Dev.rf_judgeAt (src : Nat) (wr : Bool) (job : Option (Nat × Nat)) (a n : Nat) : (d.judgeAt src wr job a n).1.rf g = d.rf g := by
  have hoff (st : Nat) := d.rf_offCount hg st
  have hfw (src : Nat) (r : Bool) := d.rf_firewallLog hg src wr r a
  have hpoison {cnt : Fld} (h : 0x2800000 ≤ cnt.off) := d.rf_poisonRead hg a n h
  obtain ⟨-, -, hhi, h18, -, -⟩ := hg
  have hstale (st : Nat) : (d.bump (LYR_STOP_s_STALE st)).rf g = d.rf g := Dev.rf_bump_other _ _ _ (by dsimp only [rLYR_STOP_s_STALE]; omega)
  unfold Dev.judgeAt
  dsimp only
  split
  · split
    · rfl
    · split
      · exact hoff _
      · split
        · rfl
        · split
          · exact hfw _ _
          · split
            · rfl
            · exact hpoison (by dsimp only [rMEM_CHk_POISON_RD]; omega)
  · split
    · exact hoff _
    · split
      · exact hfw _ _
      · split
        · split
          · exact hstale _
          · exact Dev.rf_bump_other _ _ _ (by dsimp only [rCBF_FREE_ACCESS]; omega)
        · split
          · exact hstale _
          · split
            · rfl
            · exact hpoison (by decide)
  · split
    · exact hoff _
    · split <;> rfl
  · split
    · exact hoff _
    · split
      · rfl
      · split <;> rfl
  · rfl
  · split
    · exact hoff _
    · split <;> rfl
  · rfl
omit hg in
theorem Dev.rf_countAccess (src st : Nat) (cls : Option Nat) (wr : Bool) (n : Nat) : (d.countAccess src st cls wr n).rf g = d.rf g := by
  have hone (e : Dev) (src st cls bytes : Nat) : (e.countOne src st cls bytes).rf g = e.rf g := (Dev.rf_free _ _ g).trans (Dev.rf_lyrStats e _ _ _ _ g)
  unfold Dev.countAccess
  split
  · rfl
  · exact foldl_keeps (p := fun e => e.rf g) (fun e _ _ => (hone _ _ _ _ _).trans (hone _ _ _ _ _)) d
theorem Dev.rf_judgeC (cls : Option Nat) (src : Nat) (wr : Bool) (job : Option (Nat × Nat)) (a n : Nat) : (d.judgeC cls src wr job a n).1.rf g = d.rf g := by
  have h28 := hg.2.2.2.2.1
  unfold Dev.judgeC
  split
  · split
    · exact Dev.rf_bump_other _ _ _ (by dsimp only [rLYR_STOP_s_UNREACHABLE]; omega)
    · exact (Dev.rf_judgeAt hg _ _ _ _ _ _).trans (d.rf_countAccess _ _ _ _ _)
  · exact d.rf_judgeAt hg _ _ _ _ _
theorem Dev.rf_busRead (src a n : Nat) : (d.busRead src a n).1.rf g = d.rf g := by
  have hsaw (e : Dev) (a : Nat) : (e.sawHost a).rf g = e.rf g := by
    unfold Dev.sawHost
    split <;> rfl
  refine foldl_leaves (p := fun x : Dev × Nat × List Byte => x.1.rf g) (fun acc pc _ => ?_) (d, stOK, [])
  dsimp only
  split
  · rfl
  · split
    · exact (hsaw _ _).trans (Dev.rf_judgeC hg _ _ _ _ _ _ _)
    · exact Dev.rf_judgeC hg _ _ _ _ _ _ _
end

/-- Time moving on writes nothing but what banks of the increment show. -/
theorem Dev.rf_advanceTo (d : Dev) (t : Nat) {f : Fld} (h : f.off ≠ rTMU_INC_CTL) : (d.advanceTo t).rf f = d.rf f := by
  have hclock (e : Dev) (a b : Nat) : ({ e with now := a, cyc := b } : Dev).rf f = e.rf f := rfl
  have hbank : d.bankTick.rf f = d.rf f := by
    unfold Dev.bankTick
    split
    · rw [Dev.setFlag, Dev.rf_wf_other _ _ _ _ h, Dev.rf_wf_other _ _ _ _ h]
    · rfl
  unfold Dev.advanceTo Dev.ticks
  repeat' split
  · rfl
  · rfl
  · exact (hclock _ _ _).trans hbank

end Sys2Proof.Machine

/-! O51: the Ethernet engine (R376-R395, R401). -/

namespace Sys2Proof.Machine

/-! ### Frames received (R301, R377) -/

section
variable {d : Dev} {k : Nat} {frame : List Byte} {fcs : Bool} {plain : Option (List Byte)} {slot : Nat}
theorem Dev.frameRx_lost (h : d.ethUp k = false ∨ d.now < Tab.getD (fun _ => 0) d.zth.gaps (k / 4)) : d.frameRx k frame fcs plain slot = d := by
  unfold Dev.frameRx
  rcases h with h | h
  · rw [h]; rfl
  · rw [decide_eq_true h, Bool.or_true]; rfl
variable (hup : d.ethUp k = true) (hen : d.flag (ETH_Pp_CTL_ENABLE (k / 4)) = true) (hgap : Tab.getD (fun _ => 0) d.zth.gaps (k / 4) ≤ d.now)
include hup hen hgap
theorem Dev.frameRx_goes : ¬ (!d.ethUp k || !d.flag (ETH_Pp_CTL_ENABLE (k / 4)) || decide (d.now < Tab.getD (fun _ => 0) d.zth.gaps (k / 4))) = true := by
  rw [hup, hen, decide_eq_false (Nat.not_lt.2 hgap)]
  decide
theorem Dev.frameRx_fcs (hfcs : fcs = false) : d.frameRx k frame fcs plain slot = d.bump (ETH_Lk_RX_FCS k) := by
  rw [hfcs]
  exact (if_neg (Dev.frameRx_goes hup hen hgap)).trans (if_pos rfl)
variable (hfcs : fcs = true) {d1 : Dev} (hd1 : d1 = d.bump (ETH_Lk_RX_FRAMES k))
include hfcs hd1
theorem Dev.frameRx_bad (hm : d1.msecRx k frame plain = none) : d.frameRx k frame fcs plain slot = d1.bump (ETH_Lk_MSEC_BAD k) := by
  subst hfcs
  unfold Dev.frameRx
  rw [if_neg (Dev.frameRx_goes hup hen hgap), if_neg (by decide)]
  extract_lets t e
  have he : e = d1 := hd1.symm
  clear_value e
  subst he
  rw [hm]
variable {f : List Byte} {secure : Bool} (hm : d1.msecRx k frame plain = some (f, secure))
include hm
theorem Dev.frameRx_uplane {s : Nat} (hs : d1.upStream k f = some s) : d.frameRx k frame fcs plain slot = d1.uplaneRx k s f (d.rxStamp k) slot := by
  subst hfcs
  unfold Dev.frameRx
  rw [if_neg (Dev.frameRx_goes hup hen hgap), if_neg (by decide)]
  extract_lets t e
  have he : e = d1 := hd1.symm
  clear_value e
  subst he
  rw [hm]
  dsimp only
  rw [hs]
theorem Dev.frameRx_other (hs : d1.upStream k f = none) : d.frameRx k frame fcs plain slot =
    if d1.msgDest k f then d1.msgRx k f secure (d.rxStamp k) else d1.bump (ETH_Lk_RX_OTHER k) := by
  subst hfcs
  unfold Dev.frameRx
  rw [if_neg (Dev.frameRx_goes hup hen hgap), if_neg (by decide)]
  extract_lets t e
  have he : e = d1 := hd1.symm
  clear_value e
  subst he
  rw [hm]
  dsimp only
  rw [hs]
end

/-! ### Symbols (R383-R387) -/

section
variable {d : Dev} {c air l slot tl : Nat} {x : SymAt} (htl : d.rf (ETH_CCc_CFG_TIMELINE c) = tl) (hx : x = d.ethSym c (d.airK tl air) l)
  (hcc : d.ethCcOn c = true) (hok : d.symOk x = true)
include htl hx hcc hok
theorem Dev.ulClose_gone (his : d.symIs x (d.flag (ETH_CCc_CFG_TDD c)) (d.rf (ETH_CCc_CFG_PAT c)) 2 = true) :
    ((d.ulClose c air l slot).eth.syms.any fun z => z.cc == c && z.k == x.k && z.sym == l) = false := by
  have hkept (e : Dev) (p : UlSym → Bool) : (({ e with eth.syms := e.eth.syms.filter fun z => !p z } : Dev).eth.syms.any p) = false := by
    rw [List.any_eq_false]
    intro z hz hp
    have hz' := (List.mem_filter.1 hz).2
    rw [hp] at hz'
    exact Bool.false_ne_true hz'
  subst htl
  have hgo : ¬ (!d.ethCcOn c || !d.symOk x || !d.symIs x (d.flag (ETH_CCc_CFG_TDD c)) (d.rf (ETH_CCc_CFG_PAT c)) 2) = true := by
    rw [hcc, hok, his]
    decide
  subst hx
  unfold Dev.ulClose
  extract_lets n x d1 y d2
  have hx' : d.ethSym c (d.airK (d.rf (ETH_CCc_CFG_TIMELINE c)) air) l = x := rfl
  rw [hx'] at hgo ⊢
  clear_value d2
  rw [if_neg hgo]
  exact hkept d2 fun z => z.cc == c && z.k == x.k && z.sym == l
end

/-! ### What leaves (R377, R389) -/

section
variable {d : Dev} {k : Nat} {clear : Bool} {f : List Byte} (hup : d.ethUp k = true)
include hup
theorem Dev.sendFrame_clear (h : d.flag (ETH_Lk_MSEC_ENABLE k) = false ∨ clear = true) : d.sendFrame k clear f = ((d.leaves ⟨k, f, none⟩).bump (ETH_Lk_TX_FRAMES k), true) := by
  unfold Dev.sendFrame
  rw [hup]
  refine (if_neg (by decide)).trans (if_pos ?_)
  rcases h with h | h
  · rw [h]; rfl
  · rw [h, Bool.or_true]
variable (hen : d.flag (ETH_Lk_MSEC_ENABLE k) = true) (hclear : clear = false) {x : Sak} (hx : d.txSak k = some x)
include hen hclear hx
theorem Dev.sendFrame_numbered (hpn : x.pn < 0xFFFFFFFF) : (d.sendFrame k clear f).2 = true ∧
    (d.sendFrame k clear f).1.eth.wire = d.eth.wire ++ [⟨k, f, some (x.sci, x.an, x.pn + 1, d.flag (ETH_Lk_MSEC_CONF k))⟩] := by
  unfold Dev.sendFrame
  rw [hup, hen, hclear, hx]
  dsimp only
  rw [if_neg (by decide), if_neg (by decide), if_neg (Nat.not_le.2 hpn)]
  exact ⟨rfl, rfl⟩
theorem Dev.sendFrame_usedUp (hpn : 0xFFFFFFFF ≤ x.pn) : d.sendFrame k clear f = (d.bump (ETH_Lk_PN_STOP k), false) := by
  unfold Dev.sendFrame
  rw [hup, hen, hclear, hx]
  dsimp only
  rw [if_neg (by decide), if_neg (by decide), if_pos hpn]
end

/-- What a carrier's size needs no frame writes: the links' counters of frames sent and stopped. -/
theorem Dev.rf_sendFrame {g : Fld} (hg : accessFree g.off) (h3c : g.off % 0x40 ≠ 0x3C) (d : Dev) (k : Nat) (clear : Bool) (f : List Byte) :
    (d.sendFrame k clear f).1.rf g = d.rf g := by
  have h18 := hg.2.2.2.1
  have hsaks (l : List Sak) : ({ d with eth.saks := l } : Dev).rf g = d.rf g := rfl
  have hsent (e : Dev) (w : Wire) : ((e.leaves w).bump (ETH_Lk_TX_FRAMES k)).rf g = e.rf g := Dev.rf_bump_other (e.leaves w) _ _ (by dsimp only [rETH_Lk_TX_FRAMES]; omega)
  unfold Dev.sendFrame
  split
  · rfl
  · split
    · exact hsent _ _
    · split
      · rfl
      · split
        · exact Dev.rf_bump_other _ _ _ (by dsimp only [rETH_Lk_PN_STOP]; omega)
        · exact (hsent _ _).trans (hsaks _)

theorem nrb_accessFree {c : Nat} (hc : c < 256) : accessFree (ETH_CCc_NRB c).off := by
  unfold accessFree traceFree ringFree
  dsimp only [rETH_CCc_NRB, rOBS_REC_STS, rOBS_REC_LOST, rOBS_REC_TRIGGERS, rWDS_STS]
  omega

theorem Dev.nrb_dlPort (d : Dev) {c : Nat} (hc : c < 256) (s addr : Nat) (x : SymAt) : (d.dlPort c s addr x).rf (ETH_CCc_NRB c) = d.rf (ETH_CCc_NRB c) := by
  have hfree := nrb_accessFree hc
  have hseqs (e : Dev) (t : Tab Nat) : ({ e with eth.seqs := t } : Dev).rf (ETH_CCc_NRB c) = e.rf (ETH_CCc_NRB c) := rfl
  have h3c : (ETH_CCc_NRB c).off % 0x40 ≠ 0x3C := by
    dsimp only [rETH_CCc_NRB]
    omega
  unfold Dev.dlPort
  split
  · rfl
  · extract_lets k nrb m r most n shift data d1 seq prbs d2
    have hr : r.1.rf (ETH_CCc_NRB c) = d.rf (ETH_CCc_NRB c) := d.rf_busRead hfree _ _ _
    clear_value r
    have hd1 : d1.rf (ETH_CCc_NRB c) = d.rf (ETH_CCc_NRB c) := (Dev.rf_wf_other r.1 (ETH_CCc_DLSAT c) (ETH_CCc_NRB c) _ (by dsimp only [rETH_CCc_NRB, rETH_CCc_DLSAT]; omega)).trans hr
    have hd2 : d2.rf (ETH_CCc_NRB c) = d1.rf (ETH_CCc_NRB c) :=
      foldl_keeps (p := fun e => e.rf (ETH_CCc_NRB c)) (fun e i _ => e.rf_sendFrame hfree h3c k false _) d1
    clear_value d2 d1
    exact (hseqs d2 _).trans (hd2.trans hd1)

/-- The frames of a symbol's ports leave one port after another; the carrier's size is what it was. -/
theorem Dev.dlPorts_nrb {c : Nat} (hc : c < 256) (x : SymAt) (first : Nat) (addr : Nat → Nat → Nat) (l : List Nat) : ∀ (d : Dev) (nrb : Nat), d.rf (ETH_CCc_NRB c) = nrb →
    l.foldl (fun e p => e.dlPort c (first + p) (addr p (e.rf (ETH_CCc_NRB c))) x) d = l.foldl (fun e p => e.dlPort c (first + p) (addr p nrb) x) d := by
  induction l with
  | nil =>
    intro d nrb _
    rw [List.foldl_nil, List.foldl_nil]
  | cons p l ih =>
    intro d nrb h
    rw [List.foldl_cons, List.foldl_cons, h]
    exact ih _ nrb ((d.nrb_dlPort hc _ _ x).trans h)

section
variable {d : Dev} {c air l slot tl : Nat} {x : SymAt} (htl : d.rf (ETH_CCc_CFG_TIMELINE c) = tl) (hx : x = d.ethSym c (d.airK tl air) l)
  (hcc : d.ethCcOn c = true) (hok : d.symOk x = true)
  (his : d.symIs x (d.flag (ETH_CCc_CFG_TDD c)) (d.rf (ETH_CCc_CFG_PAT c)) 1 = true)
  {d1 : Dev} (hd1 : d1 = d.advanceTo (d.symAir x - (d.ccRadio c ETH_RAD_r_DLADV + usT 2)))
  {r : Dev × Option (List Byte)} (hr : r = d1.busRead (ethStop (d1.rf (ETH_ST_s_CFG_LINK (d.rf (ETH_CCc_PORTS_FIRST c))) / 4)) (slot + 4 * l) 4)
include htl hx hcc hok his hd1 hr
theorem Dev.dlFetch_runs (late : List (Nat × Nat)) : d.dlFetch c air l slot late =
    if readyOk r.2 air l then
      late.foldl (fun d q => if d.ethUp q.1 then d.bumpBy (ETH_Lk_TX_LATE q.1) q.2 else d)
        ((upTo (d.rf (ETH_CCc_PORTS_COUNT c))).foldl (fun e p => e.dlPort c (d.rf (ETH_CCc_PORTS_FIRST c) + p)
          (slot + 64 + (l * d.rf (ETH_CCc_PORTS_COUNT c) + p) * 36 * e.rf (ETH_CCc_NRB c)) x) r.1.wireGone)
    else r.1.bump (ETH_CCc_ZERO_SYM c) := by
  subst htl
  have hgo : ¬ (!d.ethCcOn c || !d.symOk x || !d.symIs x (d.flag (ETH_CCc_CFG_TDD c)) (d.rf (ETH_CCc_CFG_PAT c)) 1) = true := by
    rw [hcc, hok, his]
    decide
  subst hx
  unfold Dev.dlFetch
  extract_lets n x count first e1 r1 e2
  have hx' : d.ethSym c (d.airK (d.rf (ETH_CCc_CFG_TIMELINE c)) air) l = x := rfl
  rw [hx'] at hgo hd1 ⊢
  have he1 : e1 = d1 := hd1.symm
  clear_value e1
  subst he1
  have hr1 : r1 = r := hr.symm
  clear_value r1
  subst hr1
  exact if_neg hgo
theorem Dev.dlFetch_sends (hc : c < 256) (hready : readyOk r.2 air l = true) : d.dlFetch c air l slot [] =
    (upTo (d.rf (ETH_CCc_PORTS_COUNT c))).foldl (fun e p => e.dlPort c (d.rf (ETH_CCc_PORTS_FIRST c) + p)
      (slot + 64 + (l * d.rf (ETH_CCc_PORTS_COUNT c) + p) * 36 * d.rf (ETH_CCc_NRB c)) x) r.1.wireGone := by
  have hnrb : r.1.wireGone.rf (ETH_CCc_NRB c) = d.rf (ETH_CCc_NRB c) := by
    have hgone (e : Dev) : e.wireGone.rf (ETH_CCc_NRB c) = e.rf (ETH_CCc_NRB c) := rfl
    rw [hgone, hr, Dev.rf_busRead (nrb_accessFree hc), hd1, Dev.rf_advanceTo _ _ (by dsimp only [rETH_CCc_NRB, rTMU_INC_CTL]; omega)]
  rw [Dev.dlFetch_runs htl hx hcc hok his hd1 hr [], if_pos hready]
  exact Dev.dlPorts_nrb hc x _ (fun p nrb => slot + 64 + (l * d.rf (ETH_CCc_PORTS_COUNT c) + p) * 36 * nrb) _ _ _ hnrb
end

/-! ### The message path (R388) -/

/-- A queue's head moves on by one entry. -/
def Dev.mqNext (d : Dev) (p q h : Nat) : Dev := d.wf (ETH_MQ_p_TXq_HEAD p q) ((h + 1) % d.mqSize p q)

section
variable {d : Dev} {p q late h : Nat} (hh : h = d.rf (ETH_MQ_p_TXq_HEAD p q)) {r : Dev × Option (List Byte)}
  (hr : r = d.busRead (ethStop p) (d.mqBase p q + 32 * h) 32)
  (hen : d.flag (ETH_Pp_CTL_ENABLE p) = true) (hq : d.flag (ETH_MQ_p_TXq_CTL_ENABLE p q) = true) (htail : h ≠ d.rf (ETH_MQ_p_TXq_TAIL p q)) (hrun : d.domRun (57 + p) = true)
include hen hq htail hrun
theorem Dev.msgLaunch_runs : ¬ (!d.flag (ETH_Pp_CTL_ENABLE p) || !d.flag (ETH_MQ_p_TXq_CTL_ENABLE p q) || h == d.rf (ETH_MQ_p_TXq_TAIL p q) || !d.domRun (57 + p)) = true := by
  rw [hen, hq, hrun, beq_eq_false_iff_ne.2 htail]
  decide
include hh hr
theorem Dev.msgLaunch_unread (h2 : r.2 = none) : d.msgLaunch p q late = (r.1.health 8 5 (p + 4 * q)).mqNext p q h := by
  have hgo := Dev.msgLaunch_runs hen hq htail hrun
  subst hh
  unfold Dev.msgLaunch
  extract_lets +onlyGivenNames h a r1 next
  have hr1 : r1 = r := hr.symm
  clear_value r1
  subst hr1
  rw [if_neg hgo, h2]
  dsimp -zeta only
  rfl
variable {e : List Byte} (he : r.2 = some e) (hnow : leAt e 0 8 = 0)
include he hnow
theorem Dev.msgLaunch_short (hlen : leAt e 16 2 < 60) : d.msgLaunch p q late = (r.1.busWrite (ethStop p) none (d.mqBase p q + 32 * h + 21) [5]).1.mqNext p q h := by
  have hgo := Dev.msgLaunch_runs hen hq htail hrun
  subst hh
  unfold Dev.msgLaunch
  extract_lets +onlyGivenNames h a r1 next
  have hr1 : r1 = r := hr.symm
  clear_value r1
  subst hr1
  obtain ⟨r0, o⟩ := r1
  rw [if_neg hgo, he]
  dsimp -zeta only
  extract_lets +onlyGivenNames len k lns hi d1 bad f frame x d2 st
  have hd1 : d1 = r0 := if_pos hnow
  have hbad : bad = true := by
    show (decide (leAt e 16 2 < 60) || _) = true
    rw [decide_eq_true hlen, Bool.true_or]
  clear_value d1 bad
  subst hd1 hbad
  have hf : f = (d1, none) := if_pos rfl
  clear_value f
  subst hf
  clear_value frame
  have hx : x = (d1, false) := by
    show (if (true || _) = true then _ else _) = _
    rw [Bool.true_or, if_pos rfl]
  clear_value x
  subst hx
  have hd2 : d2 = d1 := if_neg Bool.false_ne_true
  have hst : st = 5 := by
    show 1 + 2 * b2n (false && _ && _) + 4 * b2n (!false) = 5
    rw [Bool.false_and, Bool.false_and]
    rfl
  clear_value d2 st
  subst hd2 hst
  rfl
theorem Dev.msgLaunch_sent {b : List Byte} (h60 : 60 ≤ leAt e 16 2) (hmax : leAt e 16 2 ≤ r.1.rf (ETH_Pp_FRAME_MAX p)) {x : Dev × Option (List Byte)} {k : Nat}
    (hx : x = r.1.busRead (ethStop p) (leAt e 8 8) (leAt e 16 2)) (hk : k = 4 * p + leAt e 20 1 % 4) (hb : x.2 = some b) (hup : x.1.ethUp k = true)
    (hmsec : x.1.flag (ETH_Lk_MSEC_ENABLE k) = false) (hts : bitAt (leAt e 20 1) 2 = false) : d.msgLaunch p q late =
    ((((x.1.wireGone.leaves ⟨k, b, none⟩).bump (ETH_Lk_TX_FRAMES k)).busWrite (ethStop p) none (d.mqBase p q + 32 * h + 21) [1]).1).mqNext p q h := by
  have hgo := Dev.msgLaunch_runs hen hq htail hrun
  subst hh
  unfold Dev.msgLaunch
  extract_lets +onlyGivenNames h a r1 next
  have hr1 : r1 = r := hr.symm
  clear_value r1
  subst hr1
  rw [if_neg hgo, he]
  dsimp -zeta only
  extract_lets +onlyGivenNames len k' lns hi d1 bad f frame y d2 st
  have hk' : k' = k := hk.symm
  clear_value k'
  subst hk'
  have hd1 : d1 = r1.1 := if_pos hnow
  clear_value d1
  subst hd1
  have hbad : bad = false := by
    show (decide (leAt e 16 2 < 60) || decide (r1.1.rf (ETH_Pp_FRAME_MAX p) < leAt e 16 2)) = false
    rw [decide_eq_false (Nat.not_lt.2 h60), decide_eq_false (Nat.not_lt.2 hmax), Bool.or_false]
  clear_value bad
  subst hbad
  have hf : f = x := hx.symm
  clear_value f
  subst hf
  have hframe : frame = b := by
    show f.2.getD [] = b
    rw [hb, Option.getD_some]
  clear_value frame
  subst hframe
  have hup' : f.1.wireGone.ethUp k' = true := hup
  have hy : y = ((f.1.wireGone.leaves ⟨k', frame, none⟩).bump (ETH_Lk_TX_FRAMES k'), true) := by
    show (if (false || f.2.isNone) = true then _ else _) = _
    rw [hb, Option.isNone_some, Bool.or_false, if_neg Bool.false_ne_true]
    exact Dev.sendFrame_clear hup' (Or.inl hmsec)
  clear_value y
  subst hy
  have hd2 : d2 = (f.1.wireGone.leaves ⟨k', frame, none⟩).bump (ETH_Lk_TX_FRAMES k') := by
    show (if (true && bitAt (leAt e 20 1) 2) = true then _ else _) = _
    rw [hts, Bool.and_false, if_neg Bool.false_ne_true]
  have hst : st = 1 := by
    show 1 + 2 * b2n (true && decide (leAt e 0 8 ≠ 0) && _) + 4 * b2n (!true) = 1
    rw [decide_eq_false (not_not_intro hnow), Bool.and_false, Bool.false_and]
    rfl
  clear_value d2 st
  subst hd2 hst
  rfl
end

/-! ### Timestamp queues (R394) -/

section
variable (d : Dev)
theorem Dev.eth_wf (f : Fld) (v : Nat) : (d.wf f v).eth = d.eth := rfl
theorem Dev.eth_bump (f : Fld) : (d.bump f).eth = d.eth := rfl
theorem Dev.eth_setFlag (f : Fld) (b : Bool) : (d.setFlag f b).eth = d.eth := rfl
theorem Dev.eth_putTime (f : Nat → Fld) (t : Nat) : (d.putTime f t).eth = d.eth := foldl_keeps (p := fun e => e.eth) (fun e i _ => e.eth_wf (f i) _) d
end
/-- A port's queue is the list a table holds for it. -/
theorem Dev.tsq_of_eth {d e : Dev} (h : e.eth = d.eth) (p : Nat) : e.tsq p = d.tsq p := congrArg (fun x : Eth => Tab.getD (fun _ => []) x.tsq p) h
/-- The table of the queues with port `p`'s set to `l`. -/
def Dev.withTsq (d : Dev) (p : Nat) (l : List TsEntry) : Dev := { d with eth.tsq := Tab.setD (fun _ => []) d.eth.tsq p l }
theorem Dev.tsq_withTsq (d : Dev) (p : Nat) (l : List TsEntry) : (d.withTsq p l).tsq p = l := Tab.getD_setD_self _ _ _ _
theorem Dev.tsq_setTsq (d : Dev) (p : Nat) (l : List TsEntry) : (d.setTsq p l).tsq p = l := by
  unfold Dev.setTsq
  extract_lets src e h e2 e3
  have he : e = d.withTsq p l := rfl
  clear_value e
  have he2 : e2.eth = e.eth := by
    show (((((e.wf _ _).wf _ _).setFlag _ _).wf _ _).wf _ _).eth = e.eth
    rw [Dev.eth_wf, Dev.eth_wf, Dev.eth_setFlag, Dev.eth_wf, Dev.eth_wf]
  have he3 : e3.eth = e.eth := (e2.eth_putTime _ _).trans he2
  clear_value e3
  split
  · exact (Dev.tsq_of_eth ((e3.eth_setFlag _ _).trans he3) p).trans (he ▸ d.tsq_withTsq p l)
  · exact (Dev.tsq_of_eth he3 p).trans (he ▸ d.tsq_withTsq p l)
section
variable (d : Dev) (p : Nat)
theorem Dev.tsq_bump (f : Fld) : (d.bump f).tsq p = d.tsq p := Dev.tsq_of_eth (d.eth_bump f) p
theorem Dev.tsq_setFlag (f : Fld) (b : Bool) : (d.setFlag f b).tsq p = d.tsq p := Dev.tsq_of_eth (d.eth_setFlag f b) p
theorem Dev.tsq_tsPush_room (x : TsEntry) (h : (d.tsq p).length < 32) : (d.tsPush p x).tsq p = d.tsq p ++ [x] := by
  rw [Dev.tsPush, if_neg (Nat.not_le.2 h), Dev.tsq_bump, Dev.tsq_setTsq]
theorem Dev.tsq_tsPush_full (x : TsEntry) (h : 32 ≤ (d.tsq p).length) : (d.tsPush p x).tsq p = d.tsq p := by
  rw [Dev.tsPush, if_pos h, Dev.tsq_setFlag, Dev.tsq_bump]
end

/-! ### Writes the bus takes -/

section
variable {d : Dev} {init : Initiator} {p q value cmds : Nat}
theorem Dev.msgTailWr_taken (hr : (d.busWr init (rETH_MQ_p_TXq_TAIL p q) value).2 = .yes cmds) : d.msgTailWr init p q value =
    if d.mqSize p q ≤ (d.busWr init (rETH_MQ_p_TXq_TAIL p q) value).1.rf (ETH_MQ_p_TXq_TAIL p q) then
      ((d.busWr init (rETH_MQ_p_TXq_TAIL p q) value).1.wf (ETH_MQ_p_TXq_TAIL p q) (d.rf (ETH_MQ_p_TXq_TAIL p q))).regErr .ignored (rETH_MQ_p_TXq_TAIL p q) init
    else (d.busWr init (rETH_MQ_p_TXq_TAIL p q) value).1 := by
  unfold Dev.msgTailWr
  extract_lets +onlyGivenNames f off r
  have hr' : r.2 = .yes cmds := hr
  rw [hr']
theorem Dev.tsPop_taken (hr : (d.busWr init (rETH_TSQ_p_CTL p) value).2 = .yes cmds) : d.tsPop init p value =
    if bitAt cmds 0 && !((d.busWr init (rETH_TSQ_p_CTL p) value).1.tsq p).isEmpty then
      ((d.busWr init (rETH_TSQ_p_CTL p) value).1.setTsq p (((d.busWr init (rETH_TSQ_p_CTL p) value).1.tsq p).drop 1)).bump (ETH_TSQ_p_POPPED p)
    else (d.busWr init (rETH_TSQ_p_CTL p) value).1 := by
  unfold Dev.tsPop
  extract_lets +onlyGivenNames r
  have hr' : r.2 = .yes cmds := hr
  rw [hr']
end

/-! ### Associations (R389) -/

/-- The associations in use are `l`. -/
def Dev.withSaks (d : Dev) (l : List Sak) : Dev := { d with eth.saks := l }
theorem Dev.txSak_withSaks (d : Dev) (k : Nat) (l : List Sak) (x : Sak) (hx : (x.link == k && x.tx) = true) : (d.withSaks (l ++ [x])).txSak k = some x := by
  show ((l ++ [x]).filter fun x => x.link == k && x.tx).getLast? = some x
  rw [List.filter_append, List.filter_cons, if_pos hx, List.filter_nil]
  exact List.getLast?_concat
theorem Dev.txSak_of_eth {d e : Dev} (h : e.eth = d.eth) (k : Nat) : e.txSak k = d.txSak k := by
  rw [Dev.txSak, h, Dev.txSak]
theorem Dev.withSaks_keeps (d : Dev) (l : List Sak) : (d.withSaks l).now = d.now ∧ (d.withSaks l).mem = d.mem := ⟨rfl, rfl⟩
theorem Dev.sakInstall_takes {d : Dev} {k sci an slot : Nat} (hen : d.flag (ETH_Lk_MSEC_ENABLE k) = true) (hon : d.domOn (57 + k / 4) = true) :
    ∃ l, d.sakInstall k true sci an slot = (d.withSaks (l ++ [⟨k, true, sci, an, slot, 0⟩])).setFlag (ETH_Lk_MSEC_SAK_READY k) true := by
  unfold Dev.sakInstall
  rw [hen, hon]
  exact ⟨_, rfl⟩
theorem Dev.txSak_sakInstall {d : Dev} {k sci an slot : Nat} (hen : d.flag (ETH_Lk_MSEC_ENABLE k) = true) (hon : d.domOn (57 + k / 4) = true) :
    (d.sakInstall k true sci an slot).txSak k = some ⟨k, true, sci, an, slot, 0⟩ ∧ (d.sakInstall k true sci an slot).flag (ETH_Lk_MSEC_SAK_READY k) = true ∧
    (d.sakInstall k true sci an slot).now = d.now ∧ (d.sakInstall k true sci an slot).mem = d.mem := by
  obtain ⟨l, h⟩ := Dev.sakInstall_takes (sci := sci) (an := an) (slot := slot) hen hon
  obtain ⟨hnow, hmem⟩ := d.withSaks_keeps (l ++ [⟨k, true, sci, an, slot, 0⟩])
  rw [h]
  exact ⟨(Dev.txSak_of_eth (Dev.eth_setFlag _ _ _) k).trans (d.txSak_withSaks k l _ (by simp)), Dev.flag_setFlag_same _ (ETH_Lk_MSEC_SAK_READY k) _ (by decide : 5 + 1 ≤ 32) rfl, (Dev.setFlag_now _ _ _).trans hnow,
    (Dev.setFlag_mem _ _ _).trans hmem⟩

/-- Settles O51: the rows of the Ethernet engine. -/
theorem ethernetRules : Obligations.EthernetRules := by
  intro s
  refine ⟨?_, ?_, ?_, ?_, ?_, ?_, ?_, ?_, ?_⟩
  · intro k frame fcs plain slot gap
    refine ⟨fun h => next_on (Dev.frameRx_lost h), ?_⟩
    intro hup hen hgap d1
    refine ⟨fun hfcs => next_on (Dev.frameRx_fcs hup hen hgap hfcs), fun hfcs hm => next_on (Dev.frameRx_bad hup hen hgap hfcs rfl hm),
      fun f secure x hfcs hm hx => next_on (Dev.frameRx_uplane hup hen hgap hfcs rfl hm hx), fun f secure hfcs hm hx => ⟨fun h => ?_, fun h => ?_⟩⟩
    · exact next_on ((Dev.frameRx_other hup hen hgap hfcs rfl hm hx).trans (if_pos h))
    · exact next_on ((Dev.frameRx_other hup hen hgap hfcs rfl hm hx).trans (if_neg (by rw [h]; decide)))
  · intro c air l slot d n x hcc hok
    refine ⟨fun his => nextAnd_act ⟨Dev.ulClose_gone rfl rfl hcc hok his, rfl⟩, ?_⟩
    intro r his
    refine ⟨fun hready late => next_on ?_, fun hready => next_on (Dev.dlFetch_sends rfl rfl hcc hok his rfl rfl c.isLt hready)⟩
    exact (Dev.dlFetch_runs rfl rfl hcc hok his rfl rfl _).trans (if_neg (by rw [hready]; decide))
  · exact fun d k clear f hup => ⟨fun h => Dev.sendFrame_clear hup h, fun x hen hclear hx hpn => Dev.sendFrame_numbered hup hen hclear hx hpn,
      fun x hen hclear hx hpn => Dev.sendFrame_usedUp hup hen hclear hx hpn⟩
  · intro init p q value cmds f r hr
    have hgo : s.dev.msgTailWr init p q value.toNat = if s.dev.mqSize p q ≤ r.1.rf f then (r.1.wf f (s.dev.rf f)).regErr .ignored (rETH_MQ_p_TXq_TAIL p q) init else r.1 :=
      Dev.msgTailWr_taken hr
    exact ⟨fun h => next_on (hgo.trans (if_neg (Nat.not_le.2 h))), fun h => next_on (hgo.trans (if_pos h))⟩
  · intro p q late h r hen hq htail hrun
    refine ⟨?_, ?_, ?_⟩
    · intro h2 e
      exact next_on (Dev.msgLaunch_unread rfl rfl hen hq htail hrun h2)
    · intro e b he hnow h60 hmax x k hb hup hmsec hts w
      exact next_on (Dev.msgLaunch_sent rfl rfl hen hq htail hrun he hnow h60 hmax rfl rfl hb hup hmsec hts)
    · intro e he hlen hnow w
      exact next_on (Dev.msgLaunch_short rfl rfl hen hq htail hrun he hnow hlen)
  · intro init p value cmds r hr
    have hgo : s.dev.tsPop init p value.toNat = if bitAt cmds 0 && !(r.1.tsq p).isEmpty then (r.1.setTsq p ((r.1.tsq p).drop 1)).bump (ETH_TSQ_p_POPPED p) else r.1 :=
      Dev.tsPop_taken hr
    refine ⟨fun h0 hne => next_on (hgo.trans (if_pos ?_)), fun h => next_on (hgo.trans (if_neg ?_))⟩
    · rw [h0, Bool.true_and, Bool.not_eq_true', List.isEmpty_eq_false_iff]
      exact hne
    · rcases h with h | h
      · rw [h, Bool.false_and]
        exact Bool.false_ne_true
      · rw [h, List.isEmpty_nil, Bool.not_true, Bool.and_false]
        exact Bool.false_ne_true
  · exact fun d p x _ => ⟨d.tsq_tsPush_room p x, d.tsq_tsPush_full p x⟩
  · exact fun k tx sci an slot h => next_on (if_neg (by rw [h]; decide))
  · intro k sci an slot hkey hen hon
    have hgo : (if s.mkaKey k slot then s.dev.sakInstall k true sci.toNat an slot else s.dev) = s.dev.sakInstall k true sci.toNat an slot := if_pos hkey
    refine nextAnd_act ?_
    rw [hgo]
    exact Dev.txSak_sakInstall hen hon

end Sys2Proof.Machine

/-! O47: coefficient banks and calibration runs (R228, R284-R303). -/

namespace Sys2Proof.Machine

/-! ### Arming (R228) -/

section
variable {d : Dev} {init : Initiator} {kind i value cmds : Nat} (hr : (d.busWr init (bkSel kind i) value).2 = .yes cmds) (hset : bitAt cmds 0 = true)
include hr hset
theorem Dev.selWr_taken : d.selWr init kind i value =
    if d.armBad kind i then (d.busWr init (bkSel kind i) value).1.regErr .ignored (bkSel kind i) init else (d.busWr init (bkSel kind i) value).1.armNow kind i .sel := by
  unfold Dev.selWr
  extract_lets +onlyGivenNames off r
  have hr' : r.2 = .yes cmds := hr
  rw [hr']
  dsimp -zeta only
  rw [if_neg (by rw [hset]; decide)]
end

/-! ### Switching (R21) -/

/-- A control's ACTIVE and PENDING are one-bit fields of one register, beside each other, and SWITCHES is another register. -/
theorem bkActive_apart (kind i : Nat) : (bkActive kind i).lo + (bkActive kind i).w ≤ 32 ∧ (bkActive kind i).w = 1 ∧
    (bkPending kind i).lo + (bkPending kind i).w ≤ 32 ∧ (bkActive kind i).lo + (bkActive kind i).w ≤ (bkPending kind i).lo ∧
    (bkActive kind i).off ≠ (bkSwitches kind i).off := by
  unfold bkActive bkPending bkSwitches
  refine ⟨?_, ?_, ?_, ?_, ?_⟩
  · split <;> dsimp only <;> decide
  · split <;> rfl
  · split <;> dsimp only <;> decide
  · split <;> dsimp only <;> decide
  · split <;> simp
/-- Where the windows begin is no register, and no time. -/
theorem Dev.windowsRestart_keeps (d : Dev) (kind i at_ : Nat) : (d.windowsRestart kind i at_).regs = d.regs ∧ (d.windowsRestart kind i at_).now = d.now := ⟨rfl, rfl⟩

/-- The switch of a control before any window begins again: recorded, shown, counted. -/
def Dev.switched (d : Dev) (a : Arm) (k active : Nat) : Dev :=
  (((d.recAdd 5 a.tl (k % 65536) none).wf (bkActive a.kind a.target) (1 - active)).setFlag (bkPending a.kind a.target) false).bump (bkSwitches a.kind a.target)
theorem Dev.rest_switched (d : Dev) (a : Arm) (k active : Nat) : (d.switched a k active).rest = d.rest :=
  (Dev.rest_bump _ _).trans ((Dev.rest_setFlag _ _ _).trans ((Dev.rest_wf _ _ _).trans (d.rest_recAdd _ _ _ _)))
theorem Dev.active_switched (d : Dev) (a : Arm) (k active : Nat) : (d.switched a k active).rf (bkActive a.kind a.target) = (1 - active) % 2 := by
  obtain ⟨hfits, hw, hpend, hbeside, hcount⟩ := bkActive_apart a.kind a.target
  rw [Dev.switched, Dev.rf_bump_other _ _ _ hcount, Dev.setFlag, Dev.rf_wf_field _ _ _ _ hpend (Or.inr hbeside), Dev.rf_wf_same _ _ _ hfits, hw, Nat.pow_one]

def Dev.withSwOld (d : Dev) (t : Tab (Nat × Nat × Nat)) : Dev := { d with cal.swOld := t }
/-- The old words of a control, kept for the symbols already under way. -/
def Dev.swKept (d : Dev) (a : Arm) (k : Nat) : Dev :=
  if a.kind = 1 ∨ a.kind = 2 then
    d.withSwOld (Tab.put d.cal.swOld (128 * a.kind + a.target) (d.boundaryT a.tl k, d.bankWords a.kind a.target (d.rf (bkActive a.kind a.target))))
  else d
theorem Dev.swKept_keeps (d : Dev) (a : Arm) (k : Nat) : (d.swKept a k).now = d.now ∧ (d.swKept a k).cal.runs = d.cal.runs := by
  unfold Dev.swKept
  split <;> exact ⟨rfl, rfl⟩
theorem Dev.switchBank_sel {d : Dev} {a : Arm} {k : Nat} (h : a.src = .sel) : d.switchBank a k =
    ((d.swKept a k).switched a k (d.rf (bkActive a.kind a.target))).windowsRestart a.kind a.target (d.boundaryT a.tl k) := by
  unfold Dev.switchBank
  rw [h]
  rfl

/-- The windows of a run that a switch discards begin at its instant. -/
theorem Dev.windowsRestart_wins {d : Dev} {kind i at_ : Nat} {r : CalRun} (hr : r ∈ (d.windowsRestart kind i at_).cal.runs) {t : CalTgt} (ht : t ∈ r.targets)
    (hphase : t.phase = .gathering ∨ t.phase = .verifying) (hm : r.measures t kind i = true) : t.win = at_ := by
  obtain ⟨r0, -, rfl⟩ := List.mem_map.1 (show r ∈ d.cal.runs.map _ from hr)
  obtain ⟨t0, ht0, rfl⟩ := List.mem_map.1 (show t ∈ r0.targets.map _ from ht)
  have hidx (t : CalTgt) (b : Bool) : (if b then { t with win := at_ } else t).idx = t.idx ∧ (if b then { t with win := at_ } else t).phase = t.phase := by
    cases b <;> exact ⟨rfl, rfl⟩
  have hm0 : r0.measures t0 kind i = true := by
    rw [← hm]
    unfold CalRun.measures
    dsimp only
    rw [(hidx _ _).1, List.any_map]
    split
    · rfl
    · rfl
    · congr 2
      funext x
      exact congrArg (· == i) (hidx x _).1.symm
    · rfl
  rw [(hidx _ _).2] at hphase
  refine congrArg CalTgt.win (if_pos ?_)
  rw [hm0, Bool.and_true]
  rcases hphase with h | h <;> rw [h] <;> rfl

/-! ### Statistics (R290, R294-R300) -/

/-- What a target does with what its complete statistic gives it. -/
def Dev.calGets (d : Dev) (r : CalRun) (kind i : Nat) (out : CalSol) : Dev :=
  match out with
  | .discarded => if kind = 0 then d else d.calUpd r.id i fun t => { t with win := d.now }
  | .fails reason f => (d.calFail r i reason f).calSettle r.id
  | .solves f sol => (d.calSolved r i f sol).calSettle r.id

/-- When the statistic of a run's target can be judged: full, and past every excitation where the transmit step runs. -/
def Dev.calReady (d : Dev) (r : CalRun) (full : Nat) : Nat :=
  if d.txStep r = true then max full ((d.cal.excite.map fun e => d.feTime e.till).foldl max 0) else full

section
variable {d : Dev} {kind i fig : Nat} {stat : List Nat} {r : CalRun} {t : CalTgt} (hfind : d.calFind kind i .gathering = some (r, t))
  (hscan : kind = 3 → d.flag (ZTH_Li_STS_SCANNING i) = false)
include hfind hscan
omit hfind in
theorem Dev.calStat_quiet : ¬ (kind == 3 && d.flag (ZTH_Li_STS_SCANNING i)) = true := by
  rw [Bool.and_eq_true, beq_iff_eq]
  intro ⟨h3, hs⟩
  rw [hscan h3] at hs
  exact Bool.false_ne_true hs
theorem Dev.calStat_linkDown : d.calStat kind i true fig stat = (d.calFail r i 0x0A 0).calSettle r.id := by
  unfold Dev.calStat
  rw [hfind]
  dsimp -zeta only
  rw [if_neg (Dev.calStat_quiet hscan), if_pos rfl]
theorem Dev.calStat_late (hlate : r.since + calLimit kind < d.now) : d.calStat kind i false fig stat = d := by
  unfold Dev.calStat
  rw [hfind]
  dsimp -zeta only
  rw [if_neg (Dev.calStat_quiet hscan), if_neg Bool.false_ne_true]
  extract_lets +onlyGivenNames alone
  split
  · rfl
  · split
    · rfl
    · exact if_pos (Nat.lt_of_lt_of_le hlate (Nat.le_max_left _ _))
variable {full : Nat} (hfull : d.calFull kind i t.win = some full)
include hfull
theorem Dev.calStat_alone (hkind : kind = 2) (hlen : r.targets.length = 1) (hnow : d.now ≤ r.since + calLimit kind) (hin : full ≤ r.since + calLimit kind) :
    d.calStat kind i false fig stat = ((d.advanceTo full).calFail r i 1 0).calSettle r.id := by
  unfold Dev.calStat
  rw [hfind]
  dsimp -zeta only
  rw [if_neg (Dev.calStat_quiet hscan), if_neg Bool.false_ne_true]
  extract_lets +onlyGivenNames alone
  have ha : alone = true := by
    show (kind == 2 && r.targets.length == 1) = true
    rw [hkind, hlen]
    rfl
  clear_value alone
  subst ha
  rw [Bool.not_true, Bool.false_and, Bool.false_and, if_neg Bool.false_ne_true, hfull]
  dsimp -zeta only
  rw [if_neg Bool.false_ne_true]
  extract_lets +onlyGivenNames ready d1
  have hready : ready = full := rfl
  clear_value ready
  subst hready
  rw [if_neg (Nat.not_lt.2 (Nat.max_le.2 ⟨hnow, hin⟩)), if_pos rfl]
theorem Dev.calStat_gets (hmany : kind = 2 → r.targets.length ≠ 1) (hexc : d.txStep r = true → r.excited.contains i = true) (hnow : d.now ≤ r.since + calLimit kind)
    {ready : Nat} (hready : ready = d.calReady r full) (hin : ready ≤ r.since + calLimit kind) {d1 : Dev} (hd1 : d1 = d.advanceTo ready) {out : CalSol}
    (hout : d1.calSolve kind i t.win fig stat = out) : d.calStat kind i false fig stat = d1.calGets r kind i out := by
  unfold Dev.calStat
  rw [hfind]
  dsimp -zeta only
  rw [if_neg (Dev.calStat_quiet hscan), if_neg Bool.false_ne_true]
  extract_lets +onlyGivenNames alone
  have ha : alone = false := by
    show (kind == 2 && r.targets.length == 1) = false
    rw [Bool.and_eq_false_iff, beq_eq_false_iff_ne, beq_eq_false_iff_ne]
    exact Decidable.not_or_of_imp hmany
  clear_value alone
  subst ha
  have hgo : ¬ (!false && d.txStep r && !r.excited.contains i) = true := by
    rw [Bool.not_false, Bool.true_and, Bool.and_eq_true, Bool.not_eq_true']
    intro ⟨htx, hno⟩
    rw [hexc htx] at hno
    exact Bool.false_ne_true hno.symm
  rw [if_neg hgo, hfull, Bool.not_false, Bool.true_and]
  dsimp -zeta only
  extract_lets +onlyGivenNames ready' e1
  have hr : ready' = ready := hready.symm
  clear_value ready'
  subst hr
  have he : e1 = d1 := hd1.symm
  clear_value e1
  subst he
  rw [if_neg (Nat.not_lt.2 (Nat.max_le.2 ⟨hnow, hin⟩)), if_neg Bool.false_ne_true, hout]
  rfl
end

/-! ### Verification (R289) -/

/-- What a verified figure does: a worse one reverts the switch, if it can be armed, and fails the target. -/
def Dev.calJudge (d : Dev) (r : CalRun) (x : CalTgt) (kind i f : Nat) : Dev :=
  if worseBy kind 4 f x.fig0 then ((if d.flag (bkPending kind i) then d else d.armNow kind i .sel).calFail r i 8 f).calFinish
  else (d.calUpd r.id i fun t => { t with phase := .committed, fig := f }).calFinish

section
variable {d : Dev} {kind i fig : Nat} {stat : List Nat} {r : CalRun} {x : CalTgt} {full : Nat} (hfind : d.calFind kind i .verifying = some (r, x))
  (hfull : d.calFull kind i x.win = some full) {d1 : Dev} (hd1 : d1 = d.advanceTo full)
include hfind hfull hd1
theorem Dev.calVerify_discarded (hout : d1.calSolve kind i x.win fig stat = .discarded) :
    d.calVerify kind i fig stat = if kind = 0 then d1 else d1.calUpd r.id i fun t => { t with win := d1.now } := by
  unfold Dev.calVerify
  rw [hfind]
  dsimp -zeta only
  rw [hfull]
  dsimp -zeta only
  extract_lets +onlyGivenNames e1
  have he : e1 = d1 := hd1.symm
  clear_value e1
  subst he
  extract_lets +onlyGivenNames judge
  rw [hout]
theorem Dev.calVerify_judged {f : Nat} (hout : (∃ reason, d1.calSolve kind i x.win fig stat = .fails reason f) ∨ ∃ sol, d1.calSolve kind i x.win fig stat = .solves f sol) :
    d.calVerify kind i fig stat = d1.calJudge r x kind i f := by
  unfold Dev.calVerify
  rw [hfind]
  dsimp -zeta only
  rw [hfull]
  dsimp -zeta only
  extract_lets +onlyGivenNames e1
  have he : e1 = d1 := hd1.symm
  clear_value e1
  subst he
  extract_lets +onlyGivenNames judge
  rcases hout with ⟨reason, hout⟩ | ⟨sol, hout⟩
  · rw [hout]
    rfl
  · rw [hout]
    rfl
end

end Sys2Proof.Machine

/-! O47: the statement on calibration settled. -/

namespace Sys2Proof.Machine

section
variable {s : State} {c : PqCmd} {d : Dev} (hd : d = s.began c)
include hd
theorem exec_dpdBankSelect (hready : s.ready 0x0404 c = true) (h64 : pp c 0 < 64) (h2 : pp c 1 < 2) (hbad : d.badTarget c = false)
    (htl : c.timeline.toNat = d.rf (DFE_TX_t_DPD_TIMELINE (pp c 0))) (hpend : d.flag (bkPending 0 (pp c 0)) = false) (hheld : d.flag (bkHeld 0 (pp c 0)) = false) :
    exec (.dpdBankSelect c) s = .next (s.on <|
      if d.rf (DFE_TX_t_DPD_ACTIVE (pp c 0)) = pp c 1 then d.finR c [d.refK c.timeline.toNat % 65536]
      else if (d.tl c.timeline.toNat).started && ahead (d.tl c.timeline.toNat).k c.target.toNat == 1 then d.dpdArmFor (pp c 0) c.queue.val c.tag.toNat
      else d.stage c 0x0404 true (.dpdSelect (pp c 0) (pp c 1))) := by
  have hparam : (decide (64 ≤ pp c 0) || decide (2 ≤ pp c 1) || d.badTarget c || c.timeline.toNat != d.rf (DFE_TX_t_DPD_TIMELINE (pp c 0))) = false := by
    rw [decide_eq_false (Nat.not_le.2 h64), decide_eq_false (Nat.not_le.2 h2), hbad, htl, bne_self_eq_false]
    rfl
  refine (pq_ready hready _).trans ?_
  rw [← hd]
  exact next_on (((checks_pass _ _ _ _ _ _ hparam).trans (checks_pass _ _ _ _ _ _ (by rw [hpend, hheld]; rfl))).trans (checks_nil _ _ _))
theorem exec_calRun (hready : s.ready 0x0401 c = true) (h3 : pp c 0 ≤ 3) (hcount : pp c 1 + pp c 2 ≤ calCount (pp c 0)) (h1 : pp c 3 ≤ 1)
    (hbusy : ((upTo (min 112 (pp c 2))).map (pp c 1 + ·)).any (d.calRunning (pp c 0)) = false) :
    exec (.calRun c) s = .next (s.on <| (d.accepted c.queue.val c.tag.toNat).calStart (pp c 0) (some (c.queue.val, c.tag.toNat)) c.timeline.toNat
      (((upTo (min 112 (pp c 2))).map (pp c 1 + ·)).map fun i => (i, d.calRefuse (pp c 0) i (some c.timeline.toNat) (pp c 3)))) := by
  have hparam : (decide (3 < pp c 0) || decide (calCount (pp c 0) < pp c 1 + pp c 2) || decide (1 < pp c 3)) = false := by
    rw [decide_eq_false (Nat.not_lt.2 h3), decide_eq_false (Nat.not_lt.2 hcount), decide_eq_false (Nat.not_lt.2 h1)]
    rfl
  refine (pq_ready hready _).trans ?_
  rw [← hd]
  exact next_on (((checks_pass _ _ _ _ _ _ hparam).trans (checks_pass _ _ _ _ _ _ hbusy)).trans (checks_nil _ _ _))
theorem exec_calStatus {fig per t0 : Nat} (hready : s.ready 0x0402 c = true) (h3 : pp c 0 ≤ 3) (hcount : pp c 1 < calCount (pp c 0))
    (hlane : pp c 0 < 3 ∨ isCrx (pp c 1) = true ∨ isEl (pp c 1) = true) (hlast : Tab.find d.cal.last (128 * pp c 0 + pp c 1) = some (fig, per, t0)) :
    exec (.calStatus c) s = .next (s.on <| d.finR c [d.rf (bkActive (pp c 0) (pp c 1)), fig, per, (d.now - t0) / msT 1]) := by
  have hparam : (decide (3 < pp c 0) || decide (128 ≤ pp c 1)) = false := by
    have h128 : calCount (pp c 0) ≤ 128 := by
      unfold calCount
      split <;> omega
    rw [decide_eq_false (Nat.not_lt.2 h3), decide_eq_false (by omega)]
    rfl
  refine (pq_ready hready _).trans (next_on ?_)
  rw [← hd]
  refine ((checks_pass _ _ _ _ _ _ hparam).trans (checks_nil _ _ _)).trans ?_
  rw [hlast]
  exact congrArg (fun b => d.finR c [b, fig, per, (d.now - t0) / msT 1]) (if_pos ⟨hcount, hlane⟩)
theorem exec_calAuto (hready : s.ready 0x0403 c = true) (h3 : pp c 0 ≤ 3) : exec (.calAuto c) s = .next (s.on <|
    { d with cal.auto := Tab.setD (fun _ => 0) d.cal.auto (pp c 0) (pp c 1),
             cal.autoAt := if pp c 1 = 0 then Tab.del d.cal.autoAt (pp c 0) else Tab.put d.cal.autoAt (pp c 0) (d.now + msT (pp c 1)) }.finR c
      [Tab.getD (fun _ => 0) d.cal.auto (pp c 0)]) := by
  refine (pq_ready hready _).trans (next_on ?_)
  rw [← hd]
  exact (checks_pass _ _ _ _ _ _ (decide_eq_false (Nat.not_lt.2 h3))).trans (checks_nil _ _ _)
end

section
variable {s : State} {i : Fin 64} {r : CalRun} {x : CalTgt} {p n g : Nat}
theorem exec_alignExcitation (hfind : s.dev.calFind 2 i .gathering = some (r, x)) (htx : s.dev.txStep r = true) (hnot : (r.excited.contains i.val) = false)
    (htdd : s.dev.tddOf i = some (p, n)) (hrun : s.dev.nextGRun p ((s.dev.cal.excite.map (·.till)).foldl max s.dev.feNow) = some g) :
    exec (.alignExcitation i) s = .next (s.on <|
      { s.dev with cal.runs := s.dev.cal.runs.map fun (y : CalRun) => if y.id = r.id then { y with excited := y.excited ++ [i.val] } else y,
                   cal.excite := (s.dev.cal.excite.filter fun y => decide (s.dev.feNow < y.till + msT 1)) ++
                     [⟨i, p, s.dev.txAt (s.dev.lastDRun p g), g + usT 8, g + usT 8 + txT 4096⟩] }) := by
  refine next_on ?_
  dsimp -zeta only
  rw [hfind]
  dsimp -zeta only
  extract_lets +onlyGivenNames from_
  have hbind : ((s.dev.tddOf i).bind fun p => (s.dev.nextGRun p.1 from_).map fun t => (p.1, t)) = some (p, g) := by
    rw [htdd]
    exact congrArg (Option.map _) hrun
  rw [hbind]
  dsimp -zeta only
  extract_lets +onlyGivenNames t
  exact if_pos (by rw [htx, hnot]; rfl)
end

/-- The automatic runs of a kind are next due at `t`. -/
def Dev.withAutoAt (d : Dev) (kind t : Nat) : Dev := { d with cal.autoAt := Tab.put d.cal.autoAt kind t }
theorem exec_calAutoRun {s : State} {kind : Fin 4} {t0 : Nat} (h : Tab.find s.dev.cal.autoAt kind = some t0) {d1 d2 : Dev} (hd1 : d1 = s.dev.advanceTo t0)
    (hd2 : d2 = d1.withAutoAt kind (t0 + msT (Tab.getD (fun _ => 0) d1.cal.auto kind))) :
    exec (.calAutoRun kind) s = .next (s.on <| if ((upTo (calCount kind)).filter (d2.autoTakes kind)).isEmpty then d2
      else d2.calStart kind none 0 (((upTo (calCount kind)).filter (d2.autoTakes kind)).map fun i => (i, d2.calRefuse kind i none 0))) := by
  refine next_on ?_
  dsimp -zeta only
  rw [h]
  dsimp -zeta only
  extract_lets +onlyGivenNames e1
  have he1 : e1 = d1 := hd1.symm
  clear_value e1
  subst he1
  extract_lets +onlyGivenNames src e2
  have he2 : e2 = d2 := hd2.symm
  clear_value e2
  subst he2
  rfl

theorem exec_calTimeLimit {s : State} {kind : Fin 4} {i : Fin 112} {r : CalRun} {t : CalTgt} (h : s.dev.calFind kind i .gathering = some (r, t)) :
    exec (.calTimeLimit kind i) s = .next (s.on <| ((r.targets.filter (·.phase == .gathering)).foldl (fun d t =>
      d.calFail r t.idx (if s.dev.txStep r = true ∧ r.targets.length ≠ 1 ∧ (r.excited.contains t.idx) = false then 2 else 1) 0)
      (s.dev.advanceTo (r.since + calLimit kind))).calSettle r.id) := by
  have hwhy (t : CalTgt) : (if (s.dev.txStep r && decide (r.targets.length ≠ 1) && !r.excited.contains t.idx) = true then 2 else 1) =
      if s.dev.txStep r = true ∧ r.targets.length ≠ 1 ∧ (r.excited.contains t.idx) = false then 2 else 1 := by
    simp only [Bool.and_eq_true, decide_eq_true_eq, Bool.not_eq_true', and_assoc]
  refine next_on ?_
  dsimp -zeta only
  rw [h]
  dsimp -zeta only
  extract_lets +onlyGivenNames d1 tx
  simp only [tx, hwhy]
  rfl

/-- Settles O47: the rows of coefficient banks and calibration. -/
theorem calibrationRules : Obligations.CalibrationRules := by
  intro s
  refine ⟨?_, ?_, ?_, ?_, ?_, ?_, ?_, ?_, ?_, ?_, ?_⟩
  · intro init kind i value cmds r hr hset
    exact ⟨fun h => (Dev.selWr_taken hr hset).trans (if_neg (by rw [h]; decide)), fun h => (Dev.selWr_taken hr hset).trans (if_pos h)⟩
  · exact fun init t lane value => ⟨rfl, rfl, rfl, rfl⟩
  · intro d a k _ _ hsrc
    obtain ⟨hnow, -⟩ := d.swKept_keeps a k
    obtain ⟨hswitched, -⟩ := Dev.rest_fields ((d.swKept a k).rest_switched a k (d.rf (bkActive a.kind a.target)))
    obtain ⟨hregs, hnow'⟩ := ((d.swKept a k).switched a k (d.rf (bkActive a.kind a.target))).windowsRestart_keeps a.kind a.target (d.boundaryT a.tl k)
    rw [Dev.switchBank_sel hsrc]
    exact ⟨(Dev.rf_congr hregs _).trans (Dev.active_switched _ _ _ _), hnow'.trans (hswitched.trans hnow)⟩
  · intro c d n
    refine ⟨?_, ?_, ?_, ?_⟩
    · intro hready h64 h2 hbad htl hpend hheld
      have hgo := exec_dpdBankSelect (d := d) rfl hready h64 h2 hbad htl hpend hheld
      refine ⟨fun h => hgo.trans (next_on (if_pos h)), fun h hnot => hgo.trans (next_on ((if_neg h).trans (if_neg ?_)))⟩
      rw [show (d.tl c.timeline.toNat).started = false from hnot, Bool.false_and]
      exact Bool.false_ne_true
    · intro ts hready h3 hcount h1 hbusy
      exact exec_calRun rfl hready h3 hcount h1 hbusy
    · exact fun fig per t0 hready h3 hcount hlane hlast => exec_calStatus rfl hready h3 hcount hlane hlast
    · exact fun hready h3 => exec_calAuto rfl hready h3
  · intro d a k hsrc r hr t ht hphase hm
    rw [Dev.switchBank_sel hsrc] at hr
    exact Dev.windowsRestart_wins hr ht hphase hm
  · intro kind i r t fig stat hfind hscan
    refine ⟨next_on (Dev.calStat_linkDown hfind hscan), ?_, fun hlate => (next_on (Dev.calStat_late hfind hscan hlate)).trans rfl⟩
    intro full hfull hnow
    refine ⟨fun h2 hlen hin => next_on (Dev.calStat_alone hfind hscan hfull h2 hlen hnow hin), ?_⟩
    intro hmany hexc ready d1 out hin
    have hgets {o : CalSol} (ho : out = o) : exec (.calStatisticDone kind i false fig stat) s = .next (s.on <| d1.calGets r kind i o) :=
      next_on (Dev.calStat_gets hfind hscan hfull hmany hexc hnow rfl hin rfl ho)
    refine ⟨fun ho h0 => ?_, fun ho h0 => ?_, fun reason f ho => ?_, fun f sol ho => ?_⟩
    · exact (hgets ho).trans (next_on (if_pos h0))
    · exact (hgets ho).trans (next_on (if_neg h0))
    · exact hgets ho
    · exact hgets ho
  · exact fun kind i r t hfind => exec_calTimeLimit hfind
  · intro kind i r x fig stat full hfind hfull d1 out
    refine ⟨fun ho h0 => ?_, fun ho h0 => ?_, fun f hf => ?_⟩
    · exact next_on ((Dev.calVerify_discarded hfind hfull rfl ho).trans (if_pos h0))
    · exact next_on ((Dev.calVerify_discarded hfind hfull rfl ho).trans (if_neg h0))
    · have hgo : exec (.calVerifyDone kind i (fig, stat)) s = .next (s.on <| d1.calJudge r x kind i f) := next_on (Dev.calVerify_judged hfind hfull rfl hf)
      refine ⟨fun hworse hp => ?_, fun hworse hp => ?_, fun hworse => ?_⟩
      · rw [hgo, Dev.calJudge, if_pos hworse, if_pos hp]
      · rw [hgo, Dev.calJudge, if_pos hworse, if_neg (by rw [hp]; decide)]
      · rw [hgo, Dev.calJudge, if_neg (by rw [hworse]; decide)]
  · exact fun i r x p n g hfind htx hnot htdd hrun => exec_alignExcitation hfind htx hnot htdd hrun
  · intro kind h
    refine (next_on (b := s.dev) ?_).trans rfl
    dsimp -zeta only
    rw [h]
  · intro kind t0 h _ d1 d2
    have hgo := exec_calAutoRun h (d1 := d1) (d2 := d2) rfl rfl
    exact ⟨fun he => hgo.trans (next_on (if_pos he)), fun he => hgo.trans (next_on (if_neg (by rw [he]; decide)))⟩

end Sys2Proof.Machine

/-! O43: power-state requests, entries, switch-ons and PARK (R412-R425). -/

namespace Sys2Proof.Machine

/-! ### Commands (R413-R416) -/

section
variable {s : State} {c : PqCmd} {d : Dev} (hd : d = s.began c)
include hd
theorem exec_powerSet (hready : s.ready 0x0601 c = true) (h76 : 76 ≤ pp c 0) (h80 : pp c 0 < 80) (h4 : pp c 1 < 4) (hmay : mayTake (pp c 0) (pp c 1) = true)
    (hbusy : d.pmuBusy (pp c 0) = false) (hst : d.dom (pp c 0) ≠ pp c 1) : exec (.powerSet c) s = .next (s.on <|
      if d.domOn (pp c 0) && decide (pp c 1 ≤ 1) then (d.enterState (pp c 0) (pp c 1)).fin c okS else d.pmuPush (pp c 0) (pp c 1) (.cmd c.queue.val c.tag.toNat)) := by
  have hparam : (decide (80 ≤ pp c 0) || decide (4 ≤ pp c 1) || !mayTake (pp c 0) (pp c 1)) = false := by
    rw [decide_eq_false (Nat.not_le.2 h80), decide_eq_false (Nat.not_le.2 h4), hmay]
    rfl
  have hpod : decide (pp c 0 < 36) = false := decide_eq_false (by omega)
  have hbank : decide (pp c 0 < 75) = false := decide_eq_false (by omega)
  have hlane : decide (pp c 0 ≤ 62) = false := decide_eq_false (by omega)
  refine (pq_ready hready _).trans (next_on ?_)
  rw [← hd, Dev.powerSet]
  rw [checks_pass _ _ _ _ _ _ hparam, checks_pass _ _ _ _ _ _ (by rw [hpod]; rfl), checks_pass _ _ _ _ _ _ hbusy, checks_pass _ _ _ _ _ _ (by rw [hpod]; rfl),
    checks_pass _ _ _ _ _ _ (by rw [hbank, Bool.and_false]; rfl), checks_pass _ _ _ _ _ _ (by rw [hlane, Bool.and_false]; rfl),
    checks_pass _ _ _ _ _ _ (beq_eq_false_iff_ne.2 hst), checks_nil]
theorem exec_powerStatus (hready : s.ready 0x0602 c = true) (h80 : pp c 0 < 80) : exec (.powerStatus c) s = .next (s.on <| d.finR c
    [d.dom (pp c 0), d.rf (PMU_PDd_REFUSED (pp c 0)), d.rf (PMU_PDd_LAST_REFUSER (pp c 0)) * 256 + d.rf (PMU_PDd_LAST_SOURCE (pp c 0))]) := by
  refine (pq_ready hready _).trans (next_on ?_)
  rw [← hd]
  exact (checks_pass _ _ _ _ _ _ (decide_eq_false (Nat.not_le.2 h80))).trans (checks_nil _ _ _)
end

/-! ### Entries (R417-R419) -/

theorem exec_domainEntry {s : State} {r : PmuReq} (h : s.dev.pmuFirst = some r) (hon : s.dev.isSwitchOn r = false) (hdom : s.dev.dom r.dom ≠ r.target) (h2 : 2 ≤ r.target) :
    exec .domainEntry s = .next (s.on <| s.dev.entryBegin r) := by
  refine next_on ?_
  dsimp -zeta only
  rw [h]
  dsimp -zeta only
  rw [hon, if_neg Bool.false_ne_true, if_neg hdom, if_neg (by omega)]

section
variable {d : Dev} {r : PmuReq}
theorem Dev.entryBegin_unvoted (hsrc : r.src = .vote) (hon : d.domOn r.dom = true) (hvote : d.allVote r.dom = false) : d.entryBegin r = d.pmuDrop r.dom :=
  if_pos (by rw [hsrc, hon, hvote]; rfl)
variable (hgo : r.src ≠ .vote ∨ d.domOn r.dom = false ∨ d.allVote r.dom = true)
include hgo
theorem Dev.entryBegin_goes : ¬ (r.src == .vote && d.domOn r.dom && !d.allVote r.dom) = true := by
  rcases hgo with h | h | h
  · rw [beq_eq_false_iff_ne.2 h, Bool.false_and, Bool.false_and]
    exact Bool.false_ne_true
  · rw [h, Bool.and_false, Bool.false_and]
    exact Bool.false_ne_true
  · rw [h, Bool.not_true, Bool.and_false]
    exact Bool.false_ne_true
theorem Dev.entryBegin_refused {x src : Nat} (href : d.entryRefusal r.dom = some (x, src)) : d.entryBegin r = d.entryRefuse r (d.dom r.dom) x src := by
  unfold Dev.entryBegin
  rw [if_neg (Dev.entryBegin_goes hgo), href]
variable (href : d.entryRefusal r.dom = none)
include href
theorem Dev.entryBegin_ends (h : d.lastOfStop r.dom = none ∨ d.domOn r.dom = false) : d.entryBegin r = d.entryEnd r := by
  have hstop : (if d.domOn r.dom then d.lastOfStop r.dom else none) = none := by
    split
    · next hon => exact h.resolve_right (by rw [hon]; decide)
    · rfl
  unfold Dev.entryBegin
  rw [if_neg (Dev.entryBegin_goes hgo), href]
  dsimp -zeta only
  rw [hstop]
theorem Dev.entryBegin_drains {st : Nat} (hon : d.domOn r.dom = true) (hstop : d.lastOfStop r.dom = some st) :
    d.entryBegin r = ((d.fenceStop st).setDom r.dom 4).pmuUpd r.dom fun r => { r with phase := .draining d.now } := by
  unfold Dev.entryBegin
  rw [if_neg (Dev.entryBegin_goes hgo), href]
  dsimp -zeta only
  rw [if_pos hon, hstop]
end

/-- A domain with a stop of its own has no cores: a pod's stop belongs to its memory domain. -/
theorem domCores_of_stop {dom st : Nat} (h : domStop dom = some st) : domCores dom = [] := by
  unfold domStop at h
  unfold domCores
  split
  · rfl
  · next h36 =>
    rw [if_pos (by omega)] at h
    split at h
    · next h2 => rw [if_neg (by omega), if_neg (by omega)]
    · cases h
theorem Dev.drainingOf_stop {d : Dev} {st : Nat} {r : PmuReq} {t : Nat} (h : d.drainingOf st = some (r, t)) : domStop r.dom = some st := by
  obtain ⟨x, -, hx⟩ := List.exists_of_findSome?_eq_some h
  split at hx
  · split at hx
    · next hdom =>
      cases hx
      exact hdom
    · cases hx
  · cases hx
theorem exec_stopDrained {s : State} {st : Fin 28} {r : PmuReq} {t : Nat} (h : s.dev.drainingOf st = some (r, t)) {e : Dev} (he : e = s.dev.returnsHome)
    (hquiet : e.stopQuiet st = true) : exec (.stopDrained st) s = .next (s.on <| (e.setFlag (LYR_STOP_s_STS_DRAINED st) true).entryEnd r) := by
  have hwake (e : Dev) : e.wakePending r.dom = none := by
    rw [Dev.wakePending, domCores_of_stop (Dev.drainingOf_stop h)]
    rfl
  refine next_on ?_
  dsimp -zeta only
  rw [h]
  dsimp -zeta only
  extract_lets +onlyGivenNames d
  have hd : d = e := he.symm
  clear_value d
  subst hd
  rw [hquiet, hwake]
  rfl
theorem exec_ringDrainTimeout {s : State} {st : Fin 28} {r : PmuReq} {t : Nat} (h : s.dev.drainingOf st = some (r, t)) :
    exec (.ringDrainTimeout st) s = .next (s.on <| ((s.dev.advanceTo (t + usT 100)).liftFence st).entryRefuse r 0 0x02 st) := by
  refine next_on ?_
  dsimp -zeta only
  rw [h]

/-! ### Switch-ons (R421, R422) -/

section
variable {s : State} {r : PmuReq} (h : s.dev.pmuFirst = some r) (hon : s.dev.isSwitchOn r = true)
include h hon
theorem exec_domainSwitchOn_hot (hpod : r.dom < 36) (hhot : s.dev.rf THM_STS_STATE = 2) :
    exec .domainSwitchOn s = .next (s.on <| s.dev.entryRefuse r (s.dev.dom r.dom) 0x08 (s.dev.rf THM_STS_HOTTEST_TS)) := by
  refine next_on ?_
  dsimp -zeta only
  rw [h]
  dsimp -zeta only
  rw [hon, if_neg (by decide), if_pos ⟨hpod, hhot⟩]
end

/-- The last W1 began at `w`, the last of a pod domain ends at `x`. -/
def Dev.withW1 (d : Dev) (w x : Nat) : Dev := { d with pmu.lastW1 := some w, pmu.podW1End := x }
theorem Dev.withW1_keeps (d : Dev) (w x : Nat) : (d.withW1 w x).pmuShow.pmu.lastW1 = some w ∧ (d.withW1 w x).pmuShow.now = d.now ∧ (d.withW1 w x).pmuShow.cores = d.cores :=
  ⟨rfl, rfl, rfl⟩
theorem Dev.pmuUpd_keeps (d : Dev) (dom : Nat) (f : PmuReq → PmuReq) : (d.pmuUpd dom f).now = d.now ∧ (d.pmuUpd dom f).cores = d.cores := ⟨rfl, rfl⟩
theorem Dev.advanceTo_past (d : Dev) : d.advanceTo 0 = d := if_pos (Nat.zero_le _)
/-- A switch-on has begun: its domain ramps, its request waits for the domain. -/
def Dev.ramped (d : Dev) (r : PmuReq) (off : Bool) : Dev := ((d.setDom r.dom 5).bump PMU_SWITCH_ONS).pmuUpd r.dom fun r => { r with phase := .waking d.now off }
theorem Dev.ramped_keeps (d : Dev) (r : PmuReq) (off : Bool) : (d.ramped r off).now = d.now ∧ (d.ramped r off).cores = d.cores := by
  obtain ⟨hnow, hcores⟩ := Dev.pmuUpd_keeps ((d.setDom r.dom 5).bump PMU_SWITCH_ONS) r.dom fun r => { r with phase := .waking d.now off }
  rw [Dev.ramped, hnow, hcores, Dev.bump_now, Dev.bump_cores, Dev.setDom, Dev.wf_now, Dev.wf_cores]
  exact ⟨rfl, rfl⟩
theorem exec_domainSwitchOn_first {s : State} {r : PmuReq} (h : s.dev.pmuFirst = some r) (hon : s.dev.isSwitchOn r = true) (h36 : 36 ≤ r.dom) (hw : s.dev.pmu.lastW1 = none) :
    exec .domainSwitchOn s = .next (s.on <| ((s.dev.ramped r (s.dev.dom r.dom == 3)).withW1 s.dev.now
      (if r.dom < 36 then s.dev.now + w1Time r.dom else (s.dev.ramped r (s.dev.dom r.dom == 3)).pmu.podW1End)).pmuShow) := by
  refine next_on ?_
  dsimp -zeta only
  rw [h]
  dsimp -zeta only
  rw [hon, if_neg (by decide), if_neg (by omega)]
  extract_lets +onlyGivenNames t d1
  have ht : t = 0 := by
    show max (match s.dev.pmu.lastW1 with | some w => w + usT 2 | none => 0) (if r.dom < 36 then s.dev.pmu.podW1End else 0) = 0
    rw [hw, if_neg (by omega)]
    rfl
  have hd1 : d1 = s.dev := by
    show s.dev.advanceTo t = s.dev
    rw [ht]
    exact s.dev.advanceTo_past
  clear_value d1
  subst hd1
  extract_lets +onlyGivenNames off d2
  have hd2 : d2 = s.dev.ramped r off := rfl
  clear_value d2
  subst hd2
  rfl
theorem exec_domainSwitchOn_shows {s : State} {r : PmuReq} (h : s.dev.pmuFirst = some r) (hon : s.dev.isSwitchOn r = true) (h36 : 36 ≤ r.dom) (hw : s.dev.pmu.lastW1 = none) :
    nextAnd (exec .domainSwitchOn s) fun t => t.dev.pmu.lastW1 = some s.dev.now ∧ t.dev.now = s.dev.now ∧ t.dev.cores = s.dev.cores := by
  obtain ⟨hnow, hcores⟩ := s.dev.ramped_keeps r (s.dev.dom r.dom == 3)
  refine ⟨_, exec_domainSwitchOn_first h hon h36 hw, ?_⟩
  dsimp -zeta only
  rw [State.on_dev]
  generalize s.dev.ramped r (s.dev.dom r.dom == 3) = e at hnow hcores
  obtain ⟨hlast, hnow', hcores'⟩ := e.withW1_keeps s.dev.now (if r.dom < 36 then s.dev.now + w1Time r.dom else e.pmu.podW1End)
  exact ⟨hlast, hnow'.trans hnow, hcores'.trans hcores⟩

theorem exec_domainOnDone {s : State} {dom : Fin 80} {src : PmuSrc} {w1 : Nat} {off : Bool} (h : s.dev.pmuReq dom = some ⟨dom, 0, src, .waking w1 off⟩)
    (hlogic : s.dev.logicReady dom = true) (h75 : dom.val ≠ 75) : exec (.domainOnDone dom) s = .next (s.on <|
      ((((((s.dev.advanceTo (w1 + w1Time dom + usT 2 + if off then zeroFill dom else 0)).enterState dom 0).unfence dom).serviceSync.trainSync).pmuDrop
        dom).pmuAnswer src okS)) := by
  refine next_on ?_
  dsimp -zeta only
  unfold Dev.onDone
  rw [h]
  dsimp -zeta only
  rw [hlogic, if_neg (by decide)]
  extract_lets +onlyGivenNames d1 d2 d3
  have hd3 : d3 = d2 := if_neg h75
  clear_value d3
  subst hd3
  rfl

/-! ### PARK (R423-R425) -/

/-- From `d` to `e` neither time, memory, the power manager, the fetching of commands nor the state of the HIF's stop have changed. -/
structure Dev.FloorKept (d e : Dev) : Prop where
  now : e.now = d.now
  mem : e.mem = d.mem
  pmu : e.pmu = d.pmu
  fetch : e.hif.fetchStopped = d.hif.fetchStopped
  stop : e.reg (rLYR_STOP_s_STS 17) = d.reg (rLYR_STOP_s_STS 17)
theorem Dev.FloorKept.refl (d : Dev) : d.FloorKept d := ⟨rfl, rfl, rfl, rfl, rfl⟩
theorem Dev.FloorKept.trans {a b c : Dev} (h : a.FloorKept b) (h' : b.FloorKept c) : a.FloorKept c :=
  ⟨h'.now.trans h.now, h'.mem.trans h.mem, h'.pmu.trans h.pmu, h'.fetch.trans h.fetch, h'.stop.trans h.stop⟩
theorem Dev.FloorKept.foldl {α : Type} {f : Dev → α → Dev} {l : List α} (h : ∀ (d : Dev), ∀ a ∈ l, d.FloorKept (f d a)) (d : Dev) : d.FloorKept (l.foldl f d) :=
  List.foldlRecOn (motive := fun e => d.FloorKept e) l f (.refl d) fun e he a ha => he.trans (h e a ha)
theorem Dev.floorKept_of_rest {d e : Dev} (h : e.rest = d.rest) (hr : e.reg (rLYR_STOP_s_STS 17) = d.reg (rLYR_STOP_s_STS 17)) : d.FloorKept e := by
  obtain ⟨hnow, -, -, -, -, -, -, -, -, hmem, -, hpmu, -, -, -, -, -, -, -, -, hfetch, -⟩ := Dev.rest_fields h
  exact ⟨hnow, hmem, hpmu, hfetch, hr⟩
theorem Dev.floorKept_of_lane {d e : Dev} (h : d.LaneOnly e) : d.FloorKept e :=
  ⟨congrArg (·.now) h.off, congrArg (·.mem) h.off, congrArg (·.pmu) h.off, congrArg (·.hif.fetchStopped) h.off, h.reg _ (by decide) (by decide)⟩
theorem Dev.FloorKept.flag {d e : Dev} (h : d.FloorKept e) (lo w : Nat) : e.flag ⟨rLYR_STOP_s_STS 17, lo, w⟩ = d.flag ⟨rLYR_STOP_s_STS 17, lo, w⟩ :=
  congrArg (· == 1) (Dev.rf_of_reg (f := ⟨rLYR_STOP_s_STS 17, lo, w⟩) h.stop)
section
variable (d : Dev)
theorem Dev.floorKept_wf {f : Fld} (v : Nat) (h : rLYR_STOP_s_STS 17 ≠ f.off) : d.FloorKept (d.wf f v) := ⟨rfl, rfl, rfl, rfl, d.reg_wf_other f v _ h⟩
theorem Dev.floorKept_setFlag {f : Fld} (b : Bool) (h : rLYR_STOP_s_STS 17 ≠ f.off) : d.FloorKept (d.setFlag f b) := d.floorKept_wf _ h
theorem Dev.floorKept_bump {f : Fld} (h : rLYR_STOP_s_STS 17 ≠ f.off) : d.FloorKept (d.bump f) := d.floorKept_wf _ h
theorem Dev.floorKept_event (a b c e f : Nat) : d.FloorKept (d.event a b c e f) := Dev.floorKept_of_rest (d.rest_event a b c e f) (d.reg_event (by decide) a b c e f)
theorem Dev.floorKept_complete (q tag st : Nat) (r : List Nat) : d.FloorKept (d.complete q tag st r) :=
  Dev.floorKept_of_rest (d.rest_complete q tag st r) (d.reg_complete_free ⟨by decide, by decide, by decide, by decide, by decide, by decide⟩ q tag st r)
theorem Dev.floorKept_lines (t : Tab Bool) : d.FloorKept { d with dfe.lines := t } := ⟨rfl, rfl, rfl, rfl, rfl⟩
theorem Dev.floorKept_tmu (x : Tmu) : d.FloorKept { d with tmu := x } := ⟨rfl, rfl, rfl, rfl, rfl⟩
theorem Dev.floorKept_fresh (m : Nat) : d.FloorKept (d.fresh m).1 := ⟨rfl, rfl, rfl, rfl, rfl⟩
theorem Dev.floorKept_enterState (dom st : Nat) : d.FloorKept (d.enterState dom st) :=
  (d.floorKept_wf _ (by dsimp only [rLYR_STOP_s_STS, rPMU_PDd_STS]; omega)).trans (Dev.floorKept_bump _ (by dsimp only [rLYR_STOP_s_STS, rPMU_PDd_TRANSITIONS]; omega))
theorem Dev.floorKept_linesPark : d.FloorKept d.linesPark := .foldl (fun d l _ => by
  split
  · exact d.floorKept_lines _
  · exact .refl d) d
theorem Dev.floorKept_putTime {f : Nat → Fld} (t : Nat) (h : ∀ i, rLYR_STOP_s_STS 17 ≠ (f i).off) : d.FloorKept (d.putTime f t) := .foldl (fun d i _ => d.floorKept_wf _ (h i)) d
theorem Dev.floorKept_setQuality (st reason : Nat) : d.FloorKept (d.setQuality st reason) := by
  unfold Dev.setQuality
  dsimp only
  split
  · exact .refl d
  · exact ((d.floorKept_wf _ (by decide)).trans (Dev.floorKept_event _ _ _ _ _ _)).trans (Dev.floorKept_tmu _ _)
theorem Dev.floorKept_loadBank (b inc : Nat) : d.FloorKept (d.loadBank b inc) :=
  (d.floorKept_wf _ (by dsimp only [rLYR_STOP_s_STS, rTMU_INC_b_NS]; omega)).trans (Dev.floorKept_wf _ _ (by dsimp only [rLYR_STOP_s_STS, rTMU_INC_b_FRAC]; omega))
theorem rcsw_other (i : Nat) : rLYR_STOP_s_STS 17 ≠ (TMU_RCSW_i_TIME i).off := by
  dsimp only [rLYR_STOP_s_STS, rTMU_RCSW_i]
  omega
theorem Dev.floorKept_toRc : d.FloorKept d.toRc := by
  unfold Dev.toRc
  extract_lets +onlyGivenNames a x d1 d2
  have h1 : d.FloorKept d1 := ((d.floorKept_fresh _).trans (x.1.floorKept_loadBank _ _)).trans (Dev.floorKept_wf _ _ (by decide))
  have h2 : d.FloorKept d2 := h1.trans (((d1.floorKept_setFlag _ (by decide)).trans (Dev.floorKept_putTime _ _ rcsw_other)).trans (Dev.floorKept_setQuality _ _ _))
  clear_value d2
  exact h2.trans (d2.floorKept_tmu _)
theorem Dev.floorKept_fromRc : d.FloorKept d.fromRc := by
  unfold Dev.fromRc
  split
  · exact .refl d
  · extract_lets +onlyGivenNames d1
    have h1 : d.FloorKept d1 := ((d.floorKept_wf _ (by decide)).trans (Dev.floorKept_setFlag _ _ (by decide))).trans (Dev.floorKept_putTime _ _ rcsw_other)
    clear_value d1
    have h2 : d.FloorKept { d1 with tmu.parkBank := none } := h1.trans (d1.floorKept_tmu _)
    dsimp only
    split
    · exact h2.trans (Dev.floorKept_setQuality _ _ _)
    · exact h2
theorem Dev.now_returnsHome : d.returnsHome.now = d.now := by
  have hlyr (d : Dev) (l : Lyr) : (d.withLyr l).now = d.now := rfl
  have hstream (d : Dev) (k : Nat) (f : Stream → Stream) : (d.updStream k f).now = d.now := rfl
  have hhome : d.noReturns.mHome.now = d.now := by
    refine (foldl_keeps (p := fun e => e.now) (fun e m _ => ?_) _).trans ((hlyr _ _).trans (hlyr d _))
    split
    · exact Dev.bump_now _ _
    · rfl
  exact (foldl_keeps (p := fun e => e.now) (fun e r _ => hstream e _ _) _).trans hhome
/-- A fenced stop that owes nothing. -/
theorem Dev.fenceStop_drained (st : Nat) : ((d.fenceStop st).setFlag (LYR_STOP_s_STS_DRAINED st) true).flag (LYR_STOP_s_STS_FENCED st) = true ∧
    ((d.fenceStop st).setFlag (LYR_STOP_s_STS_DRAINED st) true).flag (LYR_STOP_s_STS_DRAINED st) = true ∧
    ((d.fenceStop st).setFlag (LYR_STOP_s_STS_DRAINED st) true).now = d.now := by
  refine ⟨?_, Dev.flag_setFlag_same _ _ _ (by decide : 1 + 1 ≤ 32) rfl, rfl⟩
  rw [Dev.setFlag, Dev.flag_wf_field _ _ (by decide : 1 + 1 ≤ 32) (Or.inr (by decide : 0 + 1 ≤ 1)), Dev.fenceStop, Dev.flag_congr (Dev.regs_mSend _ _ _), Dev.setFlag,
    Dev.flag_wf_field _ _ (by decide : 1 + 1 ≤ 32) (Or.inr (by decide : 0 + 1 ≤ 1)), Dev.flag_setFlag_same _ _ _ (by decide : 0 + 1 ≤ 32) rfl]
end

/-- The device parked: what PARK leaves beside registers. -/
def Dev.parked (d : Dev) (p : Park) : Dev := { d with pmu.park := some p, hif.fetchStopped := true, twin.silent := 2 }
theorem Dev.parked_keeps (d : Dev) (p : Park) : (d.parked p).pmu.park = some p ∧ (d.parked p).hif.fetchStopped = true ∧ (d.parked p).regs = d.regs := ⟨rfl, rfl, rfl⟩

theorem exec_park_parks {s : State} {c : PqCmd} {d : Dev} (hd : d = s.began c) (hready : s.ready 0x0603 c = true) (hpaired : d.paired = false) (hms : pp c 0 ≠ 0)
    (hbusy : d.parkBusy = false) (href : d.parkRefusal = none) (hwaits : s.dev.parkWaits c = false) : nextAnd (exec (.park c none) s) fun t =>
      t.dev.flag (LYR_STOP_s_STS_FENCED 17) = true ∧ t.dev.flag (LYR_STOP_s_STS_DRAINED 17) = true ∧
      t.dev.hif.fetchStopped = true ∧ (t.dev.pmu.park.map fun p => (p.queue, p.tag, p.since, p.wakeAt)) =
        some (c.queue.val, c.tag.toNat, s.dev.now, some (s.dev.now + msT (pp c 0))) := by
  have hparam : (d.paired || (pp c 0 == 0 && pp c 1 == 0 && pp c 2 == 0)) = false := by
    rw [hpaired, beq_eq_false_iff_ne.2 hms]
    rfl
  have hrun : exec (.park c none) s = .next (s.on (d.parkCmd c none)) := by
    refine (next_on (if_neg (by rw [hwaits]; decide))).trans ((pq_ready hready fun d => d.parkCmd c none).trans ?_)
    rw [hd]
  have hnow : d.now = s.dev.now := by
    rw [hd]
    exact (Dev.rest_fields (began_rest s c)).1
  have hcmd : ∃ e : Dev, ((d.returnsHome.fenceStop 17).setFlag (LYR_STOP_s_STS_DRAINED 17) true).FloorKept e ∧ d.parkCmd c none =
      (e.parked ⟨c.queue.val, c.tag.toNat, pp c 1 + 2 ^ 32 * pp c 2, ((d.returnsHome.fenceStop 17).setFlag (LYR_STOP_s_STS_DRAINED 17) true).now,
        if pp c 0 = 0 then none else some (((d.returnsHome.fenceStop 17).setFlag (LYR_STOP_s_STS_DRAINED 17) true).now + msT (pp c 0))⟩).setFlag MGT_TWIN_STS_ROLE_OUT false := by
    refine ⟨_, ((Dev.floorKept_linesPark _).trans (.foldl (l := [76, 62, 78]) (fun d x _ => d.floorKept_enterState x 2) _)).trans (Dev.floorKept_toRc _), ?_⟩
    unfold Dev.parkCmd
    rw [checks_pass _ _ _ _ _ _ hparam, checks_pass _ _ _ _ _ _ hbusy, checks_nil, href]
    rfl
  obtain ⟨hfenced, hdrained, hnow'⟩ := d.returnsHome.fenceStop_drained 17
  obtain ⟨e, hkept, hcmd⟩ := hcmd
  refine ⟨_, hrun, ?_⟩
  obtain ⟨hpark, hfetch, hregs⟩ := e.parked_keeps ⟨c.queue.val, c.tag.toNat, pp c 1 + 2 ^ 32 * pp c 2, ((d.returnsHome.fenceStop 17).setFlag (LYR_STOP_s_STS_DRAINED 17) true).now,
        if pp c 0 = 0 then none else some (((d.returnsHome.fenceStop 17).setFlag (LYR_STOP_s_STS_DRAINED 17) true).now + msT (pp c 0))⟩
  rw [State.on_dev, hcmd]
  refine ⟨?_, ?_, hfetch, ?_⟩
  · rw [Dev.setFlag, Dev.flag_wf_other _ _ (by decide), Dev.flag_congr hregs, hkept.flag, hfenced]
  · rw [Dev.setFlag, Dev.flag_wf_other _ _ (by decide), Dev.flag_congr hregs, hkept.flag, hdrained]
  · rw [Dev.setFlag_pmu, hpark, Option.map_some, if_neg hms, hnow', Dev.now_returnsHome, hnow]

/-- The device is parked no longer. -/
def Dev.unparked (d : Dev) : Dev := { d with pmu.park := none, hif.fetchStopped := false }
theorem Dev.unparked_keeps (d : Dev) : d.unparked.pmu.park = none ∧ d.unparked.hif.fetchStopped = false ∧ d.unparked.regs = d.regs ∧ d.unparked.now = d.now ∧
    d.unparked.mem = d.mem := ⟨rfl, rfl, rfl, rfl, rfl⟩
/-- A domain's stop is lifted: time and memory stand, and no other stop's state is written. -/
theorem Dev.unfence_keeps (d : Dev) (dom : Nat) : (d.unfence dom).now = d.now ∧ (d.unfence dom).mem = d.mem := by
  have hlift (st : Nat) : (d.liftFence st).now = d.now ∧ (d.liftFence st).mem = d.mem := by
    unfold Dev.liftFence
    dsimp only
    split <;> exact ⟨rfl, rfl⟩
  unfold Dev.unfence
  split
  · exact ⟨rfl, rfl⟩
  · exact hlift _
theorem Dev.liftFence_lifted (d : Dev) (st : Nat) : ((d.liftFence st).setFlag (LYR_STOP_s_STS_DRAINED st) false).flag (LYR_STOP_s_STS_FENCED st) = false := by
  have hpartial (e : Dev) (l : List Nat) : ({ e with lyr.partialStops := l } : Dev).regs = e.regs := rfl
  have hlift : (d.liftFence st).flag (LYR_STOP_s_STS_FENCED st) = false := by
    have hsent : ((d.setFlag (LYR_STOP_s_STS_FENCED st) false).mSend 28 st).flag (LYR_STOP_s_STS_FENCED st) = false := by
      rw [Dev.flag_congr (Dev.regs_mSend _ _ _), Dev.flag_setFlag_same _ _ _ (by decide : 0 + 1 ≤ 32) rfl]
    unfold Dev.liftFence
    dsimp only
    split
    · rw [Dev.flag_congr (hpartial _ _), hsent]
    · exact hsent
  rw [Dev.setFlag, Dev.flag_wf_field _ _ (by decide : 1 + 1 ≤ 32) (Or.inr (by decide : 0 + 1 ≤ 1)), hlift]

theorem exec_parkWake_wakes {s : State} {p : Park} (h : s.dev.pmu.park = some p) : nextAnd (exec (.parkWake 0x22) s) fun t =>
    t.dev.pmu.park = none ∧ t.dev.flag (LYR_STOP_s_STS_FENCED 17) = false ∧ t.dev.hif.fetchStopped = false ∧ t.dev.now = s.dev.now ∧ t.dev.mem.cells = s.dev.mem.cells := by
  have hon (d : Dev) (x : Nat) : (((d.enterState x 0).bump PMU_SWITCH_ONS).unfence x).now = d.now ∧ (((d.enterState x 0).bump PMU_SWITCH_ONS).unfence x).mem = d.mem := by
    obtain ⟨hnow, hmem⟩ := Dev.unfence_keeps ((d.enterState x 0).bump PMU_SWITCH_ONS) x
    rw [hnow, hmem, Dev.bump_now, Dev.bump_mem, Dev.enterState, Dev.bump_now, Dev.bump_mem, Dev.setDom, Dev.wf_now, Dev.wf_mem]
    exact ⟨rfl, rfl⟩
  have hcmd : ∃ (e : Dev) (ms : Nat), e.flag (LYR_STOP_s_STS_FENCED 17) = false ∧ e.now = s.dev.now ∧ e.mem = s.dev.mem ∧
      s.dev.parkWake 0x22 = (((e.serviceSync.bump PMU_PARKS).bumpBy PMU_PARK_MS ms).unparked).fromRc.complete p.queue p.tag okS [ms] := by
    have hwakes : s.dev.wakesPark p 0x22 = true := by
      unfold Dev.wakesPark
      rw [show ((0x22 : Nat) == 0x22) = true from rfl, Bool.or_true, Bool.true_or]
    obtain ⟨n1, m1⟩ := hon s.dev 78
    obtain ⟨n2, m2⟩ := hon (((s.dev.enterState 78 0).bump PMU_SWITCH_ONS).unfence 78) 62
    obtain ⟨n3, m3⟩ := hon (((((s.dev.enterState 78 0).bump PMU_SWITCH_ONS).unfence 78).enterState 62 0 |>.bump PMU_SWITCH_ONS).unfence 62) 76
    refine ⟨_, (s.dev.now - p.since) / msT 1, ?_, n3.trans (n2.trans n1), m3.trans (m2.trans m1), ?_⟩
    · exact Dev.liftFence_lifted _ 17
    · unfold Dev.parkWake
      rw [h]
      dsimp -zeta only
      rw [hwakes, if_neg (by decide), if_neg (by decide)]
      rfl
  obtain ⟨e, ms, hfenced, hnow, hmem, hcmd⟩ := hcmd
  have hms (d : Dev) (n : Nat) : d.FloorKept (d.bumpBy PMU_PARK_MS n) := d.floorKept_wf _ (by decide)
  have hsync : e.FloorKept ((e.serviceSync.bump PMU_PARKS).bumpBy PMU_PARK_MS ms) :=
    ((Dev.floorKept_of_lane e.laneOnly_serviceSync).trans (Dev.floorKept_bump _ (by decide))).trans (hms _ _)
  generalize (e.serviceSync.bump PMU_PARKS).bumpBy PMU_PARK_MS ms = e2 at hcmd hsync
  obtain ⟨hpark, hfetch, hregs, hnow2, hmem2⟩ := e2.unparked_keeps
  have hdone : e2.unparked.FloorKept (e2.unparked.fromRc.complete p.queue p.tag okS [ms]) := (Dev.floorKept_fromRc _).trans (Dev.floorKept_complete _ _ _ _ _)
  refine nextAnd_act ?_
  rw [State.on_dev, show s.dev.parkWake (BitVec.toNat (0x22 : BitVec 8)) = _ from hcmd]
  refine ⟨(congrArg (·.park) hdone.pmu).trans hpark, (hdone.flag _ _).trans ?_, hdone.fetch.trans hfetch, ?_, ?_⟩
  · rw [Dev.flag_congr hregs, hsync.flag, hfenced]
  · rw [hdone.now, hnow2, hsync.now, hnow]
  · rw [hdone.mem, hmem2, hsync.mem, hmem]

/-- Settles O43: the rows of power states and PARK. -/
theorem powerRules : Obligations.PowerRules := by
  intro s
  refine ⟨?_, ?_, ?_, ?_, ?_, ?_, ?_, ?_⟩
  · intro c d dom st
    refine ⟨fun hready h76 h80 h4 hmay hbusy hst => ?_, fun hready h80 => exec_powerStatus rfl hready h80⟩
    have hgo := exec_powerSet (d := d) rfl hready h76 h80 h4 hmay hbusy hst
    refine ⟨fun hon h1 => hgo.trans (next_on (if_pos ?_)), fun h => hgo.trans (next_on (if_neg ?_))⟩
    · rw [show d.domOn (pp c 0) = true from hon, decide_eq_true h1]
      rfl
    · rw [Bool.and_eq_true, decide_eq_true_eq]
      intro ⟨hon, h1⟩
      rcases h with h | h
      · exact Bool.false_ne_true (h.symm.trans hon)
      · exact absurd h (Nat.not_le.2 (Nat.lt_succ_of_le h1))
  · intro r h hon hdom h2
    have hgo := exec_domainEntry h hon hdom h2
    refine ⟨fun hsrc hon' hvote => hgo.trans (next_on (Dev.entryBegin_unvoted hsrc hon' hvote)), fun hsrc => ⟨fun x src href => ?_, fun href hend => ?_, fun st href hon' hstop => ?_⟩⟩
    · exact hgo.trans (next_on (Dev.entryBegin_refused hsrc href))
    · exact hgo.trans (next_on (Dev.entryBegin_ends hsrc href hend))
    · exact hgo.trans (next_on (Dev.entryBegin_drains hsrc href hon' hstop))
  · intro st r t h
    refine ⟨?_, exec_ringDrainTimeout h⟩
    intro e hquiet
    exact exec_stopDrained h rfl hquiet
  · exact fun r h hon h36 hw _ => exec_domainSwitchOn_shows h hon h36 hw
  · exact fun r h hon hpod hhot => exec_domainSwitchOn_hot h hon hpod hhot
  · exact fun dom src w1 off h hlogic h75 => exec_domainOnDone h hlogic h75
  · intro c d hready hpaired hms hbusy href hwaits
    exact exec_park_parks rfl hready hpaired hms hbusy href hwaits
  · intro p h
    refine ⟨fun src hnot => (next_on (b := s.dev) ?_).trans rfl, exec_parkWake_wakes h⟩
    dsimp -zeta only
    unfold Dev.parkWake
    rw [h]
    dsimp -zeta only
    rw [hnot]
    rfl

end Sys2Proof.Machine

/-! SUPPORT. The groups of a device and the time steps its groups have commanded: what leaves both alone (R55, R59, R396). -/

namespace Sys2Proof.Machine

/-- The time steps that groups have commanded and the groups themselves. -/
def Dev.owed (d : Dev) : List Int × Tab TxnSlot := (d.tmu.applyDue, d.txns)

theorem Dev.owed_eq {d e : Dev} (hdue : e.tmu.applyDue = d.tmu.applyDue) (htxns : e.txns = d.txns) : e.owed = d.owed := Prod.ext hdue htxns
theorem Dev.owed_of_rest {d e : Dev} (h : e.rest = d.rest) : e.owed = d.owed := Dev.owed_eq (congrArg (·.tmu.applyDue) h) (congrArg (·.txns) h)
theorem Dev.owed_of_offCore {d e : Dev} (h : e.offCore = d.offCore) : e.owed = d.owed := Dev.owed_eq (congrArg (·.tmu.applyDue) h) (congrArg (·.txns) h)
theorem Dev.owed_of_offWds {d e : Dev} (h : e.offWds = d.offWds) : e.owed = d.owed := Dev.owed_eq (congrArg (·.tmu.applyDue) h) (congrArg (·.txns) h)
theorem Dev.owed_of_offBus {d e : Dev} (h : e.offBus = d.offBus) : e.owed = d.owed := Dev.owed_eq (congrArg (·.tmu.applyDue) h) (congrArg (·.txns) h)
theorem Dev.owed_of_offTime {d e : Dev} (h : e.offTime = d.offTime) : e.owed = d.owed := Dev.owed_eq (congrArg (·.tmu.applyDue) h) (congrArg (·.txns) h)
theorem Dev.owed_of_offAccess {d e : Dev} (h : e.offAccess = d.offAccess) : e.owed = d.owed := Dev.owed_eq (congrArg (·.tmu.applyDue) h) (congrArg (·.txns) h)
theorem Dev.LaneOnly.owed {d e : Dev} (h : d.LaneOnly e) : e.owed = d.owed := Dev.owed_eq (congrArg (·.tmu.applyDue) h.off) (congrArg (·.txns) h.off)

/-- A device written out owes what its two fields say. -/
@[simp ↓] theorem Dev.owed_mk (now cyc regs guardOpen free hif tls txns txnOrd fw wds cores pods mem lyr pmu twin marrow ledger thm tmu eth zth cal dfe nbb) :
    Dev.owed ⟨now, cyc, regs, guardOpen, free, hif, tls, txns, txnOrd, fw, wds, cores, pods, mem, lyr, pmu, twin, marrow, ledger, thm, tmu, eth, zth, cal, dfe, nbb⟩ =
      (tmu.applyDue, txns) := id rfl
@[simp] theorem Dev.owed_fields (d : Dev) : (d.tmu.applyDue, d.txns) = d.owed := (Dev.owed_eq (d := d) rfl rfl)
@[simp] theorem Dev.owed_ite (p : Prop) [Decidable p] (d e : Dev) : (if p then d else e).owed = if p then d.owed else e.owed := apply_ite _ _ _ _
@[simp] theorem Dev.owed_foldl {α : Type} {f : Dev → α → Dev} (h : ∀ d a, (f d a).owed = d.owed) (l : List α) (d : Dev) : (l.foldl f d).owed = d.owed :=
  foldl_keeps (fun d a _ => h d a) d

/-! ### Registers, time and free values -/

section
variable (d : Dev)
@[simp] theorem Dev.owed_setReg (o v : Nat) : (d.setReg o v).owed = d.owed := Dev.owed_eq rfl rfl
@[simp] theorem Dev.owed_wf (f : Fld) (v : Nat) : (d.wf f v).owed = d.owed := Dev.owed_eq rfl rfl
@[simp] theorem Dev.owed_setFlag (f : Fld) (b : Bool) : (d.setFlag f b).owed = d.owed := Dev.owed_eq rfl rfl
@[simp] theorem Dev.owed_bumpBy (f : Fld) (n : Nat) : (d.bumpBy f n).owed = d.owed := Dev.owed_eq rfl rfl
@[simp] theorem Dev.owed_bump (f : Fld) : (d.bump f).owed = d.owed := Dev.owed_eq rfl rfl
@[simp] theorem Dev.owed_wf64 (f g : Fld) (v : Nat) : (d.wf64 f g v).owed = d.owed := Dev.owed_eq rfl rfl
@[simp] theorem Dev.owed_regErr (e : RegErr) (off : Nat) (init : Initiator) : (d.regErr e off init).owed = d.owed := Dev.owed_of_offBus (d.offBus_regErr e off init)
@[simp] theorem Dev.owed_busWr (init : Initiator) (off v : Nat) : (d.busWr init off v).1.owed = d.owed := Dev.owed_of_offBus (d.offBus_busWr init off v)
@[simp] theorem Dev.owed_busReg (init : Initiator) (off v : Nat) : (d.busReg init off v).owed = d.owed := d.owed_busWr init off v
@[simp] theorem Dev.owed_advanceTo (t : Nat) : (d.advanceTo t).owed = d.owed := Dev.owed_of_offTime (d.offTime_advanceTo t)
@[simp] theorem Dev.owed_fresh (m : Nat) : (d.fresh m).1.owed = d.owed := Dev.owed_eq rfl rfl
@[simp] theorem Dev.owed_setTl (n : Nat) (t : Timeline) : (d.setTl n t).owed = d.owed := Dev.owed_eq rfl rfl

/-! ### Posting, health and the recorder -/

@[simp] theorem Dev.owed_hostWrite (a : Nat) (bs : List Byte) : (d.hostWrite a bs).owed = d.owed := Dev.owed_of_rest (d.rest_hostWrite a bs)
@[simp] theorem Dev.owed_updQp (q : Nat) (f : QPair → QPair) : (d.updQp q f).owed = d.owed := Dev.owed_of_rest (d.rest_updQp q f)
@[simp] theorem Dev.owed_showFull (q : Nat) : (d.showFull q).owed = d.owed := Dev.owed_of_rest (d.rest_showFull q)
@[simp] theorem Dev.owed_countTrigger (q : Nat) : (d.countTrigger q).owed = d.owed := Dev.owed_of_rest (d.rest_countTrigger q)
@[simp] theorem Dev.owed_event (src code a b c : Nat) : (d.event src code a b c).owed = d.owed := Dev.owed_of_rest (d.rest_event src code a b c)
@[simp] theorem Dev.owed_pairStart (q : Nat) : (d.pairStart q).owed = d.owed := Dev.owed_of_rest (d.rest_pairStart q)
@[simp] theorem Dev.owed_settleStop (q : Nat) : (d.settleStop q).owed = d.owed := Dev.owed_of_rest (d.rest_settleStop q)
@[simp] theorem Dev.owed_flush (q : Nat) : (d.flush q).owed = d.owed := Dev.owed_of_rest (d.rest_flush q)
@[simp] theorem Dev.owed_complete (q tag st : Nat) (r : List Nat) : (d.complete q tag st r).owed = d.owed := Dev.owed_of_rest (d.rest_complete q tag st r)
@[simp] theorem Dev.owed_up (m tag st k fl : Nat) (b : List Nat) : (d.up m tag st k fl b).owed = d.owed := Dev.owed_of_rest (d.rest_up m tag st k fl b)
@[simp] theorem Dev.owed_recAdd (t tl p : Nat) (b : Option (List Byte)) : (d.recAdd t tl p b).owed = d.owed := Dev.owed_of_rest (d.rest_recAdd t tl p b)
@[simp] theorem Dev.owed_drainLog : d.drainLog.owed = d.owed := Dev.owed_of_rest d.rest_drainLog
@[simp] theorem Dev.owed_recSource (n : Nat) : (d.recSource n).owed = d.owed := Dev.owed_of_rest (d.rest_recSource n)
@[simp] theorem Dev.owed_healthCode (b c n : Nat) : (d.healthCode b c n).owed = d.owed := Dev.owed_of_rest (d.rest_healthCode b c n)
@[simp] theorem Dev.owed_health (b c n : Nat) : (d.health b c n).owed = d.owed := Dev.owed_of_rest (d.rest_health b c n)
@[simp] theorem Dev.owed_mSend (a b : Nat) : (d.mSend a b).owed = d.owed := Dev.owed_eq rfl rfl

/-! ### Cores and coprocessors -/

@[simp] theorem Dev.owed_updCore (c : Nat) (f : Core → Core) : (d.updCore c f).owed = d.owed := Dev.owed_eq rfl rfl
@[simp] theorem Dev.owed_setLatch (c b : Nat) : (d.setLatch c b).owed = d.owed := Dev.owed_eq rfl rfl
@[simp] theorem Dev.owed_setCoreState (c v : Nat) : (d.setCoreState c v).owed = d.owed := Dev.owed_eq rfl rfl
@[simp] theorem Dev.owed_podWrite (p off : Nat) (bs : List Byte) : (d.podWrite p off bs).owed = d.owed := Dev.owed_eq rfl rfl
@[simp] theorem Dev.owed_cpxShow (p c : Nat) : (d.cpxShow p c).owed = d.owed := by
  unfold Dev.cpxShow
  simp
@[simp] theorem Dev.owed_cpxUpd (seq : Nat) (f : CpxInst → CpxInst) : (d.cpxUpd seq f).owed = d.owed := Dev.owed_eq rfl rfl
@[simp] theorem Dev.owed_cpxOrderDone (i : CpxInst) : (d.cpxOrderDone i).owed = d.owed := by
  unfold Dev.cpxOrderDone
  split <;> simp
@[simp] theorem Dev.owed_cpxRecord (i : CpxInst) (r : CpxRec) (lost : Bool) : (d.cpxRecord i r lost).owed = d.owed := by
  unfold Dev.cpxRecord
  simp
@[simp] theorem Dev.owed_cpxCommit (c seq : Nat) : (d.cpxCommit c seq).owed = d.owed := by
  unfold Dev.cpxCommit
  split <;> simp
@[simp] theorem Dev.owed_stageStall (p u : Nat) : (d.stageStall p u).owed = d.owed := by
  unfold Dev.stageStall
  simp
@[simp] theorem Dev.owed_cpxDrop (i : CpxInst) : (d.cpxDrop i).owed = d.owed := by
  unfold Dev.cpxDrop
  simp
@[simp] theorem Dev.owed_cpxCancel (seq : Nat) : (d.cpxCancel seq).owed = d.owed := by
  unfold Dev.cpxCancel
  split <;> simp
@[simp] theorem Dev.owed_cpxCancelAll (c : Nat) : (d.cpxCancelAll c).owed = d.owed := by
  unfold Dev.cpxCancelAll
  simp
@[simp] theorem Dev.owed_faultRecord (c pc cause : Nat) (a : Int) (el : Nat) : (d.faultRecord c pc cause a el).owed = d.owed := by
  unfold Dev.faultRecord
  simp
@[simp] theorem Dev.owed_squash (c : Nat) : (d.squash c).owed = d.owed := by
  unfold Dev.squash
  simp
@[simp] theorem Dev.owed_coreFault (c pc cause : Nat) (a : Int) (el : Nat) : (d.coreFault c pc cause a el).owed = d.owed := by
  unfold Dev.coreFault
  simp
@[simp] theorem Dev.owed_cpxTicks (fuel c : Nat) (d : Dev) : (Dev.cpxTicks fuel d c).owed = d.owed := by
  induction fuel generalizing d with
  | zero => rfl
  | succ fuel ih =>
    unfold Dev.cpxTicks
    split
    · rfl
    · split
      · rfl
      · dsimp only
        split <;> simp [ih]
@[simp] theorem Dev.owed_cpxTick (c : Nat) : (d.cpxTick c).owed = d.owed := Dev.owed_cpxTicks _ c d
end

/-- Instructions expire as their cut-off leaves the groups alone. -/
theorem Dev.owed_cpxExpire (d : Dev) (tl : Nat) (ex : Nat → Bool) (st : List Nat) {cut : Dev → CpxInst → Dev} (h : ∀ d i, (cut d i).owed = d.owed) :
    (d.cpxExpire tl ex st cut).owed = d.owed := by
  unfold Dev.cpxExpire
  simp [h]

/-! ### The work of a coprocessor unit (R178-R183) -/

@[simp] theorem Io.owed_read (io : Io) (f a n : Nat) : (io.read f a n).1.d.owed = io.d.owed := by
  unfold Io.read
  have hbus : (io.d.busRead (io.i.core / 9) a n).1.owed = io.d.owed := Dev.owed_of_offAccess (io.d.offAccess_busRead _ _ _)
  split
  · rfl
  · dsimp only
    split <;> exact hbus
@[simp] theorem Io.owed_write (io : Io) (f a : Nat) (bs : List Byte) : (io.write f a bs).d.owed = io.d.owed := by
  unfold Io.write
  have hbus : (io.d.busWrite (io.i.core / 9) io.i.job a bs).1.owed = io.d.owed := Dev.owed_of_offAccess (io.d.offAccess_busWrite _ _ _ _)
  split
  · rfl
  · split
    · rfl
    · dsimp only
      split <;> exact hbus
end Sys2Proof.Machine

/-! SUPPORT. The work of a coprocessor unit, and the jobs and instructions a fence drops, leave the groups and the time steps owed alone (R100-R104, R183). -/

namespace Sys2Proof.Machine

theorem Io.owed_readIf (p : Prop) [Decidable p] (io : Io) (f a n : Nat) (z : List Byte) : (if p then io.read f a n else (io, z)).1.d.owed = io.d.owed := by
  split
  · exact io.owed_read f a n
  · rfl
theorem Io.owed_writeIf (p : Prop) [Decidable p] (io : Io) (f a : Nat) (bs : List Byte) : (if p then io.write f a bs else io).d.owed = io.d.owed := by
  split
  · exact io.owed_write f a bs
  · rfl
/-- A fold of reads and writes. -/
theorem Io.owed_foldl {σ β : Type} {p : σ → Io} {f : σ → β → σ} {l : List β} (h : ∀ x b, (p (f x b)).d.owed = (p x).d.owed) (x : σ) : (p (l.foldl f x)).d.owed = (p x).d.owed :=
  foldl_leaves (p := fun x => (p x).d.owed) (fun x b _ => h x b) x

/-! ### Transforms and detection -/

theorem owed_xfmOne (ds : List Byte) (acc : Io × Int × Nat) (t : Nat) : (xfmOne ds acc t).1.d.owed = acc.1.d.owed := by
  unfold xfmOne
  exact (Io.owed_writeIf _ _ _ _ _).trans ((Io.owed_write _ _ _ _).trans ((Io.owed_readIf _ _ _ _ _ _).trans (acc.1.owed_read _ _ _)))
theorem owed_xfmBody (ds : List Byte) (io : Io) : (xfmBody ds io).1.d.owed = io.d.owed := by
  unfold xfmBody
  exact Io.owed_foldl (p := fun x : Io × Int × Nat => x.1) (owed_xfmOne ds) _
theorem owed_matBody (ds : List Byte) (io : Io) : (matBody ds io).1.d.owed = io.d.owed := by
  unfold matBody
  dsimp -zeta only
  extract_lets +onlyGivenNames op a l qm opts s group groups
  split
  · rfl
  · extract_lets
    have hrows : ((upTo a).foldl (fun (acc : Io × List (List Byte)) j =>
        ((acc.1.read 32 (addrAt ds 32 + j * leAt ds 28 4) (3 * s)).1, acc.2 ++ [(acc.1.read 32 (addrAt ds 32 + j * leAt ds 28 4) (3 * s)).2])) (io, [])).1.d.owed = io.d.owed :=
      Io.owed_foldl (p := fun x : Io × List (List Byte) => x.1) (fun acc _ => acc.1.owed_read _ _ _) _
    exact (Io.owed_writeIf _ _ _ _ _).trans ((Io.owed_writeIf _ _ _ _ _).trans ((Io.owed_write _ _ _ _).trans ((Io.owed_readIf _ _ _ _ _ _).trans
      ((Io.owed_read _ _ _ _).trans hrows))))

/-! ### Channel coding -/

theorem DecPar.owed_harqStep (q : DecPar) (io : Io) (r : Nat) (ord : List Nat) (e : List Int) : (q.harqStep io r ord e).io.d.owed = io.d.owed := by
  unfold DecPar.harqStep
  extract_lets +onlyGivenNames ncb ht t onto
  split
  · rfl
  · have hread := io.owed_read q.fHarq (q.harq + r * 53248) 64
    extract_lets +onlyGivenNames slot
    dsimp -zeta only
    extract_lets +onlyGivenNames h new put src next fresh onHeld nextHeld combine
    have hput (x : Io) (half : Nat) (l : List Int) (g : HarqHdr) : (put x half l g).d.owed = x.d.owed := ((x.write q.fHarq (halfAddr slot half) _).owed_write _ _ _).trans (x.owed_write _ _ _)
    have hfresh (b : Bool) : (fresh b).io.d.owed = io.d.owed := (hput _ _ _ _).trans hread
    have hcombine : combine.io.d.owed = io.d.owed := by
      unfold combine
      split
      · exact (hput _ _ _ _).trans ((Io.owed_read _ _ _ _).trans hread)
      · exact hfresh true
    clear_value fresh combine
    split
    · exact hfresh false
    · split
      · exact hcombine
      · refine (hput _ _ _ _).trans ((Io.owed_write _ _ _ _).trans ?_)
        split
        · exact hread
        · exact (Io.owed_read _ _ _ _).trans hread

theorem DecPar.owed_block (q : DecPar) (a : DecAcc) (r b0 : Nat) : (q.block a r b0).io.d.owed = a.io.d.owed := by
  unfold DecPar.block
  split
  · exact a.io.owed_write _ _ _
  · extract_lets +onlyGivenNames er st
    have hread := a.io.owed_read q.fLlr (q.llrIn + st) er
    dsimp -zeta only
    extract_lets +onlyGivenNames scr l1 e ord h rows b ext extB io6 pay io7 eb io8 p d1 d2
    have h8 : io8.d.owed = a.io.d.owed := by
      have h6 : io6.d.owed = a.io.d.owed := (Io.owed_writeIf (q.ext = true) h.io _ _ _).trans ((q.owed_harqStep _ _ _ _).trans hread)
      refine (Io.owed_write _ _ _ _).trans (Eq.trans ?_ h6)
      unfold io7
      split
      · rfl
      · exact Io.owed_write _ _ _ _
    have h1 : d1.owed = io8.d.owed := (Dev.owed_bumpBy _ _ _).trans (Dev.owed_bump _ _)
    have h2 : d2.owed = io8.d.owed := by
      unfold d2
      split
      · exact (Dev.owed_bump _ _).trans h1
      · exact h1
    clear_value io8 d1 d2
    dsimp only
    split
    · exact h8
    · exact h2.trans h8

theorem DecPar.owed_readBack (q : DecPar) (a : DecAcc) : (q.readBack a).1.d.owed = a.io.d.owed := by
  unfold DecPar.readBack
  refine Io.owed_foldl (p := fun x : Io × List (List Bool) => x.1) (fun acc r => ?_) _
  split
  · rfl
  · split <;> exact acc.1.owed_read _ _ _

theorem DecPar.owed_run (q : DecPar) (io : Io) : (q.run io).1.d.owed = io.d.owed := by
  unfold DecPar.run
  split
  · rfl
  · have hents : (if q.outer = 0 then (io, []) else io.read q.fCbs (q.cbs + 4 * q.first) (4 * q.count)).1.d.owed = io.d.owed := by
      split
      · rfl
      · exact io.owed_read _ _ _
    generalize (if q.outer = 0 then (io, []) else io.read q.fCbs (q.cbs + 4 * q.first) (4 * q.count)) = x at hents
    obtain ⟨io0, ents⟩ := x
    dsimp -zeta only
    extract_lets +onlyGivenNames a whole
    have hblocks : a.io.d.owed = io.d.owed := (Io.owed_foldl (p := DecAcc.io) (fun x _ => q.owed_block x _ _) _).trans hents
    have houts : (if whole = true then q.readBack a else (a.io, [])).1.d.owed = a.io.d.owed := by
      split
      · exact q.owed_readBack a
      · rfl
    clear_value a whole
    exact (Io.owed_writeIf _ _ _ _ _).trans (houts.trans hblocks)

theorem DecPar.owed_encode (q : DecPar) (io : Io) : (q.encode io).1.d.owed = io.d.owed := by
  unfold DecPar.encode
  split
  · rfl
  · extract_lets +onlyGivenNames s0
    have hread := io.owed_read q.fLlr q.llrIn (ceilDiv q.a 8)
    dsimp -zeta only
    extract_lets +onlyGivenNames u tb coded bits io3
    have hio : io3.d.owed = io.d.owed := (Io.owed_write _ _ _ _).trans hread
    clear_value io3
    dsimp only
    split
    · exact hio
    · exact (Dev.owed_bumpBy _ _ _).trans hio

theorem owed_polarDecBody (ds : List Byte) (io : Io) : (polarDecBody ds io).1.d.owed = io.d.owed := by
  unfold polarDecBody
  exact (Io.owed_write _ _ _ _).trans (io.owed_read _ _ _)
theorem owed_polarEncBody (ds : List Byte) (io : Io) : (polarEncBody ds io).1.d.owed = io.d.owed := by
  unfold polarEncBody
  exact (Io.owed_write _ _ _ _).trans (io.owed_read _ _ _)
theorem owed_convDecBody (ds : List Byte) (io : Io) : (convDecBody ds io).1.d.owed = io.d.owed := by
  unfold convDecBody
  exact (Io.owed_write _ _ _ _).trans (io.owed_read _ _ _)
theorem owed_convEncBody (ds : List Byte) (io : Io) : (convEncBody ds io).1.d.owed = io.d.owed := by
  unfold convEncBody
  exact (Io.owed_write _ _ _ _).trans (io.owed_read _ _ _)

theorem owed_unitBody (unit : Nat) (ds : List Byte) (io : Io) : (unitBody unit ds io).1.d.owed = io.d.owed := by
  unfold unitBody
  split
  · exact owed_xfmBody ds io
  · split
    · exact owed_matBody ds io
    · split
      · exact DecPar.owed_run _ io
      · exact DecPar.owed_run _ io
      · exact owed_polarDecBody ds io
      · exact owed_convDecBody ds io
      · exact DecPar.owed_encode _ io
      · exact DecPar.owed_encode _ io
      · exact owed_polarEncBody ds io
      · exact owed_convEncBody ds io

theorem Dev.owed_cpxCut (d : Dev) (i : CpxInst) : (d.cpxCut i).owed = d.owed := by
  unfold Dev.cpxCut
  split
  · rfl
  · dsimp only
    split
    · rfl
    · exact (owed_unitBody _ _ _).trans ((Dev.owed_stageStall _ _ _).trans (d.owed_fresh _))

/-! ### Jobs and the fence -/

section
variable (d : Dev)
@[simp] theorem Dev.owed_setJob (s : Nat) (j : Job) : (d.setJob s j).owed = d.owed := Dev.owed_of_offWds (d.offWds_setJob s j)
@[simp] theorem Dev.owed_setFlow (f : Nat) (x : Flow) : (d.setFlow f x).owed = d.owed := Dev.owed_of_offWds (d.offWds_setFlow f x)
@[simp] theorem Dev.owed_logJob (t c s : Nat) (x : JobDesc) (n : Nat) : (d.logJob t c s x n).owed = d.owed := Dev.owed_of_offWds (d.offWds_logJob t c s x n)
@[simp] theorem Dev.owed_logPod (t c s p tl : Nat) : (d.logPod t c s p tl).owed = d.owed := Dev.owed_of_offWds (d.offWds_logPod t c s p tl)
@[simp] theorem Dev.owed_wdsSettle : d.wdsSettle.owed = d.owed := Dev.owed_of_offWds d.offWds_wdsSettle
@[simp] theorem Dev.owed_unhang (p : Nat) : (d.unhang p).owed = d.owed := Dev.owed_of_offWds (d.offWds_unhang p)
@[simp] theorem Dev.owed_setBusy (c : Nat) (b : Bool) : (d.setBusy c b).owed = d.owed := Dev.owed_wf _ _ _
@[simp] theorem Dev.owed_takeJob (s c : Nat) (j : Job) : (d.takeJob s c j).owed = d.owed := by
  unfold Dev.takeJob
  simp
@[simp] theorem Dev.owed_handTo (s c : Nat) : (d.handTo s c).owed = d.owed := by
  unfold Dev.handTo
  split <;> simp
@[simp] theorem Dev.owed_cancelJob (s c since : Nat) (j : Job) : (d.cancelJob s c since j).owed = d.owed := by
  unfold Dev.cancelJob
  simp
theorem Dev.owed_lateHand (ex : Job → Bool) (fuel : Nat) (d : Dev) (acc : List (Nat × Nat × Nat × Job)) : (Dev.lateHand ex fuel d acc).1.owed = d.owed := by
  induction fuel generalizing d acc with
  | zero => rfl
  | succ fuel ih =>
    unfold Dev.lateHand
    split
    · rfl
    · dsimp only
      split
      · exact d.owed_fresh 2
      · split
        · exact d.owed_fresh 2
        · split
          · exact (ih _ _).trans ((Dev.owed_takeJob _ _ _ _).trans (d.owed_fresh 2))
          · exact (ih _ _).trans ((Dev.owed_handTo _ _ _).trans (d.owed_fresh 2))
@[simp] theorem Dev.owed_cancelLate (ex : Job → Bool) : (d.cancelLate ex).owed = d.owed := by
  unfold Dev.cancelLate
  simp [Dev.owed_lateHand]
@[simp] theorem Dev.owed_podRelease (p n : Nat) : (d.podRelease p n).owed = d.owed := by
  unfold Dev.podRelease
  simp
@[simp] theorem Dev.owed_finishReleases (t : Nat) : (d.finishReleases t).owed = d.owed := by
  unfold Dev.finishReleases
  simp
@[simp] theorem Dev.owed_flowIdle (f tl : Nat) : (d.flowIdle f tl).owed = d.owed := by
  unfold Dev.flowIdle
  simp
@[simp] theorem Dev.owed_dropSlot (s c : Nat) (acc : List Drop) : (d.dropSlot s c acc).1.owed = d.owed := by
  unfold Dev.dropSlot
  split <;> simp
@[simp] theorem Dev.owed_stopSlot (s k : Nat) (acc : List Drop) : (d.stopSlot s k acc).1.owed = d.owed := by
  unfold Dev.stopSlot
  split <;> simp
theorem owed_foldl_fst {α β : Type} {f : Dev × β → α → Dev × β} (h : ∀ x a, (f x a).1.owed = x.1.owed) (l : List α) (x : Dev × β) : (l.foldl f x).1.owed = x.1.owed :=
  foldl_leaves (p := fun x : Dev × β => x.1.owed) (fun x a _ => h x a) x
@[simp] theorem Dev.owed_fenceJobs (k : Nat) (ex : Job → Bool) : (d.fenceJobs k ex).1.owed = d.owed := by
  unfold Dev.fenceJobs
  exact (Dev.owed_wdsSettle _).trans ((owed_foldl_fst (fun x _ => x.1.owed_stopSlot _ _ _) _ _).trans
    ((owed_foldl_fst (fun x _ => x.1.owed_dropSlot _ _ _) _ _).trans (owed_foldl_fst (fun x _ => x.1.owed_dropSlot _ _ _) _ _)))
@[simp] theorem Dev.owed_report (drops : List Drop) (k : DropKey) : (d.report drops k).owed = d.owed := by
  unfold Dev.report
  split
  · rfl
  · dsimp only
    split <;> simp
@[simp] theorem Dev.owed_reportAll (drops : List Drop) : (d.reportAll drops).owed = d.owed := by
  unfold Dev.reportAll
  simp
@[simp] theorem Dev.owed_forgetOld (n : Nat) : (d.forgetOld n).owed = d.owed := Dev.owed_eq rfl rfl
@[simp] theorem Dev.owed_cbfShow : d.cbfShow.owed = d.owed := by
  unfold Dev.cbfShow
  simp
@[simp] theorem Dev.owed_cbfReclaim (n : Nat) (done : Nat → Nat → Bool) : (d.cbfReclaim n done).owed = d.owed := by
  unfold Dev.cbfReclaim
  simp
@[simp] theorem Dev.owed_runFence (n k : Nat) (final : Bool) : (d.runFence n k final).owed = d.owed := by
  unfold Dev.runFence
  simp [Dev.owed_cpxExpire, Dev.owed_cpxCut]
end
end Sys2Proof.Machine

/-! SUPPORT. What boundaries, register hooks and staged effects do outside the groups leaves the groups and the time steps owed alone (R21, R59, R78, R228). -/

namespace Sys2Proof.Machine

section
variable (d : Dev)
theorem Dev.owed_zth (z : Zth) : ({ d with zth := z } : Dev).owed = d.owed := Dev.owed_eq rfl rfl
theorem Dev.owed_nbb (n : Nbb) : ({ d with nbb := n } : Dev).owed = d.owed := Dev.owed_eq rfl rfl
theorem Dev.owed_ledger (l : Ledger) : ({ d with ledger := l } : Dev).owed = d.owed := Dev.owed_eq rfl rfl
theorem Dev.owed_carriers (t : Tab Carrier) (b : Tab Nat) : ({ d with fw.carriers := t, fw.bind := b } : Dev).owed = d.owed := Dev.owed_eq rfl rfl

/-! ### Power, cores and pods -/

@[simp] theorem Dev.owed_pmuShow : d.pmuShow.owed = d.owed := by
  unfold Dev.pmuShow
  simp
@[simp] theorem Dev.owed_pmuDrop (dom : Nat) : (d.pmuDrop dom).owed = d.owed := by
  unfold Dev.pmuDrop
  simp
@[simp] theorem Dev.owed_showVote (dom : Nat) : (d.showVote dom).owed = d.owed := Dev.owed_setFlag _ _ _
@[simp] theorem Dev.owed_voteWithdraw (dom : Nat) : (d.voteWithdraw dom).owed = d.owed := by
  unfold Dev.voteWithdraw
  split
  · split
    · rfl
    · exact d.owed_pmuDrop dom
  · rfl
@[simp] theorem Dev.owed_coreReset (c : Nat) : (d.coreReset c).owed = d.owed := by
  unfold Dev.coreReset
  simp
@[simp] theorem Dev.owed_coreStart (c : Nat) : (d.coreStart c).owed = d.owed := by
  unfold Dev.coreStart
  simp
@[simp] theorem Dev.owed_coreStop (c : Nat) : (d.coreStop c).owed = d.owed := by
  unfold Dev.coreStop
  simp
@[simp] theorem Dev.owed_coreCtlWr (init : Initiator) (c v : Nat) : (d.coreCtlWr init c v).owed = d.owed := by
  unfold Dev.coreCtlWr
  dsimp only
  split <;> simp
@[simp] theorem Dev.owed_vetoWr (init : Initiator) (off v : Nat) (f : Fld) (bad : Nat → Bool) : (d.vetoWr init off v f bad).1.owed = d.owed := by
  unfold Dev.vetoWr
  extract_lets +onlyGivenNames wrote r
  have hr : r.1.owed = d.owed := d.owed_busWr _ _ _
  clear_value wrote r
  split
  · exact hr
  · split
    · exact (Dev.owed_regErr _ _ _ _).trans ((Dev.owed_wf _ _ _).trans hr)
    · exact hr
@[simp] theorem Dev.owed_wdsEnableWr (init : Initiator) (v : Nat) : (d.wdsEnableWr init v).owed = d.owed := by
  unfold Dev.wdsEnableWr
  simp
@[simp] theorem Dev.owed_podModeWr (init : Initiator) (p v : Nat) : (d.podModeWr init p v).owed = d.owed := by
  unfold Dev.podModeWr
  simp
@[simp] theorem Dev.owed_coreMaskWr (init : Initiator) (p v hw : Nat) : (d.coreMaskWr init p v hw).owed = d.owed := by
  unfold Dev.coreMaskWr
  dsimp only
  split <;> simp

/-! ### Queue pairs -/

@[simp] theorem Dev.owed_doorbell (init : Initiator) (q off v depth : Nat) (f : Fld) : (d.doorbell init q off v depth f).1.owed = d.owed := by
  unfold Dev.doorbell
  dsimp only
  split
  · exact d.owed_busWr _ _ _
  · split <;> simp
@[simp] theorem Dev.owed_sqDoorbell (init : Initiator) (q v : Nat) : (d.sqDoorbell init q v).owed = d.owed := d.owed_doorbell _ _ _ _ _ _
@[simp] theorem Dev.owed_cqDoorbell (init : Initiator) (q v : Nat) : (d.cqDoorbell init q v).owed = d.owed := by
  unfold Dev.cqDoorbell
  dsimp only
  split <;> simp
@[simp] theorem Dev.owed_pairStop (q : Nat) : (d.pairStop q).owed = d.owed := Dev.owed_of_rest (d.rest_pairStop q)
@[simp] theorem Dev.owed_pairCtlWr (init : Initiator) (q v : Nat) : (d.pairCtlWr init q v).owed = d.owed := by
  unfold Dev.pairCtlWr
  dsimp only
  split <;> simp

/-! ### Memory -/

@[simp] theorem Dev.owed_trainSync : d.trainSync.owed = d.owed := by
  unfold Dev.trainSync
  simp
@[simp] theorem Dev.owed_memCtlWr (init : Initiator) (v : Nat) : (d.memCtlWr init v).owed = d.owed := by
  unfold Dev.memCtlWr
  dsimp only
  split <;> simp
@[simp] theorem Dev.owed_poke (a : Nat) (bs : List Byte) : (d.poke a bs).owed = d.owed := Dev.owed_of_offAccess (d.offAccess_poke a bs)
@[simp] theorem Dev.owed_harqShow (p : Nat) : (d.harqShow p).owed = d.owed := by
  unfold Dev.harqShow
  simp
@[simp] theorem Dev.owed_harqAlloc (p i : Nat) : (d.harqAlloc p i).1.owed = d.owed := by
  unfold Dev.harqAlloc
  dsimp only
  split <;> simp
@[simp] theorem Dev.owed_harqFree (p i : Nat) : (d.harqFree p i).1.owed = d.owed := by
  unfold Dev.harqFree
  dsimp only
  split <;> simp
@[simp] theorem Dev.owed_harqOp (init : Initiator) (p op v : Nat) (proc : Option Nat) : (d.harqOp init p op v proc).owed = d.owed := by
  unfold Dev.harqOp
  dsimp only
  split
  · exact d.owed_busWr _ _ _
  · split
    · exact d.owed_busWr _ _ _
    · split
      · split <;> simp
      · simp
@[simp] theorem Dev.owed_harqDropCarrier (cc : Nat) : (d.harqDropCarrier cc).owed = d.owed := by
  unfold Dev.harqDropCarrier
  simp

/-! ### Lanes, links and the ring -/

@[simp] theorem Dev.owed_serviceSync : d.serviceSync.owed = d.owed := d.laneOnly_serviceSync.owed
@[simp] theorem Dev.owed_linksDown (u : Nat) : (d.linksDown u).owed = d.owed := (d.laneOnly_linksDown u).owed
@[simp] theorem Dev.owed_laneEvent (a b c e : Nat) : (d.laneEvent a b c e).owed = d.owed := d.owed_event _ _ _ _ _
@[simp] theorem Dev.owed_setLock (i : Nat) (b : Bool) : (d.setLock i b).owed = d.owed := by
  unfold Dev.setLock
  simp
@[simp] theorem Dev.owed_lineRest (l : Nat) : (d.lineRest l).owed = d.owed := Dev.owed_eq rfl rfl
@[simp] theorem Dev.owed_loseLock (i : Nat) : (d.loseLock i).owed = d.owed := by
  unfold Dev.loseLock
  extract_lets +onlyGivenNames had d1
  have hlock : d1.owed = d.owed := d.owed_setLock i false
  clear_value had d1
  split
  · exact hlock
  · exact (Dev.owed_zth _ _).trans ((Dev.owed_bump _ _).trans ((Dev.owed_laneEvent _ _ _ _ _).trans hlock))
@[simp] theorem Dev.owed_synceCheck : d.synceCheck.owed = d.owed := by
  unfold Dev.synceCheck
  simp
@[simp] theorem Dev.owed_tapsBoard (i : Nat) : (d.tapsBoard i).owed = d.owed := Dev.owed_eq rfl rfl
@[simp] theorem Dev.owed_ethDown (k : Nat) : (d.ethDown k).owed = d.owed := by
  unfold Dev.ethDown
  simp
@[simp] theorem Dev.owed_portStop (p : Nat) : (d.portStop p).owed = d.owed := by
  unfold Dev.portStop
  simp
@[simp] theorem Dev.owed_enableWr (init : Initiator) (off v : Nat) (f : Fld) (bad : Dev → Bool) : (d.enableWr init off v f bad).1.owed = d.owed := by
  unfold Dev.enableWr
  dsimp only
  split
  · exact d.owed_busWr _ _ _
  · split
    · exact d.owed_busWr _ _ _
    · split <;> simp
@[simp] theorem Dev.owed_unitSwitch (u : Nat) : (d.unitSwitch u).owed = d.owed := by
  unfold Dev.unitSwitch
  simp
@[simp] theorem Dev.owed_jesdCtlWr (init : Initiator) (u v : Nat) : (d.jesdCtlWr init u v).owed = d.owed := by
  unfold Dev.jesdCtlWr
  simp
@[simp] theorem Dev.owed_dfeCtlWr (init : Initiator) (c v : Nat) : (d.dfeCtlWr init c v).owed = d.owed := d.owed_enableWr _ _ _ _ _
@[simp] theorem Dev.owed_ethCtlWr (init : Initiator) (c v : Nat) : (d.ethCtlWr init c v).owed = d.owed := d.owed_enableWr _ _ _ _ _
@[simp] theorem Dev.owed_prachCtlWr (init : Initiator) (x v : Nat) : (d.prachCtlWr init x v).owed = d.owed := d.owed_enableWr _ _ _ _ _
@[simp] theorem Dev.owed_laneCtlWr (init : Initiator) (i v : Nat) : (d.laneCtlWr init i v).owed = d.owed := by
  unfold Dev.laneCtlWr
  simp
@[simp] theorem Dev.owed_throttleWr (init : Initiator) (v : Nat) : (d.throttleWr init v).owed = d.owed := by
  unfold Dev.throttleWr
  simp
@[simp] theorem Dev.owed_showOld : d.showOld.owed = d.owed := Dev.owed_of_offBus d.offBus_showOld
@[simp] theorem Dev.owed_setStream (k : Nat) (x : Stream) : (d.setStream k x).owed = d.owed := Dev.owed_eq rfl rfl
@[simp] theorem Dev.owed_updStream (k : Nat) (f : Stream → Stream) : (d.updStream k f).owed = d.owed := Dev.owed_eq rfl rfl
@[simp] theorem Dev.owed_ringReady (b : Bool) (s t c : Nat) (p : RingPkt) : (d.ringReady b s t c p).owed = d.owed := Dev.owed_eq rfl rfl
@[simp] theorem Dev.owed_ringError (s k : Nat) (p : RingPkt) (st : Nat) : (d.ringError s k p st).owed = d.owed := by
  unfold Dev.ringError Dev.ringRespond
  simp
@[simp] theorem Dev.owed_endStream (k : Nat) : (d.endStream k).owed = d.owed := by
  unfold Dev.endStream
  simp
@[simp] theorem Dev.owed_bypassEnd (s : Nat) : (d.bypassEnd s).owed = d.owed := by
  unfold Dev.bypassEnd
  simp
@[simp] theorem Dev.owed_epochWr (init : Initiator) (v : Nat) : (d.epochWr init v).owed = d.owed := by
  unfold Dev.epochWr Dev.epochFlip
  dsimp only
  split <;> simp
@[simp] theorem Dev.owed_stopCtlWr (init : Initiator) (s v : Nat) : (d.stopCtlWr init s v).owed = d.owed := by
  unfold Dev.stopCtlWr
  dsimp only
  split <;> simp

/-! ### Time, banks and calibration -/

@[simp] theorem Dev.owed_putTime (f : Nat → Fld) (t : Nat) : (d.putTime f t).owed = d.owed := by
  unfold Dev.putTime
  simp
@[simp] theorem Dev.owed_snapWr (init : Initiator) (v : Nat) : (d.snapWr init v).owed = d.owed := by
  unfold Dev.snapWr Dev.snap
  dsimp only
  split <;> simp
@[simp] theorem Dev.owed_incWr (init : Initiator) (v : Nat) : (d.incWr init v).owed = d.owed := by
  unfold Dev.incWr
  dsimp only
  split <;> simp
@[simp] theorem Dev.owed_armNow (k i : Nat) (src : ArmSrc) : (d.armNow k i src).owed = d.owed := by
  unfold Dev.armNow Dev.armAt
  simp
@[simp] theorem Dev.owed_selWr (init : Initiator) (k i v : Nat) : (d.selWr init k i v).owed = d.owed := by
  unfold Dev.selWr
  dsimp only
  split <;> simp
@[simp] theorem Dev.owed_dpdArmFor (t q tag : Nat) : (d.dpdArmFor t q tag).owed = d.owed := by
  unfold Dev.dpdArmFor
  simp
@[simp] theorem Dev.owed_dpdStagedArm (n k : Nat) : (d.dpdStagedArm n k).owed = d.owed := by
  unfold Dev.dpdStagedArm
  refine (Dev.owed_foldl (fun d e => ?_) _ _).trans (Dev.owed_eq rfl rfl)
  split
  · exact Dev.owed_dpdArmFor _ _ _ _
  · rfl
@[simp] theorem Dev.owed_windowsRestart (k i t : Nat) : (d.windowsRestart k i t).owed = d.owed := Dev.owed_eq rfl rfl
@[simp] theorem Dev.owed_switchBank (a : Arm) (k : Nat) : (d.switchBank a k).owed = d.owed := by
  unfold Dev.switchBank
  dsimp only
  split <;> simp
@[simp] theorem Dev.owed_switchDue (n k : Nat) : (d.switchDue n k).owed = d.owed := by
  unfold Dev.switchDue
  simp
@[simp] theorem Dev.owed_calClose (r : CalRun) : (d.calClose r).owed = d.owed := by
  unfold Dev.calClose
  split
  · rfl
  · dsimp only
    split <;> simp
@[simp] theorem Dev.owed_calFinish : d.calFinish.owed = d.owed := by
  unfold Dev.calFinish
  simp
@[simp] theorem Dev.owed_latchDfe (n k : Nat) : (d.latchDfe n k).owed = d.owed := Dev.owed_eq rfl rfl
@[simp] theorem Dev.owed_snapCtlWr (init : Initiator) (v : Nat) : (d.snapCtlWr init v).owed = d.owed := by
  have hstrobe (e : Dev) : e.ledgerStrobe.owed = e.owed := by
    unfold Dev.ledgerStrobe
    exact (Dev.owed_ledger _ _).trans ((Dev.owed_setFlag _ _ _).trans ((Dev.owed_setFlag _ _ _).trans ((Dev.owed_setFlag _ _ _).trans (e.owed_bump _))))
  unfold Dev.snapCtlWr
  dsimp only
  split <;> simp [hstrobe]

/-! ### The front end, narrowband channels and carriers -/

@[simp] theorem Dev.owed_compDrain (w t : Nat) : (d.compDrain w t).owed = d.owed := by
  unfold Dev.compDrain
  dsimp only
  split
  · exact d.owed_nbb _
  · exact (Dev.owed_nbb _ _).trans (d.owed_bumpBy _ _)
@[simp] theorem Dev.owed_setTx (t : Nat) (x : TxChan) : (d.setTx t x).owed = d.owed := Dev.owed_eq rfl rfl
@[simp] theorem Dev.owed_txRun (e : Dev) (t upto : Nat) (x : TxChan) : (d.txRun e t upto x).owed = d.owed := by
  unfold Dev.txRun
  simp
@[simp] theorem Dev.owed_txDrain (t at_ : Nat) : (d.txDrain t at_).owed = d.owed := by
  unfold Dev.txDrain
  simp
@[simp] theorem Dev.owed_txDrainAll : d.txDrainAll.owed = d.owed := by
  unfold Dev.txDrainAll
  simp
@[simp] theorem Dev.owed_nbDone (n : Nat) (p : NbPkt) (fl s : Nat) : (d.nbDone n p fl s).owed = d.owed := by
  unfold Dev.nbDone
  simp
@[simp] theorem Dev.owed_nbCut (n : Nat) (b : Bool) : (d.nbCut n b).owed = d.owed := by
  unfold Dev.nbCut
  simp
@[simp] theorem Dev.owed_nbSet (n : Nat) (x : NbChan) (st : Nat) : (d.nbSet n x st).owed = d.owed := by
  unfold Dev.nbSet
  simp
@[simp] theorem Dev.owed_nbReport (n : Nat) (k : NbLock) (r : Nat) : (d.nbReport n k r).owed = d.owed := Dev.owed_eq rfl rfl
@[simp] theorem Dev.owed_nbAbandon (n r st : Nat) : (d.nbAbandon n r st).owed = d.owed := by
  unfold Dev.nbAbandon
  dsimp only
  split <;> simp
@[simp] theorem Dev.owed_nbRoles (n : Nat) (rx tx : Bool) : (d.nbRoles n rx tx).owed = d.owed := by
  unfold Dev.nbRoles
  simp
@[simp] theorem Dev.owed_nbCtlWr (init : Initiator) (n v : Nat) : (d.nbCtlWr init n v).owed = d.owed := by
  unfold Dev.nbCtlWr
  dsimp only
  split <;> simp
@[simp] theorem Dev.owed_nbWrite (n src cc cm ct mo r3 sps bt h : Nat) (ofs : Int) (rx : Bool) : (d.nbWrite n src cc cm ct mo r3 sps bt h ofs rx).owed = d.owed := by
  unfold Dev.nbWrite
  simp
@[simp] theorem Dev.owed_nbAddNow (n : Nat) (p : NbPar) : (d.nbAddNow n p).owed = d.owed := by
  unfold Dev.nbAddNow
  simp
@[simp] theorem Dev.owed_nbRemoveNow (n : Nat) : (d.nbRemoveNow n).owed = d.owed := by
  unfold Dev.nbRemoveNow
  simp
@[simp] theorem Dev.owed_nbChanged (n : Nat) : (d.nbChanged n).owed = d.owed := by
  unfold Dev.nbChanged
  simp
@[simp] theorem Dev.owed_gsmPlace (cc : Nat) (chs : List Nat) : (d.gsmPlace cc chs).owed = d.owed := by
  unfold Dev.gsmPlace
  simp
@[simp] theorem Dev.owed_gsmFree (cc : Nat) : (d.gsmFree cc).owed = d.owed := by
  unfold Dev.gsmFree
  simp
@[simp] theorem Dev.owed_carWrite (cc n : Nat) (p : CarrierPar) : (d.carWrite cc n p).owed = d.owed := Dev.owed_of_offBus (d.offBus_carWrite cc n p)
@[simp] theorem Dev.owed_carClear (cc : Nat) : (d.carClear cc).owed = d.owed := by
  unfold Dev.carClear
  simp
@[simp] theorem Dev.owed_carAddNow (cc n : Nat) (p : CarrierPar) (m : Bool) (chs : List Nat) : (d.carAddNow cc n p m chs).owed = d.owed := by
  unfold Dev.carAddNow
  simp
@[simp] theorem Dev.owed_carModifyNow (cc n : Nat) (p : CarrierPar) (m : Bool) : (d.carModifyNow cc n p m).owed = d.owed := by
  unfold Dev.carModifyNow
  split
  · rfl
  · extract_lets +onlyGivenNames fails
    clear_value fails
    split
    · rfl
    · extract_lets +onlyGivenNames keep d0
      have hfree : d0.owed = d.owed := by
        unfold d0
        simp
      clear_value keep d0
      exact (Dev.owed_gsmPlace _ _ _).trans ((Dev.owed_carriers _ _ _).trans ((Dev.owed_carWrite _ _ _ _).trans ((Dev.owed_carClear _ _).trans hfree)))
@[simp] theorem Dev.owed_carRemoveNow (cc : Nat) : (d.carRemoveNow cc).owed = d.owed := by
  unfold Dev.carRemoveNow
  simp
@[simp] theorem Dev.owed_setTsq (p : Nat) (l : List TsEntry) : (d.setTsq p l).owed = d.owed := by
  unfold Dev.setTsq
  simp
@[simp] theorem Dev.owed_tsPop (init : Initiator) (p v : Nat) : (d.tsPop init p v).owed = d.owed := by
  unfold Dev.tsPop
  dsimp only
  split <;> simp
@[simp] theorem Dev.owed_msgTailWr (init : Initiator) (p q v : Nat) : (d.msgTailWr init p q v).owed = d.owed := by
  unfold Dev.msgTailWr
  dsimp only
  split <;> simp

/-! ### Firmware and twins -/

@[simp] theorem Dev.owed_fwTakeover (e : Staged) : (d.fwTakeover e).owed = d.owed := by
  unfold Dev.fwTakeover
  split <;> simp
@[simp] theorem Dev.owed_setRole (r reason : Nat) : (d.setRole r reason).owed = d.owed := by
  unfold Dev.setRole Dev.roleOut Dev.twinEvent
  simp
@[simp] theorem Dev.owed_reportUnserved (b : Bool) : (d.reportUnserved b).owed = d.owed := by
  unfold Dev.reportUnserved
  simp
@[simp] theorem Dev.owed_swapNow (e : Staged) : (d.swapNow e).owed = d.owed := by
  unfold Dev.swapNow Dev.replan
  simp

/-! ### Registers with a hook of their own -/

@[simp] theorem Dev.owed_regHook (name : String) (i : Nat) : (d.regHook name i).owed = d.owed := by
  unfold Dev.regHook Dev.spareHook
  split <;> simp
@[simp] theorem Dev.owed_commitPlain (w : TxnWrite) : (d.commitPlain w).owed = d.owed := by
  have hset (v : Nat) : (d.groupSet w.off v).owed = d.owed := by
    unfold Dev.groupSet
    split <;> simp
  unfold Dev.commitPlain
  split
  · rfl
  · split <;> simp [hset]
end
end Sys2Proof.Machine

/-! O39: timelines and their boundaries (R43, R46, R47, R59, R396, R528). A boundary at which no armed group commands a time step commands none. -/

namespace Sys2Proof.Machine

/-! ### The hardware's updates take no command from a group (R464) -/

theorem stepCmd_narrow : wideReg rTMU_STEP_CMD = false := by decide

/-- Taking bits out of the upper half of a word takes no command and adds none. -/
theorem bit0_of_sub_upper (v hit : Nat) (hle : hit ≤ v / 2 ^ 16) (hodd : hit % 2 ≤ v / 2 ^ 16 % 2) :
    (bitAt ((v - hit * 2 ^ 16) / 2 ^ 16) 0 = true → bitAt (v / 2 ^ 16) 0 = true) ∧ bitAt (v - hit * 2 ^ 16) 0 = bitAt v 0 := by
  unfold bitAt
  simp only [beq_iff_eq, Nat.pow_zero, Nat.div_one]
  refine ⟨fun h => by omega, ?_⟩
  congr 1
  omega

theorem Dev.yieldHw_off (d : Dev) (hw : List (Nat × Nat)) (w : TxnWrite) : (d.yieldHw hw w).off = w.off := by
  unfold Dev.yieldHw
  dsimp only
  split <;> rfl

theorem Dev.yieldHw_applies (d : Dev) (hw : List (Nat × Nat)) {w : TxnWrite} (h : w.applies = false) : (d.yieldHw hw w).applies = false := by
  by_cases hoff : w.off = rTMU_STEP_CMD
  case neg =>
    unfold TxnWrite.applies
    rw [d.yieldHw_off, beq_eq_false_iff_ne.mpr hoff]
    rfl
  unfold Dev.yieldHw
  extract_lets hit
  split
  · exact h
  · have hle : hit ≤ w.value / 2 ^ 16 := by
      unfold hit
      rw [hoff, stepCmd_narrow]
      exact Nat.and_le_right
    have hodd : hit % 2 ≤ w.value / 2 ^ 16 % 2 := by
      unfold hit
      rw [hoff, stepCmd_narrow]
      unfold writeMask
      rw [if_neg Bool.false_ne_true, show (2 : Nat) = 2 ^ 1 from rfl, Nat.and_mod_two_pow]
      exact Nat.and_le_right
    obtain ⟨hcmd, hval⟩ := bit0_of_sub_upper w.value hit hle hodd
    unfold TxnWrite.applies at h ⊢
    rw [hoff, stepCmd_narrow, if_neg Bool.false_ne_true]
    dsimp only
    rw [hoff] at h
    rw [hval]
    revert hcmd h
    cases bitAt ((w.value - hit * 2 ^ 16) / 2 ^ 16) 0 <;> cases bitAt (w.value / 2 ^ 16) 0 <;> simp

/-! ### Groups without a step -/

/-- No time step is owed, and no group of `I` commands one. -/
structure Dev.Stepless (I : Nat → Prop) (d : Dev) : Prop where
  due : d.tmu.applyDue = []
  plain : ∀ i, I i → (d.txn i).writes.any TxnWrite.applies = false

section
variable {I : Nat → Prop} {d e : Dev}

theorem Dev.Stepless.of_owed (h : d.Stepless I) (he : e.owed = d.owed) : e.Stepless I := by
  have htxns : e.txns = d.txns := congrArg Prod.snd he
  refine ⟨(congrArg Prod.fst he).trans h.due, fun i hi => ?_⟩
  unfold Dev.txn
  rw [htxns]
  exact h.plain i hi
theorem Dev.Stepless.foldl {α : Type} {f : Dev → α → Dev} (hf : ∀ d a, d.Stepless I → (f d a).Stepless I) (l : List α) (h : d.Stepless I) : (l.foldl f d).Stepless I :=
  List.foldlRecOn (motive := fun e => e.Stepless I) l f h fun e he a _ => hf e a he
theorem Dev.Stepless.setTxn (h : d.Stepless I) (i : Nat) {x : TxnSlot} (hx : x.writes = []) : (d.setTxn i x).Stepless I := by
  refine ⟨h.due, fun j hj => ?_⟩
  have hget : (d.setTxn i x).txn j = if j = i then x else d.txn j := Tab.getD_setD _ _ _ _ _
  rw [hget]
  split
  · rw [hx]
    rfl
  · exact h.plain j hj

theorem Dev.Stepless.txnResolve (h : d.Stepless I) (i : Nat) (refs : List Refused) (p w : Nat) : (d.txnResolve i refs p w).Stepless I := by
  unfold Dev.txnResolve
  dsimp only
  split
  · rename_i q tag ord late hph
    have hdone := h.setTxn i (x := { d.txn i with phase := .done q tag, writes := [], report := some refs }) rfl
    split <;> exact hdone.of_owed ((Dev.owed_complete _ _ _ _ _).trans (Dev.owed_recAdd _ _ _ _ _))
  · exact h
theorem Dev.Stepless.txnAbort (h : d.Stepless I) (i r p : Nat) : (d.txnAbort i r p).Stepless I := h.txnResolve i _ _ _

/-! ### Timelines started and stopped by a group -/

theorem Dev.owed_undoEffect (d : Dev) (e : Effect) : (d.undoEffect e).owed = d.owed := by
  unfold Dev.undoEffect
  split <;> simp
theorem Dev.owed_discardStaged (d : Dev) (e : Staged) : (d.discardStaged e).owed = d.owed := by
  unfold Dev.discardStaged
  simp [Dev.owed_undoEffect]
theorem Dev.owed_discardTimeline (d : Dev) (n : Nat) : (d.discardTimeline n).owed = d.owed := by
  unfold Dev.discardTimeline
  simp [Dev.owed_discardStaged]
theorem Dev.owed_armsStop (d : Dev) (n : Nat) : (d.armsStop n).owed = d.owed := by
  unfold Dev.armsStop
  simp
theorem Dev.owed_timelineStart (d : Dev) (n : Nat) : (d.timelineStart n).owed = d.owed := by
  unfold Dev.timelineStart
  simp

theorem Dev.Stepless.timelineStop (h : d.Stepless I) (n : Nat) : (d.timelineStop n).Stepless I := by
  unfold Dev.timelineStop
  extract_lets t c d0 d1 d2 d3
  have h1 : d1.Stepless I := h.of_owed ((Dev.owed_runFence _ _ _ _).trans ((Dev.owed_setTl _ _ _).trans ((Dev.owed_setFlag _ _ _).trans (d.owed_cancelLate _))))
  have h2 : d2.Stepless I := h1.foldl (fun e p he => he.txnAbort _ _ _) _
  have h3 : d3.Stepless I := h2.of_owed ((Dev.owed_setFlag _ _ _).trans ((Dev.owed_armsStop _ _).trans (Dev.owed_discardTimeline _ _)))
  exact h3.foldl (fun e p he => he.of_owed (Dev.owed_complete _ _ _ _ _)) _

theorem Dev.Stepless.timelineCtlWr (h : d.Stepless I) (init : Initiator) (n v : Nat) : (d.timelineCtlWr init n v).Stepless I := by
  unfold Dev.timelineCtlWr
  extract_lets off f r
  have hr : r.1.Stepless I := h.of_owed (d.owed_busWr _ _ _)
  clear_value r
  split
  · exact hr
  · split
    · exact hr
    · split
      · split
        · exact hr.of_owed (Dev.owed_timelineStart _ _)
        · exact hr.of_owed ((Dev.owed_regErr _ _ _ _).trans (Dev.owed_setFlag _ _ _))
      · exact hr.timelineStop n

/-! ### The commit cycle (R58, R59) -/

/-- A register with a row of its own, written by its row, leaves the groups alone, unless a timeline's ENABLE is written. -/
theorem Dev.rowWrite_owed (d : Dev) (init : Initiator) (off v : Nat) (name : String) (i j : Nat) (h : d.rowWrite init off v name i j = some e) :
    e.owed = d.owed ∨ e = d.timelineCtlWr init i v := by
  unfold Dev.rowWrite at h
  split at h <;> cases h <;> simp
theorem Dev.Stepless.commitRow (h : d.Stepless I) (w : TxnWrite) : (d.commitRow w).Stepless I := by
  unfold Dev.commitRow
  split
  · exact h
  · split
    · generalize hrow : d.rowWrite _ _ _ _ _ _ = x
      cases x with
      | none => exact h
      | some e =>
        rcases Dev.rowWrite_owed _ _ _ _ _ _ _ hrow with he | rfl
        · exact h.of_owed he
        · exact h.timelineCtlWr _ _ _
    · exact h

theorem Dev.Stepless.groupCommit (h : d.Stepless I) (n k : Nat) {given : List TxnWrite} (hg : given.any TxnWrite.applies = false) (hw : List (Nat × Nat)) :
    (d.groupCommit n k given hw).Stepless I := by
  unfold Dev.groupCommit
  extract_lets ws d0 d1 d2 chs d3 us d4
  have hws : ws.any TxnWrite.applies = false := by
    refine List.any_eq_false.mpr fun x hx => ?_
    obtain ⟨w, hwg, rfl⟩ := List.mem_map.mp hx
    rw [d.yieldHw_applies hw (Bool.eq_false_iff.mpr (List.any_eq_false.mp hg w hwg))]
    exact Bool.false_ne_true
  have h0 : d0.Stepless I := h.of_owed (Dev.owed_foldl (fun _ _ => Dev.owed_regErr _ _ _ _) _ _)
  have h1 : d1.Stepless I := h0.of_owed (Dev.owed_foldl (fun _ _ => Dev.owed_commitPlain _ _) _ _)
  have h2 : d2.Stepless I := h1.foldl (fun e w he => he.commitRow w) _
  have h3 : d3.Stepless I := h2.of_owed (Dev.owed_foldl (fun _ _ => Dev.owed_nbChanged _ _) _ _)
  have h4 : d4.Stepless I := by
    refine h3.of_owed ?_
    unfold d4
    simp
  clear_value d4 ws
  refine ⟨?_, h4.plain⟩
  rw [hws, h4.due]
  rfl

theorem Dev.Stepless.groupAct (h : d.Stepless I) (n k : Nat) {i : Nat} (hi : I i) (hw : List (Nat × Nat)) : (d.groupAct n k i hw).Stepless I := by
  unfold Dev.groupAct
  dsimp only
  split
  · split
    · exact h.txnAbort _ _ _
    · split
      · exact (h.txnResolve _ _ _ _).groupCommit n k (h.plain i hi) hw
      · exact h.txnResolve _ _ _ _
  · exact h
end

/-! ### The boundary (R21) -/

theorem State.owed_applyEffect (s : State) (n : Nat) (e : Staged) : (s.applyEffect n e).dev.owed = s.dev.owed := by
  unfold State.applyEffect
  split
  · exact Dev.owed_carAddNow _ _ _ _ _ _
  · exact Dev.owed_carModifyNow _ _ _ _ _
  · exact Dev.owed_carRemoveNow _ _
  · exact Dev.owed_nbAddNow _ _ _
  · exact Dev.owed_nbRemoveNow _ _
  · exact Dev.owed_dpdArmFor _ _ _ _
  · exact Dev.owed_swapNow _ _
  · unfold State.nameSlot
    dsimp only
    split <;> exact Dev.owed_fwTakeover _ _

/-- A named effect or a named group of `I` commands no step. -/
theorem State.stepless_applyNamed {I : Nat → Prop} {s : State} (h : s.dev.Stepless I) (n k : Nat) (hw : List (Nat × Nat × Nat)) {x : Named} (hx : ∀ i o, x = .group i o → I i) :
    (s.applyNamed n k hw x).dev.Stepless I := by
  cases x with
  | effect e => exact h.of_owed (s.owed_applyEffect n e)
  | group i o => exact h.groupAct n k (hx i o rfl) _

theorem Dev.armedOf_congr {d e : Dev} (h : e.txns = d.txns) (n : Nat) : e.armedOf n = d.armedOf n := by
  unfold Dev.armedOf
  rw [h]

theorem State.boundary_due {s : State} {n : Nat} (k : Nat) (release : Bool) (hw : List (Nat × Nat × Nat))
    (hplain : ((s.dev.armedOf n).any fun p => (s.dev.txn p.1).writes.any TxnWrite.applies) = false) (hdue : s.dev.tmu.applyDue = []) :
    (s.boundary n k release hw).dev.tmu.applyDue = [] := by
  unfold State.boundary
  extract_lets d00 d0 t d1 fw1 d2 d3 mine groups named fw3 s4
  have hstart : s.dev.Stepless fun i => ∃ o, (i, o) ∈ s.dev.armedOf n :=
    ⟨hdue, fun i ⟨o, ho⟩ => Bool.eq_false_iff.mpr (List.any_eq_false.mp hplain (i, o) ho)⟩
  have howed : d3.owed = s.dev.owed := by
    have h00 : d00.owed = s.dev.owed := (Dev.owed_finishReleases _ _).trans s.dev.owed_txDrainAll
    have h0 : d0.owed = d00.owed := Dev.owed_cancelLate _ _
    have h1 : d1.owed = d0.owed := (Dev.owed_wf _ _ _).trans ((Dev.owed_setFlag _ _ _).trans (Dev.owed_setTl _ _ _))
    have h2 : d2.owed = d1.owed := Dev.owed_eq rfl rfl
    exact (Dev.owed_runFence _ _ _ _).trans (h2.trans (h1.trans (h0.trans h00)))
  have harmed : d3.armedOf n = s.dev.armedOf n := Dev.armedOf_congr (congrArg Prod.snd howed) n
  have hnamed (x : Named) (hx : x ∈ named) (i o : Nat) (he : x = .group i o) : ∃ o, (i, o) ∈ s.dev.armedOf n := by
    subst he
    rcases List.mem_append.mp (List.mem_mergeSort.mp hx) with heff | hgrp
    · obtain ⟨e, -, he⟩ := List.mem_map.mp heff
      cases he
    · obtain ⟨p, hp, he⟩ := List.mem_map.mp hgrp
      cases he
      exact ⟨p.2, harmed ▸ (List.mem_filter.mp hp).1⟩
  have h3 : d3.Stepless fun i => ∃ o, (i, o) ∈ s.dev.armedOf n := hstart.of_owed howed
  clear_value d3 named
  have h4 : s4.dev.Stepless fun i => ∃ o, (i, o) ∈ s.dev.armedOf n :=
    List.foldlRecOn (motive := fun u : State => u.dev.Stepless fun i => ∃ o, (i, o) ∈ s.dev.armedOf n) named _ (h3.of_owed (Dev.owed_eq rfl rfl))
      fun u hu x hx => State.stepless_applyNamed hu n k hw (hnamed x hx)
  clear_value s4
  unfold State.onDev
  dsimp -zeta only
  extract_lets d5 fw5 d6 d7 t7
  have h5 : d5.owed = s4.dev.owed := (Dev.owed_latchDfe _ _ _).trans ((Dev.owed_calFinish _).trans ((Dev.owed_dpdStagedArm _ _ _).trans (Dev.owed_switchDue _ _ _)))
  have h6 : d6.owed = d5.owed := Dev.owed_eq rfl rfl
  have h7 : d7.owed = s4.dev.owed := (Dev.owed_foldl (fun _ _ => Dev.owed_complete _ _ _ _ _) _ _).trans (h6.trans h5)
  have hend : d7.Stepless fun i => ∃ o, (i, o) ∈ s.dev.armedOf n := h4.of_owed h7
  clear_value d7
  split
  · exact (hend.of_owed ((Dev.owed_wdsSettle _).trans ((Dev.owed_logPod _ _ _ _ _ _).trans (Dev.owed_setTl _ _ _)))).due
  · exact hend.due

theorem State.runApplies_none {s : State} (h : s.dev.tmu.applyDue = []) : s.runApplies appliesMax = s := by
  unfold appliesMax State.runApplies
  rw [h]

/-! ### ENABLE (R46, R528) -/

theorem Dev.timelineCtlWr_taken {d : Dev} {init : Initiator} {n v cmds : Nat} (hr : (d.busWr init (rTMU_TLn_CTL n) v).2 = .yes cmds) :
    d.timelineCtlWr init n v = let f := TMU_TLn_CTL_ENABLE n
      let e := (d.busWr init (rTMU_TLn_CTL n) v).1
      if d.flag f == e.flag f then e
      else if e.flag f then if d.gridValid n then e.timelineStart n else (e.setFlag f false).regErr .ignored (rTMU_TLn_CTL n) init
      else e.timelineStop n := by
  unfold Dev.timelineCtlWr
  dsimp only
  rw [hr]

/-- A timeline that starts keeps its ENABLE, the commands that wait for its boundary, the cores and the memory. -/
theorem Dev.timelineStart_keeps (d : Dev) (n : Nat) : (d.timelineStart n).flag (TMU_TLn_CTL_ENABLE n) = d.flag (TMU_TLn_CTL_ENABLE n) ∧
    ((d.timelineStart n).tl n).enWait = (d.tl n).enWait ∧ (d.timelineStart n).cores = d.cores ∧ (d.timelineStart n).mem = d.mem := by
  have hne : (TMU_TLn_CTL_ENABLE n).off ≠ (TMU_TLn_PNUM n).off := by
    dsimp only [rTMU_TLn_CTL, rTMU_TLn_PNUM]
    omega
  unfold Dev.timelineStart
  extract_lets k first t0 d1
  have hflag : d1.flag (TMU_TLn_CTL_ENABLE n) = d.flag (TMU_TLn_CTL_ENABLE n) := (Dev.flag_wf_other _ _ hne).trans (Dev.flag_congr (Dev.setTl_regs _ _ _) _)
  have htls : d1.tls = (d.setTl n { t0 with started := false, nextK := first, released := [] }).tls := Dev.wf_tls _ _ _
  have hwait : (d1.tl n).enWait = (d.tl n).enWait := by
    have hget : d1.tl n = { t0 with started := false, nextK := first, released := [] } := by
      unfold Dev.tl
      rw [htls]
      exact Tab.getD_setD_self _ _ _ _
    rw [hget]
  have hcores : d1.cores = d.cores := (Dev.wf_cores _ _ _).trans (Dev.setTl_cores _ _ _)
  have hmem : d1.mem = d.mem := (Dev.wf_mem _ _ _).trans (Dev.setTl_mem _ _ _)
  clear_value d1
  exact ⟨(Dev.flag_congr (e := d1) rfl _).trans hflag, hwait, hcores, hmem⟩

section
variable {s : State} {c : PqCmd}

theorem exec_timelineSet (hready : s.ready 0x0504 c = true) (hn : pp c 0 < 4) (hoff : (s.began c).tlOn (pp c 0) = false) (hgrid : gridOk (pp c 1) (pp c 2) (pp c 3) (pp c 4) = true) :
    exec (.timelineSet c) s = .next (s.on <| (((((s.began c).wf (TMU_TLn_CFG_KIND (pp c 0)) (pp c 1)).wf (TMU_TLn_PERIOD (pp c 0)) (pp c 2)).wf
      (TMU_TLn_DEN (pp c 0)) (pp c 3)).wf (TMU_TLn_OFFSET (pp c 0)) (pp c 4)).fin c okS) := by
  refine (pq_ready hready _).trans (next_on ?_)
  have hok : (decide (3 < pp c 0) || (s.began c).tlOn (pp c 0) || !gridOk (pp c 1) (pp c 2) (pp c 3) (pp c 4)) = false := by
    rw [decide_eq_false (by omega), hoff, hgrid]
    rfl
  exact checks_pass _ _ _ _ _ _ hok

/-- TIMELINE_ENABLE of a timeline that is off, over a valid grid: it starts, and the command waits for its first boundary. -/
theorem timelineEnable_off {d : Dev} (hn : pp c 0 < 4) (h1 : pp c 1 = 1) (hoff : d.flag (TMU_TLn_CTL_ENABLE (pp c 0)) = false) (hgrid : d.gridValid (pp c 0) = true) :
    d.timelineEnable c = let e := (d.setFlag (TMU_TLn_CTL_ENABLE (pp c 0)) true).timelineStart (pp c 0)
      e.setTl (pp c 0) { e.tl (pp c 0) with enWait := (e.tl (pp c 0)).enWait ++ [(c.queue.val, c.tag.toNat)] } := by
  unfold Dev.timelineEnable
  extract_lets +onlyGivenNames n on wait
  have hon : on = false := hoff
  clear_value on
  subst hon
  rw [checks_pass _ _ _ _ _ _ (by rw [h1, decide_eq_false (by omega)]; rfl), checks_pass _ _ _ _ _ _ (by rw [h1]; exact congrArg (!·) hgrid), checks_nil, if_pos h1, if_neg Bool.false_ne_true]
end

/-- Settles O39: the rows of a timeline's register, its commands, and its boundary event. -/
theorem timelineRules : Obligations.TimelineRules := by
  intro s
  refine ⟨?_, ?_, ?_⟩
  · intro init n value cmds f r hr
    have hctl := Dev.timelineCtlWr_taken hr
    refine ⟨fun hold hnew hgrid => ?_, fun hold hnew hgrid => ?_, fun hold hnew => ?_⟩
    · refine next_on (hctl.trans ?_)
      dsimp only
      rw [show s.dev.flag (TMU_TLn_CTL_ENABLE n) = false from hold, show (s.dev.busWr init (rTMU_TLn_CTL n) value.toNat).1.flag (TMU_TLn_CTL_ENABLE n) = true from hnew,
        if_neg (by decide), if_pos rfl, if_pos hgrid]
    · refine next_on (hctl.trans ?_)
      dsimp only
      rw [show s.dev.flag (TMU_TLn_CTL_ENABLE n) = false from hold, show (s.dev.busWr init (rTMU_TLn_CTL n) value.toNat).1.flag (TMU_TLn_CTL_ENABLE n) = true from hnew,
        if_neg (by decide), if_pos rfl, hgrid, if_neg Bool.false_ne_true]
    · refine next_on (hctl.trans ?_)
      dsimp only
      rw [show s.dev.flag (TMU_TLn_CTL_ENABLE n) = true from hold, show (s.dev.busWr init (rTMU_TLn_CTL n) value.toNat).1.flag (TMU_TLn_CTL_ENABLE n) = false from hnew,
        if_neg (by decide), if_neg Bool.false_ne_true]
  · intro c d n
    refine ⟨fun hready hn hoff hgrid => exec_timelineSet hready hn hoff hgrid, fun hready hn h1 hoff hgrid => ?_⟩
    have hexec : exec (.timelineEnable c) s = _ := pq_ready hready _
    refine ⟨_, hexec, ?_⟩
    obtain ⟨hkeep, hwait, hcores, hmem⟩ := Dev.timelineStart_keeps (d.setFlag (TMU_TLn_CTL_ENABLE n) true) n
    have hflag := hkeep.trans (Dev.flag_setFlag_same _ _ _ (by decide : 0 + 1 ≤ 32) rfl)
    have hwas : ((d.setFlag (TMU_TLn_CTL_ENABLE n) true).tl n).enWait = (d.tl n).enWait := rfl
    rw [hwas] at hwait
    have hdev : d.timelineEnable c = _ := timelineEnable_off hn h1 hoff hgrid
    generalize (d.setFlag (TMU_TLn_CTL_ENABLE n) true).timelineStart n = e at hflag hwait hcores hmem hdev
    rw [State.on_dev, hdev]
    dsimp only
    rw [Dev.tl_setTl, if_pos rfl, hwait]
    exact ⟨(Dev.flag_congr (Dev.setTl_regs _ _ _) _).trans hflag, rfl, hcores.trans rfl, hmem.trans rfl⟩
  · intro n k t hnext hplain hdue
    have hrow : exec .boundaryEvent s = .next s.boundaryEvent := rfl
    rw [hrow]
    unfold State.boundaryEvent
    rw [hnext]
    have hadv : (s.onDev fun d => { d.advanceTo t with free := d.free + 1 }).dev.owed = s.dev.owed :=
      (Dev.owed_eq rfl rfl).trans (s.dev.owed_advanceTo t)
    have htxns := congrArg Prod.snd hadv
    refine congrArg Host.Outcome.next (State.runApplies_none (State.boundary_due k true _ ?_ ((congrArg Prod.fst hadv).trans hdue)))
    rw [Dev.armedOf_congr htxns]
    unfold Dev.txn at hplain ⊢
    rw [show (s.onDev fun d => { d.advanceTo t with free := d.free + 1 }).dev.txns = s.dev.txns from htxns]
    exact hplain
end Sys2Proof.Machine

/-! O35 and what it turns on. A taken HARQ slot's 64 header bytes are written where its pool lies (R214, R218). The spec names the windows through
which internal addresses reach the cores' local memories and gives them no base (R122, R128), so the model leaves them open: `Config.farWindow` is
opaque. O35 says that a slot taken leaves the cores; it holds exactly when no slot a pool's registers can name lies in a local memory. -/

namespace Sys2Proof.Machine

/-- No slot that the 28-bit base of a pool and a 16-bit slot number name lies in a core's local memory. -/
def SlotsOffLocalMemory : Prop := ∀ b i, b < 2 ^ 28 → i < 2 ^ 16 → ∀ c off, placeOf (b * 2 ^ 12 + i * harqSlotBytes) ≠ .ldm c off

/-! ### A write of OP that is taken (R13, R462) -/

theorem regAt_harqOp (p : Fin 2) : regAt (rMEM_HARQ_p_OP p) = some (⟨"MEM_HARQ_p_OP", 0x610, [(2, 0x20)], false, false, .mgt, .none, [⟨0, 2, .cmd, 0, [(3, 3)]⟩]⟩, [p.val]) := by
  match p with
  | 0 => rfl
  | 1 => rfl

theorem Dev.reg_setReg_reg (d : Dev) (off o : Nat) : (d.setReg off (d.reg off)).reg o = d.reg o := by
  rw [Dev.reg_setReg]
  split
  · next h => rw [h, Nat.mod_eq_of_lt (d.reg_lt off)]
  · rfl
theorem Dev.rf_setReg_reg (d : Dev) (off : Nat) (f : Fld) : (d.setReg off (d.reg off)).rf f = d.rf f := by
  unfold Dev.rf
  rw [d.reg_setReg_reg]

/-- Selecting both bits of a two-bit command fires it with the value's bits, but for the reserved code 3. -/
theorem writeField_cmd2 {off : Nat} (hplain : plainOff off) (on : Bool) {m x op : Nat} (hm : bitsAt m 0 2 = 3) (hx : bitsAt x 0 2 = op) (h3 : op < 3) (a : WriteAcc) :
    writeField on off m x a ⟨0, 2, .cmd, 0, [(3, 3)]⟩ = { a with cmds := a.cmds + op } := by
  have hnv : (2 ^ 2 - 1 - 3) &&& bitsAt a.v 0 2 ||| 3 &&& op = op := by
    rw [show (2 ^ 2 - 1 - 3) &&& bitsAt a.v 0 2 = 0 from Nat.zero_and _, Nat.zero_or]
    match op, h3 with
    | 0, _ => rfl
    | 1, _ => rfl
    | 2, _ => rfl
  have hrsv : ([(3, 3)].any fun r => decide (r.1 ≤ op) && decide (op ≤ r.2)) = false := by
    match op, h3 with
    | 0, _ => rfl
    | 1, _ => rfl
    | 2, _ => rfl
  unfold writeField
  dsimp only
  rw [hm, hx, if_neg (by decide), hnv, hrsv, badCode_plain hplain, Nat.pow_zero, Nat.mul_one]
  rfl

/-- Selecting both bits of OP fires the operation in the value's low bits. -/
theorem Dev.busWr_harqOp {d : Dev} {init : Initiator} {p : Fin 2} {v op : Nat} (hhole : d.holeFor init (rMEM_HARQ_p_OP p) = false) (hdown : d.hostDown init = false)
    (hon : d.domOn 78 = true) (hmask : v / 2 ^ 16 % 4 = 3) (hop : bitsAt v 0 2 = op) (h3 : op < 3) :
    d.busWr init (rMEM_HARQ_p_OP p) v = (d.setReg (rMEM_HARQ_p_OP p) (d.reg (rMEM_HARQ_p_OP p)), .yes op) := by
  have hplain : plainOff (rMEM_HARQ_p_OP p) := by
    unfold plainOff rMEM_HARQ_p_OP
    omega
  have hm : bitsAt (v / 2 ^ 16) 0 2 = 3 := by
    unfold bitsAt
    rw [Nat.pow_zero, Nat.div_one]
    exact hmask
  have hx : bitsAt (v % 2 ^ 16) 0 2 = op := by
    rw [← hop]
    unfold bitsAt
    rw [Nat.pow_zero, Nat.div_one, Nat.div_one]
    omega
  have hwritten : d.written ⟨"MEM_HARQ_p_OP", 0x610, [(2, 0x20)], false, false, .mgt, .none, [⟨0, 2, .cmd, 0, [(3, 3)]⟩]⟩ [p.val] (rMEM_HARQ_p_OP p) v =
      ⟨d.reg (rMEM_HARQ_p_OP p), false, op⟩ := by
    unfold Dev.written
    dsimp only [List.foldl_cons, List.foldl_nil, writeMask, writeVal]
    rw [if_neg Bool.false_ne_true, if_neg Bool.false_ne_true, writeField_cmd2 hplain _ hm hx h3, Nat.zero_add]
  have hunlock : rMEM_HARQ_p_OP p ≠ rTHM_UNLOCK := by
    unfold rMEM_HARQ_p_OP rTHM_UNLOCK
    omega
  rw [Dev.busWr_taken hhole hdown (regAt_harqOp p) hon hplain hunlock rfl (congrArg WriteAcc.ignored hwritten), hwritten]

/-! ### Slots taken and freed -/

theorem nth_setNth_same {α : Type} (z v : α) {l : List α} {i : Nat} (h : i < l.length) : nth z (setNth l i v) i = v := by
  induction l generalizing i with
  | nil => exact absurd h (Nat.not_lt_zero _)
  | cons a l ih =>
    cases i with
    | zero => rfl
    | succ i => exact ih (Nat.lt_of_succ_lt_succ h)
theorem nth_setNth_other {α : Type} (z v : α) (l : List α) {i j : Nat} (h : j ≠ i) : nth z (setNth l i v) j = nth z l j := by
  induction l generalizing i j with
  | nil => rfl
  | cons a l ih =>
    cases i with
    | zero =>
      cases j with
      | zero => exact absurd rfl h
      | succ j => rfl
    | succ i =>
      cases j with
      | zero => rfl
      | succ j => exact ih fun hij => h (congrArg (· + 1) hij)

/-- The device with the slots `l` of pool `p` in use. -/
def Dev.withSlots (d : Dev) (p : Nat) (l : List Nat) : Dev := { d with mem.harq := setNth d.mem.harq p l }

section
variable (d : Dev) (p : Nat)
theorem Dev.mem_harqShow : (d.harqShow p).mem = d.mem := (Dev.wf_mem _ _ _).trans (Dev.wf_mem _ _ _)
theorem Dev.cores_harqShow : (d.harqShow p).cores = d.cores := (Dev.wf_cores _ _ _).trans (Dev.wf_cores _ _ _)
theorem Dev.refused_harqShow : (d.harqShow p).rf (MEM_HARQ_p_REFUSED p) = d.rf (MEM_HARQ_p_REFUSED p) := by
  have hfree : (MEM_HARQ_p_REFUSED p).off ≠ (MEM_HARQ_p_FREE p).off := by
    dsimp only [rMEM_HARQ_p_REFUSED, rMEM_HARQ_p_FREE]
    omega
  have hused : (MEM_HARQ_p_REFUSED p).off ≠ (MEM_HARQ_p_USED p).off := by
    dsimp only [rMEM_HARQ_p_REFUSED, rMEM_HARQ_p_USED]
    omega
  exact (Dev.rf_wf_other _ _ _ _ hfree).trans (Dev.rf_wf_other _ _ _ _ hused)

/-- A write of bytes changes no slot's use, no register, and no core unless it lies in a local memory. -/
theorem Dev.poke_keeps (a : Nat) (bs : List Byte) : (d.poke a bs).mem.harq = d.mem.harq ∧ (d.poke a bs).regs = d.regs ∧
    ((∀ c off, placeOf a ≠ .ldm c off) → (d.poke a bs).cores = d.cores) := by
  have hhost (x : Nat) : (d.hostWrite x bs).mem = d.mem ∧ (d.hostWrite x bs).regs = d.regs ∧ (d.hostWrite x bs).cores = d.cores := by
    unfold Dev.hostWrite
    split <;> exact ⟨rfl, rfl, rfl⟩
  unfold Dev.poke
  split
  · exact ⟨rfl, rfl, fun _ => rfl⟩
  · exact ⟨rfl, rfl, fun _ => rfl⟩
  · exact ⟨rfl, rfl, fun _ => rfl⟩
  · next c off hplace => exact ⟨rfl, rfl, fun h => absurd hplace (h c off)⟩
  · exact ⟨rfl, rfl, fun _ => rfl⟩
  · obtain ⟨hmem, hregs, hcores⟩ := hhost (d.obBase + _)
    exact ⟨congrArg (·.harq) hmem, hregs, fun _ => hcores⟩
  · exact ⟨rfl, rfl, fun _ => rfl⟩

variable {d p} {i : Nat}
theorem Dev.harqAlloc_free (hi : i < d.rf (MEM_HARQ_p_COUNT p)) (hfree : i ∉ nth [] d.mem.harq p) :
    d.harqAlloc p i = ((((d.withSlots p (i :: nth [] d.mem.harq p)).poke (d.slotAddr p i) (List.replicate 64 0)).harqShow p), true) := by
  unfold Dev.harqAlloc
  exact if_neg fun h => h.elim (fun h => absurd hi (Nat.not_lt.2 h)) fun h => hfree (List.contains_iff_mem.1 h)
theorem Dev.harqAlloc_refused (h : d.rf (MEM_HARQ_p_COUNT p) ≤ i ∨ i ∈ nth [] d.mem.harq p) : d.harqAlloc p i = (d.bump (MEM_HARQ_p_REFUSED p), false) := by
  unfold Dev.harqAlloc
  exact if_pos (h.imp id List.contains_iff_mem.2)
theorem Dev.harqFree_used (hi : i < d.rf (MEM_HARQ_p_COUNT p)) (hused : i ∈ nth [] d.mem.harq p) :
    d.harqFree p i = ((d.withSlots p ((nth [] d.mem.harq p).filter (· != i))).harqShow p, true) := by
  unfold Dev.harqFree
  refine if_neg fun h => h.elim (fun h => absurd hi (Nat.not_lt.2 h)) fun h => ?_
  rw [List.contains_iff_mem.2 hused] at h
  exact Bool.false_ne_true h

/-- A free slot below COUNT is taken: it heads the pool's list, the other pool and REFUSED stand, and so do the cores unless it lies in one. -/
theorem Dev.harqAlloc_takes (hlen : p < d.mem.harq.length) (hi : i < d.rf (MEM_HARQ_p_COUNT p)) (hfree : i ∉ nth [] d.mem.harq p) :
    (d.harqAlloc p i).2 = true ∧ nth [] (d.harqAlloc p i).1.mem.harq p = i :: nth [] d.mem.harq p ∧
    (∀ q, q ≠ p → nth [] (d.harqAlloc p i).1.mem.harq q = nth [] d.mem.harq q) ∧ (d.harqAlloc p i).1.rf (MEM_HARQ_p_REFUSED p) = d.rf (MEM_HARQ_p_REFUSED p) ∧
    ((∀ c off, placeOf (d.slotAddr p i) ≠ .ldm c off) → (d.harqAlloc p i).1.cores = d.cores) := by
  obtain ⟨hharq, hregs, hcores⟩ := (d.withSlots p (i :: nth [] d.mem.harq p)).poke_keeps (d.slotAddr p i) (List.replicate 64 0)
  rw [Dev.harqAlloc_free hi hfree]
  dsimp only
  rw [Dev.mem_harqShow, Dev.cores_harqShow, Dev.refused_harqShow, Dev.rf_congr hregs, hharq]
  exact ⟨rfl, nth_setNth_same _ _ hlen, fun q hq => nth_setNth_other _ _ _ hq, Dev.rf_congr rfl _, hcores⟩
/-- A used slot below COUNT is freed: it leaves the pool's list, and the other pool, REFUSED, the bytes and the cores stand. -/
theorem Dev.harqFree_frees (hlen : p < d.mem.harq.length) (hi : i < d.rf (MEM_HARQ_p_COUNT p)) (hused : i ∈ nth [] d.mem.harq p) :
    nth [] (d.harqFree p i).1.mem.harq p = (nth [] d.mem.harq p).filter (· != i) ∧ (∀ q, q ≠ p → nth [] (d.harqFree p i).1.mem.harq q = nth [] d.mem.harq q) ∧
    (d.harqFree p i).1.rf (MEM_HARQ_p_REFUSED p) = d.rf (MEM_HARQ_p_REFUSED p) ∧ (d.harqFree p i).1.mem.cells = d.mem.cells ∧ (d.harqFree p i).1.cores = d.cores := by
  rw [Dev.harqFree_used hi hused]
  dsimp only
  rw [Dev.mem_harqShow, Dev.cores_harqShow, Dev.refused_harqShow]
  exact ⟨nth_setNth_same _ _ hlen, fun q hq => nth_setNth_other _ _ _ hq, Dev.rf_congr rfl _, rfl, rfl⟩
end
end Sys2Proof.Machine

/-! O35: the rows of HARQ slots, and the one fact they leave open (R214, R217, R218). -/

namespace Sys2Proof.Machine

/-- The device with other soft buffers of HARQ processes. -/
def Dev.withSoft (d : Dev) (t : Tab (List (Nat × Nat))) : Dev := { d with fw.soft := t }
theorem Dev.rf_withSoft (d : Dev) (t : Tab (List (Nat × Nat))) (f : Fld) : (d.withSoft t).rf f = d.rf f := Dev.rf_congr rfl f

section
variable {d e : Dev} {init : Initiator} {p v cmds : Nat} (hr : d.busWr init (rMEM_HARQ_p_OP p) v = (e, .yes cmds))
include hr
theorem Dev.harqOp_alloc (hop : bitsAt cmds 0 2 = 1) (proc : Option Nat) : ∃ t, d.harqOp init p 1 v proc = ((e.harqAlloc p (d.rf (MEM_HARQ_p_SLOT p))).1).withSoft t := by
  unfold Dev.harqOp
  dsimp only
  rw [hr]
  dsimp only
  rw [if_neg (not_not_intro hop), if_pos rfl]
  split
  · split
    · exact ⟨_, rfl⟩
    · exact ⟨_, rfl⟩
  · exact ⟨_, rfl⟩
theorem Dev.harqOp_alloc_none (hop : bitsAt cmds 0 2 = 1) : d.harqOp init p 1 v none = (e.harqAlloc p (d.rf (MEM_HARQ_p_SLOT p))).1 := by
  unfold Dev.harqOp
  dsimp only
  rw [hr]
  dsimp only
  rw [if_neg (not_not_intro hop), if_pos rfl]
theorem Dev.harqOp_free (hop : bitsAt cmds 0 2 = 2) : d.harqOp init p 2 v none = ((e.harqFree p (d.rf (MEM_HARQ_p_SLOT p))).1).withSoft
    (Tab.keep (fun _ l => !l.isEmpty) (Tab.mapV (fun _ l => l.filter (· != (p, d.rf (MEM_HARQ_p_SLOT p)))) ((e.harqFree p (d.rf (MEM_HARQ_p_SLOT p))).1).fw.soft)) := by
  unfold Dev.harqOp
  dsimp only
  rw [hr]
  dsimp only
  rw [if_neg (not_not_intro hop), if_neg (by decide)]
  rfl
end

/-- No soft buffer of the table that a freed slot is taken out of names it. -/
theorem freed_not_named {t : Tab (List (Nat × Nat))} {x : Nat × Nat} {k : Nat} {l : List (Nat × Nat)}
    (h : (k, l) ∈ Tab.keep (fun _ l => !l.isEmpty) (Tab.mapV (fun _ l => l.filter (· != x)) t)) : x ∉ l := by
  obtain ⟨y, -, hy⟩ := List.mem_map.1 (List.mem_filter.1 h).1
  obtain rfl : y.2.filter (· != x) = l := congrArg Prod.snd hy
  intro hx
  exact absurd rfl (bne_iff_ne.1 (List.mem_filter.1 hx).2)

theorem placeOf_slot (h : SlotsOffLocalMemory) (d : Dev) (p c off : Nat) : placeOf (d.slotAddr p (d.rf (MEM_HARQ_p_SLOT p))) ≠ .ldm c off := by
  have hlo : d.rf (MEM_HARQ_p_BASE_LO p) < 2 ^ 20 := d.rf_lt _
  have hhi : d.rf (MEM_HARQ_p_BASE_HI p) < 2 ^ 8 := d.rf_lt _
  have haddr : d.slotAddr p (d.rf (MEM_HARQ_p_SLOT p)) = (d.rf (MEM_HARQ_p_BASE_LO p) + d.rf (MEM_HARQ_p_BASE_HI p) * 2 ^ 20) * 2 ^ 12 + d.rf (MEM_HARQ_p_SLOT p) * harqSlotBytes := by
    unfold Dev.slotAddr Dev.harqBase
    omega
  rw [haddr]
  exact h _ _ (by omega) (d.rf_lt _) c off

/-- Writing a register's own value back leaves every field, the memories and the cores. -/
theorem Dev.setReg_reg_keeps (d : Dev) (off : Nat) : (∀ f, (d.setReg off (d.reg off)).rf f = d.rf f) ∧ (d.setReg off (d.reg off)).mem = d.mem ∧ (d.setReg off (d.reg off)).cores = d.cores :=
  ⟨d.rf_setReg_reg off, rfl, rfl⟩

theorem Dev.slotAddr_congr {d e : Dev} (h : ∀ f, e.rf f = d.rf f) (p i : Nat) : e.slotAddr p i = d.slotAddr p i := by
  unfold Dev.slotAddr Dev.harqBase
  rw [h, h]

section
variable {s : State} {init : Initiator} {p : Fin 2} {value : Word} (hhole : s.dev.holeFor init (rMEM_HARQ_p_OP p) = false) (hdown : s.dev.hostDown init = false)
  (hon : s.dev.domOn 78 = true) (hlen : s.dev.mem.harq.length = 2) (hi : s.dev.rf (MEM_HARQ_p_SLOT p) < s.dev.rf (MEM_HARQ_p_COUNT p)) (hmask : value.toNat / 2 ^ 16 % 4 = 3)
include hhole hdown hon hlen hi hmask

/-- OP = 1 over a free slot: the slot is taken; the cores stand unless it lies in one. -/
theorem exec_harqSlotAlloc_free (hop : bitsAt value.toNat 0 2 = 1) (hfree : s.dev.rf (MEM_HARQ_p_SLOT p) ∉ nth [] s.dev.mem.harq p) (proc : Option (Fin 256 × Fin 32)) :
    nextAnd (exec (.harqSlotAlloc init p value proc) s) fun t =>
      nth [] t.dev.mem.harq p = s.dev.rf (MEM_HARQ_p_SLOT p) :: nth [] s.dev.mem.harq p ∧ nth [] t.dev.mem.harq (1 - p.val) = nth [] s.dev.mem.harq (1 - p.val) ∧
      t.dev.rf (MEM_HARQ_p_REFUSED p) = s.dev.rf (MEM_HARQ_p_REFUSED p) ∧
      ((∀ c off, placeOf (s.dev.slotAddr p (s.dev.rf (MEM_HARQ_p_SLOT p))) ≠ .ldm c off) → t.dev.cores = s.dev.cores) ∧ t.sec = s.sec := by
  obtain ⟨t, ht⟩ := Dev.harqOp_alloc (Dev.busWr_harqOp hhole hdown hon hmask hop (by decide)) (rfl : bitsAt 1 0 2 = 1) (proc.map fun x => 32 * x.1.val + x.2.val)
  obtain ⟨hrf, hmem, hcores⟩ := s.dev.setReg_reg_keeps (rMEM_HARQ_p_OP p)
  generalize s.dev.setReg (rMEM_HARQ_p_OP p) (s.dev.reg (rMEM_HARQ_p_OP p)) = e at ht hrf hmem hcores
  obtain ⟨-, hlist, hother, hrefused, hkept⟩ := Dev.harqAlloc_takes (d := e) (p := p) (i := s.dev.rf (MEM_HARQ_p_SLOT p)) (by rw [hmem, hlen]; exact p.isLt) (by rw [hrf]; exact hi)
    (by rw [hmem]; exact hfree)
  rw [hmem] at hlist
  refine ⟨_, congrArg (fun d => Host.Outcome.next (s.on d)) ht, hlist, (hother _ (by omega)).trans (by rw [hmem]), hrefused.trans (hrf _), fun h => ?_, rfl⟩
  exact (hkept fun c off => by rw [Dev.slotAddr_congr hrf]; exact h c off).trans hcores

/-- OP = 2 over a used slot frees it. -/
theorem exec_harqSlotFree_used (hop : bitsAt value.toNat 0 2 = 2) (hused : s.dev.rf (MEM_HARQ_p_SLOT p) ∈ nth [] s.dev.mem.harq p) :
    nextAnd (exec (.harqSlotFree init p value) s) fun t =>
      nth [] t.dev.mem.harq p = (nth [] s.dev.mem.harq p).filter (· != s.dev.rf (MEM_HARQ_p_SLOT p)) ∧ nth [] t.dev.mem.harq (1 - p.val) = nth [] s.dev.mem.harq (1 - p.val) ∧
      t.dev.rf (MEM_HARQ_p_REFUSED p) = s.dev.rf (MEM_HARQ_p_REFUSED p) ∧ t.dev.mem.cells = s.dev.mem.cells ∧ t.dev.cores = s.dev.cores ∧ t.sec = s.sec := by
  have ht := Dev.harqOp_free (Dev.busWr_harqOp hhole hdown hon hmask hop (by decide)) (rfl : bitsAt 2 0 2 = 2)
  obtain ⟨hrf, hmem, hcores⟩ := s.dev.setReg_reg_keeps (rMEM_HARQ_p_OP p)
  generalize s.dev.setReg (rMEM_HARQ_p_OP p) (s.dev.reg (rMEM_HARQ_p_OP p)) = e at ht hrf hmem hcores
  obtain ⟨hlist, hother, hrefused, hcells, hkept⟩ := Dev.harqFree_frees (d := e) (p := p) (i := s.dev.rf (MEM_HARQ_p_SLOT p)) (by rw [hmem, hlen]; exact p.isLt)
    (by rw [hrf]; exact hi) (by rw [hmem]; exact hused)
  generalize (e.harqFree p (s.dev.rf (MEM_HARQ_p_SLOT p))).1 = f at ht hlist hother hrefused hcells hkept
  rw [hmem] at hlist hcells
  refine ⟨_, congrArg (fun d => Host.Outcome.next (s.on d)) ht, hlist, (hother _ (by omega)).trans (by rw [hmem]), ?_, hcells, hkept.trans hcores, rfl⟩
  exact (Dev.rf_withSoft _ _ _).trans (hrefused.trans (hrf _))
end

/-- The rows of HARQ slots, where no slot lies in a local memory. -/
theorem harqRules_of_slotsOff (h : SlotsOffLocalMemory) : Obligations.HarqRules := by
  refine ⟨?_, ?_⟩
  · intro init p value s r i
    refine ⟨fun hhole hdown hon hlen hi hmask => ⟨fun hop hfree proc => ?_, fun hop hused => exec_harqSlotFree_used hhole hdown hon hlen hi hmask hop hused⟩,
      fun cmds hyes => ⟨fun hop => ?_, fun hop => ?_⟩⟩
    · obtain ⟨t, ht, hlist, hother, hrefused, hcores, hsec⟩ := exec_harqSlotAlloc_free hhole hdown hon hlen hi hmask hop hfree proc
      exact ⟨t, ht, hlist, hother, hrefused, hcores (placeOf_slot h s.dev p), hsec⟩
    · exact next_on (Dev.harqOp_alloc_none (Prod.ext rfl hyes) hop)
    · refine ⟨_, congrArg (fun d => Host.Outcome.next (s.on d)) (Dev.harqOp_free (e := r.1) (Prod.ext rfl hyes) hop), rfl, fun k l hkl => freed_not_named hkl⟩
  · intro d p i hlen
    refine ⟨fun hi hfree => ?_, fun hno => Dev.harqAlloc_refused hno⟩
    obtain ⟨htaken, hlist, -⟩ := Dev.harqAlloc_takes (by rw [hlen]; exact p.isLt) hi hfree
    exact ⟨htaken, hlist⟩

/-! ### A slot in a local memory -/

theorem Core.word_setWord (k : Core) (a v b : Nat) : (k.setWord a v).word b = if b % 2 ^ 18 = a % 2 ^ 18 then v % 4096 else k.word b := Tab.getD_setD _ _ _ _ _
theorem Core.word_setWord_zero {k : Core} {b : Nat} (a : Nat) (h : k.word b = 0) : (k.setWord a 0).word b = 0 := by
  rw [Core.word_setWord]
  split
  · rfl
  · exact h
theorem Core.word_setViewGroup_zero {k : Core} {b : Nat} (g : Nat) (h : k.word b = 0 ∨ b = 2 * g) : (k.setViewGroup g 0).word b = 0 := by
  refine Core.word_setWord_zero _ ?_
  rcases h with h | rfl
  · exact Core.word_setWord_zero _ h
  · rw [Core.word_setWord, if_pos rfl]
/-- A header of zeros clears the first word it covers. -/
theorem Core.word_setView_zeros (k : Core) (g : Nat) : (k.setView g (List.replicate 64 0)).word (2 * g) = 0 := by
  have hzero : ∀ i ∈ upTo 21, leAt (List.replicate 64 (0 : Byte)) (3 * i) 3 = 0 := by decide
  unfold Core.setView
  rw [List.length_replicate, show 64 / 3 = 20 + 1 from rfl, show upTo (20 + 1) = 0 :: (upTo 20).map (· + 1) from rfl, List.foldl_cons]
  refine List.foldlRecOn (motive := fun k : Core => k.word (2 * g) = 0) _ _ ?_ fun k hk i hi => ?_
  · rw [hzero 0 (by decide)]
    exact Core.word_setViewGroup_zero _ (Or.inr rfl)
  · rw [hzero i ?_]
    · exact Core.word_setViewGroup_zero _ (Or.inl hk)
    · exact List.mem_cons_of_mem 0 hi

theorem Dev.poke_ldm {d : Dev} {a c off : Nat} (h : placeOf a = .ldm c off) (bs : List Byte) : d.poke a bs = d.updCore c fun k => k.setView (off / 3) bs := by
  unfold Dev.poke
  rw [h]

/-- Taking a slot that lies in a local memory clears the word its address names. -/
theorem Dev.harqAlloc_clears (d : Dev) {p i c off : Nat} (hi : i < d.rf (MEM_HARQ_p_COUNT p)) (hfree : i ∉ nth [] d.mem.harq p) (hplace : placeOf (d.slotAddr p i) = .ldm c off) :
    ((d.harqAlloc p i).1.core c).word (2 * (off / 3)) = 0 := by
  have hcores : (d.harqAlloc p i).1.cores = ((d.withSlots p (i :: nth [] d.mem.harq p)).updCore c fun k => k.setView (off / 3) (List.replicate 64 0)).cores := by
    rw [Dev.harqAlloc_free hi hfree]
    dsimp only
    rw [Dev.cores_harqShow, Dev.poke_ldm hplace]
  have hcore : (d.harqAlloc p i).1.core c = ((d.withSlots p (i :: nth [] d.mem.harq p)).core c).setView (off / 3) (List.replicate 64 0) := by
    unfold Dev.core
    rw [hcores]
    exact Tab.getD_setD_self _ _ _ _
  rw [hcore]
  exact Core.word_setView_zeros _ _

/-- Pool 0 based at 4 KiB block `b`, with slot `i` named and below COUNT. -/
def poolRegs (b i : Nat) : Dev :=
  ((((Dev.reset.wf (PMU_PDd_STS_STATE 78) 0).wf (MEM_HARQ_p_BASE_LO 0) b).wf (MEM_HARQ_p_BASE_HI 0) (b / 2 ^ 20)).wf (MEM_HARQ_p_COUNT 0) (i + 1)).wf (MEM_HARQ_p_SLOT 0) i
/-- That pool, with word `w` of core `c` holding 1. -/
def poolAt (b i c w : Nat) : Dev := { poolRegs b i with cores := [(c, { Core.reset with mem := [(w % 2 ^ 18, 1)] })], mem := Mem.reset }
/-- A machine with that pool and that core. -/
def statePoolAt (b i c w : Nat) : State := State.reset.on (poolAt b i c w)

section
variable {b i c w : Nat}
theorem rf_poolAt (f : Fld) : (poolAt b i c w).rf f = (((((Dev.reset.wf (PMU_PDd_STS_STATE 78) 0).wf (MEM_HARQ_p_BASE_LO 0) b).wf (MEM_HARQ_p_BASE_HI 0) (b / 2 ^ 20)).wf
    (MEM_HARQ_p_COUNT 0) (i + 1)).wf (MEM_HARQ_p_SLOT 0) i).rf f := by
  have hregs : (poolAt b i c w).regs = (poolRegs b i).regs := rfl
  rw [Dev.rf_congr hregs]
  rfl
theorem poolAt_slot (hi : i < 2 ^ 16) : (poolAt b i c w).rf (MEM_HARQ_p_SLOT 0) = i := by
  rw [rf_poolAt, Dev.rf_wf_same _ _ _ (by decide)]
  exact Nat.mod_eq_of_lt hi
theorem poolAt_count (hi : i < 2 ^ 16) : (poolAt b i c w).rf (MEM_HARQ_p_COUNT 0) = i + 1 := by
  rw [rf_poolAt, Dev.rf_wf_other _ _ _ _ (by decide), Dev.rf_wf_same _ _ _ (by decide)]
  exact Nat.mod_eq_of_lt (show _ < 2 ^ 17 by omega)
theorem poolAt_slotAddr (hb : b < 2 ^ 28) (hi : i < 2 ^ 16) : (poolAt b i c w).slotAddr 0 ((poolAt b i c w).rf (MEM_HARQ_p_SLOT 0)) = b * 2 ^ 12 + i * harqSlotBytes := by
  have hhi : (poolAt b i c w).rf (MEM_HARQ_p_BASE_HI 0) = b / 2 ^ 20 := by
    rw [rf_poolAt, Dev.rf_wf_other _ _ _ _ (by decide), Dev.rf_wf_other _ _ _ _ (by decide), Dev.rf_wf_same _ _ _ (by decide)]
    exact Nat.mod_eq_of_lt (show _ < 2 ^ 8 by omega)
  have hlo : (poolAt b i c w).rf (MEM_HARQ_p_BASE_LO 0) = b % 2 ^ 20 := by
    rw [rf_poolAt, Dev.rf_wf_other _ _ _ _ (by decide), Dev.rf_wf_other _ _ _ _ (by decide), Dev.rf_wf_other _ _ _ _ (by decide), Dev.rf_wf_same _ _ _ (by decide)]
  unfold Dev.slotAddr Dev.harqBase
  rw [poolAt_slot hi, hhi, hlo]
  omega
theorem poolAt_on : (poolAt b i c w).domOn 78 = true := by
  have hdom : (poolAt b i c w).rf (PMU_PDd_STS_STATE 78) = 0 := by
    rw [rf_poolAt, Dev.rf_wf_other _ _ _ _ (by decide), Dev.rf_wf_other _ _ _ _ (by decide), Dev.rf_wf_other _ _ _ _ (by decide), Dev.rf_wf_other _ _ _ _ (by decide),
      Dev.rf_wf_same _ _ _ (by decide)]
    exact Nat.zero_mod _
  unfold Dev.domOn Dev.dom
  rw [hdom]
  rfl
theorem poolAt_reached : (poolAt b i c w).holeFor .firmware (rMEM_HARQ_p_OP 0) = false := by
  have hrec : (poolAt b i c w).rf SEC_BOOT_STS_RECOVERY = 0 := by
    rw [rf_poolAt, Dev.rf_wf_other _ _ _ _ (by decide), Dev.rf_wf_other _ _ _ _ (by decide), Dev.rf_wf_other _ _ _ _ (by decide), Dev.rf_wf_other _ _ _ _ (by decide),
      Dev.rf_wf_other _ _ _ _ (by decide)]
    decide
  have hflag : (poolAt b i c w).flag SEC_BOOT_STS_RECOVERY = false := by
    unfold Dev.flag
    rw [hrec]
    rfl
  have hat : (regAt (rMEM_HARQ_p_OP 0)).isNone = false := congrArg Option.isNone (regAt_harqOp 0)
  unfold Dev.holeFor
  have hoff : (rMEM_HARQ_p_OP 0 == rSEC_RECOVERY_CTL || rMEM_HARQ_p_OP 0 == rSEC_RECOVERY_LEN) = false := by decide
  rw [hflag, hat, hoff]
  rfl
theorem poolAt_word : ((poolAt b i c w).core c).word w = 1 := by
  unfold Dev.core Core.word
  have hone {β : Type} (z : Nat → β) (k : Nat) (v : β) : Tab.getD z [(k, v)] k = v := by
    unfold Tab.getD Tab.find
    rw [if_pos (beq_self_eq_true k)]
  have hcore : Tab.getD (fun _ => Core.reset) (poolAt b i c w).cores c = { Core.reset with mem := [(w % 2 ^ 18, 1)] } := hone _ _ _
  rw [hcore]
  exact hone _ _ _
end

/-- O35 fails where a slot lies in a local memory: taking it clears a word of a core. -/
theorem slotsOff_of_harqRules (h : Obligations.HarqRules) : SlotsOffLocalMemory := by
  intro b i hb hi c off hplace
  obtain ⟨s, hs⟩ : ∃ s, s = statePoolAt b i c (2 * (off / 3)) := ⟨_, rfl⟩
  have hdev : s.dev = poolAt b i c (2 * (off / 3)) := congrArg State.dev hs
  have hlt : s.dev.rf (MEM_HARQ_p_SLOT 0) < s.dev.rf (MEM_HARQ_p_COUNT 0) := by
    rw [hdev, poolAt_slot hi, poolAt_count hi]
    omega
  have hreached : s.dev.holeFor .firmware (rMEM_HARQ_p_OP (0 : Fin 2)) = false := hdev ▸ poolAt_reached
  have hon : s.dev.domOn 78 = true := hdev ▸ poolAt_on
  have hlen : s.dev.mem.harq.length = 2 := by rw [hdev]; rfl
  have hnone : s.dev.rf (MEM_HARQ_p_SLOT 0) ∉ nth [] s.dev.mem.harq 0 := by
    rw [hdev]
    exact List.not_mem_nil
  obtain ⟨hrow, -⟩ := h
  obtain ⟨htakes, -⟩ := hrow .firmware 0 0x30001#32 s
  obtain ⟨t, ht, -, -, -, hcores, -⟩ := (htakes hreached rfl hon hlen hlt (by decide)).1 (by decide) hnone none
  have hr := Dev.busWr_harqOp (d := s.dev) (init := .firmware) (p := 0) (v := (0x30001#32).toNat) hreached rfl hon (by decide) (by decide : bitsAt _ 0 2 = 1) (by decide)
  have hexec : exec (.harqSlotAlloc .firmware 0 0x30001#32 none) s = _ := congrArg (fun d => Host.Outcome.next (s.on d)) (Dev.harqOp_alloc_none hr rfl)
  obtain rfl : s.on _ = t := Host.Outcome.next.inj (hexec.symm.trans ht)
  obtain ⟨hrf, hmem, hsame⟩ := s.dev.setReg_reg_keeps (rMEM_HARQ_p_OP (0 : Fin 2))
  have haddr : s.dev.slotAddr 0 (s.dev.rf (MEM_HARQ_p_SLOT 0)) = b * 2 ^ 12 + i * harqSlotBytes := by
    rw [hdev]
    exact poolAt_slotAddr hb hi
  have hword : (s.dev.core c).word (2 * (off / 3)) = 1 := by
    rw [hdev]
    exact poolAt_word
  clear hs hdev
  generalize s.dev.setReg (rMEM_HARQ_p_OP (0 : Fin 2)) (s.dev.reg (rMEM_HARQ_p_OP (0 : Fin 2))) = e at hcores hrf hmem hsame
  have hcleared := (e.harqAlloc_clears (c := c) (off := off) (p := 0) (i := s.dev.rf (MEM_HARQ_p_SLOT 0)) (by rw [hrf]; exact hlt) (by rw [hmem]; exact hnone) (by rw [Dev.slotAddr_congr hrf, haddr]; exact hplace))
  have hcore : ((e.harqAlloc 0 (s.dev.rf (MEM_HARQ_p_SLOT 0))).1.core c) = s.dev.core c := congrArg (fun t => Tab.getD (fun _ => Core.reset) t c) hcores
  rw [hcore, hword] at hcleared
  exact absurd hcleared (by decide)

/-- O35 holds exactly when no slot lies in a core's local memory: a fact of the opaque `Config.farWindow`, which the model leaves open. -/
theorem harqRules_iff_slotsOff : Obligations.HarqRules ↔ SlotsOffLocalMemory := ⟨slotsOff_of_harqRules, harqRules_of_slotsOff⟩
end Sys2Proof.Machine
